-- ==== Sys2Proof/Word.lean ====
section
/-! DEFINITION. The plain words of the PX-960-M model: bytes, IEEE words, instants and sparse tables. -/

namespace Sys2Proof

/-- One byte of a message, an object or a store (00 R6). -/
abbrev Byte := BitVec 8

/-- A REAL32: an IEEE 754 binary32 value held as its 32 bits (00 R8). -/
abbrev Real32 := BitVec 32

/-- A working register of the ROM executor (08, 32 registers of 64 bits). -/
abbrev Word64 := BitVec 64

/-- A sparse table: what the key is not listed for reads as the table's default.
The operations keep keys strictly rising and list no default. -/
abbrev Tbl (α : Type) := List (Nat × α)

/-- A sparse byte store; an unlisted address reads 0 (log entry 4). -/
abbrev Memory := Tbl Byte

/-- Milliseconds, microseconds and seconds in the model's unit of time, the ns. -/
abbrev msNs : Nat := 1000000
abbrev usNs : Nat := 1000
abbrev secNs : Nat := 1000000000

end Sys2Proof
end

