-- ==== Sys2Proof/Types.lean ====
section
/-! DEFINITION. The data the commands carry and the subsystems hold: enumerations of the manual's codes and the
records of its tables. Each field's docstring names the rule that gives it; the value after := is its reset value. -/

namespace Sys2Proof

/-! ### Codes -/

/-- The path of a message (04 R76, R82). -/
inductive Path where
  | ring | svc
  deriving DecidableEq, Repr

/-- A trunk port (02 Table 2.3). -/
inductive Port where
  | t1 | t2
  deriving DecidableEq, Repr

/-- The monitored supplies of `SUPPLY_STATUS` (03 Table 3.2, Table 3.11). -/
inductive Supply where
  | t1 | t2 | fsa | fsb | msLow | msHigh
  deriving DecidableEq, Repr

/-- The mode of the module (08 R189); the numbers are those of `MODE`. -/
inductive Mode where
  | stop | run | hold
  deriving DecidableEq, Repr

/-- Owner codes (01 Table 1.10). -/
inductive Owner where
  | none | forme | engine | motion | cadence | synchro | safety
  deriving DecidableEq, Repr

/-- Discipline states (06 Table 6.2). -/
inductive Disc where
  | free | acquiring | locked | slewing | holdover | master
  deriving DecidableEq, Repr

/-- Tracker states (06 Table 6.6). -/
inductive TrkState where
  | off | valid | still | coasting | lost
  deriving DecidableEq, Repr

/-- Synchro-check states (06 Table 6.9). -/
inductive ScState where
  | idle | armed | closing | closed | timedOut | aborted
  deriving DecidableEq, Repr

/-- Node states (05 Table 5.11). -/
inductive NodeState where
  | unused | joining | exchanging | lost | rejoining
  deriving DecidableEq, Repr

/-- Pair states (16 Table 16.1). -/
inductive PairState where
  | single | starting | active | activeAlone | tracking | syncing | unsynced | conflict
  deriving DecidableEq, Repr

/-- States of the safety complex (10 Table 10.6, `SAFETY_STATE`). -/
inductive SafetyState where
  | noForme | starting | running | safeStop | safeHalt | split
  deriving DecidableEq, Repr

/-- States of an online change (08 Table 8.16, `OC_STATE`). -/
inductive OcState where
  | idle | preparing | waiting | swapped | abandoned
  deriving DecidableEq, Repr

/-- Where the power side stands: no logic power, running, or a restart due with its cause (03 R58, R63, R65). -/
inductive Phase where
  | off
  | up
  | restart (cause : Nat)
  deriving DecidableEq, Repr

/-- States of function instances (11 Table 11.3, Table 11.4). -/
inductive SfState where
  | unconfigured | demand | waitReset | released | discrepancy | discClearing | inputFault
  | waitIdle | ready | oneHand | active
  deriving DecidableEq, Repr

/-- The conditions of an AO channel (13 Table 13.3). -/
inductive AoCond where
  | compliance | openLoop | noLoopPower | externalSource | overcurrent
  deriving DecidableEq, Repr

/-- What an AO regulator says of itself (13 R319, Table 13.5): regulating; saturated high; saturated low; at the current limit
of 25 to 30 mA; a field side that is not running. -/
inductive RegState where
  | regulating | high | low | limited | unpowered
  deriving DecidableEq, Repr

/-- What the chip reports beside a conversion's code: its temperature, and the state of the regulator the conversion is judged
against (13 R313, R319). -/
structure ConvEnv where
  temp : Int
  reg : RegState := .regulating
  deriving DecidableEq, Repr

/-- Drive faults (14 Table 14.6). -/
inductive DriveFaultKind where
  | overcurrent | overtemp | openCoil | pulseFault
  deriving DecidableEq, Repr

/-- The inputs of a limit set (14 R332). -/
inductive LimitInput where
  | limp | limn | home
  deriving DecidableEq, Repr

/-- Detected CAN errors, in the order of `CAN_LAST_ERROR` (15 Table 15.7). -/
inductive CanErr where
  | stuff | form | ack | bit1 | bit0 | crc
  deriving DecidableEq, Repr

/-- Where in its frame an error is detected: in the data or CRC field (15 R381), within or right after an error or overload
flag (15 R379, ISO 11898-1), or elsewhere. -/
inductive CanSpot where
  | elsewhere | dataCrc | flag
  deriving DecidableEq, Repr

/-- What an encoder input reports (06 R142, Table 6.5). -/
inductive EncEvent where
  | up | down | z | illegal
  deriving DecidableEq, Repr

/-- Where an intermediate-code word executes: in the cycle of a task, or in a pass of the safety forme (08, 10 R231). -/
inductive Ctx where
  | task (k : Fin 48)
  | passA
  | passB
  deriving DecidableEq, Repr

/-! ### Messages -/

/-- The header of a request and what follows its body (04 Table 4.4). -/
structure Hdr where
  /-- The path the message took. -/
  path : Path := .svc
  /-- The sender's node address; 0 on SVC (Table 4.7). -/
  peer : Nat := 0
  /-- SESSION. -/
  session : Nat := 0
  /-- SEQUENCE. -/
  seq : Nat := 0
  /-- SERVICE, where it is not the row's own: a code outside Table 4.5. -/
  service : Option Nat := none
  /-- FLAGS, and the reserved bytes 3, 10 and 11. -/
  flags : Nat := 0
  rsv3 : Nat := 0
  rsv10 : Nat := 0
  /-- Every byte after the body, which ends where BODY_LENGTH says: TAG and whatever follows it. -/
  tail : List Byte := []
  deriving DecidableEq, Repr

/-- A WRITE to a command object or to an object with a row of its own (04 Table 4.5). -/
structure Cmd where
  /-- Header of the request. -/
  hdr : Hdr := {}
  /-- Type code named (R73). -/
  ty : Nat := 0
  /-- Offset named (R72). -/
  off : Nat := 0
  /-- The data after the bytes the row itself fixes. -/
  rest : List Byte := []
  deriving DecidableEq, Repr

/-! ### Process image (07) -/

/-- The produced part of a point entry (Table 7.1); OWNER, TYPE and FLAGS come from the live mapping. -/
structure Pt where
  /-- VALUE. -/
  value : BitVec 32 := 0
  /-- QUALITY as its source and the module's own decisions leave it, before forcing (Table 7.2). -/
  qual : Nat := 0x45
  /-- TIMESTAMP. -/
  ts : Int := 0
  deriving DecidableEq, Repr

/-- A landing in the image since the last engine tick: the point, its entries before and after, and the local instant
(R12, R142; 09 R202). -/
structure Landed where
  point : Nat
  old : Pt
  new : Pt
  at_ : Int
  deriving DecidableEq, Repr

/-- A force in effect (R166 to R169). -/
structure Force where
  point : Nat
  value : BitVec 32
  /-- Timestamp of the tick at which the force acted. -/
  ts : Int
  deriving DecidableEq, Repr

/-- A mapping record (Table 7.3). -/
structure MapRec where
  kind : Nat := 0
  type : Nat := 0
  flags : Nat := 0
  rsv : Nat := 0
  first : Nat := 0
  count : Nat := 0
  a : Nat := 0
  b : Nat := 0
  c : Nat := 0
  deriving DecidableEq, Repr

/-! ### Forme (08) -/

/-- A task definition (Table 8.5). -/
structure TaskDef where
  kind : Nat := 0
  core : Nat := 0
  priority : Nat := 0
  periodUs : Nat := 0
  entry : Nat := 0
  wcet : Nat := 0
  deriving DecidableEq, Repr

/-- A call descriptor (Table 8.1, CALLS): kind, routine word offset or ROM block number, instance record index. -/
structure CallDesc where
  kind : Nat
  target : Nat
  instance_ : Nat
  deriving DecidableEq, Repr

/-- A type entry (Table 8.1, TYPES). -/
structure TypeRec where
  identity : Nat
  size : Nat
  block : Nat
  deriving DecidableEq, Repr

/-- An instance entry (Table 8.1, INSTANCES). -/
structure InstRec where
  identity : Nat
  type : Nat
  parent : Nat
  retained : Bool
  offset : Nat
  init : List Byte
  deriving DecidableEq, Repr

/-- A global variable (Table 8.1, VARIABLES). -/
structure VarRec where
  identity : Nat
  type : Nat
  size : Nat
  writer : Nat
  retained : Bool
  offset : Nat
  init : List Byte
  deriving DecidableEq, Repr

/-- An SFC chart (Table 8.1, CHARTS). -/
structure ChartRec where
  identity : Nat
  steps : List Nat
  initial : Nat
  deriving DecidableEq, Repr

/-- A forme, as its sections give it (Table 8.1). -/
structure Forme where
  /-- HEADER: "PXFM" or "PXSF", version 0x0001, ROM issue 0x42, and sections as Table 8.1 lays them out (Table 8.2); the
  magic is "PXSF", a safety forme's (10 R227). -/
  headerOk : Bool := true
  safety : Bool := false
  /-- Forme identity. -/
  id : Nat := 0
  /-- Bytes of the image. -/
  size : Nat := 0
  /-- Instance data size; a safety forme's plain data size (10 R227). -/
  dataSize : Nat := 0
  /-- Retained size. -/
  retainSize : Nat := 0
  /-- WCET_A and WCET_B of a safety forme, ns (10 R227). -/
  wcetA : Nat := 0
  wcetB : Nat := 0
  /-- TASKS, 48 entries. -/
  tasks : List TaskDef := []
  /-- CODE, one word each. -/
  code : List (BitVec 32) := []
  /-- CONST. -/
  consts : Memory := []
  /-- CALLS. -/
  calls : List CallDesc := []
  /-- TYPES. -/
  types : List TypeRec := []
  /-- INSTANCES. -/
  insts : List InstRec := []
  /-- VARIABLES. -/
  vars : List VarRec := []
  /-- POINTS: per task the points read and the points written. -/
  points : List (List Nat × List Nat) := []
  /-- CHARTS. -/
  charts : List ChartRec := []
  deriving DecidableEq, Repr, Inhabited

/-- What a HEADER carries (Table 8.1) behind its magic: sections are offset and length, TASKS first and SIGNATURE last. -/
structure FormeHead where
  version : Nat
  rom : Nat
  id : Nat
  sections : List (Nat × Nat)
  dataSize : Nat
  retainSize : Nat
  wcetA : Nat
  wcetB : Nat
  deriving DecidableEq, Repr, Inhabited

/-- A native block's instance data (Table 8.6): the fields the blocks keep. -/
structure BlockInst where
  /-- IN of a timer. -/
  inp : Bool := false
  /-- Q. -/
  q : Bool := false
  /-- ET, ns. -/
  et : Int := 0
  /-- Start, ns of the program or safety clock. -/
  start : Int := 0
  /-- Running. -/
  running : Bool := false
  /-- Previous input of an edge detector or of CU; its validity. -/
  prev : Bool := false
  prevValid : Bool := false
  /-- Previous input of CD; its validity. -/
  prevD : Bool := false
  prevDValid : Bool := false
  /-- CV. -/
  cv : Int := 0
  /-- QU, QD. -/
  qu : Bool := false
  qd : Bool := false
  deriving DecidableEq, Repr

/-- A CAN frame (15 R362). -/
structure CanFrame where
  ext : Bool := false
  fd : Bool := false
  brs : Bool := false
  remote : Bool := false
  id : Nat := 0
  data : List Byte := []
  deriving DecidableEq, Repr

/-- A received CAN frame with its stamp. -/
structure CanRx where
  frame : CanFrame
  stamp : Int
  /-- The module was SLEWING when the stamp was taken (06 R131). -/
  slew : Bool := false
  deriving DecidableEq, Repr

/-- A cycle of a task, or a pass of the safety forme, in execution. -/
structure Cycle where
  /-- Word offset of the word to execute. -/
  pc : Nat := 0
  /-- W0 to W31 (08). -/
  regs : Tbl Word64 := []
  /-- Byte offset of the current instance (BASE 0b00). -/
  inst : Nat := 0
  /-- Return addresses and instances of the calls entered. -/
  stack : List (Nat × Nat) := []
  /-- Bits supplied by an EXT word for the next word (R175). -/
  ext : Option Nat := none
  /-- The ROM block or function a CALL word named and the offset of its instance, until it has run. -/
  called : Option (Nat × Nat) := none
  /-- Results of the last native block or ROM function, in the order its table gives them. -/
  result : List Nat := []
  /-- The snapshot of the points (R11). -/
  snap : Tbl Pt := []
  /-- The snapshot of the globals and the retained area (R178). -/
  snapGlobals : Memory := []
  snapRetained : Memory := []
  /-- The CAN buffers' snapshot: the shadow of deep buffers, the frame of compact ones, by port × 128 + buffer. -/
  snapCan : Tbl (List CanRx) := []
  snapCount : Tbl Nat := []
  /-- Status, TEC and REC of each port, and the buffers with a frame queued, by port × 128 + buffer (15 R378). -/
  snapPorts : List (Nat × Nat × Nat) := []
  snapQueued : List Nat := []
  /-- Bytes written to instances, globals and retained data, not yet committed (R187). -/
  wInst : Tbl Byte := []
  wGlob : Tbl Byte := []
  wRet : Tbl Byte := []
  /-- Block instances changed, not yet committed, and the bytes of each. -/
  wBlocks : Tbl BlockInst := []
  blockBytes : Tbl Nat := []
  /-- The output buffer: point and value, in order of writing (R176). -/
  out : List (Nat × BitVec 32) := []
  /-- Frames popped per deep buffer (R372). -/
  pops : Tbl Nat := []
  /-- CAN_SEND requests: port, buffer, identifier, data (R378). -/
  sends : List (Nat × Nat × Nat × List Byte) := []
  /-- CAN_STATE requests: port, operation (R378). -/
  states : List (Nat × Nat) := []
  /-- Release instant, ns, and start instant once the first word has executed. -/
  releasedAt : Nat := 0
  startedAt : Option Nat := none
  /-- The program clock at the nominal release (R179). -/
  clock : Int := 0
  /-- A step cycle under MODE_SET STEP (R192). -/
  step : Bool := false
  deriving DecidableEq, Repr

/-- A task's status and its running cycle (Table 8.16, Table 8.17). -/
structure Task where
  /-- The cycle in execution. -/
  cycle : Option Cycle := none
  /-- CONSECUTIVE missed releases (R185). -/
  consecutive : Nat := 0
  /-- FLAGS [0] task fault since RUN, [1] last cycle abandoned, [2] ARITH. -/
  faulted : Bool := false
  abandoned : Bool := false
  arith : Bool := false
  /-- RELEASES, MISSED. -/
  releases : Nat := 0
  missed : Nat := 0
  /-- LAST_EXEC, MAX_EXEC, LAST_START, ns. -/
  lastExec : Nat := 0
  maxExec : Nat := 0
  lastStart : Nat := 0
  /-- DROPPED triggers, FAULTS. -/
  dropped : Nat := 0
  faults : Nat := 0
  /-- Local time of the previous release (R184), and the grid instant last served. -/
  lastRelease : Option Int := none
  lastGrid : Option Int := none
  deriving DecidableEq, Repr

/-- A change report entry (Table 8.14). -/
structure OcItem where
  identity : Nat
  action : Nat
  item : Nat
  size : Nat
  deriving DecidableEq, Repr

/-- An online change in progress (R193 to R196). -/
structure Oc where
  state : OcState := .idle
  /-- 0x01 prepare and swap, 0x02 prepare only. -/
  op : Nat := 0
  /-- The forme in the make-ready area. -/
  forme : Option Forme := none
  /-- Boundaries moved (R194). -/
  moves : Nat := 0
  /-- Local time from which the next boundary is awaited. -/
  since : Int := 0
  /-- In a pair the CHANGE record that carries the forme, and the partner's acknowledgement that it verifies (R193). -/
  record : Option Nat := none
  partnerOk : Bool := false
  /-- The row of Table 8.2 on which the partner's verification failed (R196, Table 8.11). -/
  partnerAbort : Option Nat := none
  /-- The change report (R197). -/
  report : List OcItem := []
  deriving DecidableEq, Repr

/-- What stands committed while a swap waits for the first cycle committed after it (R193): the retained data, instances and
blocks of the old forme, and its generation. -/
structure Unswapped where
  ret : Memory
  inst : Memory
  blocks : Tbl BlockInst
  generation : Nat
  deriving DecidableEq, Repr

/-! ### Engine (09) -/

/-- An output computed and not yet released (R201, R217): the values of the four items, the candidate selected, the
release instant (local ns; none waits for the next firing), and the TICK record that carries the update (R204). -/
structure LoopRel where
  out : Real32
  ws : Real32
  lag : Real32
  status : Nat
  winner : Nat
  at_ : Option Int
  record : Option Nat := none
  /-- OUT_SAFE of the configuration it was sampled under (R220). -/
  safeOut : Option Real32 := none
  /-- Standby: landed ahead of its TICK record (R10, R204). -/
  landed : Bool := false
  deriving DecidableEq, Repr

/-- A loop's state: the 32 retained bytes (R221) and what the text holds beside them. -/
structure Loop where
  /-- Integrator i (R206). -/
  i : Real32 := 0
  /-- Last output computed. -/
  out : Real32 := 0
  /-- Profile position x = ws, velocity, acceleration (R210). -/
  x : Real32 := 0
  vp : Real32 := 0
  ap : Real32 := 0
  /-- Derivative term d (R206). -/
  d : Real32 := 0
  /-- pv_prev, the last PV that was not BAD (R206, R207). -/
  pvPrev : Real32 := 0
  /-- Status of the last update, before its release. -/
  status : Nat := 0
  /-- `LOOP_STATUS` and `LOOP_OUT` as of the last release (Table 9.9). -/
  shownStatus : Nat := 0
  shownOut : Real32 := 0
  /-- `LOOP_CANDIDATE` v. -/
  cand : Real32 := 0
  /-- `PROFILE_LAG`. -/
  lag : Real32 := 0
  /-- `LOOP_UPDATES`. -/
  updates : Nat := 0
  /-- Updates awaiting release, oldest first (R201, R217, R218). -/
  pending : List LoopRel := []
  /-- Last target that was not BAD (R207). -/
  tgtGood : Real32 := 0
  /-- Sampled since it was configured (R220). -/
  sampled : Bool := false
  /-- KP and B_WEIGHT of the last sample, for the bumpless change (R209). -/
  kpOld : Real32 := 0
  bOld : Real32 := 0
  /-- Local time of the last sample of a cadence loop (R217, R218). -/
  lastSample : Option Int := none
  /-- Firing ignored since the last release; clock fallback (R217, R218). -/
  skipped : Bool := false
  fallback : Bool := false
  /-- OVERSHOOT_PLANNED in effect (R211). -/
  overshoot : Bool := false
  deriving DecidableEq, Repr

/-- An override group (Table 9.10): values as of its last release. -/
structure Group where
  out : Real32 := 0
  winner : Nat := 0xFFFF
  switches : Nat := 0
  deriving DecidableEq, Repr

/-! ### Cadences (06) -/

/-- A cadence tracker (R141, R142, Table 6.12). -/
structure Tracker where
  state : TrkState := .off
  /-- Derived angle at the last update, before `TRK_ZERO`, ANGLE32 units. -/
  angle : BitVec 32 := 0
  /-- Speed, cycles/s, and acceleration, cycles/s². -/
  speed : Real32 := 0
  accel : Real32 := 0
  /-- Local time of the last update, ns. -/
  at_ : Int := 0
  /-- Encoder count in the cycle. -/
  count : Int := 0
  /-- Stamps of the last edges, newest first, at most 33. -/
  stamps : List Int := []
  prevSpeed : Real32 := 0
  prevAt : Option Int := none
  /-- Mains: instants of the last zero crossings, newest first, at most 5. -/
  crossings : List Int := []
  /-- `TRK_LEVEL`. -/
  level : Real32 := 0
  /-- Point: last value and source time. Wave: last source times of both points, mean, last x, last upward crossings. -/
  lastValue : BitVec 32 := 0
  lastSrc : Option Int := none
  lastRate : Option Int := none
  mean : Real32 := 0
  lastX : Real32 := 0
  ups : List Int := []
  /-- `TRK_FLAGS` [0] ANGLE_UNREFERENCED, [1] Z_MISMATCH, [2] ILLEGAL_TRANSITION. -/
  unref : Bool := false
  zMismatch : Bool := false
  illegal : Bool := false
  /-- Instant the source was lost. -/
  lostAt : Nat := 0
  deriving DecidableEq, Repr

/-- A scheduler slot (R145 to R149, Table 6.8). -/
structure SlotSt where
  /-- STATE: 0 idle, 1 armed, 2 locked, 3 done. -/
  state : Nat := 0
  late : Bool := false
  missed : Bool := false
  withheld : Bool := false
  reversed : Bool := false
  /-- COUNT. -/
  count : Nat := 0
  /-- Locked fire time, local ns, and whether the tracker ran forward at locking. -/
  fireAt : Int := 0
  forward : Bool := true
  /-- Fired, waiting for half a cycle before re-arming: how far past ANGLE the tracker has gone in the direction of the
  firing, ANGLE32 units, and its angle when that was last summed (R146). -/
  resting : Bool := false
  travel : Int := 0
  mark : BitVec 32 := 0
  /-- Angle, ADVANCE included, when the slot was last looked at; the lock came after the fire time (R147). -/
  last : Option (BitVec 32) := none
  lateDue : Bool := false
  /-- Fire instant predicted at the last look, not yet locked, local ns (R147). -/
  due : Option Int := none
  /-- The tracker has reversed since this lock. -/
  revDue : Bool := false
  deriving DecidableEq, Repr

/-- A synchro-check instance (R150 to R152, Table 6.14). -/
structure Sc where
  state : ScState := .idle
  /-- `SC_ARM`. -/
  arm : Bool := false
  /-- Instant of arming. -/
  armedAt : Nat := 0
  /-- Consecutive bus cycles for which the conditions have held. -/
  held : Nat := 0
  /-- `SC_RESULT`: command time, φ at command, Δf. -/
  resTime : Int := 0
  resPhi : Real32 := 0
  resDf : Real32 := 0
  /-- Δf at the last evaluation, for dΔf/dt. -/
  lastDf : Real32 := 0
  lastDfAt : Int := 0
  /-- dΔf/dt over the last bus cycle, Hz/s (R151). -/
  ddf : Real32 := 0
  /-- End of the pulse, local ns. -/
  pulseEnd : Int := 0
  deriving DecidableEq, Repr

/-! ### Station ring (05) -/

/-- Frames collected of an input set in progress (R110): frame count, source time, entries by frame index. -/
structure PartialSet where
  frames : Nat := 0
  sourceTime : Int := 0
  entries : List (Nat × List (BitVec 32 × Byte)) := []
  deriving DecidableEq, Repr

/-- One frame of a PD input set as the switch hands it on (05 Table 5.5): NODE, SEQUENCE, CLASS, FRAME_INDEX, FRAME_COUNT,
SOURCE_TIME, REJOIN_SEQ, ACK, the entries, and whether only one port brought it. -/
structure PdInput where
  node : Nat
  seq : Nat
  cls : Nat
  index : Nat
  frames : Nat
  sourceTime : Int
  rejoin : Nat
  acked : Nat
  entries : List (BitVec 32 × Byte)
  onePort : Bool
  deriving DecidableEq, Repr

/-- A remote node's status and the sets being collected (Table 5.11, R110, R119, R120). -/
structure Node where
  state : NodeState := .unused
  foreign : Bool := false
  onePort : Bool := false
  rejoin : Nat := 0
  losses : Nat := 0
  missed : Nat := 0
  /-- Declared lost, and not yet exchanging again (R120). -/
  wasLost : Bool := false
  /-- Consecutive missing exchanges. -/
  consecutive : Nat := 0
  /-- A complete acknowledging input set of the fastest class landed in this period. -/
  acked : Bool := false
  /-- Classes with a complete fresh input set since the node was lost or started joining, bit per class. -/
  fresh : Nat := 0
  /-- Classes still owed their first output set after a rejoin, bit per class. -/
  owed : Nat := 0
  /-- Frames collected of the set in progress, per class. -/
  partialSets : Tbl PartialSet := []
  /-- Standby: the newest complete set received per class, landed when an INPUT record names it (16 R396). -/
  got : Tbl PdInput := []
  /-- SEQUENCE of the last output set sent per class. -/
  seqOut : Tbl Nat := []
  /-- Boundary at which the first output set of the fastest class since the last rejoin went out (R119). -/
  firstSet : Option Int := none
  /-- The boundary that last ended an exchange period of the fastest class (R119). -/
  ended : Option Int := none
  /-- Instant of the last class 0x82 record. -/
  foreignAt : Option Nat := none
  deriving DecidableEq, Repr

/-- An entry of the duplicate table: source, HSR sequence, instant and port of the first copy (05 R99). -/
structure DupEntry where
  src : Nat
  seq : Nat
  at_ : Nat
  port : Port
  deriving DecidableEq, Repr

/-- A frame as the switch sees it (05 R99 to R107). -/
structure Frame where
  dst : Nat
  src : Nat
  hsrSeq : Nat
  fcsOk : Bool
  hornpipe : Bool
  version : Nat
  kind : Nat
  deriving DecidableEq, Repr

/-- What the switch did with the last frame. -/
inductive Verdict where
  | none | removed | duplicate | forwardedOnly | consumed | badFcs
  deriving DecidableEq, Repr

/-! ### Digital I/O (12) -/

/-- A DIO channel: the BIC's side and the module's side. -/
structure Dio where
  /-- Accepted input value of the BIC (R293). -/
  state : Bool := false
  /-- Supervision of Table 12.4: 0 normal, 1 wire break, 2 undefined. -/
  sup : Nat := 0
  /-- Stamp of the newest acceptance, or of the newest change of an output's readback, local ns; its mark of 06 R131; and
  whether it was lost with a dropped edge record (R295). -/
  stamp : Int := 0
  stampSlew : Bool := false
  stampLost : Bool := false
  /-- An input value has been accepted since the bank came up or its supply returned. -/
  seen : Bool := false
  /-- The supply was lost since the value last accepted (R303). -/
  supplyGone : Bool := false
  /-- The COMMAND and ENABLE bits of the last good frame, and the level commands and edges leave (R301, R302). -/
  sent : Bool := false
  enabled : Bool := false
  command : Bool := false
  /-- The switch is on. -/
  on : Bool := false
  /-- The pin of the off output is driven from outside (R304); the pin of the output that is on reads 0, as into a short
  (R300). -/
  pinHigh : Bool := false
  pinLow : Bool := false
  /-- CH_FLAGS: trip, thermal, external drive, open load, retry pending (Table 12.2). -/
  trip : Bool := false
  thermal : Bool := false
  external : Bool := false
  openLoad : Bool := false
  retry : Bool := false
  tripAt : Nat := 0
  /-- A pulse is running, and ends at this instant (R301). -/
  pulseEnd : Option Nat := none
  /-- The module's side: the newest happening under binding 1 is a slot edge, with this level (R164). -/
  edgeLevel : Option Bool := none
  /-- The module's side: a released value that differs is newer than a pulse that runs, and goes with the next frame (R164). -/
  fresh : Bool := false
  /-- COMMAND bit of the last frame sent (Table 12.9). -/
  commanded : Bool := false
  /-- Re-admitted, and its owner's next release still to come (18 R440). -/
  awaiting : Bool := false
  /-- Held in its safe state since its domain was reset, until its owner's next release (03 R54). -/
  parked : Bool := false
  /-- `DIO_CURRENT`, mA. -/
  current : Nat := 0
  /-- Instants of counted faults, newest first (R18). -/
  faults : List Nat := []
  /-- `DIO_FAULTS`. -/
  lifetime : Nat := 0
  /-- As last landed from an upstream frame: STATE, SUPERVISION and CH_FLAGS; `DIO_LAST_EDGE`. -/
  landed : Bool := false
  landedSup : Nat := 0
  /-- The quality that the frame last landed gave the channel; BAD_NO_VALUE before the first one. -/
  landedQual : Nat := 0x46
  landedFlags : Nat := 0
  lastEdge : Int := 0
  /-- Standby: since when its own reading differs from the agreed one (16 Table 16.7). -/
  differs : Option Nat := none
  deriving DecidableEq, Repr

/-- An edge on its way to a BIC, or held by it (Table 12.1): channel, action, fire instant (local ns), width µs, slot. -/
structure DioEdge where
  ch : Nat
  action : Nat
  fireAt : Int
  width : Nat
  slot : Nat
  deriving DecidableEq, Repr

/-- An edge record of a bank (12 Table 12.2): channel, DIR, stamp (local ns), and whether the module was SLEWING when the
stamp was taken (06 R131). -/
structure EdgeRec where
  ch : Nat
  rising : Bool
  stamp : Int
  slew : Bool := false
  deriving DecidableEq, Repr

/-- What a bank's frame says of one channel: STATE, SUPERVISION, the quality that the BIC's report gives it, and the stamp of
its newest acceptance with its mark of R131 (12 R294; 07 R464). -/
structure ChanRep where
  v : Bool := false
  sup : Nat := 0
  qual : Nat := 0
  stamp : Int := 0
  slew : Bool := false
  deriving DecidableEq, Repr

/-- An upstream bank frame (12 Table 12.2). -/
structure UpFrame where
  echo : Nat
  state : Nat
  sup : Nat
  chFlags : List Nat
  edges : List EdgeRec
  supply : Nat
  current : Nat
  curCh : Nat
  temp : Int
  curMa : Nat
  fclSeen : Nat
  bicFlags : Nat
  cfgEcho : Nat
  cfgCrc : Nat
  deriving DecidableEq, Repr

/-- A bank: its link, its BIC and its supply (12). Configurations are the words of the frames; none after a BIC reset. -/
structure Bank where
  linked : Bool := false
  /-- FRAME_NO of the last downstream frame. -/
  frameNo : Nat := 0
  /-- Instant of the last good downstream frame (R287). -/
  lastGood : Nat := 0
  /-- Consecutive bad frames down and up (R285). -/
  badDown : Nat := 0
  badUp : Nat := 0
  resyncing : Bool := false
  /-- Link-silence state in effect; entered since the last good frame, as the next upstream frame reports it. -/
  silent : Bool := false
  silentSeen : Bool := false
  /-- Supply off, restoring, bank overload, edge overflow (BIC_FLAGS). -/
  supplyOff : Bool := false
  restoring : Bool := false
  overload : Bool := false
  overloadAt : Nat := 0
  overflow : Bool := false
  /-- Outputs still to be switched on by the group sequence. -/
  group : List Nat := []
  /-- The BIC holds the field claim (R290); the claims of its last frame. -/
  claim : Bool := false
  unitClaim : Nat := 0
  partnerClaim : Nat := 0
  /-- Claims heard on the FCL: claim and instant, newest first; the highest of them as last reported. -/
  heard : List (Nat × Nat) := []
  fclSeen : Nat := 0
  /-- Active and staged copy in the BIC (R286). -/
  active : List Nat := []
  staged : List Nat := []
  /-- The configuration the module expects, the one it sends, words of it sent, commit due (R286). -/
  expected : List Nat := []
  sending : List Nat := []
  cfgSent : Nat := 0
  commitDue : Bool := false
  /-- Edge records queued in the BIC, by stamp and channel (R295). -/
  edges : List EdgeRec := []
  /-- The BIC's 1 µs counter: its reading when it was last aligned, local ns, and that instant (R285). -/
  base : Int := 0
  baseAt : Nat := 0
  /-- FRAME_NO to be echoed, CFG_ADDR last applied, CUR_CH of the next upstream frame (Table 12.2). -/
  echo : Nat := 0
  cfgEcho : Nat := 0
  curCh : Nat := 0
  /-- The module's side: the last valid frame showed another configuration than the one expected (07 R464). -/
  mismatch : Bool := false
  /-- Timed edges the BIC holds; edges waiting for their frame. -/
  placed : List DioEdge := []
  waiting : List DioEdge := []
  /-- `BANK_SUPPLY` mV, `BANK_CURRENT` mA, `BANK_TEMP` °C. -/
  supplyMv : Nat := 0
  currentMa : Nat := 0
  temp : Int := 0
  /-- BIC_FLAGS as last landed. -/
  flags : Nat := 0
  /-- `LINK_BAD_FRAMES`, `LINK_FAULTS`. -/
  badFrames : Nat := 0
  linkFaults : Nat := 0
  faults : List Nat := []
  deriving DecidableEq, Repr

/-! ### Analogue loops (13) -/

/-- An AIO channel: its chip and what the module keeps of it. -/
structure Aio where
  linked : Bool := false
  /-- The quality that the frame last landed gave the channel; BAD_NO_VALUE before the first one (07 R464). -/
  landedQual : Nat := 0x46
  /-- AI-A: the chip supplies the loop (R323, R325; 02 R41). -/
  source : Bool := false
  /-- Instant of the last good downstream frame; consecutive bad frames down and up (R313). -/
  lastGood : Nat := 0
  badDown : Nat := 0
  badUp : Nat := 0
  /-- Safe state from link silence (R313); field supply off (R323). -/
  silent : Bool := false
  supplyOff : Bool := false
  /-- The chip holds the field claim; the claims of its last frame; claims heard on the FCL (R325). -/
  claim : Bool := false
  unitClaim : Nat := 0
  partnerClaim : Nat := 0
  heard : List (Nat × Nat) := []
  /-- Flags of Table 13.8. -/
  partnerMismatch : Bool := false
  cmdBad : Bool := false
  clamped : Bool := false
  overcurrent : Bool := false
  external : Bool := false
  noLoop : Bool := false
  compliance : Bool := false
  openLoop : Bool := false
  /-- The mismatch timer runs since (R319); in pass mode, since when the current differs from the tracked command (R326). -/
  mismatchAt : Option Nat := none
  partnerAt : Option Nat := none
  /-- Regulator state of the last conversion, and since when a condition of Table 13.3 has stood against its flag (R319). -/
  reg : RegState := .regulating
  condAt : List (AoCond × Nat) := []
  /-- Reinitialisation running (R321). -/
  reinit : Bool := false
  /-- Held in its safe state since its domain was reset, until its owner's next release (03 R54). -/
  parked : Bool := false
  /-- `AO_APPLIED`; the channel is at MIN, its regulator delivering no current of its own (R314); the regulator's code
  otherwise (R327). -/
  applied : Real32 := 0
  atMin : Bool := true
  code : Option Nat := none
  /-- The last applied command, which HOLD keeps (R314). -/
  lastCmd : Option Real32 := none
  /-- Whole milliseconds of the last conversion and of the last output update (R310, R312). -/
  convAt : Option Int := none
  updAt : Option Int := none
  /-- Instant of the last output update. -/
  updNow : Nat := 0
  /-- Filter state y and its validity (R311); `AIO_CURRENT`. -/
  y : Real32 := 0
  yValid : Bool := false
  current : Real32 := 0
  /-- Band in effect, 0 to 6, and its validity; candidate band and how many conversions it has held (R318). -/
  band : Nat := 3
  bandValid : Bool := false
  candBand : Nat := 3
  candCount : Nat := 0
  /-- Millivolt at the terminals, chip temperature, `AIO_STATUS` of the last frame. -/
  termMv : Int := 0
  temp : Int := 0
  status : Nat := 0
  /-- Instants of counted faults, newest first; `AIO_FAULTS`. -/
  faults : List Nat := []
  lifetime : Nat := 0
  /-- Standby: since when its own reading differs from the agreed one (16 Table 16.7). -/
  differs : Option Nat := none
  deriving DecidableEq, Repr

/-! ### Motion (14) -/

/-- A planned interval of an axis (R336): its steps, the position and signed speed at its end, and when it was planned. -/
structure PlanSeg where
  steps : Int
  pos : Int
  v : Int
  at_ : Nat
  deriving DecidableEq, Repr

/-- What the retain store keeps of an axis (R341): actual position, applied target, status and lost cause, 0 while valid; and
whether it was moving. -/
structure AxKept where
  count : Int
  target : Int
  status : Nat
  lost : Nat
  moving : Bool
  deriving DecidableEq, Repr

/-- An axis. Planned positions and speeds are fixed point, in units of 2^-32. -/
structure Axis where
  /-- Planned position and signed speed at the end of the last interval planned (R336). -/
  pos : Int := 0
  v : Int := 0
  /-- `AX_ACTUAL`: steps released, those of the present interval included; steps of the present interval. -/
  count : Int := 0
  cur : Int := 0
  /-- Signed speed at the start and at the end of the present interval. -/
  curV0 : Int := 0
  curV : Int := 0
  /-- Interval plans not yet released, oldest first (R336). -/
  plan : List PlanSeg := []
  /-- Direction of the last step planned, and the intervals planned since without one (R338, R357). -/
  dir : Option Bool := none
  idle : Nat := 0
  /-- `AX_TARGET`; the target point's last value that was not BAD. -/
  target : Int := 0
  lastTarget : Option (BitVec 32) := none
  /-- The move began within brake(v_start) of its target (R337). -/
  short : Bool := false
  /-- Energised by its control (R342); position valid; the latest event of Table 14.4 (R340). -/
  enabled : Bool := false
  valid : Bool := false
  lost : Nat := 1
  /-- Held until the target point changes (R339). -/
  heldStop : Bool := false
  /-- `AX_COMMAND` that acts at the next interval (R335). -/
  cmd : Nat := 0
  /-- The control word last read, CTRL_BAD, TARGET_BAD, SOFT_LIMIT, OVERSHOOT_PLANNED, LIMIT_STOP, GROUP_STOP. -/
  ctrl : Nat := 0
  ctrlBad : Bool := false
  targetBad : Bool := false
  softLimit : Bool := false
  overshoot : Bool := false
  limitStop : Bool := false
  groupStop : Bool := false
  /-- Homing: 0 none, 1 away from the switch, 2 search, 3 reversed search, 4 return, 5 latched and stopping, 6 stopping
  before the search, 7 stopping before the reversed search (R347 to R349). -/
  homing : Nat := 0
  homeStart : Nat := 0
  /-- `AX_HOME_RESULT`, HOME_REVERSED, HOMING_FAILED, `AX_LATCH`. -/
  homeResult : Nat := 0
  homeReversed : Bool := false
  homeFailed : Bool := false
  latch : Int := 0
  /-- QUIET, and whether `AX_QUIET_VMAX` has been exceeded since (R355); `AX_HOLD_CURRENT` applied; standstill since (R353). -/
  quiet : Bool := false
  quietOut : Bool := false
  holding : Bool := false
  stillSince : Nat := 0
  /-- Drive fault and when; OPEN_COIL; SUPPLY_OFF (R351, R356). -/
  driveFault : Bool := false
  faultAt : Nat := 0
  openCoil : Bool := false
  supplyOff : Bool := false
  /-- Instants of counted faults, newest first; `AX_FAULTS`. -/
  faults : List Nat := []
  lifetime : Nat := 0
  deriving DecidableEq, Repr

/-- What the stage of an axis puts out (14 R352 to R357): nothing; phase currents regulated in chopper mode, mA, with the
off-time, the blanking and the slow and fast decay of each off-time, ns; the phase voltage amplitude of quiet mode, in
2^-32 V, at a current; step pulses of a width after a direction setup, ns. -/
inductive AxStage where
  | off
  | chopper (current : Nat) (phaseA phaseB : Int) (offTime blank slow fast : Nat)
  | quiet (current : Nat) (volt : Int)
  | pulse (width setup : Nat)
  deriving DecidableEq, Repr

/-- A limit set's qualified inputs, as levels at 24 V (14 R343); whether each has qualified since FSA was last off. -/
structure LimitSet where
  limp : Bool := false
  limn : Bool := false
  home : Bool := false
  limpOk : Bool := true
  limnOk : Bool := true
  homeOk : Bool := true
  deriving DecidableEq, Repr

/-- The end of an interval of a group's path: the line it lies on, distance travelled and path speed, in units of 2^-32. -/
structure PathSeg where
  line : Nat := 0
  s : Int := 0
  v : Int := 0
  deriving DecidableEq, Repr

/-- An interpolation group (14 R358 to R360). -/
structure AxGroup where
  moving : Bool := false
  retarget : Bool := false
  stopped : Bool := false
  limited : Bool := false
  /-- P, distance travelled and path speed, in units of 2^-32. -/
  path : Int := 0
  s : Int := 0
  v : Int := 0
  /-- Start points and signed lengths of the members, in counts. -/
  start : List Int := []
  delta : List Int := []
  /-- Number of the line; the path at the start and at the end of the present interval, and at the ends of those planned. -/
  line : Nat := 0
  past : PathSeg := {}
  here : PathSeg := {}
  ahead : List PathSeg := []
  deriving DecidableEq, Repr

/-! ### CAN (15) -/

/-- A CAN buffer (Table 15.9, R371 to R381). -/
structure CanBuf where
  /-- STATE: 1 idle, 2 queued, 3 HELD, 4 disabled (0 unused comes from the record). -/
  state : Nat := 1
  timeout : Bool := false
  overwritten : Bool := false
  overflow : Bool := false
  short : Bool := false
  txLate : Bool := false
  collision : Bool := false
  flushed : Bool := false
  /-- Frames held: the newest of a compact buffer, the queue of a deep one, oldest first. -/
  rx : List CanRx := []
  /-- LEN, COUNT, instant of the last reception. -/
  len : Nat := 0
  count : Nat := 0
  lastRx : Nat := 0
  /-- Data bits built from the output records; identifier and data of a CAN_SEND. -/
  data : List Byte := []
  reqId : Nat := 0
  reqData : List Byte := []
  /-- On the bus now, with the data it started with. -/
  onBus : Option (List Byte) := none
  /-- Instants of bit errors in the data or CRC field (R381). -/
  bitErrors : List Nat := []
  /-- Frames dropped: replaced in a compact buffer, come to a full deep one (R370). -/
  drops : Nat := 0
  /-- Multiple of the period at which a cyclic buffer last triggered (R375). -/
  cycleAt : Option Int := none
  deriving DecidableEq, Repr

/-- A CAN port (Table 15.7, Table 15.8). -/
structure CanPort where
  synchronised : Bool := false
  fdEnabled : Bool := false
  warning : Bool := false
  passive : Bool := false
  busOff : Bool := false
  recovering : Bool := false
  /-- The standby runs NORMAL as RESTRICTED (R382). -/
  restricted : Bool := false
  tec : Nat := 0
  rec_ : Nat := 0
  lastError : Nat := 0
  /-- `CAN_COUNTERS`: received, sent, errors, bus-offs, unmatched, protocol exceptions, collisions, suppressed. -/
  received : Nat := 0
  sent : Nat := 0
  errors : Nat := 0
  busOffs : Nat := 0
  unmatched : Nat := 0
  exceptions : Nat := 0
  collisions : Nat := 0
  suppressed : Nat := 0
  /-- Autobaud: rate in the list and since when, good frames in a row, errored frames in a row, locked; `CAN_FOUND`. -/
  rate : Nat := 0
  rateAt : Nat := 0
  good : Nat := 0
  bad : Nat := 0
  locked : Bool := false
  found : List Byte := []
  /-- Secondary sample point of the last FD frame sent with BRS, CAN clock periods (R366). -/
  ssp : Option Nat := none
  deriving DecidableEq, Repr

/-! ### Safety (10, 11) -/

/-- A safety input terminal (11 R259 to R264). -/
structure Terminal where
  /-- Accepted value of each capture path. -/
  bank1 : Bool := false
  bank2 : Bool := false
  /-- Latched at the cycle start by each bank. -/
  latch1 : Bool := false
  latch2 : Bool := false
  /-- Consecutive cycles of disagreement and of agreement (10 R235, R236). -/
  disagree : Nat := 0
  agree : Nat := 16
  /-- Held at demand by a capture-path fault. -/
  held : Bool := false
  /-- At demand since its source stayed dark, until a capture path accepts a level again (R281, log entry 82). -/
  darkHeld : Bool := false
  /-- Blanked until this instant (R263). -/
  blankedUntil : Option Nat := none
  /-- Last test failed; TP_FAULT; consecutive passed tests (R262). -/
  testFailed : Bool := false
  tpFault : Bool := false
  passed : Nat := 0
  deriving DecidableEq, Repr

/-- A dual input's discrepancy count (R266). -/
structure DualInput where
  c : Nat := 0
  deriving DecidableEq, Repr

/-- A function instance (Table 11.13). -/
structure SfInst where
  state : SfState := .unconfigured
  enDelayed : Bool := false
  /-- Cycles left until EN_DELAYED falls. -/
  delayLeft : Option Nat := none
  resetStuck : Bool := false
  resetIgnored : Bool := false
  syncExceeded : Bool := false
  resetRequired : Bool := true
  lastCause : Nat := 0
  /-- Cycles in ONE_HAND, which hand; cycles in DISC_CLEARING since the first release. -/
  count : Nat := 0
  hand2 : Bool := false
  /-- Two-hand DISCREPANCY: the inconsistent hand was seen actuated. -/
  seenActuated : Bool := false
  /-- Cycles its reset request has been pressed. -/
  pressed : Nat := 0
  deriving DecidableEq, Repr

/-- A test-pulse source (R261, R264, R281). -/
structure TpSource where
  dark : Bool := false
  darkAt : Nat := 0
  /-- Overloaded; instants of the last attempt and of the last record of it (R264). -/
  overload : Bool := false
  triedAt : Nat := 0
  overloadRec : Option Nat := none
  takenOver : Bool := false
  deriving DecidableEq, Repr

/-- A word of the agreement mailbox, with its bitwise complement (10 R237). -/
structure MailWord where
  word : BitVec 32 := 0
  comp : BitVec 32 := 0xFFFFFFFF
  deriving DecidableEq, Repr

/-- A word as it is posted. -/
def MailWord.post (v : BitVec 32) : MailWord := ⟨v, ~~~v⟩

/-- A read of a mailbox word: its value, if the complement matches. -/
def MailWord.read (w : MailWord) : Option (BitVec 32) := if w.comp = ~~~w.word then some w.word else none

/-- A safety output stage (R274 to R278, Table 11.15). -/
structure SoStage where
  hOn : Bool := false
  lOn : Bool := false
  commanded : Bool := false
  latched : Bool := false
  testDiscarded : Bool := false
  hStuck : Bool := false
  lStuck : Bool := false
  overcurrent : Bool := false
  external : Bool := false
  feedback : Bool := false
  /-- Off-test running: 0 none, 1 high side, 2 low side. -/
  testing : Nat := 0
  /-- Committed off for at least one cycle since it latched. -/
  offSeen : Bool := false
  /-- The latching cause is gone (Table 11.5). -/
  causeGone : Bool := true
  /-- Instant of the last committed switch-on or switch-off, for FB_TIME. -/
  changedAt : Option Nat := none
  /-- The newest committed vector had the output on. -/
  committed : Bool := false
  deriving DecidableEq, Repr

/-! ### Recorder (17) -/

/-- A record (Table 17.1). -/
structure Rec where
  seq : Nat := 0
  opTime : Nat := 0
  cycles : Nat := 0
  code : Nat := 0
  source : Nat := 0
  net : Int := -1
  data : List Byte := []
  /-- CRC correct and fully written. -/
  ok : Bool := true
  deriving DecidableEq, Repr

/-- An entry of the last-gasp ring (R421). -/
structure Gasp where
  aon : Nat
  code : Nat
  source : Nat
  data : List Byte
  deriving DecidableEq, Repr

/-- A token bucket (R416): tokens in tenths of milli-token, last instant, counts. -/
structure Bucket where
  /-- Tokens spent of the burst that held at `last`, in units of 10^-9 token; a bucket with no burst is full. -/
  spent : Nat := 0
  burst : Nat := 0
  last : Nat := 0
  suppressed : Nat := 0
  total : Nat := 0
  deriving DecidableEq, Repr

/-- One bank of the recorder (R413, R419). -/
structure RecBank where
  ring : Tbl Rec := []
  firsts : Tbl Rec := []
  ok : Bool := true
  sticky : Bool := false
  deriving DecidableEq, Repr

/-! ### What commands carry from the outside -/

/-- What a start finds (03 R58 to R61; 10 R252; 16 R384, R387). -/
structure StartEnv where
  t1Mv : Nat := 48000
  t2Mv : Nat := 48000
  supercapMv : Nat := 3000
  posB : Bool := false
  presLow : Bool := false
  configSigOk : Bool := true
  formeSigOk : Bool := true
  patchSigOk : Bool := true
  /-- The startup self-test of the SCU passed (10 R252). -/
  selfTestOk : Bool := true
  /-- A partner was heard by the 1,400 ms step, and it is active (R387). -/
  partnerHeard : Bool := false
  partnerActive : Bool := false
  /-- The links of T1 and T2 are up when the ring is joined at 900 ms (03 Table 3.6). -/
  t1Link : Bool := true
  t2Link : Bool := true
  /-- Recorder banks that pass their start test (17 R420). -/
  bank0Ok : Bool := true
  bank1Ok : Bool := true
  /-- Die temperature, 0.1 °C (03 R63). -/
  dieTenths : Int := 250
  deriving DecidableEq, Repr

/-- Raw readings of the management sensors, in the order of Table 17.7. -/
structure Readings where
  /-- Eight temperatures, 0.1 °C. -/
  temps : List Int := []
  /-- Eighteen rails, mV. -/
  rails : List Nat := []
  /-- T1, T2, FSA, FSB, MS: mV and mA. -/
  supplies : List Nat := []
  humidity : Nat := 0
  /-- rms X, Y, Z and peak X, Y, Z of the last second, mg. -/
  accel : List Nat := []
  supercap : Nat := 0
  deriving DecidableEq, Repr

/-- One landing carried by an INPUT record (16 Table 16.4). -/
inductive Landing where
  /-- A bank's STATE and SUPERVISION with the qualities and stamps they bring, by channel, and its edge records. -/
  | bank (b : Fin 8) (chans : List ChanRep) (edges : List EdgeRec)
  /-- An AIO conversion: value, quality, stamp. -/
  | aio (ch : Fin 32) (value : Real32) (qual : Nat) (stamp : Int)
  /-- A tracker's state, angle and speed, its stamp and the stamp's mark of 06 R131. -/
  | tracker (t : Fin 8) (state : TrkState) (angle : BitVec 32) (speed : Real32) (stamp : Int) (slew : Bool)
  /-- A CAN frame into its port. -/
  | can (port : Fin 8) (rx : CanRx)
  /-- A remote input set, by node, class and SEQUENCE; with its values where they are resent (R396). -/
  | remote (node cls seq : Nat) (values : Option (Int × List (BitVec 32 × Byte)))
  deriving DecidableEq, Repr

/-- One piece of a state copy (16 R399). -/
inductive Piece where
  | config (key : Nat) (value : List Byte)
  | forme (f : Forme)
  | instData (addr : Nat) (bytes : List Byte)
  | globals (addr : Nat) (bytes : List Byte)
  | retained (addr : Nat) (bytes : List Byte)
  | block (addr : Nat) (b : BlockInst)
  /-- The program clock, and the local time at which it read so (08 R179). -/
  | clock (pclk at_ : Int)
  | mode (m : Mode) (holdLeftNs : Nat)
  | loop (n : Fin 1024) (l : Loop)
  | group (g : Fin 128) (x : Group)
  | axis (n : Fin 24) (x : Axis)
  | axGroup (g : Fin 6) (x : AxGroup)
  | chart (id : Nat) (steps : List (Nat × Int))
  | released (point : Nat) (v : BitVec 32)
  | point (p : Nat) (x : Pt)
  | slot (n : Fin 256) (x : SlotSt)
  | sc (n : Fin 2) (x : Sc)
  | node (n : Fin 2048) (x : Node)
  | forces (l : List Force)
  | canBuf (port : Fin 8) (buf : Fin 128) (x : CanBuf)
  | generation (config forme : Nat)
  /-- A forme waits for its swap at the active unit (08 R193). DESIGN CHOICE: the spec names no record that says so (log
  entry 75). -/
  | swapWaits (b : Bool)
  /-- A direct value, and a slot's key (04 R462). -/
  | direct (key : Nat) (value : List Byte)
  | slotKey (k : Fin 16) (key : Option (List Byte))
  deriving DecidableEq, Repr

/-! ### What the module sends -/

/-- What a CHANGE record carries (16 Table 16.4). -/
inductive Change where
  /-- An applied configuration: the changed objects and the generation (R91). -/
  | config (objs : List (Nat × List Byte)) (generation : Nat)
  /-- A prepared forme, as its image (R193). -/
  | forme (image : List Byte)
  /-- A safety configuration: its RWS objects and its forme (R254). -/
  | safety (objs : List (Nat × List Byte)) (forme : Memory)
  deriving DecidableEq, Repr

/-- What every sync header says of its sender: CLAIM, GRADE and STATE (16 Table 16.3). DESIGN CHOICE: a record stands whole
in the outbox, so FLAGS, FRAGMENT and LENGTH, which cut it into frames, do not (log entry 84). -/
structure SyncHdr where
  claimNo : Nat
  grade : Nat
  state : PairState
  deriving DecidableEq, Repr

/-- What the module sends out, appended to the outbox in the order of sending. -/
inductive Sent where
  /-- A DA response: path, peer, session, service, aborted, sequence, body, tag (04 R76), with the NODE and SEQUENCE of
  its frame over the ring (05 Table 5.3). -/
  | response (path : Path) (peer session service : Nat) (abort : Bool) (seq : Nat) (body tag : List Byte)
      (frame : Option (Nat × Nat))
  /-- A frame forwarded out of a port; `bad` when its FCS is inverted (05 R100). -/
  | forwarded (port : Port) (src : Nat) (hsrSeq : Nat) (bad : Bool)
  /-- A supervision frame on both ports (05 R99). -/
  | supervision (hsrSeq : Nat)
  /-- A PD output frame: the sender's NODE, then the node it goes to (05 R108, R114). -/
  | pdOut (sender node cls frameIndex frameCount seq claim : Nat) (rejoined : Bool) (sourceTime : Int) (rejoin : Nat)
      (entries : List (BitVec 32 × Byte))
  /-- A ring check or link change, with its NODE and SEQUENCE (05 Tables 5.3, 5.4). -/
  | rm (node seq op port link serial : Nat)
  /-- A time beacon, with its NODE and SEQUENCE (05 Tables 5.3, 5.4; 06 R132). -/
  | tb (node seq : Nat) (origin : Int) (master rank state : Nat)
  /-- A link-delay probe request or response, with its NODE and SEQUENCE (05 Tables 5.3, 5.4). -/
  | ld (port : Port) (node seq op : Nat) (tReqSent tReqReceived tRespSent : Int)
  /-- A downstream bank frame (12 Table 12.1): command, enable, edges as channel, action, offset, width, and the configuration word. -/
  | downstream (bank frameNo timeUs unitClaim partnerClaim command enable : Nat)
      (edges : List (Nat × Nat × Nat × Nat)) (cfgAddr cfgData : Nat)
  /-- A downstream channel link frame: the command and the claims (13 R313). -/
  | aioDown (ch : Nat) (command : Real32) (unitClaim partnerClaim : Nat)
  /-- Steps planned on an axis for the starting interval, their instants in it, ns, and how its stage makes them (14 R336, R353
  to R357). -/
  | steps (axis : Nat) (n : Int) (offs : List Nat) (stage : AxStage)
  /-- A stop that bypasses the plan leaves this many steps in the present interval (14 R339, R344). -/
  | stepsCut (axis : Nat) (n : Int)
  /-- The stage of an axis goes over to hold current (14 R353). -/
  | drive (axis : Nat) (stage : AxStage)
  /-- A CAN frame offered to the bus (15 R376). -/
  | can (port buf id : Nat) (data : List Byte)
  /-- A heartbeat pulse (16 R393). -/
  | hbPulse
  /-- An arbitration frame on the precedence line (16 R391). -/
  | prec (claim : Nat)
  /-- A sync record: kind, SEQ, the rest of its header, and its content as bytes or numbers (16 Table 16.4). -/
  | sync (kind seq : Nat) (hdr : SyncHdr) (content : List Nat)
  /-- A CHANGE record with its SEQ and header (16 Table 16.4). -/
  | change (seq : Nat) (hdr : SyncHdr) (c : Change)
  /-- A piece of a state copy: the SEQ at which it was read, and whether it is the last (16 R399). -/
  | copy (seq : Nat) (hdr : SyncHdr) (piece : Piece) (last : Bool)
  /-- An FCL frame (16 R403). -/
  | fcl (claim : Nat)
  /-- A token and a vector to the safety output stages (10 R245). -/
  | token (tok vector : Nat)
  deriving DecidableEq, Repr

/-! ### Sessions (04) -/

/-- A staged write: object key (index × 256 + sub), offset and data (R88). -/
structure Staged where
  key : Nat
  off : Nat
  data : List Byte
  deriving DecidableEq, Repr

/-- A session's transaction (R88, R90). -/
structure Txn where
  /-- Staged writes, oldest first. -/
  writes : List Staged := []
  /-- Seal and lapse instant of a prepared safety transaction (R90). -/
  prepared : Option (Nat × Nat) := none
  /-- Areas whose lease ended while writes to them were staged (R86). -/
  lostAreas : List Nat := []
  deriving DecidableEq, Repr

/-- A DA message waiting for the one before it to complete (R77). -/
inductive Msg where
  | openReq (path : Path) (peer slot role : Nat) (nonceH : List Byte)
  | auth (path : Path) (peer session : Nat) (proof : List Byte)
  | request (h : Hdr) (service : Nat) (body : List Byte)
  deriving DecidableEq, Repr

/-- The FORCE taken and not yet answered (07 R166): its request, OP, POINT and VALUE; the record that carries it in a pair;
and the local time from which its engine tick is awaited. -/
structure ForceReq where
  hdr : Hdr := {}
  op : Nat
  point : Nat
  value : BitVec 32
  record : Option Nat := none
  ready : Option Int := none
  deriving DecidableEq, Repr

/-- A direct write not yet in effect (R74): object key, value, session, and the TICK record that carries it in a pair. -/
structure DirectWrite where
  key : Nat
  data : List Byte
  session : Nat
  record : Option Nat := none
  deriving DecidableEq, Repr

/-- One of the eight sessions (R78 to R81, Table 4.7). -/
structure Session where
  /-- `SESSION_STATE`: 0 closed, 1 OPENING, 2 ACTIVE (Table 4.7). -/
  state : Nat := 0
  /-- `SESSION_ROLE`, Table 4.8 codes (R83). -/
  role : Nat := 0
  /-- `SESSION_SLOT`, 0xFF for none (Table 4.7). -/
  slot : Nat := 0xFF
  /-- `SESSION_PATH`: 0, 1 ring, 2 SVC (Table 4.7). -/
  path : Nat := 0
  /-- `SESSION_PEER` (Table 4.7). -/
  peer : Nat := 0
  /-- `SESSION_CLOSE_CAUSE` of the last close (Table 4.7). -/
  closeCause : Nat := 0
  /-- Carries tags: authenticated against a slot (R79, R81). -/
  tagged : Bool := false
  /-- Enrolment session (R429). -/
  enrol : Bool := false
  /-- Host nonce of the OPEN (R80). -/
  nonceH : List Byte := []
  /-- Module nonce of the OPEN (R80). -/
  nonceM : List Byte := []
  /-- Session key k_s (R80). -/
  ks : List Byte := []
  /-- Instant of the OPEN (R78). -/
  openedAt : Nat := 0
  /-- Instant of the last valid message (R78). -/
  lastValid : Nat := 0
  /-- Last sequence processed (R81). -/
  lastSeq : Nat := 0
  /-- The stored response to the last sequence (R81). -/
  stored : Option Sent := none
  /-- Requests whose tag failed (R81). -/
  badTags : Nat := 0
  /-- The session's single transaction (R88). -/
  txn : Option Txn := none
  deriving DecidableEq, Repr

/-- A host slot's key and lock (R80, R82; 17 R428). -/
structure Slot where
  /-- The 32-byte key, absent when none is provisioned (R428). -/
  key : Option (List Byte) := none
  /-- End of the slot lock (R80). -/
  lockedUntil : Option Nat := none
  /-- Instants of authentication failures (R80). -/
  failures : List Nat := []
  deriving DecidableEq, Repr

/-- A lease (R84, R85). -/
structure Lease where
  area : Nat
  holder : Nat
  until_ : Nat
  deriving DecidableEq, Repr

/-- STATUS, RESULT and INVOKER of a command object (Table 4.11). -/
structure CmdObj where
  /-- `STATUS`: 0 idle, 1 running, 2 done, 3 failed. -/
  status : Nat := 0
  /-- `RESULT`, 16 bytes; [] stands for zeros. -/
  result : List Byte := []
  /-- `INVOKER`. -/
  invoker : Nat := 0xFF
  deriving DecidableEq, Repr

/-- A point sampled at a tick, as a TICK record carries it (09 R204): point, value, quality. -/
structure SampledPt where
  point : Nat
  value : BitVec 32
  qual : Nat
  /-- The cadence loop that sampled it outside the tick, and the instant of the firing (R217). DESIGN CHOICE: Table 16.4 lays
  out neither (log entry 24). -/
  loop : Option (Nat × Int) := none
  deriving DecidableEq, Repr

/-- A TICK record beside its digest (16 Table 16.4): the points sampled, and in `more` the rest of the committed state that
changed (04 R462; 05 R121; 07 R169; 08 R179, R189). -/
structure TickRec where
  points : List SampledPt
  more : List Piece := []
  deriving DecidableEq, Repr

/-- What a HELLO record and its header carry (16 Table 16.3, Table 16.4). `split` is the sender's latched boot option, which
10 R254 compares; DESIGN CHOICE: the spec names no record that carries it (log entry 81). -/
structure HelloMsg where
  positionB : Bool
  serial : Nat
  romIssue : Nat
  formeId : Nat
  generation : Nat
  sealHash : Nat
  split : Bool
  claimNo : Nat
  grade : Nat
  state : PairState
  /-- A SWITCHOVER_REQUEST runs at the sender, a standby (R400, R402). DESIGN CHOICE: the spec names no record that carries it
  (log entry 81). -/
  switchover : Bool := false
  deriving DecidableEq, Repr

/-- A TASK record: dirty state and the outputs of a cycle (16 Table 16.4). `more` is the rest of the committed state that
changed: mode, program clock, generations, forces, direct values and node states (04 R462; 05 R121; 07 R169; 08 R179,
R189, R193). -/
structure TaskRec where
  task : Fin 48
  releasedAt : Int
  inst : List (Nat × Byte)
  glob : List (Nat × Byte)
  ret : List (Nat × Byte)
  pops : List (Nat × Nat)
  more : List Piece
  crc : Nat
  /-- States of native blocks by instance offset: part of the dirty state (08 Table 8.6). -/
  blocks : List (Nat × BlockInst) := []
  deriving DecidableEq, Repr

end Sys2Proof
end

