-- ==== Sys2Proof/Syntax.lean ====
section
/-! DEFINITION. The commands the block takes: one constructor per row of the opcode table. Every command carries
the instant `t` at which it reaches the module, in ns of the module's oscillator since reset (log entry 1). -/

namespace Sys2Proof

/-- The commands, in the order of the opcode table. -/
inductive Instr where
  /-- OPEN (R78). An OPEN request names a slot and a role and opens a session in OPENING, or goes straight to ACTIVE for an open Observer session, or is refused. -/
  | openReq (t : Nat) (path : Path) (peer slot role : Nat) (nonceH : List Byte)
  /-- AUTH (R80). An AUTH request checks the host proof, answers with the module proof and derives the session key, or closes the session and counts the failure toward the slot lock. -/
  | auth (t : Nat) (path : Path) (peer session : Nat) (proof : List Byte)
  /-- CLOSE (R78). A CLOSE request ends the session and with it its leases and its open transaction. -/
  | close (t : Nat) (h : Hdr)
  /-- READ (R72). A READ request returns an object whole, or part of it by offset, as it stood at one instant, after the checks of Table 4.16. -/
  | read (t : Nat) (h : Hdr) (idx sub ty off max : Nat)
  /-- WRITE_OBJECT (R74). A WRITE to an object that has no row of its own is checked and then staged in the transaction, or for a direct object applied at the commit of its owner's next cycle. -/
  | writeObject (t : Nat) (h : Hdr) (idx sub ty off : Nat) (data : List Byte)
  /-- TXN_BEGIN (R88). A TXN_BEGIN request opens the session's single transaction. -/
  | txnBegin (t : Nat) (h : Hdr)
  /-- TXN_ABORT (R89). A TXN_ABORT request discards the session's transaction. -/
  | txnAbort (t : Nat) (h : Hdr)
  /-- KEEPALIVE (R78). A KEEPALIVE request restarts the 60 s idle time of the session. -/
  | keepalive (t : Nat) (h : Hdr)
  /-- SESSION_TIMEOUT (R78). A session that has received no valid message for 60 s is closed with close cause 0x02. -/
  | sessionTimeout (t : Nat) (n : Fin 8)
  /-- AUTH_TIMEOUT (R78). A session that has stayed in OPENING for 10 s without an AUTH is closed. -/
  | authTimeout (t : Nat) (n : Fin 8)
  /-- SLOT_LOCK_EXPIRY (R80). A slot lock ends 60 s after it was set. -/
  | slotLockExpiry (t : Nat) (k : Fin 16)
  /-- MODE_SET_STOP (R87). MODE_SET to STOP needs no lease, supersedes a MODE_SET still running and takes the module to STOP within 1 ms. -/
  | modeSetStop (t : Nat) (c : Cmd)
  /-- MODE_SET_RUN (R189). MODE_SET to RUN schedules the change from STOP at the next 1000 ms boundary, or resumes the tasks from HOLD at their next grid releases. -/
  | modeSetRun (t : Nat) (c : Cmd)
  /-- MODE_SET_HOLD (R191). MODE_SET to HOLD stops further task releases and freezes the program clock for DURATION, or renews a HOLD already in effect. -/
  | modeSetHold (t : Nat) (c : Cmd)
  /-- MODE_SET_STEP (R192). MODE_SET STEP in HOLD advances the program clock as the task kind requires and releases the named task once. -/
  | modeSetStep (t : Nat) (c : Cmd)
  /-- RUN_ENTRY (R62). At the boundary or whole second that was awaited, the module passes from STOP to RUN and releases the first cycle. -/
  | runEntry (t : Nat)
  /-- HOLD_LAPSE (R191). A HOLD whose duration has run out without renewal lapses to STOP. -/
  | holdLapse (t : Nat)
  /-- STEP_CYCLE_TIMEOUT (R192). A step cycle still running after 1 s is abandoned under R187. -/
  | stepCycleTimeout (t : Nat) (k : Fin 48)
  /-- ONLINE_CHANGE_PREPARE_AND_SWAP (R193). ONLINE_CHANGE with OP 0x01 copies the bulk buffer into the make-ready area and starts verification and migration, to be followed by a swap. -/
  | onlineChangePrepareAndSwap (t : Nat) (c : Cmd)
  /-- ONLINE_CHANGE_PREPARE_ONLY (R197). ONLINE_CHANGE with OP 0x02 prepares the forme and reports the migration without swapping. -/
  | onlineChangePrepareOnly (t : Nat) (c : Cmd)
  /-- ONLINE_CHANGE_CANCEL (R196). ONLINE_CHANGE with OP 0x03 abandons a change that is waiting, and the old forme continues. -/
  | onlineChangeCancel (t : Nat) (c : Cmd)
  /-- PREPARATION_END (R193). When the preparation of an online change completes, the forme is stored as candidate and the change waits for the next 1000 ms boundary, or swaps at once in STOP. -/
  | preparationEnd (t : Nat) (flashFull : Bool)
  /-- SWAP (R193). At a quiet 1000 ms boundary the migration is applied and every task is released on the new forme; a boundary that is not quiet moves the swap, and the third move abandons it. -/
  | swap (t : Nat) (pauseUs : Nat)
  /-- READMIT (R439). READMIT returns a retired DIO channel, AIO channel, axis or bank link to service, clears its fault count and rewrites the retirement list. -/
  | readmit (t : Nat) (c : Cmd)
  /-- TIME_RESTEP_FOLLOWER (R138). TIME_RESTEP with mode 0x01 steps a LOCKED or SLEWING follower to network time under the rule of R136. -/
  | timeRestepFollower (t : Nat) (c : Cmd)
  /-- TIME_RESTEP_MASTER (R138). TIME_RESTEP with mode 0x02 sets the master's time to TARGET, stepping whole seconds and slewing the remainder when in RUN or HOLD. -/
  | timeRestepMaster (t : Nat) (c : Cmd)
  /-- RECORDER_SNAPSHOT (R418). RECORDER_SNAPSHOT returns the newest and oldest sequence numbers, the recorder health and the first-occurrence count, all taken at one instant. -/
  | recorderSnapshot (t : Nat) (c : Cmd)
  /-- SWITCHOVER_REQUEST (R402). SWITCHOVER_REQUEST hands the active role to a qualifying TRACKING standby by orderly switchover, or is refused. -/
  | switchoverRequest (t : Nat) (c : Cmd)
  /-- CONFIG_COMMIT (R89). CONFIG_COMMIT phase 0x01 checks the whole transaction and accepts it for application, or discards it whole. -/
  | configCommit (t : Nat) (c : Cmd)
  /-- CONFIG_COMMIT_PREPARE (R90). CONFIG_COMMIT phase 0x02 runs every check and the safety forme verification and returns the safety seal without applying anything. -/
  | configCommitPrepare (t : Nat) (c : Cmd)
  /-- CONFIG_COMMIT_CONFIRM (R90). CONFIG_COMMIT phase 0x03 compares the seal and, with every safety output off, applies the prepared transaction and loads the new safety configuration. -/
  | configCommitConfirm (t : Nat) (c : Cmd)
  /-- PREPARED_TRANSACTION_LAPSE (R90). A prepared safety transaction not confirmed within 60 s lapses. -/
  | preparedTransactionLapse (t : Nat) (n : Fin 8)
  /-- CONFIG_APPLY (R89). An accepted configuration takes effect whole, within 20 ms in STOP or at the next 1000 ms boundary in RUN or HOLD, and CONFIG_GENERATION is incremented. -/
  | configApply (t : Nat)
  /-- LEASE_ACQUIRE (R85). LEASE with OP 0x01 gives the session the lease of one area for DURATION, or is refused. -/
  | leaseAcquire (t : Nat) (c : Cmd)
  /-- LEASE_RENEW (R85). LEASE with OP 0x02 restarts the duration of a lease that the session holds. -/
  | leaseRenew (t : Nat) (c : Cmd)
  /-- LEASE_RELEASE (R85). LEASE with OP 0x03 ends a lease that the session holds. -/
  | leaseRelease (t : Nat) (c : Cmd)
  /-- LEASE_EXPIRY (R86). A lease ends when its duration runs out, unless a pending change keeps it alive. -/
  | leaseExpiry (t : Nat) (area : Nat)
  /-- FORCE_POINT (R167). FORCE with op 0x01 forces a point to a value with quality GOOD_FORCED from the first engine tick at which the force is committed. -/
  | forcePoint (t : Nat) (c : Cmd)
  /-- FORCE_RELEASE (R168). FORCE with op 0x02 releases one forced point, which shows its underlying value and quality from the next tick. -/
  | forceRelease (t : Nat) (c : Cmd)
  /-- FORCE_RELEASE_ALL (R167). FORCE with op 0x03 releases every force in effect. -/
  | forceReleaseAll (t : Nat) (c : Cmd)
  /-- DOMAIN_RESET (R54). DOMAIN_RESET takes the resources of one domain to their safe state and switches the domain off for 10 ms, or restarts the whole module for target 0xFF. -/
  | domainReset (t : Nat) (c : Cmd)
  /-- DOMAIN_RESET_COMPLETE (R55). When the reset domain is up again, STATUS becomes 0x02 and RESULT holds the time the domain was off. -/
  | domainResetComplete (t : Nat)
  /-- PATCH_INSTALL (R426). PATCH_INSTALL with OP 0x01 checks the patch bundle in the bulk buffer, stores it as pending and restarts the module with reset cause 0x08. -/
  | patchInstall (t : Nat) (c : Cmd) (flashFull : Bool)
  /-- PATCH_REMOVE (R426). PATCH_INSTALL with OP 0x02 removes the installed patch set, leaving the module unpatched from the next start. -/
  | patchRemove (t : Nat) (c : Cmd)
  /-- BULK_LENGTH (R94). A write of BULK_LENGTH empties the bulk buffer and sets its size. -/
  | bulkLength (t : Nat) (c : Cmd)
  /-- BULK_DATA (R94). A write of BULK_DATA by offset fills the bulk buffer and updates BULK_CRC. -/
  | bulkData (t : Nat) (c : Cmd)
  /-- SLOT_KEY (R428). A write of SLOT_KEY over SVC within a presence window unwraps and sets or clears the slot's key and closes every other session of that slot. -/
  | slotKey (t : Nat) (k : Fin 16) (c : Cmd)
  /-- SIGNER_KEY (R430). A write of SIGNER_KEY over SVC within a presence window sets or empties one project signer key. -/
  | signerKey (t : Nat) (k : Fin 4) (c : Cmd)
  /-- SC_ARM_TRUE (R150). Writing SC_ARM true arms a synchro-check instance, or is refused when the other instance is armed or the close DO is retired. -/
  | scArmTrue (t : Nat) (i : Fin 2) (c : Cmd)
  /-- SC_ARM_FALSE (R152). Writing SC_ARM false ends an armed instance in ABORTED. -/
  | scArmFalse (t : Nat) (i : Fin 2) (c : Cmd)
  /-- LOOP_MODE (R208). A write of LOOP_MODE selects AUTO or MANUAL for a loop from its next sample, bumplessly. -/
  | loopMode (t : Nat) (n : Fin 1024) (c : Cmd)
  /-- AX_COMMAND_HOME (R335). AX_COMMAND 0x01 starts homing of an axis at the next interval. -/
  | axCommandHome (t : Nat) (axis : Fin 24) (c : Cmd)
  /-- AX_COMMAND_STOP_RAMP (R335). AX_COMMAND 0x02 stops an axis with RAMP and holds it until its target point next changes. -/
  | axCommandStopRamp (t : Nat) (axis : Fin 24) (c : Cmd)
  /-- AX_COMMAND_STOP_HARD (R335). AX_COMMAND 0x03 stops an axis with HARD and holds it until its target point next changes. -/
  | axCommandStopHard (t : Nat) (axis : Fin 24) (c : Cmd)
  /-- CAN_RECOVER_BUS_OFF (R380). CAN_RECOVER 0x01 starts the bus-off recovery sequence of a port. -/
  | canRecoverBusOff (t : Nat) (port : Fin 8) (c : Cmd)
  /-- CAN_RECOVER_COLLISION (R381). CAN_RECOVER 0x02 re-enables the port's collision-disabled buffers. -/
  | canRecoverCollision (t : Nat) (port : Fin 8) (c : Cmd)
  /-- PRESENCE_KEY (R427). Releasing the presence key after 0.5 to 5 s opens a presence window of 120 s, while a press held beyond 5 s opens nothing; both are recorded. -/
  | presenceKey (t : Nat) (heldMs : Nat)
  /-- PRESENCE_WINDOW_EXPIRY (R427). A presence window closes 120 s after it opened. -/
  | presenceWindowExpiry (t : Nat)
  /-- STARTUP (R58). When the trunk rises above 38.0 V, or a restart is due, the module brings its domains up, verifies signatures, joins the ring, decides the start kind and enters STOP at 2,000 ms. -/
  | startup (t : Nat) (env : StartEnv)
  /-- POWER_FAIL (R64). When the trunk stays below 33.0 V for 100 µs, the module runs the power-fail sequence to its end and then restarts or waits for the trunk. -/
  | powerFail (t : Nat) (margin : Nat) (trunkBack : Bool)
  /-- FUSE_TRIP (R49). A through-feed above 5 A opens the port's electronic fuse, counts the trip and writes a power-class record. -/
  | fuseTrip (t : Nat) (port : Port) (mv : Nat)
  /-- FUSE_RECLOSE (R49). An open through-feed fuse closes again after 1 s. -/
  | fuseReclose (t : Nat) (port : Port)
  /-- SUPPLY_WARNING (R51). A supply that crosses its warning threshold sets its warning bit of SUPPLY_STATUS. -/
  | supplyWarning (t : Nat) (supply : Supply) (mv : Nat)
  /-- SUPPLY_WARNING_CLEAR (R51). A warning bit clears after its supply has stayed 0.5 V back beyond the threshold for 20 ms. -/
  | supplyWarningClear (t : Nat) (supply : Supply) (mv : Nat)
  /-- SUPPLY_OFF (R51). A supply that crosses its off threshold takes the affected outputs, inputs, safety I/O or bridges to the action of Table 3.2. -/
  | supplyOff (t : Nat) (supply : Supply) (mv : Nat)
  /-- SUPPLY_RECOVERY (R51). A supply that has stayed beyond its recovery threshold for 20 ms restores the affected functions as Table 3.2 gives. -/
  | supplyRecovery (t : Nat) (supply : Supply) (mv : Nat)
  /-- THERMAL_SHUTDOWN (R63). A die above 125 °C resets the module with cause 0x05, which restarts below 110 °C. -/
  | thermalShutdown (t : Nat) (dieTenths : Int)
  /-- RAIL_FAULT (R63). A rail outside ±8 % for 1 ms resets the module with cause 0x09. -/
  | railFault (t : Nat) (rail : Fin 18)
  /-- MGT_WATCHDOG (R63). Expiry of the 100 ms management watchdog resets the module with cause 0x04. -/
  | mgtWatchdog (t : Nat)
  /-- COUNTER_MIRROR (R57). Once a minute while MGT is up, the management processor mirrors the AON counters into flash. -/
  | counterMirror (t : Nat)
  /-- DIRECT_VALUE_FLASH_WRITE (R462). Within 1 s of the commit in which it takes effect, an applied value of a kept direct object is written to flash beside the configuration record. -/
  | directValueFlashWrite (t : Nat)
  /-- SENSOR_SAMPLE (R424). The management processor samples its sensors, applies their factory correction, updates the drive derating and records limits exceeded. -/
  | sensorSample (t : Nat) (r : Readings)
  /-- HUMIDITY_LIMIT_EXCEEDED (R424). Humidity above HUMIDITY_LIMIT for 60 s writes a sensor-limit record. -/
  | humidityLimitExceeded (t : Nat)
  /-- PHY_READY_LOST (R67). A PHY that stops being ready closes the bypass relay at once. -/
  | phyReadyLost (t : Nat)
  /-- BYPASS_RELAY_OPEN (R67). With NET up and both PHYs ready, and at least 2 s after it last closed, the bypass relay opens. -/
  | bypassRelayOpen (t : Nat)
  /-- FRAME_RECEIVED (R99). A frame arriving at a trunk port is forwarded cut-through, consumed if addressed to the module and first, and its duplicate discarded. -/
  | frameReceived (t : Nat) (port : Port) (f : Frame)
  /-- DUPLICATE_ENTRY_EXPIRY (R99). An entry of the duplicate table is forgotten 400 ms after its first copy. -/
  | duplicateEntryExpiry (t : Nat) (src hsrSeq : Nat)
  /-- SUPERVISION_SEND (R99). Every 2 s the module sends an IEC 62439-3 supervision frame. -/
  | supervisionSend (t : Nat)
  /-- SUPERVISION_FRAME (R99). A received HSR supervision frame updates the node table of the standard. -/
  | supervisionFrame (t : Nat) (src : Nat)
  /-- PD_INPUT_FRAME (R110). A PD input frame is collected into its set, and when the set's last frame arrives the set lands in the image in one step and any rejoin proceeds. -/
  | pdInputFrame (t : Nat) (f : PdInput)
  /-- PD_OUTPUT_FRAME_FORWARDED (R117). A forwarded PD output set for an owned node from a foreign address sets FOREIGN_WRITER and is recorded at most once per minute. -/
  | pdOutputFrameForwarded (t : Nat) (dst src : Nat)
  /-- PD_OUTPUT_SET_SEND (R109). At each period boundary of a class, an active module sends each owned node's output set with the values of the newest released cycle. -/
  | pdOutputSetSend (t : Nat) (cls : Fin 4)
  /-- EXCHANGE_PERIOD_END (R119). At the end of a node's fastest class period without an acknowledging input set, a missing exchange is counted and the node may be declared lost. -/
  | exchangePeriodEnd (t : Nat) (rec : Fin 2048)
  /-- RING_CHECK_SEND (R122). Every 100 ms the module sends an RM ring check. -/
  | ringCheckSend (t : Nat)
  /-- RING_CHECK_TIMEOUT (R122). When no copy of the module's own ring check has returned within 300 ms, the ring is reported open. -/
  | ringCheckTimeout (t : Nat)
  /-- RM_FRAME (R105). A received RM frame updates ring state and RING_LAST_BREAK, or declares an address conflict if it carries the module's address with another serial. -/
  | rmFrame (t : Nat) (port : Port) (node seq op portNo link serial : Nat)
  /-- ADDRESS_CONFLICT_END (R105). An address conflict ends when no conflicting RM frame has arrived for 3 s. -/
  | addressConflictEnd (t : Nat)
  /-- LINK_CHANGE (R122). A trunk port link that goes down or up sends an RM link change within 10 ms and writes a class 0x83 record. -/
  | linkChange (t : Nat) (port : Port) (up : Bool)
  /-- TB_SEND (R132). A module in MASTER sends a time beacon every 62.5 ms. -/
  | tbSend (t : Nat)
  /-- TB_FRAME (R134). A received time beacon gives an offset sample for its port, or stops a master that hears a better candidate. -/
  | tbFrame (t : Nat) (port : Port) (seq : Nat) (origin : Int) (master rank st : Nat)
  /-- SERVO_PERIOD (R135). Once per beacon period the servo acts on the samples of that period, adjusts rate and offset and moves between discipline states. -/
  | servoPeriod (t : Nat)
  /-- MASTERSHIP (R132). A module that has heard no beacon from a better candidate for 250 ms becomes MASTER. -/
  | mastership (t : Nat)
  /-- BEACON_TIMEOUT (R135). 500 ms without a beacon takes a LOCKED or SLEWING module to HOLDOVER. -/
  | beaconTimeout (t : Nat)
  /-- LD_SEND (R134). Every 1 s the module sends a link-delay probe request to each neighbour. -/
  | ldSend (t : Nat)
  /-- LD_FRAME (R134). A link-delay probe request is answered, and a response updates the link delay of its port. -/
  | ldFrame (t : Nat) (port : Port) (op : Nat) (tReqSent tReqReceived tRespSent : Int)
  /-- ENGINE_TICK (R201). At each 125 µs tick the engine samples the clock-sampled loops due, computes their updates and seals or commits their state. -/
  | engineTick (t : Nat)
  /-- LOOP_RELEASE (R201). One period after its sample, a loop releases its output items, or withholds them with RELEASE_LATE in a pair without acknowledgement. -/
  | loopRelease (t : Nat) (n : Fin 1024)
  /-- CAD_TIMEOUT (R218). With no firing within CAD_TIMEOUT of its last sample, a cadence-sampled loop releases its pending output and falls back to the clock grid. -/
  | cadTimeout (t : Nat) (n : Fin 1024)
  /-- TASK_RELEASE (R183). At a grid multiple of its period, a cyclic task is released with a snapshot of its points, or the release is counted as missed. -/
  | taskRelease (t : Nat) (k : Fin 48)
  /-- REG (R175). A REG instruction word applies its operation to two working registers. -/
  | reg (t : Nat) (x : Ctx) (op dst a b ty : Nat)
  /-- IMM (R175). An IMM instruction word applies its operation with a signed immediate. -/
  | imm (t : Nat) (x : Ctx) (op dst imm : Nat)
  /-- FRAME_LOAD (R175). A FRAME load word reads a word of the instance, globals, retained or constants into a working register. -/
  | frameLoad (t : Nat) (x : Ctx) (w base off : Nat)
  /-- FRAME_STORE (R175). A FRAME store word writes a working register to the instance, globals or retained data. -/
  | frameStore (t : Nat) (x : Ctx) (w base off : Nat)
  /-- FRAME_LOAD_ADDRESS (R175). A FRAME load-address word puts the address of a frame word into a working register. -/
  | frameLoadAddress (t : Nat) (x : Ctx) (w base off : Nat)
  /-- POINT_READ_VALUE (R176). A POINT read word takes a point's value from the task's snapshot. -/
  | pointReadValue (t : Nat) (x : Ctx) (w point : Nat)
  /-- POINT_READ_QUALITY (R176). A POINT read word takes a point's quality from the task's snapshot. -/
  | pointReadQuality (t : Nat) (x : Ctx) (w point : Nat)
  /-- POINT_READ_TIMESTAMP (R176). A POINT read word takes a point's timestamp from the task's snapshot. -/
  | pointReadTimestamp (t : Nat) (x : Ctx) (w point : Nat)
  /-- POINT_WRITE_VALUE (R176). A POINT write word puts a value into the task's output buffer for the commit. -/
  | pointWriteValue (t : Nat) (x : Ctx) (w point : Nat)
  /-- BRANCH (R175). A BRANCH word tests a working register and jumps by its displacement. -/
  | branch (t : Nat) (x : Ctx) (cond w disp : Nat)
  /-- CALL_USER_BLOCK (R175). A CALL word of kind 0b00 calls a user block on its instance. -/
  | callUserBlock (t : Nat) (x : Ctx) (desc : Nat)
  /-- CALL_ROM_BLOCK (R175). A CALL word of kind 0b01 calls a native ROM block on its instance. -/
  | callRomBlock (t : Nat) (x : Ctx) (desc : Nat)
  /-- CALL_FUNCTION (R175). A CALL word of kind 0b10 calls a function without instance. -/
  | callFunction (t : Nat) (x : Ctx) (desc : Nat)
  /-- EXT (R175). An EXT word supplies the upper bits of the next word's offset, immediate or displacement. -/
  | ext (t : Nat) (x : Ctx) (bits : Nat)
  /-- SYS_RETURN (R175). A SYS return word returns from the current routine. -/
  | sysReturn (t : Nat) (x : Ctx) (arg : Nat)
  /-- SYS_END_OF_CYCLE (R14). A SYS end-of-cycle word ends the task cycle, commits its state and, in a single unit, releases its outputs. -/
  | sysEndOfCycle (t : Nat) (x : Ctx) (arg : Nat)
  /-- SYS_TRAP (R186). A SYS trap word raises a task fault. -/
  | sysTrap (t : Nat) (x : Ctx) (arg : Nat)
  /-- TON (R179). A TON call sets Q once the program clock has run PT past the rise of IN. -/
  | ton (t : Nat) (x : Ctx) (inst : Nat) (inp : Bool) (pt : Int)
  /-- TOF (R179). A TOF call runs the off-delay timer against the program clock under IEC 61131-3. -/
  | tof (t : Nat) (x : Ctx) (inst : Nat) (inp : Bool) (pt : Int)
  /-- TP (R179). A TP call runs the pulse timer against the program clock under IEC 61131-3. -/
  | tp (t : Nat) (x : Ctx) (inst : Nat) (inp : Bool) (pt : Int)
  /-- R_TRIG (R179). An R_TRIG call gives Q on a rising input, with no edge in its first cycle. -/
  | rTrig (t : Nat) (x : Ctx) (inst : Nat) (clk : Bool)
  /-- F_TRIG (R179). An F_TRIG call gives Q on a falling input, with no edge in its first cycle. -/
  | fTrig (t : Nat) (x : Ctx) (inst : Nat) (clk : Bool)
  /-- CTU (R180). A CTU call counts up on input edges, with no edge counted in its first cycle. -/
  | ctu (t : Nat) (x : Ctx) (inst : Nat) (cu r : Bool) (pv : Int)
  /-- CTD (R180). A CTD call counts down on input edges, with no edge counted in its first cycle. -/
  | ctd (t : Nat) (x : Ctx) (inst : Nat) (cd ld : Bool) (pv : Int)
  /-- CTUD (R180). A CTUD call counts up and down on input edges, with no edge counted in its first cycle. -/
  | ctud (t : Nat) (x : Ctx) (inst : Nat) (cu cd r ld : Bool) (pv : Int)
  /-- SR (R178). An SR call updates the set-dominant bistable Q1. -/
  | sr (t : Nat) (x : Ctx) (inst : Nat) (s1 r : Bool)
  /-- RS (R178). An RS call updates the reset-dominant bistable Q1. -/
  | rs (t : Nat) (x : Ctx) (inst : Nat) (st r1 : Bool)
  /-- CAN_RECV (R378). A CAN_RECV call returns the snapshot frame of a compact buffer or pops the next frame of a deep buffer's shadow. -/
  | canRecv (t : Nat) (k : Fin 48) (port buf : Nat)
  /-- CAN_SEND (R378). A CAN_SEND call requests a frame for an on-request buffer, queued at the release of the calling cycle. -/
  | canSend (t : Nat) (k : Fin 48) (port buf id : Nat) (data : List Byte)
  /-- CAN_STATE_RECOVER (R378). A CAN_STATE call with OP 0x01 starts the bus-off recovery of a port at the release of the calling cycle. -/
  | canStateRecover (t : Nat) (k : Fin 48) (port : Nat)
  /-- CAN_STATE_REENABLE (R378). A CAN_STATE call with OP 0x02 re-enables the port's collision-disabled buffers at the release of the calling cycle. -/
  | canStateReenable (t : Nat) (k : Fin 48) (port : Nat)
  /-- EMERGENCY_STOP_BLOCK (R258). A call of block 0x0100 returns EN, EN_DELAYED and STATE of an emergency-stop instance. -/
  | emergencyStopBlock (t : Nat) (x : Ctx) (f : Nat)
  /-- GUARD_INTERLOCK_BLOCK (R258). A call of block 0x0101 returns EN and STATE of a guard-interlock instance. -/
  | guardInterlockBlock (t : Nat) (x : Ctx) (f : Nat)
  /-- TWO_HAND_CONTROL_BLOCK (R258). A call of block 0x0102 returns EN and STATE of a two-hand instance. -/
  | twoHandControlBlock (t : Nat) (x : Ctx) (f : Nat)
  /-- LIGHT_CURTAIN_BLOCK (R258). A call of block 0x0103 returns EN and STATE of a light-curtain instance. -/
  | lightCurtainBlock (t : Nat) (x : Ctx) (f : Nat)
  /-- SO_STATUS_BLOCK (R258). A call of block 0x0104 returns an output's SO_STATUS as it stood at the cycle start. -/
  | soStatusBlock (t : Nat) (x : Ctx) (k : Nat)
  /-- DOWNSTREAM_FRAME (R284). Every 62.5 µs the module sends each bank a downstream frame, which the BIC takes to realign its clock, apply commands and edges and stage configuration. -/
  | downstreamFrame (t : Nat) (b : Fin 8) (ok : Bool)
  /-- UPSTREAM_FRAME (R285). An upstream frame from a BIC lands input states, supervision, edge records, flags and the FCL claim it saw. -/
  | upstreamFrame (t : Nat) (b : Fin 8) (syncOk crcOk : Bool) (supplyMv currentMa : Nat) (temp : Int) (curMa : Nat)
  /-- LINK_RESYNC (R285). The module resynchronises a bank link within 1 ms of a link-fault event. -/
  | linkResync (t : Nat) (b : Fin 8)
  /-- LINK_SILENCE (R287). A BIC with no good downstream frame for BANK_WD_TIME takes each output to its DIO_SAFE_STATE. -/
  | linkSilence (t : Nat) (b : Fin 8)
  /-- DI_EDGE_ACCEPTED (R293). An input reading that has stayed at a new value or band for DIO_FILTER is accepted, stamped and queued as an edge record. -/
  | diEdgeAccepted (t : Nat) (ch : Fin 96) (mv ua : Nat)
  /-- OUTPUT_TRIP (R297). An output that holds its current limit for 2 ms or reaches thermal shutdown switches off and counts a fault, retiring at the third within 10 s. -/
  | outputTrip (t : Nat) (ch : Fin 96) (thermal : Bool)
  /-- OUTPUT_RETRY (R297). 100 ms after a trip, with the command on and the junction below 135 °C, the BIC switches the output on again. -/
  | outputRetry (t : Nat) (ch : Fin 96) (tempC : Int)
  /-- BANK_OVERLOAD (R298). Bank current above 6.6 A for 100 ms switches off every output of the bank and sets the overload flag. -/
  | bankOverload (t : Nat) (b : Fin 8) (ma : Nat)
  /-- BANK_OVERLOAD_RESTORE (R298). 1 s after a bank overload the BIC starts restoring the outputs commanded on. -/
  | bankOverloadRestore (t : Nat) (b : Fin 8)
  /-- RESTORE_GROUP (R303). Every 1 ms while restoring, the next four outputs commanded on switch on in ascending channel order. -/
  | restoreGroup (t : Nat) (b : Fin 8)
  /-- OPEN_LOAD (R299). An output that is on with less than 2 mA for 100 ms sets OPEN_LOAD, which clears at 5 mA for 100 ms. -/
  | openLoad (t : Nat) (ch : Fin 96) (ma : Nat)
  /-- EXTERNAL_DRIVE (R304). An off output whose readback stays at 11 V or more for 10 ms reports EXTERNAL_DRIVE, cleared after 100 ms at 5 V or less. -/
  | externalDrive (t : Nat) (ch : Fin 96) (mv : Nat)
  /-- BANK_SUPPLY_OFF (R303). A bank supply below 16.0 V switches every output of the bank off within 100 µs and sets the bank's inputs BAD_SUPPLY. -/
  | bankSupplyOff (t : Nat) (b : Fin 8) (mv : Nat)
  /-- BANK_RESTORE (R303). A bank supply above 18.0 V for 20 ms starts restoring outputs in groups. -/
  | bankRestore (t : Nat) (b : Fin 8) (mv : Nat)
  /-- BIC_RESET (R289). A bank supply below 12 V resets the BIC, which holds every output off until its configuration matches the module's. -/
  | bicReset (t : Nat) (b : Fin 8) (mv : Nat)
  /-- TIMED_EDGE (R301). At its placed offset after the grid instant, the BIC switches the output for a set, clear or pulse edge. -/
  | timedEdge (t : Nat) (ch : Fin 96)
  /-- PULSE_END (R301). WIDTH µs after a pulse edge, the BIC switches the output off again. -/
  | pulseEnd (t : Nat) (ch : Fin 96)
  /-- AIO_CONVERSION (R310). At each whole millisecond a channel completes a conversion, filters the value, judges its band and lands it. -/
  | aioConversion (t : Nat) (ch : Fin 32) (code : Int) (env : ConvEnv)
  /-- AO_UPDATE (R312). At each whole millisecond an AO channel applies the most recently released command, clamped or replaced by its safe state. -/
  | aoUpdate (t : Nat) (ch : Fin 32)
  /-- AIO_LINK_FRAME (R313). Every 125 µs a channel link frame carries the command and claims down and the conversion, voltage, temperature and flags up. -/
  | aioLinkFrame (t : Nat) (ch : Fin 32) (okDown okUp : Bool) (mv temp : Int)
  /-- AIO_LINK_SILENCE (R313). A channel chip with no good downstream frame for AIO_WD_TIME takes an AO channel to its safe state. -/
  | aioLinkSilence (t : Nat) (ch : Fin 32)
  /-- AO_CONDITION (R319). An AO condition of Table 13.3 held for 20 ms sets its flag and readback quality, and clears 20 ms after it ends. -/
  | aoCondition (t : Nat) (ch : Fin 32) (cond : AoCond) (present : Bool)
  /-- READBACK_MISMATCH (R321). A readback mismatch held for 50 ms is a channel-chip fault; the chip is reinitialised at MIN and the fault counted. -/
  | readbackMismatch (t : Nat) (ch : Fin 32)
  /-- PARTNER_MISMATCH (R326). In pass mode, a difference above 0.2 mA from the tracked command for 50 ms sets PARTNER_MISMATCH. -/
  | partnerMismatch (t : Nat) (ch : Fin 32) (present : Bool)
  /-- MOTION_TICK (R336). At every 125 µs tick the motion unit reads targets and control words, plans each axis L intervals ahead and releases the plan of the starting interval. -/
  | motionTick (t : Nat)
  /-- LIMIT_INPUT_QUALIFIED (R344). A limit or home input that qualifies a new state stops an axis moving toward it, or latches homing. -/
  | limitInputQualified (t : Nat) (set : Fin 8) (input : LimitInput) (high : Bool) (stepsSince : Int)
  /-- HOME_TIMEOUT (R349). Homing still running after AX_HOME_TIMEOUT ends with result 3 and the position lost. -/
  | homeTimeout (t : Nat) (axis : Fin 24)
  /-- HOLD_DELAY (R353). After AX_HOLD_DELAY at standstill an integrated drive changes to AX_HOLD_CURRENT. -/
  | holdDelay (t : Nat) (axis : Fin 24)
  /-- DRIVE_FAULT (R356). A drive fault of Table 14.6 stops the axis at once, marks its position lost and counts toward retirement where the table says so. -/
  | driveFault (t : Nat) (axis : Fin 24) (kind : DriveFaultKind)
  /-- DRIVE_RETRY (R356). 100 ms after a drive fault, below 135 °C and with ENABLE true, the drive is re-enabled. -/
  | driveRetry (t : Nat) (axis : Fin 24) (tempC : Int)
  /-- DRIVE_LINK_SILENCE (R340). A drive or pulse-stage link silent for 10 ms while moving above v_stop marks the position lost. -/
  | driveLinkSilence (t : Nat) (axis : Fin 24)
  /-- CAN_FRAME_RECEIVED (R369). A frame received without error goes to the first matching receive buffer and lands its mapped points. -/
  | canFrameReceived (t : Nat) (port : Fin 8) (f : CanFrame)
  /-- CAN_FRAME_SENT (R376). A transmitted frame completes, and the port offers the bus its next queued frame. -/
  | canFrameSent (t : Nat) (port : Fin 8)
  /-- CAN_ERROR (R379). A detected bus error changes the error counters and can set WARNING, error-passive, bus-off or COLLISION_SUSPECTED. -/
  | canError (t : Nat) (port : Fin 8) (kind : CanErr) (tx : Bool) (spot : CanSpot)
  /-- BUS_OFF_RECOVERY_COMPLETE (R380). After 128 occurrences of 11 recessive bits the counters reset and the held frames are sent. -/
  | busOffRecoveryComplete (t : Nat) (port : Fin 8)
  /-- CAN_CYCLIC_TRIGGER (R375). At every whole multiple of PARAM ms a cyclic transmit buffer queues a frame, or merges into one still queued. -/
  | canCyclicTrigger (t : Nat) (port : Fin 8) (buf : Fin 128)
  /-- CAN_RX_TIMEOUT (R373). A receive buffer with no frame for PARAM ms sets TIMEOUT. -/
  | canRxTimeout (t : Nat) (port : Fin 8) (buf : Fin 128)
  /-- AUTOBAUD_DWELL (R367). After CAN_AUTOBAUD_DWELL without a lock, an autobaud port moves to the next rate of its list. -/
  | autobaudDwell (t : Nat) (port : Fin 8)
  /-- ENCODER_EDGE (R142). An encoder edge updates the tracker's count, angle, speed and acceleration, and a Z pulse resets the count. -/
  | encoderEdge (t : Nat) (e : Fin 4) (ev : EncEvent)
  /-- MAINS_ZERO_CROSSING (R142). A positive zero crossing of a mains input updates its tracker's angle, frequency and rms. -/
  | mainsZeroCrossing (t : Nat) (m : Fin 2) (tz : Int) (codes : List Int) (temp : Int)
  /-- ENCODER_STILL (R141). An encoder tracker with no edge for 100 ms enters STILL. -/
  | encoderStill (t : Nat) (n : Fin 8)
  /-- TRACKER_SOURCE_LOSS (R144). On loss of its source a tracker enters COASTING and extrapolates its angle. -/
  | trackerSourceLoss (t : Nat) (n : Fin 8)
  /-- COAST_EXPIRY (R144). A tracker still without its source after TRK_COAST enters LOST. -/
  | coastExpiry (t : Nat) (n : Fin 8)
  /-- SLOT_FIRE (R147). At its locked fire time an armed slot fires its DO edge, loop sample or task release, or is withheld, and re-arms if periodic. -/
  | slotFire (t : Nat) (n : Fin 256)
  /-- SC_COMMAND (R151). At the predicted command instant, an armed synchro-check instance issues a close pulse of SC_PULSE on its close DO. -/
  | scCommand (t : Nat) (i : Fin 2)
  /-- SC_PULSE_END (R152). When the close pulse completes, the instance enters CLOSED. -/
  | scPulseEnd (t : Nat) (i : Fin 2)
  /-- SC_ARM_TIMEOUT (R152). An armed instance that has issued no command within SC_ARM_TIMEOUT enters TIMED_OUT. -/
  | scArmTimeout (t : Nat) (i : Fin 2)
  /-- SAFETY_COMMIT (R231). At the end of a safety cycle the SCU commits the output vector and token and publishes status points, and the next cycle starts with latch and mailbox. -/
  | safetyCommit (t : Nat) (mailboxLate : Bool)
  /-- PASS_B_START (R232). At half the safety cycle pass B starts on the other core with the tag sweep of the coded data. -/
  | passBStart (t : Nat)
  /-- PASS_OVERRUN (R250). A pass still running past its end time of Table 10.3 is a counted safety-complex fault. -/
  | passOverrun (t : Nat)
  /-- SCU_COMPARE (R242). At T − 50 µs the SCU compares output vectors, status digests and at window end the proof words, and runs its self-test injection. -/
  | scuCompare (t : Nat) (registerFault selfTestDetected : Bool)
  /-- TOKEN (R245). An output stage that receives a correct token in time applies the committed vector. -/
  | token (t : Nat) (tok : Nat)
  /-- TOKEN_MISSING (R245). An output stage whose token watchdog expires holds its state on the first miss and switches all safety outputs off on the second. -/
  | tokenMissing (t : Nat)
  /-- SAFETY_CONFIG_START (R253). After a sealed confirm or a received safety configuration, the new safety forme starts at cycle 0 in STARTING at the next boundary. -/
  | safetyConfigStart (t : Nat)
  /-- SI_ACCEPTED (R260). A safety input's raw value that has stayed at a new level for FILTER is accepted by its capture path. -/
  | siAccepted (t : Nat) (term : Fin 32) (bank : Fin 2) (high : Bool)
  /-- TEST_PULSE_DARK (R261). At its scheduled time a test-pulse source goes dark for 500 µs and its terminals are blanked. -/
  | testPulseDark (t : Nat) (src : Fin 8)
  /-- TEST_PULSE_CHECK (R262). 400 µs into a dark both banks sample the assigned terminals, and a terminal not reading OFF fails the test. -/
  | testPulseCheck (t : Nat) (src : Fin 8) (onMask : Nat)
  /-- BLANK_END (R263). 0.6 ms after the dark begins the blank ends and filtering begins afresh from the raw value. -/
  | blankEnd (t : Nat) (src : Fin 8)
  /-- TP_OVERLOAD (R264). A test-pulse source above its current limit switches off and sets its TP_STATUS bit. -/
  | tpOverload (t : Nat) (src : Fin 8)
  /-- TP_RETRY (R264). An overloaded test-pulse source tries again every 1 s. -/
  | tpRetry (t : Nat) (src : Fin 8) (overloaded : Bool)
  /-- TP_TAKEOVER (R281). Unit B takes over a test-pulse source whose terminal stays dark for more than 2 ms outside a blank it has observed. -/
  | tpTakeover (t : Nat) (src : Fin 8)
  /-- OFF_TEST (R275). Once a second, an output that is on has one of its switches turned off briefly to test it. -/
  | offTest (t : Nat) (k : Fin 8) (high : Bool)
  /-- OFF_TEST_END (R275). A switch whose pin has not reached its level within 300 µs is marked stuck and its output latched off. -/
  | offTestEnd (t : Nat) (k : Fin 8) (reached chainClosed : Bool)
  /-- SO_OVERCURRENT (R277). A safety output at its current limit for 100 µs switches both switches off and latches. -/
  | soOvercurrent (t : Nat) (k : Fin 8)
  /-- SO_EXTERNAL_DRIVE (R277). Wrong off-state readings on a safety output for 10 ms latch EXTERNAL_DRIVE. -/
  | soExternalDrive (t : Nat) (k : Fin 8) (present : Bool)
  /-- FEEDBACK_TIMEOUT (R278). Feedback that has not followed a committed switch-on or switch-off within FB_TIME raises FEEDBACK_FAULT. -/
  | feedbackTimeout (t : Nat) (k : Fin 8)
  /-- HB_PULSE_SEND (R393). A pair unit pulls HB low for 20 µs at its scheduled instant. -/
  | hbPulseSend (t : Nat)
  /-- HB_PULSE (R393). A heartbeat pulse received from the partner restarts the heartbeat-loss time. -/
  | hbPulse (t : Nat)
  /-- HEARTBEAT_LOSS (R393). A unit with no partner pulse for 3.0 ms declares heartbeat loss and arbitrates or waits as R392 gives. -/
  | heartbeatLoss (t : Nat)
  /-- PREC_FRAME (R391). An arbitration frame read on the precedence line is answered with the unit's own frame if its claim is lower, or makes the unit lose if higher. -/
  | precFrame (t : Nat) (claim : Nat)
  /-- ARBITRATION_WON (R392). A unit that has read no higher claim for 1.0 ms after its frame has won and becomes or stays active. -/
  | arbitrationWon (t : Nat)
  /-- STANDBY_RECORD_TIMEOUT (R392). A standby below grade 8 that receives no commit record within 1.0 ms of declaring heartbeat loss enters UNSYNCED. -/
  | standbyRecordTimeout (t : Nat)
  /-- HELLO_SEND (R394). Every 10 ms each pair unit sends a HELLO record on the sync link. -/
  | helloSend (t : Nat)
  /-- HELLO (R386). A received HELLO record updates partner identity and enters CONFLICT if it shows the unit's own position. -/
  | hello (t : Nat) (msg : HelloMsg)
  /-- INPUT (R396). A standby lands a received INPUT record in its own image in SEQ order and acknowledges it. -/
  | input (t : Nat) (seq : Nat) (landings : List Landing)
  /-- TICK (R204). A standby recomputes the engine updates of a TICK record, compares the digest and acknowledges it. -/
  | tick (t : Nat) (seq : Nat) (r : TickRec) (digest : Nat)
  /-- TASK (R398). A standby stores a TASK record, compares it with its own recomputation and acknowledges it. -/
  | task (t : Nat) (seq : Nat) (r : TaskRec)
  /-- ACK (R395). An ACK received by the active unit commits the record and releases its outputs, resends remote values or handles divergence. -/
  | ack (t : Nat) (seq result : Nat)
  /-- ACK_TIMEOUT (R397). An active unit with no ACK within 1.0 ms holds its releases and continues alone or yields as R397 gives. -/
  | ackTimeout (t : Nat) (seq : Nat)
  /-- REMOTE_SET_MISSING (R396). A standby that has not received a remote set within 2 ms reports it with RESULT 0x02. -/
  | remoteSetMissing (t : Nat) (seq : Nat)
  /-- COPY (R399). A standby in SYNCING applies a received COPY piece and, after the last piece, enters TRACKING. -/
  | copy (t : Nat) (seq : Nat) (piece : Piece) (last : Bool)
  /-- COPY_TIMEOUT (R399). A state copy not complete within 3.0 s is abandoned and the standby enters UNSYNCED. -/
  | copyTimeout (t : Nat)
  /-- COPY_RETRY (R399). 10 s after an abandoned copy the standby requests a state copy again. -/
  | copyRetry (t : Nat)
  /-- HANDOVER (R402). A standby that receives HANDOVER acknowledges it and becomes the active unit. -/
  | handover (t : Nat) (seq lastSeq trigger : Nat)
  /-- CHANGE (R91). A standby receives an applied configuration, a prepared forme or a safety configuration and applies or verifies it. -/
  | change (t : Nat) (seq : Nat) (c : Change)
  /-- AUTO_SWITCHOVER (R400). An active grade below 8, or GRADE_MARGIN below the standby's for 1 s with AUTO_SWITCHOVER set, starts an orderly switchover. -/
  | autoSwitchover (t : Nat)
  /-- FCL_FRAME_SEND (R403). Every 62.5 µs an active unit sends its claim on the field claim line. -/
  | fclFrameSend (t : Nat)
  /-- FCL_FRAME (R404). A chip that hears a claim on the FCL gains or loses the field claim as R404 and R405 give. -/
  | fclFrame (t : Nat) (chip : Nat) (claim : Nat)
  /-- PRES_CHANGED (R384). A change of PRES after reset is recorded and treated as the loss of the sync link, heartbeat and precedence line. -/
  | presChanged (t : Nat) (low : Bool)
  /-- SRAM_CORRECTED_ERROR (R19). A corrected single-bit error is counted, and a second in one word within 24 h remaps its page to a spare. -/
  | sramCorrectedError (t : Nat) (addr : Nat)
  /-- SRAM_UNCORRECTABLE_ERROR (R19). An uncorrectable SRAM error retires its page and leads to switchover or restart with reset cause 0x06. -/
  | sramUncorrectableError (t : Nat) (addr : Nat) (safetyArea : Bool)
  /-- SRAM_SCRUB (R407). Every 60 s a tracking standby scrubs all SRAM. -/
  | sramScrub (t : Nat)
  /-- RECORD_WRITE (R414). A queued record is written to bank 0 and then bank 1 and read back, a second failure taking the bank out of use. -/
  | recordWrite (t : Nat) (ok0 ok1 : Bool)
  /-- BANK_RESYNC_COMPLETE (R420). When a recovered bank has been copied, its sticky bit clears, a class 0xA0 record is written and the grade cap lifts. -/
  | bankResyncComplete (t : Nat)
  /-- BUS_INTEGRATED (R364). A CAN port that has waited for 11 recessive bits, after a change of mode or a protocol exception, integrates to the bus and sets SYNCHRONISED. -/
  | busIntegrated (t : Nat) (port : Fin 8)
  /-- CHANNEL_CHIP_REINITIALISED (R321). An AIO channel chip finishes its reinitialisation within 10 ms, leaves MIN and resumes its current command. -/
  | channelChipReinitialised (t : Nat) (ch : Fin 32)
  /-- MASTER_SLEW_END (R138). A master that stepped whole seconds under TIME_RESTEP mode 0x02 closes the slewed remainder, and its stamps stop being marked UNCERTAIN_SLEWING. -/
  | masterSlewEnd (t : Nat)
  /-- ARBITRATION_FCL_CHECK_END (R397). An active unit that won arbitration after heartbeat loss, and whose BICs have heard no higher FCL claim within 1.0 ms of winning, enters ACTIVE_ALONE and commits and releases its held records. -/
  | arbitrationFclCheckEnd (t : Nat)
  deriving DecidableEq, Repr

end Sys2Proof
end

