-- ==== Sys2Proof/Decode.lean ====
section
/-! DEFINITION. The command a word of the opcode table spells: no row of the table gives its command any bits, so no
word spells one. Beside it, the words of intermediate code (08 Table 8.3): the command each of them is in the context that
executes it, and the word of each such command. -/

namespace Sys2Proof

/-- No row has bits, so every word spells no command. -/
def decodeTableWord (_nbits _w : Nat) : Option Instr := none

/-! ### Words of intermediate code (08 R175, Table 8.3) -/

/-- A field of a word. -/
def wordField (w : BitVec 32) (hi lo : Nat) : Nat := w.toNat / 2 ^ lo % 2 ^ (hi - lo + 1)

/-- FMT. -/
def wordFmt (w : BitVec 32) : Nat := wordField w 31 28

/-- A FRAME word by its OP. -/
def frameCommand (t : Nat) (x : Ctx) (op w base off : Nat) : Option Instr :=
  match op with
  | 0 => some (.frameLoad t x w base off)
  | 1 => some (.frameStore t x w base off)
  | 2 => some (.frameLoadAddress t x w base off)
  | _ => none

/-- A POINT word by its OP. -/
def pointCommand (t : Nat) (x : Ctx) (op w point : Nat) : Option Instr :=
  match op with
  | 0 => some (.pointReadValue t x w point)
  | 1 => some (.pointReadQuality t x w point)
  | 2 => some (.pointReadTimestamp t x w point)
  | 3 => some (.pointWriteValue t x w point)
  | _ => none

/-- A CALL word by its KIND. -/
def callCommand (t : Nat) (x : Ctx) (kind desc : Nat) : Option Instr :=
  match kind with
  | 0 => some (.callUserBlock t x desc)
  | 1 => some (.callRomBlock t x desc)
  | 2 => some (.callFunction t x desc)
  | _ => none

/-- A SYS word by its SERVICE. -/
def sysCommand (t : Nat) (x : Ctx) (service arg : Nat) : Option Instr :=
  match service with
  | 1 => some (.sysReturn t x arg)
  | 2 => some (.sysEndOfCycle t x arg)
  | 3 => some (.sysTrap t x arg)
  | _ => none

/-- The command that a word is in a context; none where the word does not decode under Table 8.3. -/
def wordCommand (t : Nat) (x : Ctx) (w : BitVec 32) : Option Instr :=
  let f := wordField w
  match wordFmt w with
  | 1 => if 1 ≤ f 4 0 ∧ f 4 0 ≤ 13 then some (.reg t x (f 27 20) (f 19 15) (f 14 10) (f 9 5) (f 4 0)) else none
  | 2 => some (.imm t x (f 27 20) (f 19 15) (f 14 0))
  | 3 => frameCommand t x (f 27 24) (f 23 19) (f 18 17) (f 16 0)
  | 4 => if f 20 18 = 0 then pointCommand t x (f 27 26) (f 25 21) (f 17 0) else none
  | 5 => some (.branch t x (f 27 24) (f 23 19) (f 18 0))
  | 6 => callCommand t x (f 27 26) (f 25 0)
  | 7 => sysCommand t x (f 27 20) (f 19 0)
  | 15 => some (.ext t x (f 27 0))
  | _ => none

/-- The word of a REG command, and of each other format. -/
def regWord (op dst a b ty : Nat) : BitVec 32 :=
  BitVec.ofNat 32 (1 * 2 ^ 28 + op * 2 ^ 20 + dst * 2 ^ 15 + a * 2 ^ 10 + b * 2 ^ 5 + ty)
def immWord (op dst imm : Nat) : BitVec 32 := BitVec.ofNat 32 (2 * 2 ^ 28 + op * 2 ^ 20 + dst * 2 ^ 15 + imm)
def frameWord32 (op w base off : Nat) : BitVec 32 :=
  BitVec.ofNat 32 (3 * 2 ^ 28 + op * 2 ^ 24 + w * 2 ^ 19 + base * 2 ^ 17 + off)
def pointWord (op w point : Nat) : BitVec 32 := BitVec.ofNat 32 (4 * 2 ^ 28 + op * 2 ^ 26 + w * 2 ^ 21 + point)
def branchWord (cond w disp : Nat) : BitVec 32 := BitVec.ofNat 32 (5 * 2 ^ 28 + cond * 2 ^ 24 + w * 2 ^ 19 + disp)
def callWord (kind desc : Nat) : BitVec 32 := BitVec.ofNat 32 (6 * 2 ^ 28 + kind * 2 ^ 26 + desc)
def sysWord (service arg : Nat) : BitVec 32 := BitVec.ofNat 32 (7 * 2 ^ 28 + service * 2 ^ 20 + arg)
def extWord (bits : Nat) : BitVec 32 := BitVec.ofNat 32 (15 * 2 ^ 28 + bits)

end Sys2Proof
end

