-- ==== Sys2Proof/Machine/Bits.lean ====
section
/-! DEFINITION. Byte order, bit fields and the checks computed over bytes (00 R6; 10 R228, R240; 12 R284). -/

namespace Sys2Proof

/-- `n` bytes of a value, least significant byte first (R6). -/
def leBytes (n v : Nat) : List Byte := (List.range n).map (fun i => BitVec.ofNat 8 (v / 256 ^ i))

/-- The value of bytes taken least significant first (R6). -/
def leVal : List Byte → Nat
  | [] => 0
  | b :: r => b.toNat + 256 * leVal r

/-- `n` bytes of a value, most significant byte first (the Hornpipe header, R6). -/
def beBytes (n v : Nat) : List Byte := (leBytes n v).reverse

/-- A field of `n` bytes at offset `o` of a record, as a number. -/
def fieldAt (bs : List Byte) (o n : Nat) : Nat := leVal ((bs.drop o).take n)

/-- Two's complement reading of an `n`-byte field. -/
def signedAt (bs : List Byte) (o n : Nat) : Int :=
  let v := fieldAt bs o n
  if v ≥ 2 ^ (8 * n - 1) then (v : Int) - (2 ^ (8 * n) : Nat) else v

/-- Two's complement encoding in `n` bytes, wrapping. -/
def leInt (n : Nat) (v : Int) : List Byte := leBytes n (v % ((2 ^ (8 * n) : Nat) : Int)).toNat

/-- A value that stops at the largest of its width. -/
def sat (bits v : Nat) : Nat := min v (2 ^ bits - 1)

/-- A signed value that stops at the ends of its width. -/
def satInt (bits : Nat) (v : Int) : Int :=
  max (-(2 ^ (bits - 1) : Nat)) (min ((2 ^ (bits - 1) : Nat) - 1) v)

/-- Bit `i` of a number. -/
def bitOf (v i : Nat) : Bool := v.testBit i

/-- A number with bit `i` set when the flag holds. -/
def flagBit (i : Nat) (b : Bool) : Nat := if b then 2 ^ i else 0

/-- The sum of flags laid out by bit number. -/
def flagWord (fs : List (Nat × Bool)) : Nat := fs.foldl (fun a f => a + flagBit f.1 f.2) 0

/-- ASCII text as bytes, padded with NUL or cut to `n` (STRING(n), R8). -/
def strBytes (n : Nat) (cs : List Nat) : List Byte :=
  ((cs.map (BitVec.ofNat 8)) ++ List.replicate n 0).take n

/-- One step of a most-significant-bit-first CRC of width `w`. -/
def crcStep {w : Nat} (poly c : BitVec w) : BitVec w :=
  if c.msb then (c <<< 1) ^^^ poly else c <<< 1

/-- One byte entered into a most-significant-bit-first CRC of width `w` ≥ 8. -/
def crcByte {w : Nat} (poly c : BitVec w) (b : Byte) : BitVec w :=
  (List.range 8).foldl (fun c _ => crcStep poly c) (c ^^^ ((b.setWidth w) <<< (w - 8)))

/-- CRC-16, polynomial 0x1021, initial value 0xFFFF, not reflected, no final XOR (R284). -/
def crc16 (bs : List Byte) : BitVec 16 := bs.foldl (crcByte 0x1021) 0xFFFF

/-- One bit-reversed step of the IEEE 802.3 CRC-32. -/
def crc32Step (c : BitVec 32) : BitVec 32 :=
  if c.getLsbD 0 then (c >>> 1) ^^^ 0xEDB88320 else c >>> 1

/-- CRC-32 as in IEEE 802.3, polynomial 0x04C1_1DB7 (R228). -/
def crc32 (bs : List Byte) : BitVec 32 :=
  (bs.foldl (fun c b => (List.range 8).foldl (fun c _ => crc32Step c) (c ^^^ b.setWidth 32)) 0xFFFFFFFF)
    ^^^ 0xFFFFFFFF

/-- CRC-64 with the ECMA-182 polynomial, continued from `pw` (R240). -/
def crc64 (pw : BitVec 64) (bs : List Byte) : BitVec 64 := bs.foldl (crcByte 0x42F0E1EBA9EA3693) pw

end Sys2Proof
end

