-- ==== Sys2Proof/Machine/Crypto.lean ====
section
/-! DEFINITION. The security functions the text names: SHA-256 and HMAC-SHA-256 (04 R80; 17 R428), ECDSA P-256
verification (08 R171; 17 R425, R430). Their arithmetic is that of FIPS 180-4, RFC 2104 and FIPS 186-4, which the
text cites without restating (log entry 6). -/

namespace Sys2Proof

/-- The round constants of SHA-256. -/
def sha256K : List (BitVec 32) :=
  [0x428a2f98, 0x71374491, 0xb5c0fbcf, 0xe9b5dba5, 0x3956c25b, 0x59f111f1, 0x923f82a4, 0xab1c5ed5] ++
  [0xd807aa98, 0x12835b01, 0x243185be, 0x550c7dc3, 0x72be5d74, 0x80deb1fe, 0x9bdc06a7, 0xc19bf174] ++
  [0xe49b69c1, 0xefbe4786, 0x0fc19dc6, 0x240ca1cc, 0x2de92c6f, 0x4a7484aa, 0x5cb0a9dc, 0x76f988da] ++
  [0x983e5152, 0xa831c66d, 0xb00327c8, 0xbf597fc7, 0xc6e00bf3, 0xd5a79147, 0x06ca6351, 0x14292967] ++
  [0x27b70a85, 0x2e1b2138, 0x4d2c6dfc, 0x53380d13, 0x650a7354, 0x766a0abb, 0x81c2c92e, 0x92722c85] ++
  [0xa2bfe8a1, 0xa81a664b, 0xc24b8b70, 0xc76c51a3, 0xd192e819, 0xd6990624, 0xf40e3585, 0x106aa070] ++
  [0x19a4c116, 0x1e376c08, 0x2748774c, 0x34b0bcb5, 0x391c0cb3, 0x4ed8aa4a, 0x5b9cca4f, 0x682e6ff3] ++
  [0x748f82ee, 0x78a5636f, 0x84c87814, 0x8cc70208, 0x90befffa, 0xa4506ceb, 0xbef9a3f7, 0xc67178f2]

/-- The initial hash value of SHA-256. -/
def sha256H : List (BitVec 32) :=
  [0x6a09e667, 0xbb67ae85, 0x3c6ef372, 0xa54ff53a, 0x510e527f, 0x9b05688c, 0x1f83d9ab, 0x5be0cd19]

/-- The message padded to whole blocks of 64 bytes. -/
def shaPad (m : List Byte) : List Byte :=
  let z := (119 - m.length % 64) % 64
  m ++ [0x80] ++ List.replicate z 0 ++ beBytes 8 (8 * m.length)

/-- A big-endian 32-bit word of a block. -/
def shaWord (bs : List Byte) (i : Nat) : BitVec 32 := BitVec.ofNat 32 (leVal ((bs.drop (4 * i)).take 4).reverse)

/-- The message schedule, grown from its first 16 words. -/
def shaSchedule : Nat → List (BitVec 32) → List (BitVec 32)
  | 0, w => w
  | n + 1, w =>
    let i := w.length
    let a := w.getD (i - 15) 0
    let b := w.getD (i - 2) 0
    let s0 := a.rotateRight 7 ^^^ a.rotateRight 18 ^^^ (a >>> 3)
    let s1 := b.rotateRight 17 ^^^ b.rotateRight 19 ^^^ (b >>> 10)
    shaSchedule n (w ++ [w.getD (i - 16) 0 + s0 + w.getD (i - 7) 0 + s1])

/-- One round on the eight working variables. -/
def shaRound (v : List (BitVec 32)) (kw : BitVec 32) : List (BitVec 32) :=
  match v with
  | [a, b, c, d, e, f, g, h] =>
    let s1 := e.rotateRight 6 ^^^ e.rotateRight 11 ^^^ e.rotateRight 25
    let ch := (e &&& f) ^^^ (~~~e &&& g)
    let t1 := h + s1 + ch + kw
    let s0 := a.rotateRight 2 ^^^ a.rotateRight 13 ^^^ a.rotateRight 22
    let mj := (a &&& b) ^^^ (a &&& c) ^^^ (b &&& c)
    [t1 + s0 + mj, a, b, c, d + t1, e, f, g]
  | _ => v

/-- One block entered into the hash value. -/
def shaBlock (h : List (BitVec 32)) (blk : List Byte) : List (BitVec 32) :=
  let w := shaSchedule 48 ((List.range 16).map (shaWord blk))
  let v := (List.zipWith (fun k x => k + x) sha256K w).foldl shaRound h
  List.zipWith (fun a b => a + b) h v

/-- The blocks of a padded message, `n` of them. -/
def shaBlocks : Nat → List (BitVec 32) → List Byte → List (BitVec 32)
  | 0, h, _ => h
  | n + 1, h, m => shaBlocks n (shaBlock h (m.take 64)) (m.drop 64)

/-- SHA-256 of a byte string, 32 bytes. -/
def sha256 (m : List Byte) : List Byte :=
  let p := shaPad m
  (shaBlocks (p.length / 64) sha256H p).flatMap (fun w => beBytes 4 w.toNat)

/-- HMAC-SHA-256 (R80). -/
def hmacSha256 (key m : List Byte) : List Byte :=
  let k0 := if key.length > 64 then sha256 key else key
  let k := k0 ++ List.replicate (64 - k0.length) 0
  sha256 (k.map (· ^^^ 0x5c) ++ sha256 (k.map (· ^^^ 0x36) ++ m))

/-- The field prime of P-256. -/
def p256P : Nat := 2 ^ 256 - 2 ^ 224 + 2 ^ 192 + 2 ^ 96 - 1
/-- The order of P-256. -/
def p256N : Nat := 0xffffffff00000000ffffffffffffffffbce6faada7179e84f3b9cac2fc632551
/-- The base point's x. -/
def p256Gx : Nat := 0x6b17d1f2e12c4247f8bce6e563a440f277037d812deb33a0f4a13945d898c296
/-- The base point's y. -/
def p256Gy : Nat := 0x4fe342e2fe1a7f9b8ee7eb4a7c0f9e162bce33576b315ececbb6406837bf51f5
/-- The curve's constant b. -/
def p256B : Nat := 0x5ac635d8aa3a93e7b3ebbd55769886bc651d06b0cc53b0f63bce3c3e27d2604b

/-- Modular power by squaring, over the low `n` bits of the exponent from the top. -/
def powMod (m b e : Nat) : Nat → Nat
  | 0 => 1 % m
  | n + 1 =>
    let r := powMod m b (e / 2) n
    if e % 2 = 1 then r * r % m * b % m else r * r % m

/-- The inverse modulo a prime. -/
def invMod (m a : Nat) : Nat := powMod m (a % m) (m - 2) 256

/-- A point of the curve; `none` is the point at infinity. -/
abbrev P256Point := Option (Nat × Nat)

/-- Sum of two points. -/
def p256Add (a b : P256Point) : P256Point :=
  match a, b with
  | none, q => q
  | q, none => q
  | some (x, y), some (u, v) =>
    if x = u ∧ (y + v) % p256P = 0 then none
    else
      let l := if x = u then (3 * x * x + (p256P - 3)) * invMod p256P (2 * y) % p256P
        else (v + (p256P - y)) * invMod p256P (u + (p256P - x)) % p256P
      let z := (l * l + 2 * p256P - x - u) % p256P
      some (z, (l * (x + (p256P - z)) + (p256P - y)) % p256P)

/-- Multiple of a point, over the low `n` bits of the factor. -/
def p256Mul (q : P256Point) (k : Nat) : Nat → P256Point
  | 0 => none
  | n + 1 =>
    let r := p256Mul q (k / 2) n
    let d := p256Add r r
    if k % 2 = 1 then p256Add d q else d

/-- A big-endian number of bytes. -/
def beVal (bs : List Byte) : Nat := leVal bs.reverse

/-- ECDSA P-256 verification over SHA-256 of the message; the key is x and y, the signature r and s, 32 bytes each,
most significant byte first. -/
def ecdsaVerify (key msg sig : List Byte) : Bool :=
  let x := beVal (key.take 32)
  let y := beVal ((key.drop 32).take 32)
  let r := beVal (sig.take 32)
  let s := beVal ((sig.drop 32).take 32)
  let e := beVal (sha256 msg)
  let onCurve := decide ((y * y) % p256P = (x * x * x + (p256P - 3) * x + p256B) % p256P)
  if key.length = 64 ∧ sig.length = 64 ∧ onCurve ∧ x < p256P ∧ y < p256P ∧ 0 < r ∧ r < p256N ∧ 0 < s ∧ s < p256N then
    let w := invMod p256N s
    match p256Add (p256Mul (some (p256Gx, p256Gy)) (e * w % p256N) 256) (p256Mul (some (x, y)) (r * w % p256N) 256) with
    | none => false
    | some (u, _) => decide (u % p256N = r)
  else false

end Sys2Proof
end

