-- ==== Sys2Proof/Config.lean ====
section
/-! DEFINITION. What one module is made with, and the values the manual leaves open. None has a body, so nothing can
be proved of the value (log entries 3 and 7). -/

namespace Sys2Proof.Config

/-- A fresh free value for each draw: nonces and the like (log entry 7). -/
opaque free : Nat → Nat

/-- Source of `SERIAL_NUMBER` (00 Table 0.1, factory). -/
opaque serialRaw : Nat

/-- Source of `HW_ISSUE` (00 Table 0.1, factory). -/
opaque hwIssueRaw : Nat

/-- `DEVICE_PUBLIC_KEY` (17 Table 17.10, factory), as a number. -/
opaque devicePublicKey : Nat

/-- The Ibeno patch key fused into SEC (17 R425), as a number. -/
opaque patchKey : Nat

/-- `FACTORY_AIO` of a channel, `FACTORY_MAINS` of an input and `FACTORY_SENSORS` (01 R22), as numbers. -/
opaque factoryAio : Nat → Nat
opaque factoryMains : Nat → Nat
opaque factorySensors : Nat

/-- A management sensor's reading corrected by its factory record, by point (17 R424). -/
opaque sensorCorrect : Nat → Int → Int

/-- Nominal voltage of each monitored rail, mV (17 Table 17.7). -/
opaque railNominal : Nat → Nat

/-- The routine numbers ROM issue B has (17 Table 17.9). -/
opaque romRoutine : Nat → Bool

/-- The bytes of the retain store, whose layout the manual does not give (03 R60, R64). -/
opaque retainLayout : List Nat → List Byte

/-- The network buffers, bytes, that a node table needs: node, classes and point counts of each record (01 R25). -/
opaque networkBuffers : List (Nat × Nat × List Nat) → Nat

/-- The fields of a forme's HEADER behind its magic, whose places the manual does not give (08 Table 8.1). -/
opaque formeHeader : List Byte → FormeHead

/-- The fields of a CALLS entry, and those of a TYPES, an INSTANCES and a VARIABLES entry behind its identity, whose places
the manual does not give: kind, target, instance; size, block; type, parent, retained flag, offset; type, size, writer,
retained flag, offset. -/
opaque callEntry : List Byte → Nat × Nat × Nat
opaque typeEntry : List Byte → Nat × Nat
opaque instEntry : List Byte → Nat × Nat × Bool × Nat
opaque varEntry : List Byte → Nat × Nat × Nat × Bool × Nat

/-- The initial value that CONST holds for an instance, or for a variable, by its index. -/
opaque instInit : List Byte → Nat → List Byte
opaque varInit : List Byte → Nat → List Byte

/-- For each task the points read and written, from the values of POINTS; and the charts, from CHARTS. -/
opaque pointLists : List Nat → List (List Nat × List Nat)
opaque chartTable : List Byte → List ChartRec

/-- A REG word's operation with its type on two registers: its result, and whether it raises ARITH (08 R175, R186). -/
opaque regOp : Nat → Nat → Word64 → Word64 → Word64
opaque regArith : Nat → Nat → Word64 → Word64 → Bool

/-- The OP codes of REG and of IMM that divide (08 R186). -/
opaque regDivides : Nat → Bool
opaque immDivides : Nat → Bool

/-- A REG word's operation finds an array index outside its bounds (08 R186). -/
opaque regBounds : Nat → Nat → Word64 → Word64 → Bool

/-- An IMM word's operation on the register and the immediate: its result, and whether it raises ARITH. -/
opaque immOp : Nat → Word64 → Int → Word64
opaque immArith : Nat → Word64 → Int → Bool

/-- A 4-byte word of a native block's instance by block number and word: 08 Table 8.6 fixes the sizes of the layouts, not
the places of their fields (log entry 41). -/
opaque blockWord : Nat → Nat → BlockInst → BitVec 32

/-- Whether a BRANCH of this condition is taken on the register tested (08 R175). -/
opaque branchTaken : Nat → Word64 → Bool

/-- The register bits a load leaves open above the width it reads (08 R175). -/
opaque loadUpper : Nat → Nat

/-- The partner's node address, which no message of the pair carries (05 R117). -/
opaque partnerAddress : Nat

/-- What a `PATH_DELAY` object shows for a delay below zero (06 R134). -/
opaque negativeDelay : Int → Nat

/-- The setpoint of a phase, mA, at a microstep code, a microstep of the four full steps of a turn of the field and an rms
current; of phase B where the last argument holds (14 R354). -/
opaque phaseSetpoint : Nat → Nat → Nat → Bool → Int

/-- BRP, by place among those that give the rate, and SJW an autobaud port uses for a rate of its list (15 R367). -/
opaque canBrp : Nat → Nat
opaque canSjw : Nat → Nat

end Sys2Proof.Config
end

