-- ==== Sys2Proof/Machine/Real.lean ====
section
/-! DEFINITION. REAL32 and REAL64 arithmetic (00 R8; 09 R206): IEEE 754 operations computed exactly and rounded
to nearest, ties to even. The payload of a NaN result is the quiet NaN with no payload (log entry 5). -/

namespace Sys2Proof

/-- A binary interchange format: exponent bits and fraction bits. -/
structure FpFmt where
  eb : Nat
  fb : Nat
  deriving DecidableEq, Repr

/-- binary32. -/
def fmt32 : FpFmt := ⟨8, 23⟩

/-- binary64. -/
def fmt64 : FpFmt := ⟨11, 52⟩

/-- A decoded value: the finite ones are ±mant × 2^exp. -/
inductive Fp where
  | nan
  | inf (neg : Bool)
  | fin (neg : Bool) (mant : Nat) (exp : Int)
  deriving DecidableEq, Repr

/-- The lowest exponent of a unit in the last place. -/
def FpFmt.ulpMin (f : FpFmt) : Int := 2 - (2 ^ (f.eb - 1) : Nat) - f.fb

/-- Decode of the bits of a format. -/
def fpDecode (f : FpFmt) (w : Nat) : Fp :=
  let frac := w % 2 ^ f.fb
  let e := w / 2 ^ f.fb % 2 ^ f.eb
  let neg := w / 2 ^ (f.fb + f.eb) % 2 == 1
  if e = 2 ^ f.eb - 1 then (if frac = 0 then .inf neg else .nan)
  else if e = 0 then .fin neg frac f.ulpMin
  else .fin neg (frac + 2 ^ f.fb) (f.ulpMin + (e : Int) - 1)

/-- The sign bit of a format. -/
def FpFmt.signBit (f : FpFmt) (neg : Bool) : Nat := if neg then 2 ^ (f.eb + f.fb) else 0

/-- The infinity of a format, without its sign. -/
def FpFmt.infBits (f : FpFmt) : Nat := (2 ^ f.eb - 1) * 2 ^ f.fb

/-- The quiet NaN of a format (log entry 5). -/
def FpFmt.nanBits (f : FpFmt) : Nat := f.infBits + 2 ^ (f.fb - 1)

/-- ±num/den rounded to nearest, ties to even. -/
def fpRound (f : FpFmt) (neg : Bool) (num den : Nat) : Nat :=
  if num = 0 ∨ den = 0 then f.signBit neg
  else
    let e0 : Int := (num.log2 : Int) - den.log2
    let below : Bool := if e0 ≥ 0 then num < den * 2 ^ e0.toNat else num * 2 ^ (-e0).toNat < den
    let e := if below then e0 - 1 else e0
    let u := max (e - f.fb) f.ulpMin
    let n' := if u ≥ 0 then num else num * 2 ^ (-u).toNat
    let d' := if u ≥ 0 then den * 2 ^ u.toNat else den
    let q := n' / d'
    let r := n' % d'
    let q' := if 2 * r > d' ∨ (2 * r = d' ∧ q % 2 = 1) then q + 1 else q
    let code := (u - f.ulpMin).toNat * 2 ^ f.fb + q'
    f.signBit neg + min code f.infBits

/-- A signed rational rounded into a format. -/
def fpOfRat (f : FpFmt) (num : Int) (den : Nat) : Nat := fpRound f (decide (num < 0)) num.natAbs den

/-- ±mant × 2^exp rounded into a format. -/
def fpEncode (f : FpFmt) (neg : Bool) (mant : Nat) (exp : Int) : Nat :=
  if exp ≥ 0 then fpRound f neg (mant * 2 ^ exp.toNat) 1 else fpRound f neg mant (2 ^ (-exp).toNat)

/-- The signed mantissa of a finite value at the exponent `e` ≤ its own. -/
def fpAlign (neg : Bool) (mant : Nat) (exp e : Int) : Int :=
  let m : Int := mant * 2 ^ (exp - e).toNat
  if neg then -m else m

/-- Sum. -/
def fpAdd (f : FpFmt) (a b : Nat) : Nat :=
  match fpDecode f a, fpDecode f b with
  | .nan, _ => f.nanBits
  | _, .nan => f.nanBits
  | .inf n, .inf m => if n = m then f.signBit n + f.infBits else f.nanBits
  | .inf n, _ => f.signBit n + f.infBits
  | _, .inf m => f.signBit m + f.infBits
  | .fin n x ex, .fin m y ey =>
    let e := min ex ey
    let z := fpAlign n x ex e + fpAlign m y ey e
    if z = 0 then f.signBit (n && m) else fpEncode f (decide (z < 0)) z.natAbs e

/-- Change of sign. -/
def fpNeg (f : FpFmt) (a : Nat) : Nat :=
  let s := 2 ^ (f.eb + f.fb)
  if a / s % 2 = 1 then a % s else a % s + s

/-- Difference. -/
def fpSub (f : FpFmt) (a b : Nat) : Nat := fpAdd f a (fpNeg f b)

/-- Product. -/
def fpMul (f : FpFmt) (a b : Nat) : Nat :=
  match fpDecode f a, fpDecode f b with
  | .nan, _ => f.nanBits
  | _, .nan => f.nanBits
  | .inf n, .inf m => f.signBit (n != m) + f.infBits
  | .inf n, .fin m y _ => if y = 0 then f.nanBits else f.signBit (n != m) + f.infBits
  | .fin n x _, .inf m => if x = 0 then f.nanBits else f.signBit (n != m) + f.infBits
  | .fin n x ex, .fin m y ey => fpEncode f (n != m) (x * y) (ex + ey)

/-- Quotient (a REAL division follows IEEE 754, R186). -/
def fpDiv (f : FpFmt) (a b : Nat) : Nat :=
  match fpDecode f a, fpDecode f b with
  | .nan, _ => f.nanBits
  | _, .nan => f.nanBits
  | .inf _, .inf _ => f.nanBits
  | .inf n, .fin m _ _ => f.signBit (n != m) + f.infBits
  | .fin n _ _, .inf m => f.signBit (n != m)
  | .fin n x ex, .fin m y ey =>
    if y = 0 then (if x = 0 then f.nanBits else f.signBit (n != m) + f.infBits)
    else
      let e := ex - ey
      if e ≥ 0 then fpRound f (n != m) (x * 2 ^ e.toNat) y else fpRound f (n != m) x (y * 2 ^ (-e).toNat)

/-- Integer square root, bit by bit from bit `n` down. -/
def natSqrtFrom (x : Nat) : Nat → Nat → Nat
  | 0, r => if (r + 1) * (r + 1) ≤ x then r + 1 else r
  | n + 1, r =>
    let c := r + 2 ^ (n + 1)
    natSqrtFrom x n (if c * c ≤ x then c else r)

/-- Integer square root, rounded down. -/
def natSqrt (x : Nat) : Nat := natSqrtFrom x (x.log2 / 2 + 1) 0

/-- Square root. -/
def fpSqrt (f : FpFmt) (a : Nat) : Nat :=
  match fpDecode f a with
  | .nan => f.nanBits
  | .inf n => if n then f.nanBits else f.infBits
  | .fin n x ex =>
    if x = 0 then f.signBit n
    else if n then f.nanBits
    else
      let odd := ex % 2 = 1
      let x' := (if odd then 2 * x else x) * 2 ^ 120
      let e' := ((if odd then ex - 1 else ex) - 120) / 2
      let r := natSqrt x'
      fpEncode f false (2 * r + (if r * r = x' then 0 else 1)) (e' - 1)

/-- Strict order; false where either is a NaN. -/
def fpLt (f : FpFmt) (a b : Nat) : Bool :=
  match fpDecode f a, fpDecode f b with
  | .nan, _ => false
  | _, .nan => false
  | .inf n, .inf m => n && !m
  | .inf n, _ => n
  | _, .inf m => !m
  | .fin n x ex, .fin m y ey =>
    let e := min ex ey
    decide (fpAlign n x ex e < fpAlign m y ey e)

/-- Numerical equality; false where either is a NaN. -/
def fpEq (f : FpFmt) (a b : Nat) : Bool :=
  match fpDecode f a, fpDecode f b with
  | .nan, _ => false
  | _, .nan => false
  | .inf n, .inf m => n == m
  | .inf _, _ => false
  | _, .inf _ => false
  | .fin n x ex, .fin m y ey =>
    let e := min ex ey
    decide (fpAlign n x ex e = fpAlign m y ey e)

/-- The exact value of a finite word as a ratio; `none` for an infinity or a NaN. -/
def fpRat (f : FpFmt) (a : Nat) : Option (Int × Nat) :=
  match fpDecode f a with
  | .fin n x ex =>
    let m : Int := if n then -(x : Int) else x
    if ex ≥ 0 then some (m * 2 ^ ex.toNat, 1) else some (m, 2 ^ (-ex).toNat)
  | _ => none

/-! REAL32 operations. -/

def f32Add (a b : Real32) : Real32 := BitVec.ofNat 32 (fpAdd fmt32 a.toNat b.toNat)
def f32Sub (a b : Real32) : Real32 := BitVec.ofNat 32 (fpSub fmt32 a.toNat b.toNat)
def f32Mul (a b : Real32) : Real32 := BitVec.ofNat 32 (fpMul fmt32 a.toNat b.toNat)
def f32Div (a b : Real32) : Real32 := BitVec.ofNat 32 (fpDiv fmt32 a.toNat b.toNat)
def f32Sqrt (a : Real32) : Real32 := BitVec.ofNat 32 (fpSqrt fmt32 a.toNat)
def f32Neg (a : Real32) : Real32 := a ^^^ 0x80000000
def f32Abs (a : Real32) : Real32 := a &&& 0x7FFFFFFF
def f32Lt (a b : Real32) : Bool := fpLt fmt32 a.toNat b.toNat
def f32Le (a b : Real32) : Bool := fpLt fmt32 a.toNat b.toNat || fpEq fmt32 a.toNat b.toNat
def f32Eq (a b : Real32) : Bool := fpEq fmt32 a.toNat b.toNat
def f32OfRat (num : Int) (den : Nat) : Real32 := BitVec.ofNat 32 (fpOfRat fmt32 num den)
def f32OfInt (n : Int) : Real32 := f32OfRat n 1

/-- The exact ratio a finite REAL32 stands for. -/
def f32Rat (a : Real32) : Option (Int × Nat) := fpRat fmt32 a.toNat

/-- Not an infinity and not a NaN (R207). -/
def f32Finite (a : Real32) : Bool := (f32Rat a).isSome

/-- a limited to lo..hi. -/
def f32Clamp (a lo hi : Real32) : Real32 := if f32Lt a lo then lo else if f32Lt hi a then hi else a

/-- Rounding half away from zero to an integer; 0 for what is not finite. -/
def f32ToInt (a : Real32) : Int :=
  match f32Rat a with
  | none => 0
  | some (n, d) =>
    let m := (2 * n.natAbs + d) / (2 * d)
    if n < 0 then -(m : Int) else m

/-- Rounding down of value × k to a natural number; 0 for what is negative or not finite. -/
def f32ScaleNat (a : Real32) (k : Nat) : Nat :=
  match f32Rat a with
  | none => 0
  | some (n, d) => if n < 0 then 0 else n.natAbs * k / d

/-- Rounding toward minus infinity of value × k. -/
def f32ScaleInt (a : Real32) (k : Nat) : Int :=
  match f32Rat a with
  | none => 0
  | some (n, d) => n * k / d

/-! Transcendental functions, in fixed point of 2^-64, rounded at the end (log entry 5). -/

/-- One of the fixed-point format. -/
def fxOne : Nat := 2 ^ 64

/-- Σ (-x)^k / k! for k from `n` on, x in fixed point ≤ one; `term` is the k-th term's size. -/
def fxExpNegAux (x : Nat) : Nat → Nat → Nat → Int
  | 0, _, _ => 0
  | fuel + 1, k, term =>
    let t : Int := if k % 2 = 0 then (term : Int) else -(term : Int)
    t + fxExpNegAux x fuel (k + 1) (term * x / fxOne / (k + 1))

/-- exp(-x) for 0 ≤ x ≤ 1, in fixed point. -/
def fxExpNeg (x : Nat) : Int := fxExpNegAux x 24 0 fxOne

/-- 1 − exp(−1 ms / τ) with τ in ms, as a REAL32 (13 R311). -/
def filterGain (tauMs : Nat) : Real32 :=
  f32OfRat ((fxOne : Int) - fxExpNeg (fxOne / tauMs)) fxOne

/-- Σ (-1)^k z^(2k+1)/(2k+1), z in fixed point. -/
def fxAtanAux (z2 : Nat) : Nat → Nat → Nat → Int
  | 0, _, _ => 0
  | fuel + 1, k, p =>
    let t : Int := (p / (2 * k + 1) : Nat)
    (if k % 2 = 0 then t else -t) + fxAtanAux z2 fuel (k + 1) (p * z2 / fxOne)

/-- Half-angle reduction of a tangent: z / (1 + √(1 + z²)). -/
def fxHalfTan (z : Nat) : Nat := z * fxOne / (fxOne + natSqrt (fxOne * fxOne + z * z))

/-- The arc tangent of 0 ≤ z ≤ 1, in fixed point. -/
def fxAtan (z : Nat) : Int :=
  let w := fxHalfTan (fxHalfTan (fxHalfTan z))
  8 * fxAtanAux (w * w / fxOne) 14 0 w

/-- π in fixed point, from four times the arc tangent of 1. -/
def fxPi : Int := 4 * fxAtan fxOne

/-- atan2 of two ratios over one denominator, as a fraction of a cycle in units of 2^-32 (ANGLE32). -/
def angleOf (y x : Int) : BitVec 32 :=
  if y = 0 ∧ x = 0 then 0
  else
    let ay := y.natAbs
    let ax := x.natAbs
    let first : Int := if ay ≤ ax then fxAtan (ay * fxOne / ax) else fxPi / 2 - fxAtan (ax * fxOne / ay)
    let half : Int := if x < 0 then fxPi - first else first
    let full : Int := if y < 0 then -half else half
    BitVec.ofInt 32 (full * (2 ^ 32 : Nat) / (2 * fxPi))

end Sys2Proof
end

