-- ==== Sys2Proof/Machine/Tbl.lean ====
section
/-! DEFINITION. Sparse tables in one canonical form: reading, writing, and the form itself. -/

namespace Sys2Proof

/-- The value listed for `k`, if any. -/
def Tbl.find {α : Type} (m : Tbl α) (k : Nat) : Option α :=
  match m with
  | [] => none
  | (j, v) :: r => if j = k then some v else Tbl.find r k

/-- Read of `k`; what is not listed reads `d`. -/
def Tbl.get {α : Type} (m : Tbl α) (d : α) (k : Nat) : α := (Tbl.find m k).getD d

/-- List `v` for `k`, in rising order of keys. -/
def Tbl.insert {α : Type} (m : Tbl α) (k : Nat) (v : α) : Tbl α :=
  match m with
  | [] => [(k, v)]
  | (j, w) :: r =>
    if k < j then (k, v) :: (j, w) :: r
    else if k = j then (k, v) :: r
    else (j, w) :: Tbl.insert r k v

/-- Unlist `k`. -/
def Tbl.erase {α : Type} (m : Tbl α) (k : Nat) : Tbl α := m.filter (fun e => e.1 != k)

/-- Write of `k`: a write of the default unlists the key, so equal tables are equal data. -/
def Tbl.put {α : Type} [DecidableEq α] (m : Tbl α) (d : α) (k : Nat) (v : α) : Tbl α :=
  if v = d then Tbl.erase m k else Tbl.insert m k v

/-- Keys strictly rising. -/
def Tbl.rising {α : Type} : Tbl α → Bool
  | [] => true
  | [_] => true
  | (j, _) :: (k, w) :: r => decide (j < k) && Tbl.rising ((k, w) :: r)

/-- The canonical form: keys strictly rising and no listed default. -/
def Tbl.wf {α : Type} [DecidableEq α] (d : α) (m : Tbl α) : Bool :=
  Tbl.rising m && m.all (fun e => decide (e.2 ≠ d))

/-- The keys listed. -/
def Tbl.keys {α : Type} (m : Tbl α) : List Nat := m.map Prod.fst

/-- Change of the entry at `k`. -/
def Tbl.modify {α : Type} [DecidableEq α] (m : Tbl α) (d : α) (k : Nat) (f : α → α) : Tbl α :=
  Tbl.put m d k (f (Tbl.get m d k))

/-- Byte stores: read of one byte. -/
def Memory.read (m : Memory) (a : Nat) : Byte := Tbl.get m 0 a

/-- Byte stores: write of one byte. -/
def Memory.write (m : Memory) (a : Nat) (b : Byte) : Memory := Tbl.put m 0 a b

/-- `n` bytes from address `a` upward. -/
def Memory.readN (m : Memory) (a n : Nat) : List Byte := (List.range n).map (fun i => Memory.read m (a + i))

/-- Bytes written from address `a` upward. -/
def Memory.writeN (m : Memory) (a : Nat) : List Byte → Memory
  | [] => m
  | b :: r => Memory.writeN (Memory.write m a b) (a + 1) r

/-- A byte store in its canonical form: its entries written one after another. -/
def Memory.norm (m : Memory) : Memory := m.foldl (fun a e => Memory.write a e.1 e.2) []

/-- The canonical form of a byte store. -/
def Memory.wf (m : Memory) : Bool := Tbl.wf (0 : Byte) m

end Sys2Proof
end

