-- ==== Sys2Proof/Machine/Objects.lean ====
section
/-! DEFINITION. The object dictionary's fixed attributes (04 R70 to R75): every family of indices with the rows of its
chapter's table, the area map, and the abort codes (04 R96). -/

namespace Sys2Proof

/-- Access classes (Table 4.2). -/
inductive Acc where
  | const | ro | rw | wo | rws
  deriving DecidableEq, Repr

/-- The range of a row, as far as one write alone can break it. -/
inductive Rng where
  | any
  | nat (lo hi : Nat)
  | natOr (lo hi other : Nat)
  | oneOf (vs : List Nat)
  | real (lo hi : Real32)
  | realGe0
  | realGt0
  | realZeroOr (lo hi : Real32)
  /-- `TASK_EDGE_SOURCE` (08 R198). -/
  | edge
  deriving DecidableEq, Repr

/-- A row of a dictionary table: first sub-index, how many follow each other, type code, length, access, direct,
default and reserved bits as little-endian numbers, range. -/
structure ObjRow where
  sub : Nat
  count : Nat
  ty : Nat
  len : Nat
  acc : Acc
  direct : Bool
  dflt : Nat
  rng : Rng
  rsv : Nat
  deriving DecidableEq, Repr

/-- A family of indices sharing one layout: first index, members, spacing, rows. -/
structure ObjFamily where
  lo : Nat
  count : Nat
  stride : Nat
  rows : List ObjRow
  deriving DecidableEq, Repr

/-- Rows of 0x1000. -/
def identityRows : List ObjRow := [
  ⟨1, 1, 15, 16, .const, false, 0x4D2D3036392D5850, .any, 0⟩,  -- ORDER_CODE
  ⟨2, 1, 8, 4, .const, false, 0, .any, 0⟩,  -- SERIAL_NUMBER
  ⟨3, 1, 7, 2, .const, false, 0, .any, 0⟩,  -- HW_ISSUE
  ⟨4, 1, 6, 1, .const, false, 66, .any, 0⟩,  -- ROM_ISSUE
  ⟨5, 1, 8, 4, .ro, false, 0, .any, 0⟩,  -- PATCH_SET_ID
  ⟨6, 1, 6, 1, .ro, false, 0, .any, 0⟩,  -- PATCH_COUNT
  ⟨7, 1, 6, 1, .ro, false, 0, .nat 65 66, 0⟩,  -- POSITION
  ⟨8, 1, 1, 1, .rw, false, 1, .nat 0 1, 0⟩]  -- OBSERVER_OPEN

/-- Rows of 0x2000. -/
def powerRows : List ObjRow := [
  ⟨1, 1, 6, 1, .ro, false, 0, .any, 0⟩,  -- LAST_RESET_CAUSE
  ⟨2, 1, 6, 1, .rw, false, 1, .nat 0 2, 0⟩,  -- START_MODE
  ⟨3, 1, 6, 1, .ro, false, 0, .any, 0⟩,  -- START_KIND
  ⟨4, 1, 7, 2, .ro, false, 0, .any, 0⟩,  -- SUPPLY_STATUS
  ⟨5, 1, 7, 2, .ro, false, 0, .any, 0⟩,  -- DOMAIN_STATE
  ⟨6, 1, 6, 1, .ro, false, 0, .nat 0 1, 0⟩,  -- BYPASS_STATE
  ⟨7, 1, 8, 4, .ro, false, 0, .any, 0⟩,  -- BYPASS_TRANSITIONS
  ⟨8, 1, 7, 2, .ro, false, 0, .any, 0⟩,  -- FUSE_TRIPS_T1
  ⟨9, 1, 7, 2, .ro, false, 0, .any, 0⟩,  -- FUSE_TRIPS_T2
  ⟨10, 1, 9, 8, .ro, false, 0, .any, 0⟩,  -- AON_TIME
  ⟨11, 1, 9, 8, .ro, false, 0, .any, 0⟩,  -- OPERATING_TIME
  ⟨12, 1, 8, 4, .ro, false, 0, .any, 0⟩,  -- POWER_CYCLES
  ⟨13, 1, 6, 1, .ro, false, 0, .nat 0 1, 0⟩,  -- SUPERCAP_STATE
  ⟨14, 1, 7, 2, .ro, false, 0, .any, 0⟩]  -- LAST_HOLDUP_MARGIN

/-- Rows of 0x1100 and 7 more of its family. -/
def sessionRows : List ObjRow := [
  ⟨1, 1, 6, 1, .ro, false, 0, .any, 0⟩,  -- SESSION_STATE
  ⟨2, 1, 6, 1, .ro, false, 0, .any, 0⟩,  -- SESSION_ROLE
  ⟨3, 1, 6, 1, .ro, false, 255, .natOr 0 15 255, 0⟩,  -- SESSION_SLOT
  ⟨4, 1, 6, 1, .ro, false, 0, .nat 1 2, 0⟩,  -- SESSION_PATH
  ⟨5, 1, 7, 2, .ro, false, 0, .any, 0⟩,  -- SESSION_PEER
  ⟨6, 1, 6, 1, .ro, false, 0, .any, 0⟩]  -- SESSION_CLOSE_CAUSE

/-- Rows of 0x1200 and 15 more of its family. -/
def slotRows : List ObjRow := [
  ⟨1, 1, 6, 1, .rw, false, 0, .nat 0 62, 1⟩,  -- SLOT_ROLES
  ⟨2, 1, 6, 1, .rw, false, 3, .nat 1 3, 0⟩,  -- SLOT_PATHS
  ⟨3, 1, 1, 1, .ro, false, 0, .nat 0 1, 0⟩,  -- SLOT_KEY_SET
  ⟨4, 1, 1, 1, .ro, false, 0, .nat 0 1, 0⟩,  -- SLOT_LOCKED
  ⟨5, 1, 16, 32, .wo, true, 0, .any, 0⟩]  -- SLOT_KEY

/-- Rows of 0xF000. -/
def bulkRows : List ObjRow := [
  ⟨1, 1, 16, 0, .wo, false, 0, .any, 0⟩,  -- BULK_DATA
  ⟨2, 1, 8, 4, .rw, true, 0, .nat 0 4194304, 0⟩,  -- BULK_LENGTH
  ⟨3, 1, 8, 4, .ro, false, 0, .any, 0⟩]  -- BULK_CRC

/-- Rows of 0x1800. -/
def ringRows : List ObjRow := [
  ⟨1, 1, 7, 2, .rw, false, 0, .nat 0 16383, 0⟩,  -- NODE_ADDRESS
  ⟨2, 1, 6, 1, .rw, false, 1, .nat 1 8, 0⟩,  -- NODE_LOST_COUNT
  ⟨3, 1, 6, 1, .ro, false, 0, .any, 0⟩,  -- RING_STATE
  ⟨4, 1, 6, 1, .ro, false, 0, .any, 0⟩,  -- PORT_STATE
  ⟨5, 1, 16, 16, .ro, false, 0, .any, 0⟩,  -- RING_LAST_BREAK
  ⟨6, 1, 8, 4, .ro, false, 0, .any, 0⟩,  -- PD_LOAD
  ⟨7, 1, 16, 12, .ro, false, 0, .any, 0⟩,  -- PD_POINTS
  ⟨8, 1, 8, 4, .ro, false, 0, .any, 0⟩,  -- FCS_ERRORS_T1
  ⟨9, 1, 8, 4, .ro, false, 0, .any, 0⟩,  -- FCS_ERRORS_T2
  ⟨10, 1, 8, 4, .ro, false, 0, .any, 0⟩,  -- RING_UNKNOWN_FRAMES
  ⟨11, 1, 9, 8, .ro, false, 0, .any, 0⟩]  -- DUPLICATES_DISCARDED

/-- Rows of 0x1900 and 15 more of its family. -/
def nodeRecordRows : List ObjRow := [
  ⟨1, 128, 16, 32, .rw, false, 0, .any, 0xFFFFFFFFFFFFFFFFFFFFFFFFFFFFFFFF000000000000000000000000FFF80000⟩]  -- NODE_RECORD

/-- Rows of 0x1A00 and 15 more of its family. -/
def nodeStatusRows : List ObjRow := [
  ⟨1, 128, 16, 16, .ro, false, 0, .any, 0⟩]  -- NODE_STATUS

/-- Rows of 0x2200. -/
def timeRows : List ObjRow := [
  ⟨1, 1, 6, 1, .rw, false, 255, .nat 0 255, 0⟩,  -- TIME_RANK
  ⟨2, 1, 6, 1, .ro, false, 0, .any, 0⟩,  -- DISCIPLINE_STATE
  ⟨3, 1, 12, 8, .ro, false, 0, .any, 0⟩,  -- NETWORK_TIME
  ⟨4, 1, 9, 8, .ro, false, 0, .any, 0⟩,  -- RAW_COUNT
  ⟨5, 1, 5, 8, .ro, false, 0, .any, 0⟩,  -- TIME_OFFSET
  ⟨6, 1, 4, 4, .ro, false, 0, .any, 0⟩,  -- TIME_RATE
  ⟨7, 1, 7, 2, .ro, false, 0, .any, 0⟩,  -- MASTER_NODE
  ⟨8, 1, 8, 4, .ro, false, 0, .any, 0⟩,  -- PATH_DELAY_T1
  ⟨9, 1, 8, 4, .ro, false, 0, .any, 0⟩,  -- PATH_DELAY_T2
  ⟨10, 1, 8, 4, .ro, false, 0, .any, 0⟩,  -- LOOP_DELAY
  ⟨11, 1, 8, 4, .ro, false, 0, .any, 0⟩,  -- LINK_DELAY_T1
  ⟨12, 1, 8, 4, .ro, false, 0, .any, 0⟩,  -- LINK_DELAY_T2
  ⟨13, 1, 8, 4, .ro, false, 0, .any, 0⟩]  -- TIME_STEPS

/-- Rows of 0x3800 and 7 more of its family. -/
def trackerRows : List ObjRow := [
  ⟨1, 1, 6, 1, .rw, false, 0, .nat 0 4, 0⟩,  -- TRK_MODE
  ⟨2, 1, 6, 1, .rw, false, 0, .nat 0 3, 0⟩,  -- TRK_SOURCE
  ⟨3, 1, 8, 4, .rw, false, 0x4000, .nat 4 16777216, 0⟩,  -- TRK_QUANTA
  ⟨4, 1, 1, 1, .rw, false, 1, .nat 0 1, 0⟩,  -- TRK_Z_RESET
  ⟨5, 1, 13, 4, .rw, false, 0, .any, 0⟩,  -- TRK_ZERO
  ⟨6, 1, 14, 4, .rw, false, 0, .nat 0 262143, 0xFFFC0000⟩,  -- TRK_ANGLE_POINT
  ⟨7, 1, 14, 4, .rw, false, 0, .nat 0 262143, 0xFFFC0000⟩,  -- TRK_RATE_POINT
  ⟨8, 1, 7, 2, .rw, false, 20, .nat 0 2000, 0⟩,  -- TRK_COAST
  ⟨9, 1, 10, 4, .rw, false, 0x40800000, .real 0x40000000 0x42700000, 0⟩,  -- TRK_PERIOD_MIN
  ⟨10, 1, 10, 4, .rw, false, 0x41F00000, .real 0x40000000 0x42700000, 0⟩,  -- TRK_PERIOD_MAX
  ⟨11, 1, 10, 4, .rw, false, 0x3F000000, .real 0x3DCCCCCD 0x41200000, 0⟩,  -- TRK_AMPLITUDE_MIN
  ⟨12, 1, 6, 1, .ro, false, 0, .any, 0⟩,  -- TRK_STATE
  ⟨13, 1, 13, 4, .ro, false, 0, .any, 0⟩,  -- TRK_ANGLE
  ⟨14, 1, 10, 4, .ro, false, 0, .any, 0⟩,  -- TRK_SPEED
  ⟨15, 1, 6, 1, .ro, false, 0, .any, 0⟩,  -- TRK_FLAGS
  ⟨16, 1, 10, 4, .ro, false, 0, .any, 0⟩]  -- TRK_LEVEL

/-- Rows of 0x3880. -/
def schedulerRows : List ObjRow := [
  ⟨1, 128, 16, 32, .rw, false, 0, .any, 0xFFFF00000000000000000000FFF00000FFFF00000000000000000000FFF00000⟩,  -- SLOT_PAIR
  ⟨129, 64, 16, 16, .ro, false, 0, .any, 0⟩]  -- SLOT_STATUS

/-- Rows of 0x38C0 and 1 more of its family. -/
def synchroRows : List ObjRow := [
  ⟨1, 1, 6, 1, .rw, false, 0, .nat 0 7, 0⟩,  -- SC_BUS_TRACKER
  ⟨2, 1, 6, 1, .rw, false, 1, .nat 0 7, 0⟩,  -- SC_GEN_TRACKER
  ⟨3, 1, 6, 1, .rw, false, 255, .natOr 0 95 255, 0⟩,  -- SC_CLOSE_DO
  ⟨4, 1, 7, 2, .rw, false, 80, .nat 20 250, 0⟩,  -- SC_T_CLOSE
  ⟨5, 1, 10, 4, .rw, false, 0x41200000, .real 0x40000000 0x41A00000, 0⟩,  -- SC_WINDOW
  ⟨6, 1, 10, 4, .rw, false, 0x3DCCCCCD, .real 0x3CA3D70A 0x3E4CCCCD, 0⟩,  -- SC_DF_MAX
  ⟨7, 1, 10, 4, .rw, false, 0x40400000, .real 0x3F000000 0x40A00000, 0⟩,  -- SC_DU_MAX
  ⟨8, 1, 6, 1, .rw, false, 1, .nat 0 1, 0⟩,  -- SC_SLIP_SIGN
  ⟨9, 1, 7, 2, .rw, false, 200, .nat 100 1000, 0⟩,  -- SC_PULSE
  ⟨10, 1, 7, 2, .rw, false, 60, .nat 1 600, 0⟩,  -- SC_ARM_TIMEOUT
  ⟨11, 1, 1, 1, .rw, true, 0, .nat 0 1, 0⟩,  -- SC_ARM
  ⟨12, 1, 6, 1, .ro, false, 0, .any, 0⟩,  -- SC_STATE
  ⟨13, 1, 16, 16, .ro, false, 0, .any, 0⟩]  -- SC_RESULT

/-- Rows of 0x2800. -/
def imageRows : List ObjRow := [
  ⟨1, 1, 16, 4194304, .ro, false, 0, .any, 0⟩,  -- IMAGE
  ⟨2, 1, 8, 4, .ro, false, 0, .any, 0⟩,  -- MAPPED_POINTS
  ⟨3, 1, 7, 2, .ro, false, 0, .any, 0⟩,  -- FORCE_COUNT
  ⟨4, 1, 16, 1024, .ro, false, 0, .any, 0⟩]  -- FORCE_LIST

/-- Rows of 0x2900 and 31 more of its family. -/
def mapRecordRows : List ObjRow := [
  ⟨1, 128, 16, 16, .rw, false, 0, .any, 0xFFFC0000FFFC0000⟩]  -- MAP_RECORD

/-- Rows of 0x2A00 and 3 more of its family. -/
def bindingRecordRows : List ObjRow := [
  ⟨1, 128, 16, 8, .rw, false, 0, .any, 0xFFFF00000000FF00⟩]  -- BINDING_RECORD

/-- Rows of 0x2400. -/
def programRows : List ObjRow := [
  ⟨1, 1, 6, 1, .ro, false, 0, .any, 0⟩,  -- MODE
  ⟨2, 1, 8, 4, .ro, false, 0, .any, 0⟩,  -- HOLD_REMAINING
  ⟨3, 1, 6, 1, .ro, false, 0, .any, 0⟩,  -- LAST_STOP_CAUSE
  ⟨4, 1, 9, 8, .ro, false, 0, .any, 0⟩,  -- FORME_ID
  ⟨5, 1, 8, 4, .ro, false, 0, .any, 0⟩,  -- FORME_GENERATION
  ⟨6, 1, 5, 8, .ro, false, 0, .any, 0⟩,  -- PROGRAM_CLOCK
  ⟨7, 1, 6, 1, .ro, false, 4, .oneOf [4, 6], 0⟩,  -- CORE_COUNT
  ⟨8, 1, 8, 4, .ro, false, 0, .any, 0⟩,  -- INSTANCE_USED
  ⟨9, 1, 8, 4, .ro, false, 0, .any, 0⟩,  -- RETAIN_USED
  ⟨10, 1, 6, 1, .ro, false, 0, .any, 0⟩,  -- OC_STATE
  ⟨11, 1, 16, 65536, .ro, false, 0, .any, 0⟩]  -- OC_REPORT

/-- Rows of 0x2500 and 47 more of its family. -/
def taskRows : List ObjRow := [
  ⟨1, 1, 16, 16, .ro, false, 0, .any, 0⟩,  -- TASK_DEF
  ⟨2, 1, 6, 1, .rw, false, 0, .nat 0 1, 0⟩,  -- TASK_OVERRUN_POLICY
  ⟨3, 1, 7, 2, .rw, false, 0xFFFF, .edge, 0⟩,  -- TASK_EDGE_SOURCE
  ⟨4, 1, 7, 2, .rw, false, 0, .nat 0 65535, 0⟩,  -- TASK_MIN_INTERVAL
  ⟨5, 1, 16, 32, .ro, false, 0, .any, 0⟩]  -- TASK_STATUS

/-- Rows of 0x4000 and 1023 more of its family. -/
def loopRowsA : List ObjRow := [
  ⟨1, 1, 7, 2, .rw, false, 0, .nat 0 8000, 0⟩,  -- LOOP_PERIOD
  ⟨2, 1, 7, 2, .rw, false, 0, .any, 0⟩,  -- LOOP_PHASE
  ⟨3, 1, 6, 1, .rw, false, 0, .nat 0 1, 0⟩,  -- LOOP_TIMEBASE
  ⟨4, 1, 7, 2, .rw, false, 0, .any, 0xFFC0⟩,  -- LOOP_FLAGS
  ⟨5, 1, 14, 4, .rw, false, 0, .nat 0 262143, 0xFFFC0000⟩,  -- PV_POINT
  ⟨6, 1, 14, 4, .rw, false, 0, .nat 0 262143, 0xFFFC0000⟩,  -- SP_POINT
  ⟨7, 1, 14, 4, .rw, false, 0, .nat 0 262143, 0xFFFC0000⟩,  -- FF_POINT
  ⟨8, 1, 14, 4, .rw, false, 0, .nat 0 262143, 0xFFFC0000⟩,  -- TRACK_POINT
  ⟨9, 1, 14, 4, .rw, false, 0, .nat 0 262143, 0xFFFC0000⟩,  -- MAN_POINT
  ⟨10, 1, 10, 4, .rw, false, 0x3F800000, .real 0x00000000 0x49742400, 0⟩,  -- KP
  ⟨11, 1, 10, 4, .rw, false, 0, .realZeroOr 0x3A83126F 0x47C35000, 0⟩,  -- TI
  ⟨12, 1, 10, 4, .rw, false, 0, .real 0x00000000 0x461C4000, 0⟩,  -- TD
  ⟨13, 1, 10, 4, .rw, false, 0x41200000, .real 0x40000000 0x42C80000, 0⟩,  -- N_D
  ⟨14, 1, 10, 4, .rw, false, 0x3F800000, .real 0x00000000 0x3F800000, 0⟩,  -- B_WEIGHT
  ⟨15, 1, 10, 4, .rw, false, 0, .realZeroOr 0x3A83126F 0x47C35000, 0⟩,  -- TT
  ⟨16, 1, 10, 4, .rw, false, 0, .any, 0⟩,  -- OUT_MIN
  ⟨17, 1, 10, 4, .rw, false, 0x42C80000, .any, 0⟩,  -- OUT_MAX
  ⟨18, 1, 10, 4, .rw, false, 0, .realGe0, 0⟩,  -- OUT_RATE
  ⟨19, 1, 10, 4, .rw, false, 0, .any, 0⟩,  -- OUT_SAFE
  ⟨20, 1, 6, 1, .rw, false, 0, .nat 0 1, 0⟩,  -- PV_BAD_ACTION
  ⟨21, 1, 6, 1, .rw, false, 0, .nat 0 1, 0⟩,  -- STOP_ACTION
  ⟨22, 1, 10, 4, .rw, false, 0, .realGe0, 0⟩,  -- PROF_VMAX
  ⟨23, 1, 10, 4, .rw, false, 0, .realGe0, 0⟩,  -- PROF_AMAX
  ⟨24, 1, 10, 4, .rw, false, 0, .realGe0, 0⟩]  -- PROF_JMAX

/-- Rows of 0x4000 and 1023 more of its family. -/
def loopRowsB : List ObjRow := [
  ⟨25, 1, 7, 2, .rw, false, 100, .nat 1 10000, 0⟩,  -- CAD_TIMEOUT
  ⟨26, 1, 6, 1, .rw, true, 1, .nat 1 2, 0⟩,  -- LOOP_MODE
  ⟨27, 1, 10, 4, .rw, true, 0, .any, 0⟩,  -- SP_VALUE
  ⟨28, 1, 10, 4, .rw, true, 0, .any, 0⟩,  -- MAN_VALUE
  ⟨29, 1, 8, 4, .ro, false, 0, .any, 0⟩,  -- LOOP_STATUS
  ⟨30, 1, 10, 4, .ro, false, 0, .any, 0⟩,  -- LOOP_OUT
  ⟨31, 1, 10, 4, .ro, false, 0, .any, 0⟩,  -- LOOP_CANDIDATE
  ⟨32, 1, 10, 4, .ro, false, 0, .any, 0⟩,  -- WORKING_SP
  ⟨33, 1, 10, 4, .ro, false, 0, .any, 0⟩,  -- PROFILE_LAG
  ⟨34, 1, 10, 4, .ro, false, 0, .any, 0⟩,  -- LOOP_INTEGRAL
  ⟨35, 1, 8, 4, .ro, false, 0, .any, 0⟩,  -- LOOP_UPDATES
  ⟨36, 1, 6, 1, .ro, false, 255, .natOr 0 127 255, 0⟩]  -- LOOP_GROUP

/-- Rows of 0x4000. -/
def loopRows : List ObjRow := loopRowsA ++ loopRowsB

/-- Rows of 0x4400 and 127 more of its family. -/
def groupRows : List ObjRow := [
  ⟨1, 1, 16, 16, .rw, false, 0xFFFFFFFFFFFFFFFFFFFFFFFFFFFFFFFF, .any, 0⟩,  -- GROUP_MEMBERS
  ⟨2, 1, 10, 4, .ro, false, 0, .any, 0⟩,  -- GROUP_OUT
  ⟨3, 1, 7, 2, .ro, false, 0xFFFF, .any, 0⟩,  -- GROUP_WINNER
  ⟨4, 1, 8, 4, .ro, false, 0, .any, 0⟩]  -- GROUP_SWITCHES

/-- Rows of 0x6000. -/
def safetyRows : List ObjRow := [
  ⟨1, 1, 6, 1, .rw, false, 1, .nat 1 2, 0⟩,  -- BOOT_OPTION
  ⟨2, 1, 6, 1, .ro, false, 0, .nat 1 2, 0⟩,  -- BOOT_OPTION_LATCHED
  ⟨3, 1, 6, 1, .rws, false, 4, .oneOf [2, 4, 8], 0⟩,  -- T_SAFE
  ⟨4, 1, 6, 1, .ro, false, 0, .any, 0⟩,  -- SAFETY_STATE
  ⟨5, 1, 8, 4, .ro, false, 0, .any, 0⟩,  -- SAFETY_SEAL
  ⟨6, 1, 9, 8, .ro, false, 0, .any, 0⟩,  -- SAFETY_FORME_ID
  ⟨7, 1, 6, 1, .ro, false, 0, .any, 0⟩,  -- SAFETY_FAULT_CAUSE
  ⟨8, 1, 8, 4, .ro, false, 0, .any, 0⟩,  -- SAFETY_FAULT_COUNT
  ⟨9, 1, 9, 8, .ro, false, 0, .any, 0⟩,  -- SAFETY_CYCLES
  ⟨10, 1, 8, 4, .ro, false, 0, .any, 0⟩,  -- PASS_A_MAX_EXEC
  ⟨11, 1, 8, 4, .ro, false, 0, .any, 0⟩,  -- PASS_B_MAX_EXEC
  ⟨12, 1, 8, 4, .ro, false, 0, .any, 0⟩,  -- INJECTIONS
  ⟨13, 1, 8, 4, .ro, false, 0, .any, 0⟩,  -- TOKEN_MISSES
  ⟨14, 1, 7, 2, .ro, false, 0, .any, 0⟩,  -- SAFETY_INPUT_FAULTS
  ⟨15, 1, 6, 1, .ro, false, 0, .any, 0⟩,  -- SAFETY_FLAGS
  ⟨16, 1, 16, 262144, .rws, false, 0, .any, 0⟩,  -- SAFETY_FORME
  ⟨17, 1, 7, 2, .rws, false, 64, .nat 16 1000, 0⟩,  -- TP_PERIOD
  ⟨18, 1, 6, 1, .ro, false, 0, .any, 0⟩,  -- TP_STATUS
  ⟨32, 16, 16, 8, .rws, false, 0x6403FFFF00, .any, 0xFFFF000000000000⟩,  -- SI_CONFIG
  ⟨48, 8, 16, 8, .rws, false, 0x64FF00, .any, 0xFFFFFFFF00000000⟩,  -- SO_CONFIG
  ⟨64, 44, 16, 16, .rws, false, 0xFFFF, .any, 0xFFFFFFFFFFFFFFFF0000000000000000⟩,  -- SF_RECORD
  ⟨112, 44, 16, 4, .ro, false, 0, .any, 0⟩,  -- SF_STATUS
  ⟨160, 16, 7, 2, .ro, false, 0, .any, 0⟩,  -- SI_STATUS
  ⟨176, 8, 7, 2, .ro, false, 0, .any, 0⟩]  -- SO_STATUS

/-- Rows of 0x3000 and 95 more of its family. -/
def dioRows : List ObjRow := [
  ⟨1, 1, 6, 1, .rw, false, 0, .nat 0 3, 0⟩,  -- DIO_MODE
  ⟨2, 1, 7, 2, .rw, false, 0x3E8, .nat 100 20000, 0⟩,  -- DIO_FILTER
  ⟨3, 1, 6, 1, .rw, false, 0, .nat 0 2, 0⟩,  -- DIO_SAFE_STATE
  ⟨4, 1, 6, 1, .rw, false, 0, .any, 254⟩,  -- DIO_FLAGS
  ⟨5, 1, 7, 2, .ro, false, 0, .any, 0⟩,  -- DIO_STATUS
  ⟨6, 1, 6, 1, .ro, false, 0, .any, 0⟩,  -- DIO_OWNER
  ⟨7, 1, 6, 1, .ro, false, 0, .any, 0⟩,  -- DIO_FAULT_COUNT
  ⟨8, 1, 8, 4, .ro, false, 0, .any, 0⟩,  -- DIO_FAULTS
  ⟨9, 1, 7, 2, .ro, false, 0, .any, 0⟩,  -- DIO_CURRENT
  ⟨10, 1, 12, 8, .ro, false, 0, .any, 0⟩]  -- DIO_LAST_EDGE

/-- Rows of 0x3000 and 7 more of its family. -/
def bankRows : List ObjRow := [
  ⟨32, 1, 6, 1, .rw, false, 10, .nat 1 100, 0⟩,  -- BANK_WD_TIME
  ⟨33, 1, 6, 1, .ro, false, 0, .any, 0⟩,  -- BANK_STATE
  ⟨34, 1, 7, 2, .ro, false, 0, .any, 0⟩,  -- BANK_FLAGS
  ⟨35, 1, 7, 2, .ro, false, 0, .any, 0⟩,  -- BANK_CURRENT
  ⟨36, 1, 7, 2, .ro, false, 0, .any, 0⟩,  -- BANK_SUPPLY
  ⟨37, 1, 2, 1, .ro, false, 0, .any, 0⟩,  -- BANK_TEMP
  ⟨38, 1, 8, 4, .ro, false, 0, .any, 0⟩,  -- LINK_BAD_FRAMES
  ⟨39, 1, 8, 4, .ro, false, 0, .any, 0⟩]  -- LINK_FAULTS

/-- Rows of 0x3200 and 31 more of its family. -/
def aioRows : List ObjRow := [
  ⟨1, 1, 6, 1, .rw, false, 0, .nat 0 4, 0⟩,  -- AIO_MODE
  ⟨2, 1, 6, 1, .rw, false, 0, .nat 0 1, 0⟩,  -- AIO_RANGE
  ⟨3, 1, 7, 2, .rw, false, 0, .nat 0 10000, 0⟩,  -- AIO_FILTER
  ⟨4, 1, 6, 1, .rw, false, 0, .nat 0 2, 0⟩,  -- AO_SAFE_STATE
  ⟨5, 1, 10, 4, .rw, false, 0, .real 0x00000000 0x41C00000, 0⟩,  -- AO_SAFE_VALUE
  ⟨6, 1, 6, 1, .rw, false, 10, .nat 1 100, 0⟩,  -- AIO_WD_TIME
  ⟨7, 1, 7, 2, .ro, false, 0, .any, 0⟩,  -- AIO_STATUS
  ⟨8, 1, 6, 1, .ro, false, 0, .any, 0⟩,  -- AIO_OWNER
  ⟨9, 1, 10, 4, .ro, false, 0, .any, 0⟩,  -- AIO_CURRENT
  ⟨10, 1, 10, 4, .ro, false, 0, .real 0x00000000 0x41C00000, 0⟩,  -- AO_APPLIED
  ⟨11, 1, 10, 4, .ro, false, 0, .real 0xC2000000 0x42000000, 0⟩,  -- AIO_TERMINAL_V
  ⟨12, 1, 6, 1, .ro, false, 0, .any, 0⟩,  -- AIO_FAULT_COUNT
  ⟨13, 1, 8, 4, .ro, false, 0, .any, 0⟩,  -- AIO_FAULTS
  ⟨14, 1, 2, 1, .ro, false, 0, .any, 0⟩]  -- AIO_TEMP

/-- Rows of 0xC000. -/
def factoryRows : List ObjRow := [
  ⟨1, 32, 16, 32, .ro, false, 0, .any, 0⟩,  -- FACTORY_AIO
  ⟨33, 2, 16, 32, .ro, false, 0, .any, 0⟩,  -- FACTORY_MAINS
  ⟨35, 1, 16, 256, .ro, false, 0, .any, 0⟩]  -- FACTORY_SENSORS

/-- Rows of 0xC400. -/
def trimRows : List ObjRow := [
  ⟨1, 32, 16, 8, .rw, false, 0, .any, 0⟩]  -- TRIM_AIO

/-- Rows of 0x3400 and 23 more of its family. -/
def axisRowsA : List ObjRow := [
  ⟨1, 1, 6, 1, .rw, false, 0, .nat 0 1, 0⟩,  -- AX_MODE
  ⟨2, 1, 7, 2, .rw, false, 0, .any, 0xFFC0⟩,  -- AX_FLAGS
  ⟨3, 1, 14, 4, .rw, false, 0, .nat 0 262143, 0xFFFC0000⟩,  -- AX_CTRL_POINT
  ⟨4, 1, 10, 4, .rw, false, 0x42C80000, .realGe0, 0⟩,  -- AX_V_START
  ⟨5, 1, 10, 4, .rw, false, 0x447A0000, .any, 0⟩,  -- AX_V_BREAK
  ⟨6, 1, 10, 4, .rw, false, 0x447A0000, .realGe0, 0⟩,  -- AX_V_MAX
  ⟨7, 1, 10, 4, .rw, false, 0x447A0000, .realGt0, 0⟩,  -- AX_A1
  ⟨8, 1, 10, 4, .rw, false, 0x447A0000, .realGt0, 0⟩,  -- AX_A2
  ⟨9, 1, 10, 4, .rw, false, 0x447A0000, .realGt0, 0⟩,  -- AX_D2
  ⟨10, 1, 10, 4, .rw, false, 0x447A0000, .realGt0, 0⟩,  -- AX_D1
  ⟨11, 1, 10, 4, .rw, false, 0x42C80000, .realGe0, 0⟩,  -- AX_V_STOP
  ⟨12, 1, 6, 1, .rw, false, 255, .natOr 0 7 255, 0⟩,  -- AX_LIMIT_SET
  ⟨13, 1, 7, 2, .rw, false, 0x3E8, .nat 200 5000, 0⟩,  -- AX_LIMIT_FILTER
  ⟨14, 1, 6, 1, .rw, false, 0, .any, 224⟩,  -- AX_LIMIT_STOP
  ⟨15, 1, 6, 1, .rw, false, 0, .nat 0 3, 0⟩,  -- AX_HOME_METHOD
  ⟨16, 1, 6, 1, .rw, false, 0, .nat 0 1, 0⟩,  -- AX_HOME_DIR
  ⟨17, 1, 10, 4, .rw, false, 0x42C80000, .any, 0⟩,  -- AX_HOME_SPEED
  ⟨18, 1, 4, 4, .rw, false, 0, .any, 0⟩,  -- AX_HOME_POSITION
  ⟨19, 1, 7, 2, .rw, false, 60, .nat 1 600, 0⟩,  -- AX_HOME_TIMEOUT
  ⟨20, 1, 4, 4, .rw, false, 0x80000000, .any, 0⟩,  -- AX_SOFT_MIN
  ⟨21, 1, 4, 4, .rw, false, 0x7FFFFFFF, .any, 0⟩,  -- AX_SOFT_MAX
  ⟨22, 1, 6, 1, .rw, false, 4, .nat 0 8, 0⟩,  -- AX_MICROSTEP
  ⟨23, 1, 7, 2, .rw, false, 0x1F4, .nat 100 1500, 0⟩,  -- AX_RUN_CURRENT
  ⟨24, 1, 7, 2, .rw, false, 250, .nat 0 1500, 0⟩]  -- AX_HOLD_CURRENT

/-- Rows of 0x3400 and 23 more of its family. -/
def axisRowsB : List ObjRow := [
  ⟨25, 1, 7, 2, .rw, false, 200, .nat 0 10000, 0⟩,  -- AX_HOLD_DELAY
  ⟨26, 1, 6, 1, .rw, false, 10, .nat 2 40, 0⟩,  -- AX_CHOP_OFF_TIME
  ⟨27, 1, 6, 1, .rw, false, 10, .nat 5 20, 0⟩,  -- AX_CHOP_BLANK
  ⟨28, 1, 6, 1, .rw, false, 4, .nat 0 8, 0⟩,  -- AX_SLOW_DECAY
  ⟨29, 1, 10, 4, .rw, false, 0, .realGe0, 0⟩,  -- AX_QUIET_VMAX
  ⟨30, 1, 10, 4, .rw, false, 0x3F800000, .real 0x3DCCCCCD 0x42480000, 0⟩,  -- AX_COIL_R
  ⟨31, 1, 10, 4, .rw, false, 0, .real 0x00000000 0x3F800000, 0⟩,  -- AX_BEMF_K
  ⟨32, 1, 7, 2, .rw, false, 0x3E8, .nat 100 10000, 0⟩,  -- AX_PULSE_WIDTH
  ⟨33, 1, 7, 2, .rw, false, 0x1388, .nat 500 50000, 0⟩,  -- AX_DIR_SETUP
  ⟨34, 1, 6, 1, .rw, true, 0, .nat 0 3, 0⟩,  -- AX_COMMAND
  ⟨35, 1, 8, 4, .ro, false, 0, .any, 0⟩,  -- AX_STATUS
  ⟨36, 1, 4, 4, .ro, false, 0, .any, 0⟩,  -- AX_ACTUAL
  ⟨37, 1, 4, 4, .ro, false, 0, .any, 0⟩,  -- AX_TARGET
  ⟨38, 1, 10, 4, .ro, false, 0, .any, 0⟩,  -- AX_VELOCITY
  ⟨39, 1, 7, 2, .ro, false, 0x5DC, .any, 0⟩,  -- AX_CURRENT_LIMIT
  ⟨40, 1, 6, 1, .ro, false, 0, .oneOf [0, 3], 0⟩,  -- AX_OWNER
  ⟨41, 1, 6, 1, .ro, false, 0, .any, 0⟩,  -- AX_FAULT_COUNT
  ⟨42, 1, 8, 4, .ro, false, 0, .any, 0⟩,  -- AX_FAULTS
  ⟨43, 1, 4, 4, .ro, false, 0, .any, 0⟩,  -- AX_LATCH
  ⟨44, 1, 6, 1, .ro, false, 1, .any, 0⟩,  -- AX_LOST_CAUSE
  ⟨45, 1, 6, 1, .ro, false, 0, .any, 0⟩]  -- AX_HOME_RESULT

/-- Rows of 0x3400. -/
def axisRows : List ObjRow := axisRowsA ++ axisRowsB

/-- Rows of 0x3480 and 5 more of its family. -/
def axisGroupRows : List ObjRow := [
  ⟨1, 1, 16, 4, .rw, false, 0xFFFFFFFF, .any, 0⟩,  -- GRP_MEMBERS
  ⟨2, 1, 10, 4, .rw, false, 0x42C80000, .realGe0, 0⟩,  -- GRP_V_START
  ⟨3, 1, 10, 4, .rw, false, 0x447A0000, .realGt0, 0⟩,  -- GRP_V_MAX
  ⟨4, 1, 10, 4, .rw, false, 0x447A0000, .realGt0, 0⟩,  -- GRP_ACCEL
  ⟨5, 1, 10, 4, .rw, false, 0x447A0000, .realGt0, 0⟩,  -- GRP_DECEL
  ⟨6, 1, 7, 2, .ro, false, 0, .any, 0⟩,  -- GRP_STATUS
  ⟨7, 1, 10, 4, .ro, false, 0, .realGe0, 0⟩]  -- GRP_PATH_LENGTH

/-- Rows of 0x3600 and 7 more of its family. -/
def canRows : List ObjRow := [
  ⟨1, 1, 6, 1, .rw, false, 0, .nat 0 4, 0⟩,  -- CAN_MODE
  ⟨2, 1, 16, 8, .rw, false, 0x2020007F0001, .any, 0xFFFF000000000000⟩,  -- CAN_NOMINAL
  ⟨3, 1, 16, 8, .rw, false, 0xC0104040B01, .any, 0xFFFF000000000000⟩,  -- CAN_DATA
  ⟨4, 1, 6, 1, .rw, false, 2, .any, 248⟩,  -- CAN_FLAGS
  ⟨5, 1, 6, 1, .rw, false, 96, .nat 1 255, 0⟩,  -- CAN_WARNING_LIMIT
  ⟨6, 1, 7, 2, .rw, false, 0x1F4, .nat 50 5000, 0⟩,  -- CAN_AUTOBAUD_DWELL
  ⟨7, 1, 6, 1, .rw, true, 0, .nat 0 2, 0⟩,  -- CAN_RECOVER
  ⟨8, 1, 7, 2, .ro, false, 0, .any, 0⟩,  -- CAN_STATUS
  ⟨9, 1, 6, 1, .ro, false, 0, .any, 0⟩,  -- CAN_TEC
  ⟨10, 1, 6, 1, .ro, false, 0, .any, 0⟩,  -- CAN_REC
  ⟨11, 1, 16, 8, .ro, false, 0, .any, 0⟩,  -- CAN_FOUND
  ⟨12, 1, 16, 32, .ro, false, 0, .any, 0⟩,  -- CAN_COUNTERS
  ⟨13, 1, 6, 1, .ro, false, 0, .any, 0⟩,  -- CAN_LAST_ERROR
  ⟨33, 64, 16, 32, .rw, false, 0, .any, 0xE0000000000080000000000000000000E000000000008000⟩,  -- CAN_BUF_PAIR
  ⟨97, 32, 16, 32, .ro, false, 0, .any, 0⟩]  -- CAN_BUF_STATUS

/-- Rows of 0x5000. -/
def pairRows : List ObjRow := [
  ⟨1, 1, 6, 1, .ro, false, 1, .any, 0⟩,  -- PAIR_STATE
  ⟨2, 1, 6, 1, .ro, false, 0, .any, 0⟩,  -- HEALTH_GRADE
  ⟨3, 1, 8, 4, .ro, false, 0, .any, 0⟩,  -- HEALTH_CAUSES
  ⟨4, 1, 7, 2, .ro, false, 0, .any, 0⟩,  -- OWN_CLAIM
  ⟨5, 1, 7, 2, .ro, false, 0, .any, 0⟩,  -- PARTNER_CLAIM
  ⟨6, 1, 6, 1, .ro, false, 0, .any, 0⟩,  -- PARTNER_GRADE
  ⟨7, 1, 8, 4, .ro, false, 0, .any, 0⟩,  -- PARTNER_SERIAL
  ⟨8, 1, 1, 1, .rw, false, 1, .nat 0 1, 0⟩,  -- AUTO_SWITCHOVER
  ⟨9, 1, 6, 1, .rw, false, 3, .nat 1 15, 0⟩,  -- GRADE_MARGIN
  ⟨10, 1, 7, 2, .ro, false, 0, .any, 0⟩,  -- PAIR_FLAGS
  ⟨11, 1, 8, 4, .ro, false, 0, .any, 0⟩,  -- SWITCHOVERS
  ⟨12, 1, 16, 16, .ro, false, 0, .any, 0⟩,  -- LAST_SWITCHOVER
  ⟨13, 1, 16, 24, .ro, false, 0, .any, 0⟩,  -- SYNC_COUNTERS
  ⟨14, 1, 8, 4, .ro, false, 0, .any, 0⟩,  -- MAX_COMMIT_LATENCY
  ⟨15, 1, 16, 32, .ro, false, 0, .any, 0⟩]  -- SELFTEST

/-- Rows of 0xB000. -/
def managementRows : List ObjRow := [
  ⟨1, 1, 16, 16, .ro, false, 0, .any, 0⟩,  -- SENSOR_TEMPS
  ⟨2, 1, 16, 36, .ro, false, 0, .any, 0⟩,  -- SENSOR_RAILS
  ⟨3, 1, 16, 20, .ro, false, 0, .any, 0⟩,  -- SENSOR_SUPPLIES
  ⟨4, 1, 6, 1, .ro, false, 0, .any, 0⟩,  -- SENSOR_HUMIDITY
  ⟨5, 1, 16, 24, .ro, false, 0, .any, 0⟩,  -- SENSOR_ACCEL
  ⟨6, 1, 7, 2, .ro, false, 0, .any, 0⟩,  -- SUPERCAP_MV
  ⟨7, 1, 7, 2, .rw, false, 0xFA0, .nat 500 8000, 0⟩,  -- SHOCK_LEVEL
  ⟨8, 1, 6, 1, .rw, false, 90, .nat 50 99, 0⟩,  -- HUMIDITY_LIMIT
  ⟨16, 1, 6, 1, .ro, false, 0, .any, 0⟩,  -- PRESENCE_WINDOW
  ⟨17, 1, 6, 1, .ro, false, 0, .any, 0⟩,  -- PATCH_STATE
  ⟨18, 1, 8, 4, .ro, false, 0, .any, 0⟩,  -- PATCH_PENDING_ID
  ⟨32, 4, 16, 64, .rw, true, 0, .any, 0⟩,  -- SIGNER_KEY
  ⟨48, 1, 16, 64, .ro, false, 0, .any, 0⟩]  -- DEVICE_PUBLIC_KEY

/-- Rows of 0xA000. -/
def recorderRows : List ObjRow := [
  ⟨1, 1, 7, 2, .ro, false, 0, .any, 0⟩,  -- REC_HEALTH
  ⟨2, 1, 8, 4, .ro, false, 0, .any, 0⟩,  -- REC_NEWEST
  ⟨3, 1, 8, 4, .ro, false, 0, .any, 0⟩,  -- REC_QUEUE_DROPS
  ⟨4, 1, 16, 1024, .rw, false, 0, .any, (2 ^ 8192 - 1) / (2 ^ 32 - 1) * 0xFF00⟩,  -- REC_RATE_TABLE
  ⟨5, 1, 16, 1024, .ro, false, 0, .any, 0⟩,  -- REC_SUPPRESSED
  ⟨6, 1, 16, 256, .ro, false, 0, .any, 0⟩,  -- LAST_GASP
  ⟨16, 1, 16, 1040384, .ro, false, 0, .any, 0⟩,  -- REC_RING
  ⟨17, 1, 16, 8192, .ro, false, 0, .any, 0⟩]  -- REC_FIRST

/-- Rows every command object has (Table 4.11), with the length and reserved bits of its arguments. -/
def commandRows (len rsv : Nat) : List ObjRow := [
  ⟨1, 1, 16, len, .wo, false, 0, .any, rsv⟩,  -- ARGS
  ⟨2, 1, 6, 1, .ro, false, 0, .any, 0⟩,  -- STATUS
  ⟨3, 1, 16, 16, .ro, false, 0, .any, 0⟩,  -- RESULT
  ⟨4, 1, 6, 1, .ro, false, 0xFF, .any, 0⟩]  -- INVOKER

/-- The command objects 0xF001 to 0xF00B (Table 4.12), reserved bits as their argument tables give them. -/
def commandFamilies : List ObjFamily := [
  ⟨0xF001, 1, 1, commandRows 8 0xFFFF0000⟩,
  ⟨0xF002, 1, 1, commandRows 8 0xFFFFFFFFFFFFFF00⟩,
  ⟨0xF003, 1, 1, commandRows 8 0xFFFFFFFF0000FF00⟩,
  ⟨0xF004, 1, 1, commandRows 16 0xFFFFFFFFFFFFFF00⟩,
  ⟨0xF005, 1, 1, commandRows 8 0xFFFFFFFFFFFFFF00⟩,
  ⟨0xF006, 1, 1, commandRows 8 0xFFFFFFFFFFFFFF00⟩,
  ⟨0xF007, 1, 1, commandRows 8 0xFFFFFF00 ++ [⟨5, 1, 8, 4, .ro, false, 0, .any, 0⟩]⟩,  -- CONFIG_GENERATION
  ⟨0xF008, 1, 1, commandRows 8 0xFF00⟩,
  ⟨0xF009, 1, 1, commandRows 16 0xFFFFFFFF00000000FFFC0000FFFFFF00⟩,
  ⟨0xF00A, 1, 1, commandRows 8 0xFFFFFFFFFFFFFF00⟩,
  ⟨0xF00B, 1, 1, commandRows 8 0xFFFFFFFFFFFFFF00⟩]

/-- All families; the bank rows of a bank's first channel stand before the channel rows (12 R306). -/
def objFamilies : List ObjFamily := [
  ⟨0x1000, 1, 1, identityRows⟩,
  ⟨0x2000, 1, 1, powerRows⟩,
  ⟨0x1100, 8, 1, sessionRows⟩,
  ⟨0x1200, 16, 1, slotRows⟩,
  ⟨0xF000, 1, 1, bulkRows⟩,
  ⟨0x1800, 1, 1, ringRows⟩,
  ⟨0x1900, 16, 1, nodeRecordRows⟩,
  ⟨0x1A00, 16, 1, nodeStatusRows⟩,
  ⟨0x2200, 1, 1, timeRows⟩,
  ⟨0x3800, 8, 1, trackerRows⟩,
  ⟨0x3880, 1, 1, schedulerRows⟩,
  ⟨0x38C0, 2, 1, synchroRows⟩,
  ⟨0x2800, 1, 1, imageRows⟩,
  ⟨0x2900, 32, 1, mapRecordRows⟩,
  ⟨0x2A00, 4, 1, bindingRecordRows⟩,
  ⟨0x2400, 1, 1, programRows⟩,
  ⟨0x2500, 48, 1, taskRows⟩,
  ⟨0x4000, 1024, 1, loopRows⟩,
  ⟨0x4400, 128, 1, groupRows⟩,
  ⟨0x6000, 1, 1, safetyRows⟩,
  ⟨0x3000, 8, 12, dioRows ++ bankRows⟩,
  ⟨0x3000, 96, 1, dioRows⟩,
  ⟨0x3200, 32, 1, aioRows⟩,
  ⟨0xC000, 1, 1, factoryRows⟩,
  ⟨0xC400, 1, 1, trimRows⟩,
  ⟨0x3400, 24, 1, axisRows⟩,
  ⟨0x3480, 6, 1, axisGroupRows⟩,
  ⟨0x3600, 8, 1, canRows⟩,
  ⟨0x5000, 1, 1, pairRows⟩,
  ⟨0xB000, 1, 1, managementRows⟩,
  ⟨0xA000, 1, 1, recorderRows⟩] ++ commandFamilies

/-- The family of an index. -/
def familyOf (idx : Nat) : Option ObjFamily :=
  objFamilies.find? (fun f => f.lo ≤ idx && idx < f.lo + f.count * f.stride && (idx - f.lo) % f.stride == 0)

/-- Sub-indices that some axes lack (14 R361). -/
def subPresent (idx sub : Nat) : Bool :=
  if 0x3400 ≤ idx && idx ≤ 0x3417 then
    if 0x1A ≤ sub && sub ≤ 0x1F then idx ≤ 0x3407
    else if sub = 0x20 ∨ sub = 0x21 then 0x3408 ≤ idx
    else true
  else true

/-- `SUB_COUNT`: the highest sub-index present (R70). -/
def subCount (f : ObjFamily) : Nat := f.rows.foldl (fun a r => max a (r.sub + r.count - 1)) 0

/-- The row of an object; sub-index 0 is `SUB_COUNT` (R70). -/
def objRow (idx sub : Nat) : Option ObjRow :=
  match familyOf idx with
  | none => none
  | some f =>
    if sub = 0 then some ⟨0, 1, 6, 1, .const, false, subCount f, .any, 0⟩
    else if subPresent idx sub then f.rows.find? (fun r => r.sub ≤ sub && sub < r.sub + r.count)
    else none

/-- The areas of Table 4.3: first index, last index, subsystem byte. -/
def areaMap : List (Nat × Nat × Nat) := [
  (0x1000, 0x17FF, 0x10), (0x1800, 0x1FFF, 0x18), (0x2000, 0x21FF, 0x20), (0x2200, 0x23FF, 0x22),
  (0x2400, 0x27FF, 0x24), (0x2800, 0x2FFF, 0x28), (0x3000, 0x305F, 0x30), (0x3200, 0x321F, 0x32),
  (0x3400, 0x3417, 0x34), (0x3480, 0x3485, 0x34), (0x3600, 0x3607, 0x36), (0x3800, 0x3807, 0x38),
  (0x3880, 0x3880, 0x38), (0x38C0, 0x38C1, 0x38), (0x4000, 0x43FF, 0x40), (0x4400, 0x447F, 0x44),
  (0x5000, 0x5000, 0x50), (0x6000, 0x6000, 0x60), (0xA000, 0xA000, 0xA0), (0xB000, 0xB000, 0xB0),
  (0xC000, 0xC000, 0xC0), (0xC400, 0xC400, 0xC4), (0xF000, 0xF00B, 0xF0)]

/-- The area of an index: its first index and its subsystem byte (R75). -/
def areaOf (idx : Nat) : Option (Nat × Nat) :=
  (areaMap.find? (fun a => a.1 ≤ idx && idx ≤ a.2.1)).map (fun a => (a.1, a.2.2))

/-- The subsystem byte of an index, 0 outside every area (R75). -/
def subsysOf (idx : Nat) : Nat := ((areaOf idx).map Prod.snd).getD 0

/-- An abort: class, subsystem byte, number, the object it concerns and its detail (R76, R96). -/
structure Abort where
  cls : Nat
  ss : Nat
  num : Nat
  idx : Nat := 0
  sub : Nat := 0
  detail : Nat := 0
  deriving DecidableEq, Repr

/-- The abort code 0xCCSS_NNNN (R96). -/
def Abort.code (a : Abort) : Nat := a.cls * 2 ^ 24 + a.ss * 2 ^ 16 + a.num

/-- The 12-byte abort body (R76). -/
def Abort.body (a : Abort) : List Byte :=
  leBytes 4 a.code ++ leBytes 2 a.idx ++ leBytes 1 a.sub ++ [0] ++ leBytes 4 a.detail

/-- An abort about an object, with its area's subsystem byte (R75). -/
def abortAt (cls num idx sub : Nat) (detail : Nat := 0) : Abort := ⟨cls, subsysOf idx, num, idx, sub, detail⟩

/-- Breach of a range: the class 0x02 number and its detail (Table 4.14). -/
def rngCheck (r : Rng) (v : Nat) : Option (Nat × Nat) :=
  match r with
  | .any => none
  | .nat lo hi => if hi < v then some (2, hi) else if v < lo then some (3, lo) else none
  | .natOr lo hi o => if v = o then none else if hi < v then some (2, hi) else if v < lo then some (3, lo) else none
  | .oneOf vs => if vs.contains v then none else some (1, 0)
  | .real lo hi =>
    let x : Real32 := BitVec.ofNat 32 v
    if f32Lt hi x then some (2, hi.toNat) else if f32Lt x lo then some (3, lo.toNat)
    else if f32Le lo x then none else some (1, 0)
  | .realGe0 => let x : Real32 := BitVec.ofNat 32 v
    if f32Le 0 x then none else if f32Lt x 0 then some (3, 0) else some (1, 0)
  | .realGt0 => let x : Real32 := BitVec.ofNat 32 v
    if f32Lt 0 x then none else if f32Le x 0 then some (3, 0) else some (1, 0)
  | .realZeroOr lo hi => let x : Real32 := BitVec.ofNat 32 v
    if f32Eq x 0 then none else if f32Lt hi x then some (2, hi.toNat) else if f32Lt x lo then some (3, lo.toNat)
    else if f32Le lo x then none else some (1, 0)
  | .edge => if v = 0xFFFF then none else if 95 < v % 128 then some (2, 95)
    else if v / 256 % 4 = 0 then some (1, 0) else none

/-- Reserved bits set by a whole value: the detail of R7, if any. A CAN mapping record reserves C [15:8] (07 Table 7.4). -/
def rsvDetail (idx : Nat) (r : ObjRow) (data : List Byte) : Option Nat :=
  let v := leVal data
  let bad := if 0x2900 ≤ idx ∧ idx ≤ 0x291F ∧ fieldAt data 0 1 = 6 then v &&& (r.rsv ||| 0xFF * 256 ^ 15)
    else if r.rng = .edge then (if v = 0xFFFF then 0 else v &&& 0xFC80) else v &&& r.rsv
  if bad = 0 then none
  else if r.len ≤ 4 then some bad
  else
    let bs := leBytes r.len bad
    match bs.findIdx? (fun b => b != 0) with
    | none => none
    | some i => some (i * 65536 + (bs.getD i 0).toNat)

/-- Objects transferred in parts: STRING and OCTETS longer than 1,024 bytes (R72). -/
def ObjRow.parted (r : ObjRow) : Bool := r.ty ≥ 15 && r.len > 1024

end Sys2Proof
end

