-- ==== Sys2Proof/Parts.lean ====
section
/-! DEFINITION. The parts of the machine's state, one structure per subsystem (01 Table 1.1). Each field's docstring
names the rule that gives it; the value after := is its value at reset. -/

namespace Sys2Proof

/-- The time unit (06 R126 to R139). -/
structure Clk where
  /-- Instant at which the raw counter read zero, and the instant at which it stopped while NET is off (R126). -/
  rawZero : Nat := 0
  stopped : Option Nat := none
  /-- Offset of local time, ns (R127). -/
  offset : Int := 0
  /-- `TIME_RATE` (R127). -/
  rate : Int := 0
  /-- `DISCIPLINE_STATE` (Table 6.2). -/
  state : Disc := .free
  /-- freq of the servo, in 1/64000 ppm (R135). -/
  freq : Int := 0
  /-- `TIME_OFFSET`, the latest θ (Table 6.11). -/
  theta : Int := 0
  /-- Samples of this beacon period (R134, R135). -/
  samples : List Int := []
  /-- Last eight accepted samples, newest first, each with the corrections of local time made until then (R135). -/
  accepted : List Int := []
  /-- Consecutive agreeing periods in ACQUIRING and their samples (Table 6.2). -/
  agree : Nat := 0
  agreeSamples : List Int := []
  /-- The module has left ACQUIRING since NET came up (R136, Table 6.2). -/
  left : Bool := false
  /-- `MASTER_NODE`, the master last followed, with its rank (Table 6.11). -/
  masterNode : Nat := 0
  masterRank : Nat := 255
  /-- First period of a new master: no median test (R135). -/
  newMaster : Bool := false
  /-- Instant of the last beacon (R135). -/
  lastBeacon : Option Nat := none
  /-- Instant of the last beacon from a better candidate, or of NET up (R132). -/
  lastBetter : Nat := 0
  /-- First copy of a beacon: SEQUENCE, arrived at T2, local arrival, ORIGIN_TIME (R134). -/
  copy : Option (Nat × Bool × Int × Int) := none
  /-- The stored path delays, ns; below zero where no ring check gave L (R134). -/
  pathT1 : Int := 0
  pathT2 : Int := 0
  /-- Link delays standing when the path delays were stored (R134). -/
  refT1 : Nat := 0
  refT2 : Nat := 0
  /-- `LOOP_DELAY` and the last eight loop measurements, newest first (R134). -/
  loop : Nat := 0
  loops : List Nat := []
  /-- `LINK_DELAY_T1`, `LINK_DELAY_T2` (R134). -/
  linkT1 : Nat := 0
  linkT2 : Nat := 0
  /-- `TIME_STEPS` (Table 6.11). -/
  steps : Nat := 0
  /-- Remainder a master or a stepped follower still slews, ns (R138). -/
  slewLeft : Int := 0
  /-- Instant at which a master's remainder closes, and the rate it then returns to (R138). -/
  slewUntil : Nat := 0
  slewRate : Int := 0
  /-- Locked once, or MASTER entered: records carry network time (R128). -/
  locked : Bool := false
  /-- Local time captured when NET switched off (R128). -/
  captured : Int := 0
  deriving DecidableEq, Repr

/-- Power, domains and the always-on domain (03). -/
structure Pwr where
  /-- Off, up, or a restart due with its cause (R50, R63, R65). -/
  phase : Phase := .restart 1
  /-- `LAST_RESET_CAUSE` (Table 3.10). -/
  cause : Nat := 1
  /-- `START_KIND` (R60, R61); 0 undecided (17 R415). -/
  kind : Nat := 0
  /-- Bits of `SUPPLY_STATUS` (Table 3.11). -/
  msHigh : Bool := false
  msLow : Bool := false
  fsbOff : Bool := false
  fsbLow : Bool := false
  fsaOff : Bool := false
  fsaLow : Bool := false
  t2Fuse : Bool := false
  t1Fuse : Bool := false
  t2Low : Bool := false
  t1Low : Bool := false
  aonLost : Bool := false
  holdupIncomplete : Bool := false
  /-- FSA and FSB as last measured, mV, and whether they feed the AIO field electronics (Table 3.2). -/
  fsaMv : Nat := 24000
  fsbMv : Nat := 24000
  aioFed : Bool := true
  /-- Bridges off for MS below 16.0 V or above 55.0 V (Table 3.2). -/
  msOffLow : Bool := false
  msOffHigh : Bool := false
  /-- `DOMAIN_STATE` (Table 3.10); AON is always on (Table 3.3). -/
  domains : Nat := 1
  /-- `BYPASS_STATE`, `BYPASS_TRANSITIONS` and the instant the relay last closed (R67). -/
  relayOpen : Bool := false
  transitions : Nat := 0
  closedAt : Option Nat := none
  /-- `FUSE_TRIPS_T1`, `FUSE_TRIPS_T2` and the instants the fuses opened (R49). -/
  tripsT1 : Nat := 0
  tripsT2 : Nat := 0
  fuseAtT1 : Nat := 0
  fuseAtT2 : Nat := 0
  /-- AON time, 1/64 s, as it stood at the instant `aonAt` (Table 3.5). -/
  aonBase : Nat := 0
  aonAt : Nat := 0
  /-- Operating time, 1/64 s, as it stood when MGT last came up or went down (Table 3.5). -/
  opBase : Nat := 0
  opAt : Nat := 0
  /-- `POWER_CYCLES` (Table 3.5). -/
  cycles : Nat := 0
  /-- The flash mirror of the counters: AON time, operating time, power cycles (R57). -/
  mirror : Nat × Nat × Nat := (0, 0, 0)
  /-- Supercapacitor mV and `SUPERCAP_STATE` (R57). -/
  supercap : Nat := 3000
  supercapLow : Bool := false
  /-- `LAST_HOLDUP_MARGIN`, measured since the last start (R64, R66). -/
  margin : Nat := 0
  marginNew : Bool := false
  /-- `BOOT_OPTION_LATCHED` (10 R224). -/
  boot : Nat := 1
  /-- POS and PRES latched at reset (R36, 16 R384). -/
  posB : Bool := false
  presLow : Bool := false
  /-- Instant the start threshold was passed (Table 3.6). -/
  startedAt : Nat := 0
  /-- A DOMAIN_RESET running: target and the instant of switch-off (R54). -/
  domReset : Option (Nat × Nat) := none
  /-- The newest power-fail record in a form the start can read: mode, CRC of the retain store, local time, AON time, forme identity (R60, R128). -/
  pfMode : Mode := .stop
  pfCrc : Option Nat := none
  /-- Its sequence number, or it lies in the last-gasp ring (17 R421). -/
  pfSeq : Nat := 0
  pfGasp : Bool := false
  pfTime : Int := 0
  pfAon : Nat := 0
  pfForme : Nat := 0
  deriving DecidableEq, Repr

/-- A commit accepted and not yet applied (04 R89). -/
structure PendingCommit where
  session : Nat
  writes : List Staged
  /-- Local time of acceptance, from which the 1000 ms boundary is awaited. -/
  since : Int := 0
  deriving DecidableEq, Repr

/-- Sessions, leases, commands and the bulk buffer (04). -/
structure Sess where
  /-- The eight sessions (R78). -/
  sessions : Tbl Session := []
  /-- The sixteen host slots (R79). -/
  slots : Tbl Slot := []
  /-- Leases held (R84). -/
  leases : List Lease := []
  /-- Command objects 0xF001 to 0xF00B, by low byte (Table 4.11). -/
  cmds : Tbl CmdObj := []
  /-- `CONFIG_GENERATION` (R89). -/
  generation : Nat := 0
  /-- The commit waiting to be applied (R89). -/
  pending : Option PendingCommit := none
  /-- The command index pending under R91. -/
  change : Option Nat := none
  /-- Areas whose leases the pending change keeps alive, with their session (R86). -/
  kept : List (Nat × Nat) := []
  /-- `BULK_LENGTH` and the buffer (R94). -/
  bulkLen : Nat := 0
  bulk : Memory := []
  /-- End of the presence window (17 R427). -/
  presence : Option Nat := none
  /-- Kept direct values not yet in flash: object key and instant of effect (R462). -/
  flashDue : List (Nat × Nat) := []
  /-- Kept direct values in flash (R462). -/
  flashDirect : Tbl (List Byte) := []
  /-- Keys of direct values applied and not yet carried by a record of the pair (R462). -/
  passDue : List Nat := []
  /-- The configuration record and the safety forme in flash that a start has refused, until another record takes their
  place (03 R59). -/
  refused : Option (Tbl (List Byte) × Memory) := none
  /-- Direct writes waiting for the commit of their owner's next cycle, oldest first (R74). -/
  direct : List DirectWrite := []
  /-- The FORCE waiting for its tick, and the messages that wait for its answer (R77; 07 R166). -/
  force : Option ForceReq := none
  waiting : List Msg := []
  deriving DecidableEq, Repr

/-- The process image (07): what producers wrote, and the forces. -/
structure Img where
  /-- Produced values; an unlisted mapped point carries BAD_NO_VALUE (R155). -/
  points : Tbl Pt := []
  /-- Forces in effect, in order of forcing (R167). -/
  forces : List Force := []
  /-- Landings since the last engine tick, oldest first (09 R202; 06 R142). -/
  landed : List Landed := []
  deriving DecidableEq, Repr

/-- A cycle ended and waiting for its commit in a pair, or a tick's releases (16 R395). -/
structure HeldRec where
  seq : Nat
  sentAt : Nat
  /-- The task and its ended cycle; none for a TICK record. -/
  cycle : Option (Nat × Cycle) := none
  deriving DecidableEq, Repr

/-- Program execution (08). -/
structure Prog where
  /-- `MODE` (Table 8.16). -/
  mode : Mode := .stop
  /-- End of HOLD (R191). -/
  holdUntil : Nat := 0
  /-- `LAST_STOP_CAUSE` (Table 8.16). -/
  stopCause : Nat := 0
  /-- RUN awaited at the next boundary; by MODE_SET, or by the end of startup (Table 8.8, 03 R62). -/
  runDue : Bool := false
  runByCommand : Bool := false
  /-- Local time from which the boundary is awaited. -/
  runSince : Int := 0
  /-- The active forme and the candidate in flash (R173). -/
  forme : Option Forme := none
  candidate : Option Forme := none
  /-- The active forme in flash (R173). -/
  flashForme : Option Forme := none
  /-- `FORME_GENERATION` (Table 8.16). -/
  generation : Nat := 0
  /-- A swap no cycle has committed yet (R193). -/
  uncommitted : Option Unswapped := none
  /-- Program clock, ns, as it stood at local time `clockAt`; it runs from there in RUN (R179). -/
  clock : Int := 0
  clockAt : Int := 0
  /-- Committed instance data, globals and retained data (R178). -/
  inst : Memory := []
  glob : Memory := []
  ret : Memory := []
  /-- Committed block instances, by instance offset (Table 8.6). -/
  blocks : Tbl BlockInst := []
  /-- The retain store: retained data and the program clock as last committed, with the forme's identity (R14, R64). -/
  store : Memory := []
  storeInst : Memory := []
  storeBlocks : Tbl BlockInst := []
  storeClock : Int := 0
  /-- The program clock as last committed, once something was committed since the start (R179; 03 R65). -/
  sealed : Option Int := none
  /-- Active steps of SFC charts by chart identity, each with its step time, the program clock at which it became active;
  the initial step at 0 where none is listed (R195). -/
  charts : Tbl (List (Nat × Int)) := []
  /-- Task states (Table 8.17). -/
  tasks : Tbl Task := []
  /-- The online change (R193). -/
  oc : Oc := {}
  /-- Points of FORME released values, newest released cycle (R14). -/
  released : Tbl (BitVec 32) := []
  /-- `SOURCE_TIME`: the latest release instant (05 R109). -/
  lastRelease : Int := 0
  deriving DecidableEq, Repr

/-- The control engine (09). -/
structure Eng where
  /-- Loop states (R199). -/
  loops : Tbl Loop := []
  /-- Override groups (R213). -/
  groups : Tbl Group := []
  /-- Loop states in the retain shadow, and in the retain store (R221; 03 R64). -/
  shadow : Tbl Loop := []
  store : Tbl Loop := []
  /-- Local time of the last tick, ns. -/
  lastTick : Int := 0
  /-- Points cadence loops have sampled since the last TICK record (R204, R217). -/
  cadSampled : List SampledPt := []
  deriving DecidableEq, Repr

/-- The cadence unit (06 R141 to R152). -/
structure Cad where
  trackers : Tbl Tracker := []
  slots : Tbl SlotSt := []
  sc : Tbl Sc := []
  /-- The 120 Ω encoder termination is on (02 R40, Table 2.14). -/
  encTerm : Bool := true
  deriving DecidableEq, Repr

/-- The station ring (05). -/
structure Ring where
  /-- `PORT_STATE` (Table 5.9). -/
  t1Up : Bool := false
  t2Up : Bool := false
  /-- The port's link has come up since NET last powered up (R122). -/
  t1Seen : Bool := false
  t2Seen : Bool := false
  /-- The ring is open (R122). -/
  open_ : Bool := false
  /-- Own ring checks not yet returned: SEQUENCE and local send time; instant of the last return (R122). -/
  checks : List (Nat × Int) := []
  lastReturn : Nat := 0
  /-- Address conflict: the instant of the last conflicting RM frame (R105). -/
  conflict : Option Nat := none
  /-- `RING_LAST_BREAK`: node, port, link, serial, network time (R122). -/
  lastBreak : Nat × Nat × Nat × Nat × Int := (0, 0, 0, 0, 0)
  /-- `FCS_ERRORS_T1`, `FCS_ERRORS_T2`, `RING_UNKNOWN_FRAMES`, `DUPLICATES_DISCARDED` (Table 5.9). -/
  fcsT1 : Nat := 0
  fcsT2 : Nat := 0
  unknown : Nat := 0
  duplicates : Nat := 0
  /-- The duplicate table, newest first (R99). -/
  dups : List DupEntry := []
  /-- The standard's node table: source address and instant (R99). -/
  nodeTable : List (Nat × Nat) := []
  /-- HSR sequence and the SEQUENCE counters of DA, TB, LD and RM frames (Table 5.3). -/
  hsrSeq : Nat := 0
  daSeq : Nat := 0
  tbSeq : Nat := 0
  ldSeq : Nat := 0
  rmSeq : Nat := 0
  /-- Remote nodes, by node-table record (R116). -/
  nodes : Tbl Node := []
  /-- The boundary of the last output sets sent, by class (06 R129). -/
  sentAt : Tbl Int := []
  /-- What the switch did with the last frame. -/
  verdict : Verdict := .none
  deriving DecidableEq, Repr

/-- Digital I/O: channels and banks (12). -/
structure DioPart where
  ch : Tbl Dio := []
  banks : Tbl Bank := []
  deriving DecidableEq, Repr

/-- Motion (14). -/
structure Mot where
  axes : Tbl Axis := []
  sets : Tbl LimitSet := []
  groups : Tbl AxGroup := []
  /-- Retained axis states (R341). -/
  store : Tbl AxKept := []
  /-- Local time of the last tick, ns; the inlet temperature's drive derating, mA rms (02 R45). -/
  lastTick : Int := 0
  derate : Nat := 1500
  deriving DecidableEq, Repr

/-- CAN ports and buffers, buffers by port × 128 + buffer (15). -/
structure CanPart where
  ports : Tbl CanPort := []
  bufs : Tbl CanBuf := []
  deriving DecidableEq, Repr

/-- One pass of a safety cycle: its working cycle and its results (10 R231, R243). -/
structure Pass where
  cyc : Cycle := {}
  running : Bool := false
  /-- The pass has ended in this cycle. -/
  ended : Bool := false
  /-- Output bits by output number and status values by index, as written. -/
  outs : Nat := 0
  status : Tbl (BitVec 32) := []
  /-- Proof word of the window so far and of the cycle (R240). -/
  window : BitVec 64 := 0
  cycleWord : BitVec 64 := 0
  /-- Instant the pass started. -/
  startedAt : Nat := 0
  deriving DecidableEq, Repr

/-- The safety complex (10). -/
structure Safe where
  /-- `SAFETY_STATE` (Table 10.6). -/
  state : SafetyState := .noForme
  /-- Cycle number k (R231). -/
  k : Nat := 0
  /-- `SAFETY_FAULT_CAUSE`, `SAFETY_FAULT_COUNT`, instants of counted faults, newest first (R250). -/
  cause : Nat := 0
  faults : Nat := 0
  counted : List Nat := []
  /-- `SAFETY_CYCLES`, `PASS_A_MAX_EXEC`, `PASS_B_MAX_EXEC`, `INJECTIONS`, `TOKEN_MISSES` (Table 10.6). -/
  cycles : Nat := 0
  maxA : Nat := 0
  maxB : Nat := 0
  injections : Nat := 0
  misses : Nat := 0
  /-- BOOT_OPTION_MISMATCH (R254). -/
  mismatch : Bool := false
  /-- The bytes of `SAFETY_FORME`, and the forme they hold once verified (R227). -/
  formeBytes : Memory := []
  forme : Option Forme := none
  /-- `SAFETY_SEAL` (R228). -/
  sealHash : Nat := 0
  /-- Pass A's plain data and block instances; pass B's coded words, by byte address of the data, then those of its block
  instances, function instances and counts (R238). -/
  plain : Memory := []
  coded : Tbl Int := []
  blocksA : Tbl BlockInst := []
  passA : Pass := {}
  passB : Pass := {}
  /-- The mailbox: bank vectors, requests, cycle number (R237). -/
  mail1 : MailWord := {}
  mail2 : MailWord := {}
  requests : Tbl MailWord := []
  mailCycle : MailWord := {}
  /-- The 32 delay registers, each with its complement: pass A's vector, status digest, cycle and window proof word, k and
  T_k in the first six (R243). -/
  delay : List (BitVec 64 × BitVec 64) := List.replicate 32 (0, ~~~0)
  /-- Agreed vector of this cycle as pass A and pass B formed it, and that of the last committed one (R235, Table 10.4). -/
  agreed : Nat := 0
  agreedB : Nat := 0
  agreedDone : Nat := 0
  /-- Instant of the cycle start (R231), and what the evaluation of both passes rests on beside the mailbox, as it stood
  then: terminals, sources, FSB (11 R257, R262, R264). -/
  cycleAt : Nat := 0
  seenTerms : Tbl Terminal := []
  seenTps : Tbl TpSource := []
  seenFsb : Bool := false
  /-- SCU verdict of this cycle: compared, and equal (R242). -/
  compared : Bool := false
  equal : Bool := false
  /-- Committed output vector and published status values (R247). -/
  vector : Nat := 0
  status : Tbl (BitVec 32) := []
  /-- `SO_STATUS` of each output at the cycle start (11 R258). -/
  soAtStart : Tbl Nat := []
  /-- Faults and a passed self-test in this proof window (R250); self-test turn (R244). -/
  windowFault : Bool := false
  windowTest : Bool := false
  testTurn : Nat := 0
  lfsr : Nat := 0xACE1
  /-- A safety configuration waits for its start: since when, and the forme (R253). -/
  newConfig : Option Nat := none
  /-- Cycles in which a token was missing, of the last 16, newest first (Table 10.4). -/
  missHistory : List Bool := []
  /-- The output stages' token watchdog: last token value taken, tokens missed and good in a row, stages off (R245). -/
  lastToken : Nat := 0
  missed : Nat := 0
  stageOff : Bool := false
  goodTokens : Nat := 0
  deriving DecidableEq, Repr

/-- Safety inputs, functions and outputs (11). -/
structure Sio where
  terms : Tbl Terminal := []
  duals : Tbl DualInput := []
  insts : Tbl SfInst := []
  tps : Tbl TpSource := []
  stages : Tbl SoStage := []
  /-- `SF_STATUS` and `SI_STATUS` as of the last commit (Table 11.9). -/
  shownSf : Tbl (List Byte) := []
  shownSi : Tbl Nat := []
  deriving DecidableEq, Repr

/-- An orderly switchover running (16 R402): trigger row, session of the request (8 for none), the whole millisecond from
which releases are held (local ns), SEQ of the HANDOVER record once it is sent. -/
structure Handing where
  trigger : Nat
  session : Nat
  at_ : Int
  seq : Option Nat := none
  deriving DecidableEq, Repr

/-- A remote set an INPUT record names (16 R396): SEQ of the record, node, class, SEQUENCE of the set. -/
structure SetRef where
  record : Nat
  node : Nat
  cls : Nat
  seq : Nat
  /-- Standby: local instant of the record. -/
  at_ : Nat := 0
  /-- Active: source time and entries of the set, to be resent as they were. -/
  values : Option (Int × List (BitVec 32 × Byte)) := none
  deriving DecidableEq, Repr

/-- The redundant pair (16). -/
structure Pair where
  /-- `PAIR_STATE` (Table 16.1). -/
  state : PairState := .starting
  /-- Highest min(h, 14) of the tenure, or h since RUN in a single unit; tenure began by replacement (R389). -/
  peak : Nat := 0
  replaced : Bool := false
  /-- `PARTNER_CLAIM`, `PARTNER_GRADE`, `PARTNER_SERIAL`, the partner's state and forme as last received (Table 16.9). -/
  partnerClaim : Nat := 0
  partnerGrade : Nat := 0
  partnerSerial : Nat := 0
  partnerState : PairState := .starting
  /-- PRES_CHANGED, yielded, copy abandoned (`PAIR_FLAGS`). -/
  presChanged : Bool := false
  yielded : Bool := false
  abandoned : Bool := false
  /-- `SWITCHOVERS`, `LAST_SWITCHOVER`: trigger, kind, pause µs, network time. -/
  switchovers : Nat := 0
  last : Nat × Nat × Nat × Int := (0, 0, 0, 0)
  /-- `SYNC_COUNTERS`: sent, late ACKs, mismatches, copies, FCS errors, resent. -/
  sent : Nat := 0
  lateAcks : Nat := 0
  mismatches : Nat := 0
  copies : Nat := 0
  fcs : Nat := 0
  resent : Nat := 0
  /-- `MAX_COMMIT_LATENCY`, µs. -/
  latency : Nat := 0
  /-- `SELFTEST`: failures per row of Table 16.7. -/
  selftest : Tbl Nat := []
  /-- Instant of the last partner pulse; heartbeat loss declared at (R393). -/
  lastPulse : Nat := 0
  lossAt : Option Nat := none
  /-- Own pulse last sent, its millisecond in unit A; HELLO last sent (R393, R394). -/
  hbAt : Option Nat := none
  hbGrid : Option Int := none
  helloAt : Option Nat := none
  /-- Own arbitration frame ended at, and whether a higher claim was read since (R392). -/
  arbAt : Option Nat := none
  arbLost : Bool := false
  /-- End of the last frame on the precedence line (R391). -/
  precAt : Option Nat := none
  /-- Arbitration won at, FCL check running (R397). -/
  wonAt : Option Nat := none
  /-- Record sequence sent and last received; instant of the last record (Table 16.3, R398). -/
  seqOut : Nat := 0
  seqIn : Option Nat := none
  lastRecord : Nat := 0
  /-- Standby: instant of the last commit record, TASK or TICK (R392). -/
  lastCommit : Nat := 0
  /-- Records sent and not acknowledged, oldest first (R395). -/
  held : List HeldRec := []
  /-- INPUT, HANDOVER and CHANGE records sent in ACTIVE and not acknowledged, oldest first: SEQ and instant (R397). -/
  sentRecs : List (Nat × Nat) := []
  /-- Releases are held for want of an ACK since (R397). -/
  holding : Bool := false
  /-- State copy running since; retry due (R399). -/
  copyAt : Option Nat := none
  retryAt : Option Nat := none
  /-- SEQ of the last piece of the copy sent; standby: a piece of the copy was lost (R399). -/
  copySeq : Option Nat := none
  copyBroken : Bool := false
  /-- Orderly switchover running (R402). -/
  handing : Option Handing := none
  /-- The whole millisecond from which a new active unit releases; cycles committed before it, oldest first (R401). -/
  firstAt : Option Int := none
  late : List Cycle := []
  /-- The grade margin has been exceeded since (Table 16.5). -/
  marginSince : Option Nat := none
  /-- Standby: its own ended cycles, by task, waiting for their TASK records (R398). -/
  own : Tbl Cycle := []
  /-- Standby: TASK records stored before its own cycle ended, with their arrival; configuration of a running copy (R398, R399). -/
  copyCfg : Tbl (List Byte) := []
  recs : Tbl (Nat × TaskRec) := []
  /-- Remote sets named in INPUT records: sent and not acknowledged; standby: named and not received (R396). -/
  sets : List SetRef := []
  wanted : List SetRef := []
  /-- Standby: CAN frames received and not yet named by an INPUT record, newest first, and whether one INPUT record has come
  since (Table 16.7). -/
  canSeen : List (Nat × CanFrame × Bool) := []
  /-- INPUT_DISAGREE, FCL_RX_FAULT conditions (Table 16.8). -/
  disagree : Bool := false
  fclFault : Bool := false
  /-- COLD_START counts in the start arbitration (R387). -/
  coldStart : Bool := false
  /-- Landings since the last INPUT record (Table 16.4). -/
  landings : List Landing := []
  deriving DecidableEq, Repr

/-- A record waiting to be written (17 R414). -/
structure QRec where
  opTime : Nat
  cycles : Nat
  code : Nat
  source : Nat
  net : Int
  data : List Byte
  deriving DecidableEq, Repr

/-- The Colophon recorder (17). -/
structure Recorder where
  bank0 : RecBank := {}
  bank1 : RecBank := {}
  /-- `REC_NEWEST`; the sequence has passed its end; records since this start (R411, Table 17.4). -/
  newest : Nat := 0
  wrapped : Bool := false
  sinceStart : Nat := 0
  /-- The queue, oldest first; the start record is still to be decided (R414, R415). -/
  queue : List QRec := []
  /-- `REC_QUEUE_DROPS`. -/
  drops : Nat := 0
  /-- Token buckets per class, and the flash mirror of `REC_SUPPRESSED` (R416). -/
  buckets : Tbl Bucket := []
  totals : Tbl Nat := []
  /-- The last-gasp ring, oldest first (R421). -/
  gasp : List Gasp := []
  /-- RESYNC of `REC_HEALTH`: the bank being copied (R420). -/
  resync : Option Nat := none
  deriving DecidableEq, Repr

/-- Management: sensors, patches (17). -/
structure Mgmt where
  /-- Corrected readings (Table 17.7). -/
  readings : Readings := {}
  /-- Peak acceleration since start by axis, mg (Table 17.10). -/
  peaks : List Nat := []
  /-- Humidity above its limit since, recorded; instant of the last shock record (Table 17.7). -/
  humidSince : Option Nat := none
  humidDone : Bool := false
  shockAt : Option Nat := none
  /-- Die above 110 °C, inlet above 70 °C. -/
  dieHot : Bool := false
  inletHot : Bool := false
  /-- Rails outside ±5 %, by rail number: since, recorded. -/
  railsOut : Tbl (Nat × Bool) := []
  /-- `PATCH_STATE`; the set in flash and the set applied at this start: identity and count (R426). -/
  patchState : Nat := 0
  heldId : Nat := 0
  heldCount : Nat := 0
  patchId : Nat := 0
  patchCount : Nat := 0
  /-- The Ibeno patch key fused into SEC at manufacture (R425), as a number. -/
  patchKey : Nat := Config.patchKey
  deriving DecidableEq, Repr

/-- A retirement (18 R436): kind as Table 18.2, number, operating time in seconds at retirement, CAL_INVALID. -/
structure Retired where
  kind : Nat
  number : Nat
  at_ : Nat
  cal : Bool := false
  deriving DecidableEq, Repr

/-- SRAM ECC bookkeeping (01 R19). -/
structure Sram where
  /-- Word address and instant of its last corrected error. -/
  corrected : Tbl Nat := []
  /-- Pages remapped, newest first. -/
  remapped : List Nat := []
  /-- Spare pages used of 16. -/
  used : Nat := 0
  /-- Pool empty when a page had to be retired; an uncorrectable error since the start (SPARE_EMPTY). -/
  empty : Bool := false
  uncorrectable : Bool := false
  /-- Single-bit errors corrected. -/
  count : Nat := 0
  /-- Instant of the last scrub (16 Table 16.7). -/
  scrubbed : Nat := 0
  deriving DecidableEq, Repr

end Sys2Proof
end

