-- ==== Sys2Proof/Machine/State.lean ====
section
/-! DEFINITION. The machine's state: one field per subsystem, every field with its reset value, and the reasons a
step could stop. -/

namespace Sys2Proof.Machine

/-- The state of one PX-960-M. -/
structure State where
  /-- Commands waiting, first in, first out. -/
  pending : List Instr := []
  /-- Instant of the last command, ns (log entry 1). -/
  now : Nat := 0
  /-- The model's own counter of free values drawn (log entry 7). -/
  freeN : Nat := 0
  /-- What the module has sent, newest first (log entry 8). -/
  outbox : List Sent := []
  /-- Values of configuration and direct objects that differ from their defaults, by index × 256 + sub (04 R70). -/
  config : Tbl (List Byte) := []
  clk : Clk := {}
  pwr : Pwr := {}
  sess : Sess := {}
  img : Img := {}
  prog : Prog := {}
  eng : Eng := {}
  cad : Cad := {}
  ring : Ring := {}
  dio : DioPart := {}
  /-- AIO channels (13). -/
  aio : Tbl Aio := []
  mot : Mot := {}
  can : CanPart := {}
  safe : Safe := {}
  sio : Sio := {}
  pair : Pair := {}
  recd : Recorder := {}
  mgmt : Mgmt := {}
  /-- The retirement list in flash (18 R436). -/
  retired : List Retired := []
  sram : Sram := {}
  deriving DecidableEq, Repr

/-- Reasons to stop with a fault. No command of this block ends in one: every row of the table has an effect in every
state, so the type has one name, raised by nothing (safe). -/
inductive Fault where
  /-- Raised by no command (safe). -/
  | none
  deriving DecidableEq, Repr

/-- Reasons to refuse a command. -/
inductive Refusal where
  /-- The command has no meaning yet; raised by its arm of `exec` (safe). -/
  | notModelled (mnemonic : String)
  deriving DecidableEq, Repr

/-- The module right after reset: logic power present and a start due with cause 0x01, every object at its default,
nothing produced, nothing stored. -/
def State.reset : State := {}

end Sys2Proof.Machine
end

