-- ==== Sys2Proof/Machine/Flags.lean ====
section
/-! DEFINITION. Status and flag words computed from the live state: supplies (03), health grade and claim (16), ring,
recorder and mode codes. -/

namespace Sys2Proof

/-! ### Codes of states -/

def Mode.num : Mode → Nat
  | .stop => 0 | .run => 1 | .hold => 2
def Disc.num : Disc → Nat
  | .free => 0 | .acquiring => 1 | .locked => 2 | .slewing => 3 | .holdover => 4 | .master => 5
def TrkState.num : TrkState → Nat
  | .off => 0 | .valid => 1 | .still => 2 | .coasting => 3 | .lost => 4
def ScState.num : ScState → Nat
  | .idle => 0 | .armed => 1 | .closing => 2 | .closed => 3 | .timedOut => 4 | .aborted => 5
def NodeState.num : NodeState → Nat
  | .unused => 0 | .joining => 1 | .exchanging => 2 | .lost => 3 | .rejoining => 4
def PairState.num : PairState → Nat
  | .single => 0 | .starting => 1 | .active => 2 | .activeAlone => 3 | .tracking => 4 | .syncing => 5
  | .unsynced => 6 | .conflict => 7
def SafetyState.num : SafetyState → Nat
  | .noForme => 0 | .starting => 1 | .running => 2 | .safeStop => 3 | .safeHalt => 4 | .split => 5

end Sys2Proof

namespace Sys2Proof.Machine

/-! ### Power (03) -/

/-- `SUPPLY_STATUS` (Table 3.11). -/
def supplyStatus (p : Pwr) : Nat :=
  flagWord [(0, p.holdupIncomplete), (1, p.aonLost), (2, p.t1Low), (3, p.t2Low), (4, p.t1Fuse), (5, p.t2Fuse),
    (6, p.fsaLow), (7, p.fsaOff), (8, p.fsbLow), (9, p.fsbOff), (10, p.msLow), (11, p.msHigh)]

/-! ### Pair role (16 Table 16.1) -/

/-- The unit is active: it releases outputs, sends output sets and drives the field. -/
def isActive (s : State) : Bool :=
  match s.pair.state with
  | .single | .active | .activeAlone => true
  | _ => false

/-- The unit is a standby. -/
def isStandby (s : State) : Bool :=
  match s.pair.state with
  | .tracking | .syncing | .unsynced => true
  | _ => false

/-- A pair unit: PRES read low at reset (R384). -/
def isPairUnit (s : State) : Bool := s.pwr.presLow

/-- A commit of this unit waits for the partner (Table 16.1). -/
def needsAck (s : State) : Bool := decide (s.pair.state = .active)

/-! ### Health grade (R408, Table 16.8) -/

/-- Ring: address conflict (05 R105). -/
def ringConflict (s : State) : Bool := s.ring.conflict.isSome

/-- Safety input or output fault latched (11 R277). -/
def safetyIoLatched (s : State) : Bool :=
  s.sio.stages.any (fun e => e.2.latched) || s.sio.terms.any (fun e => e.2.tpFault)

/-- A standby's off-state or pass-mode check fails: an output reports EXTERNAL_DRIVE, or a channel chip PARTNER_MISMATCH
(Table 16.7). -/
def switchStuck (s : State) : Bool :=
  isStandby s && (s.dio.ch.any (fun e => e.2.external) || s.aio.any (fun e => e.2.partnerMismatch))

/-- `HEALTH_CAUSES` by bit. -/
def healthCauseBits (s : State) : List (Nat × Bool) :=
  [(0, s.sram.empty || s.sram.uncorrectable), (1, decide (s.pair.state = .conflict)), (2, ringConflict s), (3, s.safe.mismatch),
   (4, decide (s.safe.state = .safeHalt)), (5, !s.ring.t1Up && !s.ring.t2Up),
   (6, decide (s.pair.state = .syncing) || decide (s.pair.state = .unsynced)), (7, s.mgmt.dieHot),
   (8, s.pair.fclFault), (9, s.retired.any (fun r => r.kind == 4)), (10, switchStuck s),
   (11, s.pwr.fsaOff || s.pwr.fsbOff || s.pwr.msOffLow), (12, decide (s.safe.state = .safeStop)),
   (13, safetyIoLatched s), (14, s.ring.t1Up != s.ring.t2Up), (15, s.pair.disagree && isStandby s),
   (16, s.retired.any (fun r => r.kind != 4)), (17, decide (12 < s.sram.used)),
   (18, s.recd.bank0.sticky || s.recd.bank1.sticky), (19, s.pair.coldStart && decide (s.pair.state = .starting))]

/-- The grade cap of each cause, by bit. -/
def healthCap (bit : Nat) : Nat :=
  [0, 0, 5, 7, 7, 7, 7, 9, 10, 11, 11, 12, 12, 13, 13, 13, 14, 14, 14, 13].getD bit 15

/-- `HEALTH_CAUSES`; nothing is reported before a start. -/
def healthCauses (s : State) : Nat := if s.pwr.phase = .up then flagWord (healthCauseBits s) else 0

/-- `HEALTH_GRADE`: the lowest cap among the conditions present. -/
def healthGrade (s : State) : Nat :=
  if s.pwr.phase = .up then
    (healthCauseBits s).foldl (fun a c => if c.2 then min a (healthCap c.1) else a) 15
  else 0

/-! ### Precedence claim (R388, R389) -/

/-- The highest value the grade field has had in this tenure, with the present grade; in a single unit the highest grade
since the start, for the field of an active unit never falls (log entry 34). -/
def peakNow (s : State) : Nat :=
  match s.pair.state with
  | .single => max s.pair.peak (healthGrade s)
  | .active | .activeAlone => max s.pair.peak (min (healthGrade s) 14)
  | _ => 0

/-- The grade field of the claim. -/
def gradeField (s : State) : Nat :=
  match s.pair.state with
  | .single => peakNow s
  | .active | .activeAlone => if s.pair.replaced then 15 else peakNow s
  | _ => min (healthGrade s) 14

/-- `OWN_CLAIM` (Table 16.2). -/
def ownClaim (s : State) : Nat :=
  gradeField s * 4096 + flagBit 11 (isActive s) + flagBit 10 (!s.pwr.posB)
    + (1 + Config.serialRaw % 0xFFFFFFFE) % 1024

/-! ### Recorder health (17 Table 17.6) -/

def recHealth (r : Recorder) : Nat :=
  flagWord [(0, r.bank0.ok), (1, r.bank1.ok), (2, r.bank0.ok != r.bank1.ok), (3, !r.bank0.ok && !r.bank1.ok),
    (4, r.resync.isSome), (5, r.bank0.sticky), (6, r.bank1.sticky)] + 256 * r.gasp.length

/-! ### Ring (05 Table 5.9) -/

/-- `PORT_STATE`. -/
def portState (r : Ring) : Nat := flagWord [(0, r.t1Up), (1, r.t2Up)]

end Sys2Proof.Machine
end

