-- ==== Sys2Proof/Machine/Ops.lean ====
section
/-! DEFINITION. The named operations every subsystem shares: the passing of time, the configuration store, sending,
records, fault counts and retirement. -/

namespace Sys2Proof.Machine

/-! ### Time -/

/-- A command reaches the module at instant `t`, or at once if that is past (log entry 1). The highest grade of the
tenure takes in the grade that stood until now (16 R389). -/
def advance (t : Nat) (s : State) : State :=
  { s with now := max s.now t, pair := { s.pair with peak := peakNow s } }

/-- RAW_COUNT: 250 MHz since NET powered up; it stands still while NET is off (06 R126). -/
def rawCount (s : State) : Nat := (s.clk.stopped.getD s.now - s.clk.rawZero) / 4

/-- Local time that a raw count, an offset and a rate give (06 R127). -/
def localOf (offset rate : Int) (raw : Nat) : Int :=
  offset + ((raw : Int) * 4 * (2 ^ 32 + rate)) / (2 ^ 32 : Nat)

/-- Local time, ns (06 R127). -/
def localNow (s : State) : Int := localOf s.clk.offset s.clk.rate (rawCount s)

/-- Change of rate: the offset moves so that local time stays continuous (06 R127). -/
def setRate (rate : Int) (s : State) : State :=
  let raw := rawCount s
  let off := localOf s.clk.offset s.clk.rate raw - localOf 0 rate raw
  { s with clk := { s.clk with rate := rate, offset := off } }

/-- A step of local time (06 R136); the program clock takes no part in it (08 R179). -/
def stepTime (d : Int) (s : State) : State :=
  { s with clk := { s.clk with offset := s.clk.offset + d, steps := s.clk.steps + 1 }
           prog := { s.prog with clockAt := s.prog.clockAt + d } }

/-- Stamps taken now are marked UNCERTAIN_SLEWING (06 R131, R138). -/
def slewing (s : State) : Bool :=
  decide (s.clk.state = .slewing) || (decide (s.clk.state = .master) && decide (s.clk.slewLeft ≠ 0))

/-- The grid instant of a period at or before now (06 R129). -/
def gridAt (s : State) (period : Nat) : Int := if period = 0 then localNow s else localNow s / period * period

/-- Network time as records carry it: local time, or the not-locked value before the first lock (06 R128). -/
def netTime (s : State) : Int := if s.clk.locked then localNow s else -1

/-- AON time, 1/64 s (03 Table 3.5). -/
def aonTime (s : State) : Nat := (s.pwr.aonBase + (s.now - s.pwr.aonAt) * 64 / secNs) % 2 ^ 48

/-- The power domains are up: the module runs (03 R58). -/
def up (s : State) : Bool := decide (s.pwr.phase = .up)

/-- Operating time, 1/64 s, advancing while MGT is up (03 Table 3.5). -/
def opTime (s : State) : Nat :=
  if up s then (s.pwr.opBase + (s.now - s.pwr.opAt) * 64 / secNs) % 2 ^ 40 else s.pwr.opBase

/-- A domain of Table 3.3 is on. -/
def domainOn (s : State) (n : Nat) : Bool := bitOf s.pwr.domains n

/-! ### Configuration store -/

/-- Key of an object. -/
def objKey (idx sub : Nat) : Nat := idx * 256 + sub

/-- An entry of `REC_RATE_TABLE`'s default: burst and refill in 0.1 s (17 R416). -/
def rateDefault (c : Nat) : List Byte := [if 1 ≤ c && c ≤ 0x1F then 32 else 8, 0, 100, 0]

/-- Default bytes of an object (04 R70). -/
def defaultBytes (idx sub : Nat) : List Byte :=
  if idx = 0xA000 ∧ sub = 4 then (List.range 256).flatMap rateDefault
  else match objRow idx sub with
    | some r => leBytes r.len r.dflt
    | none => []

/-- Live bytes of a configuration object. -/
def cfgBytes (s : State) (idx sub : Nat) : List Byte :=
  (Tbl.find s.config (objKey idx sub)).getD (defaultBytes idx sub)

/-- Live value of a configuration object, unsigned. -/
def cfgNat (s : State) (idx sub : Nat) : Nat := leVal (cfgBytes s idx sub)

/-- Live value of a configuration object, two's complement. -/
def cfgInt (s : State) (idx sub : Nat) : Int :=
  let b := cfgBytes s idx sub
  signedAt b 0 b.length

/-- Live value of a REAL32 object. -/
def cfgReal (s : State) (idx sub : Nat) : Real32 := BitVec.ofNat 32 (cfgNat s idx sub)

/-- Live value of a BOOL object. -/
def cfgBool (s : State) (idx sub : Nat) : Bool := decide (cfgNat s idx sub ≠ 0)

/-- Store of an object's value in a configuration: a default is not listed. -/
def cfgPut (c : Tbl (List Byte)) (idx sub : Nat) (v : List Byte) : Tbl (List Byte) :=
  if v = defaultBytes idx sub then Tbl.erase c (objKey idx sub) else Tbl.insert c (objKey idx sub) v

/-- Store of an object's value. -/
def setCfg (idx sub : Nat) (v : List Byte) (s : State) : State := { s with config := cfgPut s.config idx sub v }

/-- Burst and refill time of a record class (17 R416). -/
def recRate (s : State) (c : Nat) : Nat × Nat :=
  match Tbl.find s.config (objKey 0xA000 4) with
  | some bs => (fieldAt bs (4 * c) 1, fieldAt bs (4 * c + 2) 2)
  | none => let b := rateDefault c; (fieldAt b 0 1, fieldAt b 2 2)

/-- `NODE_ADDRESS` (05 R102). -/
def nodeAddress (s : State) : Nat := cfgNat s 0x1800 1

/-- The module originates frames on the ring: NET is up and it has an address (05 R102). -/
def originates (s : State) : Bool := up s && domainOn s 7 && nodeAddress s != 0

/-- The module originates PD, DA, TB and LD frames: no address conflict stands (05 R105). -/
def originatesAll (s : State) : Bool := originates s && !ringConflict s

/-- Requests over a path are answered (05 R102, R105). -/
def answers (s : State) (p : Path) : Bool := up s && (decide (p = .svc) || originatesAll s)

/-! ### Free values and sending -/

/-- A free value is drawn (log entry 7). -/
def draw (s : State) : Nat × State := (Config.free s.freeN, { s with freeN := s.freeN + 1 })

/-- Frames that carry an HSR sequence number of the module's own (05 R99). -/
def onRing : Sent → Bool
  | .response .ring _ _ _ _ _ _ _ _ => true
  | .supervision _ => true
  | .pdOut _ _ _ _ _ _ _ _ _ _ _ => true
  | .rm _ _ _ _ _ _ => true
  | .tb _ _ _ _ _ _ => true
  | _ => false

/-- The next SEQUENCE of a kind of Hornpipe frame, 24 bits (05 Table 5.3). -/
def frameSeq (n : Nat) : Nat := (n + 1) % 2 ^ 24

/-- The SEQUENCE counter of its kind has counted the frame, the sets of PD frames apart (05 Table 5.3). -/
def countSeq (x : Sent) (r : Ring) : Ring :=
  match x with
  | .response .ring _ _ _ _ _ _ _ _ => { r with daSeq := frameSeq r.daSeq }
  | .rm _ _ _ _ _ _ => { r with rmSeq := frameSeq r.rmSeq }
  | .tb _ _ _ _ _ _ => { r with tbSeq := frameSeq r.tbSeq }
  | .ld _ _ _ _ _ _ _ => { r with ldSeq := frameSeq r.ldSeq }
  | _ => r

/-- A response over the ring takes the NODE and the SEQUENCE of the DA frame that carries it (05 Table 5.3). -/
def framed (s : State) (x : Sent) : Sent :=
  match x with
  | .response .ring peer n service ab seq body tag _ =>
    .response .ring peer n service ab seq body tag (some (nodeAddress s, frameSeq s.ring.daSeq))
  | x => x

/-- Something leaves the module (log entry 8); a ring frame takes the next HSR sequence number, and a DA, TB, LD or RM
frame the next SEQUENCE of its kind. -/
def send (x : Sent) (s : State) : State :=
  { s with outbox := framed s x :: s.outbox
           ring := if onRing x then { countSeq x s.ring with hsrSeq := (s.ring.hsrSeq + 1) % 2 ^ 16 } else countSeq x s.ring }

/-! ### Records (17) -/

/-- Neither bank is in use (17 R421). -/
def bothFailed (s : State) : Bool := !s.recd.bank0.ok && !s.recd.bank1.ok

/-- The newest 16 entries, oldest first: what the last-gasp ring holds (17 R421). -/
def gaspLast (l : List Gasp) : List Gasp := l.drop (l.length - 16)

/-- The last-gasp ring takes an entry, overwriting the oldest of 16 (17 R421). -/
def gaspPush (g : Gasp) (l : List Gasp) : List Gasp := gaspLast (l ++ [g])

/-- A record enters the queue, or is dropped and counted (17 R414). -/
def enqueue (q : QRec) (s : State) : State :=
  if s.recd.queue.length < 256 then { s with recd := { s.recd with queue := s.recd.queue ++ [q] } }
  else { s with recd := { s.recd with drops := s.recd.drops + 1 } }

/-- The six DATA bytes of a record (17 Table 17.1). -/
def recData (d : List Byte) : List Byte := (d ++ List.replicate 6 0).take 6

/-- A record of class `c` would be the first ever written: neither bank's first-occurrence slots nor the queue hold one (17
R413, R416). -/
def firstOccurrence (s : State) (c : Nat) : Bool :=
  (Tbl.find s.recd.bank0.firsts c).isNone && (Tbl.find s.recd.bank1.firsts c).isNone
    && s.recd.queue.all (fun q => q.code / 256 != c)

/-- Tokens a bucket holds now, in units of 10^-9, under the burst and the refill time of its class (17 R416). -/
def tokensNow (now burst refill : Nat) (b : Bucket) : Nat :=
  if b.burst = 0 then burst * 1000000000
  else min (burst * 1000000000) (b.burst * 1000000000 - b.spent + 10 * (now - b.last) / refill)

/-- A record of code `code` about `src` passes its token bucket (17 R416), or goes to the last-gasp ring (R421). -/
def emit (code src : Nat) (data : List Byte) (s : State) : State :=
  let c := code / 256
  if bothFailed s then
    { s with recd := { s.recd with gasp := gaspPush ⟨aonTime s, code, src, recData data⟩ s.recd.gasp } }
  else
    let (burst, refill) := recRate s c
    let full := burst * 1000000000
    let b := Tbl.get s.recd.buckets {} c
    let tokens := tokensNow s.now burst refill b
    let q : QRec := ⟨opTime s, s.pwr.cycles, code, src, netTime s, recData data⟩
    if 1000000000 ≤ tokens ∨ firstOccurrence s c ∨ c = 0x02 ∨ c = 0xA0 then
      let b' := { b with spent := full - (tokens - 1000000000), burst := burst, last := s.now, suppressed := 0 }
      let s := { s with recd := { s.recd with buckets := Tbl.put s.recd.buckets {} c b' } }
      let s := if b.suppressed > 0 then
        enqueue { q with code := 0xA1 * 256 + c, source := 0, data := recData (leBytes 4 b.suppressed) } s else s
      enqueue q s
    else
      let b' := { b with
        spent := full - tokens, burst := burst, last := s.now, suppressed := b.suppressed + 1, total := b.total + 1 }
      { s with recd := { s.recd with buckets := Tbl.put s.recd.buckets {} c b' } }

/-! ### The sync link (16 R394) -/

/-- What the headers of the unit's records say of it (16 Table 16.3). -/
def syncHdr (s : State) : SyncHdr := ⟨ownClaim s, healthGrade s, s.pair.state⟩

/-- The next SEQ is taken and the record counted (16 Table 16.3, Table 16.9); a record other than TASK and TICK sent in
ACTIVE waits for its ACK (R397). -/
def countRecord (acked : Bool) (s : State) : State :=
  let q := (s.pair.seqOut + 1) % 2 ^ 32
  { s with pair := { s.pair with
    seqOut := q, sent := (s.pair.sent + 1) % 2 ^ 32
    sentRecs := if acked && needsAck s then s.pair.sentRecs ++ [(q, s.now)] else s.pair.sentRecs } }

/-- A record leaves on the sync link with the next SEQ (16 Table 16.3). -/
def sendSync (kind : Nat) (content : List Nat) (s : State) : State :=
  let u := countRecord (kind == 2 || kind == 7) s
  send (.sync kind u.pair.seqOut (syncHdr s) content) u

/-- An active unit passes a change to its partner (04 R91; 08 R193; 10 R254). -/
def passChange (c : Change) (s : State) : State :=
  match s.pair.state with
  | .active | .activeAlone =>
    let u := countRecord true s
    send (.change u.pair.seqOut (syncHdr s) c) u
  | _ => s

/-- A standby acknowledges a record (16 Table 16.4). -/
def sendAck (seq result : Nat) (s : State) : State := sendSync 5 [seq, result] s

/-- A pair state is entered and recorded (17 Table 17.3). -/
def enterPair (st : PairState) (s : State) : State :=
  if s.pair.state = st then s
  else
    let s := { s with pair := { s.pair with state := st } }
    emit (0x9000 + st.num) 0 (leBytes 2 (ownClaim s) ++ leBytes 1 (healthGrade s) ++ leBytes 1 s.pair.partnerGrade) s

/-! ### Fault counts and retirement (01 R18; 18 R435, R436) -/

/-- The faults still inside the 10 s window, with one more now. -/
def addFault (now : Nat) (faults : List Nat) : List Nat :=
  now :: faults.filter (fun t => now - t < 10 * secNs)

/-- Faults counted now (the `…_FAULT_COUNT` objects). -/
def faultCount (now : Nat) (faults : List Nat) : Nat := (faults.filter (fun t => now - t < 10 * secNs)).length

/-- Kinds of Table 18.2. -/
abbrev kindDio : Nat := 1
abbrev kindAio : Nat := 2
abbrev kindAxis : Nat := 3
abbrev kindLink : Nat := 4

/-- A resource is on the retirement list. -/
def isRetired (s : State) (kind n : Nat) : Bool := s.retired.any (fun r => r.kind == kind && r.number == n)

/-- SOURCE of a resource's records (17 Table 17.2). -/
def sourceOf (kind n : Nat) : Nat :=
  (if kind = kindDio then 0x1000 else if kind = kindAio then 0x2000 else if kind = kindAxis then 0x3000
   else 0x5000) + n

/-- A resource enters the retirement list, and the list is in flash before the record reports it (18 R436). -/
def listRetired (kind n : Nat) (cal : Bool) (s : State) : State :=
  if isRetired s kind n then s
  else emit 0xD101 (sourceOf kind n) [] { s with retired := s.retired ++ [⟨kind, n, opTime s / 64, cal⟩] }

/-! ### Table steps -/

/-- A change of one DIO channel. -/
def modDio (ch : Nat) (f : Dio → Dio) (s : State) : State :=
  { s with dio := { s.dio with ch := Tbl.modify s.dio.ch {} ch f } }
def getDio (s : State) (ch : Nat) : Dio := Tbl.get s.dio.ch {} ch
/-- A change of one bank. -/
def modBank (b : Nat) (f : Bank → Bank) (s : State) : State :=
  { s with dio := { s.dio with banks := Tbl.modify s.dio.banks {} b f } }
def getBank (s : State) (b : Nat) : Bank := Tbl.get s.dio.banks {} b
/-- A change of one AIO channel. -/
def modAio (ch : Nat) (f : Aio → Aio) (s : State) : State := { s with aio := Tbl.modify s.aio {} ch f }
def getAio (s : State) (ch : Nat) : Aio := Tbl.get s.aio {} ch
/-- A change of one axis. -/
def modAxis (n : Nat) (f : Axis → Axis) (s : State) : State :=
  { s with mot := { s.mot with axes := Tbl.modify s.mot.axes {} n f } }
def getAxis (s : State) (n : Nat) : Axis := Tbl.get s.mot.axes {} n
/-- A change of one CAN port. -/
def modPort (p : Nat) (f : CanPort → CanPort) (s : State) : State :=
  { s with can := { s.can with ports := Tbl.modify s.can.ports {} p f } }
def getPort (s : State) (p : Nat) : CanPort := Tbl.get s.can.ports {} p
/-- A change of one CAN buffer. -/
def modBuf (p b : Nat) (f : CanBuf → CanBuf) (s : State) : State :=
  { s with can := { s.can with bufs := Tbl.modify s.can.bufs {} (p * 128 + b) f } }
def getBuf (s : State) (p b : Nat) : CanBuf := Tbl.get s.can.bufs {} (p * 128 + b)
/-- A change of one session. -/
def modSession (n : Nat) (f : Session → Session) (s : State) : State :=
  { s with sess := { s.sess with sessions := Tbl.modify s.sess.sessions {} n f } }
def getSession (s : State) (n : Nat) : Session := Tbl.get s.sess.sessions {} n
/-- A change of one host slot. -/
def modSlot (k : Nat) (f : Slot → Slot) (s : State) : State :=
  { s with sess := { s.sess with slots := Tbl.modify s.sess.slots {} k f } }
def getSlot (s : State) (k : Nat) : Slot := Tbl.get s.sess.slots {} k
/-- A change of one command object. -/
def modCmd (c : Nat) (f : CmdObj → CmdObj) (s : State) : State :=
  { s with sess := { s.sess with cmds := Tbl.modify s.sess.cmds {} c f } }
def getCmd (s : State) (c : Nat) : CmdObj := Tbl.get s.sess.cmds {} c
/-- A change of one task. -/
def modTask (k : Nat) (f : Task → Task) (s : State) : State :=
  { s with prog := { s.prog with tasks := Tbl.modify s.prog.tasks {} k f } }
def getTask (s : State) (k : Nat) : Task := Tbl.get s.prog.tasks {} k
/-- A change of one loop. -/
def modLoop (n : Nat) (f : Loop → Loop) (s : State) : State :=
  { s with eng := { s.eng with loops := Tbl.modify s.eng.loops {} n f } }
def getLoop (s : State) (n : Nat) : Loop := Tbl.get s.eng.loops {} n
/-- A change of one tracker. -/
def modTracker (n : Nat) (f : Tracker → Tracker) (s : State) : State :=
  { s with cad := { s.cad with trackers := Tbl.modify s.cad.trackers {} n f } }
def getTracker (s : State) (n : Nat) : Tracker := Tbl.get s.cad.trackers {} n
/-- A change of one scheduler slot. -/
def modSched (n : Nat) (f : SlotSt → SlotSt) (s : State) : State :=
  { s with cad := { s.cad with slots := Tbl.modify s.cad.slots {} n f } }
def getSched (s : State) (n : Nat) : SlotSt := Tbl.get s.cad.slots {} n
/-- A change of one synchro-check instance. -/
def modSc (n : Nat) (f : Sc → Sc) (s : State) : State :=
  { s with cad := { s.cad with sc := Tbl.modify s.cad.sc {} n f } }
def getSc (s : State) (n : Nat) : Sc := Tbl.get s.cad.sc {} n
/-- A change of one remote node. -/
def modNode (n : Nat) (f : Node → Node) (s : State) : State :=
  { s with ring := { s.ring with nodes := Tbl.modify s.ring.nodes {} n f } }
def getNode (s : State) (n : Nat) : Node := Tbl.get s.ring.nodes {} n
/-- A change of one safety terminal. -/
def modTerm (n : Nat) (f : Terminal → Terminal) (s : State) : State :=
  { s with sio := { s.sio with terms := Tbl.modify s.sio.terms {} n f } }
def getTerm (s : State) (n : Nat) : Terminal := Tbl.get s.sio.terms {} n
/-- A change of one function instance. -/
def modSf (n : Nat) (f : SfInst → SfInst) (s : State) : State :=
  { s with sio := { s.sio with insts := Tbl.modify s.sio.insts {} n f } }
def getSf (s : State) (n : Nat) : SfInst := Tbl.get s.sio.insts {} n
/-- A change of one test-pulse source. -/
def modTp (n : Nat) (f : TpSource → TpSource) (s : State) : State :=
  { s with sio := { s.sio with tps := Tbl.modify s.sio.tps {} n f } }
def getTp (s : State) (n : Nat) : TpSource := Tbl.get s.sio.tps {} n
/-- A change of one safety output stage. -/
def modStage (n : Nat) (f : SoStage → SoStage) (s : State) : State :=
  { s with sio := { s.sio with stages := Tbl.modify s.sio.stages {} n f } }
def getStage (s : State) (n : Nat) : SoStage := Tbl.get s.sio.stages {} n

/-- An operation for every number of a list, in order. -/
def forAll (l : List Nat) (f : Nat → State → State) (s : State) : State := l.foldl (fun s n => f n s) s

end Sys2Proof.Machine
end

