-- ==== Sys2Proof/Machine/Image.lean ====
section
/-! DEFINITION. The process image (07): mapping records, owners, productions, forces and what readers see. -/

namespace Sys2Proof

/-- FLAGS [0] and [1] of a record (Table 7.3). -/
def MapRec.isOut (m : MapRec) : Bool := bitOf m.flags 0
def MapRec.holdUnsafe (m : MapRec) : Bool := bitOf m.flags 1
/-- The record covers a point. -/
def MapRec.covers (m : MapRec) (p : Nat) : Bool := m.first ≤ p && p < m.first + m.count

/-- Codes of Table 1.10. -/
def Owner.code : Owner → Nat
  | .none => 0 | .forme => 1 | .engine => 2 | .motion => 3 | .cadence => 4 | .synchro => 5 | .safety => 6

/-- The points of a record, in order. -/
def MapRec.points (m : MapRec) : List Nat := (List.range m.count).map (m.first + ·)

end Sys2Proof

namespace Sys2Proof.Machine

/-- The 16 bytes of a mapping record (Table 7.3). -/
def mapRecOf (b : List Byte) : MapRec :=
  { kind := fieldAt b 0 1, type := fieldAt b 1 1, flags := fieldAt b 2 1, rsv := fieldAt b 3 1,
    first := fieldAt b 4 4, count := fieldAt b 8 2, a := fieldAt b 10 2, b := fieldAt b 12 2, c := fieldAt b 14 2 }

/-- Numbers and bytes of the objects listed in a configuration between two indices, 128 records to an index. -/
def recordsIn (c : Tbl (List Byte)) (lo hi : Nat) : List (Nat × List Byte) :=
  c.filterMap (fun e =>
    let idx := e.1 / 256
    if lo ≤ idx && idx ≤ hi && 1 ≤ e.1 % 256 && e.1 % 256 ≤ 128 then some (128 * (idx - lo) + e.1 % 256 - 1, e.2)
    else none)

/-- The mapping records in use, by record number (R159). -/
def mapRecsOf (c : Tbl (List Byte)) : List (Nat × MapRec) :=
  (recordsIn c 0x2900 0x291F).filterMap (fun e => let m := mapRecOf e.2; if m.kind = 0 then none else some (e.1, m))

def mapRecs (s : State) : List (Nat × MapRec) := mapRecsOf s.config

/-- The producer record of a point among records (R160). -/
def producerIn (rs : List (Nat × MapRec)) (p : Nat) : Option (Nat × MapRec) :=
  rs.find? (fun e => !e.2.isOut && e.2.covers p)
/-- An output record that names a point. -/
def outputIn (rs : List (Nat × MapRec)) (p : Nat) : Option (Nat × MapRec) :=
  rs.find? (fun e => e.2.isOut && e.2.covers p)

/-- A binding record in use (Table 7.7): kind, slot, target. -/
structure BindRec where
  kind : Nat
  source : Nat
  target : Nat
  deriving DecidableEq, Repr

/-- The binding records in use. -/
def bindRecsOf (c : Tbl (List Byte)) : List (Nat × BindRec) :=
  (recordsIn c 0x2A00 0x2A03).filterMap (fun e =>
    let k := fieldAt e.2 0 1
    if k = 0 then none else some (e.1, ⟨k, fieldAt e.2 2 2, fieldAt e.2 4 2⟩))

/-- `SC_CLOSE_DO` of an instance names the channel (12 R291). -/
def syncClose (s : State) (ch : Nat) : Bool := [0, 1].any (fun i => cfgNat s (0x38C0 + i) 3 == ch)

/-- The producer record of a point is a LOOP record (R160). -/
def engineMade (rs : List (Nat × MapRec)) (p : Nat) : Bool :=
  match producerIn rs p with
  | some (_, m) => m.kind == 4
  | none => false

/-- A loop is configured (09 R199). -/
def loopConfigured (s : State) (n : Nat) : Bool := cfgNat s (0x4000 + n) 1 != 0

/-- The producer record of a point is a LOOP record of a loop that is not configured (09 R199, R220). -/
def loopGone (s : State) (p : Nat) : Bool :=
  match producerIn (mapRecs s) p with
  | some (_, m) => m.kind == 4 && !loopConfigured s m.a
  | none => false

/-- A node-table record. -/
structure NodeRec where
  node : Nat
  classes : Nat
  counts : List Nat
  deriving DecidableEq, Repr

def nodeRecOf (b : List Byte) : NodeRec :=
  ⟨fieldAt b 0 2, fieldAt b 2 1, (List.range 6).map (fun i => fieldAt b (4 + 2 * i) 2)⟩

/-- The node-table records in use, by record number. -/
def nodeRecsOf (c : Tbl (List Byte)) : List (Nat × NodeRec) :=
  (recordsIn c 0x1900 0x190F).filterMap (fun e =>
    let r := nodeRecOf e.2; if r.node = 0 then none else some (e.1, r))

def nodeRecs (s : State) : List (Nat × NodeRec) := nodeRecsOf s.config

def nodeRec (s : State) (k : Nat) : NodeRec := nodeRecOf (cfgBytes s (0x1900 + k / 128) (k % 128 + 1))

def canMode (s : State) (p : Nat) : Nat := cfgNat s (0x3600 + p) 1
def canFlags (s : State) (p : Nat) : Nat := cfgNat s (0x3600 + p) 4

/-- A buffer record (Table 15.4). -/
structure BufRec where
  kind : Nat
  flags : Nat
  depth : Nat
  task : Nat
  id : Nat
  mask : Nat
  trigger : Nat
  length : Nat
  param : Nat
  deriving DecidableEq, Repr

def bufRecOf (b : List Byte) : BufRec :=
  ⟨fieldAt b 0 1, fieldAt b 1 1, fieldAt b 2 1, fieldAt b 3 1, fieldAt b 4 4, fieldAt b 8 4, fieldAt b 12 1,
    fieldAt b 13 1, fieldAt b 14 2⟩

/-- Record of buffer b: sub 0x20 + i holds buffers 2(i − 1) and 2i − 1 (Table 15.7). -/
def bufRec (s : State) (p b : Nat) : BufRec :=
  bufRecOf ((cfgBytes s (0x3600 + p) (0x21 + b / 2)).drop (16 * (b % 2)))

/-- Class bits: F 0, M 1, S 2. -/
def NodeRec.has (r : NodeRec) (cls : Nat) : Bool := 1 ≤ cls && cls ≤ 3 && bitOf r.classes (cls - 1)

/-- The owner of a CAN buffer (15 R364). -/
def bufOwner (s : State) (p b : Nat) : Owner := if (bufRec s p b).kind = 0 ∨ canMode s p = 0 then .none else .forme

/-- The owner that a point of a remote node and class shows: NONE where the node table does not cover it (05 R116). -/
def remoteOwner (s : State) (node cls : Nat) : Owner :=
  if (nodeRecs s).any (fun e => e.2.node == node && e.2.has cls) then .forme else .none

/-- The owner of a DIO channel (12 R291). -/
def dioOwner (s : State) (ch : Nat) : Owner :=
  if cfgNat s (0x3000 + ch) 1 = 0 then .none else if syncClose s ch then .synchro else .forme

/-- The output record of a resource, if any: kind, A as first channel, item B. -/
def outRecFor (s : State) (kind ch b : Nat) : Option (Nat × MapRec) :=
  (mapRecs s).find? (fun e => e.2.isOut && e.2.kind == kind && e.2.a ≤ ch &&
    ch < e.2.a + (if kind = 1 ∨ kind = 2 then e.2.count else 1) && e.2.b == b)

/-- The point an output record drives a channel from. -/
def outPointFor (s : State) (kind ch b : Nat) : Option (Nat × MapRec) :=
  (outRecFor s kind ch b).map (fun e => (e.2.first + (ch - e.2.a), e.2))

/-- The owner of an AIO channel (13 R308). -/
def aioOwner (s : State) (ch : Nat) : Owner :=
  let m := cfgNat s (0x3200 + ch) 1
  if m = 0 then .none
  else if m ≤ 2 then .forme
  else match outPointFor s 2 ch 0 with
    | none => .none
    | some (p, _) => if loopGone s p then .none else if engineMade (mapRecs s) p then .engine else .forme

/-- The owner of an axis (14 R330). -/
def axisOwner (s : State) (n : Nat) : Owner := if cfgNat s (0x3400 + n) 1 = 0 then .none else .motion

/-- The producer of a point: the owner Table 7.4 gives its producer record, FORME for a point that only output records
name (R160), NONE for an unmapped one. -/
def producerOwner (s : State) (p : Nat) : Owner :=
  match producerIn (mapRecs s) p with
  | some (_, m) =>
    match m.kind with
    | 1 => dioOwner s (m.a + (p - m.first))
    | 2 => aioOwner s (m.a + (p - m.first))
    | 3 => axisOwner s m.a
    | 4 => if loopConfigured s m.a then .engine else .none
    | 5 => remoteOwner s m.a m.b
    | 6 => bufOwner s (m.a / 4096) (m.a % 4096)
    | 8 => if cfgNat s (0x3800 + m.a) 1 = 0 then .none else .cadence
    | 9 => .safety
    | _ => .forme
  | none => if (outputIn (mapRecs s) p).isSome then .forme else .none

/-- FORME produces a point: a FORME or SAFETY_REQUEST record does, or it is named by output records only (R160, Table 7.4). -/
def formeMade (rs : List (Nat × MapRec)) (p : Nat) : Bool :=
  match producerIn rs p with
  | some (_, m) => m.kind == 7 || m.kind == 10
  | none => (outputIn rs p).isSome

/-- The points produced from a resource: kind, resource number, item. -/
def inPoints (s : State) (kind n b : Nat) : List Nat :=
  (mapRecs s).filterMap (fun e =>
    if !e.2.isOut && e.2.kind == kind && e.2.a ≤ n && n < e.2.a + e.2.count && e.2.b == b
    then some (e.2.first + (n - e.2.a)) else none)

/-- A point is mapped (R155). -/
def isMapped (s : State) (p : Nat) : Bool := (mapRecs s).any (fun e => e.2.covers p)

/-- TYPE of a point, 0x00 unmapped (Table 7.1). -/
def pointType (s : State) (p : Nat) : Nat :=
  match producerIn (mapRecs s) p, outputIn (mapRecs s) p with
  | some (_, m), _ => m.type
  | none, some (_, m) => m.type
  | none, none => 0

/-- What a mapped point carries before its producer first writes it (R155). -/
def ptUnset : Pt := { qual := 0x46 }

/-- The underlying entry of a point, behind any force (R155, R168). -/
def underlying (s : State) (p : Nat) : Pt :=
  if isMapped s p then Tbl.get s.img.points ptUnset p else { qual := 0x45 }

/-- The force on a point. -/
def forceOf (s : State) (p : Nat) : Option Force := s.img.forces.find? (fun f => f.point == p)

/-- What every reader sees (R168). -/
def readPoint (s : State) (p : Nat) : Pt :=
  match forceOf s p with
  | some f => { value := f.value, qual := 0x01, ts := f.ts }
  | none => underlying s p

/-- The code a point carries when several conditions apply, forcing apart (R158). -/
def rankQual (qs : List Nat) : Nat :=
  let lowest (l : List Nat) : Option Nat := match l with
    | [] => none
    | q :: r => some (r.foldl min q)
  if qs.contains 0x45 then 0x45 else if qs.contains 0x43 then 0x43 else if qs.contains 0x44 then 0x44
  else if qs.contains 0x42 then 0x42
  else match lowest (qs.filter (fun q => 0x40 ≤ q)) with
    | some q => q
    | none => match lowest (qs.filter (fun q => 0x10 ≤ q)) with
      | some q => q
      | none => 0

/-- BAD is bit 6 of a quality (R157). -/
def isBad (q : Nat) : Bool := bitOf q 6

/-- A mapped point's entry changes now; what it was is kept until the next engine tick (R12). -/
def landPoint (p : Nat) (x : Pt) (s : State) : State :=
  { s with img := { s.img with
    points := Tbl.put s.img.points ptUnset p x
    landed := s.img.landed ++ [⟨p, Tbl.get s.img.points ptUnset p, x, localNow s⟩] } }

/-- A value as a point's TYPE encodes it: a BOOL is bit 0, the other bits zero (Table 7.1). -/
def typedValue (s : State) (p : Nat) (v : BitVec 32) : BitVec 32 := if pointType s p = 1 then v &&& 1 else v

/-- A production of a point, its stamp being what it is (remote stations, R131). -/
def produceAs (p : Nat) (v : BitVec 32) (q : Nat) (ts : Int) (s : State) : State :=
  if isMapped s p then landPoint p ⟨typedValue s p v, q, ts⟩ s else s

/-- A quality under a stamp taken while SLEWING: GOOD, and only GOOD, becomes UNCERTAIN_SLEWING (R131, R158). -/
def slewQual (slew : Bool) (q : Nat) : Nat := if q = 0 && slew then 0x10 else q

/-- A production stamped by this module now (R131). -/
def produce (p : Nat) (v : BitVec 32) (q : Nat) (ts : Int) (s : State) : State :=
  produceAs p v (slewQual (slewing s) q) ts s

/-- SPLIT is latched (10 R224). -/
def isSplit (s : State) : Bool := s.pwr.boot == 2

/-- A request point of a module in SPLIT (10 R226). -/
def splitRequest (s : State) (p : Nat) : Bool :=
  isSplit s && (mapRecs s).any (fun e => e.2.kind == 10 && e.2.covers p)

/-- One production by FORME; a request point of a module in SPLIT stays at value 0 and BAD_NOT_OWNED (10 R226). -/
def produceForme (p : Nat) (v : BitVec 32) (ts : Int) (s : State) : State :=
  if splitRequest s p then produceAs p 0 0x45 ts s else produce p v 0 ts s

/-- One production of every point of a list, its quality already under R131. -/
def produceAllAs (ps : List Nat) (v : BitVec 32) (q : Nat) (ts : Int) (s : State) : State :=
  ps.foldl (fun s p => produceAs p v q ts s) s

/-- One production of every point of a list. -/
def produceAll (ps : List Nat) (v : BitVec 32) (q : Nat) (ts : Int) (s : State) : State :=
  ps.foldl (fun s p => produce p v q ts s) s

/-- A quality the module decides itself, stamped now; the value is kept (R464). -/
def decideQual (ps : List Nat) (q : Nat) (s : State) : State :=
  ps.foldl (fun s p => produce p (underlying s p).value q (localNow s) s) s

/-- The value released for a point: a force counts as released (R168). -/
def releasedOf (s : State) (p : Nat) : Option (BitVec 32) :=
  match forceOf s p with
  | some f => some f.value
  | none => Tbl.find s.prog.released p

/-- A value is released for a point (R14). -/
def releasePoint (p : Nat) (v : BitVec 32) (s : State) : State :=
  { s with prog := { s.prog with released := Tbl.insert s.prog.released p (typedValue s p v) } }

/-- An output record's consumer takes its safe state or zero in the present mode (08 Table 8.7, R190): FORME-produced
outputs in STOP, HOLD_UNSAFE outputs in HOLD; every output after the spare pool ran out (01 R19). -/
def outHeldSafe (s : State) (m : MapRec) (p : Nat) : Bool :=
  match s.prog.mode with
  | .run => false
  | .hold => m.holdUnsafe
  | .stop => s.sram.empty || !engineMade (mapRecs s) p

/-- FLAGS of a point entry (Table 7.1). -/
def pointFlags (s : State) (p : Nat) : Nat :=
  let outs := (mapRecs s).filter (fun e => e.2.isOut && e.2.covers p)
  flagWord [(0, (forceOf s p).isSome), (1, !outs.isEmpty), (2, outs.any (fun e => e.2.holdUnsafe))]

/-- The 16-byte entry of a point (R154). -/
def pointEntry (s : State) (p : Nat) : List Byte :=
  let v := readPoint s p
  leBytes 4 v.value.toNat ++ leBytes 1 v.qual ++ leBytes 1 (producerOwner s p).code
    ++ leBytes 1 (pointType s p) ++ leBytes 1 (pointFlags s p) ++ leInt 8 v.ts

/-- `MAPPED_POINTS`: points with a producer (Table 7.9). -/
def mappedPoints (s : State) : Nat :=
  ((mapRecs s).flatMap (fun e => e.2.points)).eraseDups.length

/-- `FORCE_LIST` (Table 7.9). -/
def forceList (s : State) : List Byte :=
  ((s.img.forces.flatMap (fun (f : Force) => leBytes 4 f.point)) ++ List.replicate 1024 0).take 1024

/-- Release of a force, recorded (R168, R169). -/
def dropForce (p variant : Nat) (s : State) : State :=
  if (forceOf s p).isSome then
    emit (0xD000 + variant) 0 (leBytes 4 p)
      { s with img := { s.img with forces := s.img.forces.filter (fun f => f.point != p) } }
  else s

/-- What produces a point, with its type: the resource and item of its record, or FORME (R160, Table 7.4). -/
def madeBy (rs : List (Nat × MapRec)) (p : Nat) : List Nat :=
  match producerIn rs p, outputIn rs p with
  | some (_, m), _ => match m.kind with
    | 1 | 2 | 9 => [m.kind, m.type, m.a + (p - m.first)]
    | 7 | 10 => [7, m.type]
    | k => [k, m.type, m.a, m.b, m.c]
  | none, some (_, m) => [7, m.type]
  | none, none => []

/-- The points whose producer a change of mapping takes away, gives or replaces (R161, R169): productions at the
boundary, and forces released from points left unmapped. -/
def applyMapping (old : List (Nat × MapRec)) (s : State) : State :=
  let new := mapRecs s
  let touched := ((old ++ new).filter (fun e => !(old.contains e && new.contains e))).flatMap (fun e => e.2.points)
  let s := touched.eraseDups.foldl (fun s p =>
    let was := (old.find? (fun e => e.2.covers p)).isSome
    let now := (new.find? (fun e => e.2.covers p)).isSome
    let same := madeBy old p == madeBy new p
    if !now then
      dropForce p 2 { s with img := { s.img with points := Tbl.erase s.img.points p
                                                 landed := s.img.landed.filter (fun e => e.point != p) }
                             prog := { s.prog with released := Tbl.erase s.prog.released p } }
    else if !was || !same then
      landPoint p { qual := 0x46, ts := localNow s } { s with prog := { s.prog with released := Tbl.erase s.prog.released p } }
    else s) s
  s

/-! ### Landings in a pair (16 R396) -/

/-- The image takes landings of this unit's own chips: it is not a standby (16 R396). -/
def landsOwn (s : State) : Bool := !isStandby s

/-- A landing is kept for the next INPUT record (16 Table 16.4). -/
def noteLanding (l : Landing) (s : State) : State :=
  match s.pair.state with
  | .active | .activeAlone => { s with pair := { s.pair with landings := s.pair.landings ++ [l] } }
  | _ => s


end Sys2Proof.Machine
end

