-- ==== Sys2Proof/Machine/Operands.lean ====
section
/-! DEFINITION. The operands of requests: the DA message and its tag, the object a READ or WRITE names with its data,
and the checks of Table 4.16 in their order (04 R461). -/

namespace Sys2Proof.Machine

/-! ### Services and roles -/

abbrev svcOpen : Nat := 0x01
abbrev svcAuth : Nat := 0x02
abbrev svcClose : Nat := 0x03
abbrev svcRead : Nat := 0x10
abbrev svcWrite : Nat := 0x11
abbrev svcTxnBegin : Nat := 0x20
abbrev svcTxnAbort : Nat := 0x21
abbrev svcKeepalive : Nat := 0x3F

abbrev roleObserver : Nat := 1
abbrev roleOperator : Nat := 2
abbrev roleEngineer : Nat := 3
abbrev roleMaintainer : Nat := 4
abbrev roleSafety : Nat := 5

/-- What a request is answered with: an abort, or the response body. -/
abbrev Answer := Except Abort (List Byte)

/-! ### Messages (Table 4.4) -/

/-- The 12 header bytes of a message. -/
def msgHeader (service flags session rsv3 seq len rsv10 : Nat) : List Byte :=
  leBytes 1 service ++ leBytes 1 flags ++ leBytes 1 session ++ leBytes 1 rsv3 ++ leBytes 4 seq ++ leBytes 2 len
    ++ leBytes 2 rsv10

/-- The header bytes of a request as they were received. -/
def requestHeader (h : Hdr) (service len : Nat) : List Byte :=
  msgHeader (h.service.getD service) h.flags h.session h.rsv3 h.seq len h.rsv10

/-- The tag of a message under a session key (R80). -/
def msgTag (ks hdr body : List Byte) : List Byte := (hmacSha256 ks (hdr ++ body)).take 16

/-- The fields of Table 4.5 before the data of a READ or WRITE. -/
def objFields (idx sub ty off len : Nat) : List Byte :=
  leBytes 2 idx ++ leBytes 1 sub ++ leBytes 1 ty ++ leBytes 4 off ++ leBytes 2 len ++ [0, 0]

/-- The tag of a request verifies, with nothing beyond it on SVC (R81). -/
def tagOk (ses : Session) (h : Hdr) (service : Nat) (body : List Byte) : Bool :=
  !ses.tagged ||
    ((h.tail.take 16 == msgTag ses.ks (requestHeader h service body.length) body)
      && 16 ≤ h.tail.length && (decide (h.path = .ring) || h.tail.length == 16))

/-- The response to a request of a session, as `ses` stood when it was taken (R76, R81). -/
def answerMsg (ses : Session) (h : Hdr) (service : Nat) (a : Answer) : Sent :=
  let (ab, body) := match a with
    | .ok b => (false, b)
    | .error e => (true, e.body)
  let hdr := msgHeader service (if ab then 3 else 1) h.session 0 h.seq body.length 0
  .response h.path h.peer h.session service ab h.seq body (if ses.tagged then msgTag ses.ks hdr body else []) none

/-! ### Leases (R84 to R86) -/

/-- A lease still holds: its time has not run out, or a pending change keeps it. -/
def leaseHolds (s : State) (l : Lease) : Bool :=
  decide (s.now < l.until_) || s.sess.kept.contains (l.area, l.holder)

/-- The lease held on an area. -/
def leaseOf (s : State) (area : Nat) : Option Lease :=
  s.sess.leases.find? (fun l => l.area == area && leaseHolds s l)

/-- Remaining ms of a lease. -/
def leaseMs (s : State) (l : Lease) : Nat := (l.until_ - s.now) / msNs

/-- The detail of abort number 0x0002 of class 0x06 (Table 4.14). -/
def leaseDetail (s : State) (l : Lease) : Nat := l.holder + 256 * (leaseMs s l % 2 ^ 24)

/-- The lease check of Table 4.16, step 13. -/
def leaseCheck (s : State) (ses area : Nat) (idx sub : Nat) : Option Abort :=
  match leaseOf s area with
  | none => some ⟨6, subsysOf area, 1, idx, sub, 0⟩
  | some l => if l.holder = ses then none else some ⟨6, subsysOf area, 2, idx, sub, leaseDetail s l⟩

/-- A lease ends: an open transaction with writes staged to its area is marked (R86). -/
def endLease (area : Nat) (s : State) : State :=
  match s.sess.leases.find? (fun l => l.area == area) with
  | none => s
  | some l =>
    let s := modSession l.holder (fun ses =>
      match ses.txn with
      | some t =>
        if t.writes.any (fun w => ((areaOf (w.key / 256)).map Prod.fst) == some area) && !t.lostAreas.contains area
        then { ses with txn := some { t with lostAreas := area :: t.lostAreas } } else ses
      | none => ses) s
    { s with sess := { s.sess with leases := s.sess.leases.filter (fun l => l.area != area) } }

/-- Expired leases that nothing keeps leave the table. -/
def pruneLeases (s : State) : State :=
  forAll ((s.sess.leases.filter (fun l => !leaseHolds s l)).map Lease.area) endLease s

/-- The leases a pending change kept alive are let go (R86). -/
def releaseKept (s : State) : State := pruneLeases { s with sess := { s.sess with kept := [], change := none } }

/-! ### Closing (R78, R89, R92) -/

/-- A session closes with a cause: its leases end but for those a pending change keeps, and its transaction goes. -/
def closeSession (n cause : Nat) (s : State) : State :=
  let areas := (s.sess.leases.filter (fun l => l.holder == n)).map Lease.area
  let keep := fun a => s.sess.kept.contains (a, n)
  let s := forAll (areas.filter (fun a => !keep a)) endLease s
  let s := { s with sess := { s.sess with
    leases := s.sess.leases.map (fun (l : Lease) => if l.holder == n then { l with holder := 0xFF, until_ := 0 } else l)
    kept := s.sess.kept.map (fun (k : Nat × Nat) => if k.2 == n then (k.1, 0xFF) else k) } }
  { s with sess := { s.sess with sessions := Tbl.put s.sess.sessions {} n { closeCause := cause } } }

/-! ### Taking a request (Table 4.16, steps 2 to 4) -/

/-- The message-level abort for a session that is not ACTIVE. -/
def notActive : Abort := ⟨3, 0, 7, 0, 0, 0⟩

/-- The message-level abort for a service code outside Table 4.5 (R76). -/
def noService (code : Nat) : Abort := ⟨1, 0, 7, 0, 0, code⟩

/-- A message waits for the one before it (R77). -/
def await (m : Msg) (s : State) : State := { s with sess := { s.sess with waiting := s.sess.waiting ++ [m] } }

/-- A request has been processed: its sequence and its response are kept, and the response leaves (R81). -/
def answerDone (ses : Session) (h : Hdr) (service : Nat) (a : Answer) (s : State) : State :=
  let m := answerMsg ses h service a
  send m (if (getSession s h.session).state = 2 then
    modSession h.session (fun x => { x with lastSeq := h.seq, stored := some m }) s else s)

/-- A served request is answered, or its answer waits with the FORCE it invoked (R81; 07 R166). -/
def answerOrWait (ses : Session) (h : Hdr) (service : Nat) (a : Answer) (s : State) : State :=
  match s.sess.force with
  | some r => { s with sess := { s.sess with force := some { r with hdr := h } } }
  | none => answerDone ses h service a s

/-- A request of an ACTIVE session passes steps 1 to 4, is served by `f`, and is answered (R81), or its answer waits with
the FORCE it invoked (07 R166). The response keeps the key the session had when the request was taken. A validly tagged
request restarts the idle time even where its sequence is refused, and an untagged session's sequences follow the same
rules (log entry 73). -/
def serve (h : Hdr) (service : Nat) (body : List Byte) (f : Nat → State → Answer × State) (s : State) : State :=
  let n := h.session
  let ses := getSession s n
  if !answers s h.path then s
  else if s.sess.force.isSome then await (.request h service body) s
  else if h.service.isSome then send (answerMsg (if n < 8 ∧ ses.state = 2 then ses else {}) h (h.service.getD service) (.error (noService (h.service.getD service)))) s
  else if !(n < 8) || ses.state ≠ 2 then send (answerMsg {} h service (.error notActive)) s
  else if !tagOk ses h service body then
    let s := modSession n (fun x => { x with badTags := x.badTags + 1 }) s
    if ses.badTags + 1 ≥ 16 then
      emit 0xB003 (0xA000 + n) (leBytes 1 ses.path ++ leBytes 2 ses.peer) (closeSession n 5 s) else s
  else
    let s := modSession n (fun x => { x with lastValid := s.now }) s
    if h.seq = ses.lastSeq ∧ ses.stored.isSome then
      match ses.stored with
      | some m => send m s
      | none => s
    else if h.seq ≠ (ses.lastSeq + 1) % 2 ^ 32 then
      send (answerMsg ses h service (.error ⟨5, 0x10, 4, 0, 0, (ses.lastSeq + 1) % 2 ^ 32⟩)) s
    else
      answerOrWait ses h service (f n s).1 (f n s).2

/-! ### Objects a request names (Table 4.16, steps 5 to 8) -/

/-- Index and sub-index exist: the row of the object. -/
def findRow (idx sub : Nat) : Except Abort ObjRow :=
  match areaOf idx, familyOf idx with
  | some _, some _ =>
    match objRow idx sub with
    | some r => .ok r
    | none => .error (abortAt 1 4 idx sub)
  | _, _ => .error (abortAt 1 3 idx sub)

/-- The objects of Table 17.10 that a host can write (17 R427). -/
def provisioned (idx sub : Nat) : Bool :=
  (0x1200 ≤ idx && idx ≤ 0x120F && sub == 5) ||
    (idx == 0xB000 && (sub == 7 || sub == 8 || (0x20 ≤ sub && sub ≤ 0x23)))

/-- A presence window is open (17 R427). -/
def presenceOpen (s : State) : Bool :=
  match s.sess.presence with
  | some t => decide (s.now < t)
  | none => false

/-- A configuration right of Table 4.8 for an area, by its first index. -/
def cfgRight (role area : Nat) : Bool :=
  if area = 0x1000 ∨ area = 0xB000 ∨ area = 0xC400 then role == roleMaintainer
  else if area = 0x6000 then role == roleSafety
  else if (0x1800 ≤ area ∧ area ≤ 0x5000) ∨ area = 0xA000 then role == roleEngineer || role == roleSafety
  else false

/-- The roles a command object takes, by index and first byte (Table 4.8, Table 4.12). -/
def cmdRight (role idx op : Nat) : Bool :=
  match idx with
  | 0xF001 => if op = 0 ∨ op = 1 then roleOperator ≤ role else role == roleEngineer || role == roleSafety
  | 0xF002 | 0xF004 | 0xF009 => role == roleEngineer || role == roleSafety
  | 0xF005 => true
  | 0xF007 => if op = 2 ∨ op = 3 then role == roleSafety else roleEngineer ≤ role
  | 0xF008 => roleOperator ≤ role
  | _ => role == roleMaintainer

/-- An object is a command's ARGS (Table 4.11). -/
def isArgs (idx sub : Nat) : Bool := 0xF001 ≤ idx && idx ≤ 0xF00B && sub == 1

/-- An object written at once whatever transaction is open: the bulk buffer and the keys. -/
def alwaysDirect (idx sub : Nat) : Bool := idx == 0xF000 || isArgs idx sub ||
  (0x1200 ≤ idx && idx ≤ 0x120F && sub == 5) || (idx == 0xB000 && 0x20 ≤ sub && sub ≤ 0x23)

/-- The right to write an object (R83, Table 4.8). -/
def writeRight (role idx sub : Nat) (r : ObjRow) (data : List Byte) : Bool :=
  if isArgs idx sub then cmdRight role idx (fieldAt data 0 1)
  else if alwaysDirect idx sub then
    if idx = 0xF000 then roleOperator ≤ role else role == roleMaintainer
  else if r.direct then roleOperator ≤ role
  else if r.acc = .rws then role == roleSafety
  else cfgRight role (((areaOf idx).map Prod.fst).getD 0)

/-- The areas whose lease a write needs (R84, Table 4.12). -/
def leaseAreas (idx sub : Nat) (data : List Byte) : List Nat :=
  if isArgs idx sub then
    match idx with
    | 0xF001 => if fieldAt data 0 1 = 0 then [] else [0x2400]
    | 0xF002 => [0x2400, 0xF000]
    | 0xF003 => match fieldAt data 0 1 with
      | 1 => [0x3000]
      | 2 => [0x3200]
      | 3 => [0x3400]
      | 4 => [0x3000]
      | _ => []
    | 0xF004 => [0x2200]
    | 0xF006 => [0x5000]
    | 0xF009 => [0x2800]
    | 0xF00A => [0x2000]
    | 0xF00B => [0xB000, 0xF000]
    | _ => []
  else ((areaOf idx).map Prod.fst).toList

/-- The subsystem byte of an abort about a write: a command's is that of the area it acts on, 0xF0 where it names no one
area (R75). -/
def writeSubsys (idx sub : Nat) (data : List Byte) : Nat :=
  if !isArgs idx sub then subsysOf idx
  else match idx with
    | 0xF001 | 0xF002 => 0x24
    | 0xF003 => ((leaseAreas idx sub data).head?.map subsysOf).getD 0xF0
    | 0xF004 => 0x22
    | 0xF005 => 0xA0
    | 0xF006 => 0x50
    | 0xF008 => if areaMap.any (fun r => r.1 == fieldAt data 2 2) then subsysOf (fieldAt data 2 2) else 0xF0
    | 0xF009 => 0x28
    | 0xF00A => 0x20
    | 0xF00B => 0xB0
    | _ => 0xF0

/-- The range of an entry of `REC_RATE_TABLE` (17 R416, Table 17.11). -/
def rateCheck (c : Nat) (b : List Byte) : Option (Nat × Nat) :=
  let burst := fieldAt b 0 1
  let t := fieldAt b 2 2
  if 64 < burst then some (2, 64) else if burst < 1 then some (3, 1)
  else if 1 ≤ c ∧ c ≤ 0x1F ∧ burst < 32 then some (3, 32)
  else if 600 < t then some (2, 600) else if t < 1 then some (3, 1) else none

/-- The ranges of a trim (13 Table 13.10): o_u within 0.5 mA, g_u within 0.02. -/
def trimCheck (b : List Byte) : Option (Nat × Nat) :=
  match rngCheck (.real 0xBF000000 0x3F000000) (fieldAt b 0 4) with
  | some e => some e
  | none => rngCheck (.real 0xBCA3D70A 0x3CA3D70A) (fieldAt b 4 4)

/-- Range and allowed values of a whole object (Table 4.16, step 17): class 0x02 number and detail. -/
def valueCheck (idx sub : Nat) (r : ObjRow) (data : List Byte) : Option (Nat × Nat) :=
  if idx = 0xA000 ∧ sub = 4 then
    (List.range 256).findSome? (fun c => rateCheck c ((data.drop (4 * c)).take 4))
  else if idx = 0xC400 ∧ 1 ≤ sub then trimCheck data
  else if r.ty = 1 ∧ 1 < leVal data then some (1, 0)
  else rngCheck r.rng (leVal data)

/-- A session is an enrolment session and may write the object directly (17 R429). -/
def enrolWrite (ses : Session) (idx sub : Nat) : Bool :=
  ses.enrol && idx == 0x1200 + ses.slot && (sub == 1 || sub == 2 || sub == 5)

/-- The length an object's transfer takes: the buffer's size for `BULK_DATA` (R72, R94). -/
def objLen (s : State) (idx sub : Nat) (r : ObjRow) : Nat :=
  if idx = 0xF000 ∧ sub = 1 then s.sess.bulkLen else r.len

/-- Transferred by offset (R72). -/
def byOffset (idx sub : Nat) (r : ObjRow) : Bool := r.parted || (idx == 0xF000 && sub == 1)

/-- The checks of a WRITE, steps 5 to 17 of Table 4.16. An RWS object outside a transaction is refused with the class
Table 4.2 gives it. A WRITE of no bytes to an object transferred in parts has a wrong length (log entry 73). -/
def checkWrite (s : State) (n idx sub ty off : Nat) (data : List Byte) : Except Abort ObjRow :=
  let ses := getSession s n
  match findRow idx sub with
  | .error a => .error a
  | .ok r =>
    let enr := enrolWrite ses idx sub
    if provisioned idx sub && ses.path ≠ 2 then .error ⟨1, 0x10, 6, idx, sub, 0⟩
    else if r.acc = .const ∨ r.acc = .ro then .error (abortAt 1 1 idx sub)
    else if ses.enrol && !enr then .error ⟨1, 0x10, 5, idx, sub, ses.role⟩
    else if !enr && !writeRight ses.role idx sub r data then .error ⟨1, writeSubsys idx sub data, 5, idx, sub, ses.role⟩
    else if provisioned idx sub && !presenceOpen s then .error ⟨5, 0x10, 6, idx, sub, 0⟩
    else if r.acc = .rws ∧ isSplit s then .error ⟨7, 0x60, 3, idx, sub, 0⟩
    else if !enr && ses.txn.isNone && !r.direct && !alwaysDirect idx sub then
      .error (if r.acc = .rws then ⟨7, 0x60, 2, idx, sub, 0⟩ else abortAt 3 3 idx sub)
    else match (if enr then none else (leaseAreas idx sub data).findSome? (fun a => leaseCheck s n a idx sub)) with
      | some a => .error a
      | none =>
        let bad (num d : Nat) : Except Abort ObjRow := .error ⟨2, writeSubsys idx sub data, num, idx, sub, d⟩
        if ty ≠ 0 ∧ ty ≠ r.ty then bad 6 r.ty
        else if byOffset idx sub r then
          if data.length < 1 ∨ 1024 < data.length ∨ objLen s idx sub r < off + data.length then
            bad 5 (objLen s idx sub r) else .ok r
        else if off ≠ 0 ∨ data.length ≠ r.len then bad 5 r.len
        else match rsvDetail idx r data with
          | some d => bad 4 d
          | none => match valueCheck idx sub r data with
            | some (num, d) => bad num d
            | none => .ok r

/-- Bytes of staged data in all open transactions, and the limits of R88. -/
def stagingFull (s : State) (n len : Nat) : Bool :=
  let total := s.sess.sessions.foldl (fun a e => match e.2.txn with
    | some t => a + t.writes.foldl (fun a w => a + w.data.length) 0
    | none => a) 0
  let own := match (getSession s n).txn with
    | some t => t.writes.length
    | none => 0
  4096 ≤ own || 256 * 1024 < total + len

/-- A checked write enters the session's transaction; a preparation it had is undone (R88, R90). -/
def stage (n idx sub off : Nat) (data : List Byte) (s : State) : Answer × State :=
  if stagingFull s n data.length then (.error ⟨4, 0, 4, idx, sub, 0⟩, s)
  else (.ok [], modSession n (fun x => match x.txn with
    | some t => { x with txn := some { t with writes := t.writes ++ [⟨objKey idx sub, off, data⟩], prepared := none } }
    | none => x) s)

/-- A WRITE request: its checks, then staging inside a transaction, or the direct effect `act`. -/
def writeReq (h : Hdr) (idx sub ty off : Nat) (data : List Byte) (act : Nat → State → Answer × State)
    (s : State) : State :=
  serve h svcWrite (objFields idx sub ty off data.length ++ data) (fun n s =>
    let s := pruneLeases s
    match checkWrite s n idx sub ty off data with
    | .error a => (.error a, s)
    | .ok _ =>
      if (getSession s n).txn.isSome && !alwaysDirect idx sub && !enrolWrite (getSession s n) idx sub
      then stage n idx sub off data s
      else act n s) s

/-- The WRITE a command row carries. -/
def cmdReq (c : Cmd) (idx sub : Nat) (fixed : List Byte) (act : List Byte → Nat → State → Answer × State)
    (s : State) : State :=
  let data := fixed ++ c.rest
  writeReq c.hdr idx sub c.ty c.off data (act data) s

end Sys2Proof.Machine
end

