-- ==== Sys2Proof/Machine/Session.lean ====
section
/-! DEFINITION. Sessions, leases, keys and the bulk buffer: OPEN to SLOT_LOCK_EXPIRY, LEASE, BULK_LENGTH, BULK_DATA,
SLOT_KEY, SIGNER_KEY and the presence window (04; 17 R427 to R430). -/

namespace Sys2Proof.Machine

open Host (Outcome)

/-- What every meaning answers. -/
abbrev Out := Outcome State Fault Refusal

/-! ### Timeouts of sessions (R78, Table 4.6) -/

/-- A session whose time has run out: 10 s in OPENING, 60 s without a valid message. -/
def sessionDue (s : State) (n : Nat) : Bool :=
  let x := getSession s n
  (x.state == 1 && decide (x.openedAt + 10 * secNs ≤ s.now)) ||
    (x.state == 2 && decide (x.lastValid + 60 * secNs ≤ s.now))

/-- Every session whose time has run out is closed. -/
def closeDue (s : State) : State :=
  forAll (List.range 8) (fun n s => if sessionDue s n then closeSession n 2 s else s) s

/-- A request of a session, sessions whose time has run out being closed before it. -/
def request (h : Hdr) (service : Nat) (body : List Byte) (f : Nat → State → Answer × State) (s : State) : State :=
  serve h service body f (closeDue s)

/-! ### OPEN and AUTH (R78 to R82, R429) -/

/-- The reply to an OPEN or AUTH: no tag, SEQUENCE 0. -/
def bareReply (path : Path) (peer session service : Nat) (a : Answer) : Sent :=
  answerMsg {} { path := path, peer := peer, session := session } service a

/-- The lowest free session number. -/
def freeSession (s : State) : Option Nat := (List.range 8).find? (fun n => (getSession s n).state == 0)

/-- `SERIAL_NUMBER` (00 Table 0.1). -/
def serialNumber : Nat := 1 + Config.serialRaw % 0xFFFFFFFE

/-- A slot is locked (R80). -/
def slotLocked (s : State) (k : Nat) : Bool :=
  match (getSlot s k).lockedUntil with
  | some t => decide (s.now < t)
  | none => false

/-- The checks of an OPEN in their order: the session it would open, or its refusal. The order among them, and the codes
for a slot, a role or an open Observer session the tables name none for, are the model's (log entry 73). -/
def openCheck (s : State) (path : Path) (peer slot role : Nat) (nonceH : List Byte) : Except Abort Session :=
  let pathBit := match path with
    | .ring => 0
    | .svc => 1
  let base : Session := {
    role := role, slot := slot, path := pathBit + 1, peer := peer, nonceH := nonceH
    openedAt := s.now, lastValid := s.now }
  if nonceH.length ≠ 16 then .error ⟨2, 0, 5, 0, 0, 20⟩
  else if slot = 0xFF then
    if role ≠ roleObserver then .error ⟨2, 0x10, 1, 0, 0, 0⟩
    else if !cfgBool s 0x1000 8 then .error ⟨1, 0x10, 5, 0, 0, role⟩
    else .ok { base with state := 2 }
  else if 16 ≤ slot then .error ⟨2, 0x10, 2, 0, 0, 15⟩
  else if role < 1 ∨ 5 < role then .error ⟨2, 0x10, 1, 0, 0, 0⟩
  else if slotLocked s slot then
    .error ⟨5, 0x10, 2, 0, 0, ((((getSlot s slot).lockedUntil).getD 0) - s.now) / msNs⟩
  else if (getSlot s slot).key.isNone then
    if presenceOpen s && decide (path = .svc) && role == roleMaintainer then .ok { base with state := 1, enrol := true }
    else .error ⟨5, 0x10, 7, 0, 0, 0⟩
  else if !bitOf (cfgNat s (0x1200 + slot) 2) pathBit then .error ⟨1, 0x10, 6, 0, 0, 0⟩
  else if !bitOf (cfgNat s (0x1200 + slot) 1) role then .error ⟨1, 0x10, 5, 0, 0, role⟩
  else .ok { base with state := 1 }

/-- An OPEN: its own checks come before the want of a free session (log entry 73). -/
def openReqState (path : Path) (peer slot role : Nat) (nonceH : List Byte) (s : State) : State :=
  if !answers s path then s
  else if s.sess.force.isSome then await (.openReq path peer slot role nonceH) s
  else
    let s := closeDue s
    match openCheck s path peer slot role nonceH with
    | .error a => send (bareReply path peer 0xFF svcOpen (.error a)) s
    | .ok ses =>
      match freeSession s with
      | none => send (bareReply path peer 0xFF svcOpen (.error ⟨4, 0x10, 3, 0, 0, 0⟩)) s
      | some n =>
        let (f, s) := draw s
        let nonceM := leBytes 16 f
        let s := { s with sess := { s.sess with sessions := Tbl.put s.sess.sessions {} n { ses with nonceM := nonceM } } }
        send (bareReply path peer n svcOpen (.ok (nonceM ++ leBytes 4 serialNumber))) s

/-- OPEN (R78). -/
def execOpenReq (t : Nat) (path : Path) (peer slot role : Nat) (nonceH : List Byte) (s : State) : Out :=
  .next (openReqState path peer slot role nonceH (advance t s))

/-- The key a session authenticates with: the slot's, or 32 zero bytes for an enrolment session (R429). -/
def sessionKey (s : State) (ses : Session) : List Byte :=
  if ses.enrol then List.replicate 32 0 else ((getSlot s ses.slot).key).getD []

/-- The labels of R80. -/
def labelPXAH : List Byte := [0x50, 0x58, 0x41, 0x48]
def labelPXAM : List Byte := [0x50, 0x58, 0x41, 0x4D]
def labelPXAS : List Byte := [0x50, 0x58, 0x41, 0x53]
def labelPXKW : List Byte := [0x50, 0x58, 0x4B, 0x57]

/-- Slot, role and serial number as the proofs take them. -/
def proofTail (ses : Session) : List Byte := leBytes 1 ses.slot ++ leBytes 1 ses.role ++ leBytes 4 serialNumber

def hostProof (k : List Byte) (ses : Session) : List Byte :=
  hmacSha256 k (labelPXAH ++ ses.nonceM ++ ses.nonceH ++ proofTail ses)
def moduleProof (k : List Byte) (ses : Session) : List Byte :=
  hmacSha256 k (labelPXAM ++ ses.nonceH ++ ses.nonceM ++ proofTail ses)
def derivedKey (k : List Byte) (ses : Session) : List Byte := hmacSha256 k (labelPXAS ++ ses.nonceH ++ ses.nonceM)

/-- A failed authentication: counted toward the slot lock and recorded (R80). -/
def authFailed (n : Nat) (ses : Session) (path : Path) (peer : Nat) (s : State) : State :=
  let k := ses.slot
  let old := (getSlot s k).failures.filter (fun t => s.now - t < 60 * secNs)
  let count := old.length + 1
  let d := leBytes 1 ses.path ++ leBytes 2 ses.peer
  let s := modSlot k (fun x => { x with failures := s.now :: old }) (closeSession n 3 s)
  let s := emit 0xB001 (0xA010 + k) d s
  let s := if 5 ≤ count then
    emit 0xB002 (0xA010 + k) d (modSlot k (fun x => { x with lockedUntil := some (s.now + 60 * secNs) }) s) else s
  send (bareReply path peer n svcAuth (.error ⟨5, 0x10, 1, 0, 0, count⟩)) s

def authState (path : Path) (peer n : Nat) (proof : List Byte) (s : State) : State :=
  if !answers s path then s
  else if s.sess.force.isSome then await (.auth path peer n proof) s
  else
    let s := closeDue s
    let ses := getSession s n
    if !(n < 8) || ses.state ≠ 1 then send (bareReply path peer n svcAuth (.error notActive)) s
    else
      let k := sessionKey s ses
      if proof = hostProof k ses then
        let s := modSession n (fun x =>
          { x with state := 2, tagged := true, ks := derivedKey k ses, lastValid := s.now }) s
        send (bareReply path peer n svcAuth (.ok (moduleProof k ses))) s
      else authFailed n ses path peer s

/-- AUTH (R80). -/
def execAuth (t : Nat) (path : Path) (peer session : Nat) (proof : List Byte) (s : State) : Out :=
  .next (authState path peer session proof (advance t s))

/-- The refusal of every request an enrolment session may not make (R429). -/
def enrolRefused (s : State) (n : Nat) : Option Abort :=
  let x := getSession s n
  if x.enrol then some ⟨1, 0x10, 5, 0, 0, x.role⟩ else none

def closeState (h : Hdr) (s : State) : State :=
  request h svcClose [] (fun n s => match enrolRefused s n with
    | some a => (.error a, s)
    | none => (.ok [], closeSession n 1 s)) s

/-- CLOSE (R78). -/
def execClose (t : Nat) (h : Hdr) (s : State) : Out := .next (closeState h (advance t s))

/-- The refusal of transactions to an Observer or enrolment session (R79, R429). -/
def txnRefused (s : State) (n : Nat) : Option Abort :=
  let x := getSession s n
  if x.enrol || x.role == roleObserver then some ⟨1, 0x10, 5, 0, 0, x.role⟩ else none

def txnBeginState (h : Hdr) (s : State) : State :=
  request h svcTxnBegin [] (fun n s => match txnRefused s n with
    | some a => (.error a, s)
    | none =>
      if (getSession s n).txn.isSome then (.error ⟨3, 0x10, 4, 0, 0, 0⟩, s)
      else (.ok [], modSession n (fun x => { x with txn := some {} }) s)) s

/-- TXN_BEGIN (R88). -/
def execTxnBegin (t : Nat) (h : Hdr) (s : State) : Out := .next (txnBeginState h (advance t s))

def txnAbortState (h : Hdr) (s : State) : State :=
  request h svcTxnAbort [] (fun n s => match txnRefused s n with
    | some a => (.error a, s)
    | none =>
      if (getSession s n).txn.isNone then (.error ⟨3, 0x10, 3, 0, 0, 0⟩, s)
      else (.ok [], modSession n (fun x => { x with txn := none }) s)) s

/-- TXN_ABORT (R89). -/
def execTxnAbort (t : Nat) (h : Hdr) (s : State) : Out := .next (txnAbortState h (advance t s))

def keepaliveState (h : Hdr) (s : State) : State :=
  request h svcKeepalive [] (fun n s => match enrolRefused s n with
    | some a => (.error a, s)
    | none => (.ok [], s)) s

/-- KEEPALIVE (R78): the request being valid restarts the idle time. -/
def execKeepalive (t : Nat) (h : Hdr) (s : State) : Out := .next (keepaliveState h (advance t s))

/-- SESSION_TIMEOUT (R78). -/
def execSessionTimeout (t : Nat) (n : Fin 8) (s : State) : Out :=
  let s := advance t s
  .next (if (getSession s n).state = 2 ∧ sessionDue s n then closeSession n 2 s else s)

/-- AUTH_TIMEOUT (R78). -/
def execAuthTimeout (t : Nat) (n : Fin 8) (s : State) : Out :=
  let s := advance t s
  .next (if (getSession s n).state = 1 ∧ sessionDue s n then closeSession n 2 s else s)

/-- SLOT_LOCK_EXPIRY (R80). -/
def execSlotLockExpiry (t : Nat) (k : Fin 16) (s : State) : Out :=
  let s := advance t s
  .next (if (getSlot s k).lockedUntil.isSome && !slotLocked s k
    then modSlot k (fun x => { x with lockedUntil := none }) s else s)

/-! ### Command objects (R93, Table 4.11) -/

/-- A command is accepted and runs. -/
def cmdStart (c n : Nat) (s : State) : State := modCmd c (fun _ => { status := 1, result := [], invoker := n }) s

/-- A command is done with its result. -/
def cmdDone (c : Nat) (result : List Byte) (s : State) : State :=
  modCmd c (fun x => { x with status := 2, result := (result ++ List.replicate 16 0).take 16 }) s

/-- A command has failed with an abort. -/
def cmdFail (c : Nat) (a : Abort) (s : State) : State :=
  modCmd c (fun x => { x with status := 3, result := (a.body ++ List.replicate 16 0).take 16 }) s

/-- A command is running (R93). -/
def cmdRunning (s : State) (c : Nat) : Bool := (getCmd s c).status == 1

/-- A synchronous command completed before its response, which carries the immediate result. -/
def cmdNow (c n : Nat) (result : List Byte) (s : State) : Answer × State :=
  (.ok result, cmdDone c result (cmdStart c n s))

/-! ### LEASE (R85) -/

/-- The arguments of Table 4.9 against the live leases: the answer and the new state. An abort about a lease concerns the
area, as step 7 of Table 4.15 shows. DESIGN CHOICE: the spec does not say what an acquire by the session that already holds
the lease does; here it restarts the lease's time like a renewal (log entry 73). -/
def leaseOp (data : List Byte) (n : Nat) (s : State) : Answer × State :=
  let op := fieldAt data 0 1
  let area := fieldAt data 2 2
  let dur := fieldAt data 4 4
  let ss := subsysOf area
  let bad (a : Abort) : Answer × State := (.error a, s)
  if op < 1 ∨ 3 < op then bad ⟨2, writeSubsys 0xF008 1 data, 1, 0xF008, 1, 0⟩
  else if !(areaMap.any (fun r => r.1 == area)) then bad ⟨2, 0xF0, 1, 0xF008, 1, 0⟩
  else if op ≠ 3 ∧ 60000 < dur then bad ⟨2, ss, 2, 0xF008, 1, 60000⟩
  else if op ≠ 3 ∧ dur < 1000 then bad ⟨2, ss, 3, 0xF008, 1, 1000⟩
  else match leaseOf s area with
    | some l =>
      if l.holder ≠ n then
        bad (if op = 1 then ⟨6, ss, 2, area, 0, leaseDetail s l⟩ else ⟨6, ss, 1, area, 0, 0⟩)
      else if op = 3 then cmdNow 8 n (leBytes 4 0) (endLease area s)
      else
        let ls := s.sess.leases.map (fun (x : Lease) => if x.area == area then { x with until_ := s.now + dur * msNs } else x)
        cmdNow 8 n (leBytes 4 dur) { s with sess := { s.sess with leases := ls } }
    | none =>
      if op ≠ 1 then bad ⟨6, ss, 1, area, 0, 0⟩
      else if 16 ≤ s.sess.leases.length then bad ⟨6, ss, 4, area, 0, 0⟩
      else cmdNow 8 n (leBytes 4 dur)
        { s with sess := { s.sess with leases := s.sess.leases ++ [⟨area, n, s.now + dur * msNs⟩] } }

/-- A WRITE request of a row, sessions whose time has run out being closed before it. -/
def rowReq (c : Cmd) (idx sub : Nat) (fixed : List Byte) (act : List Byte → Nat → State → Answer × State)
    (s : State) : State := cmdReq c idx sub fixed act (closeDue s)

/-- LEASE_ACQUIRE (R85). -/
def execLeaseAcquire (t : Nat) (c : Cmd) (s : State) : Out :=
  .next (rowReq c 0xF008 1 [1] leaseOp (advance t s))
/-- LEASE_RENEW (R85). -/
def execLeaseRenew (t : Nat) (c : Cmd) (s : State) : Out :=
  .next (rowReq c 0xF008 1 [2] leaseOp (advance t s))
/-- LEASE_RELEASE (R85). -/
def execLeaseRelease (t : Nat) (c : Cmd) (s : State) : Out :=
  .next (rowReq c 0xF008 1 [3] leaseOp (advance t s))

/-- LEASE_EXPIRY (R86): a lease whose time has run out ends, unless a pending change keeps it. -/
def execLeaseExpiry (t area : Nat) (s : State) : Out :=
  let s := advance t s
  .next (if s.sess.leases.any (fun l => l.area == area && !leaseHolds s l) then endLease area s else s)

/-- PREPARED_TRANSACTION_LAPSE (R90). -/
def execPreparedTransactionLapse (t : Nat) (n : Fin 8) (s : State) : Out :=
  let s := advance t s
  .next (modSession n (fun x => match x.txn with
    | some tx => match tx.prepared with
      | some (_, lapse) => if lapse ≤ s.now then { x with txn := some { tx with prepared := none } } else x
      | none => x
    | none => x) s)

/-! ### Bulk buffer (R94) -/

/-- A direct write is refused as its own checks refuse it, or waits for the commit of its owner's next cycle (R74; log
entry 74). -/
def deferred (idx sub : Nat) (op : List Byte → Nat → State → Answer × State) (data : List Byte) (n : Nat)
    (s : State) : Answer × State :=
  match (op data n s).1 with
  | .error a => (.error a, s)
  | .ok _ => (.ok [], { s with sess := { s.sess with direct := s.sess.direct ++ [{ key := objKey idx sub, data := data, session := n }] } })

/-- Access class of the object with this key (`RW` where none has it). -/
def keyAcc (key : Nat) : Acc := ((objRow (key / 256) (key % 256)).map ObjRow.acc).getD .rw

/-- Objects the module keeps beside the configuration record are direct ones (04 R462). -/
def directKey (k : Nat) : Bool :=
  match objRow (k / 256) (k % 256) with
  | some r => r.direct
  | none => false

/-- A direct value that has taken effect goes with the pair's next record (R462). -/
def passOn (key : Nat) (s : State) : State :=
  { s with sess := { s.sess with passDue := key :: s.sess.passDue.filter (fun k => k != key) } }

/-- `BULK_LENGTH` in effect: the buffer is emptied and has its size. -/
def bulkLengthNow (data : List Byte) (_ : Nat) (s : State) : Answer × State :=
  (.ok [], passOn (objKey 0xF000 2) { s with sess := { s.sess with bulkLen := leVal data, bulk := [] } })

/-- A write of `BULK_LENGTH` (Table 4.13). -/
def bulkLengthOp (data : List Byte) (n : Nat) (s : State) : Answer × State := deferred 0xF000 2 bulkLengthNow data n s

/-- BULK_LENGTH (R94). -/
def execBulkLength (t : Nat) (c : Cmd) (s : State) : Out :=
  .next (rowReq c 0xF000 2 [] bulkLengthOp (advance t s))

/-- Data enters the buffer at its offset. -/
def bulkDataOp (off : Nat) (data : List Byte) (_ : Nat) (s : State) : Answer × State :=
  (.ok [], { s with sess := { s.sess with bulk := Memory.writeN s.sess.bulk off data } })

/-- BULK_DATA (R94). -/
def execBulkData (t : Nat) (c : Cmd) (s : State) : Out :=
  .next (rowReq c 0xF000 1 [] (bulkDataOp c.off) (advance t s))

/-- The bytes the buffer holds. -/
def bulkBytes (s : State) : List Byte := Memory.readN s.sess.bulk 0 s.sess.bulkLen

/-! ### Keys (17 R427 to R430) -/

/-- Bytewise exclusive or. -/
def xorBytes (a b : List Byte) : List Byte := List.zipWith (· ^^^ ·) a b

/-- A value that has taken effect is owed to flash, and to the partner's next record (R462). -/
def owe (key : Nat) (s : State) : State :=
  passOn key { s with sess := { s.sess with flashDue := (key, s.now) :: s.sess.flashDue.filter (fun e => e.1 != key) } }

/-- A write of `SLOT_KEY`: unwrapped, set or cleared, and every other session of the slot closed (R428, R429). The
enrolment session that wrote it closes too, after its answer. -/
def slotKeyOp (k : Nat) (data : List Byte) (n : Nat) (s : State) : Answer × State :=
  let ses := getSession s n
  let key := xorBytes data (hmacSha256 ses.ks (labelPXKW ++ leBytes 1 k))
  let clear := key.all (· == 0)
  let s := modSlot k (fun x => { x with key := if clear then none else some key }) s
  let s := owe (objKey (0x1200 + k) 5) s
  let s := forAll (List.range 8) (fun m s =>
    if m ≠ n ∧ (getSession s m).state ≠ 0 ∧ (getSession s m).slot = k then closeSession m 7 s else s) s
  let s := emit (if clear then 0xB103 else 0xB102) (0xA010 + k) (leBytes 1 k) s
  (.ok [], if ses.enrol then closeSession n 7 s else s)

/-- SLOT_KEY (R428). -/
def execSlotKey (t : Nat) (k : Fin 16) (c : Cmd) (s : State) : Out :=
  .next (rowReq c (0x1200 + k) 5 [] (slotKeyOp k) (advance t s))

/-- A direct value takes effect and is owed to flash (R462). -/
def keepDirect (idx sub : Nat) (data : List Byte) (s : State) : State := owe (objKey idx sub) (setCfg idx sub data s)

/-- A signer key in effect (R430). -/
def signerKeyNow (i : Nat) (data : List Byte) (_ : Nat) (s : State) : Answer × State :=
  (.ok [], emit 0xB104 0 (leBytes 1 i) (keepDirect 0xB000 (0x20 + i) data s))
/-- A write of a signer key (R430). -/
def signerKeyOp (i : Nat) (data : List Byte) (n : Nat) (s : State) : Answer × State :=
  deferred 0xB000 (0x20 + i) (signerKeyNow i) data n s

/-- SIGNER_KEY (R430). -/
def execSignerKey (t : Nat) (i : Fin 4) (c : Cmd) (s : State) : Out :=
  .next (rowReq c 0xB000 (0x20 + i) [] (signerKeyOp i) (advance t s))

/-- PRESENCE_KEY (R427): a press of 0.5 to 5 s opens the window, a longer one is recorded alone. -/
def execPresenceKey (t heldMs : Nat) (s : State) : Out :=
  let s := advance t s
  .next (if !up s then s
    else if 5000 < heldMs then emit 0xB105 0 [] s
    else if 500 ≤ heldMs then
      emit 0xB101 0 [] { s with sess := { s.sess with presence := some (s.now + 120 * secNs) } }
    else s)

/-- PRESENCE_WINDOW_EXPIRY (R427). -/
def execPresenceWindowExpiry (t : Nat) (s : State) : Out :=
  let s := advance t s
  .next (if presenceOpen s then s else { s with sess := { s.sess with presence := none } })

/-- A signature over a message verifies under one of the project signer keys (R430); an all-zero key is empty. -/
def signedByProject (s : State) (msg sig : List Byte) : Bool :=
  [0, 1, 2, 3].any (fun i =>
    let k := cfgBytes s 0xB000 (0x20 + i)
    !(k.all (· == 0)) && ecdsaVerify k msg sig)

/-! ### Kept direct values (R462) -/

/-- Value of a direct object as flash keeps it and records carry it: a slot's key, the buffer's size, or an object's bytes. -/
def flashValue (s : State) (key : Nat) : List Byte :=
  let idx := key / 256
  if idx = 0xF000 then leBytes 4 s.sess.bulkLen
  else if 0x1200 ≤ idx ∧ idx ≤ 0x120F ∧ key % 256 = 5 then ((getSlot s (idx - 0x1200)).key).getD []
  else cfgBytes s idx (key % 256)

/-- Every value owed is written beside the configuration record. -/
def writeFlashDue (s : State) : State :=
  let f := s.sess.flashDue.foldl (fun f e => Tbl.insert f e.1 (flashValue s e.1)) s.sess.flashDirect
  { s with sess := { s.sess with flashDirect := f, flashDue := [] } }

/-- DIRECT_VALUE_FLASH_WRITE (R462). -/
def execDirectValueFlashWrite (t : Nat) (s : State) : Out :=
  let s := advance t s
  .next (if up s then writeFlashDue s else s)

end Sys2Proof.Machine
end

