-- ==== Sys2Proof/Machine/Ring.lean ====
section
/-! DEFINITION. The station ring (05): the switch, process-data sets, drop and rejoin, ring checks and links. -/

namespace Sys2Proof.Machine

/-! ### Addresses (Table 5.1) -/

def macOf (node : Nat) : Nat := 0x02E960000000 + node
abbrev macTb : Nat := 0x03E960000001
abbrev macRm : Nat := 0x03E960000002
abbrev macLd : Nat := 0x03E960000003
abbrev macPdIn : Nat := 0x03E960000010

/-- The frame is addressed to the module. -/
def toModule (s : State) (dst : Nat) : Bool :=
  (nodeAddress s != 0 && dst == macOf (nodeAddress s)) || [macTb, macRm, macLd, macPdIn].contains dst

def otherPort : Port → Port
  | .t1 => .t2
  | .t2 => .t1

/-! ### The switch (R99 to R107) -/

/-- The duplicate-table entry still held for a source and sequence. -/
def dupOf (s : State) (src seq : Nat) : Option DupEntry :=
  s.ring.dups.find? (fun e => e.src == src && e.seq == seq && decide (s.now < e.at_ + 400 * msNs))

/-- A first copy enters the table of 4,096 entries, expired and oldest ones giving way. -/
def noteDup (src seq : Nat) (port : Port) (s : State) : State :=
  let live := s.ring.dups.filter (fun e => s.now < e.at_ + 400 * msNs)
  { s with ring := { s.ring with dups := (⟨src, seq, s.now, port⟩ :: live).take 4096 } }

/-- The copy from T1 that reaches the switch at the 4 ns clock edge of the copy taken from T2 (R99). -/
def sameEdge (s : State) (port : Port) (e : DupEntry) : Bool :=
  decide (port = .t1) && decide (e.port = .t2) && s.now / 4 == e.at_ / 4

def setVerdict (v : Verdict) (s : State) : State := { s with ring := { s.ring with verdict := v } }

/-- The module originated the frame: the source address is its own (Table 5.1). -/
def ownFrame (s : State) (f : Frame) : Bool := nodeAddress s != 0 && f.src == macOf (nodeAddress s)

/-- A frame error is counted at its port (R100). -/
def countFcs (port : Port) (s : State) : State :=
  { s with ring := match port with
    | .t1 => { s.ring with fcsT1 := s.ring.fcsT1 + 1 }
    | .t2 => { s.ring with fcsT2 := s.ring.fcsT2 + 1 } }

/-- A frame is removed, forwarded, consumed or discarded as a duplicate (R99 to R107). The addresses come first, so a
frame of the module's own and a link-delay probe leave the ring even where the FCS fails. Of two copies at one clock edge
that of T1 is the one accepted: it takes the place of the other, which is the discarded one. DESIGN CHOICE: the spec does
not say whether a unicast frame for the module leaves the ring there, as mode H of the standard has it; here every frame
but the module's own and LD frames is forwarded (log entry 85). -/
def frameReceivedState (port : Port) (f : Frame) (s : State) : State :=
  if !(up s && domainOn s 7 && s.pwr.relayOpen) then s
  else if ownFrame s f then setVerdict .removed (if f.fcsOk then s else countFcs port s)
  else if !f.fcsOk then
    let s := countFcs port s
    setVerdict .badFcs (if f.dst = macLd then s else send (.forwarded (otherPort port) f.src f.hsrSeq true) s)
  else
    let s := if f.dst = macLd then s else send (.forwarded (otherPort port) f.src f.hsrSeq false) s
    if !f.hornpipe then setVerdict .forwardedOnly s
    else if f.version ≠ 1 ∨ f.kind < 1 ∨ 5 < f.kind then
      setVerdict .forwardedOnly { s with ring := { s.ring with unknown := s.ring.unknown + 1 } }
    else if !toModule s f.dst then setVerdict .forwardedOnly s
    else if f.dst = macLd then setVerdict .consumed s
    else match dupOf s f.src f.hsrSeq with
      | some e => setVerdict (if sameEdge s port e then .consumed else .duplicate)
          { s with ring := { s.ring with duplicates := s.ring.duplicates + 1 } }
      | none => setVerdict .consumed (noteDup f.src f.hsrSeq port s)

/-- FRAME_RECEIVED (R99). -/
def execFrameReceived (t : Nat) (port : Port) (f : Frame) (s : State) : Out :=
  .next (frameReceivedState port f (advance t s))

/-- DUPLICATE_ENTRY_EXPIRY (R99). -/
def execDuplicateEntryExpiry (t src hsrSeq : Nat) (s : State) : Out :=
  let s := advance t s
  .next { s with ring := { s.ring with dups := s.ring.dups.filter (fun e =>
    !(e.src == src && e.seq == hsrSeq && decide (e.at_ + 400 * msNs ≤ s.now))) } }

/-- SUPERVISION_SEND (R99, R102, R105). -/
def execSupervisionSend (t : Nat) (s : State) : Out :=
  let s := advance t s
  .next (if originatesAll s then send (.supervision s.ring.hsrSeq) s else s)

/-- SUPERVISION_FRAME (R99): the sender's entry of the node table is made or renewed. -/
def execSupervisionFrame (t src : Nat) (s : State) : Out :=
  let s := advance t s
  .next (if up s && domainOn s 7 then
    { s with ring := { s.ring with nodeTable := (src, s.now) :: s.ring.nodeTable.filter (fun e => e.1 != src) } } else s)

/-! ### Node table (Table 5.10) -/

/-- The fastest class of a node. -/
def NodeRec.fastest (r : NodeRec) : Option Nat := [1, 2, 3].find? (fun c => bitOf r.classes (c - 1))

/-- The points of a node and class in one direction, in the order of the record numbers (07 R159). -/
def remotePoints (s : State) (node cls : Nat) (out : Bool) : List Nat :=
  (mapRecs s).flatMap (fun e =>
    if e.2.kind == 5 && e.2.isOut == out && e.2.a == node && e.2.b == cls then e.2.points else [])

/-- All points of a node that the node table covers (R116). -/
def nodePoints (s : State) (node : Nat) : List Nat :=
  ([1, 2, 3].filter (fun c => decide (remoteOwner s node c ≠ .none))).flatMap (fun c => remotePoints s node c false)

/-- A missing exchange is counted; at `NODE_LOST_COUNT` in a row the node is lost (R119). -/
def declareLost (k : Nat) (s : State) : State :=
  let r := nodeRec s k
  let s := modNode k (fun n =>
    { n with state := .lost, losses := n.losses + 1, wasLost := true, consecutive := 0, fresh := 0, owed := 0, firstSet := none,
             partialSets := [] }) s
  let s := decideQual (nodePoints s r.node) 0x42 s
  emit 0x8001 (0x9000 + k) (leBytes 2 r.node ++ leBytes 4 (getNode s k).rejoin) s

def countMissing (k : Nat) (s : State) : State :=
  let s := modNode k (fun n => { n with missed := n.missed + 1, consecutive := n.consecutive + 1 }) s
  if cfgNat s 0x1800 2 ≤ (getNode s k).consecutive then declareLost k s else s

/-! ### Input sets (R110, R120) -/

/-- The entries of a set whose frames are all there, in order. -/
def setComplete (p : PartialSet) : Option (List (BitVec 32 × Byte)) :=
  if (List.range p.frames).all (fun i => p.entries.any (fun e => e.1 == i)) then
    some ((List.range p.frames).flatMap (fun i =>
      match p.entries.find? (fun e => e.1 == i) with
      | some e => e.2
      | none => []))
  else none

/-- A whole set lands in one step. -/
def landEntries (ps : List Nat) (entries : List (BitVec 32 × Byte)) (ts : Int) (s : State) : State :=
  (ps.zip entries).foldl (fun s e => produceAs e.1 e.2.1 e.2.2.toNat ts s) s

/-- An input set acknowledges the output set of the period before, or the newest one (R119; DEDUCED, log entry 76). -/
def acksSet (n : Node) (f : PdInput) : Bool :=
  let last := Tbl.get n.seqOut 0 f.cls
  f.acked == last || frameSeq f.acked == last

/-- The node's state after a complete fresh input set (R119, R120). -/
def setLanded (k : Nat) (f : PdInput) (s : State) : State :=
  let r := nodeRec s k
  let n := getNode s k
  let acks := acksSet n f
  let fastest := r.fastest == some f.cls
  let fresh := n.fresh ||| 2 ^ (f.cls - 1)
  match n.state with
  | .exchanging =>
    if fastest && acks then modNode k (fun n => { n with acked := true, consecutive := 0 }) s else s
  | .rejoining =>
    if f.rejoin = n.rejoin then
      let s := modNode k (fun n =>
        { n with state := .exchanging, wasLost := false, consecutive := 0, acked := (fastest && acks) || n.acked }) s
      if n.wasLost then emit 0x8002 (0x9000 + k) (leBytes 2 r.node ++ leBytes 4 n.rejoin) s else s
    else if fastest && acks then modNode k (fun n => { n with acked := true, consecutive := 0 }) s else s
  | .joining | .lost =>
    if fresh &&& r.classes = r.classes then
      modNode k (fun n => { n with state := .rejoining, fresh := 0, owed := r.classes, acked := false, consecutive := 0
                                   firstSet := none, rejoin := max n.rejoin f.rejoin + 1 }) s
    else modNode k (fun n => { n with fresh := fresh }) s
  | .unused => s

/-- A complete set lands in the image, and the node's state follows. -/
def landSet (k : Nat) (f : PdInput) (s : State) : State :=
  setLanded k f (landEntries (remotePoints s (nodeRec s k).node f.cls false) f.entries f.sourceTime s)

/-- A standby has received a set that an INPUT record named: it lands, and the record whose last missing set it was is
acknowledged (16 R396). -/
def landWanted (k : Nat) (f : PdInput) (s : State) : State :=
  match s.pair.wanted.find? (fun w => w.node == f.node && w.cls == f.cls && w.seq == f.seq) with
  | none => s
  | some w =>
    let rest := s.pair.wanted.filter (fun x => x != w)
    let s := landSet k f { s with pair := { s.pair with wanted := rest } }
    if rest.any (fun x => x.record == w.record) then s else sendAck w.record 0 s

/-- A set still incomplete when the next one begins is a missing exchange of a node that exchanges or rejoins (R110); of
the fastest class the end of the period counts it (R119). -/
def setIncomplete (k cls : Nat) (s : State) : State :=
  let st := (getNode s k).state
  if (nodeRec s k).fastest ≠ some cls ∧ (st = .exchanging ∨ st = .rejoining) then countMissing k s else s

/-- A frame of an input set. A module with address 0, or in an address conflict, exchanges with no node (R102, R105). -/
def pdInputFrameState (f : PdInput) (s : State) : State :=
  if !(up s && domainOn s 7) || ringConflict s || nodeAddress s == 0 then s
  else match (nodeRecs s).find? (fun e => e.2.node == f.node && e.2.has f.cls) with
    | none => s
    | some (k, _) =>
      let p := Tbl.get (getNode s k).partialSets {} f.cls
      let fresh := p.frames = 0 ∨ p.sourceTime ≠ f.sourceTime ∨ p.frames ≠ f.frames
      let s := if p.frames ≠ 0 ∧ fresh then setIncomplete k f.cls s else s
      let p : PartialSet := if fresh then { frames := f.frames, sourceTime := f.sourceTime } else p
      let p := { p with entries := p.entries.filter (fun e => e.1 != f.index) ++ [(f.index, f.entries)] }
      match setComplete p with
      | none => modNode k (fun n => { n with partialSets := Tbl.put n.partialSets {} f.cls p, onePort := f.onePort }) s
      | some entries =>
        let s := modNode k (fun n => { n with partialSets := Tbl.erase n.partialSets f.cls, onePort := f.onePort }) s
        let full := { f with entries := entries }
        if isStandby s then
          landWanted k full (modNode k (fun n => { n with got := Tbl.insert n.got f.cls full }) s)
        else landSet k full (noteLanding (.remote f.node f.cls f.seq (some (f.sourceTime, entries))) s)

/-- PD_INPUT_FRAME (R110, R120). -/
def execPdInputFrame (t : Nat) (f : PdInput) (s : State) : Out := .next (pdInputFrameState f (advance t s))

/-- PD_OUTPUT_FRAME_FORWARDED (R117): `dst` and `src` are the frame's addresses (Table 5.1). FOREIGN_WRITER then stands until
a restart or a change of the record's NODE (DESIGN CHOICE, log entry 76). -/
def execPdOutputFrameForwarded (t dst src : Nat) (s : State) : Out :=
  let s := advance t s
  .next (if !(up s && domainOn s 7) then s
    else match (nodeRecs s).find? (fun e => macOf e.2.node == dst) with
    | none => s
    | some (k, _) =>
      if src = macOf (nodeAddress s) ∨ (isPairUnit s ∧ src = macOf Config.partnerAddress) then s
      else
        let due := match (getNode s k).foreignAt with
          | none => true
          | some a => decide (a + 60 * secNs ≤ s.now)
        if due then emit 0x8200 (0x9000 + k) (leBytes 2 (src % 2 ^ 16))
          (modNode k (fun n => { n with foreign := true, foreignAt := some s.now }) s)
        else modNode k (fun n => { n with foreign := true }) s)

/-! ### Output sets (R108, R109, R114, R120) -/

/-- An entry of an output set: the newest released value, or zero with GOOD where the mode says so (08 Table 8.7). -/
def pdEntry (s : State) (p : Nat) : BitVec 32 × Byte :=
  match outputIn ((mapRecs s).filter (fun e => e.2.kind == 5)) p with
  | some (_, m) =>
    if outHeldSafe s m p then (0, 0)
    else ((releasedOf s p).getD 0, BitVec.ofNat 8 (readPoint s p).qual)
  | none => (0, 0)

/-- The frames of one node's output set. -/
def pdFrames (s : State) (k cls : Nat) : List Sent :=
  let r := nodeRec s k
  let n := getNode s k
  let es := (remotePoints s r.node cls true).map (pdEntry s)
  let count := max 1 ((es.length + 292) / 293)
  let seq := frameSeq (Tbl.get n.seqOut 0 cls)
  (List.range count).map (fun i => .pdOut (nodeAddress s) r.node cls i count seq (ownClaim s) (bitOf n.owed (cls - 1))
    s.prog.lastRelease n.rejoin ((es.drop (293 * i)).take 293))

/-- The period of a class, ns (Table 5.6). -/
def periodOf (cls : Nat) : Nat := if cls = 1 then msNs else if cls = 2 then 10 * msNs else 100 * msNs

/-- One node's output set is sent, if the node takes sets now; a tracking standby only keeps its SEQUENCE (R121). -/
def sendSet (cls k : Nat) (s : State) : State :=
  let n := getNode s k
  if (nodeRec s k).has cls && (decide (n.state = .exchanging) || decide (n.state = .rejoining)) then
    let fs := pdFrames s k cls
    let s := if isActive s then fs.foldl (fun s f => send f s) s else s
    let first := if (nodeRec s k).fastest = some cls then n.firstSet.or (some (gridAt s (periodOf cls))) else n.firstSet
    modNode k (fun n => { n with
      seqOut := Tbl.put n.seqOut 0 cls (frameSeq (Tbl.get n.seqOut 0 cls))
      owed := if bitOf n.owed (cls - 1) then n.owed - 2 ^ (cls - 1) else n.owed
      firstSet := first }) s
  else s

/-- The sets of a class go out once in each of its periods (R109; 06 R129). -/
def pdOutputSetSendState (cls : Nat) (s : State) : State :=
  let g := gridAt s (periodOf cls)
  if originatesAll s && (isActive s || decide (s.pair.state = .tracking)) && Tbl.find s.ring.sentAt cls != some g then
    forAll ((nodeRecs s).map Prod.fst) (sendSet cls) { s with ring := { s.ring with sentAt := Tbl.insert s.ring.sentAt cls g } }
  else s

/-- PD_OUTPUT_SET_SEND (R109). -/
def execPdOutputSetSend (t : Nat) (cls : Fin 4) (s : State) : Out := .next (pdOutputSetSendState cls (advance t s))

/-- Neither port has a link: every owned node is lost at the end of its period (R123). -/
def ringGone (s : State) : Bool := !s.ring.t1Up && !s.ring.t2Up

/-- The period that ends at `g` had an output set in the period before it to be acknowledged (R119): a node that rejoins is
counted from the period after its first set. -/
def setBefore (n : Node) (cls : Nat) (g : Int) : Bool :=
  !bitOf n.owed (cls - 1) && (match n.firstSet with
    | some a => decide (a + 2 * periodOf cls ≤ g)
    | none => true)

/-- A node of a module without a link is lost, the exchange counted as missing where there was one. -/
def loseUnreachable (k : Nat) (s : State) : State :=
  let n := getNode s k
  declareLost k (if n.acked ∨ n.state = .joining then s else modNode k (fun n => { n with missed := n.missed + 1 }) s)

/-- The end of a node's exchange period (R119, R123). -/
def periodEndState (k cls : Nat) (g : Int) (s : State) : State :=
  let n := getNode s k
  let s := modNode k (fun n => { n with ended := some g }) s
  match n.state with
  | .exchanging | .rejoining =>
    if ringGone s then loseUnreachable k s
    else if n.acked then modNode k (fun n => { n with acked := false }) s
    else if setBefore n cls g then countMissing k s else s
  | .joining => if ringGone s then loseUnreachable k s else s
  | .lost | .unused => s

/-- EXCHANGE_PERIOD_END (R119, R123): once for each boundary of the fastest class's period (06 R129). -/
def execExchangePeriodEnd (t : Nat) (rec : Fin 2048) (s : State) : Out :=
  let s := advance t s
  .next (match (nodeRec s rec).fastest with
    | none => s
    | some c =>
      let g := gridAt s (periodOf c)
      if !(up s && domainOn s 7) || !isActive s || (getNode s rec).ended == some g then s else periodEndState rec c g s)

/-! ### Ring checks, links and conflicts (R105, R122) -/

/-- An RM frame of the module (Table 5.4). -/
def sendRm (op port link : Nat) (s : State) : State :=
  send (.rm (nodeAddress s) (frameSeq s.ring.rmSeq) op port link serialNumber) s

/-- RING_CHECK_SEND (R122). -/
def execRingCheckSend (t : Nat) (s : State) : Out :=
  let s := advance t s
  .next (if originates s then
    sendRm 1 0 0 { s with ring := { s.ring with checks := ((frameSeq s.ring.rmSeq, localNow s) :: s.ring.checks).take 8 } }
  else s)

/-- RING_CHECK_TIMEOUT (R122). -/
def execRingCheckTimeout (t : Nat) (s : State) : Out :=
  let s := advance t s
  .next (if originates s && !s.ring.open_ && decide (s.ring.lastReturn + 300 * msNs ≤ s.now) then
    emit 0x8301 0 [0, 0] { s with ring := { s.ring with open_ := true } } else s)

/-- The mean of the last eight loop measurements (06 R134). -/
def loopMean (l : List Nat) : Nat := if l.isEmpty then 0 else l.foldl (· + ·) 0 / l.length

/-- The module's own ring check returns: the ring is closed and the loop delay is measured. A check older than 300 ms has not
returned. -/
def checkReturned (seq : Nat) (s : State) : State :=
  match s.ring.checks.find? (fun c => c.1 == seq && decide (localNow s ≤ c.2 + 300 * msNs)) with
  | none => s
  | some (_, sent) =>
    let loops := ((localNow s - sent).toNat :: s.clk.loops).take 8
    let s' := { s with
      clk := { s.clk with loops := loops, loop := loopMean loops }
      ring := { s.ring with checks := s.ring.checks.filter (fun c => c.1 != seq), lastReturn := s.now, open_ := false } }
    if s.ring.open_ then emit 0x8381 0 [0, 0] s' else s'

/-- The newest link change reported by another module is kept (R122). -/
def keepBreak (node op portNo link serial : Nat) (s : State) : State :=
  if op = 2 then { s with ring := { s.ring with lastBreak := (node, portNo, link, serial, netTime s) } } else s

def rmFrameState (node seq op portNo link serial : Nat) (s : State) : State :=
  if !(up s && domainOn s 7) then s
  else if nodeAddress s ≠ 0 ∧ node = nodeAddress s then
    if serial = serialNumber then (if op = 1 then checkReturned seq s else s)
    else
      let new := s.ring.conflict.isNone
      let s := keepBreak node op portNo link serial { s with ring := { s.ring with conflict := some s.now } }
      if new then
        let s := decideQual ((nodeRecs s).flatMap (fun e => nodePoints s e.2.node)) 0x42 s
        emit 0x8101 0 (leBytes 4 serial) s
      else s
  else keepBreak node op portNo link serial s

/-- RM_FRAME (R105, R122). -/
def execRmFrame (t : Nat) (_port : Port) (node seq op portNo link serial : Nat) (s : State) : Out :=
  .next (rmFrameState node seq op portNo link serial (advance t s))

/-- ADDRESS_CONFLICT_END (R105). -/
def execAddressConflictEnd (t : Nat) (s : State) : Out :=
  let s := advance t s
  .next (match s.ring.conflict with
    | some a =>
      if a + 3 * secNs ≤ s.now then emit 0x8181 0 [] { s with ring := { s.ring with conflict := none } } else s
    | none => s)

def portNo : Port → Nat
  | .t1 => 1
  | .t2 => 2

def setLink (port : Port) (up : Bool) (s : State) : State :=
  match port with
  | .t1 => { s with ring := { s.ring with t1Up := up, t1Seen := s.ring.t1Seen || up } }
  | .t2 => { s with ring := { s.ring with t2Up := up, t2Seen := s.ring.t2Seen || up } }

/-- A change of a port's link. DESIGN CHOICE: the rule keeps in `RING_LAST_BREAK` what was received or sent; a module with
address 0 sends no report, and its own change is kept there all the same (log entry 86). -/
def linkChangeState (port : Port) (link : Bool) (s : State) : State :=
  let (was, seen) := match port with
    | .t1 => (s.ring.t1Up, s.ring.t1Seen)
    | .t2 => (s.ring.t2Up, s.ring.t2Seen)
  if !(up s && domainOn s 7) || was == link then s
  else
    let s := setLink port link s
    if !seen then s
    else
      let l := if link then 1 else 0
      let s := { s with ring := { s.ring with lastBreak := (nodeAddress s, portNo port, l, serialNumber, netTime s) } }
      let s := if originates s then sendRm 2 (portNo port) l s else s
      emit 0x8302 (0xC010 + portNo port) (leBytes 1 (portNo port) ++ leBytes 1 l) s

/-- LINK_CHANGE (R122). -/
def execLinkChange (t : Nat) (port : Port) (up : Bool) (s : State) : Out :=
  .next (linkChangeState port up (advance t s))

/-- `RING_STATE` (Table 5.9). -/
def ringState (s : State) : Nat :=
  if nodeAddress s = 0 then 3 else if ringConflict s then 2 else if s.ring.open_ then 1 else 0

/-- The load of one set (R111): points and period in ms. -/
def setLoad (p ms : Nat) : Nat := (p * 40 + max 1 ((p + 292) / 293) * 608) * 1000 / ms

/-- `PD_LOAD` and `PD_POINTS` of a node table (R109, R111): bit/s, and points in classes F, M, S. -/
def pdLoad (rs : List (Nat × NodeRec)) : Nat :=
  rs.foldl (fun a e => [(1, 1), (2, 10), (3, 100)].foldl (fun a c =>
    if e.2.has c.1 then a + setLoad (e.2.counts.getD (2 * c.1 - 2) 0) c.2 + setLoad (e.2.counts.getD (2 * c.1 - 1) 0) c.2
    else a) a) 0
def pdPoints (rs : List (Nat × NodeRec)) (cls : Nat) : Nat :=
  rs.foldl (fun a e => if e.2.has cls then a + e.2.counts.getD (2 * cls - 2) 0 + e.2.counts.getD (2 * cls - 1) 0 else a) 0

/-- `NODE_STATUS` (Table 5.11). -/
def nodeStatus (s : State) (k : Nat) : List Byte :=
  let n := getNode s k
  leBytes 1 n.state.num ++ leBytes 1 (flagWord [(0, n.foreign), (1, n.onePort)]) ++ [0, 0]
    ++ leBytes 4 n.rejoin ++ leBytes 4 n.losses ++ leBytes 4 n.missed

/-- A committed change of the node table takes effect, record by record (R463); points of dropped nodes take BAD_NOT_OWNED
with the rest of the configuration. -/
def applyNodeTable (old : List (Nat × NodeRec)) (s : State) : State :=
  let new := nodeRecs s
  let keys := ((old ++ new).map Prod.fst).eraseDups
  keys.foldl (fun s k =>
    let o := (old.find? (fun e => e.1 == k)).map Prod.snd
    let n := (new.find? (fun e => e.1 == k)).map Prod.snd
    if o == n then s
    else match o, n with
      | some _, none => { s with ring := { s.ring with nodes := Tbl.erase s.ring.nodes k } }
      | none, none => s
      | none, some n => decideQual (nodePoints s n.node) 0x46
          { s with ring := { s.ring with nodes := Tbl.put s.ring.nodes {} k { state := .joining } } }
      | some o, some n =>
        if o.node ≠ n.node then
          decideQual (nodePoints s n.node) 0x46
            { s with ring := { s.ring with nodes := Tbl.put s.ring.nodes {} k { state := .joining } } }
        else modNode k (fun x => { x with
          state := .joining, fresh := 0, owed := 0, acked := false, consecutive := 0, firstSet := none,
          partialSets := [] }) s) s

end Sys2Proof.Machine
end

