-- ==== Sys2Proof/Machine/Time.lean ====
section
/-! DEFINITION. Network time (06 R126 to R139): beacons, the servo, mastership, link-delay probes and TIME_RESTEP. -/

namespace Sys2Proof.Machine

/-- `TIME_RANK`. -/
def timeRank (s : State) : Nat := cfgNat s 0x2200 1

/-- Largest rate, ±500 ppm (R127). -/
abbrev rateMax : Int := 2147483

/-- Corrections of local time against the oscillator so far: samples of different instants compare through it. -/
def correction (s : State) : Int := localNow s - (rawCount s : Int) * 4

/-- θ as a record carries it, saturating. -/
def thetaBytes (th : Int) : List Byte := leInt 4 (satInt 32 th)

/-- A discipline state is entered and recorded (Table 6.2, R137). -/
def enterDisc (d : Disc) (s : State) : State :=
  if s.clk.state = d then s
  else emit (0x2000 + d.num) 0 (thetaBytes s.clk.theta) { s with clk := { s.clk with state := d } }

/-- LOCKED or SLEWING by |θ| (Table 6.2). -/
def enterByTheta (s : State) : State :=
  enterDisc (if 1000000 < s.clk.theta.natAbs then .slewing else .locked) s

/-- The module is in RUN or HOLD, so only whole seconds are stepped (R136). -/
def stepPart (s : State) (th : Int) : Int :=
  if s.prog.mode = .stop then th else (Int.tdiv th secNs) * secNs

/-- Instants kept for the measuring of times move with a step of local time, so that no period, pulse or interval comes
out short or long (R136). -/
def shiftInstants (d : Int) (s : State) : State :=
  let mv (o : Option Int) : Option Int := o.map (· + d)
  let s := forAll (Tbl.keys s.cad.trackers) (fun n => modTracker n (fun x => { x with
    at_ := x.at_ + d, stamps := x.stamps.map (· + d), prevAt := mv x.prevAt, crossings := x.crossings.map (· + d) })) s
  let s := forAll (Tbl.keys s.cad.slots) (fun n => modSched n (fun x => { x with fireAt := x.fireAt + d, due := mv x.due })) s
  let s := forAll (Tbl.keys s.cad.sc) (fun i => modSc i (fun x => { x with
    lastDfAt := x.lastDfAt + d, pulseEnd := x.pulseEnd + d })) s
  let s := forAll (Tbl.keys s.dio.banks) (fun b => modBank b (fun x => { x with
    placed := x.placed.map (fun (e : DioEdge) => { e with fireAt := e.fireAt + d })
    waiting := x.waiting.map (fun (e : DioEdge) => { e with fireAt := e.fireAt + d }) })) s
  let s := forAll (Tbl.keys s.prog.tasks) (fun k => modTask k (fun x => { x with lastRelease := mv x.lastRelease })) s
  let s := forAll (Tbl.keys s.ring.nodes) (fun k => modNode k (fun x => { x with firstSet := mv x.firstSet })) s
  let s := { s with
    ring := { s.ring with checks := s.ring.checks.map (fun c => (c.1, c.2 + d)) }
    img := { s.img with landed := s.img.landed.map (fun (e : Landed) => { e with at_ := e.at_ + d }) }
    eng := { s.eng with cadSampled := s.eng.cadSampled.map (fun (x : SampledPt) =>
      { x with loop := x.loop.map (fun e => (e.1, e.2 + d)) }) }
    pair := { s.pair with firstAt := mv s.pair.firstAt, handing := s.pair.handing.map (fun (h : Handing) => { h with at_ := h.at_ + d }) }
    sess := { s.sess with force := s.sess.force.map (fun (r : ForceReq) => { r with ready := mv r.ready }) } }
  forAll (Tbl.keys s.eng.loops) (fun n => modLoop n (fun x => { x with
    lastSample := mv x.lastSample, pending := x.pending.map (fun (r : LoopRel) => { r with at_ := mv r.at_ }) })) s

/-- A step of local time of `th` under the rule of R136, recorded with its variant. -/
def stepBy (variant : Nat) (th : Int) (s : State) : State :=
  let d := stepPart s th
  let s := shiftInstants d (stepTime d s)
  emit (0x2200 + variant) 0 (leInt 6 (Int.tdiv d msNs))
    { s with clk := { s.clk with theta := th - d, accepted := [], samples := [], agreeSamples := [], copy := none } }

/-! ### Beacons (R132 to R134) -/

/-- A candidate is better than this module (R132). -/
def better (s : State) (rank node : Nat) : Bool :=
  timeRank s == 255 || rank < timeRank s || (rank == timeRank s && node < nodeAddress s)

/-- The stored delay of a port, corrected by the change of its link delay (R134 item 3); with address 0 the link delays
are taken as zero (05 R102). -/
def storedDelay (s : State) (p : Port) : Int :=
  let zero := nodeAddress s = 0
  match p with
  | .t1 => s.clk.pathT1 + (if zero then 0 else (s.clk.linkT1 : Int) - s.clk.refT1)
  | .t2 => s.clk.pathT2 + (if zero then 0 else (s.clk.linkT2 : Int) - s.clk.refT2)

/-- A single copy still waiting for its twin gives its sample through the stored delay. -/
def flushCopy (s : State) : State :=
  match s.clk.copy with
  | none => s
  | some (_, atT2, arr, origin) =>
    let th := origin + storedDelay s (if atT2 then .t2 else .t1) - arr
    { s with clk := { s.clk with copy := none, samples := s.clk.samples ++ [th] } }

/-- Both copies are here: the path delays and two samples (R134 item 2). With address 0 L is taken as zero (05 R102); it
is zero as well while no ring check has returned, so L − 0.98 µs is then below zero (DESIGN CHOICE, log entry 77). -/
def pairCopies (t1 t2 origin : Int) (s : State) : State :=
  let l : Int := (if nodeAddress s = 0 then 0 else (s.clk.loop : Int)) - 980
  let d1 := (l + t1 - t2) / 2
  let d2 := l - d1
  { s with clk := { s.clk with
    pathT1 := d1, pathT2 := d2, refT1 := s.clk.linkT1, refT2 := s.clk.linkT2, copy := none
    samples := s.clk.samples ++ [origin + d1 - t1, origin + d2 - t2] } }

/-- The master followed changes: the history of samples goes (R135), and the change is recorded. -/
def followMaster (master rank : Nat) (s : State) : State :=
  if s.clk.masterNode = master then { s with clk := { s.clk with masterRank := rank } }
  else emit 0x2100 0 (leBytes 2 master ++ leBytes 1 rank)
    { s with clk := { s.clk with masterNode := master, masterRank := rank, accepted := [], newMaster := true
                                 agree := 0, agreeSamples := [] } }

/-- A beacon enters the samples of this period. -/
def takeBeacon (port : Port) (seq : Nat) (origin : Int) (s : State) : State :=
  let arr := localNow s
  let atT2 := decide (port = .t2)
  match s.clk.copy with
  | some (q, c2, a, o) =>
    if q = seq ∧ c2 ≠ atT2 then (if atT2 then pairCopies a arr o s else pairCopies arr a o s)
    else
      let s := flushCopy s
      { s with clk := { s.clk with copy := some (seq, atT2, arr, origin) } }
  | none => { s with clk := { s.clk with copy := some (seq, atT2, arr, origin) } }

def tbFrameState (port : Port) (seq : Nat) (origin : Int) (master rank : Nat) (s : State) : State :=
  if !(up s && domainOn s 7) || (nodeAddress s ≠ 0 && master == nodeAddress s) then s
  else
    let bet := better s rank master
    let s := if bet then { s with clk := { s.clk with lastBetter := s.now } } else s
    if s.clk.state = .master ∧ !bet then s
    else
      let s := followMaster master rank { s with clk := { s.clk with lastBeacon := some s.now } }
      let s := takeBeacon port seq origin s
      match s.clk.state with
      | .free => enterDisc .acquiring { s with clk := { s.clk with agree := 0, agreeSamples := [] } }
      | .master =>
        let s := { s with clk := { s.clk with slewLeft := 0, theta := origin + storedDelay s port - localNow s } }
        if s.clk.left then enterByTheta s
        else enterDisc .acquiring { s with clk := { s.clk with agree := 0, agreeSamples := [] } }
      | _ => s

/-- TB_FRAME (R132, R134). -/
def execTbFrame (t : Nat) (port : Port) (seq : Nat) (origin : Int) (master rank _st : Nat) (s : State) : Out :=
  .next (tbFrameState port seq origin master rank (advance t s))

/-- TB_SEND (R132). -/
def execTbSend (t : Nat) (s : State) : Out :=
  let s := advance t s
  .next (if originatesAll s && decide (s.clk.state = .master) then
    send (.tb (nodeAddress s) (frameSeq s.ring.tbSeq) (localNow s) (nodeAddress s) (timeRank s) s.clk.state.num) s
  else s)

/-! ### The servo (R135, R136) -/

/-- Median of up to eight values: the mean of the middle two of an even number. -/
def median (l : List Int) : Int :=
  let a := l.mergeSort (fun x y => decide (x ≤ y))
  let n := a.length
  if n % 2 = 1 then a.getD (n / 2) 0 else (a.getD (n / 2 - 1) 0 + a.getD (n / 2) 0) / 2

def meanInt (l : List Int) : Int := if l.isEmpty then 0 else l.foldl (· + ·) 0 / (l.length : Int)

/-- A rate in 1/64000 ppm as `TIME_RATE` holds it: rounded, and limited to ±500 ppm (R127, R135). -/
def rateOf (u : Int) : Int :=
  let n := u * (2 ^ 32 : Nat)
  let d : Int := 64000000000
  let r := if n ≥ 0 then (2 * n + d) / (2 * d) else -((2 * -n + d) / (2 * d))
  max (-rateMax) (min rateMax r)

abbrev freqMax : Int := 32000000

def clampFreq (u : Int) : Int := max (-freqMax) (min freqMax u)

/-- One period of the servo on its θ (R135). -/
def servoAct (th : Int) (s : State) : State :=
  let s := { s with clk := { s.clk with theta := th } }
  let s := if 1000000 < th.natAbs then enterDisc .slewing s else s
  let s := if s.clk.state = .slewing ∧ th.natAbs < 10000 then enterDisc .locked s else s
  if s.clk.state = .slewing then setRate (if th > 0 then rateMax else if th < 0 then -rateMax else 0) s
  else
    let f := clampFreq (s.clk.freq + th)
    setRate (rateOf (clampFreq (f + 32 * th))) { s with clk := { s.clk with freq := f } }

/-- The samples of the period that pass the median test, and the history with them. -/
def acceptSamples (s : State) : List Int × State :=
  let c := correction s
  let test := !s.clk.newMaster && !s.clk.accepted.isEmpty && decide (s.clk.state ≠ .holdover)
  let m := median s.clk.accepted - c
  let ok := if test then s.clk.samples.filter (fun x => (x - m).natAbs ≤ 20000) else s.clk.samples
  (ok, { s with clk := { s.clk with
    samples := [], newMaster := s.clk.newMaster && ok.isEmpty
    accepted := (ok.reverse.map (· + c) ++ s.clk.accepted).take 8 } })

/-- All samples agree within 20 µs. -/
def agreeing (l : List Int) : Bool :=
  match l with
  | [] => false
  | a :: r => decide (r.foldl max a - r.foldl min a ≤ 20000)

/-- A period in ACQUIRING (Table 6.2): the eighth agreeing period steps local time and leaves. -/
def acquirePeriod (s : State) : State :=
  let now := s.clk.samples
  let all := s.clk.agreeSamples ++ now
  let (n, l) := if now.isEmpty then (0, []) else if agreeing all then (s.clk.agree + 1, all)
    else if agreeing now then (1, now) else (0, [])
  let s := { s with clk := { s.clk with samples := [], agree := n, agreeSamples := l } }
  if 8 ≤ n then
    let s := stepBy 1 (meanInt now) s
    enterByTheta { s with clk := { s.clk with left := true, locked := true, agree := 0, agreeSamples := [] } }
  else s

def servoPeriodState (s : State) : State :=
  if !(up s && domainOn s 7) then s
  else
    let s := flushCopy s
    match s.clk.state with
    | .acquiring => acquirePeriod s
    | .locked | .slewing =>
      let (ok, s) := acceptSamples s
      if ok.isEmpty then s else servoAct (meanInt ok) s
    | .holdover =>
      let (ok, s) := acceptSamples s
      if ok.isEmpty then s
      else servoAct (meanInt ok) (enterByTheta { s with clk := { s.clk with theta := meanInt ok } })
    | .free | .master => { s with clk := { s.clk with samples := [] } }

/-- SERVO_PERIOD (R135). -/
def execServoPeriod (t : Nat) (s : State) : Out := .next (servoPeriodState (advance t s))

/-- MASTERSHIP (R132, R133): no beacon from a better candidate for 250 ms. A module in address conflict, which sends no
beacons (05 R105), does not become master (DESIGN CHOICE, log entry 77). -/
def execMastership (t : Nat) (s : State) : Out :=
  let s := advance t s
  .next (if originatesAll s && timeRank s != 255 && decide (s.clk.state ≠ .master)
      && decide (s.clk.lastBetter + 250 * msNs ≤ s.now) then
    enterDisc .master (followMaster (nodeAddress s) (timeRank s)
      { s with clk := { s.clk with locked := true, slewLeft := 0, samples := [], copy := none } })
  else s)

/-- BEACON_TIMEOUT (R135, Table 6.2): the last freq is held. -/
def execBeaconTimeout (t : Nat) (s : State) : Out :=
  let s := advance t s
  .next (match s.clk.lastBeacon with
    | some b =>
      if up s && (decide (s.clk.state = .locked) || decide (s.clk.state = .slewing)) && decide (b + 500 * msNs ≤ s.now)
      then enterDisc .holdover (setRate (rateOf s.clk.freq) s) else s
    | none => s)

/-! ### Link-delay probes (R134) -/

/-- A link-delay frame of the module (05 Table 5.4). -/
def sendLd (port : Port) (op : Nat) (a b c : Int) (s : State) : State :=
  send (.ld port (nodeAddress s) (frameSeq s.ring.ldSeq) op a b c) s

/-- LD_SEND (R134): to the neighbour of each port with link. -/
def execLdSend (t : Nat) (s : State) : Out :=
  let s := advance t s
  .next (if originatesAll s then
    let s := if s.ring.t1Up then sendLd .t1 1 (localNow s) 0 0 s else s
    if s.ring.t2Up then sendLd .t2 1 (localNow s) 0 0 s else s
  else s)

def ldFrameState (port : Port) (op : Nat) (a b c : Int) (s : State) : State :=
  if !(up s && domainOn s 7) then s
  else if op = 1 then
    if originatesAll s then sendLd port 2 a (localNow s) (localNow s) s else s
  else if op = 2 then
    let d := (((localNow s - a) - (c - b)) / 2).toNat
    match port with
    | .t1 => { s with clk := { s.clk with linkT1 := d } }
    | .t2 => { s with clk := { s.clk with linkT2 := d } }
  else s

/-- LD_FRAME (R134). -/
def execLdFrame (t : Nat) (port : Port) (op : Nat) (tReqSent tReqReceived tRespSent : Int) (s : State) : Out :=
  .next (ldFrameState port op tReqSent tReqReceived tRespSent (advance t s))

/-! ### TIME_RESTEP (R138) -/

/-- The arguments of Table 6.3 against the discipline state. -/
def timeRestepOp (data : List Byte) (n : Nat) (s : State) : Answer × State :=
  let bad (cls num detail : Nat) : Answer × State := (.error ⟨cls, 0x22, num, 0xF004, 1, detail⟩, s)
  match fieldAt data 0 1 with
  | 1 =>
    if fieldAt data 8 8 ≠ 0 then bad 2 1 0
    else if s.clk.state ≠ .locked ∧ s.clk.state ≠ .slewing then bad 3 8 0
    else
      let s := enterByTheta (stepBy 2 s.clk.theta s)
      let s := if s.clk.state = .locked then setRate (rateOf s.clk.freq) s else s
      cmdNow 4 n [] s
  | 2 =>
    if s.clk.state ≠ .master then bad 3 1 s.prog.mode.num
    else
      let d := signedAt data 8 8 - localNow s
      let base := if s.clk.slewLeft = 0 then s.clk.rate else s.clk.slewRate
      let rem := d - stepPart s d
      let s := stepBy 2 d s
      let s := if rem = 0 then setRate base { s with clk := { s.clk with slewLeft := 0 } }
        else
          let r := if rem > 0 then rateMax else -rateMax
          setRate r { s with clk := { s.clk with
            slewLeft := rem, slewRate := base
            slewUntil := s.now + rem.natAbs * 2 ^ 32 / (r - base).natAbs } }
      cmdNow 4 n [] s
  | _ => bad 2 1 0

/-- TIME_RESTEP_FOLLOWER (R138). -/
def execTimeRestepFollower (t : Nat) (c : Cmd) (s : State) : Out :=
  .next (rowReq c 0xF004 1 [1] timeRestepOp (advance t s))
/-- TIME_RESTEP_MASTER (R138). -/
def execTimeRestepMaster (t : Nat) (c : Cmd) (s : State) : Out :=
  .next (rowReq c 0xF004 1 [2] timeRestepOp (advance t s))

/-- MASTER_SLEW_END (R138). -/
def execMasterSlewEnd (t : Nat) (s : State) : Out :=
  let s := advance t s
  .next (if s.clk.state = .master ∧ s.clk.slewLeft ≠ 0 ∧ s.clk.slewUntil ≤ s.now then
    setRate s.clk.slewRate { s with clk := { s.clk with slewLeft := 0 } } else s)

/-- A committed `TIME_RANK` of 255 or address 0 takes a master out of MASTER: such a module is never the time master (R132;
05 R102). -/
def applyTimeRank (s : State) : State :=
  if s.clk.state = .master ∧ (timeRank s = 255 ∨ nodeAddress s = 0) then enterDisc .holdover { s with clk := { s.clk with slewLeft := 0 } }
  else s

end Sys2Proof.Machine
end

