-- ==== Sys2Proof/Machine/Cadence.lean ====
section
/-! DEFINITION. Cadence trackers, the prediction of scheduler slots and synchro-check (06 R141 to R152; 13 R465). -/

namespace Sys2Proof.Machine

def trkMode (s : State) (n : Nat) : Nat := cfgNat s (0x3800 + n) 1
def trkQuanta (s : State) (n : Nat) : Nat := cfgNat s (0x3800 + n) 3
def trkCoast (s : State) (n : Nat) : Nat := cfgNat s (0x3800 + n) 8 * msNs

/-- The cadence unit runs: ENG is up (R141). -/
def cadenceUp (s : State) : Bool := up s && domainOn s 6

/-! ### Prediction (R142) -/

/-- Change of angle over `dt` ns at a speed and an acceleration, ANGLE32 units. -/
def angleOver (speed accel : Real32) (dt : Nat) : Int :=
  f32ScaleInt speed (dt * 2 ^ 32) / (10 ^ 9 : Nat) + f32ScaleInt accel (dt * dt * 2 ^ 31) / (10 ^ 18 : Nat)

/-- Speed as it stands at local time `t`: an encoder without an edge turns at most one quantum in the time since, but a
coasting one keeps its last speed (R142, R144). -/
def speedAt (s : State) (n : Nat) (t : Int) : Real32 :=
  let x := getTracker s n
  if trkMode s n = 1 ∧ x.state ≠ .coasting ∧ x.at_ < t then
    let lim := f32OfRat 1000000000 (trkQuanta s n * (t - x.at_).toNat)
    if f32Lt lim (f32Abs x.speed) then (if f32Lt x.speed 0 then f32Neg lim else lim) else x.speed
  else x.speed

/-- Angle of a tracker at local time `t`, `TRK_ZERO` included. -/
def angleAt (s : State) (n : Nat) (t : Int) : BitVec 32 :=
  let x := getTracker s n
  let zero : BitVec 32 := BitVec.ofNat 32 (cfgNat s (0x3800 + n) 5)
  let moving := x.state = .valid ∨ x.state = .coasting
  if moving ∧ x.at_ ≤ t then
    x.angle + zero + BitVec.ofInt 32 (angleOver (speedAt s n t) (if trkMode s n = 1 then x.accel else 0) (t - x.at_).toNat)
  else x.angle + zero

/-- `TRK_FLAGS` (Table 6.12). -/
def trkFlags (x : Tracker) : Nat :=
  flagWord [(0, x.unref), (1, x.zMismatch), (2, x.illegal), (3, f32Lt x.speed 0)]

/-- Quality of a tracker's points (07 Table 7.2). -/
def trkQual (s : State) (n : Nat) : Nat :=
  if trkMode s n = 0 then 0x45 else match (getTracker s n).state with
  | .coasting => 0x14
  | .lost => 0x49
  | .off => 0x45
  | _ => 0

/-- The points of a tracker are produced: angle, speed, state, flags (07 Table 7.4); a standby takes them from the INPUT
records (16 R396). -/
def produceTracker (n : Nat) (s : State) : State :=
  if !landsOwn s then s else
  let x := getTracker s n
  let t := localNow s
  let q := trkQual s n
  let s := produceAll (inPoints s 8 n 0) (angleAt s n t) q t s
  let s := produceAll (inPoints s 8 n 1) (speedAt s n t) q t s
  let s := produceAll (inPoints s 8 n 2) (BitVec.ofNat 32 x.state.num) q t s
  produceAll (inPoints s 8 n 3) (BitVec.ofNat 32 (trkFlags x)) q t s

/-! ### Synchro-check endings (R152) -/

/-- An instance ends in a final state, recorded with φ at the command. -/
def scEnd (i : Nat) (st : ScState) (s : State) : State :=
  let x := getSc s i
  emit (0xC100 + st.num) (0x8200 + i) (leBytes 4 x.resPhi.toNat)
    (modSc i (fun x => { x with state := st, arm := false }) s)

/-- Armed instances whose tracker is no longer VALID are aborted. -/
def scTrackerLeft (n : Nat) (s : State) : State :=
  forAll [0, 1] (fun i s =>
    if (getSc s i).state = .armed ∧ (cfgNat s (0x38C0 + i) 1 = n ∨ cfgNat s (0x38C0 + i) 2 = n) then scEnd i .aborted s
    else s) s

/-- Armed instances are aborted: HOLD or STOP entered, or a switchover. -/
def scAbortArmed (s : State) : State :=
  forAll [0, 1] (fun i s => if (getSc s i).state = .armed then scEnd i .aborted s else s) s

/-- A retired close DO ends the instance it serves (18 R444). -/
def scRetired (ch : Nat) (s : State) : State :=
  forAll [0, 1] (fun i s =>
    if cfgNat s (0x38C0 + i) 3 = ch ∧ ((getSc s i).state = .armed ∨ (getSc s i).state = .closing) then scEnd i .aborted s
    else s) s

/-! ### Tracker states (R141, R144) -/

/-- A tracker state is entered, recorded and shown. -/
def enterTrk (n : Nat) (st : TrkState) (s : State) : State :=
  let was := (getTracker s n).state
  if was = st then s
  else
    let s := modTracker n (fun x => { x with state := st }) s
    let s := emit (0xC000 + st.num) (0x8000 + n) [] s
    let s := if was = .valid then scTrackerLeft n s else s
    produceTracker n s

/-- The source is lost: the tracker coasts (R144). -/
def loseTracker (n : Nat) (s : State) : State :=
  match (getTracker s n).state with
  | .valid | .still =>
    let t := localNow s
    let a := angleAt s n t - BitVec.ofNat 32 (cfgNat s (0x3800 + n) 5)
    let v := speedAt s n t
    enterTrk n .coasting (modTracker n (fun x => { x with
      lostAt := s.now, angle := a, at_ := t, speed := v, accel := 0, stamps := [], crossings := [], prevAt := none }) s)
  | _ => s

/-- How a tracker begins when a configuration gives it a mode; one that was VALID leaves that state, which aborts an instance
armed on it (R152). DESIGN CHOICE: the spec does not give the state a tracker begins in; here an encoder without Z is STILL,
for its angle counts from 0, and every other source is LOST until its first update (log entry 87). -/
def startTracker (n : Nat) (s : State) : State :=
  let st : TrkState := match trkMode s n with
    | 0 => .off
    | 1 => if cfgBool s (0x3800 + n) 4 then .lost else .still
    | _ => .lost
  let s := if (getTracker s n).state = .valid then scTrackerLeft n s else s
  let s := { s with cad := { s.cad with trackers := Tbl.erase s.cad.trackers n } }
  enterTrk n st (modTracker n (fun x => { x with at_ := localNow s }) s)

/-! ### Timed DO edges (R147) -/

abbrev actSet : Nat := 1
abbrev actClear : Nat := 2
abbrev actPulse : Nat := 3

/-- An edge waits for the frame that precedes it; only the active unit's edges reach the field (R149). -/
def waitEdge (ch action : Nat) (fireAt : Int) (width slot : Nat) (s : State) : State :=
  if isActive s then modBank (ch / 12) (fun b => { b with waiting := b.waiting ++ [⟨ch, action, fireAt, width, slot⟩] }) s
  else s

/-! ### Scheduler slots: records and prediction (R145 to R147) -/

/-- A slot record (Table 6.7). -/
structure SlotRec where
  kind : Nat
  tracker : Nat
  flags : Nat
  angle : BitVec 32
  target : Nat
  width : Nat
  advance : Nat
  deriving DecidableEq, Repr

def slotRecOf (b : List Byte) : SlotRec :=
  ⟨fieldAt b 0 1, fieldAt b 1 1, fieldAt b 2 1, BitVec.ofNat 32 (fieldAt b 4 4), fieldAt b 8 2, fieldAt b 10 2,
    fieldAt b 12 2⟩

/-- Record of slot n: sub i holds slots 2(i − 1) and 2i − 1 (Table 6.13). -/
def slotRec (s : State) (n : Nat) : SlotRec :=
  slotRecOf ((cfgBytes s 0x3880 (n / 2 + 1)).drop (16 * (n % 2)))

/-- The slots whose record is in use. -/
def slotsUsed (s : State) : List Nat :=
  (s.config.filterMap (fun e =>
    if e.1 / 256 = 0x3880 ∧ 1 ≤ e.1 % 256 ∧ e.1 % 256 ≤ 0x80 then some (e.1 % 256 - 1) else none)).flatMap
    (fun i => [2 * i, 2 * i + 1].filter (fun n => (slotRec s n).kind != 0))

/-- A DO kind of slot. -/
def SlotRec.isDo (r : SlotRec) : Bool := 1 ≤ r.kind && r.kind ≤ 3

/-- First time at which v × t + a × t² / 2 reaches an angle, ns; none where it never does (R142). Speed in units/s and
acceleration in units/s² count in the direction of the angle. -/
def timeFor (units : Nat) (v a : Int) : Option Nat :=
  let disc := v * v + 2 * a * units
  let den := v + (natSqrt disc.toNat : Nat)
  if disc < 0 ∨ den ≤ 0 then none else some (2 * units * 1000000000 / den.toNat)

/-- Acceleration of an encoder tracker, ANGLE32 units/s² (R142). -/
def trkAcc (s : State) (n : Nat) : Int :=
  let x := getTracker s n
  if trkMode s n = 1 ∧ x.state = .valid then f32ScaleInt x.accel (2 ^ 32) else 0

/-- Speed of a tracker at local time `t`, ANGLE32 units/s, its acceleration since the last update included (R142). -/
def trkRate (s : State) (n : Nat) (t : Int) : Int :=
  f32ScaleInt (speedAt s n t) (2 ^ 32) + trkAcc s n * max 0 (t - (getTracker s n).at_) / 1000000000

/-- ADVANCE of a slot, ns. -/
def SlotRec.advanceNs (r : SlotRec) : Int := 1000 * r.advance

/-- The angle predicted for the instant that lies ADVANCE ahead, and the speed there (R147 item 1). -/
def slotAngle (s : State) (r : SlotRec) (t : Int) : BitVec 32 :=
  let d := r.advanceNs
  angleAt s r.tracker t +
    BitVec.ofInt 32 (trkRate s r.tracker t * d / 1000000000 + trkAcc s r.tracker * (d * d) / (2 * 10 ^ 18 : Nat))
def slotRate (s : State) (r : SlotRec) (t : Int) : Int :=
  trkRate s r.tracker t + trkAcc s r.tracker * r.advanceNs / 1000000000

/-- The tracker lets the slot fire: valid, or coasting where the slot allows it (R148). -/
def slotLive (s : State) (r : SlotRec) : Bool :=
  match (getTracker s r.tracker).state with
  | .valid | .still => true
  | .coasting => bitOf r.flags 3
  | _ => false

/-- The direction in which a slot's tracker crosses: that of its speed, or of its way since the last look while an encoder
out of STILL has no speed yet (R142, R146). -/
def slotForward (s : State) (n : Nat) : Bool :=
  let r := slotRec s n
  let t := localNow s
  let sp := speedAt s r.tracker t
  if f32Eq sp 0 then match (getSched s n).last with
    | some l => decide (0 ≤ (slotAngle s r t - l).toInt)
    | none => true
  else f32Lt 0 sp

/-- When the slot fires, and whether that is LATE: at the instant predicted at the last look once it has come, at once
where its angle was passed unforeseen since that look, and otherwise as predicted now (R147 items 1, 4, 5). -/
def slotDue (s : State) (n : Nat) : Option (Int × Bool) :=
  let r := slotRec s n
  let x := getSched s n
  let t := localNow s
  let fwd := slotForward s n
  if !slotLive s r || !(if fwd then bitOf r.flags 1 else bitOf r.flags 2) then none
  else
    let a := slotAngle s r t
    let passed := match x.last with
      | none => false
      | some l =>
        let arc := if fwd then (a - l).toNat else (l - a).toNat
        let hit := if fwd then (r.angle - l).toNat else (l - r.angle).toNat
        decide (0 < hit ∧ hit ≤ arc ∧ arc < 2 ^ 31)
    let ahead := if fwd then (r.angle - a).toNat else (a - r.angle).toNat
    let v := slotRate s r t
    let acc := trkAcc s r.tracker
    let next := (timeFor ahead (if fwd then v else -v) (if fwd then acc else -acc)).map (fun dt => (t + (dt : Int), false))
    match x.due with
    | some d => if d ≤ t then some (d, false) else if passed then some (t, true) else next
    | none => if passed then some (t, true) else next

/-- The lead of a slot: 125 µs for an edge of a DO, none otherwise (R147 item 2). -/
def slotLead (r : SlotRec) : Int := if r.isDo then 125000 else 0

/-- A channel or its bank link is retired. -/
def dioRetired (s : State) (ch : Nat) : Bool := isRetired s kindDio ch || isRetired s kindLink (ch / 12)

/-- The DO a slot drives takes the edge: owned, in service and not forced (07 R165, R168), in RUN. -/
def slotDoOpen (s : State) (ch : Nat) : Bool :=
  decide (s.prog.mode = .run) && decide (dioOwner s ch = .forme) && !dioRetired s ch
    && (match outPointFor s 1 ch 0 with
      | some (p, _) => (forceOf s p).isNone
      | none => true)

/-- A slot that has fired notes how far past ANGLE its tracker has gone in the direction of the firing, and re-arms at half
a cycle (R146). -/
def restSlot (n : Nat) (s : State) : State :=
  let r := slotRec s n
  let t := localNow s
  let g := angleAt s r.tracker t
  modSched n (fun x =>
    let d := (g - x.mark).toInt
    let y := { x with travel := x.travel + (if x.forward then d else -d), mark := g }
    if 2 ^ 31 ≤ y.travel then { y with state := 1, resting := false, last := some (slotAngle s r t), due := none }
    else y) s

/-- How a firing leaves a slot: a periodic one rests until it re-arms, its way past ANGLE counting from here (R146). DESIGN
CHOICE: Table 6.8 does not say what STATE a periodic slot shows until it re-arms; here 3, done (log entry 57). -/
def restFrom (s : State) (r : SlotRec) (x : SlotSt) : SlotSt :=
  let g := angleAt s r.tracker (localNow s)
  let d := (g - r.angle).toInt
  { x with state := 3, resting := bitOf r.flags 0, travel := if x.forward then d else -d, mark := g }

/-- A slot is looked at: it re-arms after half a cycle, or locks its fire time; a DO edge leaves with the lock (R146,
R147). In STOP only LOOP_SAMPLE slots lock (R149). -/
def scanSlot (n : Nat) (s : State) : State :=
  let r := slotRec s n
  let x := getSched s n
  let t := localNow s
  let a := slotAngle s r t
  if x.state = 3 ∧ x.resting then restSlot n s
  else if x.state = 1 then
    if s.prog.mode = .stop ∧ r.kind ≠ 4 then modSched n (fun x => { x with last := some a, due := none }) s
    else match slotDue s n with
    | some (at_, late) =>
      if t + slotLead r < at_ then modSched n (fun x => { x with last := some a, due := some at_ }) s
      else
      let s := modSched n (fun x => { x with
        state := 2, due := none, fireAt := at_, lateDue := late, revDue := false, forward := slotForward s n, last := some a }) s
      if r.isDo && isActive s && slotDoOpen s r.target then waitEdge r.target r.kind (max at_ t) r.width n s else s
    | none => modSched n (fun x => { x with last := some a, due := none }) s
  else if x.state = 2 ∧ (if x.forward then f32Lt (speedAt s r.tracker t) 0 else f32Lt 0 (speedAt s r.tracker t)) then
    modSched n (fun x => { x with reversed := true, revDue := true }) s
  else s

/-- Every slot in use is looked at. -/
def scanSlots (s : State) : State := if cadenceUp s then forAll (slotsUsed s) scanSlot s else s

/-- A committed slot record arms its slot (R146). -/
def armSlot (n : Nat) (s : State) : State :=
  if (slotRec s n).kind = 0 then { s with cad := { s.cad with slots := Tbl.erase s.cad.slots n } }
  else modSched n (fun x => { x with state := 1, resting := false, last := none, due := none }) s

/-- `SLOT_STATUS` of one slot (Table 6.8). -/
def slotStatus (x : SlotSt) : List Byte :=
  leBytes 1 x.state ++ leBytes 1 (flagWord [(0, x.late), (1, x.missed), (2, x.withheld), (3, x.reversed)])
    ++ leBytes 2 x.count

/-! ### Encoder trackers (R142) -/

/-- A whole window of quadrature periods ends at the newest edge, whose direction signs the speed; before the first whole
period the speed stays. -/
def edgeSpeed (x : Tracker) (q : Nat) (fwd : Bool) (tk : Int) : Tracker :=
  let st := (tk :: x.stamps).take 33
  let m := (st.length - 1) / 4
  if m = 0 then { x with stamps := st, accel := 0 }
  else
    let dt := tk - st.getD (4 * m) tk
    if dt ≤ 0 then { x with stamps := st }
    else
      let n : Int := 4 * m * 1000000000
      let sp := f32OfRat (if fwd then n else -n) (q * dt.toNat)
      let ac := match x.prevAt with
        | some p => if p < tk then
            f32Div (f32Sub sp x.prevSpeed) (f32OfRat (tk - p) 1000000000) else 0
        | none => 0
      { x with stamps := st, speed := sp, accel := ac, prevSpeed := sp, prevAt := some tk }

/-- An encoder without Z is VALID again, its angle unreferenced until the next commit (R144). -/
def returnUnref (n : Nat) (s : State) : State :=
  let q : Int := trkQuanta s n
  enterTrk n .valid (modTracker n (fun x =>
    { x with unref := true, at_ := localNow s, angle := BitVec.ofInt 32 (x.count * (2 ^ 32 : Nat) / q) }) s)

/-- One edge of a tracker: its count, angle, speed and acceleration; a tracker whose source was lost only counts it, and
keeps the last speed (R144). -/
def encoderStep (n : Nat) (fwd : Bool) (s : State) : State :=
  let q := trkQuanta s n
  let tk := localNow s
  let s := modTracker n (fun x =>
    let c := if fwd then x.count + 1 else x.count - 1
    if x.state = .coasting ∨ x.state = .lost then { x with count := c, stamps := (tk :: x.stamps).take 33 }
    else { edgeSpeed x q fwd tk with count := c, angle := BitVec.ofInt 32 (c * (2 ^ 32 : Nat) / (q : Int)), at_ := tk }) s
  match (getTracker s n).state with
  | .still => enterTrk n .valid s
  | .coasting | .lost =>
    if cfgBool s (0x3800 + n) 4 then s else returnUnref n s
  | _ => produceTracker n s

/-- A Z pulse: the count restarts, and a lost tracker returns (R142, R144). A lost tracker expects no count. -/
def encoderZ (n : Nat) (s : State) : State :=
  if !cfgBool s (0x3800 + n) 4 then s
  else
    let q : Int := trkQuanta s n
    let s := modTracker n (fun x =>
      let d := x.count % q
      let off := min d (q - d)
      { x with zMismatch := x.zMismatch || (decide (x.state ≠ .lost) && decide (2 < off)), count := 0, angle := 0, at_ := localNow s }) s
    match (getTracker s n).state with
    | .coasting | .lost => enterTrk n .valid s
    | _ => produceTracker n s

/-- Trackers of a mode on a source. -/
def trackersOn (s : State) (mode src : Nat) : List Nat :=
  (List.range 8).filter (fun n => trkMode s n == mode && cfgNat s (0x3800 + n) 2 == src)

def encoderEdgeState (e : Nat) (ev : EncEvent) (s : State) : State :=
  if !cadenceUp s then s
  else scanSlots (forAll (trackersOn s 1 e) (fun n s => match ev with
    | .up => encoderStep n true s
    | .down => encoderStep n false s
    | .z => encoderZ n s
    | .illegal => loseTracker n (modTracker n (fun x => { x with illegal := true }) s)) s)

/-- ENCODER_EDGE (R142). -/
def execEncoderEdge (t : Nat) (e : Fin 4) (ev : EncEvent) (s : State) : Out :=
  .next (encoderEdgeState e ev (advance t s))

/-- ENCODER_STILL (R141): no edge for 100 ms. -/
def execEncoderStill (t : Nat) (n : Fin 8) (s : State) : Out :=
  let s := advance t s
  let x := getTracker s n
  .next (if cadenceUp s && trkMode s n == 1 && decide (x.state = .valid) && decide (x.at_ + 100000000 ≤ localNow s) then
    enterTrk n .still (modTracker n (fun x => { x with speed := 0, accel := 0, stamps := [], prevAt := none }) s) else s)

/-! ### Mains trackers (R142, R465) -/

/-- A factory record passes its CRC-32 over its first 28 bytes. -/
def factoryOk (b : List Byte) : Bool := (crc32 (b.take 28)).toNat == fieldAt b 28 4

def factoryMains (m : Nat) : List Byte := leBytes 32 (Config.factoryMains m)

/-- A REAL32 field of a record. -/
def realAt (b : List Byte) (o : Nat) : Real32 := BitVec.ofNat 32 (fieldAt b o 4)

abbrev f32One : Real32 := 0x3F800000
abbrev f32_25 : Real32 := 0x41C80000

/-- The factory-corrected voltage of one code of a mains input (R465). -/
def mainsVolts (m : Nat) (code temp : Int) : Real32 :=
  let b := factoryMains m
  f32Mul (f32Add (f32Mul (realAt b 0) (f32OfInt code)) (realAt b 4))
    (f32Add f32One (f32Mul (realAt b 8) (f32Sub (f32OfInt temp) f32_25)))

/-- rms over the codes of a cycle, each corrected (R142, R465). -/
def mainsRms (m : Nat) (codes : List Int) (temp : Int) : Real32 :=
  let sum := codes.foldl (fun a n => let u := mainsVolts m n temp; f32Add a (f32Mul u u)) 0
  if codes.isEmpty then 0 else f32Sqrt (f32Div sum (f32OfInt codes.length))

/-! ### Synchro-check (R150, R151) -/

/-- Signed difference of two angles, −2^31 to 2^31 − 1. -/
def angleDiff (a b : BitVec 32) : Int := (a - b).toInt

/-- Phase of the generator against the bus at local time `t`. -/
def scPhase (s : State) (i : Nat) (t : Int) : Int :=
  angleDiff (angleAt s (cfgNat s (0x38C0 + i) 2) t) (angleAt s (cfgNat s (0x38C0 + i) 1) t)

/-- Slip frequency, Hz. -/
def scDf (s : State) (i : Nat) : Real32 :=
  f32Sub (getTracker s (cfgNat s (0x38C0 + i) 2)).speed (getTracker s (cfgNat s (0x38C0 + i) 1)).speed

/-- The conditions of R151 at this instant, their duration apart. -/
def scConditions (s : State) (i : Nat) : Bool :=
  let b := getTracker s (cfgNat s (0x38C0 + i) 1)
  let g := getTracker s (cfgNat s (0x38C0 + i) 2)
  let df := scDf s i
  let ub := b.level
  let ug := g.level
  decide (b.state = .valid) && decide (g.state = .valid)
    && f32Le (f32Abs df) (cfgReal s (0x38C0 + i) 6)
    && (cfgNat s (0x38C0 + i) 8 == 0 || f32Lt 0 df)
    && f32Le (f32Div (f32Abs (f32Sub ug ub)) ub) (f32Div (cfgReal s (0x38C0 + i) 7) (f32OfInt 100))
    && f32Le (f32Mul (f32OfRat 8 10) ub) ug && f32Le (f32Mul (f32OfRat 8 10) ug) ub

/-- Rate of change of the slip over the last bus cycle, Hz/s. -/
def scDdf (s : State) (i : Nat) : Real32 := (getSc s i).ddf

/-- Phase predicted at contact for a command given now, −2^31 to 2^31 − 1 (R151). -/
def scContact (s : State) (i : Nat) : Int :=
  let tc := cfgNat s (0x38C0 + i) 4 * msNs
  (BitVec.ofInt 32 (scPhase s i (localNow s) + angleOver (scDf s i) (scDdf s i) tc)).toInt

/-- A bus cycle ends: the conditions are judged once more, and dΔf/dt is Δf's change over the cycle. -/
def scBusCycle (n : Nat) (s : State) : State :=
  forAll [0, 1] (fun i s =>
    if (getSc s i).state = .armed ∧ cfgNat s (0x38C0 + i) 1 = n then
      let ok := scConditions s i
      let df := scDf s i
      let at_ := (getTracker s n).at_
      modSc i (fun x => { x with
        held := if ok then x.held + 1 else 0, lastDf := df, lastDfAt := at_
        ddf := if x.held ≠ 0 ∧ x.lastDfAt < at_ then f32Div (f32Sub df x.lastDf) (f32OfRat (at_ - x.lastDfAt) 1000000000)
          else 0 }) s
    else s) s

/-- A zero crossing of a mains input. A cycle completed is an update; the frequency is over the last four cycles, or over
those there are since the source came (R142, R144; DEDUCED, log entry 56). -/
def mainsState (m : Nat) (tz : Int) (codes : List Int) (temp : Int) (s : State) : State :=
  if !cadenceUp s then s
  else scanSlots (forAll (trackersOn s 2 m) (fun n s =>
    if !factoryOk (factoryMains m) then s
    else
      let tz := tz - f32ScaleInt (realAt (factoryMains m) 12) 1000
      let u := mainsRms m codes temp
      let x := getTracker s n
      let cr := (tz :: x.crossings).take 5
      let m := cr.length - 1
      let f := if cr.getD m tz < tz then f32OfRat (m * 1000000000) (tz - cr.getD m tz).toNat else 0
      let s := modTracker n (fun x => { x with crossings := cr, level := u }) s
      if m = 0 then s
      else if f32Lt u (f32OfInt 8) || f32Lt f (f32OfInt 40) || f32Lt (f32OfInt 70) f then loseTracker n s
      else
        let s := modTracker n (fun x => { x with angle := 0, at_ := tz, speed := f }) s
        let s := if x.state = .valid then produceTracker n s else enterTrk n .valid s
        scBusCycle n s) s)

/-- MAINS_ZERO_CROSSING (R142). -/
def execMainsZeroCrossing (t : Nat) (m : Fin 2) (tz : Int) (codes : List Int) (temp : Int) (s : State) : Out :=
  .next (mainsState m tz codes temp (advance t s))

/-! ### Point and wave trackers, at each tick (R142) -/

abbrev f32TwoPi : Real32 := 0x40C90FDB

/-- What a reader saw of a point at each of its landings since the last engine tick, oldest first, and now: two source times
that landed within one tick are two updates. -/
def seenPoints (s : State) (p : Nat) : List Pt :=
  if (forceOf s p).isSome then [readPoint s p]
  else (s.img.landed.filter (fun e => e.point == p)).map Landed.new ++ [readPoint s p]

/-- What a reader saw of two points after each landing of either since the last engine tick; landings at one instant come
together. -/
def seenPairs (s : State) (p q : Nat) : List (Pt × Pt) :=
  let read (a : Nat) (x : Pt) : Pt := if (forceOf s a).isSome then readPoint s a else x
  let l := s.img.landed.filter (fun e => e.point == p || e.point == q)
  let first (a : Nat) : Pt := match l.find? (fun e => e.point == a) with
    | some e => read a e.old
    | none => readPoint s a
  let walk := l.foldl (fun (w : (Pt × Pt) × List (Int × Pt × Pt)) e =>
    let c := (if e.point = p then read p e.new else w.1.1, if e.point = q then read q e.new else w.1.2)
    (c, w.2.filter (fun y => y.1 != e.at_) ++ [(e.at_, c)])) ((first p, first q), [])
  walk.2.map Prod.snd ++ [(readPoint s p, readPoint s q)]

def pointUpdate (n : Nat) (p : Pt) (s : State) : State :=
  let x := getTracker s n
  if isBad p.qual || x.lastSrc == some p.ts then s
  else
    let sp := match x.lastSrc with
      | some t0 => if t0 < p.ts then
          f32OfRat ((p.value - x.lastValue).toInt * 1000000000) (2 ^ 32 * (p.ts - t0).toNat) else x.speed
      | none => 0
    let s := modTracker n (fun x =>
      { x with lastSrc := some p.ts, lastValue := p.value, angle := p.value, speed := sp, at_ := p.ts }) s
    enterTrk n .valid s

/-- Every new source time of its point updates a point tracker. -/
def pointTracker (n : Nat) (s : State) : State :=
  (seenPoints s (cfgNat s (0x3800 + n) 6)).foldl (fun s p => pointUpdate n p s) s

def waveUpdate (n : Nat) (a r : Pt) (s : State) : State :=
  let x := getTracker s n
  if isBad a.qual || isBad r.qual || x.lastSrc == some a.ts || x.lastRate == some r.ts then s
  else
    let dt := match x.lastSrc with
      | some t0 => (a.ts - t0).toNat
      | none => 0
    let mean := if x.lastSrc.isNone then 0
      else f32Add x.mean (f32Mul (f32Sub a.value x.mean) (f32OfRat dt 60000000000))
    let w := f32Sub a.value mean
    let ups := if x.lastSrc.isSome && f32Lt x.lastX 0 && f32Le 0 w then (a.ts :: x.ups).take 5 else x.ups
    let pmin := cfgReal s (0x3800 + n) 9
    let pmax := cfgReal s (0x3800 + n) 10
    let period := if 2 ≤ ups.length then
      f32Clamp (f32OfRat (ups.getD 0 0 - ups.getD (ups.length - 1) 0) ((ups.length - 1) * 1000000000)) pmin pmax else pmax
    let vw := f32Div r.value (f32Div f32TwoPi period)
    let amp := f32Sqrt (f32Add (f32Mul w w) (f32Mul vw vw))
    let ang := angleOf (f32ScaleInt w (2 ^ 32)) (f32ScaleInt vw (2 ^ 32))
    let still := f32Lt amp (cfgReal s (0x3800 + n) 11)
    let s := modTracker n (fun x => { x with
      lastSrc := some a.ts, lastRate := some r.ts, mean := mean, lastX := w, ups := ups, angle := ang, level := amp, at_ := a.ts
      speed := if still then 0 else f32Div f32One period }) s
    enterTrk n (if still then .still else .valid) s

/-- Every new pair of samples updates a wave tracker. -/
def waveTracker (n : Nat) (s : State) : State :=
  (seenPairs s (cfgNat s (0x3800 + n) 6) (cfgNat s (0x3800 + n) 7)).foldl (fun s e => waveUpdate n e.1 e.2 s) s

/-- Every tracker at an engine tick: new samples are taken and its points predicted. -/
def tickTrackers (s : State) : State :=
  if !cadenceUp s then s
  else forAll (List.range 8) (fun n s => match trkMode s n with
    | 0 => s
    | 3 => produceTracker n (pointTracker n s)
    | 4 => produceTracker n (waveTracker n s)
    | _ => produceTracker n s) s

/-- The source of a point or wave tracker is lost (Table 6.5). -/
def sampleLost (s : State) (n : Nat) : Bool :=
  let bad := isBad (readPoint s (cfgNat s (0x3800 + n) 6)).qual ||
    (trkMode s n == 4 && isBad (readPoint s (cfgNat s (0x3800 + n) 7)).qual)
  bad || decide ((getTracker s n).at_ + trkCoast s n ≤ localNow s)

/-- TRACKER_SOURCE_LOSS (R144). -/
def execTrackerSourceLoss (t : Nat) (n : Fin 8) (s : State) : Out :=
  let s := advance t s
  .next (if !cadenceUp s then s else match trkMode s n with
    | 0 => s
    | 1 | 2 => loseTracker n s
    | _ => if sampleLost s n then loseTracker n s else s)

/-- A coasting tracker is LOST; an encoder without Z leaves LOST at once (R144). -/
def coastEnd (n : Nat) (s : State) : State :=
  let s := enterTrk n .lost s
  if trkMode s n = 1 ∧ cfgBool s (0x3800 + n) 4 = false then returnUnref n s else s

/-- COAST_EXPIRY (R144). -/
def execCoastExpiry (t : Nat) (n : Fin 8) (s : State) : Out :=
  let s := advance t s
  let x := getTracker s n
  .next (if cadenceUp s && decide (x.state = .coasting) && decide (x.lostAt + trkCoast s n ≤ s.now) then coastEnd n s
    else s)

/-! ### Arming, command and endings of synchro-check (R150 to R152) -/

/-- The effect of a written `SC_ARM` (R150, R152). -/
def scArmNow (i : Nat) (data : List Byte) (_ : Nat) (s : State) : Answer × State :=
  let bad (cls num detail : Nat) : Answer × State := (.error ⟨cls, 0x38, num, 0x38C0 + i, 0x0B, detail⟩, s)
  let x := getSc s i
  if leVal data = 0 then
    (.ok [], if x.state = .armed then scEnd i .aborted s else modSc i (fun x => { x with arm := false }) s)
  else if (getSc s (1 - i)).state = .armed then bad 3 1 s.prog.mode.num
  else if dioRetired s (cfgNat s (0x38C0 + i) 3) then bad 4 5 0
  else if x.state = .armed ∨ x.state = .closing then (.ok [], s)
  else (.ok [], modSc i (fun _ => { state := .armed, arm := true, armedAt := s.now }) s)

/-- A write of `SC_ARM` (04 R74). -/
def scArmOp (i : Nat) (data : List Byte) (n : Nat) (s : State) : Answer × State :=
  deferred (0x38C0 + i) 0x0B (scArmNow i) data n s

/-- SC_ARM_TRUE (R150). -/
def execScArmTrue (t : Nat) (i : Fin 2) (c : Cmd) (s : State) : Out :=
  .next (rowReq c (0x38C0 + i) 0x0B [1] (scArmOp i) (advance t s))
/-- SC_ARM_FALSE (R152). -/
def execScArmFalse (t : Nat) (i : Fin 2) (c : Cmd) (s : State) : Out :=
  .next (rowReq c (0x38C0 + i) 0x0B [0] (scArmOp i) (advance t s))

/-- Units of an angle to degrees. -/
def degrees (u : Int) : Real32 := f32OfRat (u * 360) (2 ^ 32)

/-- The command instant of R151, the zero of the phase predicted at contact: now when it is reached or passed within the
window, or up to 125 µs ahead; none before that. -/
def scCommandAt (s : State) (i : Nat) : Option Int :=
  let df := scDf s i
  let pc := scContact s i
  let win := f32ScaleInt (cfgReal s (0x38C0 + i) 5) (2 ^ 32) / 360
  let inWin := decide (pc.natAbs ≤ win.natAbs)
  if f32Lt (f32Abs df) (f32OfRat 5 1000) then (if inWin then some (localNow s) else none)
  else
    let fwd := f32Lt 0 df
    let ahead := if fwd then -pc else pc
    if ahead ≤ 0 then (if inWin then some (localNow s) else none)
    else
      let acc := f32ScaleInt (scDdf s i) (2 ^ 32)
      let v := f32ScaleInt df (2 ^ 32) + acc * (cfgNat s (0x38C0 + i) 4 : Nat) / 1000
      match timeFor ahead.toNat (if fwd then v else -v) (if fwd then acc else -acc) with
      | some dt => if dt ≤ 125000 then some (localNow s + (dt : Int)) else none
      | none => none

def scCommandState (i : Nat) (s : State) : State :=
  let x := getSc s i
  if !cadenceUp s || x.state ≠ .armed || x.held < 3 || !scConditions s i then s
  else match scCommandAt s i with
  | none => s
  | some at_ =>
    let s' := modSc i (fun x => { x with
      state := .closing, pulseEnd := at_ + (cfgNat s (0x38C0 + i) 9 * msNs : Nat), resTime := at_, resPhi := degrees (scPhase s i at_), resDf := scDf s i }) s
    let ch := cfgNat s (0x38C0 + i) 3
    if ch = 0xFF then s' else waitEdge ch actPulse at_ (cfgNat s (0x38C0 + i) 9 * 1000) 0x200 s'

/-- SC_COMMAND (R151). -/
def execScCommand (t : Nat) (i : Fin 2) (s : State) : Out := .next (scCommandState i (advance t s))

/-- SC_PULSE_END (R152). -/
def execScPulseEnd (t : Nat) (i : Fin 2) (s : State) : Out :=
  let s := advance t s
  .next (if (getSc s i).state = .closing ∧
      (getSc s i).pulseEnd ≤ localNow s then scEnd i .closed s else s)

/-- SC_ARM_TIMEOUT (R152). -/
def execScArmTimeout (t : Nat) (i : Fin 2) (s : State) : Out :=
  let s := advance t s
  .next (if (getSc s i).state = .armed ∧ (getSc s i).armedAt + cfgNat s (0x38C0 + i) 10 * secNs ≤ s.now
    then scEnd i .timedOut s else s)

/-- A pulse that runs completes through a switchover: what is left of it is placed at the new active unit (R152). -/
def scResume (s : State) : State :=
  forAll [0, 1] (fun i s =>
    let x := getSc s i
    let ch := cfgNat s (0x38C0 + i) 3
    let from_ := max x.resTime (localNow s)
    if x.state = .closing ∧ ch ≠ 0xFF ∧ from_ < x.pulseEnd then
      waitEdge ch actPulse from_ ((x.pulseEnd - from_) / 1000).toNat 0x200 s
    else s) s

/-- `SC_RESULT` (Table 6.14). -/
def scResult (x : Sc) : List Byte := leInt 8 x.resTime ++ leBytes 4 x.resPhi.toNat ++ leBytes 4 x.resDf.toNat

end Sys2Proof.Machine
end

