-- ==== Sys2Proof/Machine/Can.lean ====
section
/-! DEFINITION. CAN ports: reception into buffers, transmission, fault confinement, collisions and autobaud (15). -/

namespace Sys2Proof

/-- Codes of `CAN_LAST_ERROR` (Table 15.7). -/
def CanErr.num : CanErr → Nat
  | .stuff => 1 | .form => 2 | .ack => 3 | .bit1 => 4 | .bit0 => 5 | .crc => 6

end Sys2Proof

namespace Sys2Proof.Machine

/-! ### Configuration -/

/-- The buffers of a port with a record in use, ascending. -/
def canBufs (s : State) (p : Nat) : List Nat :=
  (s.config.filterMap (fun e =>
    if e.1 / 256 = 0x3600 + p ∧ 0x21 ≤ e.1 % 256 ∧ e.1 % 256 ≤ 0x60 then some (e.1 % 256 - 0x21) else none)).flatMap
    (fun i => [2 * i, 2 * i + 1].filter (fun b => (bufRec s p b).kind != 0))

/-- The CAN domain runs and the port is not OFF. -/
def canOn (s : State) (p : Nat) : Bool := up s && domainOn s 8 && canMode s p != 0

/-- The port transmits: NORMAL, and not a standby's RESTRICTED (R382). -/
def canSends (s : State) (p : Nat) : Bool := canOn s p && canMode s p == 1 && !(getPort s p).restricted

/-- SOURCE of a port's or a buffer's records (17 Table 17.2). -/
def canSource (p b : Nat) : Nat := 0x4000 + 256 * p + b

/-! ### Signals (R374) -/

/-- Bit positions of a signal, least significant first, as 8 × byte + bit. -/
def signalBits (start c : Nat) : List Nat :=
  let len := c % 64 + 1
  if bitOf c 6 then
    ((List.range (len - 1)).foldl (fun l _ => match l with
      | [] => []
      | b :: r => (if b % 8 = 0 then (b / 8 + 1) * 8 + 7 else b - 1) :: b :: r) [start])
  else (List.range len).map (start + ·)

/-- Bit at a position of the data. -/
def dataBit (d : List Byte) (pos : Nat) : Bool := (d.getD (pos / 8) 0).getLsbD (pos % 8)

/-- The value of a signal, sign- or zero-extended to 32 bits. -/
def signalValue (start c : Nat) (d : List Byte) : BitVec 32 :=
  let bits := (signalBits start c).map (dataBit d)
  let v : Nat := bits.foldr (fun b a => 2 * a + (if b then 1 else 0)) 0
  if bitOf c 7 ∧ bits.getLast? = some true then BitVec.ofInt 32 ((v : Int) - (2 ^ bits.length : Nat))
  else BitVec.ofNat 32 v

/-- A signal lies within the data. -/
def signalFits (start c n : Nat) : Bool := (signalBits start c).all (fun p => p < 8 * n)

/-- A byte with one bit set or cleared. -/
def setBit (b : Byte) (i : Nat) (v : Bool) : Byte :=
  let m : Byte := 1 <<< i
  if v then b ||| m else b &&& ~~~m

/-- A signal placed in the data. -/
def putSignal (start c : Nat) (v : BitVec 32) (d : List Byte) : List Byte :=
  ((signalBits start c).zip (List.range 32)).foldl (fun d e => d.modify (e.1 / 8) (fun b => setBit b (e.1 % 8) (v.getLsbD e.2))) d

/-! ### Reception (R369 to R373) -/

/-- The mapping records of a buffer. -/
def bufMaps (s : State) (p b : Nat) (out : Bool) : List MapRec :=
  ((mapRecs s).map Prod.snd).filter (fun m => m.kind == 6 && m.isOut == out && m.a == p * 4096 + b)

/-- A frame matches a receive buffer's format flags and masked identifier. -/
def bufMatches (r : BufRec) (f : CanFrame) : Bool :=
  (r.kind == 1 || r.kind == 2) && bitOf r.flags 0 == f.ext && (bitOf r.flags 6 || bitOf r.flags 1 == f.fd)
    && bitOf r.flags 3 == f.remote && decide (f.id &&& r.mask = (r.id % 2 ^ 29) &&& r.mask)

/-- The points of a buffer land in one step with the frame's stamp. -/
def landCan (p b : Nat) (rx : CanRx) (s : State) : State :=
  (bufMaps s p b false).foldl (fun s m =>
    if signalFits m.b m.c rx.frame.data.length then 
      produceAs m.first (signalValue m.b m.c rx.frame.data) (slewQual rx.slew 0) rx.stamp s
    else modBuf p b (fun x => { x with short := true }) s) s

/-- A frame enters its buffer: replacing the frame of a compact one, queued in a deep one or dropped when it is full. -/
def bufTake (p b : Nat) (rx : CanRx) (s : State) : State :=
  let r := bufRec s p b
  let x := getBuf s p b
  let clean := { x with
    timeout := false, overwritten := false, overflow := false, short := false, txLate := false, collision := false
    flushed := false, len := rx.frame.data.length, count := (x.count + 1) % 2 ^ 32, lastRx := s.now }
  if r.kind = 1 then
    landCan p b rx (modBuf p b (fun _ => { clean with
      overwritten := !x.rx.isEmpty, drops := if x.rx.isEmpty then x.drops else (x.drops + 1) % 2 ^ 32, rx := [rx] }) s)
  else if x.rx.length < r.depth then landCan p b rx (modBuf p b (fun _ => { clean with rx := x.rx ++ [rx] }) s)
  else modBuf p b (fun x => { x with overflow := true, drops := (x.drops + 1) % 2 ^ 32, count := (x.count + 1) % 2 ^ 32, lastRx := s.now, timeout := false }) s

/-- A frame goes to the first buffer that matches it, or is counted (R369). -/
def canDeliver (p : Nat) (rx : CanRx) (s : State) : State :=
  match (canBufs s p).find? (fun b => bufMatches (bufRec s p b) rx.frame) with
  | some b => bufTake p b rx s
  | none => modPort p (fun x => { x with unmatched := (x.unmatched + 1) % 2 ^ 32 }) s

/-! ### Fault confinement (R379) -/

/-- WARNING, error-passive and their records follow the counters. -/
def canLevels (p : Nat) (s : State) : State :=
  let x := getPort s p
  let d := leBytes 1 (min x.tec 255) ++ leBytes 1 (min x.rec_ 255)
  let lim := cfgNat s (0x3600 + p) 5
  let warn := decide (lim ≤ x.tec) || decide (lim ≤ x.rec_)
  let pas := (decide (127 < x.tec) || decide (127 < x.rec_)) && !x.busOff
  let s := modPort p (fun x => { x with warning := warn, passive := pas }) s
  let s := if warn && !x.warning then emit 0x7001 (canSource p 0xFF) d s
    else if !warn && x.warning then emit 0x7081 (canSource p 0xFF) d s else s
  if pas && !x.passive then emit 0x7002 (canSource p 0xFF) d s
  else if !pas && x.passive && !x.busOff then emit 0x7082 (canSource p 0xFF) d s else s

/-- A good reception lowers the receive error counter; from above 127 it returns to a value from 119 to 127. -/
def canGoodRx (p : Nat) (s : State) : State :=
  let x := getPort s p
  if x.rec_ = 0 then s
  else if x.rec_ ≤ 127 then canLevels p (modPort p (fun x => { x with rec_ := x.rec_ - 1 }) s)
  else
    let (f, s) := draw s
    canLevels p (modPort p (fun x => { x with rec_ := 119 + f % 9 }) s)

/-- CAN clock periods per bit at the nine rates of the search (R367). -/
def autobaudClocks : List Nat := [80, 100, 160, 320, 640, 800, 1600, 4000, 8000]

/-- Quanta before the sample point, the first one apart: as near to 87.5 % as the quanta of the bit allow. -/
def autobaudTseg1 (q : Nat) : Nat := (7 * q + 4) / 8 - 1

/-- The BRP values that give a rate within Table 15.2, those with the sample point at 87.5 % exactly if there are any. -/
def autobaudBrps (clocks : Nat) : List Nat :=
  let ok := (List.range 257).filter (fun b =>
    let q := clocks / b
    let t1 := autobaudTseg1 q
    let t2 := q - 1 - t1
    1 ≤ b && clocks % b == 0 && 5 ≤ q && q ≤ 385 && 2 ≤ t1 && t1 ≤ 256 && 2 ≤ t2 && t2 ≤ 128)
  let exact := ok.filter (fun b => clocks / b % 8 == 0)
  if exact.isEmpty then ok else exact

/-- The timing of a rate of the search in the layout of `CAN_NOMINAL`; BRP and SJW are free values within Table 15.2, and
800 kbit/s, which no division of 80 MHz samples at 87.5 % exactly, takes the nearest quantum (R367; log entry 88). -/
def autobaudTiming (rate : Nat) : List Byte :=
  let clocks := autobaudClocks.getD rate 80
  let bs := autobaudBrps clocks
  let b := bs.getD (Config.canBrp rate % bs.length) 1
  let q := clocks / b
  let t2 := q - 1 - autobaudTseg1 q
  leBytes 2 b ++ leBytes 2 (autobaudTseg1 q) ++ leBytes 1 t2 ++ leBytes 1 (1 + Config.canSjw rate % t2) ++ [0, 0]

/-- Two good frames in a row lock an autobaud port (R367). -/
def autobaudGood (p : Nat) (s : State) : State :=
  let x := getPort s p
  if x.locked then modPort p (fun x => { x with good := x.good + 1, bad := 0 }) s
  else if 1 ≤ x.good then
    modPort p (fun x => { x with good := 2, bad := 0, locked := true, found := autobaudTiming x.rate }) s
  else modPort p (fun x => { x with good := 1, bad := 0 }) s

/-- The identifier a buffer's frame would be sent with now: ID 0 of a CAN_SEND is the record's (R378). -/
def canSendId (s : State) (p b : Nat) : Nat :=
  let r := bufRec s p b
  if r.trigger = 3 ∧ (getBuf s p b).reqId ≠ 0 then (getBuf s p b).reqId else r.id % 2 ^ 29

/-- A standby keeps a frame for the comparison of 16 Table 16.7, and takes its own queued request for sent when the
active unit has sent it (R382). -/
def canSeenBy (p : Nat) (f : CanFrame) (s : State) : State :=
  let s := forAll (canBufs s p) (fun b s => modBuf p b (fun x =>
    if x.state = 2 ∧ canSendId s p b = f.id ∧ x.reqData = f.data then { x with state := 1 } else x) s) s
  { s with pair := { s.pair with canSeen := ((p, f, false) :: s.pair.canSeen).take 256 } }

/-- CAN_RX_TIMEOUT (R373). -/
def execCanRxTimeout (t : Nat) (port : Fin 8) (buf : Fin 128) (s : State) : Out :=
  let s := advance t s
  let r := bufRec s port buf
  .next (if canOn s port && (r.kind == 1 || r.kind == 2) && r.param != 0
      && decide ((getBuf s port buf).lastRx + r.param * msNs ≤ s.now)
    then modBuf port buf (fun x => { x with timeout := true }) s else s)

/-! ### Transmission (R375 to R377) -/

/-- A buffer's data, from its output records and the newest release. -/
def canData (s : State) (p b : Nat) : List Byte :=
  let r := bufRec s p b
  (bufMaps s p b true).foldl (fun d m => putSignal m.b m.c ((releasedOf s m.first).getD 0) d) (List.replicate r.length 0)

/-- A buffer's data as they would be sent now. -/
def canSendData (s : State) (p b : Nat) : List Byte :=
  if (bufRec s p b).trigger = 3 then (getBuf s p b).reqData else canData s p b

/-- The arbitration field as a number: identifier, RTR or SRR, IDE, the extended part (R376). -/
def arbField (ext remote : Bool) (id : Nat) : Nat :=
  if ext then (id / 2 ^ 18) % 2 ^ 11 * 2 ^ 21 + 3 * 2 ^ 19 + id % 2 ^ 18 * 2 + (if remote then 1 else 0)
  else id % 2 ^ 11 * 2 ^ 21 + (if remote then 2 ^ 20 else 0)

/-- An output record of the buffer carries HOLD_UNSAFE. -/
def bufHoldUnsafe (s : State) (p b : Nat) : Bool := (bufMaps s p b true).any MapRec.holdUnsafe

/-- The buffer whose frame is on the bus. -/
def canOnBus (s : State) (p : Nat) : Option Nat := (canBufs s p).find? (fun b => (getBuf s p b).onBus.isSome)

/-- A port that is classical only sends no FD frame (R363). -/
def fdSends (s : State) (p b : Nat) : Bool := !bitOf (bufRec s p b).flags 1 || (getPort s p).fdEnabled

/-- The queued buffer that wins arbitration; a lower buffer number wins a tie. -/
def canWinner (s : State) (p : Nat) : Option Nat :=
  let key := fun b => let r := bufRec s p b; arbField (bitOf r.flags 0) (bitOf r.flags 3) (canSendId s p b)
  ((canBufs s p).filter (fun b => (getBuf s p b).state == 2 && fdSends s p b
      && !(decide (s.prog.mode = .hold) && bufHoldUnsafe s p b))).foldl
    (fun w b => match w with
      | none => some b
      | some a => if key b < key a then some b else some a) none

/-- The port measures its loop delay at each FD frame that it sends with BRS, and places the secondary sample point
TDC_OFFSET after it where TDC_MODE asks for it; the delay is the transceiver's, a free value (R366). -/
def placeSsp (p b : Nat) (s : State) : State :=
  let r := bufRec s p b
  let c := cfgBytes s (0x3600 + p) 3
  if bitOf r.flags 1 && bitOf r.flags 2 then
    if fieldAt c 4 1 = 1 then
      let (d, s) := draw s
      modPort p (fun x => { x with ssp := some (d + fieldAt c 5 1) }) s
    else modPort p (fun x => { x with ssp := none }) s
  else s

/-- The port offers its next queued frame to a free bus. -/
def canOffer (p : Nat) (s : State) : State :=
  let x := getPort s p
  if !canSends s p || !x.synchronised || x.busOff || (canOnBus s p).isSome then s
  else match canWinner s p with
  | none => s
  | some b =>
    let d := canSendData s p b
    send (.can p b (canSendId s p b) d) (modBuf p b (fun y => { y with state := 1, onBus := some d }) (placeSsp p b s))

/-- A trigger of a transmit buffer: a frame is queued, merges into one still queued, or is suppressed. DESIGN CHOICE: the
spec does not say what a trigger of an FD buffer does on a port that is classical only; here it is suppressed and counted
like one in a mode that sends nothing (log entry 88). -/
def canTrigger (p b : Nat) (s : State) : State :=
  let r := bufRec s p b
  let x := getBuf s p b
  if !canOn s p || r.kind ≠ 3 || decide (s.prog.mode = .stop)
      || (decide (s.prog.mode = .hold) && bufHoldUnsafe s p b) then s
  else if (getPort s p).restricted && r.trigger == 3 && canMode s p == 1 then
    modBuf p b (fun y => if y.state = 4 then y else { y with state := 2 }) s
  else if !canSends s p || !fdSends s p b then modPort p (fun y => { y with suppressed := (y.suppressed + 1) % 2 ^ 32 }) s
  else match x.state with
  | 4 => s
  | 2 | 3 => modBuf p b (fun y => { y with txLate := true }) s
  | _ =>
    if (getPort s p).busOff then modBuf p b (fun y => { y with state := 3 }) s
    else canOffer p (modBuf p b (fun y => { y with state := 2 }) s)

/-- A release has taken place: on-change buffers whose data changed queue a frame (R375). -/
def canReleased (s : State) : State :=
  forAll (List.range 8) (fun p s => forAll (canBufs s p) (fun b s =>
    let r := bufRec s p b
    if r.kind = 3 ∧ r.trigger ≠ 3 then
      let d := canData s p b
      let old := (getBuf s p b).data
      let s := modBuf p b (fun x => { x with data := d }) s
      if r.trigger = 2 ∧ d ≠ (if old.isEmpty then List.replicate r.length 0 else old) then canTrigger p b s else s
    else s) s) s

/-- Requests of CAN_SEND take effect at a release (R378). -/
def canRequested (l : List (Nat × Nat × Nat × List Byte)) (s : State) : State :=
  l.foldl (fun s e => canTrigger e.1 e.2.1 (modBuf e.1 e.2.1 (fun x => { x with reqId := e.2.2.1, reqData := e.2.2.2 }) s)) s

/-- STOP is entered: queued frames that have not started are withdrawn (R377). -/
def canWithdraw (s : State) : State :=
  forAll (List.range 8) (fun p s => forAll (canBufs s p) (fun b s =>
    if (getBuf s p b).state = 2 ∨ (getBuf s p b).state = 3 then modBuf p b (fun x => { x with state := 1 }) s else s) s) s

/-- CAN_CYCLIC_TRIGGER (R375): once for each multiple of the period. -/
def execCanCyclicTrigger (t : Nat) (port : Fin 8) (buf : Fin 128) (s : State) : Out :=
  let s := advance t s
  let r := bufRec s port buf
  let g := gridAt s (r.param * msNs)
  .next (if r.kind = 3 ∧ r.trigger = 1 ∧ (getBuf s port buf).cycleAt ≠ some g then
    canTrigger port buf (modBuf port buf (fun x => { x with cycleAt := some g }) s) else s)

def canFrameSentState (p : Nat) (s : State) : State :=
  match canOnBus s p with
  | none => s
  | some b =>
    let n := (((getBuf s p b).onBus).getD []).length
    let s := modBuf p b (fun x => { x with
      onBus := none, count := (x.count + 1) % 2 ^ 32, len := n, timeout := false, overwritten := false
      overflow := false, short := false, txLate := false, collision := false, flushed := false }) s
    let s := canLevels p (modPort p (fun x => { x with sent := (x.sent + 1) % 2 ^ 32, tec := x.tec - 1 }) s)
    canOffer p s

/-- CAN_FRAME_SENT (R376). -/
def execCanFrameSent (t : Nat) (port : Fin 8) (s : State) : Out := .next (canFrameSentState port (advance t s))

/-! ### Errors, bus-off and recovery (R379 to R381) -/

/-- Bus-off is entered (R380). -/
def busOffEnter (p : Nat) (s : State) : State :=
  let fl := canFlags s p
  let x := getPort s p
  let s := modPort p (fun x => { x with
    busOff := true, passive := false, busOffs := (x.busOffs + 1) % 2 ^ 32, recovering := bitOf fl 1 }) s
  let s := forAll (canBufs s p) (fun b s =>
    let y := getBuf s p b
    if y.state = 2 ∨ y.onBus.isSome then
      if bitOf fl 2 then modBuf p b (fun y => { y with state := 1, onBus := none, flushed := true }) s
      else modBuf p b (fun y => { y with state := 3, onBus := none }) s
    else s) s
  emit 0x7003 (canSource p 0xFF) (leBytes 1 255 ++ leBytes 1 (min x.rec_ 255)) s

/-- A bit error in the data or CRC field of the buffer's frame (R381). -/
def bitErrorCounted (p b : Nat) (s : State) : State :=
  let x := getBuf s p b
  let l := s.now :: x.bitErrors.filter (fun t => s.now - t < secNs)
  let s := modBuf p b (fun y => { y with bitErrors := l }) s
  if l.length < 3 then s
  else
    let id := canSendId s p b
    let dis := bitOf (bufRec s p b).flags 5
    let s := modBuf p b (fun y => { y with
      bitErrors := [], collision := true, state := if dis then 4 else y.state, onBus := if dis then none else y.onBus }) s
    let s := modPort p (fun y => { y with collisions := (y.collisions + 1) % 2 ^ 32 }) s
    emit 0x7100 (canSource p b) (leBytes 4 id) s

/-- The frame on the bus was ended by an error or a lost arbitration: it is queued again, or dropped if ONE_SHOT (R376); in
STOP no frame is queued (R377). -/
def canRetry (p b : Nat) (s : State) : State :=
  if (getBuf s p b).onBus.isNone then s
  else if bitOf (bufRec s p b).flags 4 then
    modBuf p b (fun x => { x with onBus := none, count := (x.count + 1) % 2 ^ 32 }) s
  else modBuf p b (fun x => { x with onBus := none, state := if s.prog.mode = .stop then 1 else 2 }) s

/-- The port's own frame on the bus, if any, is over. -/
def canLost (p : Nat) (s : State) : State :=
  match canOnBus s p with
  | some b => canRetry p b s
  | none => s

/-- A frame received while one of the port is on the bus has won arbitration over it (R376). -/
def canFrameReceivedState (p : Nat) (f : CanFrame) (s : State) : State :=
  let x := getPort s p
  if !canOn s p || !x.synchronised || x.busOff then s
  else if f.fd && !x.fdEnabled then
    modPort p (fun x => { x with exceptions := (x.exceptions + 1) % 2 ^ 32, synchronised := false }) (canLost p s)
  else
    let s := canLost p s
    let s := modPort p (fun x => { x with received := (x.received + 1) % 2 ^ 32 }) s
    let s := if canSends s p then canGoodRx p s else s
    let rx : CanRx := ⟨f, localNow s, slewing s⟩
    if canMode s p = 4 && !x.locked then autobaudGood p s
    else
      let s := if canMode s p = 4 then autobaudGood p s else s
      canOffer p (if landsOwn s then canDeliver p rx (noteLanding (.can (Fin.ofNat 8 p) rx) s) else canSeenBy p f s)

/-- CAN_FRAME_RECEIVED (R369). -/
def execCanFrameReceived (t : Nat) (port : Fin 8) (f : CanFrame) (s : State) : Out :=
  .next (canFrameReceivedState port f (advance t s))

/-- An error of an autobaud port (R367): sixteen in a row clear a lock. -/
def autobaudBad (p : Nat) (s : State) : State :=
  modPort p (fun x =>
    if x.locked ∧ 16 ≤ x.bad + 1 then { x with locked := false, bad := 0, good := 0, rate := 0, rateAt := s.now }
    else { x with bad := x.bad + 1, good := 0 }) s

/-- An error at a port, as the frame's transmitter or as a receiver; a receiver's error counter rises by 8 for one within or
right after an error or overload flag, by 1 otherwise (ISO 11898-1). -/
def canErrorState (p : Nat) (kind : CanErr) (tx : Bool) (spot : CanSpot) (s : State) : State :=
  let x := getPort s p
  if !canOn s p || !x.synchronised || x.busOff then s
  else
    let s := modPort p (fun x => { x with errors := (x.errors + 1) % 2 ^ 32, lastError := kind.num }) s
    if canMode s p = 4 then autobaudBad p s
    else if canMode s p = 3 then s
    else if !canSends s p then modPort p (fun x => { x with synchronised := false }) s
    else
      let bit := decide (kind = .bit1) || decide (kind = .bit0)
      let s := match canOnBus s p with
        | some b => if tx && decide (spot = .dataCrc) && bit then bitErrorCounted p b s else s
        | none => s
      let s := canLost p s
      let s := modPort p (fun x =>
        if tx then (if kind = .ack ∧ x.passive then x else { x with tec := x.tec + 8 })
        else { x with rec_ := min 255 (x.rec_ + (if spot = .flag then 8 else 1)) }) s
      let s := canLevels p s
      if 255 < (getPort s p).tec then busOffEnter p s else canOffer p s

/-- CAN_ERROR (R379). -/
def execCanError (t : Nat) (port : Fin 8) (kind : CanErr) (tx : Bool) (spot : CanSpot) (s : State) : Out :=
  .next (canErrorState port kind tx spot (advance t s))

/-- The recovery sequence starts (R380). -/
def startRecovery (p : Nat) (s : State) : State :=
  modPort p (fun x => if x.busOff then { x with recovering := true } else x) s

/-- Collision-disabled buffers are enabled again (R381). -/
def reenable (p : Nat) (s : State) : State :=
  forAll (canBufs s p) (fun b s =>
    if (getBuf s p b).state = 4 then modBuf p b (fun x => { x with state := 1, bitErrors := [] }) s else s) s

/-- The effect of a written `CAN_RECOVER` (R380, R381). -/
def canRecoverNow (p : Nat) (data : List Byte) (_ : Nat) (s : State) : Answer × State :=
  (.ok [], match fieldAt data 0 1 with
    | 1 => startRecovery p s
    | 2 => reenable p s
    | _ => s)

/-- A write of `CAN_RECOVER` (04 R74). -/
def canRecoverOp (p : Nat) (data : List Byte) (n : Nat) (s : State) : Answer × State :=
  deferred (0x3600 + p) 7 (canRecoverNow p) data n s

/-- CAN_RECOVER_BUS_OFF (R380). -/
def execCanRecoverBusOff (t : Nat) (port : Fin 8) (c : Cmd) (s : State) : Out :=
  .next (rowReq c (0x3600 + port) 7 [1] (canRecoverOp port) (advance t s))
/-- CAN_RECOVER_COLLISION (R381). -/
def execCanRecoverCollision (t : Nat) (port : Fin 8) (c : Cmd) (s : State) : Out :=
  .next (rowReq c (0x3600 + port) 7 [2] (canRecoverOp port) (advance t s))

def busOffRecoveryState (p : Nat) (s : State) : State :=
  let x := getPort s p
  if !canOn s p || !x.busOff || !x.recovering then s
  else
    let s := modPort p (fun x => { x with busOff := false, recovering := false, tec := 0, rec_ := 0 }) s
    let s := emit 0x7004 (canSource p 0xFF) [0, 0] s
    let s := canLevels p s
    let s := forAll (canBufs s p) (fun b s =>
      if (getBuf s p b).state = 3 then modBuf p b (fun y => { y with state := 2 }) s else s) s
    canOffer p s

/-- BUS_OFF_RECOVERY_COMPLETE (R380). -/
def execBusOffRecoveryComplete (t : Nat) (port : Fin 8) (s : State) : Out :=
  .next (busOffRecoveryState port (advance t s))

/-- AUTOBAUD_DWELL (R367): the next of nine rates, from the first again after the last. -/
def execAutobaudDwell (t : Nat) (port : Fin 8) (s : State) : Out :=
  let s := advance t s
  .next (if canOn s port && canMode s port == 4 && !(getPort s port).locked
      && decide ((getPort s port).rateAt + cfgNat s (0x3600 + port) 6 * msNs ≤ s.now) then
    modPort port (fun x => { x with rate := (x.rate + 1) % 9, rateAt := s.now, good := 0, bad := 0 }) s else s)

/-- BUS_INTEGRATED (R364). -/
def execBusIntegrated (t : Nat) (port : Fin 8) (s : State) : Out :=
  let s := advance t s
  .next (if canOn s port then canOffer port (modPort port (fun x => { x with synchronised := true }) s) else s)

/-! ### Configuration and status -/

/-- A port's mode has changed (R364): its error counters are held at 0 in OFF and stand in every other mode, as a bus-off
does, which only the recovery sequence ends (R380). DESIGN CHOICE: OFF drops what its buffers have queued or held; elsewhere
that stays queued (log entry 88). A pair unit that is not active runs NORMAL as RESTRICTED (R382). -/
def modeChanged (p : Nat) (s : State) : State :=
  let s := modPort p (fun x => { x with
    synchronised := false, rate := 0, rateAt := s.now, good := 0, bad := 0, locked := false
    restricted := isPairUnit s && !isActive s && canMode s p == 1 }) s
  if canMode s p ≠ 0 then s
  else
    forAll (canBufs s p) (fun b s => modBuf p b (fun x => if x.state = 2 ∨ x.state = 3 then { x with state := 1 } else x) s)
      (modPort p (fun x => { x with tec := 0, rec_ := 0, busOff := false, recovering := false }) s)

/-- A port takes a new configuration at its boundary (R364, R379, R381). -/
def applyCan (old : Tbl (List Byte)) (p : Nat) (s : State) : State :=
  let was (sub : Nat) : List Byte := (Tbl.find old (objKey (0x3600 + p) sub)).getD (defaultBytes (0x3600 + p) sub)
  let s := if was 1 = cfgBytes s (0x3600 + p) 1 then s else modeChanged p s
  let s := if canMode s p = 0 ∧ was 1 = cfgBytes s (0x3600 + p) 1 then s else canLevels p s
  let s := modPort p (fun x => { x with fdEnabled := canMode s p != 0 && bitOf (canFlags s p) 0 }) s
  forAll (List.range 64) (fun i s =>
    if was (0x21 + i) = cfgBytes s (0x3600 + p) (0x21 + i) then s
    else
      let one (b : Nat) (s : State) : State :=
        if bufRecOf ((was (0x21 + i)).drop (16 * (b % 2))) = bufRec s p b then s
        else { s with can := { s.can with bufs := Tbl.put s.can.bufs {} (p * 128 + b) { lastRx := if (bufRec s p b).kind = 0 then 0 else s.now } } }
      one (2 * i + 1) (one (2 * i) s)) s

/-- The new active unit turns its ports to NORMAL at its first release and sends what the old unit had not sent (R382). -/
def canTakeover (s : State) : State :=
  forAll (List.range 8) (fun p s =>
    if (getPort s p).restricted then
      canOffer p (modPort p (fun x => { x with restricted := false, tec := 0, rec_ := 0, warning := false, passive := false }) s)
    else s) s

/-- A unit that becomes a standby runs its NORMAL ports in RESTRICTED; its held frames are lost (R382). -/
def canStandby (s : State) : State :=
  forAll (List.range 8) (fun p s =>
    if canMode s p = 1 then
      forAll (canBufs s p) (fun b s => modBuf p b (fun x =>
          if x.state = 2 ∨ x.state = 3 then { x with state := 1 } else x) s)
        (modPort p (fun x => { x with restricted := true }) s)
    else s) s

/-- `CAN_STATUS` (Table 15.8). -/
def canStatus (s : State) (p : Nat) : Nat :=
  let x := getPort s p
  let st (n : Nat) : Bool := (canBufs s p).any (fun b => (getBuf s p b).state == n)
  flagWord [(0, x.synchronised), (1, x.fdEnabled), (2, st 4), (3, st 3), (4, x.warning), (5, x.passive),
    (6, x.busOff), (7, x.recovering), (8, x.restricted), (9, x.locked)]

/-- Buffer status (Table 15.9). -/
def bufStatus (s : State) (p b : Nat) : List Byte :=
  let r := bufRec s p b
  let x := getBuf s p b
  if r.kind = 0 then List.replicate 8 0
  else
    leBytes 1 (if x.onBus.isSome then 2 else x.state)
    ++ leBytes 1 (flagWord [(0, x.timeout), (1, x.overwritten), (2, x.overflow), (3, x.short), (4, x.txLate),
      (5, x.collision), (6, x.flushed)])
    ++ leBytes 1 (if r.kind = 2 then x.rx.length else 0) ++ leBytes 1 x.len ++ leBytes 4 x.count

/-- `CAN_COUNTERS` (Table 15.7). -/
def canCounters (x : CanPort) : List Byte :=
  [x.received, x.sent, x.errors, x.busOffs, x.unmatched, x.exceptions, x.collisions, x.suppressed].flatMap (leBytes 4)

/-- Buffer memory of a port's records, bytes (R368). -/
def canMemory (rs : List BufRec) : Nat :=
  rs.foldl (fun a r => a + (if r.kind = 0 then 0 else if r.kind = 2 then r.depth * 80 + 16 else 80)) 0

end Sys2Proof.Machine
end

