-- ==== Sys2Proof/Machine/FormeImage.lean ====
section
/-! DEFINITION. A forme read from the bytes of its image (08 R171, Tables 8.1 and 8.5; 10 R227). The places of the fields in
the entries that the manual does not lay out are free (log entry 80). -/

namespace Sys2Proof.Machine

/-- Bytes cut into entries of `n`. -/
def entries (n : Nat) (b : List Byte) : List (List Byte) := (List.range (b.length / n)).map (fun i => (b.drop (n * i)).take n)

/-- "PXFM" and "PXSF". -/
def magicForme : List Byte := [0x50, 0x58, 0x46, 0x4D]
def magicSafety : List Byte := [0x50, 0x58, 0x53, 0x46]

/-- A task definition (Table 8.5). -/
def taskEntry (b : List Byte) : TaskDef :=
  ⟨fieldAt b 0 1, fieldAt b 1 1, fieldAt b 2 1, fieldAt b 4 4, fieldAt b 8 4, fieldAt b 12 4⟩

/-- Sections stand in order on 64-byte boundaries, none before the end of the one ahead of it. -/
def inOrder : Nat → List (Nat × Nat) → Bool
  | _, [] => true
  | at_, (o, l) :: r => o % 64 == 0 && decide (at_ ≤ o) && inOrder (o + l) r

/-- Sizes of the sections' entries, TASKS first: 16, 4, any, 8, 16, 24, 24, then 4 and any in a forme, and 64 last. -/
def entrySizes (safety : Bool) : List Nat := [16, 4, 1, 8, 16, 24, 24] ++ (if safety then [] else [4, 1]) ++ [64]

/-- The sections follow Table 8.1: their number, their order, their entries, one signature, and 48 tasks or one. -/
def sectionsOk (safety : Bool) (l : List (Nat × Nat)) (size : Nat) : Bool :=
  l.length == (entrySizes safety).length && inOrder 128 l && (l.zip (entrySizes safety)).all (fun e => e.1.2 % e.2 == 0)
    && (l.getD 0 (0, 0)).2 == (if safety then 16 else 16 * 48)
    && (l.getLastD (0, 0)).2 == 64 && (l.getLastD (0, 0)).1 + 64 == size

/-- The forme that an image spells. Of the bytes an object of fixed length holds, a safety forme takes those up to the end
of its SIGNATURE; any other image is as long as its bytes. -/
def formeOf (img : List Byte) : Forme :=
  let h := Config.formeHeader (img.take 128)
  let safety := img.take 4 == magicSafety
  let at_ (i : Nat) : Nat × Nat := h.sections.getD i (0, 0)
  let section_ (i : Nat) : List Byte := (img.drop (at_ i).1).take (at_ i).2
  let size := if safety then (h.sections.getLastD (0, 0)).1 + 64 else img.length
  let constants := section_ 2
  let insts := entries 24 (section_ 5)
  let vars := entries 24 (section_ 6)
  { headerOk := (img.take 4 == magicForme || safety) && h.version == 1 && h.rom == 0x42 && sectionsOk safety h.sections size
                  && decide (size ≤ img.length)
    safety := safety, id := h.id, size := size, dataSize := h.dataSize, retainSize := h.retainSize
    wcetA := h.wcetA, wcetB := h.wcetB
    tasks := (entries 16 (section_ 0)).map taskEntry
    code := (entries 4 (section_ 1)).map (fun b => BitVec.ofNat 32 (leVal b))
    consts := Memory.writeN [] 0 constants
    calls := (entries 8 (section_ 3)).map (fun b => let c := Config.callEntry b; ⟨c.1, c.2.1, c.2.2⟩)
    types := (entries 16 (section_ 4)).map (fun b => let e := Config.typeEntry b; ⟨fieldAt b 0 8, e.1, e.2⟩)
    insts := ((List.range insts.length).zip insts).map (fun e =>
      let i := Config.instEntry e.2
      ⟨fieldAt e.2 0 8, i.1, i.2.1, i.2.2.1, i.2.2.2, Config.instInit constants e.1⟩)
    vars := ((List.range vars.length).zip vars).map (fun e =>
      let v := Config.varEntry e.2
      ⟨fieldAt e.2 0 8, v.1, v.2.1, v.2.2.1, v.2.2.2.1, v.2.2.2.2, Config.varInit constants e.1⟩)
    points := if safety then [] else Config.pointLists ((entries 4 (section_ 7)).map leVal)
    charts := if safety then [] else Config.chartTable (section_ 8) }

end Sys2Proof.Machine
end

