-- ==== Sys2Proof/Machine/SafetyOps.lean ====
section
/-! DEFINITION. The safety complex's shared operations: faults, coded words, proof words, the two passes, and the
function instances (10; 11 R256 to R273). -/

namespace Sys2Proof

/-- Codes of Table 11.3 and Table 11.4. -/
def SfState.num : SfState → Nat
  | .unconfigured => 0 | .demand => 1 | .waitReset => 2 | .released => 3 | .discrepancy => 4 | .discClearing => 5
  | .inputFault => 6 | .waitIdle => 0x10 | .ready => 0x11 | .oneHand => 0x12 | .active => 0x13

/-- The state of a code. -/
def SfState.ofNum (n : Nat) : SfState :=
  match n with
  | 1 => .demand
  | 2 => .waitReset
  | 3 => .released
  | 4 => .discrepancy
  | 5 => .discClearing
  | 6 => .inputFault
  | 0x10 => .waitIdle
  | 0x11 => .ready
  | 0x12 => .oneHand
  | 0x13 => .active
  | _ => .unconfigured

end Sys2Proof

namespace Sys2Proof.Machine

/-! ### Configuration -/

/-- T_safe, ns (R231). -/
def tSafe (s : State) : Nat := cfgNat s 0x6000 3 * msNs

/-- The quotient rounded up. -/
def ceilDiv (a b : Nat) : Nat := (a + b - 1) / b

/-- Fields of `SI_CONFIG`, `SO_CONFIG` and `SF_RECORD` (Tables 11.10 to 11.12). -/
def siField (s : State) (n o w : Nat) : Nat := fieldAt (cfgBytes s 0x6000 (0x20 + n)) o w
def soField (s : State) (k o w : Nat) : Nat := fieldAt (cfgBytes s 0x6000 (0x30 + k)) o w
def sfField (s : State) (f o w : Nat) : Nat := fieldAt (cfgBytes s 0x6000 (0x40 + f)) o w

abbrev siMode (s : State) (n : Nat) : Nat := siField s n 0 1
abbrev sfInput (s : State) (f : Nat) : Nat := sfField s f 0 1

/-- Kinds of instances by number (Table 11.1): 0 emergency stop, 1 guard, 2 two-hand, 3 light curtain. -/
def sfKind (f : Nat) : Nat := if f < 16 then 0 else if f < 32 then 1 else if f < 36 then 2 else 3

/-- The configured instances, ascending. -/
def sfUsed (s : State) : List Nat := (List.range 44).filter (fun f => sfInput s f < 16)

/-- The safety complex runs cycles: SAFE is up, JOINED, and not halted (R226, R250). -/
def safetyRuns (s : State) : Bool :=
  up s && domainOn s 5 && (match s.safe.state with
    | .split | .safeHalt => false
    | _ => true)

/-- The safety clock, ns (R230). -/
def safetyClock (s : State) : Int := (s.safe.k * tSafe s : Nat)

/-! ### Status points (R247, R248) -/

/-- A value of a fixed status index (Table 10.4). -/
def statusFixed (s : State) (i : Nat) : Nat :=
  let x := s.safe
  match i with
  | 0 => x.state.num + 256 * x.cause + flagBit 16 (s.sio.terms.any (fun e => e.2.held)) + flagBit 17 (x.missHistory.contains true)
  | 1 => x.vector
  | 2 => x.agreedDone
  | 3 => x.cycles % 2 ^ 32
  | _ => 0

/-- Status points are published with the commit instant. -/
def publishStatus (s : State) : State :=
  let live := decide (s.safe.state = .running) || decide (s.safe.state = .safeStop)
  let ts := localNow s
  ((mapRecs s).map Prod.snd).foldl (fun s m =>
    if m.kind = 9 ∧ !m.isOut then
      (List.range m.count).foldl (fun s j =>
        let i := m.a + j
        let v : BitVec 32 := if i < 16 then BitVec.ofNat 32 (statusFixed s i) else Tbl.get s.safe.status 0 i
        if live || i = 0 then produce (m.first + j) v 0 ts s else produce (m.first + j) 0 0x45 ts s) s
    else s) s

/-! ### Faults (R250) -/

/-- The initial plain data of a forme: its variables' initial values (08 Table 8.1). -/
def initMemory (f : Forme) (retained : Bool) : Memory :=
  f.vars.foldl (fun m v => if v.retained = retained then Memory.writeN m v.offset v.init else m) []

/-- Globals lie above the instance area in the model's plain data. -/
abbrev globBase : Nat := 2 ^ 22

/-- The safety forme's plain data at their initial values: its instances' (INSTANCES) and its variables'. -/
def initPlain (f : Forme) : Memory :=
  f.vars.foldl (fun m v => Memory.writeN m (globBase + v.offset) v.init)
    (f.insts.foldl (fun m i => Memory.writeN m i.offset i.init) [])

/-- A in R238, and the tag of a cycle. -/
abbrev codeA : Int := 58659
def tagOf (k : Nat) : Int := 1 + (k % 4096 : Nat)

/-- A value as one of a type of the safety type set: a BOOL is 0 or 1, an unsigned type's value is not negative, and every
other's is its 32 bits sign-extended (R238; codes of 04 Table 4.1). -/
def typedWord (ty : Nat) (v : Word64) : Word64 :=
  if ty = 1 then v &&& 1 else if 6 ≤ ty ∧ ty ≤ 9 then (v.truncate 32).zeroExtend 64 else (v.truncate 32).signExtend 64

/-- A value lies in the 32-bit range of a type (R238). -/
def inType (ty : Nat) (v : Word64) : Bool := typedWord ty v == v

/-- The coded word of a value. -/
def encodeInt (k : Nat) (q : Int) : Int := codeA * q + tagOf k

/-- The value of a coded word, if it is valid in cycle k (R238). DEDUCED: the range of a word whose access names no type is
that of every 32-bit type together (log entry 41); a REG word's operands are held to its TYPE as well. -/
def decodeInt (k : Nat) (xc : Int) : Option Int :=
  let d := xc - tagOf k
  let q := d / codeA
  if d % codeA = 0 ∧ -(2 ^ 31 : Nat) ≤ q ∧ q < (2 ^ 32 : Nat) then some q else none

/-- The coded word of 32 bits, sign-extended, and the 32 bits of a coded word. -/
def encodeWord (k : Nat) (v : BitVec 32) : Int := encodeInt k v.toInt
def decodeWord (k : Nat) (xc : Int) : Option (BitVec 32) := (decodeInt k xc).map (BitVec.ofInt 32)

/-- A register's value as its coded word carries it: itself within the 32-bit types, else its low 32 bits sign-extended. -/
def codedValue (v : Word64) : Int :=
  if -(2 ^ 31 : Nat) ≤ v.toInt ∧ v.toInt < (2 ^ 32 : Nat) then v.toInt else (v.truncate 32 : BitVec 32).toInt

/-- A coded word takes a value; a word not listed reads 0. -/
def putCoded (k a : Nat) (v : BitVec 32) (c : Tbl Int) : Tbl Int :=
  if v = 0 ∧ (Tbl.find c a).isNone then c else Tbl.insert c a (encodeWord k v)

/-- Coded words take values from address `a` upward. -/
def putCodedN (k a : Nat) : List (BitVec 32) → Tbl Int → Tbl Int
  | [], c => c
  | v :: r, c => putCodedN k (a + 1) r (putCoded k a v c)

/-- The values of `n` coded words from `a` upward, if all are valid. -/
def getCodedN (k a n : Nat) (c : Tbl Int) : Option (List (BitVec 32)) :=
  (List.range n).mapM (fun i => match Tbl.find c (a + i) with
    | some x => decodeWord k x
    | none => some 0)

/-! Pass B's block instances, function instances and counts lie in its coded data above the forme's own. -/

abbrev blockBase : Nat := 2 ^ 26
abbrev instBase : Nat := 2 ^ 27
abbrev dualBase : Nat := 2 ^ 27 + 2 ^ 12
abbrev countBase : Nat := 2 ^ 27 + 2 ^ 13

/-- The words of a function instance, and the instance they hold (11 R257). -/
def sfWords (x : SfInst) : List (BitVec 32) :=
  [BitVec.ofNat 32 x.state.num,
    BitVec.ofNat 32 (flagWord [(0, x.enDelayed), (1, x.resetStuck), (2, x.resetIgnored), (3, x.syncExceeded),
      (4, x.resetRequired), (5, x.hand2), (6, x.seenActuated)]),
    BitVec.ofNat 32 x.lastCause, BitVec.ofNat 32 x.count, BitVec.ofNat 32 x.pressed,
    BitVec.ofNat 32 (match x.delayLeft with
      | some n => n + 1
      | none => 0)]

def sfOfWords (ws : List (BitVec 32)) : SfInst :=
  let w (i : Nat) : Nat := (ws.getD i 0).toNat
  let b (i : Nat) : Bool := bitOf (w 1) i
  { state := SfState.ofNum (w 0), enDelayed := b 0, resetStuck := b 1, resetIgnored := b 2, syncExceeded := b 3
    resetRequired := b 4, hand2 := b 5, seenActuated := b 6, lastCause := w 2, count := w 3, pressed := w 4
    delayLeft := if w 5 = 0 then none else some (w 5 - 1) }

/-- Pass B's function data take the values of pass A's kind: the configured instances, the discrepancy counts, the counts of
the banks. -/
def codeFunctions (used : List Nat) (x : Sio) (s : State) : State :=
  let k := s.safe.k
  let c := used.foldl (fun c f => putCodedN k (instBase + 8 * f) (sfWords (Tbl.get x.insts {} f)) c) s.safe.coded
  let c := (List.range 16).foldl (fun c n => putCoded k (dualBase + n) (BitVec.ofNat 32 (Tbl.get x.duals {} n).c) c) c
  let c := (List.range 32).foldl (fun c j =>
    let t := Tbl.get x.terms {} j
    putCoded k (countBase + j) (BitVec.ofNat 32 (t.disagree + 4 * (16 - t.agree) + 128 * (if t.held then 1 else 0))) c) c
  { s with safe := { s.safe with coded := c } }

/-- A 4-byte word of a store. -/
def wordAt (m : Memory) (a : Nat) : BitVec 32 := BitVec.ofNat 32 (leVal (Memory.readN m a 4))

/-- The type of the word of the plain data at a byte address: a variable's own, INT32 in an instance, whose layout the
forme does not carry (log entry 41). -/
def wordType (f : Forme) (a : Nat) : Nat :=
  ((f.vars.find? (fun v => globBase + v.offset == a)).map VarRec.type).getD 4

/-- The coded form of every word of the initial plain data, by byte address. -/
def codeAll (k : Nat) (f : Forme) (m : Memory) : Tbl Int :=
  (m.map (fun e => e.1 / 4 * 4)).foldl (fun c a =>
    Tbl.insert c a (encodeInt k (typedWord (wordType f a) ((wordAt m a).zeroExtend 64)).toInt)) []

/-- Data of both passes at their initial values, tagged for cycle k. -/
def reinitSafety (s : State) : State :=
  let f := s.safe.forme.getD {}
  let p := initPlain f
  { s with safe := { s.safe with plain := p, coded := codeAll s.safe.k f p, blocksA := [] } }

/-- Every function instance at its start: in demand with a reset required, or waiting for both hands, which take no reset
(R250, R273). -/
def sfStart (s : State) : State :=
  let s := { s with sio := { s.sio with insts := [], duals := [] } }
  forAll (sfUsed s) (fun f s =>
    modSf f (fun _ =>
      { state := if sfKind f = 2 then .waitIdle else .demand, lastCause := 6, resetRequired := decide (sfKind f ≠ 2) }) s) s

/-- The instances start anew in both passes. -/
def startFunctions (s : State) : State :=
  let s := sfStart s
  codeFunctions (sfUsed s) s.sio s

/-- A state of the complex is entered and recorded. -/
def enterSafety (st : SafetyState) (s : State) : State :=
  if s.safe.state = st then s
  else emit (0x1100 + st.num) 0 (leBytes 4 s.safe.k) { s with safe := { s.safe with state := st } }

/-- Every safety output off at once. -/
def stagesOff (s : State) : State :=
  { s with safe := { s.safe with vector := 0 }
           sio := { s.sio with stages := s.sio.stages.map (fun (e : Nat × SoStage) =>
             (e.1, { e.2 with
               hOn := e.2.hOn && e.2.hStuck, lOn := e.2.lOn && e.2.lStuck, commanded := false, committed := false, testing := 0, testDiscarded := e.2.testDiscarded || e.2.testing != 0
               changedAt := if e.2.committed then some s.now else e.2.changedAt })) } }

/-- The passes of this cycle end without a result. -/
def dropPasses (s : State) : State :=
  { s with safe := { s.safe with
    passA := { s.safe.passA with running := false, ended := false }
    passB := { s.safe.passB with running := false, ended := false }
    compared := false, equal := false } }

/-- SAFE_HALT (R250). -/
def safeHalt (s : State) : State := publishStatus (stagesOff (dropPasses (enterSafety .safeHalt s)))

/-- SAFE_STOP (R250): nothing of this cycle is committed, the data and the instances start anew. -/
def safeStop (s : State) : State := enterSafety .safeStop (startFunctions (reinitSafety (dropPasses s)))

/-- A cause that halts (Table 10.5). -/
def halting (cause : Nat) : Bool := 8 ≤ cause && cause ≤ 12

/-- One fault is counted in the objects and recorded with k and its core; one that is confined to its input (cause 0x0D)
leaves the proof window as it is. -/
def noteSafetyFault (cause core : Nat) (s : State) : State :=
  emit (0x1000 + cause) 0 (leBytes 4 s.safe.k ++ leBytes 1 core)
    { s with safe := { s.safe with
      cause := cause, faults := (s.safe.faults + 1) % 2 ^ 32, windowFault := s.safe.windowFault || decide (cause ≠ 0x0D) } }

/-- A fault of the safety complex (Table 10.5). -/
def safetyFault (cause core : Nat) (s : State) : State :=
  if s.safe.state = .safeHalt ∨ s.safe.state = .split then s
  else
    let s := noteSafetyFault cause core s
    if halting cause then safeHalt s
    else
      let c := addFault s.now s.safe.counted
      let s := { s with safe := { s.safe with counted := c } }
      if 3 ≤ c.length then safeHalt (noteSafetyFault 0x0B core s) else safeStop s

/-- The core a pass runs on in this cycle (R231). -/
def coreA (s : State) : Nat := if s.safe.k % 2 = 0 then 4 else 5
def coreB (s : State) : Nat := if s.safe.k % 2 = 0 then 5 else 4

/-! ### Proof words and results of a pass (R240, R242) -/

/-- A state write enters the pass's proof words: word offset and plain value, little-endian. -/
def foldWrite (addr : Nat) (v : BitVec 32) (p : Pass) : Pass :=
  let b := leBytes 4 addr ++ leBytes 4 v.toNat
  { p with window := crc64 p.window b, cycleWord := crc64 p.cycleWord b }

/-- The status digest: a CRC-64 over the 240 status values. -/
def statusDigest (p : Pass) : BitVec 64 :=
  crc64 0 ((List.range 240).flatMap (fun i => leBytes 4 (Tbl.get p.status 0 (16 + i)).toNat))

/-- The 16-bit output vector of the bits a pass wrote, outputs held off apart, by the agreed vector it formed (R242, R274,
R278). -/
def outVector (s : State) (agreed outs : Nat) : Nat :=
  (List.range 8).foldl (fun a k =>
    let fb := soField s k 1 1
    let was := bitOf s.safe.vector (2 * k)
    let open_ := fb < 32 && !bitOf agreed fb
    if bitOf outs k && soField s k 0 1 != 0 && (was || !open_) then a + 3 * 2 ^ (2 * k) else a) 0

/-- Six of the delay registers take pass A's results, each with its complement (R243). -/
def delayRegs (s : State) : List (BitVec 64 × BitVec 64) :=
  let p := s.safe.passA
  ([BitVec.ofNat 64 (outVector s s.safe.agreed p.outs), statusDigest p, p.cycleWord, p.window, BitVec.ofNat 64 s.safe.k,
    BitVec.ofInt 64 (tagOf s.safe.k)]).map (fun w => (w, ~~~w)) ++ s.safe.delay.drop 6

/-- A read of a delay register: its word, if word XOR complement is all ones (R243). -/
def delayWord (s : State) (i : Nat) : Option (BitVec 64) :=
  match s.safe.delay[i]? with
  | some (w, c) => if w ^^^ c = ~~~0 then some w else none
  | none => none

/-- Pass A ends: its results are held. -/
def endPassA (s : State) : State :=
  let t := s.now - s.safe.passA.startedAt
  { s with safe := { s.safe with
    passA := { s.safe.passA with running := false, ended := true }, delay := delayRegs s, maxA := max s.safe.maxA (sat 32 t) } }

/-- Pass B ends. -/
def endPassB (s : State) : State :=
  let t := s.now - s.safe.passB.startedAt
  { s with safe := { s.safe with
    passB := { s.safe.passB with running := false, ended := true }, maxB := max s.safe.maxB (sat 32 t) } }

/-- A pass starts at the forme's entry; pass B's registers hold coded zeros, and pass A follows the mailbox by 25 µs. -/
def startPass (s : State) (entry : Nat) (coded : Bool) (p : Pass) : Pass :=
  { p with
    running := true, ended := false, startedAt := if coded then s.now else s.now + 25 * usNs, outs := 0, status := [], cycleWord := 0
    window := if s.safe.k % 16 = 0 then 0 else p.window
    cyc := { pc := entry
             regs := if coded then (List.range 32).map (fun w => (w, BitVec.ofInt 64 (tagOf s.safe.k))) else [] } }

/-- Entry of the safety program. -/
def safetyEntry (f : Forme) : Nat := match f.tasks with
  | t :: _ => t.entry
  | [] => 0

/-! ### Inputs (R235, R236, R259) -/

/-- A bank's posted value of a terminal (R235). -/
def posted (w : MailWord) (j : Nat) : Bool := w.word.getLsbD j

/-- Agreed value of a terminal. -/
def agreedBit (s : State) (j : Nat) : Bool := bitOf s.safe.agreed j

/-- Released value of a channel (Table 11.2): channel B of mode 0x03 releases at 0. -/
def releasedValue (mode j : Nat) : Bool := !(mode == 3 && j % 2 == 1)

/-- Test-pulse source of a terminal: TP_A of an A channel, TP_B of a B channel (R259). -/
def tpSource (s : State) (j : Nat) : Nat := siField s (j / 2) (1 + j % 2) 1

/-- The terminal's source has switched off on overload (R264). -/
def tpOff (s : State) (j : Nat) : Bool := tpSource s j < 8 && (getTp s (tpSource s j)).overload

/-- The value a channel is evaluated with: at demand while held, test-failed, left dark, its source off or FSB off. -/
def channelValue (s : State) (j : Nat) : Bool :=
  let rel := releasedValue (siMode s (j / 2)) j
  if tpOff s j || (getTerm s (2 * (j / 2))).held || (getTerm s (2 * (j / 2) + 1)).held || (getTerm s j).testFailed ||
    (getTerm s j).darkHeld || s.pwr.fsbOff
  then !rel else agreedBit s j

/-- A channel is at demand (R259). -/
def atDemand (s : State) (j : Nat) : Bool :=
  let m := siMode s (j / 2)
  1 ≤ m && m ≤ 3 && channelValue s j != releasedValue m j

/-- Disagreement counts and the holds of capture-path faults follow the two posted entries (R235, R236). -/
def captureCounts (s : State) : State :=
  forAll (List.range 32) (fun j s =>
    let x := getTerm s j
    if posted s.safe.mail1 j = posted s.safe.mail2 j then
      let s := modTerm j (fun x => { x with
        disagree := 0, agree := min 16 (x.agree + 1), held := x.held && x.agree < 15 }) s
      if x.held ∧ 15 ≤ x.agree then emit 0x1781 (0xB000 + j / 2) (leBytes 1 j) s else s
    else
      let s := modTerm j (fun x => { x with disagree := min 3 (x.disagree + 1), agree := 0, held := x.held || 2 ≤ x.disagree }) s
      if x.disagree = 2 ∧ !x.held then
        emit 0x1701 (0xB000 + j / 2) (leBytes 1 j) (noteSafetyFault 0x0D (coreA s) s) else s) s

/-- The agreed vector of both posted entries, a held single terminal at 0. -/
def agreedVector (s : State) : Nat :=
  (List.range 32).foldl (fun a j =>
    let x := getTerm s j
    if posted s.safe.mail1 j && posted s.safe.mail2 j && !(x.held && siMode s (j / 2) == 4) then a + 2 ^ j else a) 0

/-! ### Function instances (R266 to R273) -/

/-- Window of a dual input, cycles (R266). -/
def discWindow (s : State) (n : Nat) : Nat := ceilDiv (siField s n 4 2 * msNs) (tSafe s)

/-- A hand is released with no channel at demand; it is actuated when its terminals read A = 0, B = 1 (R273). -/
def handReleased (s : State) (n : Nat) : Bool := !atDemand s (2 * n) && !atDemand s (2 * n + 1)
def handActuated (s : State) (n : Nat) : Bool := !agreedBit s (2 * n) && agreedBit s (2 * n + 1)

/-- Count of cycles in which exactly one channel of a dual input is at demand, as it is of a hand that reads neither released
nor actuated (R266, R273). -/
def dualCounts (s : State) : State :=
  forAll (List.range 16) (fun n s =>
    let m := siMode s n
    let one := 1 ≤ m && m ≤ 3 && atDemand s (2 * n) != atDemand s (2 * n + 1)
    let c := if one then min 65535 ((Tbl.get s.sio.duals {} n).c + 1) else 0
    { s with sio := { s.sio with duals := Tbl.put s.sio.duals {} n { c := c } } }) s

def dualOver (s : State) (n : Nat) : Bool := decide (discWindow s n < (Tbl.get s.sio.duals {} n).c)

/-- A request's word in the mailbox, its read, and its value. -/
def requestWord (s : State) (i : Nat) : MailWord := Tbl.get s.safe.requests {} i
def requestValue (s : State) (i : Nat) : BitVec 32 := (requestWord s i).word

/-- The reset source of an instance is pressed (R268). -/
def resetPressed (s : State) (f : Nat) : Bool :=
  let src := sfField s f 4 2
  match sfField s f 2 1 with
  | 1 => src < 32 && agreedBit s src
  | 2 => requestValue s src != 0
  | _ => false

/-- The mailbox words that an evaluation reads have their complements: the banks, the cycle number, the requests that are
reset sources (R237). -/
def mailOk (s : State) : Bool :=
  s.safe.mail1.read.isSome && s.safe.mail2.read.isSome && s.safe.mailCycle.read.isSome &&
    (sfUsed s).all (fun f => sfField s f 2 1 != 2 || (requestWord s (sfField s f 4 2)).read.isSome)

/-- Limits of a press in cycles. -/
def pressMin (s : State) : Nat := ceilDiv (50 * msNs) (tSafe s)
def pressMax (s : State) : Nat := 3000 * msNs / tSafe s

/-- The next state of an emergency stop, guard or curtain, whether it took the reset edge, and whether a reset is
required after (Table 11.3, R269, R270). -/
def sfNext (st : SfState) (req fault disc a b edge auto fsb : Bool) : SfState × Bool × Bool :=
  let req := req || fsb
  if fault then (.inputFault, false, req)
  else match st with
  | .inputFault => (.demand, false, true)
  | .discrepancy => (if a && b then .discClearing else .discrepancy, false, req)
  | .discClearing => if disc then (.discrepancy, false, req) else if !a && !b then (.waitReset, false, true) else (st, false, req)
  | .demand => if disc then (.discrepancy, false, req) else if a || b then (st, false, req) else (.waitReset, false, req)
  | .waitReset =>
    if disc then (.discrepancy, false, req) else if a || b then (.demand, false, req)
    else if edge || (auto && !req) then (.released, edge, false) else (st, false, req)
  | .released =>
    if disc then (.discrepancy, false, req) else if a || b then (.demand, false, req) else (st, false, req)
  | st => (st, false, req)

/-- EN_DELAYED and the cycles left to its fall after an evaluation (R271). -/
def enDelay (n : Nat) (wasEn en wasD : Bool) (left : Option Nat) : Bool × Option Nat :=
  let left := if wasEn && !en && wasD && left.isNone then some (n + 1) else left
  match left with
  | some (m + 1) => if m = 0 then (false, none) else (wasD, some m)
  | some 0 => (false, none)
  | none => (wasD || (en && !wasEn), none)

/-- EN of an instance. -/
def sfEn (st : SfState) : Bool := decide (st = .released) || decide (st = .active)

def sfSource (f : Nat) : Nat := 0xB200 + f

/-- Channel still released as records name it: 1 A, 2 B, 0 neither. -/
def stillReleased (a b : Bool) : Nat := if !a && b then 1 else if a && !b then 2 else 0

/-- One evaluation of an emergency stop, guard or light curtain. -/
def evalSafe (f : Nat) (s : State) : State :=
  let n := sfInput s f
  let x := getSf s f
  let a := atDemand s (2 * n)
  let b := atDemand s (2 * n + 1)
  let pr := resetPressed s f
  let p := if pr then min 65535 (x.pressed + 1) else 0
  let edge := !pr && decide (pressMin s ≤ x.pressed) && decide (x.pressed ≤ pressMax s)
  let stuck := decide (pressMax s < p)
  let t (j : Nat) : Terminal := getTerm s j
  let fault := (t (2 * n)).tpFault || (t (2 * n + 1)).tpFault || (t (2 * n)).held || (t (2 * n + 1)).held
  let auto := sfField s f 3 1 == 1 && sfKind f != 0
  let (st, used, req) := sfNext x.state x.resetRequired fault (dualOver s n) a b edge auto s.pwr.fsbOff
  let en := st = .released
  let wasEn := x.state = .released
  let cause :=
    if st = .discrepancy ∧ x.state ≠ .discrepancy then 4
    else if st = .inputFault ∧ x.state ≠ .inputFault then 5
    else if wasEn ∧ ¬ en then (if s.pwr.fsbOff then 7 else if a && b then 3 else if a then 1 else 2)
    else x.lastCause
  let (d, left) := if sfKind f = 0 then
    enDelay (ceilDiv (sfField s f 6 2 * msNs) (tSafe s)) wasEn en x.enDelayed x.delayLeft else (decide en, none)
  let s := modSf f (fun x => { x with
    state := st, enDelayed := d, delayLeft := left, resetStuck := stuck, resetIgnored := edge && !used
    resetRequired := req, lastCause := cause, pressed := p }) s
  let s := if st = .discrepancy ∧ x.state ≠ .discrepancy then
      emit 0x1201 (sfSource f) (leBytes 1 4 ++ leBytes 1 (stillReleased a b)) s
    else if st = .inputFault ∧ x.state ≠ .inputFault then emit 0x1202 (sfSource f) (leBytes 1 5 ++ [0]) s else s
  if stuck && !x.resetStuck then emit 0x1204 (sfSource f) (leBytes 1 cause ++ [0]) s else s

/-- Synchronism limit, cycles (R273). -/
def syncLimit (s : State) (f : Nat) : Nat := sfField s f 6 2 * msNs / tSafe s - 1

/-- The next state of a two-hand instance without faults (Table 11.4): state, cycles in ONE_HAND, hand 2 first. -/
def handNext (x : SfInst) (r1 r2 a1 a2 : Bool) (limit : Nat) : SfState × Nat × Bool :=
  match x.state with
  | .waitIdle => if r1 && r2 then (.ready, 0, false) else (.waitIdle, 0, false)
  | .ready =>
    if a1 && a2 then (.active, 0, false) else if a1 then (.oneHand, 0, false) else if a2 then (.oneHand, 0, true)
    else (.ready, 0, false)
  | .oneHand =>
    let c := x.count + 1
    let other := if x.hand2 then a1 else a2
    let back := if x.hand2 then r2 else r1
    if other && (if x.hand2 then a2 else a1) && c ≤ limit then (.active, 0, false)
    else if limit < c then (.waitIdle, c, x.hand2)
    else if back then (.ready, 0, false) else (.oneHand, c, x.hand2)
  | .active => if a1 && a2 then (.active, 0, false) else (.waitIdle, 0, false)
  | st => (st, x.count, x.hand2)

/-- One evaluation of a two-hand instance (R273). -/
def evalHands (f : Nat) (s : State) : State :=
  let n1 := sfInput s f
  let n2 := sfField s f 1 1
  let x := getSf s f
  let bad (n : Nat) : Bool := let t (j : Nat) : Terminal := getTerm s j
    (t (2 * n)).tpFault || (t (2 * n + 1)).tpFault || (t (2 * n)).held || (t (2 * n + 1)).held
  let r1 := handReleased s n1
  let r2 := handReleased s n2
  let a1 := handActuated s n1
  let a2 := handActuated s n2
  let over1 := dualOver s n1
  let over2 := dualOver s n2
  let put (y : SfInst) : State := modSf f (fun _ => { y with enDelayed := sfEn y.state, resetRequired := false }) s
  if bad n1 || bad n2 then
    let s := put { x with state := .inputFault, lastCause := if x.state = .inputFault then x.lastCause else 5 }
    if x.state = .inputFault then s else emit 0x1202 (sfSource f) (leBytes 1 5 ++ [0]) s
  else if x.state = .inputFault then put { x with state := .waitIdle, count := 0 }
  else if x.state = .discrepancy then
    let mine := if x.hand2 then (r2, a2) else (r1, a1)
    let other := if x.hand2 then r1 else r2
    if !other then put { x with seenActuated := false }
    else if mine.2 then put { x with seenActuated := true }
    else if mine.1 && x.seenActuated then put { x with state := .waitIdle, seenActuated := false, count := 0 }
    else put x
  else if over1 || over2 then
    let n := if over1 then n1 else n2
    let s := put { x with state := .discrepancy, hand2 := !over1, seenActuated := false, lastCause := 4 }
    emit 0x1201 (sfSource f) (leBytes 1 4 ++ leBytes 1 (stillReleased (atDemand s (2 * n)) (atDemand s (2 * n + 1)))) s
  else if s.pwr.fsbOff then
    put { x with state := .waitIdle, count := 0, lastCause := if x.state = .active then 7 else x.lastCause }
  else
    let (st, c, h2) := handNext x r1 r2 a1 a2 (syncLimit s f)
    let exceeded := x.state = .oneHand ∧ st = .waitIdle
    let s := put { x with
      state := st, count := c, hand2 := h2
      syncExceeded := if exceeded then true else if st = .ready ∧ x.state ≠ .ready then false else x.syncExceeded
      lastCause := if x.state = .active ∧ st = .waitIdle then 8 else x.lastCause }
    if exceeded then emit 0x1203 (sfSource f) (leBytes 1 x.lastCause ++ [0]) s else s

/-- Every configured instance in ascending order (R257); in SAFE_STOP they stay as they start (R250). -/
def evaluate (s : State) : State :=
  if s.safe.state = .safeStop then s
  else forAll (sfUsed s) (fun f s => if sfKind f = 2 then evalHands f s else evalSafe f s) s

/-- Pass B's own function data, decoded, beside what both passes see: none where a coded word is not valid (11 R257). -/
def codedView (s : State) : Option State :=
  let k := s.safe.k
  let c := s.safe.coded
  match (List.range 44).mapM (fun f => (getCodedN k (instBase + 8 * f) 6 c).map (fun w => (f, sfOfWords w))),
    getCodedN k dualBase 16 c, getCodedN k countBase 32 c with
  | some is, some ds, some cs =>
    let terms := (List.range 32).foldl (fun m j =>
      let w := (cs.getD j 0).toNat
      Tbl.put m {} j { Tbl.get s.safe.seenTerms {} j with
        disagree := w % 4, agree := 16 - w / 4 % 32, held := decide (128 ≤ w) }) s.safe.seenTerms
    some { s with
      pwr := { s.pwr with fsbOff := s.safe.seenFsb }
      sio := { s.sio with
        terms := terms, tps := s.safe.seenTps
        insts := is.filter (fun e => sfInput s e.1 < 16)
        duals := (List.range 16).foldl (fun m n => Tbl.put m {} n { c := (ds.getD n 0).toNat }) [] } }
  | _, _, _ => none

/-- The agreed vector and the evaluation of a pass (R235; 11 R257). -/
def evaluation (s : State) : State :=
  let s := captureCounts s
  evaluate (dualCounts { s with safe := { s.safe with agreed := agreedVector s } })

/-- Pass B evaluates on its coded data: the instances and counts change there, its agreed vector is its own; records and
statuses are pass A's. -/
def evaluateCoded (s : State) : Option State :=
  (codedView s).map (fun v =>
    let v := evaluation v
    codeFunctions (sfUsed s) v.sio { s with safe := { s.safe with agreedB := v.safe.agreed } })

/-- `SF_STATUS` (Table 11.13) and `SI_STATUS` (Table 11.14) as they stand. -/
def sfStatus (x : SfInst) : List Byte :=
  leBytes 1 x.state.num ++ leBytes 1 (flagWord [(0, sfEn x.state), (1, x.enDelayed), (2, x.resetStuck), (3, x.resetIgnored),
    (4, x.syncExceeded), (5, x.resetRequired && decide (x.state ≠ .unconfigured))])
    ++ leBytes 1 x.lastCause ++ [0]

def siStatus (s : State) (n : Nat) : Nat :=
  let a := getTerm s (2 * n)
  let b := getTerm s (2 * n + 1)
  flagWord [(0, agreedBit s (2 * n)), (1, agreedBit s (2 * n + 1)), (2, decide (0 < (Tbl.get s.sio.duals {} n).c)),
    (3, a.tpFault), (4, b.tpFault), (5, a.held || b.held), (6, a.testFailed || b.testFailed)]

/-- The statuses of the committed cycle are shown. -/
def showSafety (s : State) : State :=
  { s with sio := { s.sio with
    shownSf := (sfUsed s).foldl (fun m f => Tbl.insert m f (sfStatus (getSf s f))) []
    shownSi := (List.range 16).foldl (fun m n => Tbl.put m 0 n (siStatus s n)) [] } }

/-- `SO_STATUS` (Table 11.15). -/
def soStatus (x : SoStage) : Nat :=
  flagWord [(0, x.hOn && x.lOn), (1, x.commanded), (2, x.latched), (3, x.testDiscarded), (4, x.hStuck), (5, x.lStuck),
    (6, x.overcurrent), (7, x.external), (8, x.feedback)]

end Sys2Proof.Machine
end

