-- ==== Sys2Proof/Machine/Program.lean ====
section
/-! DEFINITION. What a task's cycle is and does: the program clock, snapshots, commit and release, missed releases and
task faults, the migration of an online change, and the entry of each mode (01 R11, R14; 08 R178 to R196). -/

namespace Sys2Proof.Machine

/-! ### Program clock (R179) -/

/-- The program clock now: it runs in RUN. -/
def clockNow (s : State) : Int :=
  if s.prog.mode = .run then s.prog.clock + (localNow s - s.prog.clockAt) else s.prog.clock

/-- The clock is taken to where it stands. -/
def settleClock (s : State) : State :=
  { s with prog := { s.prog with clock := clockNow s, clockAt := localNow s } }

/-! ### Tasks and their definitions (R181) -/

/-- Definition of task k in the active forme. -/
def taskDef (s : State) (k : Nat) : TaskDef :=
  match s.prog.forme with
  | some f => f.tasks.getD k {}
  | none => {}

/-- A task is in use. -/
def taskUsed (s : State) (k : Nat) : Bool := (taskDef s k).kind != 0

/-- A release interval: the period, ns. -/
def taskPeriod (s : State) (k : Nat) : Nat := (taskDef s k).periodUs * usNs

/-- The application cores run: APP is up. -/
def appUp (s : State) : Bool := up s && domainOn s 4

/-! ### Snapshot (R11, R178; 15 R371, R372) -/

def snapPoints (s : State) : Tbl Pt :=
  ((mapRecs s).flatMap (fun e => e.2.points)).foldl (fun m p => Tbl.insert m p (readPoint s p)) []

/-- The frames each buffer offers a task released now, and its reception counts. -/
def snapCanOf (s : State) : Tbl (List CanRx) :=
  s.can.bufs.filterMap (fun (e : Nat × CanBuf) => if e.2.rx.isEmpty then none else some (e.1, e.2.rx))
def snapCountOf (s : State) : Tbl Nat :=
  s.can.bufs.filterMap (fun (e : Nat × CanBuf) => if e.2.count = 0 then none else some (e.1, e.2.count))

/-- A buffer still has a frame queued. -/
def bufQueued (x : CanBuf) : Bool := x.state == 2 || x.state == 3 || x.onBus.isSome
def snapQueuedOf (s : State) : List Nat := (s.can.bufs.filter (fun (e : Nat × CanBuf) => bufQueued e.2)).map Prod.fst
def snapPortsOf (s : State) : List (Nat × Nat × Nat) :=
  (List.range 8).map (fun p => let x := getPort s p; (canStatus s p, min x.tec 255, min x.rec_ 255))

/-- Bytes a cycle wrote enter committed data. -/
def writeAll (m : Memory) (w : Tbl Byte) : Memory := w.foldl (fun m e => Memory.write m e.1 e.2) m

/-- The cycles of task k that have ended and still wait for their commit, oldest first (16 R395, R398). -/
def heldCycles (s : State) (k : Nat) : List Cycle :=
  s.pair.held.filterMap (fun h => match h.cycle with
    | some (j, c) => if j = k then some c else none
    | none => none) ++ (Tbl.find s.pair.own k).toList

/-- The frames a buffer offers, less those that cycles popped which still wait for their commit (15 R372). -/
def lessPops (held : List Cycle) (m : Tbl (List CanRx)) : Tbl (List CanRx) :=
  held.foldl (fun m c => c.pops.foldl (fun m e => Tbl.modify m [] e.1 (fun l => l.drop e.2)) m) m

/-- A fresh cycle of task k at its release; what its own earlier cycles wrote and have not committed yet it sees (R178). -/
def newCycle (s : State) (k : Nat) (clock : Int) (step : Bool) : Cycle :=
  let held := heldCycles s k
  { pc := (taskDef s k).entry, snap := snapPoints s
    snapGlobals := held.foldl (fun m c => writeAll m c.wGlob) s.prog.glob
    snapRetained := held.foldl (fun m c => writeAll m c.wRet) s.prog.ret
    snapCan := lessPops held (snapCanOf s), snapCount := snapCountOf s
    snapPorts := snapPortsOf s, snapQueued := snapQueuedOf s, releasedAt := s.now, clock := clock, step := step }

/-! ### Commit (R14, R176, R178) -/

/-- Frames a committed cycle popped leave their queues (15 R372). -/
def dropPops (pops : Tbl Nat) (s : State) : State :=
  pops.foldl (fun s e => modBuf (e.1 / 128) (e.1 % 128) (fun x => { x with rx := x.rx.drop e.2 }) s) s

/-- The first cycle committed after a swap commits the swap: the new forme is the active one in flash, the old one the
candidate (R173, R193). -/
def settleSwap (s : State) : State :=
  if s.prog.uncommitted.isSome then
    { s with prog := { s.prog with uncommitted := none, candidate := s.prog.flashForme, flashForme := s.prog.forme } }
  else s

/-- The state of a cycle is committed, and the points it wrote become visible with the commit instant. -/
def commitCycle (c : Cycle) (s : State) : State :=
  let s := settleSwap s
  let s := { s with prog := { s.prog with
    inst := writeAll s.prog.inst c.wInst, glob := writeAll s.prog.glob c.wGlob, ret := writeAll s.prog.ret c.wRet
    blocks := c.wBlocks.foldl (fun b e => Tbl.put b {} e.1 e.2) s.prog.blocks, sealed := some (clockNow s) } }
  let ts := localNow s
  dropPops c.pops (c.out.foldl (fun s e => produceForme e.1 e.2 ts s) s)

/-! ### Output of a current loop (13 R312, R314 to R316, R323, R327, R328) -/

def aioMode (s : State) (ch : Nat) : Nat := cfgNat s (0x3200 + ch) 1
def aioRange (s : State) (ch : Nat) : Nat := cfgNat s (0x3200 + ch) 2
/-- The channel drives a loop: AO-A or AO-P. -/
def isAo (s : State) (ch : Nat) : Bool := 3 ≤ aioMode s ch

def factoryAio (ch : Nat) : List Byte := leBytes 32 (Config.factoryAio ch)

/-- User trims of a channel. -/
def trimOffset (s : State) (ch : Nat) : Real32 := realAt (cfgBytes s 0xC400 (1 + ch)) 0
def trimGain (s : State) (ch : Nat) : Real32 := realAt (cfgBytes s 0xC400 (1 + ch)) 4

/-- Regulator code of a target current at a temperature (13 R327). -/
def aoCode (ch : Nat) (target : Real32) (temp : Int) : Nat :=
  let b := factoryAio ch
  let x := f32Sub (f32Sub target (realAt b 16)) (f32Mul (realAt b 20) (f32Sub (f32OfInt temp) f32_25))
  (max 0 (min (f32ToInt (f32Div x (realAt b 12))) 65535)).toNat

/-- The channel falls to MIN (R314). -/
def toMin (a : Aio) : Aio := { a with applied := 0, atMin := true, code := none, mismatchAt := none }

/-- 1 + g_u. -/
def trimFactor (s : State) (ch : Nat) : Real32 := f32Add f32One (trimGain s ch)

/-- Target current of a command. -/
def aoTargetOf (s : State) (ch : Nat) (c : Real32) : Real32 := f32Add (f32Mul c (trimFactor s ch)) (trimOffset s ch)

/-- A current in hundredths of a mA. -/
def mA (hundredths : Int) : Real32 := f32OfRat hundredths 100

/-- Command range of an AO channel, in hundredths of a mA (Table 13.1). -/
def aoRange (s : State) (ch : Nat) : Real32 × Real32 :=
  let lo : Int := if aioMode s ch = 3 ∧ aioRange s ch = 1 then 0 else 350
  (mA lo, mA (if aioRange s ch = 1 then 2400 else 2200))

/-- The current of the safe state (R314), none for MIN; HOLD of a channel that has applied no command yet is MIN (log entry
78). -/
def aoSafe (s : State) (ch : Nat) : Option Real32 :=
  match cfgNat s (0x3200 + ch) 4 with
  | 0 => none
  | 1 => let r := aoRange s ch; some (f32Clamp (cfgReal s (0x3200 + ch) 5) r.1 r.2)
  | _ => (getAio s ch).lastCmd

/-- The safe state applies whatever the command (R314, R323; 03 R54). -/
def aoHeld (s : State) (ch : Nat) (m : MapRec) (p : Nat) : Bool :=
  let a := getAio s ch
  a.silent || a.parked || outHeldSafe s m p || decide (aioOwner s ch = .none)

/-- The command is BAD, absent or not finite (R316). -/
def aoCmdBad (s : State) (p : Nat) : Bool :=
  isBad (readPoint s p).qual || (releasedOf s p).isNone || !f32Finite ((releasedOf s p).getD 0)

/-- What an AO channel applies now, none for MIN, with CMD_BAD and CLAMPED (R314 to R316, R323). -/
def aoApplied (s : State) (ch : Nat) : Option Real32 × Bool × Bool :=
  let a := getAio s ch
  if isRetired s kindAio ch || a.reinit || (a.supplyOff && aioMode s ch == 3) then (none, false, false)
  else match outPointFor s 2 ch 0 with
    | none => (aoSafe s ch, false, false)
    | some (p, m) =>
      if aoHeld s ch m p then (aoSafe s ch, false, false)
      else if aoCmdBad s p then (aoSafe s ch, true, false)
      else
        let v := (releasedOf s p).getD 0
        let r := aoRange s ch
        let c := f32Clamp v r.1 r.2
        (some c, false, f32Lt v r.1 || f32Lt r.2 v)

/-- The command that a channel applies, none while its safe state does (R314). -/
def aoCommand (s : State) (ch : Nat) : Option Real32 :=
  match outPointFor s 2 ch 0 with
  | some (p, m) => if aoHeld s ch m p || aoCmdBad s p then none else (aoApplied s ch).1
  | none => none

/-- The channel applies its command. -/
def aoApply (ch : Nat) (s : State) : State :=
  let r := aoApplied s ch
  let cmd := aoCommand s ch
  modAio ch (fun a => { a with
    lastCmd := if cmd.isSome then cmd else a.lastCmd
    applied := r.1.getD 0, atMin := r.1.isNone, cmdBad := r.2.1, clamped := r.2.2
    code := r.1.map (fun c => aoCode ch (aoTargetOf s ch c) a.temp) }) s

/-! ### Release (R14; 07 R164; 15 R375, R378) -/

/-- After a release: slot edges give way to newly changed values, and on-change CAN buffers queue. -/
def afterRelease (old s : State) : State :=
  let s := s.dio.ch.foldl (fun s e =>
    if e.2.edgeLevel.isSome || e.2.pulseEnd.isSome then
      match outPointFor s 1 e.1 0 with
      | some (p, _) =>
        if releasedOf old p = releasedOf s p then s else modDio e.1 (fun x => { x with edgeLevel := none, fresh := true }) s
      | none => s
    else s) s
  canReleased (if isActive s then canTakeover s else s)

/-- A point is among the values released. -/
def released (vs : List (Nat × BitVec 32)) (o : Option (Nat × MapRec)) : Bool :=
  match o with
  | some (p, _) => vs.any (fun v => v.1 == p)
  | none => false

/-- Re-admitted outputs, and those of a domain that was reset, follow their command from the release of their points on
(03 R54; 18 R440). -/
def endAwaiting (vs : List (Nat × BitVec 32)) (s : State) : State :=
  let s := s.dio.ch.foldl (fun s e =>
    if (e.2.awaiting || e.2.parked) && released vs (outPointFor s 1 e.1 0) then
      modDio e.1 (fun x => { x with awaiting := false, parked := false }) s else s) s
  s.aio.foldl (fun s e =>
    if e.2.parked && released vs (outPointFor s 2 e.1 0) then modAio e.1 (fun x => { x with parked := false }) s else s) s

/-- An output update of this very instant applies what is released at it (13 R312). -/
def aoReapply (vs : List (Nat × BitVec 32)) (s : State) : State :=
  s.aio.foldl (fun s e =>
    if e.2.updAt.isSome && e.2.updNow == s.now && isAo s e.1 && released vs (outPointFor s 2 e.1 0) then aoApply e.1 s
    else s) s

/-- Values are released together. -/
def releaseValues (vs : List (Nat × BitVec 32)) (s : State) : State :=
  aoReapply vs (endAwaiting vs (afterRelease s (vs.foldl (fun s e => releasePoint e.1 e.2 s) s)))

/-- The outputs and requests of a committed cycle are released. -/
def releaseCycle (c : Cycle) (s : State) : State :=
  let s := releaseValues c.out { s with prog := { s.prog with lastRelease := localNow s } }
  let s := canRequested c.sends s
  c.states.foldl (fun s e => if e.2 = 1 then startRecovery e.1 s else if e.2 = 2 then reenable e.1 s else s) s

/-- A unit that has become active has not reached the millisecond of its first release (16 R401). -/
def beforeFirst (s : State) : Bool :=
  match s.pair.firstAt with
  | some m => decide (localNow s < m)
  | none => false

/-- Releases are held for an orderly switchover (16 R402). -/
def handingHeld (s : State) : Bool :=
  match s.pair.handing with
  | some h => decide (h.at_ ≤ localNow s)
  | none => false

/-- The unit holds its releases: an acknowledgement is missing (16 R397), or an orderly switchover runs (R402). -/
def relsHeld (s : State) : Bool := handingHeld s || s.pair.holding

/-- The outputs of a committed cycle are released: at the first release instant of a new active unit at the earliest, and
not while releases are held. -/
def releaseCommitted (c : Cycle) (s : State) : State :=
  if beforeFirst s || relsHeld s then { s with pair := { s.pair with late := s.pair.late ++ [c] } } else releaseCycle c s

/-- From its first release instant on, and once releases are no longer held, a unit releases what it has committed (16 R397,
R401). -/
def firstReleases (s : State) : State :=
  if beforeFirst s || relsHeld s || (s.pair.firstAt.isNone && s.pair.late.isEmpty) then s
  else s.pair.late.foldl (fun s c => releaseCycle c s) { s with pair := { s.pair with firstAt := none, late := [] } }

/-- CRC-32 of a cycle's output buffer (16 Table 16.4). -/
def outputCrc (c : Cycle) : Nat :=
  (crc32 (c.out.flatMap (fun e => leBytes 4 e.1 ++ leBytes 4 e.2.toNat))).toNat

/-- A signed value as its 64 bits. -/
def intNat (v : Int) : Nat := (v % ((2 ^ 64 : Nat) : Int)).toNat

/-- A native block's state as numbers, for the layouts the manual does not give. -/
def blockNats (b : BlockInst) : List Nat :=
  [flagWord [(0, b.inp), (1, b.q), (2, b.running), (3, b.prev), (4, b.prevValid), (5, b.prevD), (6, b.prevDValid), (7, b.qu),
    (8, b.qd)], intNat b.et, intNat b.start, intNat b.cv]

/-- The TASK record of a cycle: task, release instant, dirty bytes by area, native blocks, pops and output CRC. -/
def taskContent (k : Nat) (c : Cycle) : List Nat :=
  let bytes (w : Tbl Byte) : List Nat := w.length :: w.flatMap (fun e => [e.1, e.2.toNat])
  [k, c.releasedAt] ++ bytes c.wInst ++ bytes c.wGlob ++ bytes c.wRet
    ++ (c.wBlocks.length :: c.wBlocks.flatMap (fun e => e.1 :: blockNats e.2))
    ++ (c.pops.length :: c.pops.flatMap (fun e => [e.1, e.2])) ++ [outputCrc c]

/-- The forces as the FORCE that waits would leave them (07 R166, R167). -/
def forcesDue (s : State) : List Force :=
  match s.sess.force with
  | none => s.img.forces
  | some r =>
    let f : Force := ⟨r.point, r.value, localNow s⟩
    match r.op with
    | 1 => if (forceOf s r.point).isSome then s.img.forces.map (fun (x : Force) => if x.point == r.point then f else x)
      else s.img.forces ++ [f]
    | 2 => s.img.forces.filter (fun x => x.point != r.point)
    | _ => []

/-- The rest of the committed state that a TASK or TICK record carries: the mode and what is left of HOLD, the program
clock and the local time at which it reads so, the generations, whether a swap waits, the forces, the nodes with their SEQUENCE values, and direct values (04 R462; 05 R121; 07 R169;
08 R179, R189, R193). -/
def committedContent (s : State) : List Nat :=
  let fs := forcesDue s
  [s.prog.mode.num, s.prog.holdUntil - s.now, intNat (clockNow s), intNat (localNow s), s.sess.generation, s.prog.generation,
      if s.prog.oc.state = .waiting then 1 else 0, fs.length] ++ fs.flatMap (fun (f : Force) => [f.point, f.value.toNat])
    ++ s.ring.nodes.flatMap (fun (e : Nat × Node) => [e.1, e.2.state.num, e.2.rejoin, e.2.seqOut.length]
      ++ e.2.seqOut.flatMap (fun q => [q.1, q.2]))
    ++ (s.sess.direct.filter (fun d => d.record.isNone)).flatMap (fun d => d.key :: d.data.map BitVec.toNat)
    ++ s.sess.passDue.flatMap (fun k => k :: (flashValue s k).map BitVec.toNat)

/-- A record has left: what it carries waits for its acknowledgement, and the FORCE it carries with it. -/
def noteCarried (s : State) : State :=
  let q := s.pair.seqOut
  { s with sess := { s.sess with
    force := s.sess.force.map (fun r => if r.record.isNone && r.ready.isNone then { r with record := some q } else r)
    passDue := [] } }

/-- A TASK or TICK record leaves with the committed state it carries. -/
def sendCommit (kind : Nat) (content : List Nat) (s : State) : State :=
  noteCarried (sendSync kind (content ++ committedContent s) s)

/-- A record is acknowledged: the FORCE it carried acts at the next engine tick (07 R166). -/
def forceAcked (q : Nat) (s : State) : State :=
  { s with sess := { s.sess with force := s.sess.force.map (fun r =>
    if r.record = some q then { r with record := none, ready := some (localNow s) } else r) } }

/-- HANDOVER leaves once releases are held and every record is acknowledged (16 R402). -/
def tryHandover (s : State) : State :=
  match s.pair.handing with
  | some h =>
    if handingHeld s && s.pair.held.isEmpty && s.pair.sentRecs.isEmpty && h.seq.isNone then
      let s := sendSync 7 [s.pair.seqOut, h.trigger] s
      { s with pair := { s.pair with handing := some { h with seq := some s.pair.seqOut } } }
    else s
  | none => s

/-- The dirty state of a TASK record becomes committed data (16 R395). -/
def storeDirty (r : TaskRec) (s : State) : State :=
  commitCycle { wInst := r.inst, wGlob := r.glob, wRet := r.ret, wBlocks := r.blocks, pops := r.pops } s

/-- A record acknowledged and not yet stored, its task's own cycle not having ended, is stored. -/
def storeRec (k : Nat) (s : State) : State :=
  match Tbl.find s.pair.recs k with
  | some (_, r) => storeDirty r { s with pair := { s.pair with recs := Tbl.erase s.pair.recs k } }
  | none => s

/-- The outputs of a cycle whose record is stored become visible and are released. -/
def finishStored (k : Nat) (c : Cycle) (r : TaskRec) (s : State) : State :=
  let s := storeDirty r { s with pair := { s.pair with own := Tbl.erase s.pair.own k, recs := Tbl.erase s.pair.recs k } }
  releaseCommitted c (commitCycle { c with wInst := [], wGlob := [], wRet := [], wBlocks := [], pops := [] } s)

/-- A SWITCHOVER_REQUEST that can no longer be met ends with the abort of a standby that does not qualify (16 R400; log entry
35). -/
def failSwitchover (s : State) : State :=
  if cmdRunning s 6 then cmdFail 6 ⟨3, 0x50, 6, 0xF006, 1, s.pair.partnerGrade⟩ s else s

/-- UNSYNCED: what the standby has not matched is forgotten (16 Table 16.1). -/
def enterUnsynced (s : State) : State :=
  let s := failSwitchover s
  enterPair .unsynced { s with pair := { s.pair with copyAt := none, own := [], recs := [], wanted := [], canSeen := [] } }

/-- A TASK record and the unit's own ended cycle of the task: the record's state is stored and equal outputs are committed;
unequal ones are not, and they are a divergence (16 R398). -/
def pairTask (k : Nat) (c : Cycle) (r : TaskRec) (s : State) : State :=
  if outputCrc c = r.crc then finishStored k c r s
  else
    let s := storeDirty r { s with pair := { s.pair with own := Tbl.erase s.pair.own k, recs := Tbl.erase s.pair.recs k } }
    let s := { s with pair := { s.pair with
      mismatches := (s.pair.mismatches + 1) % 2 ^ 32
      selftest := Tbl.modify s.pair.selftest 0 1 (fun c => (c + 1) % 2 ^ 32) } }
    if isStandby s then enterUnsynced s else s

/-- A cycle has ended: committed and released at once in a unit that needs no acknowledgement, held for one in ACTIVE,
and only compared in a standby (R14; 16 R395, R398). A unit that became active while it ran resumes it from its record,
acknowledged before (01 R17). -/
def finishCycle (k : Nat) (c : Cycle) (s : State) : State :=
  if isStandby s then match Tbl.find s.pair.recs k with
    | some (at_, r) => if c.releasedAt ≤ at_ then pairTask k c r s
      else { s with pair := { s.pair with own := Tbl.insert s.pair.own k c } }
    | none => { s with pair := { s.pair with own := Tbl.insert s.pair.own k c } }
  else if ((Tbl.find s.pair.recs k).map (fun e => decide (c.releasedAt ≤ e.1))) = some true then
    match Tbl.find s.pair.recs k with
    | some (_, r) => pairTask k c r s
    | none => s
  else if needsAck s && handingHeld s then { s with pair := { s.pair with own := Tbl.insert s.pair.own k c } }
  else if needsAck s then
    let s := sendCommit 4 (taskContent k c) s
    { s with pair := { s.pair with held := s.pair.held ++ [⟨s.pair.seqOut, s.now, some (k, c)⟩] } }
  else
    let s := if s.pair.state = .activeAlone then sendCommit 4 (taskContent k c) s else s
    releaseCommitted c (commitCycle c s)

/-- SYS end of cycle: the times of the cycle are noted and it ends. -/
def endCycle (k : Nat) (s : State) : State :=
  match (getTask s k).cycle with
  | none => s
  | some c =>
    let e := s.now - c.releasedAt
    finishCycle k c (modTask k (fun t => { t with
      cycle := none, abandoned := false, lastExec := sat 32 e, maxExec := max t.maxExec (sat 32 e) }) s)

/-- A running cycle is abandoned: nothing of it is committed (R187). -/
def abandonCycle (k : Nat) (s : State) : State :=
  if (getTask s k).cycle.isNone then s
  else modTask k (fun t => match t.cycle with
    | some c => { t with cycle := none, abandoned := true, lastExec := sat 32 (s.now - c.releasedAt) }
    | none => t) s

def abandonAll (s : State) : State := forAll (List.range 48) abandonCycle s

/-! ### Migration of an online change (R195, Table 8.10) -/

/-- Identity of the type of an instance. -/
def instType (f : Forme) (i : InstRec) : Option TypeRec := f.types[i.type]?
def typeId (f : Forme) (i : InstRec) : Nat := ((instType f i).map TypeRec.identity).getD 0
def instSize (f : Forme) (i : InstRec) : Nat := ((instType f i).map TypeRec.size).getD 0

/-- What a migration has done so far. -/
structure Migrated where
  inst : Memory := []
  glob : Memory := []
  ret : Memory := []
  blocks : Tbl BlockInst := []
  charts : Tbl (List (Nat × Int)) := []
  kept : Nat := 0
  reinit : Nat := 0
  created : Nat := 0
  removed : Nat := 0
  items : List OcItem := []
  deriving DecidableEq, Repr

/-- The old instance with the same identity and the same type. -/
def instMatch (old new : Forme) (i : InstRec) : Option InstRec :=
  old.insts.find? (fun o => o.identity == i.identity && typeId old o == typeId new i)

/-- An instance keeps its data: it and every instance it is nested in match (fuel: the nesting depth). -/
def instKept (old new : Forme) : Nat → InstRec → Bool
  | 0, _ => false
  | n + 1, i => (instMatch old new i).isSome && (match new.insts[i.parent]? with
    | some p => if p.identity = i.identity then true else instKept old new n p
    | none => true)

def Migrated.note (m : Migrated) (id action item size : Nat) : Migrated :=
  { m with items := m.items ++ [⟨id, action, item, size⟩] }

/-- One instance of the new forme. -/
def migrateInst (old new : Forme) (p : Prog) (i : InstRec) (m : Migrated) : Migrated :=
  match (if instKept old new 64 i then instMatch old new i else none) with
  | some o => { m with
      inst := Memory.writeN m.inst i.offset (Memory.readN p.inst o.offset (instSize new i))
      blocks := Tbl.put m.blocks {} i.offset (Tbl.get p.blocks {} o.offset), kept := m.kept + 1 }
  | none =>
    let m := { m with inst := Memory.writeN m.inst i.offset i.init }
    if old.insts.any (fun o => o.identity == i.identity) then
      { m with reinit := m.reinit + 1 }.note i.identity 3 1 (instSize new i)
    else { m with created := m.created + 1 }.note i.identity 4 1 (instSize new i)

/-- One global variable of the new forme. -/
def migrateVar (old : Forme) (p : Prog) (v : VarRec) (m : Migrated) : Migrated :=
  let put (bs : List Byte) (m : Migrated) : Migrated :=
    if v.retained then { m with ret := Memory.writeN m.ret v.offset bs }
    else { m with glob := Memory.writeN m.glob v.offset bs }
  match old.vars.find? (fun o => o.identity == v.identity) with
  | some o =>
    if o.type = v.type ∧ o.size = v.size then
      { put (Memory.readN (if o.retained then p.ret else p.glob) o.offset v.size) m with kept := m.kept + 1 }
    else { put v.init m with reinit := m.reinit + 1 }.note v.identity 3 2 v.size
  | none => { put v.init m with created := m.created + 1 }.note v.identity 4 2 v.size

/-- Active steps of a chart with their step times. -/
def chartActive (c : Tbl (List (Nat × Int))) (r : ChartRec) : List (Nat × Int) :=
  (Tbl.find c r.identity).getD [(r.initial, 0)]

/-- One chart of the new forme. -/
def migrateChart (old : Forme) (p : Prog) (r : ChartRec) (m : Migrated) : Migrated :=
  match old.charts.find? (fun o => o.identity == r.identity) with
  | some o =>
    let act := chartActive p.charts o
    if act.all (fun e => r.steps.contains e.1) then { m with charts := Tbl.insert m.charts r.identity act, kept := m.kept + 1 }
    else { m with charts := Tbl.insert m.charts r.identity [(r.initial, p.clock)], reinit := m.reinit + 1 }.note r.identity 6 3 0
  | none => { m with charts := Tbl.insert m.charts r.identity [(r.initial, p.clock)], created := m.created + 1 }.note r.identity 4 3 0

/-- The whole migration from the running forme. -/
def migrate (old new : Forme) (p : Prog) : Migrated :=
  let m : Migrated := {}
  let m := new.insts.foldl (fun m i => migrateInst old new p i m) m
  let m := new.vars.foldl (fun m v => migrateVar old p v m) m
  let m := new.charts.foldl (fun m r => migrateChart old p r m) m
  let gone (m : Migrated) (id item : Nat) : Migrated := { m with removed := m.removed + 1 }.note id 5 item 0
  let m := old.insts.foldl (fun m o => if new.insts.any (fun i => i.identity == o.identity) then m else gone m o.identity 1) m
  let m := old.vars.foldl (fun m o => if new.vars.any (fun v => v.identity == o.identity) then m else gone m o.identity 2) m
  old.charts.foldl (fun m o => if new.charts.any (fun r => r.identity == o.identity) then m else gone m o.identity 3) m

/-- Table 8.13. -/
def ocSummary (generation : Nat) (m : Migrated) (pauseUs moves : Nat) : List Byte :=
  leBytes 4 generation ++ leBytes 2 (sat 16 m.kept) ++ leBytes 2 (sat 16 m.reinit) ++ leBytes 2 (sat 16 m.created)
    ++ leBytes 2 (sat 16 m.removed) ++ leBytes 2 (sat 16 pauseUs) ++ leBytes 2 (sat 16 moves)

/-- A pending change of R91 is over. -/
def changeOver (s : State) : State := releaseKept s

/-- The bytes of the retained instances. -/
def retainedInsts (f : Forme) (m : Memory) : Memory :=
  f.insts.foldl (fun acc i => if i.retained then Memory.writeN acc i.offset (Memory.readN m i.offset (instSize f i)) else acc) []

/-- The native blocks among the retained instances. -/
def retainedBlocks (f : Forme) (b : Tbl BlockInst) : Tbl BlockInst :=
  b.filter (fun e => f.insts.any (fun i => i.retained && i.offset == e.1))

/-- What stands committed of the forme's retained state: that of the old forme while a swap waits for its commit (R193). -/
def unswapped (s : State) : Unswapped :=
  match s.prog.uncommitted with
  | some u => u
  | none =>
    let f := s.prog.forme.getD {}
    { ret := s.prog.ret, inst := retainedInsts f s.prog.inst, blocks := retainedBlocks f s.prog.blocks
      generation := s.prog.generation }

/-- The new forme runs with the migrated data, under a generation. -/
def swapIn (new : Forme) (m : Migrated) (g : Nat) (s : State) : State :=
  { s with prog := { s.prog with
    forme := some new, uncommitted := some (unswapped s), generation := g
    inst := m.inst, glob := m.glob, ret := m.ret, blocks := m.blocks, charts := m.charts
    oc := { s.prog.oc with state := .swapped, forme := none, report := m.items.take 4096 } } }

/-- The swap itself (R193): the new forme runs with the migrated data. What was committed before stands committed until the
first cycle after it commits the swap; in STOP, where none follows, it is committed at once (log entry 75). -/
def swapNow (pauseUs : Nat) (s : State) : State :=
  match s.prog.oc.forme with
  | none => s
  | some new =>
    let s := settleClock s
    let m := migrate (s.prog.forme.getD {}) new s.prog
    let g := (s.prog.generation + 1) % 2 ^ 32
    let r := ocSummary g m pauseUs s.prog.oc.moves
    let s := swapIn new m g (abandonAll s)
    let s := if s.prog.mode = .stop then settleSwap s else s
    let s := emit 0x3201 0 (leBytes 4 g) s
    changeOver (if (getCmd s 2).status = 1 then cmdDone 2 r s else s)

/-- An online change is abandoned with an abort (R196). -/
def abandonChange (a : Abort) (s : State) : State :=
  let s := { s with prog := { s.prog with oc := { s.prog.oc with state := .abandoned, forme := none } } }
  let s := emit 0x3202 0 (leBytes 4 a.code) s
  changeOver (cmdFail 2 a s)

/-- An ended cycle still waits for its commit, at the offsets of the forme it ran on. -/
def cyclesHeld (s : State) : Bool := s.pair.held.any (fun h => h.cycle.isSome) || !s.pair.own.isEmpty

/-! ### Modes (R189, Table 8.8) -/

/-- A change of configuration or an armed slot apart, what entering STOP does to the program: running cycles are
abandoned and queued CAN frames withdrawn (15 R377), armed synchro-checks end (06 R152), a waiting swap takes place. -/
def enterStop (cause : Nat) (s : State) : State :=
  if s.prog.mode = .stop then s
  else
    let s := abandonAll (settleClock s)
    let s := { s with prog := { s.prog with mode := .stop, stopCause := cause, holdUntil := 0 } }
    let s := emit 0x3000 0 (leBytes 1 cause) s
    let s := scAbortArmed (canWithdraw s)
    if s.prog.oc.state = .waiting ∧ cyclesHeld s = false ∧ isStandby s = false then swapNow 0 s else s

/-- HOLD is entered: the program clock stands still, cycles that run end by themselves (R191). -/
def enterHold (until_ : Nat) (s : State) : State :=
  let s := settleClock s
  let s := { s with prog := { s.prog with mode := .hold, holdUntil := until_ } }
  scAbortArmed (emit 0x3002 0 (leBytes 1 s.prog.stopCause) s)

/-! ### Task faults (R186) -/

/-- `TASK_OVERRUN_POLICY` is STOP. -/
def faultStops (s : State) (k : Nat) : Bool := cfgNat s (0x2500 + k) 2 == 0

/-- A task fault of a kind of 17 Table 17.3 at a word. -/
def taskFault (k kind off : Nat) (s : State) : State :=
  let s := abandonCycle k s
  let s := modTask k (fun t => { t with faulted := true, faults := sat 32 (t.faults + 1) }) s
  let s := emit (0x3100 + kind) (0x7000 + k) (leBytes 4 off) s
  if faultStops s k then enterStop 2 s else s

/-! ### Releases (R183 to R185) -/

/-- A release is missed: counted and skipped; the fourth in a row is a task fault. -/
def missRelease (k : Nat) (s : State) : State :=
  let t := getTask s k
  let s := modTask k (fun t => { t with missed := sat 32 (t.missed + 1), consecutive := t.consecutive + 1 }) s
  if t.consecutive + 1 = 4 then
    taskFault k 1 ((t.cycle.map Cycle.pc).getD 0) s else s

/-- Task k is released with its snapshot, at a program clock. -/
def releaseTask (k : Nat) (clock : Int) (step : Bool) (s : State) : State :=
  let c := newCycle s k clock step
  modTask k (fun t => { t with
    cycle := some c, consecutive := 0, releases := sat 32 (t.releases + 1), lastRelease := some (localNow s) }) s

/-- A release due now: missed if the previous cycle has not ended. -/
def releaseOrMiss (k : Nat) (clock : Int) (s : State) : State :=
  if (getTask s k).cycle.isSome then missRelease k s else releaseTask k clock false s

/-- The program clock at local time `t`. -/
def clockAtLocal (s : State) (t : Int) : Int := s.prog.clock + (t - s.prog.clockAt)

/-- A cyclic task at its grid instant, once for each. -/
def gridRelease (k : Nat) (s : State) : State :=
  let g := gridAt s (taskPeriod s k)
  if (taskDef s k).kind = 1 ∧ (getTask s k).lastGrid ≠ some g then
    releaseOrMiss k (clockAtLocal s g) (modTask k (fun t => { t with lastGrid := some g }) s)
  else s

/-- Every cyclic task is released at a boundary (R183). -/
def releaseAllCyclic (s : State) : State := forAll (List.range 32) gridRelease s

/-- A trigger of an event task in RUN at local time `at_` (R184): dropped within the minimum interval, missed during its
cycle; its program clock is that of the trigger's instant (R179). -/
def triggerTask (k : Nat) (at_ : Int) (s : State) : State :=
  if !appUp s || (taskDef s k).kind != 2 then s
  else match s.prog.mode with
  | .stop => s
  | .hold => modTask k (fun t => { t with dropped := sat 32 (t.dropped + 1) }) s
  | .run =>
    let early := match (getTask s k).lastRelease with
      | some t0 => decide (localNow s - t0 < (cfgNat s (0x2500 + k) 4 * usNs : Nat))
      | none => false
    if early then modTask k (fun t => { t with dropped := sat 32 (t.dropped + 1) }) s
    else releaseOrMiss k (clockAtLocal s at_) s

/-- RUN is entered from STOP: counters start anew and every cyclic task is released (R183, Table 8.17). -/
def enterRun (s : State) : State :=
  let s := { s with prog := { s.prog with
    mode := .run, clockAt := gridAt s secNs, tasks := [], runDue := false, runByCommand := false } }
  releaseAllCyclic (emit 0x3001 0 (leBytes 1 s.prog.stopCause) s)

/-- RUN is entered from HOLD: the clock resumes, tasks are released at their next grid instants, and CAN frames that HOLD kept
back are offered again (15 R377). -/
def resumeRun (s : State) : State :=
  let s := { s with prog := { s.prog with mode := .run, clockAt := localNow s, holdUntil := 0 } }
  let s := forAll (List.range 32) (fun k s =>
    if (taskDef s k).kind = 1 then modTask k (fun t => { t with lastGrid := some (gridAt s (taskPeriod s k)) }) s else s) s
  forAll (List.range 8) canOffer (emit 0x3001 0 (leBytes 1 s.prog.stopCause) s)

/-- `TASK_STATUS` (Table 8.17). -/
def taskStatus (s : State) (k : Nat) : List Byte :=
  let t := getTask s k
  let st := if !taskUsed s k then 0 else match s.prog.mode with
    | .stop => 4
    | .hold => if t.cycle.isSome then 2 else 3
    | .run => if t.cycle.isSome then 2 else 1
  leBytes 1 st ++ leBytes 1 t.consecutive ++ leBytes 1 (flagWord [(0, t.faulted), (1, t.abandoned), (2, t.arith)]) ++ [0]
    ++ leBytes 4 t.releases ++ leBytes 4 t.missed ++ leBytes 4 t.lastExec ++ leBytes 4 t.maxExec ++ leBytes 4 t.lastStart
    ++ leBytes 4 t.dropped ++ leBytes 4 t.faults

end Sys2Proof.Machine
end

