-- ==== Sys2Proof/Machine/Executor.lean ====
section
/-! DEFINITION. The intermediate-code words (08 Table 8.3) in the cycle of a task and in the passes of the safety forme
(10 R229, R238 to R240). A word's command executes where that word stands at the program counter of its context. -/

namespace Sys2Proof.Machine

/-! ### Contexts -/

/-- A released task of higher priority has had its core since 3 µs at least (08 R182). -/
def preempted (s : State) (k : Nat) : Bool :=
  let d := taskDef s k
  s.prog.tasks.any (fun e => match e.2.cycle with
    | some c =>
      let o := taskDef s e.1
      o.kind != 0 && o.core == d.core && decide (o.priority < d.priority) && decide (c.releasedAt + 3 * usNs ≤ s.now)
    | none => false)

/-- The cycle in execution in a context: a task's while its core is its own, a pass's. -/
def ctxCycle (s : State) : Ctx → Option Cycle
  | .task k => if appUp s && !preempted s k then (getTask s k).cycle else none
  | .passA => if s.safe.passA.running then some s.safe.passA.cyc else none
  | .passB => if s.safe.passB.running then some s.safe.passB.cyc else none

/-- The cycle of a context changes. -/
def setCycle (x : Ctx) (c : Cycle) (s : State) : State :=
  match x with
  | .task k => modTask k (fun t => { t with cycle := some c }) s
  | .passA => { s with safe := { s.safe with passA := { s.safe.passA with cyc := c } } }
  | .passB => { s with safe := { s.safe with passB := { s.safe.passB with cyc := c } } }

/-- The forme a context executes. -/
def ctxForme (s : State) : Ctx → Forme
  | .task _ => s.prog.forme.getD {}
  | _ => s.safe.forme.getD {}

/-- A word stands at the program counter of a context that executes (R175). -/
def atWord (s : State) (x : Ctx) (w : BitVec 32) : Bool :=
  match ctxCycle s x with
  | some c => (ctxForme s x).code[c.pc]? == some w
  | none => false

/-- The start of a task's cycle is noted at its first word (Table 8.17, LAST_START). -/
def noteStart (x : Ctx) (s : State) : State :=
  match x with
  | .task k => modTask k (fun t => match t.cycle with
    | some c => if c.startedAt.isNone then
        { t with cycle := some { c with startedAt := some s.now }, lastStart := sat 32 (s.now - c.releasedAt) } else t
    | none => t) s
  | _ => s

/-- What a word or a block does, in a context that has a cycle. -/
def onWord (x : Ctx) (f : Cycle → State → State) (s : State) : State :=
  let s := noteStart x s
  match ctxCycle s x with
  | some c => f c s
  | none => s

/-- A word of CODE executes where it stands at the program counter. -/
def onCode (x : Ctx) (w : BitVec 32) (f : Cycle → State → State) (s : State) : State :=
  if atWord s x w then onWord x f s else s

/-- The word ends: the program counter advances past it. -/
def stepped (c : Cycle) : Cycle := { c with pc := c.pc + 1, ext := none }

/-- A fault of the word: a task fault of its kind, or a fault of the safety complex on the pass's core (R186; Table 10.5). -/
def wordFault (x : Ctx) (kind : Nat) (c : Cycle) (s : State) : State :=
  match x with
  | .task k => taskFault k kind c.pc s
  | .passA => safetyFault 7 (coreA s) s
  | .passB => safetyFault 7 (coreB s) s

/-! ### Registers -/

/-- The kinds of task fault (17 Table 17.3). -/
abbrev faultBounds : Nat := 2
abbrev faultDepth : Nat := 3
abbrev faultTrap : Nat := 4
abbrev faultDirty : Nat := 5

/-- A register's value; in pass B its coded word is checked and decoded (10 R239). -/
def readReg (s : State) (x : Ctx) (c : Cycle) (w : Nat) : Option Word64 :=
  let r := Tbl.get c.regs 0 (w % 32)
  match x with
  | .passB => (decodeInt s.safe.k r.toInt).map (BitVec.ofInt 64)
  | _ => some r

/-- A register takes a value, coded in pass B. -/
def putReg (s : State) (x : Ctx) (w : Nat) (v : Word64) (c : Cycle) : Cycle :=
  let r : Word64 := match x with
    | .passB => BitVec.ofInt 64 (encodeInt s.safe.k (codedValue v))
    | _ => v
  { c with regs := Tbl.put c.regs 0 (w % 32) r }

/-- A register is used, or the code fault of a word that is not valid follows. -/
def withReg (x : Ctx) (w : Nat) (c : Cycle) (f : Word64 → State → State) (s : State) : State :=
  match readReg s x c w with
  | some v => f v s
  | none => safetyFault 3 (coreB s) s

/-- 32 bits as a register holds them: sign-extended in the safety forme, the upper half open in a task. -/
def widen (x : Ctx) (v : BitVec 32) : Word64 :=
  match x with
  | .task _ => BitVec.ofNat 64 (Config.loadUpper v.toNat % 2 ^ 32 * 2 ^ 32 + v.toNat)
  | _ => v.signExtend 64

/-- A register as a word that names no type takes it: the safety forme's 32 bits sign-extended (10 R238). -/
def untyped (x : Ctx) (v : Word64) : Word64 :=
  match x with
  | .task _ => v
  | _ => (v.truncate 32).signExtend 64

/-- A value as one of the TYPE of a REG word, in the safety forme (10 R238). -/
def ofType (x : Ctx) (ty : Nat) (v : Word64) : Word64 :=
  match x with
  | .task _ => v
  | _ => typedWord ty v

/-- An operand of a REG word is valid: in pass B its value lies in the range of the word's TYPE (10 R238). -/
def typeValid (x : Ctx) (ty : Nat) (v : Word64) : Bool :=
  match x with
  | .passB => inType ty v
  | _ => true

/-! ### Words: REG, IMM -/

/-- ARITH is set in the task's status (R186). -/
def noteArith (x : Ctx) (b : Bool) (s : State) : State :=
  match x with
  | .task k => if b then modTask k (fun t => { t with arith := true }) s else s
  | _ => s

/-- Bytes of an integer type by its code (04 Table 4.1); 0 for another type. -/
def intBytes (ty : Nat) : Nat := if 2 ≤ ty ∧ ty ≤ 9 then 2 ^ ((ty - 2) % 4) else 0

/-- The low bits of a register are a REAL32; those above them stay as the executor leaves them. -/
def putReal (above : Word64) (r : Real32) : Word64 := BitVec.ofNat 64 (above.toNat / 2 ^ 32 * 2 ^ 32 + r.toNat)

/-- The result of a REG word and whether it sets ARITH: an integer division by zero gives 0 with ARITH, a REAL division is
that of IEEE 754 (R186); every other result is the operation's. -/
def regResult (op ty : Nat) (va vb : Word64) : Word64 × Bool :=
  let r := Config.regOp op ty va vb
  let arith := Config.regArith op ty va vb
  if Config.regDivides op then
    if intBytes ty ≠ 0 ∧ vb.toNat % 2 ^ (8 * intBytes ty) = 0 then (0, true)
    else if ty = 10 then (putReal r (f32Div (va.truncate 32) (vb.truncate 32)), arith)
    else if ty = 11 then (BitVec.ofNat 64 (fpDiv fmt64 va.toNat vb.toNat), arith)
    else (r, arith)
  else (r, arith)

/-- The result of an IMM word: a division by an immediate of zero gives 0 with ARITH (R186). -/
def immResult (op : Nat) (v : Word64) (i : Int) : Word64 × Bool :=
  if Config.immDivides op ∧ i = 0 then (0, true) else (Config.immOp op v i, Config.immArith op v i)

def regState (x : Ctx) (op dst a b ty : Nat) (s : State) : State :=
  onCode x (regWord op dst a b ty) (fun c s => withReg x a c (fun va s => withReg x b c (fun vb s =>
    if !typeValid x ty va || !typeValid x ty vb then safetyFault 3 (coreB s) s
    else
      let va := ofType x ty va
      let vb := ofType x ty vb
      if Config.regBounds op ty va vb then wordFault x faultBounds c s
      else
        let r := regResult op ty va vb
        noteArith x r.2 (setCycle x (stepped (putReg s x dst (ofType x ty r.1) c)) s)) s) s) s

/-- REG (R175). -/
def execReg (t : Nat) (x : Ctx) (op dst a b ty : Nat) (s : State) : Out := .next (regState x op dst a b ty (advance t s))

/-- A field of `n` bits with the upper bits an EXT word supplied. -/
def withExt (c : Cycle) (n field : Nat) : Nat := field % 2 ^ n + (c.ext.getD 0) * 2 ^ n

/-- A signed field of `n` bits, 28 more after an EXT word. -/
def signedExt (c : Cycle) (n field : Nat) : Int :=
  let w := if c.ext.isSome then n + 28 else n
  let v := withExt c n field % 2 ^ w
  if 2 ^ (w - 1) ≤ v then (v : Int) - (2 ^ w : Nat) else v

def immState (x : Ctx) (op dst imm : Nat) (s : State) : State :=
  onCode x (immWord op dst imm) (fun c s => withReg x dst c (fun v s =>
    let r := immResult op (untyped x v) (signedExt c 15 imm)
    noteArith x r.2 (setCycle x (stepped (putReg s x dst (untyped x r.1) c)) s)) s) s

/-- IMM (R175). -/
def execImm (t : Nat) (x : Ctx) (op dst imm : Nat) (s : State) : Out := .next (immState x op dst imm (advance t s))

/-! ### FRAME -/

/-- Byte address of a frame word within its area. -/
def frameAddr (c : Cycle) (base off : Nat) : Nat :=
  (if base = 0 then c.inst else 0) + 4 * withExt c 17 off

/-- Bytes of the globals that are not retained. -/
def globSize (f : Forme) : Nat := f.vars.foldl (fun a v => if v.retained then a else max a (v.offset + v.size)) 0

/-- The frame word lies inside its area. -/
def inArea (f : Forme) (base a : Nat) : Bool :=
  match base with
  | 0 => a + 4 ≤ f.dataSize
  | 1 => a + 4 ≤ globSize f
  | 2 => a + 4 ≤ f.retainSize
  | _ => true

/-- A byte a cycle reads: its own write, or what stood before. -/
def overlaid (w : Tbl Byte) (m : Memory) (a : Nat) : Byte := (Tbl.find w a).getD (Memory.read m a)

/-- Instance bytes as the task left them: the cycles that still wait for their commit come before the committed data. -/
def heldInst (s : State) (k a : Nat) : Option Byte := (heldCycles s k).reverse.findSome? (fun c => Tbl.find c.wInst a)

/-- One byte of an area as a task's cycle sees it (R178). -/
def taskByte (s : State) (k : Nat) (c : Cycle) (base a : Nat) : Byte :=
  match base with
  | 0 => (Tbl.find c.wInst a).getD ((heldInst s k a).getD (Memory.read s.prog.inst a))
  | 1 => overlaid c.wGlob c.snapGlobals a
  | 2 => overlaid c.wRet c.snapRetained a
  | _ => Memory.read (ctxForme s (.task 0)).consts a

/-- Address in the safety forme's data: globals above the instances. -/
def plainAddr (base a : Nat) : Nat := if base = 1 then globBase + a else a

/-- The word an area holds, as a register takes it; none for an invalid coded word. -/
def loadWord (s : State) (x : Ctx) (c : Cycle) (base a : Nat) : Option Word64 :=
  let four (f : Nat → Byte) : BitVec 32 := BitVec.ofNat 32 (leVal ((List.range 4).map (fun i => f (a + i))))
  match x with
  | .task k => some (widen x (four (taskByte s k c base)))
  | .passA => some (widen x
      (if base = 3 then four (Memory.read (ctxForme s .passA).consts) else wordAt s.safe.plain (plainAddr base a)))
  | .passB =>
    if base = 3 then some (widen x (four (Memory.read (ctxForme s .passB).consts)))
    else match Tbl.find s.safe.coded (plainAddr base a) with
    | some w => (decodeInt s.safe.k w).map (BitVec.ofInt 64)
    | none => some 0

/-- The frame access of a word is one the context does not have: the retained base in the safety forme, or a word outside its
area. DESIGN CHOICE (log entry 89): R186 names an array index outside its bounds, and a FRAME word outside its area is taken
for one. -/
def frameFault (s : State) (x : Ctx) (base a : Nat) : Bool :=
  (match x with
    | .task _ => false
    | _ => base == 2) || !inArea (ctxForme s x) (match x with
    | .task _ => base
    | _ => if base = 1 then 3 else base) a

def frameLoadState (x : Ctx) (w base off : Nat) (s : State) : State :=
  onCode x (frameWord32 0 w base off) (fun c s =>
    let b := base % 4
    let a := frameAddr c b off
    if frameFault s x b a then wordFault x faultBounds c s
    else match loadWord s x c b a with
    | some v => setCycle x (stepped (putReg s x w v c)) s
    | none => safetyFault 3 (coreB s) s) s

/-- FRAME_LOAD (R175). -/
def execFrameLoad (t : Nat) (x : Ctx) (w base off : Nat) (s : State) : Out :=
  .next (frameLoadState x w base off (advance t s))

/-- Bytes of state a cycle has written so far (R186). -/
def dirtyBytes (c : Cycle) : Nat :=
  c.wInst.length + c.wGlob.length + c.wRet.length + c.blockBytes.foldl (fun a e => a + e.2) 0
    + 4 * ((c.out.map Prod.fst).eraseDups.length)

/-- A cycle goes on unless it has written more than 128 KiB. -/
def dirtyChecked (x : Ctx) (c : Cycle) (s : State) : State :=
  if 131072 < dirtyBytes c then wordFault x faultDirty c (setCycle x c s) else setCycle x (stepped c) s

/-- Bytes written into an overlay. -/
def putBytes (w : Tbl Byte) (a : Nat) : List Byte → Tbl Byte
  | [] => w
  | b :: r => putBytes (Tbl.insert w a b) (a + 1) r

/-- A pass's state write: its data, pass B's coded with its value, and the plain 32 bits in its proof words (10 R240). -/
def passStore (x : Ctx) (a : Nat) (v : Word64) (s : State) : State :=
  let v32 : BitVec 32 := v.truncate 32
  match x with
  | .task _ => s
  | .passA => { s with safe := { s.safe with
      plain := Memory.writeN s.safe.plain a (leBytes 4 v32.toNat), passA := foldWrite (a / 4) v32 s.safe.passA } }
  | .passB => { s with safe := { s.safe with
      coded := Tbl.insert s.safe.coded a (encodeInt s.safe.k (codedValue v)), passB := foldWrite (a / 4) v32 s.safe.passB } }

def frameStoreState (x : Ctx) (w base off : Nat) (s : State) : State :=
  onCode x (frameWord32 1 w base off) (fun c s => withReg x w c (fun v s =>
    let b := base % 4
    let a := frameAddr c b off
    let v32 : BitVec 32 := v.truncate 32
    if frameFault s x b a then wordFault x faultBounds c s
    else match x with
    | .task _ =>
      let bs := leBytes 4 v32.toNat
      dirtyChecked x (match b with
        | 0 => { c with wInst := putBytes c.wInst a bs }
        | 1 => { c with wGlob := putBytes c.wGlob a bs }
        | 2 => { c with wRet := putBytes c.wRet a bs }
        | _ => c) s
    | _ =>
      let s := setCycle x (stepped c) s
      if b = 3 then s else passStore x (plainAddr b a) v s) s) s

/-- FRAME_STORE (R175). -/
def execFrameStore (t : Nat) (x : Ctx) (w base off : Nat) (s : State) : Out :=
  .next (frameStoreState x w base off (advance t s))

/-- FRAME_LOAD_ADDRESS (R175). DESIGN CHOICE (log entry 89): the address is the byte offset within the word's area, which the
spec does not say. -/
def execFrameLoadAddress (t : Nat) (x : Ctx) (w base off : Nat) (s : State) : Out :=
  .next (onCode x (frameWord32 2 w base off) (fun c s =>
    setCycle x (stepped (putReg s x w (BitVec.ofNat 64 (frameAddr c (base % 4) off)) c)) s) (advance t s))

/-! ### POINT (R176; 10 R229) -/

/-- The point in the snapshot of a task's cycle. -/
def snapPoint (c : Cycle) (p : Nat) : Pt := (Tbl.find c.snap p).getD { qual := 0x45 }

/-- A request field whose mailbox word has lost its complement (10 R237). -/
def requestBad (s : State) (p : Nat) : Bool :=
  0x100 ≤ p && p < 0x200 && (requestWord s (p - 0x100)).read.isNone

/-- The agreed vector as a pass formed it (10 R235). -/
def agreedIn (s : State) (x : Ctx) : Nat :=
  match x with
  | .passB => s.safe.agreedB
  | _ => s.safe.agreed

/-- The core a pass runs on. -/
def coreOf (s : State) (x : Ctx) : Nat :=
  match x with
  | .passB => coreB s
  | _ => coreA s

/-- What a read of the safety address space gives (10 Table 10.2). -/
def safetyRead (s : State) (x : Ctx) (p : Nat) : Option (BitVec 32) :=
  if p < 32 then some (if bitOf (agreedIn s x) p then 1 else 0)
  else if 0x100 ≤ p ∧ p < 0x200 then some (requestValue s (p - 0x100))
  else none

/-- A register takes a free value: the spec gives a read of this kind no result. -/
def freeRead (x : Ctx) (w : Nat) (c : Cycle) (s : State) : State :=
  let (f, s) := draw s
  setCycle x (stepped (putReg s x w (widen x (BitVec.ofNat 32 f)) c)) s

/-- The fields of the safety address space (Table 10.2). -/
def safetyField (p : Nat) : Bool := p < 0x20 || (0x100 ≤ p && p < 0x200) || (0x210 ≤ p && p < 0x300) || (0x300 ≤ p && p < 0x308)

/-- A POINT read of an item by its OP, 0 the value: `f` takes it from the snapshot; the safety address space has values
only. -/
def pointRead (x : Ctx) (op w point : Nat) (f : Pt → Word64) (s : State) : State :=
  onCode x (pointWord op w point) (fun c s =>
    let p := point % 2 ^ 18
    match x with
    | .task _ => setCycle x (stepped (putReg s x w (f (snapPoint c p)) c)) s
    | _ =>
      if !safetyField p then wordFault x faultTrap c s
      else if requestBad s p then safetyFault 5 (coreOf s x) s
      else match (if op = 0 then safetyRead s x p else none) with
      | some v => setCycle x (stepped (putReg s x w (v.zeroExtend 64) c)) s
      | none => freeRead x w c s) s

/-- POINT_READ_VALUE (R176). -/
def execPointReadValue (t : Nat) (x : Ctx) (w point : Nat) (s : State) : Out :=
  .next (pointRead x 0 w point (fun p => widen x p.value) (advance t s))
/-- POINT_READ_QUALITY (R176). -/
def execPointReadQuality (t : Nat) (x : Ctx) (w point : Nat) (s : State) : Out :=
  .next (pointRead x 1 w point (fun p => BitVec.ofNat 64 p.qual) (advance t s))
/-- POINT_READ_TIMESTAMP (R176). -/
def execPointReadTimestamp (t : Nat) (x : Ctx) (w point : Nat) (s : State) : Out :=
  .next (pointRead x 2 w point (fun p => BitVec.ofInt 64 p.ts) (advance t s))

/-- A pass writes a status value or an output bit, into its proof words too (10 R240). -/
def passWrite (p : Nat) (v : BitVec 32) (r : Pass) : Pass :=
  let r := foldWrite p v r
  if p < 0x300 then { r with status := Tbl.put r.status 0 (p - 0x200) v }
  else
    let k := p - 0x300
    let rest := r.outs - (if bitOf r.outs k then 2 ^ k else 0)
    { r with outs := rest + (if v.getLsbD 0 then 2 ^ k else 0) }

/-- An address of Table 10.2 that may be written. -/
def safetyWritable (p : Nat) : Bool := (0x210 ≤ p && p < 0x300) || (0x300 ≤ p && p < 0x308)

def pointWriteState (x : Ctx) (w point : Nat) (s : State) : State :=
  onCode x (pointWord 3 w point) (fun c s => withReg x w c (fun v s =>
    let p := point % 2 ^ 18
    let v32 : BitVec 32 := v.truncate 32
    match x with
    | .task _ => dirtyChecked x { c with out := c.out ++ [(p, v32)] } s
    | _ =>
      if !safetyWritable p then wordFault x faultTrap c s
      else
        let s := setCycle x (stepped c) s
        match x with
        | .passB => { s with safe := { s.safe with passB := passWrite p v32 s.safe.passB } }
        | _ => { s with safe := { s.safe with passA := passWrite p v32 s.safe.passA } }) s) s

/-- POINT_WRITE_VALUE (R176). -/
def execPointWriteValue (t : Nat) (x : Ctx) (w point : Nat) (s : State) : Out :=
  .next (pointWriteState x w point (advance t s))

/-! ### BRANCH, CALL, EXT, SYS -/

/-- BRANCH (R175): the displacement counts from the branch word. -/
def execBranch (t : Nat) (x : Ctx) (cond w disp : Nat) (s : State) : Out :=
  .next (onCode x (branchWord cond w disp) (fun c s => withReg x w c (fun v s =>
    setCycle x (if Config.branchTaken cond (untyped x v) then { c with pc := ((c.pc : Int) + signedExt c 19 disp).toNat, ext := none }
      else stepped c) s) s) (advance t s))

/-- The descriptor of a CALL word. -/
def callDesc (s : State) (x : Ctx) (d : Nat) : CallDesc := (ctxForme s x).calls.getD d ⟨0, 0, 0⟩

/-- Byte offset of an instance record. -/
def instOffset (s : State) (x : Ctx) (i : Nat) : Nat := (((ctxForme s x).insts[i]?).map InstRec.offset).getD 0

def callUserState (x : Ctx) (d : Nat) (s : State) : State :=
  onCode x (callWord 0 d) (fun c s =>
    let k := callDesc s x d
    if 32 ≤ c.stack.length then wordFault x faultDepth c s
    else setCycle x { c with
      pc := k.target, inst := instOffset s x k.instance_, stack := (c.pc + 1, c.inst) :: c.stack, ext := none } s) s

/-- CALL_USER_BLOCK (R175). -/
def execCallUserBlock (t : Nat) (x : Ctx) (desc : Nat) (s : State) : Out := .next (callUserState x desc (advance t s))

/-- A CALL of a ROM block or function: the word names it and its instance; the block runs as its own row. -/
def callRomState (x : Ctx) (d : Nat) (s : State) : State :=
  onCode x (callWord 1 d) (fun c s =>
    let k := callDesc s x d
    setCycle x { stepped c with called := some (k.target, instOffset s x k.instance_), result := [] } s) s

/-- CALL_ROM_BLOCK (R175). -/
def execCallRomBlock (t : Nat) (x : Ctx) (desc : Nat) (s : State) : Out := .next (callRomState x desc (advance t s))

/-- CALL_FUNCTION (R175): a function has no instance. -/
def execCallFunction (t : Nat) (x : Ctx) (desc : Nat) (s : State) : Out :=
  .next (onCode x (callWord 2 desc) (fun c s =>
    setCycle x { stepped c with called := some ((callDesc s x desc).target, 0), result := [] } s) (advance t s))

/-- EXT (R175). -/
def execExt (t : Nat) (x : Ctx) (bits : Nat) (s : State) : Out :=
  .next (onCode x (extWord bits) (fun c s => setCycle x { c with pc := c.pc + 1, ext := some (bits % 2 ^ 28) } s) (advance t s))

/-- SYS_RETURN (R175). DESIGN CHOICE (log entry 89): with no call to return from the next word follows; the spec does not say
what a return does there. -/
def execSysReturn (t : Nat) (x : Ctx) (arg : Nat) (s : State) : Out :=
  .next (onCode x (sysWord 1 arg) (fun c s => setCycle x (match c.stack with
    | (pc, i) :: r => { c with pc := pc, inst := i, stack := r, ext := none }
    | [] => stepped c) s) (advance t s))

/-- The end of a task's cycle, or of a pass. -/
def endOfCycle (x : Ctx) (arg : Nat) (s : State) : State :=
  onCode x (sysWord 2 arg) (fun _ s => match x with
    | .task k => endCycle k s
    | .passA => endPassA s
    | .passB => endPassB s) s

/-- SYS_END_OF_CYCLE (01 R14). -/
def execSysEndOfCycle (t : Nat) (x : Ctx) (arg : Nat) (s : State) : Out := .next (endOfCycle x arg (advance t s))

/-- SYS_TRAP (R186). -/
def execSysTrap (t : Nat) (x : Ctx) (arg : Nat) (s : State) : Out :=
  .next (onCode x (sysWord 3 arg) (fun c s => wordFault x faultTrap c s) (advance t s))

end Sys2Proof.Machine
end

