-- ==== Sys2Proof/Machine/Blocks.lean ====
section
/-! DEFINITION. The native blocks (08 Table 8.6, R179, R180), the CAN functions (15 Table 15.5) and the safety-function
blocks (11 R258). TOF, TP, the counters and the bistables follow IEC 61131-3, to which R179 points (log entry 21). -/

namespace Sys2Proof.Machine

/-- The instance a block works on: the one its CALL word named, else the one the row gives. -/
def blockInst (c : Cycle) (number inst : Nat) : Nat :=
  match c.called with
  | some (b, o) => if b = number then o else inst
  | none => inst

/-- Instance data of a native block as a context sees it. -/
def taskBlock (s : State) (k : Fin 48) (c : Cycle) (i : Nat) : BlockInst :=
    match Tbl.find c.wBlocks i with
    | some b => b
    | none =>
      match s.pair.held.reverse.findSome? (fun h => match h.cycle with
        | some (j, d) => if j = k.val then Tbl.find d.wBlocks i else none
        | none => none) with
      | some b => b
      | none => Tbl.get s.prog.blocks {} i

/-- The words that pass B codes of a block's instance, and the instance they hold (10 R238). -/
def blockWords (b : BlockInst) : List (BitVec 32) :=
  [BitVec.ofNat 32 (flagWord [(0, b.inp), (1, b.q), (2, b.running), (3, b.prev), (4, b.prevValid), (5, b.prevD),
      (6, b.prevDValid), (7, b.qu), (8, b.qd)]),
    BitVec.ofInt 32 b.et, BitVec.ofInt 32 (b.et / (2 ^ 32 : Nat)), BitVec.ofInt 32 b.start,
    BitVec.ofInt 32 (b.start / (2 ^ 32 : Nat)), BitVec.ofInt 32 b.cv]

def blockOfWords (ws : List (BitVec 32)) : BlockInst :=
  let w (i : Nat) : BitVec 32 := ws.getD i 0
  let f (i : Nat) : Bool := (w 0).getLsbD i
  { inp := f 0, q := f 1, running := f 2, prev := f 3, prevValid := f 4, prevD := f 5, prevDValid := f 6, qu := f 7, qd := f 8
    et := (w 2).toInt * (2 ^ 32 : Nat) + (w 1).toNat, start := (w 4).toInt * (2 ^ 32 : Nat) + (w 3).toNat, cv := (w 5).toInt }

/-- Instance data as a context sees it; none where a coded word of pass B is not valid (10 R239). -/
def getBlock (s : State) (x : Ctx) (c : Cycle) (i : Nat) : Option BlockInst :=
  match x with
  | .task k => some (taskBlock s k c i)
  | .passA => some (Tbl.get s.safe.blocksA {} i)
  | .passB => (getCodedN s.safe.k (blockBase + 8 * i) 6 s.safe.coded).map blockOfWords

/-- A block's instance of `bytes` bytes is written: each 4-byte word of it enters the proof words (10 R240). -/
def foldBlock (number bytes i : Nat) (b : BlockInst) (p : Pass) : Pass :=
  (List.range (ceilDiv bytes 4)).foldl (fun p w => foldWrite (i / 4 + w) (Config.blockWord number w b) p) p

/-- The block has run: its instance data and its results are kept. -/
def putBlock (x : Ctx) (number bytes i : Nat) (b : BlockInst) (res : List Nat) (c : Cycle) (s : State) : State :=
  let c := { c with called := none, result := res }
  match x with
  | .task _ =>
    let c := { c with wBlocks := Tbl.insert c.wBlocks i b, blockBytes := Tbl.insert c.blockBytes i bytes }
    if 131072 < dirtyBytes c then wordFault x faultDirty c (setCycle x c s) else setCycle x c s
  | .passA =>
    let s := setCycle x c s
    { s with safe := { s.safe with blocksA := Tbl.put s.safe.blocksA {} i b, passA := foldBlock number bytes i b s.safe.passA } }
  | .passB =>
    let s := setCycle x c s
    { s with safe := { s.safe with
      coded := putCodedN s.safe.k (blockBase + 8 * i) (blockWords b) s.safe.coded
      passB := foldBlock number bytes i b s.safe.passB } }

/-- A block of a number and size runs on its instance. -/
def runBlock (x : Ctx) (number bytes inst : Nat) (f : BlockInst → BlockInst × List Nat) (s : State) : State :=
  onWord x (fun c s =>
    let i := blockInst c number inst
    match getBlock s x c i with
    | some b =>
      let r := f b
      putBlock x number bytes i r.1 r.2 c s
    | none => safetyFault 3 (coreB s) s) s

/-- A timer's now: the program clock at the nominal release, or the safety clock (R179; 10 R230). -/
def timerNow (s : State) (x : Ctx) : Int :=
  match x with
  | .task k => (((getTask s k).cycle).map Cycle.clock).getD 0
  | _ => safetyClock s

def boolNat (b : Bool) : Nat := if b then 1 else 0

/-- Q and ET as a timer returns them. -/
def timerResult (b : BlockInst) : List Nat := [boolNat b.q, b.et.toNat]

/-- TON (R179). -/
def tonStep (inp : Bool) (pt now : Int) (b : BlockInst) : BlockInst :=
  let pt := max pt 0
  if !inp then { b with inp := inp, running := false, q := false, et := 0 }
  else
    let start := if b.running then b.start else now
    { b with inp := inp, running := true, start := start, et := min (now - start) pt, q := decide (pt ≤ now - start) }

/-- TOF: Q follows a rise at once and a fall after PT. -/
def tofStep (inp : Bool) (pt now : Int) (b : BlockInst) : BlockInst :=
  let pt := max pt 0
  if inp then { b with inp := inp, running := false, q := true, et := 0 }
  else if b.inp ∨ b.running then
    let start := if b.running then b.start else now
    let out := decide (pt ≤ now - start)
    { b with inp := inp, running := !out, start := start, et := min (now - start) pt, q := !out }
  else { b with inp := inp, q := false }

/-- TP: a rise starts a pulse of PT that nothing shortens; ET returns to 0 once the pulse is over and IN is false. -/
def tpStep (inp : Bool) (pt now : Int) (b : BlockInst) : BlockInst :=
  let pt := max pt 0
  let rise := inp && !b.inp && !b.running
  let b := if rise then { b with running := true, start := now } else b
  if b.running then
    let e := now - b.start
    if pt ≤ e then { b with inp := inp, running := false, q := false, et := if inp then pt else 0 }
    else { b with inp := inp, q := true, et := e }
  else { b with inp := inp, q := false, et := if inp then b.et else 0 }

/-- R_TRIG and F_TRIG (R179). -/
def trigStep (rising clk : Bool) (b : BlockInst) : BlockInst :=
  let prev := if b.prevValid then b.prev else clk
  { b with prev := clk, prevValid := true, q := if rising then clk && !prev else !clk && prev }

/-- A counting edge against the input memory (R180). -/
def countEdge (cur prev valid : Bool) : Bool := cur && valid && !prev

/-- The ends of INT, the type of CV and PV in IEC 61131-3. -/
abbrev cvMax : Int := 32767
abbrev cvMin : Int := -32768

/-- CTU. -/
def ctuStep (cu r : Bool) (pv : Int) (b : BlockInst) : BlockInst :=
  let cv := if r then 0 else if countEdge cu b.prev b.prevValid ∧ b.cv < cvMax then b.cv + 1 else b.cv
  { b with prev := cu, prevValid := true, cv := cv, q := decide (pv ≤ cv) }

/-- CTD. -/
def ctdStep (cd ld : Bool) (pv : Int) (b : BlockInst) : BlockInst :=
  let cv := if ld then pv else if countEdge cd b.prev b.prevValid ∧ cvMin < b.cv then b.cv - 1 else b.cv
  { b with prev := cd, prevValid := true, cv := cv, q := decide (cv ≤ 0) }

/-- CTUD: R over LD over counting; simultaneous edges cancel. -/
def ctudStep (cu cd r ld : Bool) (pv : Int) (b : BlockInst) : BlockInst :=
  let u := countEdge cu b.prev b.prevValid
  let d := countEdge cd b.prevD b.prevDValid
  let cv := if r then 0 else if ld then pv
    else if u && d then b.cv
    else if u ∧ b.cv < cvMax then b.cv + 1 else if d ∧ cvMin < b.cv then b.cv - 1 else b.cv
  { b with
    prev := cu, prevValid := true, prevD := cd, prevDValid := true, cv := cv, qu := decide (pv ≤ cv), qd := decide (cv ≤ 0) }

/-- CV as a result: its 16-bit two's complement. -/
def cvNat (v : Int) : Nat := (v % (2 ^ 16 : Nat)).toNat

/-- TON (R179). -/
def execTon (t : Nat) (x : Ctx) (inst : Nat) (inp : Bool) (pt : Int) (s : State) : Out :=
  let s := advance t s
  .next (runBlock x 1 40 inst (fun b => let r := tonStep inp pt (timerNow s x) b; (r, timerResult r)) s)
/-- TOF (R179). -/
def execTof (t : Nat) (x : Ctx) (inst : Nat) (inp : Bool) (pt : Int) (s : State) : Out :=
  let s := advance t s
  .next (runBlock x 2 40 inst (fun b => let r := tofStep inp pt (timerNow s x) b; (r, timerResult r)) s)
/-- TP (R179). -/
def execTp (t : Nat) (x : Ctx) (inst : Nat) (inp : Bool) (pt : Int) (s : State) : Out :=
  let s := advance t s
  .next (runBlock x 3 40 inst (fun b => let r := tpStep inp pt (timerNow s x) b; (r, timerResult r)) s)
/-- R_TRIG (R179, R180). -/
def execRTrig (t : Nat) (x : Ctx) (inst : Nat) (clk : Bool) (s : State) : Out :=
  .next (runBlock x 0x10 4 inst (fun b => let r := trigStep true clk b; (r, [boolNat r.q])) (advance t s))
/-- F_TRIG (R179, R180). -/
def execFTrig (t : Nat) (x : Ctx) (inst : Nat) (clk : Bool) (s : State) : Out :=
  .next (runBlock x 0x11 4 inst (fun b => let r := trigStep false clk b; (r, [boolNat r.q])) (advance t s))
/-- CTU (R180). -/
def execCtu (t : Nat) (x : Ctx) (inst : Nat) (cu r : Bool) (pv : Int) (s : State) : Out :=
  .next (runBlock x 0x20 16 inst (fun b => let y := ctuStep cu r pv b; (y, [boolNat y.q, cvNat y.cv])) (advance t s))
/-- CTD (R180). -/
def execCtd (t : Nat) (x : Ctx) (inst : Nat) (cd ld : Bool) (pv : Int) (s : State) : Out :=
  .next (runBlock x 0x21 16 inst (fun b => let y := ctdStep cd ld pv b; (y, [boolNat y.q, cvNat y.cv])) (advance t s))
/-- CTUD (R180). -/
def execCtud (t : Nat) (x : Ctx) (inst : Nat) (cu cd r ld : Bool) (pv : Int) (s : State) : Out :=
  .next (runBlock x 0x22 16 inst (fun b =>
    let y := ctudStep cu cd r ld pv b; (y, [boolNat y.qu, boolNat y.qd, cvNat y.cv])) (advance t s))
/-- SR (R178): set dominant. -/
def execSr (t : Nat) (x : Ctx) (inst : Nat) (s1 r : Bool) (s : State) : Out :=
  .next (runBlock x 0x30 2 inst (fun b => let q := s1 || (b.q && !r); ({ b with q := q }, [boolNat q])) (advance t s))
/-- RS (R178): reset dominant. -/
def execRs (t : Nat) (x : Ctx) (inst : Nat) (st r1 : Bool) (s : State) : Out :=
  .next (runBlock x 0x31 2 inst (fun b => let q := !r1 && (st || b.q); ({ b with q := q }, [boolNat q])) (advance t s))

/-! ### CAN functions (15 R378) -/

/-- FLAGS of a received frame, laid out as the FLAGS of its buffer's record: extended, FD, BRS, remote. -/
def frameFlags (f : CanFrame) : Nat := flagWord [(0, f.ext), (1, f.fd), (2, f.brs), (3, f.remote)]

/-- A CAN function runs where a CALL word of kind 0b10 has just named it (15 R378, Table 15.5). -/
def onFunction (k : Fin 48) (number : Nat) (f : Cycle → State → State) (s : State) : State :=
  onWord (.task k) (fun c s => if (c.called.map Prod.fst) = some number then f c s else s) s

/-- VALID, ID, FLAGS, LEN, STAMP, COUNT and the data bytes. -/
def recvResult (rx : Option CanRx) (count : Nat) : List Nat :=
  match rx with
  | some r => [1, r.frame.id, frameFlags r.frame, r.frame.data.length, (r.stamp % (2 ^ 64 : Nat)).toNat, count]
      ++ r.frame.data.map BitVec.toNat
  | none => [0, 0, 0, 0, 0, count]

def canRecvState (k : Fin 48) (p b : Nat) (s : State) : State :=
  onFunction k 0x40 (fun c s =>
    let r := bufRec s p b
    let key := p * 128 + b
    let fs := Tbl.get c.snapCan [] key
    let n := Tbl.get c.snapCount 0 key
    let done (res : List Nat) (c : Cycle) : State := setCycle (.task k) { c with called := none, result := res } s
    if r.kind = 2 then
      if r.task ≠ k then done (recvResult none n) c
      else
        let popped := Tbl.get c.pops 0 key
        match fs[popped]? with
        | some rx => done (recvResult (some rx) n) { c with pops := Tbl.insert c.pops key (popped + 1) }
        | none => done (recvResult none n) c
    else done (recvResult (if r.kind = 1 then fs.head? else none) n) c) s

/-- CAN_RECV (15 R378). -/
def execCanRecv (t : Nat) (k : Fin 48) (port buf : Nat) (s : State) : Out := .next (canRecvState k port buf (advance t s))

def canSendState (k : Fin 48) (p b id : Nat) (data : List Byte) (s : State) : State :=
  onFunction k 0x41 (fun c s =>
    let r := bufRec s p b
    let ok := r.kind == 3 && r.trigger == 3 && !c.snapQueued.contains (p * 128 + b)
    let c := { c with called := none, result := [boolNat ok] }
    setCycle (.task k) (if ok then
      { c with sends := c.sends.filter (fun e => !(e.1 == p && e.2.1 == b)) ++ [(p, b, id, data)] } else c) s) s

/-- CAN_SEND (15 R378). -/
def execCanSend (t : Nat) (k : Fin 48) (port buf id : Nat) (data : List Byte) (s : State) : Out :=
  .next (canSendState k port buf id data (advance t s))

/-- CAN_STATE returns STATUS, TEC and REC, and its request waits for the release. -/
def canStateOp (k : Fin 48) (p op : Nat) (s : State) : State :=
  onFunction k 0x42 (fun c s =>
    let x := c.snapPorts.getD p (0, 0, 0)
    setCycle (.task k) { c with
      called := none, result := [x.1, x.2.1, x.2.2], states := c.states ++ [(p, op)] } s) s

/-- CAN_STATE_RECOVER (15 R378). -/
def execCanStateRecover (t : Nat) (k : Fin 48) (port : Nat) (s : State) : Out := .next (canStateOp k port 1 (advance t s))
/-- CAN_STATE_REENABLE (15 R378). -/
def execCanStateReenable (t : Nat) (k : Fin 48) (port : Nat) (s : State) : Out := .next (canStateOp k port 2 (advance t s))

/-! ### Safety-function blocks (11 R258) -/

/-- A function instance as a pass evaluated it; none where a coded word of pass B is not valid (11 R257). -/
def sfIn (s : State) (x : Ctx) (f : Nat) : Option SfInst :=
  match x with
  | .passB => (getCodedN s.safe.k (instBase + 8 * f) 6 s.safe.coded).map sfOfWords
  | _ => some (getSf s f)

/-- A pass calls a block of an instance's kind: EN, EN_DELAYED, STATE. A task, an unconfigured instance or another kind
is a word that fails verification, an illegal word in execution. -/
def sfBlock (x : Ctx) (kind f : Nat) (s : State) : State :=
  onWord x (fun c s =>
    let ok := (match x with
      | .task _ => false
      | _ => true) && f < 44 && sfKind f == kind && sfInput s f < 16
    if !ok then wordFault x faultTrap c s
    else match sfIn s x f with
    | some i => setCycle x { c with called := none, result := [boolNat (sfEn i.state), boolNat i.enDelayed, i.state.num] } s
    | none => safetyFault 3 (coreB s) s) s

/-- EMERGENCY_STOP_BLOCK (11 R258). -/
def execEmergencyStopBlock (t : Nat) (x : Ctx) (f : Nat) (s : State) : Out := .next (sfBlock x 0 f (advance t s))
/-- GUARD_INTERLOCK_BLOCK (11 R258). -/
def execGuardInterlockBlock (t : Nat) (x : Ctx) (f : Nat) (s : State) : Out := .next (sfBlock x 1 f (advance t s))
/-- TWO_HAND_CONTROL_BLOCK (11 R258). -/
def execTwoHandControlBlock (t : Nat) (x : Ctx) (f : Nat) (s : State) : Out := .next (sfBlock x 2 f (advance t s))
/-- LIGHT_CURTAIN_BLOCK (11 R258). -/
def execLightCurtainBlock (t : Nat) (x : Ctx) (f : Nat) (s : State) : Out := .next (sfBlock x 3 f (advance t s))

/-- SO_STATUS_BLOCK (11 R258): the status as it stood at the cycle start. -/
def execSoStatusBlock (t : Nat) (x : Ctx) (k : Nat) (s : State) : Out :=
  .next (onWord x (fun c s =>
    let ok := (match x with
      | .task _ => false
      | _ => true) && k < 8
    if !ok then wordFault x faultTrap c s
    else setCycle x { c with called := none, result := [Tbl.get s.safe.soAtStart 0 k] } s) (advance t s))

end Sys2Proof.Machine
end

