-- ==== Sys2Proof/Machine/Verify.lean ====
section
/-! DEFINITION. The verification of a forme (08 R172, Table 8.2) and of a safety forme's common rows (10 Table 10.1). -/

namespace Sys2Proof.Machine

/-- An abort unless a condition holds. -/
def need (ok : Bool) (a : Abort) : Option Abort := if ok then none else some a

/-- A field lies in its range. -/
def within (v lo hi : Nat) : Bool := lo ≤ v && v ≤ hi

/-! ### Retained state of the configuration (08 Table 8.2; 09 R221; 14 R341) -/

/-- The configured loops and the axes in use of a configuration. -/
def loopsOf (c : Tbl (List Byte)) : List Nat :=
  c.filterMap (fun e => if 0x4000 ≤ e.1 / 256 ∧ e.1 / 256 ≤ 0x43FF ∧ e.1 % 256 = 1 ∧ leVal e.2 ≠ 0 then some (e.1 / 256 - 0x4000) else none)
def axesOf (c : Tbl (List Byte)) : List Nat :=
  c.filterMap (fun e => if 0x3400 ≤ e.1 / 256 ∧ e.1 / 256 ≤ 0x3417 ∧ e.1 % 256 = 1 ∧ leVal e.2 ≠ 0 then some (e.1 / 256 - 0x3400) else none)

/-- Bytes of loop and axis state the retained area holds beside the forme's. -/
def retainedOther (c : Tbl (List Byte)) : Nat := 32 * (loopsOf c).length + 16 * (axesOf c).length

/-- The retained area, bytes (01 Table 1.4). -/
abbrev retainMax : Nat := 256 * 1024

/-! ### Words -/

/-- A word decodes under Table 8.3. -/
def wordOk (w : BitVec 32) : Bool := (wordCommand 0 .passA w).isSome

/-- Upper bits the word before supplies. -/
def extBits (f : Forme) (i : Nat) : Option Nat :=
  if i = 0 then none else match f.code[i - 1]? with
  | some w => if wordFmt w = 15 then some (wordField w 27 0) else none
  | none => none

/-- Target of a BRANCH word. -/
def branchTarget (f : Forme) (i : Nat) (w : BitVec 32) : Int :=
  (i : Int) + signedExt { ext := extBits f i } 19 (wordField w 18 0)

/-- An instance index and the type index of its record lie in range. -/
def instOk (f : Forme) (i : Nat) : Bool :=
  match f.insts[i]? with
  | some r => decide (r.type < f.types.length)
  | none => false

/-- A call descriptor names what exists: a routine inside CODE with an instance, or a ROM block the forme may call. A
safety-function block has its immediate argument where others have their instance. -/
def descOk (f : Forme) (safety : Bool) (kind d : Nat) : Bool :=
  match f.calls[d]? with
  | none => false
  | some c =>
    (kind == 2 || (safety && kind == 1 && 0x100 ≤ c.target && c.target ≤ 0x1FF) || instOk f c.instance_) &&
      (if kind = 0 then decide (c.target < f.code.length)
       else if safety then
         (1 ≤ c.target && c.target ≤ 3) || c.target == 0x10 || c.target == 0x11 || (0x20 ≤ c.target && c.target ≤ 0x22)
           || c.target == 0x30 || c.target == 0x31 || (0x100 ≤ c.target && c.target ≤ 0x1FF)
       else !(0x100 ≤ c.target && c.target ≤ 0x1FF))

/-- A word of CODE passes on its own. -/
def codeWordOk (f : Forme) (safety : Bool) (i : Nat) (w : BitVec 32) : Bool :=
  wordOk w && (match wordFmt w with
    | 5 => let t := branchTarget f i w; decide (0 ≤ t) && decide (t < f.code.length)
    | 6 => descOk f safety (wordField w 27 26) (wordField w 25 0)
    | _ => true)

/-! ### Tasks (R181, R182) -/

/-- Periods of cyclic tasks, µs. -/
def periodsUs : List Nat := [1, 2, 4, 5, 10, 20, 25, 50, 100, 200, 250, 500, 1000].map (· * 1000)

/-- A task definition follows R181: its kind belongs to its number, its core exists, its period is allowed. -/
def taskDefOk (split : Bool) (f : Forme) (k : Nat) (d : TaskDef) : Bool :=
  d.kind == 0 ||
    ((if k < 32 then d.kind == 1 && periodsUs.contains d.periodUs else d.kind == 2 && d.periodUs == 0)
      && d.core ≤ (if split then 5 else 3) && d.priority ≤ 15 && decide (d.entry < f.code.length))

/-- Two tasks of one core share a priority (R182). -/
def prioClash (f : Forme) (k : Nat) (d : TaskDef) : Bool :=
  d.kind != 0 && (List.range k).any (fun j => let e := f.tasks.getD j {}
    e.kind != 0 && e.core == d.core && e.priority == d.priority)

/-! ### What a task's code reaches -/

/-- Offsets reached from `work` (fuel: one for each word visited). -/
def reach (f : Forme) : Nat → List Nat → List Nat → List Nat
  | 0, _, seen => seen
  | _ + 1, [], seen => seen
  | n + 1, i :: work, seen =>
    if seen.contains i then reach f n work seen
    else match f.code[i]? with
    | none => reach f n work seen
    | some w =>
      let next : List Nat := match wordFmt w with
        | 5 => [(branchTarget f i w).toNat, i + 1]
        | 6 => if wordField w 27 26 = 0 then
            match f.calls[wordField w 25 0]? with
            | some c => [c.target, i + 1]
            | none => [i + 1]
          else [i + 1]
        | 7 => if wordField w 27 20 = 1 ∨ wordField w 27 20 = 2 ∨ wordField w 27 20 = 3 then [] else [i + 1]
        | _ => [i + 1]
      reach f n (next ++ work) (i :: seen)

/-- The words of task k. -/
def taskWords (f : Forme) (k : Nat) : List Nat :=
  let d := f.tasks.getD k {}
  if d.kind = 0 then [] else reach f (3 * f.code.length + 1) [d.entry] []

/-- Byte offset in the globals, or in the retained data, that a store word writes. -/
def storesGlobal (f : Forme) (retained : Bool) (i : Nat) : Option Nat :=
  match f.code[i]? with
  | some w => if wordFmt w = 3 ∧ wordField w 27 24 = 1 ∧ wordField w 18 17 = (if retained then 2 else 1) then
      some (4 * withExt { ext := extBits f i } 17 (wordField w 16 0)) else none
  | none => none

/-- The instance a call word names. -/
def callsInst (f : Forme) (i : Nat) : Option Nat :=
  match f.code[i]? with
  | some w => if wordFmt w = 6 ∧ wordField w 27 26 ≠ 2 then (f.calls[wordField w 25 0]?).map CallDesc.instance_ else none
  | none => none

/-- The first variable a task other than its writer stores to, with any of the four bytes of a store. -/
def wrongWriter (f : Forme) (words : List (Nat × List Nat)) : Option Nat :=
  (List.range f.vars.length).find? (fun v => match f.vars[v]? with
    | some r => words.any (fun e => e.1 != r.writer && e.2.any (fun i => match storesGlobal f r.retained i with
        | some a => r.offset < a + 4 && a < r.offset + r.size
        | none => false))
    | none => false)

/-- The first instance called from two tasks (R178). -/
def sharedInst (f : Forme) (words : List (Nat × List Nat)) : Option Nat :=
  (List.range f.insts.length).find? (fun n =>
    1 < (words.filter (fun e => e.2.any (fun i => callsInst f i == some n))).length)

/-- Points a task writes. -/
def pointsWritten (f : Forme) (k : Nat) : List Nat := ((f.points[k]?).map Prod.snd).getD []
def allWritten (f : Forme) : List Nat := (List.range 48).flatMap (pointsWritten f)

/-- The first point written by two tasks, or not produced by FORME in the live mapping. -/
def badPoint (s : State) (f : Forme) : Option Nat :=
  (List.range 48).findSome? (fun k => (pointsWritten f k).find? (fun p =>
    (List.range k).any (fun j => (pointsWritten f j).contains p) || !formeMade (mapRecs s) p))

/-- Index of the first element that fails a test. -/
def firstBad {α : Type} (l : List α) (bad : Nat → α → Bool) : Option Nat :=
  ((List.range l.length).zip l).findSome? (fun e => if bad e.1 e.2 then some e.1 else none)

/-! ### The verification -/

/-- The rows of Table 8.2 after the signature (row 1), for a forme against the live configuration: the first that fails, and
its abort. DESIGN CHOICE (log entry 90): where several limits of row 3 are exceeded, the detail is the sum of their excesses,
and the abort names object index 0 and sub 0; the spec gives neither. -/
def verifyRow (s : State) (f : Forme) : Option (Nat × Abort) :=
  let bad (row d : Nat) : Option (Nat × Abort) := some (row, { cls := 2, ss := 0x24, num := 1, detail := d })
  let room := retainMax - retainedOther s.config
  let excess := (f.size - 2 ^ 21) + (f.dataSize - 2 ^ 22) + (f.retainSize - room)
  if !f.headerOk || f.safety then bad 2 0
  else if 0 < excess then some (3, { cls := 4, ss := 0x24, num := 2, detail := excess })
  else match firstBad f.code (fun i w => !codeWordOk f false i w) with
  | some i => bad 4 i
  | none => if !(List.range f.insts.length).all (instOk f) then bad 4 0
    else match firstBad f.tasks (fun k d => !taskDefOk (isSplit s) f k d || prioClash f k d) with
  | some k => bad 5 k
  | none =>
    let words := (List.range 48).map (fun k => (k, taskWords f k))
    match wrongWriter f words with
    | some v => bad 6 v
    | none => match sharedInst f words with
    | some n => bad 7 n
    | none => (badPoint s f).map (fun p => (8, { cls := 2, ss := 0x28, num := 1, detail := p }))

/-- The verification's abort (R172). -/
def verifyForme (s : State) (f : Forme) : Option Abort := (verifyRow s f).map Prod.snd

/-- The abort of a row of Table 8.2 without its detail. -/
def rowAbort (row : Nat) : Abort :=
  if row = 1 then { cls := 5, ss := 0xF0, num := 5 }
  else if row = 3 then { cls := 4, ss := 0x24, num := 2 }
  else if row = 8 then { cls := 2, ss := 0x28, num := 1 }
  else { cls := 2, ss := 0x24, num := 1 }

end Sys2Proof.Machine
end

