-- ==== Sys2Proof/Machine/Modes.lean ====
section
/-! DEFINITION. The commands of modes, releases and online change (08 R183 to R197). -/

namespace Sys2Proof.Machine

/-! ### Commands still running, changes pending (04 R91, R93) -/

/-- Abort number 0x0005 of class 0x03 about an area's command. -/
def stillRunning (ss idx : Nat) : Abort := { cls := 3, ss := ss, num := 5, idx := idx, sub := 1 }

/-- An asynchronous command answers at acceptance. -/
def cmdAccept (c n : Nat) (s : State) : Answer × State := (.ok [], cmdStart c n s)

/-- The command index of the change that is pending (R91). -/
def pendingChange (s : State) : Option Nat := if s.sess.pending.isSome then some 0xF007 else s.sess.change

/-- A change becomes pending and keeps its leases (R86, R91). -/
def keepLeases (cmd n : Nat) (areas : List Nat) (s : State) : State :=
  { s with sess := { s.sess with change := some cmd, kept := areas.map (fun a => (a, n)) } }

/-- A 1000 ms boundary of local time has come since `t` (06 R129). -/
def boundarySince (s : State) (t : Int) : Bool := decide (t / (secNs : Int) < localNow s / (secNs : Int))

/-! ### MODE_SET (Table 8.9) -/

def modeBad (num detail : Nat) : Abort := { cls := 2, ss := 0x24, num := num, idx := 0xF001, sub := 1, detail := detail }

/-- Not allowed in the present mode or pair role. -/
def notInMode (s : State) (ss : Nat) : Abort :=
  { cls := 3, ss := ss, num := 1, idx := 0xF001, sub := 1, detail := s.prog.mode.num }

/-- The arguments of MODE_SET against Table 8.9. -/
def modeArgs (data : List Byte) : Option Abort :=
  let mode := fieldAt data 0 1
  let task := fieldAt data 1 1
  let dur := fieldAt data 4 4
  if 3 < mode then some (modeBad 2 3)
  else if mode = 3 ∧ 47 < task then some (modeBad 2 47)
  else if mode ≠ 3 ∧ task ≠ 0xFF then some (modeBad 1 0)
  else if mode = 2 ∧ 600000 < dur then some (modeBad 2 600000)
  else if mode = 2 ∧ dur ≠ 0 ∧ dur < 1000 then some (modeBad 3 1000)
  else if mode ≠ 2 ∧ dur ≠ 0 then some (modeBad 1 0)
  else none

/-- MODE_SET to STOP (R87): it supersedes one still running and takes the module to STOP. -/
def setStop (n : Nat) (s : State) : Answer × State :=
  let s := if cmdRunning s 1 then cmdFail 1 (notInMode s 0x24) s else s
  let s := { s with prog := { s.prog with runDue := false, runByCommand := false } }
  (.ok [], cmdDone 1 [] (enterStop 1 (cmdStart 1 n s)))

/-- MODE_SET to RUN (Table 8.8). -/
def setRun (n : Nat) (s : State) : Answer × State :=
  match s.prog.mode with
  | .stop =>
    if s.prog.forme.isNone then (.error (notInMode s 0x24), s)
    else (.ok [], cmdStart 1 n { s with prog := { s.prog with runDue := true, runByCommand := true, runSince := localNow s } })
  | .hold => (.ok [], cmdDone 1 [] (resumeRun (cmdStart 1 n s)))
  | .run => (.ok [], cmdDone 1 [] (cmdStart 1 n s))

/-- MODE_SET to HOLD (R191). -/
def setHold (dur n : Nat) (s : State) : Answer × State :=
  let end_ := s.now + (if dur = 0 then 60000 else dur) * msNs
  match s.prog.mode with
  | .stop => (.error (notInMode s 0x24), s)
  | .run => (.ok [], cmdDone 1 [] (enterHold end_ (cmdStart 1 n s)))
  | .hold => (.ok [], cmdDone 1 [] (cmdStart 1 n { s with prog := { s.prog with holdUntil := end_ } }))

/-- MODE_SET STEP (R192). DESIGN CHOICE (log entry 90): STEP of an unused task is refused with 0x0224_0001, and STEP of a task
whose cycle from before HOLD still runs is refused as one whose step cycle runs is; the spec gives neither. -/
def setStep (k n : Nat) (s : State) : Answer × State :=
  if s.prog.mode ≠ .hold then (.error (notInMode s 0x24), s)
  else if !taskUsed s k then (.error (modeBad 1 0), s)
  else if (getTask s k).cycle.isSome then (.error (notInMode s 0x24), s)
  else
    let s := cmdStart 1 n s
    let s := if (taskDef s k).kind = 1 then
      { s with prog := { s.prog with clock := s.prog.clock + (taskPeriod s k : Int) } } else s
    (.ok [], cmdDone 1 [] (releaseTask k s.prog.clock true s))

/-- An invocation of MODE_SET. A unit in CONFLICT stays in STOP (16 R386); DESIGN CHOICE: the other modes are refused there as
on a standby (log entry 81). -/
def modeSetOp (data : List Byte) (n : Nat) (s : State) : Answer × State :=
  let mode := fieldAt data 0 1
  match modeArgs data with
  | some a => (.error a, s)
  | none =>
    if isStandby s || (decide (s.pair.state = .conflict) && mode != 0) then (.error (notInMode s 0x50), s)
    else if mode = 0 then setStop n s
    else if cmdRunning s 1 then (.error (stillRunning 0x24 0xF001), s)
    else if mode = 1 then setRun n s
    else if mode = 2 then setHold (fieldAt data 4 4) n s
    else setStep (fieldAt data 1 1) n s

/-- MODE_SET_STOP (04 R87). -/
def execModeSetStop (t : Nat) (c : Cmd) (s : State) : Out := .next (rowReq c 0xF001 1 [0] modeSetOp (advance t s))
/-- MODE_SET_RUN (R189). -/
def execModeSetRun (t : Nat) (c : Cmd) (s : State) : Out := .next (rowReq c 0xF001 1 [1] modeSetOp (advance t s))
/-- MODE_SET_HOLD (R191). -/
def execModeSetHold (t : Nat) (c : Cmd) (s : State) : Out := .next (rowReq c 0xF001 1 [2] modeSetOp (advance t s))
/-- MODE_SET_STEP (R192). -/
def execModeSetStep (t : Nat) (c : Cmd) (s : State) : Out := .next (rowReq c 0xF001 1 [3] modeSetOp (advance t s))

/-- RUN is awaited, and its boundary has come (03 R62); a unit in CONFLICT stays in STOP (16 R386). -/
def runEntryDue (s : State) : Bool :=
  appUp s && !decide (s.pair.state = .conflict) && s.prog.runDue && decide (s.prog.mode = .stop) && s.prog.forme.isSome
    && boundarySince s s.prog.runSince

def runEntryState (s : State) : State :=
  let cmd := s.prog.runByCommand && cmdRunning s 1
  let s := enterRun s
  if cmd then cmdDone 1 [] s else s

/-- HOLD_LAPSE (R191). -/
def execHoldLapse (t : Nat) (s : State) : Out :=
  let s := advance t s
  .next (if s.prog.mode = .hold ∧ s.prog.holdUntil ≤ s.now then enterStop 3 s else s)

/-- STEP_CYCLE_TIMEOUT (R192). -/
def execStepCycleTimeout (t : Nat) (k : Fin 48) (s : State) : Out :=
  let s := advance t s
  .next (match (getTask s k).cycle with
    | some c => if c.step ∧ c.releasedAt + secNs ≤ s.now then abandonCycle k s else s
    | none => s)

/-- A waiting swap is to be decided at the boundary that has come: the releases there wait for it (R193, R194), in a unit that
is no standby. -/
def swapHeld (s : State) : Bool :=
  !isStandby s && decide (s.prog.oc.state = .waiting) && boundarySince s s.prog.oc.since

/-- A cyclic task is released (R183). -/
def taskReleaseState (k : Nat) (s : State) : State :=
  if appUp s && decide (s.prog.mode = .run) && k < 32 && !swapHeld s then gridRelease k s else s

/-! ### Online change (R193 to R197) -/

def ocBad (num detail : Nat) : Abort := { cls := 3, ss := 0x24, num := num, idx := 0xF002, sub := 1, detail := detail }

/-- The refusals every invocation of ONLINE_CHANGE shares. -/
def ocRefused (s : State) : Option Abort :=
  if isStandby s then some { ocBad 1 s.prog.mode.num with ss := 0x50 }
  else if cmdRunning s 2 then some (stillRunning 0x24 0xF002)
  else match pendingChange s with
  | some c => some (ocBad 2 c)
  | none => none

/-- An image is signed by a project signer (R171, R172). -/
def imageSigned (s : State) (img : List Byte) : Bool :=
  signedByProject s (img.take (img.length - 64)) (img.drop (img.length - 64))

/-- The image in the bulk buffer is. -/
def bulkSigned (s : State) : Bool := imageSigned s (bulkBytes s)

/-- OP 0x01 and 0x02: the change begins. -/
def ocStart (op n : Nat) (s : State) : Answer × State :=
  match ocRefused s with
  | some a => (.error a, s)
  | none =>
    if !bulkSigned s then
      let a : Abort := { cls := 5, ss := 0xF0, num := 5, idx := 0xF002, sub := 1 }
      (.error a, abandonChange a (cmdStart 2 n s))
    else
      let f := formeOf (bulkBytes s)
      let s := keepLeases 0xF002 n [0x2400, 0xF000] s
      let s := { s with prog := { s.prog with oc := { state := .preparing, op := op, forme := some f } } }
      let s := if s.pair.state = .active then
          let s := passChange (.forme (bulkBytes s)) s
          { s with prog := { s.prog with oc := { s.prog.oc with record := some s.pair.seqOut } } }
        else s
      cmdAccept 2 n s

/-- OP 0x03: a waiting change is abandoned. -/
def ocCancel (n : Nat) (s : State) : Answer × State :=
  if isStandby s then (.error { ocBad 1 s.prog.mode.num with ss := 0x50 }, s)
  else match s.prog.oc.state with
  | .waiting => (.ok [], modCmd 2 (fun x => { x with invoker := n }) (abandonChange (ocBad 1 s.prog.mode.num) s))
  | .preparing => (.error (stillRunning 0x24 0xF002), s)
  | _ => (.error (ocBad 1 s.prog.mode.num), s)

/-- An invocation of ONLINE_CHANGE. -/
def onlineChangeOp (data : List Byte) (n : Nat) (s : State) : Answer × State :=
  match fieldAt data 0 1 with
  | 1 => ocStart 1 n s
  | 2 => ocStart 2 n s
  | 3 => ocCancel n s
  | _ => (.error { cls := 2, ss := 0x24, num := 1, idx := 0xF002, sub := 1 }, s)

/-- ONLINE_CHANGE_PREPARE_AND_SWAP (R193). -/
def execOnlineChangePrepareAndSwap (t : Nat) (c : Cmd) (s : State) : Out :=
  .next (rowReq c 0xF002 1 [1] onlineChangeOp (advance t s))
/-- ONLINE_CHANGE_PREPARE_ONLY (R197). -/
def execOnlineChangePrepareOnly (t : Nat) (c : Cmd) (s : State) : Out :=
  .next (rowReq c 0xF002 1 [2] onlineChangeOp (advance t s))
/-- ONLINE_CHANGE_CANCEL (R196). -/
def execOnlineChangeCancel (t : Nat) (c : Cmd) (s : State) : Out :=
  .next (rowReq c 0xF002 1 [3] onlineChangeOp (advance t s))

/-- The end of a preparation. A partner's failed verification gives the abort of its row of Table 8.2; a partner that has not
answered has failed (log entry 75). DESIGN CHOICE (log entry 90): a completion of OP 0x02, where no swap takes place, shows the
present generation in GENERATION and leaves OC_STATE idle. -/
def preparationEndState (flashFull : Bool) (s : State) : State :=
  if s.prog.oc.state ≠ .preparing then s
  else match s.prog.oc.forme with
  | none => s
  | some f =>
    match verifyForme s f with
    | some a => abandonChange a s
    | none =>
      match s.prog.oc.partnerAbort with
      | some row => abandonChange (rowAbort row) s
      | none =>
      if isPairUnit s && (decide (s.pair.state ≠ .active) || !s.prog.oc.partnerOk) then
        abandonChange { cls := 3, ss := 0x50, num := 6, idx := 0xF002, sub := 1, detail := s.pair.partnerGrade } s
      else if flashFull then abandonChange { cls := 4, ss := 0xF0, num := 6, idx := 0xF002, sub := 1 } s
      else
        let s := { s with prog := { s.prog with candidate := some f } }
        if s.prog.oc.op = 2 then
          let m := migrate (s.prog.forme.getD {}) f s.prog
          let s := { s with prog := { s.prog with
            oc := { s.prog.oc with state := .idle, forme := none, report := m.items.take 4096 } } }
          changeOver (cmdDone 2 (ocSummary s.prog.generation m 0 0) s)
        else if s.prog.mode = .stop then swapNow 0 s
        else { s with prog := { s.prog with oc := { s.prog.oc with state := .waiting, since := localNow s } } }

/-- PREPARATION_END (R193). -/
def execPreparationEnd (t : Nat) (flashFull : Bool) (s : State) : Out :=
  .next (preparationEndState flashFull (advance t s))

/-- No cycle runs, and none waits for its commit. -/
def quiet (s : State) : Bool := (List.range 48).all (fun k => (getTask s k).cycle.isNone) && !cyclesHeld s

/-- Event-task cycles that run at the boundary may still end within 1 ms of it, and no cyclic task is overrunning (R194). -/
def mayQuieten (s : State) : Bool :=
  (List.range 32).all (fun k => (getTask s k).cycle.isNone) && decide (localNow s - gridAt s secNs < (msNs : Int))

/-- The releases of a boundary, late by the swap (R193). -/
def lateReleases (s : State) : State := if s.prog.mode = .run then releaseAllCyclic s else s

/-- The tasks are released on the new forme. -/
def releaseSwapped (s : State) : State :=
  lateReleases (forAll (List.range 32) (fun k s => modTask k (fun t => { t with lastGrid := none }) s) s)

/-- The module's time of the last whole second of local time. -/
def boundaryAt (s : State) : Int := (s.now : Int) - (localNow s - gridAt s secNs)

/-- A standby swaps at the boundary of its partner: cycles that it has released there on the old forme are released anew on
the new one (R193). -/
def swapStandby (pauseUs : Nat) (s : State) : State :=
  let b := boundaryAt s
  let s := { s with pair := { s.pair with own := s.pair.own.filter (fun e => decide ((e.2.releasedAt : Int) < b)) } }
  let s := forAll (List.range 48) (fun k s => modTask k (fun t => match t.cycle with
    | some c => if b ≤ (c.releasedAt : Int) then { t with cycle := none, releases := t.releases - 1 } else t
    | none => t) s) s
  releaseSwapped (swapNow pauseUs s)

/-- A standby still works on a cycle from before the boundary, or waits for its record. -/
def earlierCycles (s : State) : Bool :=
  let before (c : Cycle) : Bool := decide ((c.releasedAt : Int) < boundaryAt s)
  s.pair.own.any (fun e => before e.2) || (List.range 48).any (fun k => match (getTask s k).cycle with
    | some c => before c
    | none => false)

def swapState (pauseUs : Nat) (s : State) : State :=
  if s.prog.oc.state ≠ .waiting ∨ !(decide (s.prog.mode = .stop) || boundarySince s s.prog.oc.since) then s
  else if isStandby s then (if earlierCycles s then s else swapStandby pauseUs s)
  else if quiet s then releaseSwapped (swapNow pauseUs s)
  else if s.prog.mode = .stop ∨ mayQuieten s = true then s
  else
    let m := s.prog.oc.moves + 1
    let s := { s with prog := { s.prog with oc := { s.prog.oc with moves := m, since := localNow s } } }
    lateReleases (if 3 ≤ m then abandonChange (ocBad 1 s.prog.mode.num) s else s)

/-- SWAP (R193, R194). -/
def execSwap (t pauseUs : Nat) (s : State) : Out := .next (swapState pauseUs (advance t s))

/-- `OC_REPORT` (Table 8.14). -/
def ocReport (o : Oc) : List Byte :=
  let bs := o.report.flatMap (fun i => leBytes 8 i.identity ++ leBytes 1 i.action ++ leBytes 1 i.item ++ leBytes 2 0 ++ leBytes 4 i.size)
  (bs ++ List.replicate (65536 - bs.length) 0).take 65536

end Sys2Proof.Machine
end

