-- ==== Sys2Proof/Machine/Force.lean ====
section
/-! DEFINITION. FORCE (07 R166 to R169): the request, and the engine tick at which it acts and is answered. -/

namespace Sys2Proof.Machine

def forceBad (ss num detail : Nat) (cls : Nat := 2) : Abort :=
  { cls := cls, ss := ss, num := num, idx := 0xF009, sub := 1, detail := detail }

/-- A point that takes no force: unmapped, or a safety status or request (R167). -/
def unforceable (s : State) (p : Nat) : Bool :=
  !isMapped s p || (mapRecs s).any (fun e => (e.2.kind == 9 || e.2.kind == 10) && e.2.covers p)

/-- The immediate result: forces in effect and the underlying quality of the point, 0xFF for none (R166). -/
def forceResult (s : State) (p : Option Nat) : List Byte :=
  leBytes 2 s.img.forces.length ++ leBytes 1 (match p with
    | some p => (underlying s p).qual
    | none => 0xFF)

/-- A point is forced at the tick `g`, keeping its place in the list if it was already (R167), and the value counts as
released. -/
def putForce (p : Nat) (v : BitVec 32) (g : Int) (s : State) : State :=
  let f : Force := ⟨p, typedValue s p v, g⟩
  let l := if (forceOf s p).isSome then s.img.forces.map (fun (x : Force) => if x.point == p then f else x) else s.img.forces ++ [f]
  emit 0xD001 0 (leBytes 4 p) (afterRelease s { s with img := { s.img with forces := l } })

/-- A released force lets the point's own value through again (R168). -/
def liftForce (p : Nat) (s : State) : State := afterRelease s (dropForce p 2 s)

/-- A FORCE is taken: it waits for its engine tick, in ACTIVE for the acknowledgement of its record first (R166). -/
def forceTake (op p : Nat) (v : BitVec 32) (s : State) : Answer × State :=
  (.ok [], { s with sess := { s.sess with
    force := some { op := op, point := p, value := v, ready := if needsAck s then none else some (localNow s) } } })

/-- What a FORCE does at its tick `g`. -/
def forceAct (r : ForceReq) (g : Int) (s : State) : State :=
  match r.op with
  | 1 => putForce r.point r.value g s
  | 2 => liftForce r.point s
  | _ => (s.img.forces.map Force.point).foldl (fun s p => liftForce p s) s

/-- The tick `g` is the one a waiting FORCE acts at: the first after its request, or after its acknowledgement. -/
def forceReady (s : State) (r : ForceReq) (g : Int) : Bool :=
  match r.ready with
  | some t => decide (t < g)
  | none => !needsAck s

/-- The answer to a FORCE: one whose point a committed mapping has unmapped while it waited is refused as an unmapped point is
(R167, R169; log entry 74). -/
def forceAnswer (r : ForceReq) (g : Int) (s : State) : Answer × State :=
  if r.op = 1 ∧ unforceable s r.point = true then (.error (forceBad 0x28 1 r.point), s)
  else
    let s := forceAct r g s
    cmdNow 9 r.hdr.session (forceResult s (if r.op = 3 then none else some r.point)) s

/-- A waiting FORCE acts at the tick `g`, and its request is answered. -/
def forceTick (g : Int) (s : State) : State :=
  match s.sess.force with
  | none => s
  | some r =>
    if !forceReady s r g then s
    else
      let n := r.hdr.session
      let (a, s) := forceAnswer r g { s with sess := { s.sess with force := none } }
      if (getSession s n).state = 2 then answerDone (getSession s n) r.hdr svcWrite a s else s

/-- An invocation of FORCE (Table 7.8). -/
def forceOp (data : List Byte) (_ : Nat) (s : State) : Answer × State :=
  let p := fieldAt data 4 4
  match fieldAt data 0 1 with
  | 1 =>
    if 2 ^ 18 ≤ p then (.error (forceBad 0x28 2 262143), s)
    else if unforceable s p then (.error (forceBad 0x28 1 p), s)
    else if pointType s p = 1 ∧ 1 < fieldAt data 8 4 then (.error (forceBad 0x28 1 0), s)
    else if (forceOf s p).isNone && decide (256 ≤ s.img.forces.length) then (.error (forceBad 0x28 2 1 4), s)
    else forceTake 1 p (BitVec.ofNat 32 (fieldAt data 8 4)) s
  | 2 =>
    if 2 ^ 18 ≤ p then (.error (forceBad 0x28 2 262143), s)
    else forceTake 2 p 0 s
  | 3 => forceTake 3 0 0 s
  | _ => (.error (forceBad 0x28 1 0), s)

/-- FORCE_POINT (R167). -/
def execForcePoint (t : Nat) (c : Cmd) (s : State) : Out := .next (rowReq c 0xF009 1 [1] forceOp (advance t s))
/-- FORCE_RELEASE (R168). -/
def execForceRelease (t : Nat) (c : Cmd) (s : State) : Out := .next (rowReq c 0xF009 1 [2] forceOp (advance t s))
/-- FORCE_RELEASE_ALL (R167). -/
def execForceReleaseAll (t : Nat) (c : Cmd) (s : State) : Out := .next (rowReq c 0xF009 1 [3] forceOp (advance t s))

end Sys2Proof.Machine
end

