-- ==== Sys2Proof/Machine/Engine.lean ====
section
/-! DEFINITION. The control engine (09): the law, the profile generator, override groups, sampling on the clock grid and
by cadence, and release. REAL32 operations are taken in the order R206 writes them (log entry 5). -/

namespace Sys2Proof.Machine

/-! ### Configuration of loops and groups (Table 9.9, Table 9.10) -/

def loopNat (s : State) (n sub : Nat) : Nat := cfgNat s (0x4000 + n) sub
def loopReal (s : State) (n sub : Nat) : Real32 := cfgReal s (0x4000 + n) sub

/-- Numbers of the loops configured: `LOOP_PERIOD` is not zero (R199). -/
def loopsIn (c : Tbl (List Byte)) : List Nat :=
  c.filterMap (fun e => if e.1 % 256 = 1 ∧ 0x4000 ≤ e.1 / 256 ∧ e.1 / 256 ≤ 0x43FF ∧ leVal e.2 ≠ 0
    then some (e.1 / 256 - 0x4000) else none)

def loopsUsed (s : State) : List Nat := loopsIn s.config

/-- The loops listed in `GROUP_MEMBERS`, in order. -/
def membersOf (b : List Byte) : List Nat :=
  ((List.range 8).map (fun k => fieldAt b (2 * k) 2)).filter (fun n => n != 0xFFFF)

/-- The override groups in use, with their members. -/
def groupsIn (c : Tbl (List Byte)) : List (Nat × List Nat) :=
  c.filterMap (fun e => if e.1 % 256 = 1 ∧ 0x4400 ≤ e.1 / 256 ∧ e.1 / 256 ≤ 0x447F ∧ membersOf e.2 ≠ []
    then some (e.1 / 256 - 0x4400, membersOf e.2) else none)

/-- The group a loop belongs to. -/
def groupOfLoop (s : State) (n : Nat) : Option (Nat × List Nat) :=
  (groupsIn s.config).find? (fun g => g.2.contains n)

/-- The lead of a loop's group; a loop in none is its own. -/
def leadOf (s : State) (n : Nat) : Nat := match groupOfLoop s n with
  | some g => g.2.headD n
  | none => n

/-- A change of one group. -/
def modGroup (g : Nat) (f : Group → Group) (s : State) : State :=
  { s with eng := { s.eng with groups := Tbl.modify s.eng.groups {} g f } }
def getGroup (s : State) (g : Nat) : Group := Tbl.get s.eng.groups {} g

/-- The engine runs: ENG is up. -/
def engineUp (s : State) : Bool := up s && domainOn s 6

/-- One tick, ns of local time (R201). -/
abbrev tickNs : Nat := 125000

/-! ### Samples (R202, R207) -/

/-- A sample: its value and quality; what is not finite is BAD. -/
structure Sample where
  v : Real32 := 0
  q : Nat := 0
  deriving DecidableEq, Repr

def Sample.bad (x : Sample) : Bool := isBad x.q || !f32Finite x.v

/-- A point's value as the engine takes it: a REAL32 as it is, an integer by its value (log entry 25). -/
def engineValue (ty : Nat) (v : BitVec 32) : Real32 :=
  if ty = 0x0A then v else if ty = 0x04 then f32OfInt v.toInt else f32OfInt v.toNat

/-- The entry of a point as it stood strictly before local instant `g`: what landed at `g` or later does not count
(R202, R12). -/
def entryBefore (s : State) (g : Int) (p : Nat) : Pt :=
  match s.img.landed.find? (fun e => e.point == p && decide (g ≤ e.at_)) with
  | some e => if isMapped s p then e.old else underlying s p
  | none => underlying s p

/-- The sample of a point at instant `g`, a force included (07 R168). -/
def samplePoint (g : Int) (s : State) (p : Nat) : Sample :=
  let x := match forceOf s p with
    | some _ => readPoint s p
    | none => entryBefore s g p
  ⟨engineValue (pointType s p) x.value, x.qual⟩

/-- The points a loop samples (Table 9.1); TRACK is its lead's (R214). -/
def sampledPoints (s : State) (n : Nat) : List Nat :=
  loopNat s n 5 :: ([(1, 6, n), (2, 7, n), (3, 8, leadOf s n), (4, 9, n)].filterMap (fun e =>
    if bitOf (loopNat s e.2.2 4) e.1 then some (loopNat s e.2.2 e.2.1) else none))

/-! ### Profile generator (R210 to R212) -/

abbrev f32Inf : Real32 := 0x7F800000
abbrev f32Two : Real32 := 0x40000000
abbrev f32Six : Real32 := 0x40C00000

/-- A limit; 0 means unlimited. -/
def profLimit (x : Real32) : Real32 := if f32Eq x 0 then f32Inf else x

/-- d0 of R210. -/
def stopFrom (am jm s : Real32) : Real32 :=
  if f32Le (f32Div (f32Mul am am) jm) s then
    f32Add (f32Div (f32Mul s s) (f32Mul f32Two am)) (f32Div (f32Mul s am) (f32Mul f32Two jm))
  else f32Mul s (f32Sqrt (f32Div s jm))

/-- The braking distance D of R210 from a speed and the acceleration in the direction of motion. -/
def brakeDist (am jm s a : Real32) : Real32 :=
  if !f32Finite jm then (if f32Finite am then f32Div (f32Mul s s) (f32Mul f32Two am) else 0)
  else if f32Eq a 0 then stopFrom am jm s
  else
    let t1 := f32Div (f32Abs a) jm
    let s1 := f32Add s (f32Div (f32Mul a a) (f32Mul f32Two jm))
    let cube := f32Div (f32Mul (f32Mul (f32Mul jm t1) t1) t1) f32Six
    if f32Lt 0 a then
      f32Add (f32Sub (f32Add (f32Mul s t1) (f32Div (f32Mul (f32Mul a t1) t1) f32Two)) cube) (stopFrom am jm s1)
    else f32Sub (stopFrom am jm s1) (f32Sub (f32Mul s1 t1) cube)

/-- One update along a direction from speed v and acceleration a, the acceleration going to `a1`: distance, speed and
acceleration after it. -/
def profMove (jm h v a a1 : Real32) : Real32 × Real32 × Real32 :=
  if f32Finite jm then
    (f32Add (f32Mul v h) (f32Div (f32Mul (f32Mul (f32Add (f32Mul f32Two a) a1) h) h) f32Six),
     f32Add v (f32Div (f32Mul (f32Add a a1) h) f32Two), a1)
  else
    (f32Add (f32Mul v h) (f32Div (f32Mul (f32Mul a1 h) h) f32Two), f32Add v (f32Mul a1 h), a1)

/-- Speed to which acceleration a still carries when the jerk turns against it. -/
def profPeak (jm v a : Real32) : Real32 :=
  if f32Finite jm ∧ f32Lt 0 a then f32Add v (f32Div (f32Mul a a) (f32Mul f32Two jm)) else v

/-- The lowest and the highest acceleration one update may reach. -/
def profReach (am jm h a : Real32) : Real32 × Real32 :=
  if f32Finite jm then
    let lo := f32Sub a (f32Mul jm h)
    let hi := f32Add a (f32Mul jm h)
    if f32Finite am then (f32Clamp lo (f32Neg am) am, f32Clamp hi (f32Neg am) am) else (lo, hi)
  else (f32Neg am, am)

/-- One update along the time-optimal stop of R210 from speed v ≥ 0: distance, speed and acceleration after it. The stop
is the one from speed s at no acceleration, `tau` into it. A motion whose braking would carry it past rest takes the highest
jerk until its acceleration is gone and goes on at the speed it then has, at rest where only rounding is left of it (log entry
26). -/
def profStop (am jm h v a : Real32) : Real32 × Real32 × Real32 :=
  if !f32Finite jm then
    if !f32Finite am || f32Le v (f32Mul am h) then (brakeDist am jm v 0, 0, 0)
    else (f32Sub (f32Mul v h) (f32Div (f32Mul (f32Mul am h) h) f32Two), f32Sub v (f32Mul am h), f32Neg am)
  else
    let half := f32Div (f32Mul a a) (f32Mul f32Two jm)
    if f32Lt a 0 && f32Lt v half then
      let ts := f32Div (f32Abs a) jm
      if f32Lt h ts then profMove jm h v a (f32Add a (f32Mul jm h))
      else
        let m := profMove jm ts v a 0
        let rest := f32Sub v half
        let rest := if f32Le (f32Abs rest) (f32Mul (f32OfRat 1 1048576) half) then 0 else rest
        (f32Add m.1 (f32Mul rest (f32Sub h ts)), rest, 0)
    else
      let s := f32Add v half
      let flat := f32Finite am && f32Le (f32Div (f32Mul am am) jm) s
      let t1 := if flat then f32Div am jm else f32Sqrt (f32Div s jm)
      let tc := if flat then f32Div (f32Sub s (f32Div (f32Mul am am) jm)) am else 0
      let all := f32Add (f32Mul f32Two t1) tc
      let tau := f32Sub h (f32Div a jm)
      let d := brakeDist am jm v a
      if f32Le all tau then (d, 0, 0)
      else
        let (v', a') :=
          if f32Le tau t1 then (f32Sub s (f32Div (f32Mul (f32Mul jm tau) tau) f32Two), f32Neg (f32Mul jm tau))
          else if f32Le tau (f32Add t1 tc) then
            (f32Sub (f32Sub s (f32Div (f32Mul (f32Mul jm t1) t1) f32Two)) (f32Mul (f32Mul jm t1) (f32Sub tau t1)),
             f32Neg (f32Mul jm t1))
          else
            let r := f32Sub all tau
            (f32Div (f32Mul (f32Mul jm r) r) f32Two, f32Neg (f32Mul jm r))
        (f32Sub d (brakeDist am jm v' a'), v', a')

/-- The next state keeps the speed within its limit and its stop within the distance left. -/
def profFits (vm am jm dist : Real32) (m : Real32 × Real32 × Real32) : Bool :=
  f32Le (profPeak jm m.2.1 m.2.2) vm && (f32Lt m.2.1 0 || f32Le (brakeDist am jm m.2.1 m.2.2) (f32Sub dist m.1))

/-- The highest acceleration of an interval that passes a test the lower end passes, by halving (log entry 26). -/
def profHalve (ok : Real32 → Bool) : Nat → Real32 → Real32 → Real32
  | 0, lo, _ => lo
  | n + 1, lo, hi =>
    let m := f32Div (f32Add lo hi) f32Two
    if ok m then profHalve ok n m hi else profHalve ok n lo m

/-- Toward the target: the highest acceleration that fits, or, once the stop just fits, the stop itself. -/
def profToward (vm am jm h dist tol v a : Real32) : Real32 × Real32 × Real32 :=
  let ends := profReach am jm h a
  let move := profMove jm h v a
  let ok (a1 : Real32) : Bool := profFits vm am jm dist (move a1)
  if f32Le (f32Sub dist (brakeDist am jm v a)) tol then profStop am jm h v a
  else if ok ends.2 then move ends.2
  else if ok ends.1 then move (profHalve ok 24 ends.1 ends.2)
  else if f32Le (profPeak jm (move ends.1).2.1 (move ends.1).2.2) vm then profStop am jm h v a
  else move ends.1

/-- What rounding may leave of a distance (log entry 26). -/
def profTol (tgt x : Real32) : Real32 := f32Mul (f32OfRat 1 2097152) (f32Add (f32Abs tgt) (f32Abs x))

/-- One update of the profile: position, velocity, acceleration, and whether it plans an overshoot. -/
def profile (vmax amax jmax h tgt x v a : Real32) (ovs : Bool) : Real32 × Real32 × Real32 × Bool :=
  let vm := profLimit vmax
  let am := profLimit amax
  let jm := profLimit jmax
  let d := f32Sub tgt x
  if !f32Finite vm && !f32Finite am && !f32Finite jm then (tgt, 0, 0, false)
  else if !f32Finite am && !f32Finite jm then
    let step := f32Mul vm h
    if f32Le (f32Abs d) step then (tgt, 0, 0, false)
    else if f32Lt d 0 then (f32Sub x step, f32Neg vm, 0, false) else (f32Add x step, vm, 0, false)
  else
    let neg := f32Lt d 0 || (f32Eq d 0 && f32Lt v 0)
    let along (y : Real32) : Real32 := if neg then f32Neg y else y
    let dist := f32Abs d
    let tol := profTol tgt x
    if f32Lt (along v) 0 ||
        f32Lt (f32Add dist tol) (brakeDist am jm (f32Abs v) (if f32Lt v 0 then f32Neg a else a)) then
      let turn (y : Real32) : Real32 := if f32Lt v 0 then f32Neg y else y
      let m := profStop am jm h (turn v) (turn a)
      (f32Add x (turn m.1), turn m.2.1, turn m.2.2, true)
    else
      let m := profToward vm am jm h dist tol (along v) (along a)
      if f32Eq m.2.1 0 && f32Eq m.2.2 0 && f32Le (f32Abs (f32Sub dist m.1)) tol then (tgt, 0, 0, false)
      else (f32Add x (along m.1), along m.2.1, along m.2.2, ovs && f32Eq v 0 && f32Eq m.1 0)

/-! ### The law (R206 to R209, R220) -/

/-- What the law of one update leaves for selection. -/
structure LawOut where
  cand : Real32
  vLaw : Real32
  e : Real32
  /-- The integrator keeps its value (R207 HOLD). -/
  hold : Bool
  status : Nat
  ws : Real32
  lag : Real32
  deriving DecidableEq, Repr

/-- The input of Table 9.1 whose flag and point sub-index are given: the point, or the value where the flag is clear. -/
def lawInput (s : State) (rd : Nat → Sample) (n bit sub : Nat) (other : Sample) : Sample :=
  if bitOf (loopNat s n 4) bit then rd (loopNat s n sub) else other

/-- The TRACK input, where used and not BAD. -/
def trackInput (s : State) (rd : Nat → Sample) (n : Nat) : Option Real32 :=
  if bitOf (loopNat s n 4) 3 then (let x := rd (loopNat s n 8); if x.bad then none else some x.v) else none

/-- The candidate of a loop and the state the law leaves, the integrator apart (R206 to R209, R220). -/
def lawOf (s : State) (rd : Nat → Sample) (n : Nat) (h : Real32) (l : Loop) : Loop × LawOut :=
  let f := loopNat s n 4
  let r (sub : Nat) : Real32 := loopReal s n sub
  let pvS := rd (loopNat s n 5)
  let spS := lawInput s rd n 1 6 ⟨r 0x1B, 0⟩
  let ffS := lawInput s rd n 2 7 ⟨0, 0⟩
  let manS := lawInput s rd n 4 9 ⟨r 0x1C, 0⟩
  let fresh := !l.sampled
  let pvBad := pvS.bad
  let pv := if pvBad then l.pvPrev else pvS.v
  let tgt := if spS.bad then (if fresh then pv else l.tgtGood) else spS.v
  let manual := loopNat s n 0x1A == 2
  let (x, vp, ap, ovs) :=
    if manual && bitOf f 5 then (pv, (0 : Real32), (0 : Real32), false)
    else if fresh then profile (r 0x16) (r 0x17) (r 0x18) h tgt pv 0 0 false
    else profile (r 0x16) (r 0x17) (r 0x18) h tgt l.x l.vp l.ap l.overshoot
  let sg (y : Real32) : Real32 := if bitOf f 0 then f32Neg y else y
  let kp := r 0x0A
  let td := r 0x0C
  let pOf (k b : Real32) : Real32 := f32Mul k (sg (f32Sub (f32Mul b x) pv))
  let p := pOf kp (r 0x0E)
  let e := if pvBad then 0 else sg (f32Sub x pv)
  let held := pvBad && r 0x14 == 0
  let den := f32Add td (f32Mul (r 0x0D) h)
  let d := if f32Le td 0 then 0 else if held then l.d else
    f32Sub (f32Mul (f32Div td den) (if fresh then 0 else l.d))
      (f32Mul (sg (f32Div (f32Mul (f32Mul kp td) (r 0x0D)) den)) (if fresh then 0 else f32Sub pv l.pvPrev))
  let ff := if ffS.bad then 0 else ffS.v
  let i :=
    if fresh then f32Sub ((trackInput s rd (leadOf s n)).getD (r 0x13)) (f32Add (f32Add p d) ff)
    else if l.kpOld ≠ kp ∨ l.bOld ≠ r 0x0E then f32Add l.i (f32Sub (pOf l.kpOld l.bOld) p) else l.i
  let lo := r 0x10
  let hi := r 0x11
  let vLaw := f32Clamp (f32Add (f32Add (f32Add p i) d) ff) lo hi
  let last := if fresh then f32Add (f32Add (f32Add p i) d) ff else l.cand
  let raw :=
    if manual then (if manS.bad then last else manS.v)
    else if pvBad then (if held then last else r 0x13)
    else f32Add (f32Add (f32Add p i) d) ff
  let lag := f32Sub tgt x
  let st := flagWord [(0, pvBad), (1, !pvBad && decide (0x10 ≤ pvS.q)), (2, spS.bad), (4, f32Lt hi raw),
    (5, f32Lt raw lo), (8, !f32Eq lag 0), (9, ovs), (10, manual), (12, l.fallback),
    (15, pvBad && !held && !manual), (16, manual && manS.bad)]
  ({ l with i := i, x := x, vp := vp, ap := ap, d := d, pvPrev := pv, tgtGood := tgt, sampled := true, kpOld := kp
            bOld := r 0x0E, overshoot := ovs, lag := lag, updates := (l.updates + 1) % 2 ^ 32 },
   ⟨f32Clamp raw lo hi, vLaw, e, held && !manual, st, x, lag⟩)

/-! ### Selection, rate limit and back-calculation (R206, R214 to R216, R219) -/

/-- The lowest candidate, the first listed among equals. -/
def lowest : List (Nat × Real32) → Option (Nat × Real32)
  | [] => none
  | x :: r => match lowest r with
    | some y => if f32Lt y.2 x.2 then some y else some x
    | none => some x

/-- A change limited to `rate` × h: the value and whether it was held. -/
def rateLimit (prev u rate h : Real32) : Real32 × Bool :=
  let lim := f32Mul rate h
  if f32Lt 0 rate && f32Lt lim (f32Abs (f32Sub u prev)) then
    (if f32Lt u prev then f32Sub prev lim else f32Add prev lim, true)
  else (u, false)

/-- The integrator after back-calculation (R206). -/
def backCalc (s : State) (n : Nat) (h uAct : Real32) (l : Loop) (o : LawOut) : Real32 :=
  let ti := loopReal s n 0x0B
  let tt := if f32Eq (loopReal s n 0x0F) 0 then ti else loopReal s n 0x0F
  if o.hold then l.i
  else if f32Lt 0 ti then
    f32Add (f32Add l.i (f32Mul (f32Div (f32Mul (loopReal s n 0x0A) h) ti) o.e))
      (f32Mul (f32Div h tt) (f32Sub uAct o.vLaw))
  else 0

/-- `STOP_ACTION` SAFE of the lead in STOP (R219). -/
def stopSafe (s : State) (lead : Nat) : Bool := decide (s.prog.mode = .stop) && loopNat s lead 0x15 == 0

/-- A member of a group that is not sampled with the others: its OUT item carries the group output too (R214; log entry 24). -/
def followUnit (n winner win : Nat) (out : Real32) (limited safe : Bool) (safeOut : Option Real32) (at_ : Option Int) (s : State) :
    State :=
  let l := getLoop s n
  if !l.sampled then s
  else
    let st := (l.status &&& (0xFFFFFFFF - 0x8C0)) + flagWord [(6, limited), (7, win == n), (11, safe)]
    modLoop n (fun l => { l with
      out := out, status := st
      pending := l.pending ++ [{ out := out, ws := l.x, lag := l.lag, status := st, winner := winner, at_ := at_, safeOut := safeOut }] }) s

/-- The loops of one selection sample together: members of a group, the lead first, or a loop alone. `now` are those
sampled now, with their sampling interval; the others take part with their last candidates, once they have one. -/
def sampleUnit (rd : Nat → Sample) (members now : List Nat) (h : Real32) (at_ : Option Int) (s : State) : State :=
  let lead := members.headD 0
  let old := getLoop s lead
  let outs := now.map (fun n => (n, lawOf s rd n h (getLoop s n)))
  let safe := stopSafe s lead
  let single := members.length == 1
  let candOf (n : Nat) : Real32 := match outs.find? (fun o => o.1 == n) with
    | some o => if safe && single then loopReal s n 0x13 else o.2.2.cand
    | none => (getLoop s n).cand
  let others := members.filter (fun n => !now.contains n)
  let part := members.filter (fun n => now.contains n || (getLoop s n).sampled)
  let win := if loopNat s lead 0x1A = 2 then (lead, candOf lead)
    else (lowest (part.map (fun n => (n, candOf n)))).getD (lead, candOf lead)
  let (u, limited) :=
    if safe then (loopReal s lead 0x13, false)
    else if old.sampled then rateLimit old.out win.2 (loopReal s lead 0x12) h else (win.2, false)
  let uAct := (trackInput s rd lead).getD u
  let safeOut := if loopNat s lead 0x15 == 0 then some (loopReal s lead 0x13) else none
  let winner := if single then 0xFFFF else win.1
  let s := forAll others (fun n s => followUnit n winner win.1 u limited safe safeOut at_ s) s
  outs.foldl (fun s o =>
    let n := o.1
    let c := candOf n
    let range := f32Abs (f32Sub (loopReal s n 0x11) (loopReal s n 0x10))
    let limits := safe && single
    let st := (if limits then o.2.2.status &&& (0xFFFFFFFF - 0x30) else o.2.2.status) + flagWord
      [(3, f32Lt (f32Mul (f32OfRat 1 1000) range) (f32Abs (f32Sub uAct c))), (6, limited),
       (7, !single && win.1 == n), (11, safe)]
    let l := { o.2.1 with i := backCalc s n h uAct o.2.1 o.2.2, out := u, cand := c, status := st }
    let rel : LoopRel :=
      { out := u, ws := o.2.2.ws, lag := o.2.2.lag, status := st, winner := winner, at_ := at_, safeOut := safeOut }
    modLoop n (fun _ => { l with pending := l.pending ++ [rel] }) s) s

/-- Loops grouped for selection: each with the members of its group, once per group. -/
def unitsOf (s : State) (now : List Nat) : List (List Nat × List Nat) :=
  now.filterMap (fun n => match groupOfLoop s n with
    | none => some ([n], [n])
    | some g =>
      let here := g.2.filter now.contains
      if here.headD n = n then some (g.2, here) else none)

/-! ### Release (R200, R201, R204) -/

/-- A module releases loop outputs from the entry of its mode at the end of startup (R221). -/
def engineReleases (s : State) : Bool := engineUp s && decide (s.pwr.startedAt + 2000 * msNs ≤ s.now)

/-- The TICK record that carries an update is still unacknowledged. -/
def unacked (s : State) (r : LoopRel) : Bool :=
  match r.record with
  | some q => s.pair.held.any (fun h => h.seq == q)
  | none => false

/-- The group of a lead shows its released output and winner. -/
def releaseGroup (n : Nat) (r : LoopRel) (s : State) : State :=
  match groupOfLoop s n with
  | some (g, m) =>
    if m.headD n = n then
      modGroup g (fun x => { out := r.out, winner := r.winner, switches :=
        if x.winner ≠ 0xFFFF ∧ x.winner ≠ r.winner then (x.switches + 1) % 2 ^ 32 else x.switches }) s
    else s
  | none => s

/-- An update as it is released: under the `STOP_ACTION` SAFE it was sampled with, the first release after STOP is entered
already gives its `OUT_SAFE` (R219, R220; log entry 24), and a firing ignored since the last release shows (R217). -/
def asReleased (s : State) (n : Nat) (r : LoopRel) : LoopRel :=
  let r := match r.safeOut with
    | some v => if s.prog.mode = Mode.stop then { r with out := v, status := r.status ||| 0x800 } else r
    | none => r
  { r with status := if (getLoop s n).skipped then r.status ||| 0x4000 else r.status }

/-- The items of an update land with its release instant (01 Table 1.2). -/
def landUpdate (n : Nat) (t : Int) (r : LoopRel) (s : State) : State :=
  let s := produceAll (inPoints s 4 n 0) r.out 0 t s
  let s := produceAll (inPoints s 4 n 1) r.ws 0 t s
  let s := produceAll (inPoints s 4 n 2) r.lag 0 t s
  produceAll (inPoints s 4 n 3) (BitVec.ofNat 32 r.status) 0 t s

/-- One update is released, at its release instant or that of the firing that releases it: its items land, and its points are
released; or it is withheld (R204). -/
def releaseOne (n : Nat) (at_ : Int) (r : LoopRel) (s : State) : State :=
  let r := asReleased s n r
  let t := r.at_.getD at_
  if unacked s r then
    let st := r.status ||| 0x2000
    produceAll (inPoints s 4 n 3) (BitVec.ofNat 32 st) 0 t (modLoop n (fun l => { l with shownStatus := st }) s)
  else
    let s := if r.landed then s else landUpdate n t r s
    let s := modLoop n (fun l => { l with shownStatus := r.status, shownOut := r.out, skipped := false }) s
    let s := releaseGroup n r { s with prog := { s.prog with lastRelease := t } }
    releaseValues ((inPoints s 4 n 0).map (fun p => (p, r.out)) ++ (inPoints s 4 n 1).map (fun p => (p, r.ws))
      ++ (inPoints s 4 n 2).map (fun p => (p, r.lag))
      ++ (inPoints s 4 n 3).map (fun p => (p, BitVec.ofNat 32 r.status))) s

/-- Every update of a loop that is due leaves its queue and is released, `t` being the instant of a firing that releases it.
Nothing is released before the mode is entered, and before the first release of a new active unit (R222); while the unit holds
its releases, an update that is acknowledged waits (16 R397, R402). -/
def releaseDue (n : Nat) (due : LoopRel → Bool) (t : Int) (s : State) : State :=
  let goes (r : LoopRel) : Bool := due r && (unacked s r || !relsHeld s)
  let rs := (getLoop s n).pending.filter goes
  if rs.isEmpty then s
  else
    let u := modLoop n (fun l => { l with pending := l.pending.filter (fun r => !goes r) }) s
    if engineReleases s && !beforeFirst s then rs.foldl (fun u r => releaseOne n t r u) u else u

/-- An update's release instant has come. -/
def relDue (t : Int) (r : LoopRel) : Bool := match r.at_ with
  | some a => decide (a ≤ t)
  | none => false

/-- In a standby the items of an update land at its release instant, up to one tick after the last TICK record, so that none
does in the gap before a takeover; the release itself comes with the next TICK record (R222; 01 R10). -/
def landDue (n : Nat) (s : State) : State :=
  let due (r : LoopRel) : Bool := !r.landed && relDue (min (localNow s) (s.eng.lastTick + (tickNs : Nat))) r
  let rs := (getLoop s n).pending.filter due
  if rs.isEmpty || !engineReleases s then s
  else
    let u := modLoop n (fun l => { l with pending := l.pending.map (fun r => if due r then { r with landed := true } else r) }) s
    rs.foldl (fun u r => landUpdate n (r.at_.getD 0) (asReleased u n r) u) u

def loopReleaseState (n : Nat) (s : State) : State :=
  if !engineUp s then s
  else if isStandby s then landDue n s
  else releaseDue n (relDue (localNow s)) (localNow s) s

/-- Updates whose release instant has come are released before a frame or an AO update of that instant takes its values (R203,
01 R14). -/
def loopsRelease (s : State) : State := forAll (s.eng.loops.map Prod.fst) loopReleaseState s

/-- LOOP_RELEASE (R201). -/
def execLoopRelease (t : Nat) (n : Fin 1024) (s : State) : Out := .next (loopReleaseState n (advance t s))

/-! ### Ticks (R201 to R204) -/

/-- A loop samples on the clock grid at the tick of instant `g`: its own grid, or phase 0 in fallback (R218). -/
def clockDue (s : State) (g : Int) (n : Nat) : Bool :=
  let per : Int := loopNat s n 1
  let k := g / (tickNs : Nat)
  if loopNat s n 3 = 0 then decide (k % per = loopNat s n 2)
  else (getLoop s n).fallback && decide (k % per = 0)

/-- Sampling interval of a loop, s: its period, or the time since its last sample within its bounds (R206, R217). -/
def intervalOf (s : State) (n : Nat) (t : Int) : Real32 :=
  let per : Nat := loopNat s n 1 * tickNs
  if loopNat s n 3 = 0 then f32OfRat per 1000000000
  else match (getLoop s n).lastSample with
    | some t0 => f32OfRat (max (per : Int) (min (t - t0) (loopNat s n 0x19 * msNs : Nat))) 1000000000
    | none => f32OfRat per 1000000000

/-- The loops of a set sample at local time `t`, reading through `rd`. -/
def sampleSet (rd : Nat → Sample) (now : List Nat) (t : Int) (at_ : Nat → Option Int) (s : State) : State :=
  (unitsOf s now).foldl (fun s u =>
    let n := u.2.headD 0
    let s := sampleUnit rd u.1 u.2 (intervalOf s n t) (at_ n) s
    forAll u.2 (fun n s => modLoop n (fun l => { l with lastSample := some t }) s) s) s

/-- The clock-sampled update of one tick: due updates are released as soon as the image has been read (R202). -/
def sampleTick (rd : Nat → Sample) (g : Int) (s : State) : State :=
  let now := (loopsUsed s).filter (clockDue s g)
  let s := forAll now (fun n s => releaseDue n (relDue g) g s) s
  sampleSet rd now g (fun n => some (g + (loopNat s n 1 * tickNs : Nat))) s

/-- The 32 retained bytes of a loop (R221). -/
def loopBytes (l : Loop) : List Byte :=
  [l.i, l.out, l.x, l.vp, l.ap, l.d, l.pvPrev].flatMap (fun r => leBytes 4 r.toNat) ++ leBytes 4 l.status

/-- Digest of the loop states (R204). -/
def loopDigest (s : State) : Nat :=
  (crc64 0 ((loopsUsed s).flatMap (fun n => loopBytes (getLoop s n)))).toNat

/-- What the retain store keeps of a loop. -/
def sealedLoop (l : Loop) : Loop :=
  { i := l.i, out := l.out, x := l.x, vp := l.vp, ap := l.ap, d := l.d, pvPrev := l.pvPrev, status := l.status }

/-- The states of the loops with no update unacknowledged are sealed into the retain shadow (R203, R221). -/
def sealLoops (s : State) : State :=
  { s with
    prog := { s.prog with sealed := some (clockNow s) }
    eng := { s.eng with shadow := s.eng.loops.foldl (fun st e =>
      if e.2.pending.any (unacked s) then st else Tbl.insert st e.1 (sealedLoop e.2)) s.eng.shadow } }

/-- A landing as an INPUT record carries it (16 Table 16.4). -/
def landingContent : Landing → List Nat
  | .bank b cs es => [1, b.val] ++ cs.flatMap (fun (c : ChanRep) =>
      [flagBit 0 c.v, c.sup, c.qual, (c.stamp % (2 ^ 64 : Nat)).toNat, flagBit 0 c.slew]) ++ [es.length]
      ++ es.flatMap (fun (e : EdgeRec) => [e.ch, flagBit 0 e.rising, (e.stamp % (2 ^ 64 : Nat)).toNat, flagBit 0 e.slew])
  | .aio ch v q ts => [2, ch.val, v.toNat, q, (ts % (2 ^ 64 : Nat)).toNat]
  | .tracker t st a sp ts sl => [3, t.val, st.num, a.toNat, sp.toNat, (ts % (2 ^ 64 : Nat)).toNat, flagBit 0 sl]
  | .can p r => [4, p.val, flagWord [(0, r.frame.ext), (1, r.frame.fd), (2, r.frame.brs), (3, r.frame.remote)], r.frame.id,
      r.frame.data.length] ++ r.frame.data.map BitVec.toNat ++ [(r.stamp % (2 ^ 64 : Nat)).toNat, flagBit 0 r.slew]
  | .remote n c q vs => [5, n, c, q] ++ (match vs with
    | none => [0]
    | some (ts, es) => [1, (ts % (2 ^ 64 : Nat)).toNat, es.length] ++ es.flatMap (fun e => [e.1.toNat, e.2.toNat]))

/-- The tracker states a tick lands. -/
def trackerLandings (s : State) : List Landing :=
  ((List.range 8).filter (fun n => trkMode s n != 0)).map (fun n =>
    .tracker (Fin.ofNat 8 n) (getTracker s n).state (angleAt s n (localNow s)) (speedAt s n (localNow s)) (localNow s)
      (slewing s))

/-- A landing as an INPUT record first names it: a remote set without its values (16 R396). -/
def Landing.named : Landing → Landing
  | .remote n c q _ => .remote n c q none
  | l => l

/-- The remote sets among landings, with the values they brought, to be sent again if the standby misses them. -/
def setRefs (rec : Nat) (l : List Landing) : List SetRef :=
  l.filterMap (fun x => match x with
    | .remote n c q vs => some { record := rec, node := n, cls := c, seq := q, values := vs }
    | _ => none)

/-- In a pair the landings since the last tick leave as an INPUT record (16 Table 16.4). -/
def sendInput (s : State) : State :=
  if s.pair.state = .active ∨ s.pair.state = .activeAlone then
    let l := s.pair.landings ++ trackerLandings s
    let s := sendSync 2 (l.flatMap (fun x => landingContent (Landing.named x))) s
    let refs := if needsAck s then s.pair.sets ++ setRefs s.pair.seqOut l else []
    { s with pair := { s.pair with landings := [], sets := refs } }
  else s

/-! ### Direct writes in effect (04 R74, R462) -/

/-- The effect of `LOOP_MODE`: MANUAL of a group member other than its lead is refused (R216). -/
def loopModeNow (n : Nat) (data : List Byte) (_ : Nat) (s : State) : Answer × State :=
  let follower := match groupOfLoop s n with
    | some g => g.2.headD n != n
    | none => false
  if leVal data == 2 && follower then (.error ⟨3, 0x40, 1, 0x4000 + n, 0x1A, s.prog.mode.num⟩, s)
  else (.ok [], keepDirect (0x4000 + n) 0x1A data s)

/-- A direct value takes effect, by its object. -/
def directEffect (key : Nat) (data : List Byte) (n : Nat) (s : State) : State :=
  let idx := key / 256
  if key = objKey 0xF000 2 then (bulkLengthNow data n s).2
  else if idx = 0xB000 then (signerKeyNow (key % 256 - 0x20) data n s).2
  else if idx = 0x38C0 ∨ idx = 0x38C1 then (scArmNow (idx - 0x38C0) data n s).2
  else if 0x3600 ≤ idx ∧ idx ≤ 0x3607 then (canRecoverNow (idx - 0x3600) data n s).2
  else if 0x3400 ≤ idx ∧ idx ≤ 0x3417 then modAxis (idx - 0x3400) (fun x => { x with cmd := leVal data }) s
  else if 0x4000 ≤ idx ∧ idx ≤ 0x43FF ∧ key % 256 = 0x1A then (loopModeNow (idx - 0x4000) data n s).2
  else keepDirect idx (key % 256) data s

/-- The direct writes of a commit take effect: those its record carried, or all that no record has carried. -/
def commitDirect (q : Option Nat) (s : State) : State :=
  let ds := s.sess.direct.filter (fun d => d.record == q)
  ds.foldl (fun s d => directEffect d.key d.data d.session s)
    { s with sess := { s.sess with direct := s.sess.direct.filter (fun d => d.record != q) } }

/-- A record is committed at the active unit: its direct writes act, and its FORCE waits for the next tick. -/
def recordCommitted (q : Nat) (s : State) : State := forceAcked q (commitDirect (some q) s)

/-! ### The commit of a tick (R204) -/

/-- The TICK record of a tick: the points sampled, those of cadence samples since the last tick among them, and the
digest; in ACTIVE its updates and its direct writes wait for the acknowledgement. -/
def commitTick (points : List Nat) (rd : Nat → Sample) (s : State) : State :=
  let content := points.eraseDups.flatMap (fun p => [p, (rd p).v.toNat, (rd p).q])
    ++ s.eng.cadSampled.flatMap (fun x => [x.point, x.value.toNat, x.qual] ++ (match x.loop with
      | some (n, t) => [n, intNat t]
      | none => [])) ++ [loopDigest s]
  let s := { s with eng := { s.eng with cadSampled := [] } }
  match s.pair.state with
  | .active =>
    let s := sendCommit 3 content s
    let q := s.pair.seqOut
    let s := { s with
      pair := { s.pair with held := s.pair.held ++ [⟨q, s.now, none⟩] }
      sess := { s.sess with direct := s.sess.direct.map (fun d => if d.record.isNone then { d with record := some q } else d) } }
    let tag (r : LoopRel) : LoopRel := if r.record.isNone then { r with record := some q } else r
    forAll (s.eng.loops.map Prod.fst) (fun n s => modLoop n (fun l => { l with pending := l.pending.map tag }) s) s
  | .activeAlone => commitDirect none (sealLoops (sendCommit 3 content s))
  | _ => commitDirect none (sealLoops s)

/-- A tick is over: the image as it stood before it is no longer needed. -/
def closeTick (s : State) : State := { s with img := { s.img with landed := [] } }

/-- A tick of the engine, once for each grid instant; a standby takes its ticks from the TICK records instead (R204). A
FORCE acts before the tick samples; while ENG is off direct writes still take effect (log entry 74). -/
def engineTickState (s : State) : State :=
  let g := gridAt s tickNs
  if !up s || s.eng.lastTick == g then s
  else
    let s := forceTick g (firstReleases s)
    if !engineUp s then closeTick (commitDirect none { s with eng := { s.eng with lastTick := g } })
    else if isStandby s then closeTick (scanSlots (tickTrackers (commitDirect none s)))
    else if needsAck s && handingHeld s then closeTick (scanSlots (tickTrackers (tryHandover s)))
    else
      let s := { s with eng := { s.eng with lastTick := g } }
      let s0 := s
      let rd := samplePoint g s0
      let now := (loopsUsed s).filter (clockDue s g)
      let s := sampleTick rd g (sendInput s)
      let s := commitTick (now.flatMap (sampledPoints s0)) rd s
      closeTick (scanSlots (tickTrackers s))

/-! ### Cadence loops (R217, R218) -/

/-- The loops selected together with a loop. -/
def unitOf (s : State) (n : Nat) : List Nat := match groupOfLoop s n with
  | some g => g.2
  | none => [n]

/-- The update of a firing: what the firing before it computed is released, and the loop returns from fallback to the cadence
(R217, R218). -/
def cadenceUpdate (rd : Nat → Sample) (n : Nat) (fireAt : Int) (s : State) : State :=
  let s := forAll (unitOf s n) (fun m s => releaseDue m (fun r => r.at_.isNone) fireAt s) s
  sampleSet rd [n] fireAt (fun _ => none) (modLoop n (fun l => { l with fallback := false }) s)

/-- A firing of a slot samples a loop; one sooner than the minimum interval is ignored (R217). A standby computes the update
from the TICK record that brings its samples (R204, R222). -/
def cadenceSample (n : Nat) (fireAt : Int) (s : State) : State :=
  if !engineUp s || loopNat s n 1 == 0 || loopNat s n 3 == 0 then s
  else
    let l := getLoop s n
    let early := match l.lastSample with
      | some t0 => decide (fireAt - t0 < (loopNat s n 1 * tickNs : Nat))
      | none => false
    if early && !l.fallback then modLoop n (fun l => { l with skipped := true }) s
    else if isStandby s then s
    else
      let rd := samplePoint fireAt s
      let pts : List SampledPt := (sampledPoints s n).eraseDups.map (fun p => ⟨p, (rd p).v, (rd p).q, some (n, fireAt)⟩)
      cadenceUpdate rd n fireAt { s with eng := { s.eng with cadSampled := s.eng.cadSampled ++ pts } }

def cadTimeoutState (n : Nat) (s : State) : State :=
  let l := getLoop s n
  let out := match l.lastSample with
    | some t0 => decide (t0 + (loopNat s n 0x19 * msNs : Nat) ≤ localNow s)
    | none => false
  if engineUp s && loopNat s n 1 != 0 && loopNat s n 3 == 1 && !l.fallback && out then
    let t := (l.lastSample.getD 0) + (loopNat s n 0x19 * msNs : Nat)
    let s := modLoop n (fun l => { l with fallback := true }) s
    let s := forAll (unitOf s n) (fun m s => modLoop m (fun l => { l with
      pending := l.pending.map (fun r => if r.at_.isNone then { r with at_ := some t } else r) }) s) s
    forAll (unitOf s n) loopReleaseState s
  else s

/-- CAD_TIMEOUT (R218). -/
def execCadTimeout (t : Nat) (n : Fin 1024) (s : State) : Out := .next (cadTimeoutState n (advance t s))

/-! ### LOOP_MODE and configuration (R208, R209, R216, R220) -/

/-- A loop leaves the cadence for the clock grid: what it computed is released `CAD_TIMEOUT` after its last sample, as when
no firing comes (R218, R220; log entry 24). -/
def leaveCadence (timeout : Nat) (l : Loop) : Loop :=
  let t := (l.lastSample.getD 0) + (timeout * msNs : Nat)
  { l with
    fallback := false, skipped := false
    pending := l.pending.map (fun r => if r.at_.isNone then { r with at_ := some t } else r) }


/-- A write of `LOOP_MODE` (04 R74; R216). -/
def loopModeOp (n : Nat) (data : List Byte) (m : Nat) (s : State) : Answer × State :=
  deferred (0x4000 + n) 0x1A (loopModeNow n) data m s

/-- LOOP_MODE (R208). -/
def execLoopMode (t : Nat) (n : Fin 1024) (c : Cmd) (s : State) : Out :=
  .next (rowReq c (0x4000 + n) 0x1A [] (loopModeOp n) (advance t s))

/-- A new configuration reaches the engine (R209, R220): loops newly configured start afresh and carry BAD_NO_VALUE,
loops unconfigured go, a change of TD or N_D resets d. -/
def applyLoops (old : Tbl (List Byte)) (s : State) : State :=
  let was := loopsIn old
  let now := loopsUsed s
  let items (n : Nat) : List Nat := [0, 1, 2, 3].flatMap (inPoints s 4 n)
  let s := forAll (was.filter (fun n => !now.contains n)) (fun n s =>
    { s with eng := { s.eng with loops := Tbl.erase s.eng.loops n, shadow := Tbl.erase s.eng.shadow n } }) s
  let s := forAll (now.filter (fun n => !was.contains n)) (fun n s =>
    decideQual (items n) 0x46 { s with eng := { s.eng with loops := Tbl.erase s.eng.loops n } }) s
  let moved (n sub : Nat) : Bool := Tbl.find old (objKey (0x4000 + n) sub) != Tbl.find s.config (objKey (0x4000 + n) sub)
  let s := forAll now (fun n s =>
    if moved n 0x0C || moved n 0x0D then modLoop n (fun l => { l with d := 0 }) s else s) s
  let s := forAll now (fun n s =>
    if moved n 3 && loopNat s n 3 == 0 then
      modLoop n (leaveCadence (((Tbl.find old (objKey (0x4000 + n) 0x19)).map leVal).getD 100)) s else s) s
  { s with eng := { s.eng with groups := s.eng.groups.filter (fun e => ((groupsIn s.config).map Prod.fst).contains e.1) } }

/-- Loop states as a start leaves them: resumed from the retain store, or started afresh (R221). -/
def startLoops (warm : Bool) (s : State) : State :=
  let ls : Tbl Loop := if warm then (loopsUsed s).filterMap (fun n => match Tbl.find s.eng.store n with
    | some l => some (n, { l with
        sampled := true, tgtGood := l.x, cand := l.out, shownStatus := l.status, shownOut := l.out, fallback := bitOf l.status 12
        kpOld := loopReal s n 0x0A, bOld := loopReal s n 0x0E })
    | none => none) else []
  { s with eng := { s.eng with loops := ls, groups := [], lastTick := 0, shadow := if warm then s.eng.store else [] } }

end Sys2Proof.Machine
end

