-- ==== Sys2Proof/Machine/PairOps.lean ====
section
/-! DEFINITION. The shared operations of the pair's roles (16): states entered and recorded, the active role laid down,
held records committed, the field claim of a chip, and the agreed comparison of the standby. -/

namespace Sys2Proof.Machine

/-- The abort of a command that ends with the active role (log entry 75). -/
def roleLost (s : State) (idx : Nat) : Abort :=
  { cls := 3, ss := 0x50, num := 1, idx := idx, sub := 1, detail := s.prog.mode.num }

/-- Commands still running end with the role: MODE_SET, ONLINE_CHANGE, SWITCHOVER_REQUEST and CONFIG_COMMIT (04 R92, R93; 08
R196; log entry 75). -/
def failRunning (s : State) : State :=
  [1, 2, 6, 7].foldl (fun s c => if cmdRunning s c then cmdFail c (roleLost s (0xF000 + c)) s else s) s

/-- Updates whose TICK record is not acknowledged are released by neither unit (09 R222). -/
def dropUnacked (s : State) : State :=
  forAll (s.eng.loops.map Prod.fst) (fun n s =>
    modLoop n (fun l => { l with pending := l.pending.filter (fun r => !unacked s r) }) s) s

/-- CRC-32 of a configuration copy. -/
def wordsCrc (ws : List Nat) : Nat := (crc32 (ws.flatMap (leBytes 4))).toNat

/-- A bank goes back to the configuration the module expects, which is still to be committed where the BIC runs another (12
R286). -/
def revertBank (x : Bank) : Bank :=
  { x with
    waiting := [], sending := x.expected, cfgSent := if x.sending = x.expected then x.cfgSent else 0
    commitDue := wordsCrc x.active != wordsCrc x.expected }

/-- What a unit loses when its active role ends (04 R92): its sessions with cause 0x04, their leases and transactions,
a commit not yet applied and an online change not yet swapped, and what no record has committed; its tenure is over
(R389). -/
def loseRole (s : State) : State :=
  let s := dropUnacked (failRunning s)
  let s := { s with
    sess := { s.sess with direct := [], force := none, waiting := [] }
    prog := { s.prog with runDue := false, runByCommand := false } }
  let s := forAll (List.range 8) (fun n s => if (getSession s n).state = 0 then s else closeSession n 4 s) s
  let s := releaseKept { s with sess := { s.sess with pending := none, kept := [], change := none } }
  let s := if s.prog.oc.state = .waiting ∨ s.prog.oc.state = .preparing then
    { s with prog := { s.prog with oc := { s.prog.oc with state := .abandoned, forme := none } } } else s
  let s := { s with
    eng := { s.eng with cadSampled := [] }
    dio := { s.dio with banks := s.dio.banks.map (fun (e : Nat × Bank) => (e.1, revertBank e.2)) } }
  { s with pair := { s.pair with held := [], sentRecs := [], holding := false, peak := 0, replaced := false, landings := []
                                 wonAt := none, handing := none, firstAt := none, late := [] } }

/-- An active unit yields to a higher claim (R406); its CAN ports run as a standby's (R382). -/
def yieldTo (claim : Nat) (s : State) : State :=
  if isActive s && decide (s.pair.state ≠ .single) then
    let s := canStandby (scAbortArmed (loseRole s))
    enterPair .unsynced (emit 0x9200 0 (leBytes 2 claim) { s with pair := { s.pair with yielded := true } })
  else s

/-- A held record is committed, and its outputs are released (R395). -/
def commitHeld (h : HeldRec) (s : State) : State :=
  let s := recordCommitted h.seq { s with pair := { s.pair with held := s.pair.held.filter (fun x => x.seq != h.seq) } }
  match h.cycle with
  | some (_, c) => releaseCommitted c (commitCycle c s)
  | none => sealLoops s

/-- Every record held is committed and released. -/
def commitAllHeld (s : State) : State := s.pair.held.foldl (fun s h => commitHeld h s) s

/-- An orderly switchover whose partner is lost ends, and a SWITCHOVER_REQUEST that began it with the abort of a standby that
does not qualify (R397, R400; log entry 35). -/
def endHanding (s : State) : State :=
  let s := match s.pair.handing with
    | some h => if h.trigger = 2 then failSwitchover s else s
    | none => s
  { s with pair := { s.pair with handing := none } }

/-- An active unit continues alone: it commits and releases what it held (R397). -/
def continueAlone (s : State) : State :=
  if s.pair.state = .active then
    let s := endHanding s
    let s := commitAllHeld { s with pair := { s.pair with holding := false, wonAt := none, sentRecs := [] } }
    enterPair .activeAlone (firstReleases s)
  else s

/-! ### Field claim of a chip (R404, R405) -/

/-- Claims a chip has heard within the last 250 µs. -/
def heardNow (now : Nat) (heard : List (Nat × Nat)) : List (Nat × Nat) :=
  heard.filter (fun e => now - e.2 ≤ 250 * usNs)

/-- Whether a chip holds the field claim, from the claims of its frames and what it has heard; `frame` when a frame of
its unit has just arrived, `hearing` the claim heard just now. -/
def chipClaim (s : State) (holds : Bool) (unit partner : Nat) (heard : List (Nat × Nat)) : Bool :=
  if !isPairUnit s then true
  else
    let h := heardNow s.now heard
    let higher := h.any (fun e => unit < e.1)
    if holds then bitOf unit 11 && !decide (unit < partner) && !higher
    else bitOf unit 11 && h.any (fun e => e.1 == unit) && !higher && decide (partner < unit)

/-- A chip that is linked does not hear the claim of the unit that is active: its own, or its partner's (Table 16.8). -/
def fclDeaf (s : State) (linked : Bool) (heard : List (Nat × Nat)) : Bool :=
  let active := if isActive s then ownClaim s else s.pair.partnerClaim
  linked && bitOf active 11 &&
    !(heardNow s.now heard).any (fun e => bitOf e.1 11 && e.1 % 2048 == active % 2048)

/-- Claims of the frames to the chips (R388, Table 12.1): none of a partner in a single unit. -/
def frameClaims (s : State) : Nat × Nat :=
  (ownClaim s, if s.pair.state = .single then 0 else s.pair.partnerClaim)

/-! ### Standby self-tests (Table 16.7) -/

/-- A test of a row of Table 16.7 fails. -/
def selfTestFailed (row : Nat) (s : State) : State :=
  { s with pair := { s.pair with selftest := Tbl.modify s.pair.selftest 0 row (fun c => (c + 1) % 2 ^ 32) } }

/-- The receivers of the BICs and of the AO channel chips are judged (R404, Table 16.7, Table 16.8). -/
def judgeFcl (s : State) : State :=
  if !isPairUnit s then s
  else
    let bad := s.dio.banks.any (fun e => fclDeaf s e.2.linked e.2.heard) ||
      s.aio.any (fun e => 3 ≤ cfgNat s (0x3200 + e.1) 1 && fclDeaf s e.2.linked e.2.heard)
    let s := if bad && !s.pair.fclFault && isStandby s then selfTestFailed 6 s else s
    { s with pair := { s.pair with fclFault := bad } }

end Sys2Proof.Machine
end

