-- ==== Sys2Proof/Machine/Dio.lean ====
section
/-! DEFINITION. Digital I/O banks (12): the BIC with its inputs, outputs, supply and claim, the bank link, and what the
module does with its frames. -/

namespace Sys2Proof.Machine

/-! ### Configuration words (R286; the layout of a word is the model's, log entry 27) -/

/-- The thirteen words of a bank's configuration: one per channel, then `BANK_WD_TIME`. -/
def bankWords (s : State) (b : Nat) : List Nat :=
  (List.range 12).map (fun c =>
    let i := 0x3000 + 12 * b + c
    cfgNat s i 1 + 4 * cfgNat s i 3 + 16 * (cfgNat s i 4 % 2) + 65536 * cfgNat s i 2) ++ [cfgNat s (0x3000 + 12 * b) 0x20]

/-- Mode, safe state and open-load check of channel `c` of a copy; a copy that is empty has every channel off. -/
def wordMode (ws : List Nat) (c : Nat) : Nat := if c < 12 then ws.getD c 0 % 4 else 0
def wordSafe (ws : List Nat) (c : Nat) : Nat := ws.getD c 0 / 4 % 4
def wordOpen (ws : List Nat) (c : Nat) : Bool := bitOf (ws.getD c 0) 4
/-- Watchdog time, ms. -/
def wordWd (ws : List Nat) : Nat := ws.getD 12 10

/-- The BIC's active configuration is the one the module expects (R286). -/
def bankMatched (b : Bank) : Bool := b.expected != [] && wordsCrc b.active == wordsCrc b.expected

/-- The mode a copy gives channel `c` at the BIC: a plain input where nothing is configured (R289). -/
def copyMode (ws : List Nat) (c : Nat) : Nat := if ws.isEmpty then 1 else wordMode ws c

/-- Mode of a channel at the BIC, and as the module expects it. -/
def bicMode (s : State) (ch : Nat) : Nat := copyMode (getBank s (ch / 12)).active (ch % 12)
def expMode (s : State) (ch : Nat) : Nat := wordMode (getBank s (ch / 12)).expected (ch % 12)

/-- The channels of a bank. -/
def bankChans (b : Nat) : List Nat := (List.range 12).map (12 * b + ·)

/-- The module serves its banks: DIOL is up. -/
def dioUp (s : State) : Bool := up s && domainOn s 9

/-! ### Quality of a channel's points (07 R158, R464) -/

/-- The quality that the BIC's report gives a channel: its supply is off and nothing was accepted since, no value, or the
supervised band (R292, R303, R289). -/
def chipQual (s : State) (ch : Nat) : Nat :=
  let b := getBank s (ch / 12)
  let x := getDio s ch
  if bicMode s ch = 3 then 0
  else if b.supplyOff || (x.supplyGone && !x.seen) then 0x44
  else if !x.seen then 0x46
  else if bicMode s ch ≠ 2 then 0
  else if x.sup = 1 then 0x40 else if x.sup = 2 then 0x12 else 0

/-- The quality a channel's points carry: what the module decides itself, and what the frame last landed reported. -/
def dioQual (s : State) (ch : Nat) : Nat :=
  rankQual ((if dioOwner s ch = .none then [0x45] else []) ++ (if dioRetired s ch then [0x43] else [])
    ++ [(getDio s ch).landedQual])

/-- The points of a channel. -/
def dioPoints (s : State) (ch : Nat) : List Nat := inPoints s 1 ch 0

/-- A BAD quality the module decides for a channel (R464); a better one waits for the next landing. -/
def requalDio (ch : Nat) (s : State) : State :=
  let q := dioQual s ch
  if q < 0x40 then s else decideQual ((dioPoints s ch).filter (fun p => (underlying s p).qual != q)) q s

def requalBank (b : Nat) (s : State) : State := forAll (bankChans b) requalDio s

/-! ### The switch (R290, R303) -/

/-- The BIC may drive a channel: configured as an output, enabled, not retired, with the field claim (R290). -/
def driveAllowed (s : State) (ch : Nat) : Bool :=
  bicMode s ch == 3 && (getDio s ch).enabled && !isRetired s kindDio ch && (getBank s (ch / 12)).claim

/-- Readback of an output's pin (R300). -/
def readback (x : Dio) : Bool := if x.on then !x.pinLow else x.pinHigh

/-- EXTERNAL_DRIVE and OPEN_LOAD of a channel end; the module writes that they did (17 R412). -/
def endDrive (ch : Nat) (s : State) : State :=
  if (getDio s ch).external then
    let s := modDio ch (fun x => { x with external := false }) s
    if up s then emit 0x4281 (0x1000 + ch) [] s else s
  else s

def endOpenLoad (ch : Nat) (s : State) : State :=
  if (getDio s ch).openLoad then
    let s := modDio ch (fun x => { x with openLoad := false }) s
    if up s then emit 0x4282 (0x1000 + ch) [] s else s
  else s

/-- The BIC's counter as local time, to 1 µs: it counts on from its last alignment (R285, R293). -/
def bicTime (s : State) (b : Nat) : Int :=
  let x := getBank s b
  (x.base + (s.now - x.baseAt : Nat)) / 1000 * 1000

/-- A change of a channel at its BIC, stamped where `changed` says so. -/
def stampDio (ch : Nat) (changed : Dio → Dio → Bool) (f : Dio → Dio) (s : State) : State :=
  let t := bicTime s (ch / 12)
  let sl := slewing s
  modDio ch (fun x =>
    let y := f x
    if changed x y then { y with stamp := t, stampSlew := sl, stampLost := false } else y) s

/-- The switch of a channel goes on or off; a change of the readback is stamped. An output that is on has no
EXTERNAL_DRIVE (R304). -/
def setSwitch (ch : Nat) (v : Bool) (s : State) : State :=
  let s := stampDio ch (fun x y => readback x != readback y) (fun x => { x with on := v, pinLow := false }) s
  if v then endDrive ch s else s

/-- The channel joins the group sequence, in ascending order. -/
def addGroup (ch : Nat) (l : List Nat) : List Nat :=
  if l.contains ch then l else (l.filter (· < ch)) ++ [ch] ++ (l.filter (fun c => ch < c))

/-- The switch follows the level its command and edges leave: off at once, on at once or by the group sequence. -/
def settleSwitch (ch : Nat) (s : State) : State :=
  let x := getDio s ch
  let b := getBank s (ch / 12)
  if driveAllowed s ch && x.command && !x.trip && !b.supplyOff && !b.overload then
    if x.on then s
    else if b.restoring then modBank (ch / 12) (fun b => { b with group := addGroup ch b.group }) s
    else setSwitch ch true s
  else
    let s := if b.group.contains ch then modBank (ch / 12) (fun b => { b with group := b.group.filter (· != ch) }) s else s
    if x.on then setSwitch ch false s else s

def settleBank (b : Nat) (s : State) : State := forAll (bankChans b) settleSwitch s

/-- A command or edge sets the level of a channel; OPEN_LOAD ends when the output is commanded off (R299). -/
def commandLevel (ch : Nat) (v : Bool) (s : State) : State :=
  let s := settleSwitch ch (modDio ch (fun x => { x with
    command := v, retry := x.retry && v, trip := x.trip && v, thermal := x.thermal && v }) s)
  if v then s else endOpenLoad ch s

/-- Edges waiting for their frame or placed in it go, with the level an edge left (07 R165). -/
def dropEdges (b : Nat) (own : Nat → Bool) (s : State) : State :=
  forAll (bankChans b) (fun ch s => if own ch then modDio ch (fun x => { x with edgeLevel := none }) s else s)
    (modBank b (fun x => { x with
      waiting := x.waiting.filter (fun e => !own e.ch), placed := x.placed.filter (fun e => !own e.ch) }) s)

/-! ### Counting (R285, R297; 18 R434, R435) -/

/-- Faults of a bank's resources are counted: none of the conditions of R435 holds. -/
def bankCounts (s : State) (b : Nat) : Bool :=
  let x := getBank s b
  dioUp s && !x.supplyOff && !x.restoring && bankMatched x

/-- A channel retires: off for good, its points BAD_RETIRED, a synchro-check on it ended (R18; 18 R444). -/
def retireDio (ch : Nat) (s : State) : State :=
  let s := listRetired kindDio ch false s
  let s := setSwitch ch false (modDio ch (fun x => { x with command := false, retry := false, pulseEnd := none }) s)
  scRetired ch (requalDio ch (dropEdges (ch / 12) (· == ch) s))

/-- A level that the safe state sets, ending a pulse. -/
def safeLevel (ch : Nat) (v : Bool) (s : State) : State :=
  commandLevel ch v (modDio ch (fun x => { x with pulseEnd := none }) s)

/-- Silence at a BIC: each output to its `DIO_SAFE_STATE`, off where the channel is retired or the claim is not held; the
tracked command, and a pulse that HOLD lets run, stay (R287, R288). -/
def silenceOutputs (b : Nat) (s : State) : State :=
  forAll (bankChans b) (fun ch s =>
    let x := getBank s b
    if bicMode s ch ≠ 3 then s
    else if !x.claim || isRetired s kindDio ch then setSwitch ch false s
    else match wordSafe x.active (ch % 12) with
      | 0 => safeLevel ch false s
      | 1 => safeLevel ch true s
      | _ => settleSwitch ch s) s

/-- The outputs of a bank whose field claim may have changed (R287, R290). -/
def claimSettles (b : Nat) (s : State) : State := if (getBank s b).silent then silenceOutputs b s else settleBank b s

/-- A bank link retires: the BIC holds its link-silence state, the points carry BAD_RETIRED (R288). -/
def retireLink (b : Nat) (s : State) : State :=
  let s := dropEdges b (fun _ => true) (modBank b (fun x => { x with silent := true }) (listRetired kindLink b false s))
  forAll (bankChans b) scRetired (requalBank b (silenceOutputs b s))

/-- Sixteen consecutive bad frames: a link-fault event (R285). -/
def linkFault (b : Nat) (s : State) : State :=
  let counts := bankCounts s b
  let s := modBank b (fun x => { x with
    badDown := 0, badUp := 0, resyncing := true, linkFaults := sat 32 (x.linkFaults + 1)
    faults := if counts then addFault s.now x.faults else x.faults }) s
  let s := emit 0x4102 (0x5000 + b) [] s
  if counts && decide (3 ≤ faultCount s.now (getBank s b).faults) then retireLink b s else s

/-! ### Downstream frames (R284 to R286, R290, R301, R302) -/

/-- The command a channel's owner gives, in the present mode (07 R164, a forced value counting as released, R168; 08 Table
8.7), its safe state being that of the
configuration the bank runs under (R286). -/
def ownerCommand (s : State) (ch : Nat) : Bool :=
  let followed (v : Bool) : Bool := ((getDio s ch).edgeLevel).getD v
  if syncClose s ch || (getDio s ch).awaiting then false
  else if (getDio s ch).parked then (getDio s ch).command
  else match outPointFor s 1 ch 0 with
    | none => decide (s.prog.mode ≠ .stop) && followed false
    | some (p, m) =>
      let v := followed (match forceOf s p with
        | some f => f.value != 0
        | none => (Tbl.find s.prog.released p).getD 0 != 0)
      if outHeldSafe s m p then
        match wordSafe (getBank s (ch / 12)).expected (ch % 12) with
        | 0 => false
        | 1 => true
        | _ => v
      else v

/-- ENABLE of a channel (R290). -/
def enableBit (s : State) (ch : Nat) : Bool := expMode s ch == 3 && !dioRetired s ch

/-- The edges of a frame of grid instant `g`: at most four of those whose offset is below 84.5 µs, and those left over
(R301). -/
def frameEdges (g : Int) (w : List DioEdge) : List DioEdge × List DioEdge :=
  let due := w.filter (fun e => decide (e.fireAt - g < 84500))
  let rest := w.filter (fun e => !decide (e.fireAt - g < 84500))
  (due.take 4, due.drop 4 ++ rest)

/-- OFFSET of an edge, in units of 4 ns: an edge whose instant has passed the frame's reach goes at 22 µs. -/
def edgeOffset (g : Int) (e : DioEdge) : Nat :=
  if e.fireAt - g < 22000 then 5500 else ((e.fireAt - g + 2) / 4).toNat

/-- The configuration word of the next frame: the commit once its boundary has come and the copy is whole (R286). -/
def frameWord (b : Bank) : Nat × Nat :=
  if b.commitDue && decide (b.sending.length ≤ b.cfgSent) then (0xFFFF, wordsCrc b.sending)
  else let i := b.cfgSent % max b.sending.length 1; (i, b.sending.getD i 0)

/-- Word `i` of a copy is set. -/
def setWord (ws : List Nat) (i w : Nat) : List Nat := ((ws ++ List.replicate (13 - ws.length) 0).take 13).set i w

/-- The staged copy becomes active: a channel whose mode changes starts afresh, and a plain input stays one (R286, R289). -/
def activateBank (b : Nat) (s : State) : State :=
  let old := (getBank s b).active
  let s := modBank b (fun x => { x with active := x.staged, expected := x.sending, commitDue := false }) s
  let new := (getBank s b).active
  forAll (bankChans b) (fun ch s =>
    if copyMode old (ch % 12) = copyMode new (ch % 12) then s
    else modDio ch (fun x => { x with
      on := false, command := false, seen := false, state := false, sup := 0, trip := false
      thermal := false, retry := false, pinHigh := false, pinLow := false, external := false, openLoad := false, pulseEnd := none }) s) s

/-- What the BIC does with the configuration word of a good frame (R286). -/
def takeWord (b : Nat) (w : Nat × Nat) (s : State) : State :=
  if w.1 = 0xFFFF then
    if wordsCrc (getBank s b).staged = w.2 then modBank b (fun x => { x with cfgEcho := w.1 }) (activateBank b s) else s
  else if (getBank s b).sending.isEmpty then s
  else modBank b (fun x => { x with staged := setWord x.staged w.1 w.2, cfgSent := x.cfgSent + 1, cfgEcho := w.1 }) s

/-- COMMAND and ENABLE of a good frame for one channel; a changed command, one that a release newer than a running pulse
gives, and any command that ends link silence, applies at the frame and ends a pulse (R287, R302; 07 R164). Without the field claim a tracked command that is on leaves no
EXTERNAL_DRIVE to report (R305). -/
def takeCommand (leaving : Bool) (ch : Nat) (cmd en : Bool) (s : State) : State :=
  let x := getDio s ch
  let s := modDio ch (fun x => { x with sent := cmd, enabled := en, fresh := false }) s
  let s := if cmd && !(getBank s (ch / 12)).claim then endDrive ch s else s
  if x.sent ≠ cmd ∨ leaving ∨ x.fresh then commandLevel ch cmd (modDio ch (fun x => { x with pulseEnd := none }) s)
  else settleSwitch ch s

/-- Slots whose edge went later than placed are marked LATE (R301). -/
def markLate (g : Int) (es : List DioEdge) (s : State) : State :=
  es.foldl (fun s e => if e.slot < 256 ∧ e.fireAt - g < 22000 then
      modSched e.slot (fun x => { x with late := true, lateDue := x.lateDue || x.state == 2 }) s
    else s) s

/-- TIME_US of a frame, ns: its grid instant in whole µs. DESIGN CHOICE (log entry 78): half a microsecond counts up, so that no
stamp the BIC takes by it lies more than 1 µs from its instant (06 Table 6.1). -/
def timeUs (g : Int) : Int := (g + 500) / 1000

/-- A good downstream frame at the BIC. -/
def bicTakes (b : Nat) (g : Int) (cmds ens : Nat) (es : List DioEdge) (w : Nat × Nat) (s : State) : State :=
  let leaving := (getBank s b).silent
  let c := frameClaims s
  let s := modBank b (fun x =>
    { x with lastGood := s.now, badDown := 0, silent := false, echo := x.frameNo
             base := timeUs g * 1000, baseAt := s.now - (localNow s - g).toNat, unitClaim := c.1, partnerClaim := c.2
             claim := chipClaim s x.claim c.1 c.2 x.heard
             placed := x.placed ++ es.map (fun e => { e with fireAt := g + 4 * (edgeOffset g e : Nat) }) }) s
  let s := takeWord b w s
  (List.range 12).foldl (fun s c => takeCommand leaving (12 * b + c) (bitOf cmds c) (bitOf ens c) s) s

def downstreamFrameState (b : Nat) (ok : Bool) (s : State) : State :=
  if !dioUp s || isRetired s kindLink b then s
  else
    let s := loopsRelease s
    let x := getBank s b
    let g := gridAt s 62500
    let (es, left) := frameEdges g x.waiting
    let cmds := flagWord ((List.range 12).map (fun c => (c, ownerCommand s (12 * b + c))))
    let ens := flagWord ((List.range 12).map (fun c => (c, enableBit s (12 * b + c))))
    let w := frameWord x
    let no := (x.frameNo + 1) % 2 ^ 16
    let cl := frameClaims s
    let s := (List.range 12).foldl (fun s c => modDio (12 * b + c) (fun y => { y with commanded := bitOf cmds c }) s) s
    let s := markLate g es (modBank b (fun x => { x with frameNo := no, waiting := left }) s)
    let s := send (.downstream b no (timeUs g % (2 ^ 32 : Nat)).toNat cl.1 cl.2 cmds ens
      (es.map (fun e => (e.ch % 12, e.action, edgeOffset g e, if e.action = 3 then e.width else 0))) w.1 w.2) s
    if x.resyncing then s
    else if ok then bicTakes b g cmds ens es w s
    else
      let s := modBank b (fun x => { x with badDown := x.badDown + 1, badFrames := (x.badFrames + 1) % 2 ^ 32 }) s
      if 16 ≤ x.badDown + 1 then linkFault b s else s

/-- DOWNSTREAM_FRAME (R284). -/
def execDownstreamFrame (t : Nat) (b : Fin 8) (ok : Bool) (s : State) : Out :=
  .next (downstreamFrameState b ok (advance t s))

/-! ### Upstream frames (R285, R294, R295, R305; 16 R396, R406) -/

/-- STATE and SUPERVISION of a channel as its BIC reports them. -/
def reportState (s : State) (ch : Nat) : Bool :=
  if bicMode s ch = 3 then readback (getDio s ch) else (getDio s ch).state
def reportSup (s : State) (ch : Nat) : Nat := if bicMode s ch = 2 then (getDio s ch).sup else 0

/-- CH_FLAGS (Table 12.2). -/
def chFlags (x : Dio) : Nat :=
  flagWord [(0, x.trip), (1, x.thermal), (2, x.external), (3, x.openLoad), (4, x.retry)]

/-- BIC_FLAGS (Table 12.2). -/
def bicFlags (b : Bank) (mv : Nat) : Nat :=
  flagWord [(0, decide (mv < 19200)), (1, b.supplyOff), (2, b.restoring), (3, b.silentSeen), (4, b.claim), (5, b.overload),
    (6, b.overflow)]

/-- The event tasks an edge of an input releases (08 R184). -/
def edgeTasks (ch : Nat) (rising : Bool) (s : State) : State :=
  forAll ((List.range 16).map (32 + ·)) (fun k s =>
    let v := cfgNat s (0x2500 + k) 3
    if v ≠ 0xFFFF ∧ v % 128 = ch ∧ bitOf (v / 256) (if rising then 0 else 1) then triggerTask k (localNow s) s else s) s

/-- What a frame says of a channel lands: productions with the quality the channel has (R294; 06 R131). -/
def landChannel (ch : Nat) (r : ChanRep) (s : State) : State :=
  let s := modDio ch (fun x => { x with landed := r.v, landedSup := r.sup, landedQual := r.qual }) s
  produceAllAs (dioPoints s ch) (if r.v then 1 else 0) (slewQual r.slew (dioQual s ch)) r.stamp s

/-- An edge record lands, and releases the tasks that wait for it. -/
def landEdge (r : ChanRep) (e : EdgeRec) (s : State) : State :=
  let s := modDio e.ch (fun x => { x with lastEdge := e.stamp })
    (landChannel e.ch { r with v := e.rising, stamp := e.stamp, slew := e.slew } s)
  if expMode s e.ch = 1 ∨ expMode s e.ch = 2 then edgeTasks e.ch e.rising s else s

/-- What the frame says of a channel once the edge records have landed: a change that no record carried, or a first
value. -/
def landRest (ch : Nat) (r : ChanRep) (s : State) : State :=
  let x := getDio s ch
  let unset := (dioPoints s ch).any (fun p => (underlying s p).qual == 0x46) && r.qual != 0x46
  if expMode s ch ≠ 0 ∧ (x.landed ≠ r.v ∨ x.landedSup ≠ r.sup ∨ x.landedQual ≠ r.qual ∨ unset) then landChannel ch r s else s

/-- A bank's frame lands: its edge records in order, then what it says of each channel. -/
def landBank (b : Nat) (chans : List ChanRep) (edges : List EdgeRec) (s : State) : State :=
  let s := edges.foldl (fun s e => landEdge (chans.getD (e.ch % 12) {}) e s) s
  (List.range 12).foldl (fun s c => landRest (12 * b + c) (chans.getD c {}) s) s

/-- The report of a channel. A stamp lost with its edge record is the instant of landing (log entry 78). -/
def chanRep (s : State) (ch : Nat) : ChanRep :=
  let x := getDio s ch
  { v := reportState s ch, sup := reportSup s ch, qual := chipQual s ch
    stamp := if x.stampLost then localNow s else x.stamp, slew := if x.stampLost then slewing s else x.stampSlew }

/-- The reports of a bank under another configuration than the one expected: BAD_NO_VALUE, the values kept (R289). -/
def mismatchRep (s : State) (ch : Nat) : ChanRep :=
  let x := getDio s ch
  { v := x.landed, sup := x.landedSup, qual := 0x46, stamp := localNow s, slew := slewing s }

/-- The upstream frame a BIC forms now (Table 12.2). -/
def upFrame (s : State) (b mv ma : Nat) (temp : Int) (curMa : Nat) : UpFrame :=
  let x := getBank s b
  { echo := x.echo, state := flagWord ((List.range 12).map (fun c => (c, reportState s (12 * b + c))))
    sup := (List.range 12).foldr (fun c a => reportSup s (12 * b + c) + 4 * a) 0
    chFlags := (bankChans b).map (fun ch => chFlags (getDio s ch)), edges := x.edges.take 8
    supply := mv, current := ma, curCh := x.curCh, temp := temp, curMa := curMa
    fclSeen := (x.heard.map Prod.fst).foldl max 0, bicFlags := bicFlags x mv, cfgEcho := x.cfgEcho
    cfgCrc := wordsCrc x.active }

/-- The frame has left the BIC: its edge records and its event flags with it, and CUR_CH goes round (Table 12.2). -/
def frameSent (b : Nat) (s : State) : State :=
  modBank b (fun x => { x with
    edges := x.edges.drop 8, curCh := (x.curCh + 1) % 12, silentSeen := false, overflow := false }) s

/-- Edge records of a frame the module does not take lose their stamps (log entry 78). -/
def loseStamps (es : List EdgeRec) (s : State) : State :=
  es.foldl (fun s e => modDio e.ch (fun x => { x with stampLost := true }) s) s

/-- Reports land, and are noted for the next INPUT record; a standby keeps none (16 R396). -/
def landOwnBank (b : Nat) (chans : List ChanRep) (es : List EdgeRec) (s : State) : State :=
  if landsOwn s then landBank b chans es (noteLanding (.bank (Fin.ofNat 8 b) chans es) s) else s

/-- A valid frame under the configuration the module expects (R286). -/
def takeMatched (b : Nat) (f : UpFrame) (chans : List ChanRep) (s : State) : State :=
  let s := modBank b (fun x => { x with
    mismatch := false, flags := f.bicFlags, fclSeen := f.fclSeen, supplyMv := f.supply, currentMa := f.current, temp := f.temp }) s
  let s := modDio (12 * b + f.curCh) (fun y => { y with current := f.curMa }) s
  let s := (List.range 12).foldl (fun s c => modDio (12 * b + c) (fun y => { y with landedFlags := f.chFlags.getD c 0 }) s) s
  let s := if bitOf f.bicFlags 3 then emit 0x4103 (0x5000 + b) [] s else s
  let s := judgeFcl (landOwnBank b chans f.edges s)
  if isPairUnit s ∧ ownClaim s < f.fclSeen then yieldTo f.fclSeen s else s

/-- A valid frame under another configuration: nothing of it is accepted; the first one after a match shows that the BIC
was reset, and the points take BAD_NO_VALUE (R286, R289; 07 R464). -/
def takeMismatch (b : Nat) (f : UpFrame) (s : State) : State :=
  let x := getBank s b
  let s := loseStamps f.edges s
  if x.mismatch then s
  else
    let s := modBank b (fun x => { x with mismatch := true }) s
    let s := if x.linked then emit 0x4104 (0x5000 + b) [] s else s
    landOwnBank b ((bankChans b).map (mismatchRep s)) [] s

def upstreamFrameState (b : Nat) (ok : Bool) (mv ma : Nat) (temp : Int) (curMa : Nat) (s : State) : State :=
  let x := getBank s b
  if !dioUp s || isRetired s kindLink b || x.resyncing then s
  else
    let f := upFrame s b mv ma temp curMa
    let chans := (bankChans b).map (chanRep s)
    let s := frameSent b s
    if !ok then
      let s := modBank b (fun x => { x with badUp := x.badUp + 1, badFrames := (x.badFrames + 1) % 2 ^ 32 }) (loseStamps f.edges s)
      if 16 ≤ x.badUp + 1 then linkFault b s else s
    else
      let s := if x.expected != [] && f.cfgCrc == wordsCrc x.expected then takeMatched b f chans s else takeMismatch b f s
      modBank b (fun x => { x with linked := true, badUp := 0 }) s

/-- UPSTREAM_FRAME (R285): the frame that the BIC forms, with what it measures; it is bad if its SYNC is wrong or its CRC
fails. -/
def execUpstreamFrame (t : Nat) (b : Fin 8) (syncOk crcOk : Bool) (supplyMv currentMa : Nat) (temp : Int) (curMa : Nat)
    (s : State) : Out :=
  .next (upstreamFrameState b (syncOk && crcOk) supplyMv currentMa temp curMa (advance t s))

/-- LINK_RESYNC (R285). -/
def execLinkResync (t : Nat) (b : Fin 8) (s : State) : Out :=
  let s := advance t s
  .next (if dioUp s then modBank b (fun x => { x with resyncing := false, badDown := 0, badUp := 0 }) s else s)

/-- LINK_SILENCE (R287): no good frame for `BANK_WD_TIME`. -/
def execLinkSilence (t : Nat) (b : Fin 8) (s : State) : Out :=
  let s := advance t s
  let x := getBank s b
  .next (if !x.silent && decide (x.lastGood + wordWd x.active * msNs < s.now) then
    silenceOutputs b (modBank b (fun x => { x with silent := true, silentSeen := true }) s) else s)

/-! ### Inputs (R292 to R295) -/

/-- The value and band a reading has, where it lies in one: value (none keeps the last) and supervision. -/
def readInput (mode mv ua : Nat) : Option (Option Bool × Nat) :=
  if mode = 1 then (if 11000 ≤ mv then some (some true, 0) else if mv ≤ 5000 then some (some false, 0) else none)
  else if mode = 2 then
    (if ua < 300 then some (none, 1) else if ua < 600 then none else if ua < 1800 then some (some false, 0)
     else if ua < 3000 then some (none, 2) else some (some true, 0))
  else none

/-- An edge record enters the queue by its stamp, equal stamps by channel (R295, 06 R140). -/
def insertEdge (e : EdgeRec) (l : List EdgeRec) : List EdgeRec :=
  let before (x : EdgeRec) : Bool := decide (x.stamp < e.stamp) || (x.stamp == e.stamp && decide (x.ch ≤ e.ch))
  l.filter before ++ [e] ++ l.filter (fun x => !before x)

/-- The BIC queues an edge; a full queue drops it, and its stamp is lost (R295). -/
def queueEdge (ch : Nat) (v : Bool) (s : State) : State :=
  let x := getDio s ch
  if (getBank s (ch / 12)).edges.length < 32 then
    modBank (ch / 12) (fun b => { b with edges := insertEdge ⟨ch, v, x.stamp, x.stampSlew⟩ b.edges }) s
  else modDio ch (fun x => { x with stampLost := true }) (modBank (ch / 12) (fun b => { b with overflow := true }) s)

/-- The pin of an output reads 1 at 11 V or more and 0 at 5 V or less (R300); a change is stamped. -/
def pinState (ch mv : Nat) (s : State) : State :=
  let set (v : Bool) : State := stampDio ch (fun x y => readback x != readback y)
    (fun x => if x.on then { x with pinLow := !v } else { x with pinHigh := v }) s
  if 11000 ≤ mv then set true else if mv ≤ 5000 then set false else s

/-- DESIGN CHOICE (log entry 78): the row that brings the accepted reading of an input brings the filtered readback of an
output too, since the table has no other. -/
def diEdgeState (ch mv ua : Nat) (s : State) : State :=
  let x := getDio s ch
  let b := getBank s (ch / 12)
  if bicMode s ch = 3 then pinState ch mv s
  else match readInput (bicMode s ch) mv ua with
  | none => s
  | some (v, sup) =>
    if b.supplyOff then s
    else
      let v := v.getD x.state
      if x.seen ∧ v = x.state ∧ sup = x.sup then s
      else
        let s := stampDio ch (fun _ _ => true) (fun x => { x with state := v, sup := sup, seen := true, supplyGone := false }) s
        if x.seen ∧ v ≠ x.state then queueEdge ch v s else s

/-- DI_EDGE_ACCEPTED (R293). -/
def execDiEdgeAccepted (t : Nat) (ch : Fin 96) (mv ua : Nat) (s : State) : Out :=
  .next (diEdgeState ch mv ua (advance t s))

/-! ### Output faults (R297 to R299, R304, R305) -/

def outputTripState (ch : Nat) (thermal : Bool) (s : State) : State :=
  let x := getDio s ch
  if !x.on then s
  else
    let counts := bankCounts s (ch / 12)
    let s := setSwitch ch false (modDio ch (fun x => { x with
      trip := true, thermal := thermal, retry := true, tripAt := s.now
      lifetime := sat 32 (x.lifetime + 1), faults := if counts then addFault s.now x.faults else x.faults }) s)
    let n := faultCount s.now (getDio s ch).faults
    let s := if up s then emit (if thermal then 0x4002 else 0x4001) (0x1000 + ch) (leBytes 1 n) s else s
    if counts ∧ 3 ≤ n then retireDio ch s else s

/-- OUTPUT_TRIP (R297). -/
def execOutputTrip (t : Nat) (ch : Fin 96) (thermal : Bool) (s : State) : Out :=
  .next (outputTripState ch thermal (advance t s))

/-- OUTPUT_RETRY (R297): 100 ms after the trip, the command still on and the junction below 135 °C. A pulse ends at its time
while the output waits, and no retry follows. -/
def execOutputRetry (t : Nat) (ch : Fin 96) (tempC : Int) (s : State) : Out :=
  let s := advance t s
  let x := getDio s ch
  .next (if x.retry ∧ x.tripAt + 100 * msNs ≤ s.now ∧ tempC < 135 ∧ !isRetired s kindDio ch then
    settleSwitch ch (modDio ch (fun x => { x with retry := false, trip := false, thermal := false }) s) else s)

/-- Every output of a bank goes off. -/
def bankOff (b : Nat) (s : State) : State :=
  forAll (bankChans b) (fun ch s => if (getDio s ch).on then setSwitch ch false s else s)
    (modBank b (fun x => { x with group := [] }) s)

/-- BANK_OVERLOAD (R298). -/
def execBankOverload (t : Nat) (b : Fin 8) (ma : Nat) (s : State) : Out :=
  let s := advance t s
  .next (if 6600 < ma ∧ !(getBank s b).overload then
    let s := bankOff b (modBank b (fun x => { x with overload := true, overloadAt := s.now, restoring := false }) s)
    if up s then emit 0x4101 (0x5000 + b) [] s else s
  else s)

/-- Restoring begins: the outputs commanded on join the group sequence (R303). -/
def startRestore (b : Nat) (s : State) : State := settleBank b (modBank b (fun x => { x with restoring := true }) s)

/-- BANK_OVERLOAD_RESTORE (R298): 1 s after the overload. -/
def execBankOverloadRestore (t : Nat) (b : Fin 8) (s : State) : Out :=
  let s := advance t s
  let x := getBank s b
  .next (if x.overload ∧ x.overloadAt + secNs ≤ s.now then
    startRestore b (modBank b (fun x => { x with overload := false }) s) else s)

/-- RESTORE_GROUP (R303): the next four of the sequence. -/
def execRestoreGroup (t : Nat) (b : Fin 8) (s : State) : Out :=
  let s := advance t s
  let x := getBank s b
  .next (if !x.restoring || x.supplyOff then s
    else
      let s := forAll (x.group.take 4) (fun ch s => setSwitch ch true s) s
      let s := modBank b (fun x => { x with group := x.group.drop 4 }) s
      if x.group.length ≤ 4 then modBank b (fun x => { x with restoring := false }) s else s)

/-- OPEN_LOAD (R299). -/
def execOpenLoad (t : Nat) (ch : Fin 96) (ma : Nat) (s : State) : Out :=
  let s := advance t s
  let x := getDio s ch
  .next (if x.on ∧ ma < 2 ∧ !x.openLoad ∧ wordOpen (getBank s (ch / 12)).active (ch % 12) then
      let s := modDio ch (fun x => { x with openLoad := true }) s
      if up s then emit 0x4202 (0x1000 + ch) [] s else s
    else if 5 ≤ ma then endOpenLoad ch s
    else s)

def externalDriveState (ch mv : Nat) (s : State) : State :=
  let x := getDio s ch
  if bicMode s ch ≠ 3 ∨ x.on then s
  else
    let s := pinState ch mv s
    if 11000 ≤ mv then
      if x.external || (!(getBank s (ch / 12)).claim && x.sent) then s
      else
        let s := modDio ch (fun x => { x with external := true }) s
        let s := if up s then emit 0x4201 (0x1000 + ch) [] s else s
        if isStandby s then selfTestFailed 4 s else s
    else if mv ≤ 5000 ∧ x.external then endDrive ch s
    else s

/-- EXTERNAL_DRIVE (R304). -/
def execExternalDrive (t : Nat) (ch : Fin 96) (mv : Nat) (s : State) : Out := .next (externalDriveState ch mv (advance t s))

/-! ### Bank supply (R303, R289) -/

/-- A bank's supply is off: outputs off, inputs BAD_SUPPLY from the frame that reports it (07 R464). -/
def bankSupplyLost (b : Nat) (s : State) : State :=
  let s := bankOff b (modBank b (fun x => { x with supplyOff := true, restoring := false }) s)
  forAll (bankChans b) (fun ch s =>
    let input := bicMode s ch != 3
    stampDio ch (fun _ _ => input) (fun x => { x with seen := false, supplyGone := true }) s) s

/-- A bank's supply is back: restoring in groups, inputs return at their first accepted value. -/
def bankSupplyBack (b : Nat) (s : State) : State :=
  if (getBank s b).supplyOff then
    let s := startRestore b (modBank b (fun x => { x with supplyOff := false }) s)
    if (getBank s b).group.isEmpty then modBank b (fun x => { x with restoring := false }) s else s
  else s

/-- BANK_SUPPLY_OFF (R303). -/
def execBankSupplyOff (t : Nat) (b : Fin 8) (mv : Nat) (s : State) : Out :=
  let s := advance t s
  .next (if mv < 16000 ∧ !(getBank s b).supplyOff then bankSupplyLost b s else s)

/-- BANK_RESTORE (R303). -/
def execBankRestore (t : Nat) (b : Fin 8) (mv : Nat) (s : State) : Out :=
  let s := advance t s
  .next (if 18000 < mv then bankSupplyBack b s else s)

/-- A BIC resets: every output off, nothing configured, nothing queued; its counter starts from a value that the manual
does not give, free until the next good frame (R289; log entry 78). The module learns of it from the next frame (07
R464). -/
def bicResets (b : Nat) (s : State) : State :=
  let (f, s) := draw (bankOff b s)
  let s := modBank b (fun x => { x with
    active := [], staged := [], edges := [], placed := [], heard := [], claim := !isPairUnit s, cfgSent := 0
    commitDue := x.expected != [], silent := false, supplyOff := true, restoring := false, overload := false
    overflow := false, sending := x.expected, base := f, baseAt := s.now, echo := 0, cfgEcho := 0, curCh := 0
    silentSeen := false }) s
  forAll (bankChans b) (fun ch s => modDio ch (fun x => { x with
    seen := false, supplyGone := false, stampLost := false, state := false, sup := 0, sent := false, enabled := false, command := false, trip := false
    thermal := false, retry := false, external := false, openLoad := false, pulseEnd := none }) s) s

/-- BIC_RESET (R289). -/
def execBicReset (t : Nat) (b : Fin 8) (mv : Nat) (s : State) : Out :=
  let s := advance t s
  .next (if mv < 12000 then bicResets b s else s)

/-! ### Timed edges at the BIC (R301, R302) -/

/-- The point of a DO is forced, so that edges under binding 1 do not reach the field (07 R168). -/
def doForced (s : State) (ch : Nat) : Bool :=
  match outPointFor s 1 ch 0 with
  | some (p, _) => (forceOf s p).isSome
  | none => false

/-- One edge takes effect; one on a channel that is not driven is dropped, and so is a slot's edge on a DO forced since it
was placed (07 R168); a retired target takes none (07 R165). -/
def applyEdge (e : DioEdge) (s : State) : State :=
  if !driveAllowed s e.ch || dioRetired s e.ch || (decide (e.slot < 256) && doForced s e.ch) then s
  else match e.action with
    | 1 => commandLevel e.ch true (modDio e.ch (fun x => { x with pulseEnd := none }) s)
    | 2 => commandLevel e.ch false (modDio e.ch (fun x => { x with pulseEnd := none }) s)
    | _ => commandLevel e.ch true (modDio e.ch (fun x => { x with pulseEnd := some (s.now + e.width * usNs) }) s)

def timedEdgeState (ch : Nat) (s : State) : State :=
  let b := getBank s (ch / 12)
  let due := b.placed.filter (fun e => e.ch == ch && decide (e.fireAt ≤ localNow s))
  let s := modBank (ch / 12) (fun x => { x with
    placed := x.placed.filter (fun e => !(e.ch == ch && decide (e.fireAt ≤ localNow s))) }) s
  due.foldl (fun s e => applyEdge e s) s

/-- TIMED_EDGE (R301). -/
def execTimedEdge (t : Nat) (ch : Fin 96) (s : State) : Out := .next (timedEdgeState ch (advance t s))

/-- PULSE_END (R301): the output goes off again, and the channel stays off until the next happening, a newer release that waits
for its frame included (07 R164). -/
def execPulseEnd (t : Nat) (ch : Fin 96) (s : State) : Out :=
  let s := advance t s
  let x := getDio s ch
  .next (match x.pulseEnd with
    | some e => if e ≤ s.now then
        commandLevel ch false (modDio ch (fun x => { x with
          pulseEnd := none, edgeLevel := if syncClose s ch || x.fresh then x.edgeLevel else some false }) s)
      else s
    | none => s)

/-! ### Objects (Table 12.9, Table 12.10) -/

/-- `DIO_STATUS`, from the last frame. -/
def dioStatus (s : State) (ch : Nat) : Nat :=
  let x := getDio s ch
  let b := getBank s (ch / 12)
  flagWord [(0, x.landed), (1, x.commanded), (2, x.landedSup == 1), (3, x.landedSup == 2), (4, bitOf x.landedFlags 4),
    (5, bitOf x.landedFlags 0), (6, bitOf x.landedFlags 1), (7, bitOf x.landedFlags 2), (8, bitOf x.landedFlags 3),
    (9, bitOf b.flags 1 || bitOf b.flags 2), (10, bitOf b.flags 3), (11, dioRetired s ch)]

/-- `BANK_STATE`. -/
def bankCode (s : State) (b : Nat) : Nat :=
  let x := getBank s b
  if isRetired s kindLink b then 5 else if x.supplyOff then 3 else if x.restoring then 4 else if x.silent then 2
  else if x.linked then 1 else 0

/-- The channels start anew with the module: nothing landed, no claim in a pair unit, and the module's configuration to
be sent and matched (R289). The BICs keep what they hold. -/
def startBanks (s : State) : State :=
  let s := forAll (List.range 8) (fun b s =>
    let ws := bankWords s b
    modBank b (fun x => { x with
      linked := false, resyncing := false, mismatch := false, expected := ws, sending := ws, cfgSent := 0
      commitDue := wordsCrc x.active != wordsCrc ws, waiting := [], claim := x.claim || !isPairUnit s, badUp := 0
      faults := [] }) s) s
  forAll (List.range 96) (fun ch s => modDio ch (fun x => { x with edgeLevel := none, fresh := false, commanded := false, landed := false, landedQual := 0x46, faults := [], awaiting := false, parked := false }) s) s

end Sys2Proof.Machine
end

