-- ==== Sys2Proof/Machine/Aio.lean ====
section
/-! DEFINITION. Analogue current loops (13): conversion, filter and bands, the output update with its safe states, the
channel link, chip faults and the field claim. -/

namespace Sys2Proof.Machine

/-- The module serves its channel chips: AIOL is up. -/
def aioUp (s : State) : Bool := up s && domainOn s 10

/-- Pass mode: a chip of a pair unit without the field claim (R325). -/
def aioPass (s : State) (ch : Nat) : Bool := !(getAio s ch).claim && isPairUnit s

/-- The points of a channel's input records. -/
def aioPoints (s : State) (ch : Nat) : List Nat := inPoints s 2 ch 0

/-! ### Calibration (R327, R328) -/

/-- The factory-corrected current of a code at a temperature. -/
def aioFactory (ch : Nat) (code temp : Int) : Real32 :=
  let b := factoryAio ch
  f32Add (f32Add (f32Mul (realAt b 0) (f32OfInt code)) (realAt b 4)) (f32Mul (realAt b 8) (f32Sub (f32OfInt temp) f32_25))

/-- The value a channel reports for a factory-corrected current. -/
def aioReported (s : State) (ch : Nat) (i : Real32) : Real32 :=
  if isAo s ch then f32Div (f32Sub i (trimOffset s ch)) (trimFactor s ch)
  else f32Add (f32Mul i (trimFactor s ch)) (trimOffset s ch)

/-! ### Bands (R317, R318) -/

/-- The band of a current: 0 to 6 in the order of Table 13.2. -/
def bandOf (range : Nat) (x : Real32) : Nat :=
  if range = 1 then (if f32Le (mA 2400) x then 6 else 3)
  else if f32Lt x (mA 50) then 0 else if f32Le x (mA 360) then 1 else if f32Lt x (mA 400) then 2
  else if f32Le x (mA 2000) then 3 else if f32Lt x (mA 2100) then 4 else if f32Lt x (mA 2400) then 5 else 6

/-- Lower edge of a band, in hundredths of a mA. -/
def bandEdge (range b : Nat) : Int := if range = 1 then 2400 else [0, 50, 360, 400, 2000, 2100, 2400].getD b 2400

/-- Quality of a band (Table 13.2). -/
def bandQual (b : Nat) : Nat := [0x40, 0x47, 0x11, 0x00, 0x11, 0x41, 0x41].getD b 0

/-- A conversion lies inside a band other than the present one by more than 0.02 mA beyond the edge crossed. -/
def bandInside (range band b : Nat) (x : Real32) : Bool :=
  if band < b then f32Lt (mA (bandEdge range b + 2)) x else f32Lt x (mA (bandEdge range (b + 1) - 2))

/-- The band after a conversion: at once the first time, or where a changed range has no band of that number (log entry 78),
else after five conversions inside a new one. -/
def bandStep (range : Nat) (x : Real32) (a : Aio) : Aio :=
  let b := bandOf range x
  if !a.bandValid || range == 1 && a.band != 3 && a.band != 6 then { a with band := b, bandValid := true, candCount := 0 }
  else if b = a.band || !bandInside range a.band b x then { a with candCount := 0 }
  else
    let n := if a.candBand = b ∧ a.candCount ≠ 0 then a.candCount + 1 else 1
    if 5 ≤ n then { a with band := b, candCount := 0 } else { a with candBand := b, candCount := n }

/-! ### Quality and landing (R309, R319, R323; 07 R158) -/

/-- The quality that the chip reports, by the order of 07 R158: supply off, the conditions of Table 13.3, no conversion yet,
the band. -/
def aioChipQual (s : State) (ch : Nat) : Nat :=
  let a := getAio s ch
  if a.supplyOff && aioMode s ch != 4 then 0x44
  else if isAo s ch && (a.openLoop || a.noLoop) then 0x40
  else if !a.bandValid then 0x46
  else if !isAo s ch then bandQual a.band
  else if a.compliance then 0x13 else 0

/-- The quality a channel's points carry: what the module decides itself, and what the chip last reported (07 R464). An AO
channel without an output record is owned by NONE (R308). -/
def aioQual (s : State) (ch : Nat) : Nat :=
  rankQual ((if aioOwner s ch = .none then [0x45] else []) ++ (if isRetired s kindAio ch then [0x43] else [])
    ++ [(getAio s ch).landedQual])

/-- A current and the quality its chip reports land, with their stamp. -/
def landAio (ch : Nat) (v : Real32) (q : Nat) (stamp : Int) (s : State) : State :=
  let s := modAio ch (fun a => { a with landedQual := if q = 0x10 then 0 else q }) s
  produceAllAs (aioPoints s ch) v (slewQual (q == 0x10) (aioQual s ch)) stamp s

/-- The chip's newest value lands and is noted for the next INPUT record; a standby keeps none (16 R396). A stamp taken
while SLEWING turns GOOD into UNCERTAIN_SLEWING here (06 R131). -/
def landOwnAio (ch : Nat) (stamp : Int) (s : State) : State :=
  if aioUp s && landsOwn s then
    let v := (getAio s ch).current
    let q := slewQual (slewing s) (aioChipQual s ch)
    landAio ch v q stamp (noteLanding (.aio (Fin.ofNat 32 ch) v q stamp) s)
  else s

/-- An AI-A chip supplies its loop while it holds the field claim, its supply stands and it is in service (R323, R325; 02
R41). -/
def settleSource (ch : Nat) (s : State) : State :=
  let on := decide (cfgNat s (0x3200 + ch) 1 = 1) && !aioPass s ch && !(getAio s ch).supplyOff && !isRetired s kindAio ch
  modAio ch (fun a => { a with source := on }) s

/-- A quality the module decides for a channel (R464). -/
def requalAio (ch : Nat) (s : State) : State :=
  let q := aioQual s ch
  if landsOwn s then decideQual ((aioPoints s ch).filter (fun p => (underlying s p).qual != q)) q s else s

/-- `AIO_STATUS` (Table 13.8). -/
def aioStatus (s : State) (ch : Nat) : Nat :=
  let a := getAio s ch
  flagWord [(0, if isAo s ch then a.openLoop else decide (aioMode s ch ≠ 0) && aioRange s ch == 0 && a.bandValid && a.band == 0),
    (1, a.mismatchAt.isSome), (2, a.compliance), (3, a.noLoop), (4, a.external), (5, a.overcurrent), (6, a.clamped),
    (7, a.cmdBad), (8, a.partnerMismatch), (9, aioPass s ch), (10, a.supplyOff && aioMode s ch != 4), (11, a.silent && isAo s ch),
    (12, isRetired s kindAio ch), (13, s.retired.any (fun r => r.kind == kindAio && r.number == ch && r.cal))]

/-- The mismatch timer may run: the regulator says that it regulates (Table 13.3), and the channel is not at MIN, where
nothing is regulated (R314), nor in pass mode (R326). -/
def regulating (s : State) (ch : Nat) : Bool :=
  let a := getAio s ch
  isAo s ch && !aioPass s ch && !a.atMin && !a.reinit && a.reg == .regulating && !isRetired s kindAio ch

/-- Two currents differ by more than 0.2 mA. -/
def differs02 (x y : Real32) : Bool := f32Lt (mA 20) (f32Abs (f32Sub x y))

/-- The target current of a channel: that of its command, or the 0 mA of MIN in AO-A (R314). -/
def aoTarget (s : State) (ch : Nat) : Real32 :=
  let a := getAio s ch
  if a.atMin then 0 else aoTargetOf s ch a.applied

/-- A row of Table 13.3 is met by a factory-corrected readback and the regulator's state. A channel in pass mode regulates
nothing; nor does an AO-P channel at MIN, whose electronics' own current is no external one. -/
def condMet (s : State) (ch : Nat) (i : Real32) (c : AoCond) : Bool :=
  let a := getAio s ch
  let mode := aioMode s ch
  !aioPass s ch && (match c with
    | .compliance => 3 ≤ mode && a.reg == .high && f32Lt (mA 20) (f32Sub (aoTarget s ch) i) && f32Le (mA 50) i
    | .openLoop => mode == 3 && a.reg == .high && f32Lt i (mA 50) && !a.atMin && f32Le (mA 100) a.applied
    | .noLoopPower => mode == 4 && a.reg == .unpowered
    | .externalSource => 3 ≤ mode && a.reg == .low && f32Lt (mA 20) (f32Sub i (aoTarget s ch)) && !(mode == 4 && a.atMin)
    | .overcurrent => a.reg == .limited)

/-- The flag of a condition. -/
def condFlag (a : Aio) : AoCond → Bool
  | .compliance => a.compliance
  | .openLoop => a.openLoop
  | .noLoopPower => a.noLoop
  | .externalSource => a.external
  | .overcurrent => a.overcurrent

/-- Since when each condition has stood against its flag. -/
def condTimes (s : State) (ch : Nat) (i : Real32) : List (AoCond × Nat) :=
  let a := getAio s ch
  ([.compliance, .openLoop, .noLoopPower, .externalSource] : List AoCond).filterMap (fun c =>
    if condMet s ch i c = condFlag a c then none
    else some (c, ((a.condAt.find? (fun e => e.1 == c)).map Prod.snd).getD s.now))

def aioConversionState (ch : Nat) (code : Int) (env : ConvEnv) (s : State) : State :=
  let stamp := gridAt s msNs
  if aioMode s ch = 0 ∨ (getAio s ch).convAt = some stamp then s
  else
    let i := aioFactory ch code env.temp
    let x := aioReported s ch i
    let ao := isAo s ch
    let tau := cfgNat s (0x3200 + ch) 3
    let s := modAio ch (fun a => { a with reg := env.reg }) s
    let far := ao && !(getAio s ch).atMin && differs02 i (aoTarget s ch)
    let mis := regulating s ch && far
    let times := condTimes s ch i
    let par := aioPass s ch && far
    let s := modAio ch (fun a =>
      let y := if ao || tau == 0 || !a.yValid then x else f32Add a.y (f32Mul (f32Sub x a.y) (filterGain tau))
      let a := { a with
        y := y, yValid := true, current := y, convAt := some stamp, condAt := times
        partnerAt := if par then some (a.partnerAt.getD s.now) else none
        mismatchAt := if mis then some (a.mismatchAt.getD s.now) else none }
      if ao then { a with bandValid := true } else bandStep (aioRange s ch) x a) s
    landOwnAio ch stamp s

/-- AIO_CONVERSION (R310): one for each whole millisecond, judged against the state of the channel's regulator (R319). -/
def execAioConversion (t : Nat) (ch : Fin 32) (code : Int) (env : ConvEnv) (s : State) : Out :=
  .next (aioConversionState ch code env (advance t s))

/-! ### Output (R312 to R316, R323) -/

/-- AO_UPDATE (R312): one for each whole millisecond. Loop outputs that fall due at this instant are released first (09
R203). -/
def execAoUpdate (t : Nat) (ch : Fin 32) (s : State) : Out :=
  let s := loopsRelease (advance t s)
  let g := gridAt s msNs
  .next (if isAo s ch && aioUp s && (getAio s ch).updAt != some g then
    aoApply ch (modAio ch (fun a => { a with updAt := some g, updNow := s.now }) s) else s)

/-! ### Chip faults (R313, R321; 18 R435) -/

/-- A channel retires: MIN, its points BAD_RETIRED (R315). -/
def retireAio (ch : Nat) (cal : Bool) (s : State) : State :=
  let s := listRetired kindAio ch cal s
  requalAio ch (settleSource ch (if isAo s ch then
    modAio ch (fun a => { toMin a with reinit := false }) s else s))

/-- A channel-chip fault of a variant of class 0x50: counted unless the channel has retired already, the chip reinitialised at
MIN; the third one within 10 s retires. -/
def chipFault (ch variant : Nat) (s : State) : State :=
  let a := getAio s ch
  let counts := aioUp s && !(a.supplyOff && aioMode s ch != 4) && !isRetired s kindAio ch
  let s := emit (0x5000 + variant) (0x2000 + ch) (leBytes 4 a.applied.toNat) s
  let s := modAio ch (fun a => { toMin a with
    reinit := true, badDown := 0, badUp := 0, lifetime := sat 32 (a.lifetime + 1)
    faults := if counts then addFault s.now a.faults else a.faults }) s
  if counts ∧ 3 ≤ faultCount s.now (getAio s ch).faults then retireAio ch false s else s

/-- READBACK_MISMATCH (R321): the mismatch has stood for 50 ms. -/
def execReadbackMismatch (t : Nat) (ch : Fin 32) (s : State) : Out :=
  let s := advance t s
  .next (match (getAio s ch).mismatchAt with
    | some t0 => if regulating s ch && decide (t0 + 50 * msNs ≤ s.now) then chipFault ch 1 s else s
    | none => s)

/-- CHANNEL_CHIP_REINITIALISED (R321): the chip leaves MIN and resumes its current command. -/
def execChannelChipReinitialised (t : Nat) (ch : Fin 32) (s : State) : Out :=
  let s := advance t s
  .next (if (getAio s ch).reinit then
    let s := modAio ch (fun a => { a with reinit := false }) s
    if isAo s ch then aoApply ch s else s
  else s)

/-! ### Channel link (R313) -/

/-- A good downstream frame at the chip. -/
def chipTakes (ch : Nat) (s : State) : State :=
  let c := frameClaims s
  settleSource ch (modAio ch (fun a => { a with
    lastGood := s.now, badDown := 0, silent := false, unitClaim := c.1, partnerClaim := c.2
    claim := chipClaim s a.claim c.1 c.2 a.heard }) s)

/-- A frame whose flags change the quality the chip reports lands it, stamped with the frame's grid instant (07 R464; log
entry 78). -/
def landFlags (ch : Nat) (s : State) : State :=
  if aioMode s ch ≠ 0 ∧ aioChipQual s ch ≠ (getAio s ch).landedQual then landOwnAio ch (gridAt s 125000) s else s

def aioLinkFrameState (ch : Nat) (okDown okUp : Bool) (mv temp : Int) (s : State) : State :=
  if !aioUp s then s
  else
    let c := frameClaims s
    let s := send (.aioDown ch ((aoApplied s ch).1.getD 0) c.1 c.2) s
    let s := if okDown then chipTakes ch s
      else
        let n := (getAio s ch).badDown + 1
        let s := modAio ch (fun a => { a with badDown := n }) s
        if 16 ≤ n then chipFault ch 2 s else s
    if okUp then
      landFlags ch (modAio ch (fun a => { a with
        linked := true, badUp := 0, termMv := mv, temp := temp, status := aioStatus s ch }) s)
    else
      let n := (getAio s ch).badUp + 1
      let s := modAio ch (fun a => { a with badUp := n }) s
      if 16 ≤ n then chipFault ch 2 s else s

/-- AIO_LINK_FRAME (R313). -/
def execAioLinkFrame (t : Nat) (ch : Fin 32) (okDown okUp : Bool) (mv temp : Int) (s : State) : Out :=
  .next (aioLinkFrameState ch okDown okUp mv temp (advance t s))

/-- AIO_LINK_SILENCE (R313): no good frame has arrived for `AIO_WD_TIME`. -/
def execAioLinkSilence (t : Nat) (ch : Fin 32) (s : State) : Out :=
  let s := advance t s
  let a := getAio s ch
  .next (if !a.silent && decide (a.lastGood + cfgNat s (0x3200 + ch) 6 * msNs ≤ s.now) then
    let s := modAio ch (fun a => { a with silent := true }) s
    if isAo s ch then aoApply ch s else s
  else s)

/-! ### Conditions (R319, R326) -/

/-- A flag of Table 13.3 is set or cleared. -/
def setCond (c : AoCond) (v : Bool) (a : Aio) : Aio :=
  match c with
  | .compliance => { a with compliance := v }
  | .openLoop => { a with openLoop := v }
  | .noLoopPower => { a with noLoop := v }
  | .externalSource => { a with external := v }
  | .overcurrent => { a with overcurrent := v }

/-- The condition exists in the channel's mode (Table 13.3, Table 13.5). -/
def condApplies (s : State) (ch : Nat) : AoCond → Bool
  | .openLoop => aioMode s ch == 3
  | .noLoopPower => aioMode s ch == 4
  | .overcurrent => aioMode s ch != 0
  | _ => isAo s ch

/-- A condition has stood, or been absent, against its flag for 20 ms. OVERCURRENT has no such time (Table 13.5). -/
def condDue (s : State) (a : Aio) (c : AoCond) : Bool :=
  c == .overcurrent || a.condAt.any (fun e => e.1 == c && decide (e.2 + 20 * msNs ≤ s.now))

/-- AO_CONDITION (R319): a condition's flag is set after 20 ms of it, and cleared after 20 ms without it. The readback's
quality follows with the frame that reports it (07 R464). -/
def execAoCondition (t : Nat) (ch : Fin 32) (cond : AoCond) (present : Bool) (s : State) : Out :=
  let s := advance t s
  let a := getAio s ch
  .next (if condApplies s ch cond && (condFlag a cond != present) && condDue s a cond && !(present && aioPass s ch) then
    modAio ch (fun a => setCond cond present { a with condAt := a.condAt.filter (fun e => e.1 != cond) }) s
  else s)

/-- PARTNER_MISMATCH (R326): only in pass mode, where the current has differed from the tracked command for 50 ms; the flag goes
when they no longer differ. -/
def execPartnerMismatch (t : Nat) (ch : Fin 32) (present : Bool) (s : State) : Out :=
  let s := advance t s
  let a := getAio s ch
  .next (if present then
      (if isAo s ch && aioPass s ch && !a.partnerMismatch && a.partnerAt.any (fun t0 => decide (t0 + 50 * msNs ≤ s.now)) then
        selfTestFailed 5 (modAio ch (fun a => { a with partnerMismatch := true }) s) else s)
    else if a.partnerAt.isSome && aioPass s ch then s
    else modAio ch (fun a => { a with partnerMismatch := false }) s)

/-! ### Supply, configuration and start (R309, R323, R327) -/

/-- The field supply of the channels is lost: AO-A falls to 0 mA, AI-A switches its loop source off, and every channel but
AO-P takes BAD_SUPPLY with the frame that reports it. -/
def aioSupplyLost (s : State) : State :=
  forAll (List.range 32) (fun ch s =>
    settleSource ch (modAio ch (fun a =>
      { (if aioMode s ch = 3 then toMin a else a) with supplyOff := true }) s)) s

/-- It is back: inputs at once, outputs at their next update. -/
def aioSupplyBack (s : State) : State :=
  forAll (List.range 32) (fun ch s =>
    if (getAio s ch).supplyOff then settleSource ch (modAio ch (fun a => { a with supplyOff := false }) s) else s) s

/-- A channel whose mode changes starts afresh, its points BAD_NO_VALUE (R309). -/
def applyAio (old : Tbl (List Byte)) (s : State) : State :=
  forAll (List.range 32) (fun ch s =>
    if Tbl.find old (objKey (0x3200 + ch) 1) = Tbl.find s.config (objKey (0x3200 + ch) 1) then s
    else requalAio ch (settleSource ch (modAio ch (fun a => { toMin a with
      landedQual := if a.landedQual = 0x44 then 0x44 else 0x46, yValid := false, bandValid := false, candCount := 0, compliance := false, openLoop := false, noLoop := false
      external := false, overcurrent := false, cmdBad := false, clamped := false, condAt := [], lastCmd := none
      partnerAt := none, partnerMismatch := false }) s))) s

/-- The channels at a start: counts begin at zero, and a channel whose factory record fails its CRC retires. -/
def startAio (s : State) : State :=
  forAll (List.range 32) (fun ch s =>
    let s := modAio ch (fun a => { a with
      linked := false, landedQual := 0x46, faults := [], parked := false, yValid := false, bandValid := false, candCount := 0, reinit := false
      mismatchAt := none, partnerAt := none, condAt := [], claim := a.claim || !isPairUnit s }) s
    let s := settleSource ch s
    if factoryOk (factoryAio ch) || isRetired s kindAio ch then s
    else retireAio ch true (emit 0x5003 (0x2000 + ch) (leBytes 4 0) s)) s

end Sys2Proof.Machine
end

