-- ==== Sys2Proof/Machine/Motion.lean ====
section
/-! DEFINITION. Motion axes (14): inputs, profile, stops, homing, limits, drives and interpolation groups. The plan is
kept in fixed point of 2^-32 units with speeds constant in their change over an interval (log entry 28). -/

namespace Sys2Proof.Machine

/-! ### Configuration (Table 14.7, Table 14.8) -/

def axNat (s : State) (n sub : Nat) : Nat := cfgNat s (0x3400 + n) sub
/-- A REAL32 parameter in units of 2^-32. -/
def axFx (s : State) (n sub : Nat) : Int := f32ScaleInt (cfgReal s (0x3400 + n) sub) (2 ^ 32)
def axFlag (s : State) (n bit : Nat) : Bool := bitOf (axNat s n 2) bit
/-- In use and in service. -/
def axUsed (s : State) (n : Nat) : Bool := n < 24 && axNat s n 1 == 1
def axRetired (s : State) (n : Nat) : Bool := isRetired s kindAxis n
/-- An integrated drive, AX0 to AX7 (Table 14.1). -/
def axIntegrated (n : Nat) : Bool := n < 8

/-- The motion unit runs: MOTL is up. -/
def motionUp (s : State) : Bool := up s && domainOn s 11

/-- One unit of position. -/
abbrev fxUnit : Int := 2 ^ 32
/-- Intervals per second. -/
abbrev perSec : Int := 8000

/-- The nearest count of a planned position. -/
def toCount (x : Int) : Int := (x + 2 ^ 31) / fxUnit

/-- Profile of an axis (R337). -/
structure AxProf where
  vStart : Int
  vBreak : Int
  vMax : Int
  a1 : Int
  a2 : Int
  d2 : Int
  d1 : Int
  vStop : Int
  deriving DecidableEq, Repr

def axProf (s : State) (n : Nat) : AxProf :=
  ⟨axFx s n 4, axFx s n 5, axFx s n 6, axFx s n 7, axFx s n 8, axFx s n 9, axFx s n 10, axFx s n 11⟩

/-- The members of interpolation groups in use. -/
def axGroups (s : State) : List (Nat × List Nat) :=
  (List.range 6).filterMap (fun g =>
    let m := ((List.range 4).map (fun k => fieldAt (cfgBytes s (0x3480 + g) 1) k 1)).filter (· != 0xFF)
    if m.isEmpty then none else some (g, m))

def groupOfAxis (s : State) (n : Nat) : Option (Nat × List Nat) := (axGroups s).find? (fun g => g.2.contains n)

def modAxGroup (g : Nat) (f : AxGroup → AxGroup) (s : State) : State :=
  { s with mot := { s.mot with groups := Tbl.modify s.mot.groups {} g f } }
def getAxGroup (s : State) (g : Nat) : AxGroup := Tbl.get s.mot.groups {} g
def getSet (s : State) (k : Nat) : LimitSet := Tbl.get s.mot.sets {} k

/-! ### Limits (R343, R344, R346) -/

def axSet (s : State) (n : Nat) : Option Nat := if axNat s n 0x0C < 8 then some (axNat s n 0x0C) else none

/-- The inputs of an axis's limit set are not valid: FSA off, or not yet requalified (R346). -/
def inputsInvalid (s : State) (n : Nat) : Bool :=
  match axSet s n with
  | some k => let x := getSet s k; s.pwr.fsaOff || !x.limpOk || !x.limnOk || !x.homeOk
  | none => false

/-- LIMP, LIMN and HOME active, by the levels `AX_LIMIT_STOP` sets. -/
def limActive (s : State) (n : Nat) (i : LimitInput) : Bool :=
  match axSet s n with
  | none => false
  | some k =>
    let x := getSet s k
    let f := axNat s n 0x0E
    match i with
    | .limp => x.limp == bitOf f 2
    | .limn => x.limn == bitOf f 3
    | .home => x.home == bitOf f 4

/-- No step in a direction: its limit is active, or the inputs are invalid. -/
def blocked (s : State) (n : Nat) (positive : Bool) : Bool :=
  inputsInvalid s n || limActive s n (if positive then .limp else .limn)

/-! ### Lost positions (R340) -/

/-- A position is lost by an event of Table 14.4. -/
def losePos (n code : Nat) (s : State) : State :=
  let x := getAxis s n
  let s := modAxis n (fun x => { x with valid := false, lost := code }) s
  if x.valid || x.lost ≠ code then emit (0x6100 + code) (0x3000 + n) (leInt 4 x.count) s else s

/-- Homing ends with a result; every result but 1 leaves the position lost (R349). The axis is held until its target point
changes, unless a stop bit, a mode stop or R346 ended the homing: then it moves once that cause has ended (R339, R346, R350). -/
def endHoming (n result : Nat) (held : Bool) (s : State) : State :=
  let x := getAxis s n
  if x.homing = 0 then s
  else
    let s := modAxis n (fun x => { x with
      homing := 0, homeResult := result, homeFailed := decide (result ≠ 1), valid := decide (result = 1)
      heldStop := x.heldStop || held }) s
    emit (0x6200 + result) (0x3000 + n) (leInt 4 x.latch) s

/-! ### Stops (R339) -/

/-- Nanoseconds gone of the present interval. -/
def intervalGone (s : State) : Int := max 0 (min (localNow s - s.mot.lastTick) 125000)

/-- The instants of the steps of an interval, ns after its start, to 4 ns (R336): spread evenly (log entry 28). -/
def stepOffs (n : Nat) : List Nat := (List.range n).map (fun k => (2 * k + 1) * 125000 / (2 * n) / 4 * 4)

/-- Steps of the present interval already made. -/
def stepsDone (s : State) (n : Nat) : Int :=
  let x := getAxis s n
  let m : Int := ((stepOffs x.cur.natAbs).filter (fun (o : Nat) => decide ((o : Int) ≤ intervalGone s))).length
  if x.cur < 0 then -m else m

/-- The count of an axis as it stands. -/
def countNow (s : State) (n : Nat) : Int := (getAxis s n).count - ((getAxis s n).cur - stepsDone s n)

/-- Energised at the terminals: only the active unit drives (R352). -/
def axLive (s : State) (n : Nat) : Bool := (getAxis s n).enabled && isActive s

/-- A changed number of steps of the present interval is put out. -/
def tellCut (n : Nat) (old : Int) (s : State) : State :=
  let c := (getAxis s n).cur
  if c ≠ old ∧ axLive s n then send (.stepsCut n (if axFlag s n 1 then -c else c)) s else s

/-- Speed of an axis in the present interval: the greater of those at its ends (log entry 28). -/
def axSpeed (s : State) (n : Nat) : Int :=
  max ((getAxis s n).curV0.natAbs : Int) ((getAxis s n).curV.natAbs : Int)

/-- Standstill: nothing moves in the present interval or in the plan. -/
def axStill (x : Axis) : Bool :=
  decide (x.v = 0 ∧ x.cur = 0 ∧ x.curV = 0) && x.plan.all (fun g => decide (g.steps = 0 ∧ g.v = 0))

/-- The plan is dropped and the axis stands where its steps have taken it. -/
def dropPlan (n : Nat) (s : State) : State :=
  let old := (getAxis s n).cur
  let done := stepsDone s n
  tellCut n old (modAxis n (fun x =>
    let c := x.count - (x.cur - done)
    { x with count := c, cur := done, curV0 := 0, curV := 0, pos := c * fxUnit, v := 0, idle := 0
             dir := if done = 0 then x.dir else some (decide (0 < done))
             plan := x.plan.map (fun g => { g with steps := 0, pos := c * fxUnit, v := 0 }) }) s)

/-- HARD: the step output ends; from a speed above v_stop the position is lost (R340). -/
def hardStop (n : Nat) (s : State) : State :=
  let fast := decide ((axProf s n).vStop < axSpeed s n)
  let s := dropPlan n s
  let s := modAxis n (fun x => { x with overshoot := false, short := false, stillSince := s.now }) s
  if fast then losePos n 2 s else s

/-- The group of an axis ends its line where its members stand (R360). -/
def stopGroup (g : Nat) (s : State) : State :=
  modAxGroup g (fun x => { x with
    moving := false, retarget := false, stopped := true, v := 0, line := x.line + 1, past := {}, here := {}, ahead := x.ahead.map (fun _ => {}) }) s

/-- HARD stop of an axis, and with it of its group (R360). -/
def hardStopAll (n : Nat) (s : State) : State :=
  match groupOfAxis s n with
  | none => hardStop n s
  | some (g, m) =>
    let moves := (getAxGroup s g).moving || m.any (fun k => !axStill (getAxis s k))
    let s := forAll m (fun k s => hardStop k (if moves then modAxis k (fun a => { a with groupStop := true }) s else s)) s
    if moves then stopGroup g s else s

/-- Count, position and plan are moved by a number of units: the count is redefined (R347, R348). -/
def shiftAxis (d : Int) (x : Axis) : Axis :=
  { x with count := x.count + d, pos := x.pos + d * fxUnit, plan := x.plan.map (fun g => { g with pos := g.pos + d * fxUnit }) }

/-! ### Energising (R340, R342, R351) -/

/-- The axis takes current; without a homing method its position is valid from here (R340). -/
def energise (n : Nat) (s : State) : State :=
  modAxis n (fun x => { x with enabled := true, valid := x.valid || axNat s n 0x0F == 0, holding := false }) s

/-- Bridges off or pulse stage in high impedance. -/
def deEnergise (n : Nat) (s : State) : State :=
  modAxis n (fun x => { x with enabled := false, heldStop := true, quiet := false, quietOut := false, holding := false }) s

/-! ### Inputs (R333 to R335) -/

/-- The control word in effect: the word itself, or its BAD reading, and whether it is BAD. -/
def ctrlWord (s : State) (n : Nat) : Nat × Bool :=
  if axFlag s n 0 then
    let p := readPoint s (axNat s n 3)
    if isBad p.qual then (5, true) else (p.value.toNat % 16, false)
  else (1, false)

/-- The target of a point's entry: none where it is BAD or not finite (R333). -/
def targetOf (s : State) (p : Nat) : Option (BitVec 32 × Int) :=
  match releasedOf s p with
  | none => none
  | some v =>
    if isBad (readPoint s p).qual then none
    else if pointType s p = 0x0A then
      (if f32Finite v then some (v, satInt 32 (f32ToInt v)) else none)
    else some (v, v.toInt)

/-- The point that gives an axis its target. -/
def targetPoint (s : State) (n : Nat) : Option (Nat × MapRec) := outPointFor s 3 n 0

/-- Soft limits act on a valid position (R345). -/
def softClamp (s : State) (n : Nat) (t : Int) : Int :=
  if axFlag s n 5 && (getAxis s n).valid then
    max (cfgInt s (0x3400 + n) 0x14) (min t (cfgInt s (0x3400 + n) 0x15)) else t

/-- A replan to a new target: behind the motion or within the braking distance, the axis turns (R338). -/
def brakeFx (p : AxProf) (v : Int) : Int :=
  if v ≤ p.vStop then 0
  else if p.vBreak < v then
    (v * v - p.vBreak * p.vBreak) / (2 * p.d2) + (p.vBreak * p.vBreak - p.vStop * p.vStop) / (2 * p.d1)
  else (v * v - p.vStop * p.vStop) / (2 * p.d1)

def replan (p : AxProf) (x : Axis) : Axis :=
  let d := x.target * fxUnit - x.pos
  let turn := x.v ≠ 0 ∧ (x.v * d ≤ 0 ∨ (d.natAbs : Int) < brakeFx p (x.v.natAbs : Int))
  { x with overshoot := decide turn, short := false }

/-- The axis reads its target point (R333, R350): a changed value is a new target, in RUN and HOLD. -/
def readTarget (n : Nat) (s : State) : State :=
  if s.prog.mode = .stop then s
  else match targetPoint s n with
    | none => s
    | some (p, _) =>
      match targetOf s p with
      | none => modAxis n (fun x => { x with targetBad := true, lastTarget := none }) s
      | some (v, t) =>
        let x := getAxis s n
        let ct := softClamp s n t
        let changed := decide (x.lastTarget ≠ some v)
        let s := modAxis n (fun x => { x with
          targetBad := false, lastTarget := some v, softLimit := decide (ct ≠ t), heldStop := x.heldStop && !changed }) s
        if changed || decide (ct ≠ x.target) then
          modAxis n (fun x => replan (axProf s n) { x with target := ct }) s else s

/-- Homing may start: enabled, in RUN or HOLD, not in a group, with a method (R347). -/
def mayHome (s : State) (n : Nat) : Bool :=
  decide (s.prog.mode ≠ .stop) && (getAxis s n).enabled && (groupOfAxis s n).isNone && axNat s n 0x0F != 0
    && (getAxis s n).homing == 0

/-- Homing starts (R347): the position is not valid until it ends; "set here" ends at once. -/
def startHoming (n : Nat) (s : State) : State :=
  if !mayHome s n then s
  else
    let first := if axNat s n 0x0F = 1 ∧ limActive s n .home then 1 else 2
    let s := modAxis n (fun x => { x with
      valid := false, homing := first, homeStart := s.now, homeReversed := false, homeFailed := false, heldStop := false
      overshoot := false, short := false }) s
    if axNat s n 0x0F = 3 then
      let c := countNow s n
      endHoming n 1 true (modAxis n (fun x => shiftAxis (cfgInt s (0x3400 + n) 0x12 - c) { x with latch := c }) s)
    else s

/-- Control word, command and target of one axis at a tick. A stop by command or by ENABLE holds the axis until its target point
changes (R335, R339). -/
def readInputs (n : Nat) (s : State) : State :=
  let (w, bad) := ctrlWord s n
  let x := getAxis s n
  let rise (b : Nat) : Bool := bitOf w b && !bitOf x.ctrl b
  let off := bitOf x.ctrl 0 && !bitOf w 0 && x.enabled
  let s := readTarget n (modAxis n (fun x => { x with ctrl := w, ctrlBad := bad, cmd := 0 }) s)
  let s := if rise 3 then hardStopAll n s else s
  let s := if x.cmd = 2 ∨ off then modAxis n (fun x => { x with heldStop := true }) s
    else if x.cmd = 3 then modAxis n (fun x => { x with heldStop := true }) (hardStopAll n s) else s
  let s := if rise 1 || x.cmd == 1 then startHoming n s else s
  let ends := (getAxis s n).homing ≠ 0 ∧
    (s.prog.mode = .stop ∨ bitOf w 2 ∨ bitOf w 3 ∨ !bitOf w 0 ∨ inputsInvalid s n ∨ x.cmd = 2 ∨ x.cmd = 3)
  let s := if ends then endHoming n 4 false s else s
  if bitOf w 0 && !(getAxis s n).enabled && !(getAxis s n).driveFault && !(getAxis s n).supplyOff
      && !axRetired s n then energise n s else s

/-- A RAMP stop is in effect: the axis may not go on toward its target. -/
def wantsStop (s : State) (n : Nat) : Bool :=
  let x := getAxis s n
  let unsafeHold := match targetPoint s n with
    | some (_, m) => decide (s.prog.mode = .hold) && m.holdUnsafe
    | none => true
  decide (s.prog.mode = .stop) || unsafeHold || bitOf x.ctrl 2 || bitOf x.ctrl 3 || !bitOf x.ctrl 0 || !x.enabled
    || x.heldStop || x.targetBad || inputsInvalid s n

/-! ### Profile (R337 to R339) -/

/-- Braking from a speed for a time, ns: distance and speed after it; at v_stop the axis steps to zero. -/
def rampPart (p : AxProf) (v dt : Int) : Int × Int :=
  let v' := v - (if p.vBreak < v then p.d2 else p.d1) * dt / 1000000000
  if v' ≤ p.vStop then ((v + max v' 0) * dt / 2000000000, 0) else ((v + v') * dt / 2000000000, v')

/-- One interval of braking. -/
def rampDown (p : AxProf) (v : Int) : Int × Int := rampPart p v 125000

/-- One interval toward a target at a distance: distance gone and speed after it; arrival is at distance `dist` with
speed zero. -/
def towardStep (p : AxProf) (dist v : Int) (short : Bool) : Int × Int :=
  let done (m v' : Int) : Int × Int := if dist ≤ m ∨ v' ≤ 0 then (dist, 0) else (m, v')
  if short then done (v / perSec) v
  else
    let v1 := min p.vMax (v + (if v < p.vBreak then p.a1 else p.a2) / perSec)
    let m1 := (v + v1) / (2 * perSec)
    if v ≤ v1 ∧ m1 + brakeFx p v1 ≤ dist then (m1, v1)
    else if v ≤ p.vMax ∧ v / perSec + brakeFx p v ≤ dist then done (v / perSec) v
    else
      let v2 := if v ≤ p.vStop then v else max p.vStop (v - (if p.vBreak < v then p.d2 else p.d1) / perSec)
      done ((v + v2) / (2 * perSec)) v2

/-- One interval at a homing speed along a direction; an axis that was faster brakes down to it. -/
def homingStep (p : AxProf) (hs v : Int) : Int × Int :=
  let v1 := if hs < v then max hs (v - (if p.vBreak < v then p.d2 else p.d1) / perSec) else min hs (v + p.a1 / perSec)
  ((v + v1) / (2 * perSec), v1)

/-- The position after a move by `m` along a direction: a whole count where it ends at rest. -/
def alongPos (positive : Bool) (m v' pos : Int) : Int :=
  let q := if positive then pos + m else pos - m
  if v' = 0 then toCount q * fxUnit else q

/-- The axis moves by `m` along a direction and has speed `v'` after it. -/
def moveAlong (positive : Bool) (m v' : Int) (x : Axis) : Axis :=
  { x with pos := alongPos positive m v' x.pos, v := if positive then v' else -v' }

/-- Braking of a moving axis. -/
def brakeAxis (p : AxProf) (x : Axis) : Axis :=
  if x.v = 0 then x
  else
    let r := rampDown p (x.v.natAbs : Int)
    let y := moveAlong (decide (0 < x.v)) r.1 r.2 x
    if r.2 = 0 then { y with overshoot := false } else y

/-- The least time between the last step in one direction and the first in the other, ns: one period of v_start, and
`AX_DIR_SETUP` too on a pulse axis (R338, R357). A v_start of 0 has no period. -/
def turnGap (s : State) (n : Nat) : Int :=
  let vs := (axProf s n).vStart
  (if 0 < vs then (1000000000 * fxUnit + vs - 1) / vs else 0) + (if axIntegrated n then 0 else (axNat s n 0x21 : Int))

/-- An axis at rest may start in a direction: whole intervals without a step cover the gap of a turn. -/
def turnReady (s : State) (n : Nat) (up : Bool) : Bool :=
  let x := getAxis s n
  x.dir == some up || x.dir.isNone || decide (turnGap s n ≤ x.idle * 125000)

/-- Motion toward a position, turning first where the present motion leads elsewhere; from rest it starts in the directions
`ready`. -/
def seekAxis (p : AxProf) (ready : Bool → Bool) (goal : Int) (x : Axis) : Axis :=
  let d := goal * fxUnit - x.pos
  if x.v ≠ 0 ∧ (x.overshoot ∨ x.v * d < 0) then brakeAxis p x
  else if d = 0 then { x with v := 0 }
  else if x.v = 0 ∧ !ready (decide (0 < d)) then x
  else
    let dist : Int := (d.natAbs : Int)
    let x := if x.v = 0 then { x with short := decide (dist < brakeFx p p.vStart) } else x
    let v0 := if x.v = 0 then p.vStart else (x.v.natAbs : Int)
    let r := towardStep p dist v0 x.short
    let y := moveAlong (decide (0 < d)) r.1 r.2 x
    if r.2 = 0 then { y with short := false } else y

/-- Braking through planned intervals, from a position and signed speed. -/
def rampAhead (p : AxProf) : List PlanSeg → Int → Int → List PlanSeg
  | [], _, _ => []
  | g :: gs, pos, v =>
    let r := if v = 0 then (0, 0) else rampDown p (v.natAbs : Int)
    let pos' := alongPos (decide (0 < v)) r.1 r.2 pos
    let v' := if 0 < v then r.2 else -r.2
    { g with steps := toCount pos' - toCount pos, pos := pos', v := v' } :: rampAhead p gs pos' v'

/-- RAMP that bypasses the plan (R344): the axis brakes from where it is and as fast as it is, and the rest of the present
interval and the plan become its braking. -/
def rampNow (n : Nat) (s : State) : State :=
  let x := getAxis s n
  let p := axProf s n
  let dt := intervalGone s
  let c := countNow s n
  let vNow := if x.curV0 = 0 then x.curV else x.curV0 + (x.curV - x.curV0) * dt / 125000
  let up := decide (0 < vNow)
  let r := if vNow = 0 then (0, 0) else rampPart p (vNow.natAbs : Int) (125000 - dt)
  let pos := alongPos up r.1 r.2 (c * fxUnit)
  let v := if up then r.2 else -r.2
  let q := rampAhead p x.plan pos v
  let e := q.getLast?
  tellCut n x.cur (modAxis n (fun x => { x with
    cur := stepsDone s n + (toCount pos - c), count := toCount pos, curV := v, plan := q
    pos := (e.map (·.pos)).getD pos, v := (e.map (·.v)).getD v, overshoot := false, short := false }) s)

/-- Homing direction of the present phase. -/
def homeUp (s : State) (n : Nat) (phase : Nat) : Bool :=
  if phase = 2 then axNat s n 0x10 == 1 else axNat s n 0x10 == 0

/-- A search (phases 1 to 3) that a limit already blocks: away from the switch it ends, a search for HOME reverses once, and the
second limit ends the homing (R349). -/
def searchBlocked (n : Nat) (s : State) : State :=
  match (getAxis s n).homing with
  | 1 => modAxis n (fun x => { x with homing := 6 }) s
  | 2 => if axNat s n 0x0F = 1 then modAxis n (fun x => { x with homing := 7, homeReversed := true }) s else s
  | 3 => endHoming n 2 true s
  | _ => s

/-- One interval of homing (R347 to R349). -/
def homingAxis (n : Nat) (s : State) : State :=
  let p := axProf s n
  let x := getAxis s n
  match x.homing with
  | 4 =>
    let goal := cfgInt s (0x3400 + n) 0x12
    if axStill x ∧ x.pos = goal * fxUnit then endHoming n 1 true s
    else if x.pos ≠ goal * fxUnit ∧ blocked s n (decide (x.pos < goal * fxUnit)) then modAxis n (brakeAxis p) s
    else modAxis n (seekAxis p (turnReady s n) goal) s
  | 5 =>
    let s := modAxis n (brakeAxis p) s
    let x := getAxis s n
    if x.v ≠ 0 then s
    else if axFlag s n 4 then modAxis n (fun x => { x with homing := 4, overshoot := false }) s
    else if axStill x then endHoming n 1 true s else s
  | 6 | 7 =>
    let s := modAxis n (brakeAxis p) s
    if (getAxis s n).v = 0 then modAxis n (fun x => { x with homing := x.homing - 4 }) s else s
  | ph =>
    let posi := homeUp s n ph
    let along := decide (0 < x.v) == posi
    if x.v ≠ 0 ∧ !along then modAxis n (brakeAxis p) s
    else if blocked s n posi then searchBlocked n (modAxis n (brakeAxis p) s)
    else if x.v = 0 ∧ !turnReady s n posi then s
    else
      let r := homingStep p (axFx s n 0x11) (if x.v = 0 then p.vStart else (x.v.natAbs : Int))
      modAxis n (moveAlong posi r.1 r.2) s

/-- The direction of an axis's target. -/
def targetUp (x : Axis) : Bool := decide (x.pos < x.target * fxUnit)

/-- ENABLE false: at standstill the axis is de-energised, and its position lost unless a brake holds the load (R342). -/
def restOff (n : Nat) (s : State) : State :=
  let x := getAxis s n
  if axStill x ∧ x.enabled ∧ !bitOf x.ctrl 0 then
    let s := deEnergise n s
    if axFlag s n 3 then s else losePos n 5 s
  else s

/-- One interval of an axis outside any group. -/
def planAxis (n : Nat) (s : State) : State :=
  let x := getAxis s n
  let p := axProf s n
  if x.homing ≠ 0 then homingAxis n s
  else if wantsStop s n then restOff n (modAxis n (brakeAxis p) s)
  else
    let away := decide (x.pos ≠ x.target * fxUnit)
    let block := away && blocked s n (targetUp x)
    let s := modAxis n (fun x => { x with limitStop := block, groupStop := false }) s
    if block then modAxis n (brakeAxis p) s else modAxis n (seekAxis p (turnReady s n) x.target) s

/-! ### Interpolation groups (R358 to R360) -/

/-- The path's own profile: limits lowered for the members, and whether any was (R359). -/
def groupProf (s : State) (g : Nat) (m : List Nat) (path : Int) (delta : List Int) : AxProf × Bool :=
  let fx (sub : Nat) : Int := f32ScaleInt (cfgReal s (0x3480 + g) sub) (2 ^ 32)
  let low (own : Int) (sub : Nat) : Int := (m.zip delta).foldl (fun a e =>
    if e.2 = 0 then a else min a (axFx s e.1 sub * path / ((e.2.natAbs : Int) * fxUnit))) own
  let vs := low (fx 2) 4
  let vm := low (fx 3) 6
  let ac := low (fx 4) 8
  let de := low (fx 5) 9
  (⟨vs, vs, vm, ac, ac, de, de, vs⟩, decide (vs ≠ fx 2 ∨ vm ≠ fx 3 ∨ ac ≠ fx 4 ∨ de ≠ fx 5))

/-- Position of a member at a distance along the path (R359): rounded half away from zero. -/
def memberAt (start delta sd path : Int) : Int :=
  if path = 0 then start
  else
    let n := (delta.natAbs : Int) * sd
    let r := (2 * n + path) / (2 * path)
    if delta < 0 then start - r else start + r

/-- Signed speed of a member of length `d` at a path speed. -/
def memberV (path v d : Int) : Int := if path = 0 then 0 else d.sign * (v * (d.natAbs : Int) * fxUnit / path)

/-- The members stand at a distance along the path. -/
def placeMembers (m : List Nat) (x : AxGroup) (s : State) : State :=
  (m.zip (x.start.zip x.delta)).foldl (fun s e =>
    modAxis e.1 (fun a => { a with
      pos := memberAt e.2.1 e.2.2 x.s x.path * fxUnit, v := memberV x.path x.v e.2.2 }) s) s

/-- A new line from where the members stand to their targets. -/
def newLine (s : State) (m : List Nat) (x : AxGroup) : AxGroup :=
  let start := m.map (fun n => toCount (getAxis s n).pos)
  let delta := m.map (fun n => (getAxis s n).target - toCount (getAxis s n).pos)
  let sum : Nat := (delta.map (fun d => d.natAbs * d.natAbs)).foldl (· + ·) 0
  { moving := decide (sum ≠ 0), path := (natSqrt (sum * 2 ^ 64) : Nat), start := start, delta := delta
    line := x.line + 1, past := x.past, here := x.here, ahead := x.ahead }

/-- One interval of a group. -/
def planGroup (g : Nat) (m : List Nat) (s : State) : State :=
  let x := getAxGroup s g
  let stop := m.any (wantsStop s) || (m.zip x.delta).any (fun e =>
    x.moving && decide (e.2 ≠ 0) && blocked s e.1 (decide (0 < e.2)))
  let moved := x.moving && (m.zip (x.start.zip x.delta)).any (fun e => (getAxis s e.1).target != e.2.1 + e.2.2)
  let (p, _) := groupProf s g m x.path x.delta
  if x.moving then
    if stop || moved || x.retarget then
      let r := rampDown p x.v
      let x' := { x with s := min x.path (x.s + r.1), v := r.2, retarget := moved || x.retarget, stopped := x.stopped || stop }
      let ended := decide (r.2 = 0) || decide (x.path ≤ x.s + r.1)
      let x' := if ended then { x' with moving := false, v := 0 } else x'
      let s := placeMembers m x' (modAxGroup g (fun _ => x') s)
      if stop then forAll m (fun n s => modAxis n (fun a => { a with groupStop := true }) s) s else s
    else
      let r := towardStep p (x.path - x.s) x.v false
      let x' := { x with s := x.s + r.1, v := r.2, moving := decide (r.2 ≠ 0) }
      placeMembers m x' (modAxGroup g (fun _ => x') s)
  else if stop then forAll m restOff s
  else
    let l := newLine s m x
    let held (d : Int) (n : Nat) : Bool := decide (d ≠ 0) && blocked s n (decide (0 < d))
    let block := (m.zip l.delta).any (fun e => held e.2 e.1)
    let turn := (m.zip l.delta).any (fun e => decide (e.2 ≠ 0) && !turnReady s e.1 (decide (0 < e.2)))
    let s := forAll m (fun n s => modAxis n (fun a => { a with limitStop := held (l.delta.getD (m.idxOf n) 0) n }) s) s
    if !l.moving || block then modAxGroup g (fun x => { x with retarget := false }) s
    else if turn then s
    else
      let (p, lim') := groupProf s g m l.path l.delta
      let r := towardStep p l.path p.vStart false
      let l := { l with s := r.1, v := r.2, moving := decide (r.2 ≠ 0), limited := lim' }
      let s := forAll m (fun n s => modAxis n (fun a => { a with groupStop := false }) s) s
      placeMembers m l (modAxGroup g (fun _ => l) s)

/-! ### Release of the plan (R336) -/

/-- Intervals planned ahead: 1 in a single unit, 3 in a pair. -/
def planAhead (s : State) : Nat := if isPairUnit s then 3 else 1

/-- The current an integrated drive applies, mA rms: hold current after `AX_HOLD_DELAY` at standstill, run current else, and
never more than the derated limit (R353; 02 R45). -/
def axCurrent (s : State) (n : Nat) : Nat :=
  min s.mot.derate (axNat s n (if (getAxis s n).holding then 0x18 else 0x17))

/-- The microstep of the four full steps of a turn of the field where an axis stands (R331). -/
def fieldStep (s : State) (n : Nat) : Nat :=
  let c := (getAxis s n).count
  ((if axFlag s n 1 then -c else c) % ((4 * 2 ^ axNat s n 0x16 : Nat) : Int)).toNat

/-- Voltage amplitude of quiet mode, 2^-32 V: U = I_set × AX_COIL_R + AX_BEMF_K × f_full (R355). -/
def quietVolt (s : State) (n : Nat) : Int :=
  (axCurrent s n : Nat) * axFx s n 0x1E / 1000 + axFx s n 0x1F * (axSpeed s n / ((2 ^ axNat s n 0x16 : Nat) : Int)) / fxUnit

/-- What the stage of an axis puts out: each phase of an integrated drive at its microstep setpoint in chopper mode, or the
voltage of quiet mode; step pulses on the others; nothing on an axis that is not energised at its terminals (R352 to R355,
R357). -/
def axStage (s : State) (n : Nat) : AxStage :=
  if !axLive s n then .off
  else if !axIntegrated n then .pulse (axNat s n 0x20) (axNat s n 0x21)
  else if (getAxis s n).quiet then .quiet (axCurrent s n) (quietVolt s n)
  else
    let off := 1000 * axNat s n 0x1A
    let slow := off * axNat s n 0x1C / 8
    let phase := Config.phaseSetpoint (axNat s n 0x16) (fieldStep s n) (axCurrent s n)
    .chopper (axCurrent s n) (phase false) (phase true) off (100 * axNat s n 0x1B) slow (off - slow)

/-- Quiet mode of AX0 and AX1, changed on a full-step boundary only (R355): while energised and no faster than `AX_QUIET_VMAX`;
once that has been exceeded, again below nine tenths of it. -/
def quietNext (s : State) (n : Nat) (old : Int) (x : Axis) : Axis :=
  let ms : Int := (2 ^ axNat s n 0x16 : Nat)
  let vq := axFx s n 0x1D
  let sp : Int := max (x.curV0.natAbs : Int) (x.curV.natAbs : Int)
  let out := decide (vq < sp) || x.quietOut && !decide (10 * sp < 9 * vq)
  let want := axFlag s n 2 && !out
  let edge := x.count % ms = 0 ∨ old / ms ≠ x.count / ms
  if n < 2 ∧ axLive s n then { x with quietOut := out, quiet := if edge then want else x.quiet }
  else { x with quietOut := false, quiet := false }

/-- The interval that starts now is released, and the one planned joins the queue. -/
def releasePlan (n : Nat) (before : Int) (s : State) : State :=
  let x := getAxis s n
  let new : PlanSeg := ⟨toCount x.pos - before, x.pos, x.v, s.now⟩
  let q := x.plan ++ [new]
  let full := decide (planAhead s < q.length)
  let now := if full then (q.headD new).steps else 0
  let v := if full then (q.headD new).v else 0
  let s := modAxis n (fun x => quietNext s n x.count { x with
    plan := if full then q.drop 1 else q, cur := now, curV0 := x.curV, curV := v, count := x.count + now
    holding := x.holding && now == 0
    stillSince := if now = 0 ∧ v = 0 ∧ x.curV = 0 then x.stillSince else s.now + tickNs
    dir := if new.steps = 0 then x.dir else some (decide (0 < new.steps))
    idle := if new.steps = 0 then x.idle + 1 else 0 }) s
  if now ≠ 0 ∧ axLive s n then
    send (.steps n (if axFlag s n 1 then -now else now) (stepOffs now.natAbs) (axStage s n)) s else s

/-- The same of a group's path. -/
def releasePath (g : Nat) (s : State) : State :=
  let full := decide (planAhead s < (getAxGroup s g).ahead.length + 1)
  modAxGroup g (fun x =>
    let q := x.ahead ++ [⟨x.line, x.s, x.v⟩]
    if full then { x with past := x.here, here := q.headD {}, ahead := q.drop 1 } else { x with ahead := q }) s

/-- Nothing moves in this interval: the plan waits, for its commit (R336; 01 R14), or because the unit holds its releases or has
not reached the first of them (16 R397, R401, R402). -/
def planHeld (s : State) (used : List Nat) : Bool :=
  relsHeld s || beforeFirst s || used.any (fun n =>
    match (getAxis s n).plan with
    | [] => false
    | g :: r => decide (planAhead s ≤ r.length + 1)
        && s.pair.held.any (fun h => h.cycle.isNone && decide (h.sentAt < g.at_ + tickNs)))

/-- An interval without release: the axis stands. -/
def pauseAxis (n : Nat) (s : State) : State :=
  modAxis n (fun x => { x with cur := 0, curV0 := 0, curV := 0 }) s

/-- `AX_STATUS` (Table 14.9). -/
def axStatus (s : State) (n : Nat) : Nat :=
  let x := getAxis s n
  let lim := (axSet s n).isSome
  flagWord [(0, axLive s n), (1, x.cur != 0), (2, axUsed s n && axStill x && x.count == x.target),
    (3, x.valid), (4, x.homing != 0), (5, x.homeFailed), (6, lim && limActive s n .limp), (7, lim && limActive s n .limn),
    (8, lim && limActive s n .home), (9, x.limitStop), (10, x.overshoot), (11, x.softLimit), (12, x.targetBad),
    (13, axIntegrated n && decide (s.mot.derate < axNat s n 0x17)), (14, x.quiet), (15, x.driveFault), (16, x.openCoil),
    (17, axRetired s n), (18, inputsInvalid s n), (19, x.supplyOff), (20, x.groupStop), (21, x.homeReversed),
    (22, x.ctrlBad)]

/-- Quality of an axis's points, by item (07 R158). -/
def axQual (s : State) (n item : Nat) : Nat :=
  if axNat s n 1 = 0 then 0x45 else if axRetired s n then 0x43
  else if item = 1 ∧ !(getAxis s n).valid then 0x48 else 0

/-- Actual position and status are produced (Table 14.7, AXIS items 1 and 2). -/
def produceAxis (n : Nat) (s : State) : State :=
  let t := localNow s
  let s := produceAll (inPoints s 3 n 1) (BitVec.ofInt 32 (getAxis s n).count) (axQual s n 1) t s
  produceAll (inPoints s 3 n 2) (BitVec.ofNat 32 (axStatus s n)) (axQual s n 2) t s

/-- One tick of the motion unit, once for each grid instant. While releases are held, motion pauses: no interval is planned
either, so that none is lost (log entry 28). -/
def motionTickState (s : State) : State :=
  let g := gridAt s tickNs
  if !motionUp s || s.mot.lastTick == g then s
  else
    let s := { s with mot := { s.mot with lastTick := g } }
    let used := (List.range 24).filter (axUsed s)
    let inGroup := (axGroups s).flatMap Prod.snd
    let s := if g % (msNs : Nat) = 0 then forAll used produceAxis s else s
    if planHeld s used then forAll used pauseAxis s
    else
      let s := forAll used readInputs s
      let before := used.map (fun n => (n, toCount (getAxis s n).pos))
      let s := forAll (used.filter (fun n => !inGroup.contains n)) planAxis s
      let s := (axGroups s).foldl (fun s gm => releasePath gm.1 (planGroup gm.1 gm.2 s)) s
      before.foldl (fun s e => releasePlan e.1 e.2 s) s

/-- MOTION_TICK (R336). -/
def execMotionTick (t : Nat) (s : State) : Out := .next (motionTickState (advance t s))

/-! ### Commands (R335) -/

def axCommandNow (n : Nat) (data : List Byte) (_ : Nat) (s : State) : Answer × State :=
  let bad (cls num detail : Nat) : Answer × State := (.error ⟨cls, 0x34, num, 0x3400 + n, 0x22, detail⟩, s)
  let c := leVal data
  if s.prog.mode = .stop ∨ (c = 1 ∧ (groupOfAxis s n).isSome) then bad 3 1 s.prog.mode.num
  else if axRetired s n then bad 4 5 0
  else (.ok [], modAxis n (fun x => { x with cmd := c }) s)

/-- A write of `AX_COMMAND`: it acts at the next interval; in ACTIVE once the record that carries it to the standby, which
plans the same, is acknowledged (04 R462). -/
def axCommandOp (n : Nat) (data : List Byte) (m : Nat) (s : State) : Answer × State :=
  if s.pair.state = .active then deferred (0x3400 + n) 0x22 (axCommandNow n) data m s else axCommandNow n data m s

/-- AX_COMMAND_HOME (R335). -/
def execAxCommandHome (t : Nat) (axis : Fin 24) (c : Cmd) (s : State) : Out :=
  .next (rowReq c (0x3400 + axis) 0x22 [1] (axCommandOp axis) (advance t s))
/-- AX_COMMAND_STOP_RAMP (R335). -/
def execAxCommandStopRamp (t : Nat) (axis : Fin 24) (c : Cmd) (s : State) : Out :=
  .next (rowReq c (0x3400 + axis) 0x22 [2] (axCommandOp axis) (advance t s))
/-- AX_COMMAND_STOP_HARD (R335). -/
def execAxCommandStopHard (t : Nat) (axis : Fin 24) (c : Cmd) (s : State) : Out :=
  .next (rowReq c (0x3400 + axis) 0x22 [3] (axCommandOp axis) (advance t s))

/-! ### Limit and home inputs (R344, R348, R349) -/

/-- A stop by a switch's kind: HARD, or RAMP from where the axis is. -/
def switchStop (n : Nat) (positive : Bool) (s : State) : State :=
  if bitOf (axNat s n 0x0E) (if positive then 0 else 1) then hardStopAll n s else rampNow n s

/-- The latch of homing (R348): the count at the first agreeing sample becomes `AX_HOME_POSITION`. -/
def homeLatch (n : Nat) (stepsSince : Int) (s : State) : State :=
  let c := countNow s n
  modAxis n (fun x =>
    shiftAxis (cfgInt s (0x3400 + n) 0x12 + stepsSince - c) { x with latch := c - stepsSince, homing := 5 }) s

/-- The axis moves, or is planned to move, in a direction. -/
def movesToward (x : Axis) (up : Bool) : Bool :=
  let along (v : Int) : Bool := if up then decide (0 < v) else decide (v < 0)
  along x.cur || along x.curV || along x.v || x.plan.any (fun g => along g.steps || along g.v)

/-- A qualified change during homing. -/
def homingInput (n : Nat) (i : LimitInput) (active : Bool) (stepsSince : Int) (s : State) : State :=
  let x := getAxis s n
  let dirUp := axNat s n 0x10 == 1
  match i with
  | .home =>
    if axNat s n 0x0F ≠ 1 then s
    else if x.homing = 1 ∧ !active then modAxis n (fun x => { x with homing := 6 }) s
    else if (x.homing = 2 ∨ x.homing = 3) ∧ active then homeLatch n stepsSince s
    else s
  | i =>
    let up := decide (i = .limp)
    if !active then s
    else if 4 ≤ x.homing then (if movesToward x up then switchStop n up s else s)
    else if axNat s n 0x0F = 2 then
      if x.homing = 2 ∧ up = dirUp then switchStop n up (homeLatch n stepsSince s) else s
    else match x.homing with
      | 1 => if up = dirUp then s else modAxis n (fun x => { x with homing := 6 }) (switchStop n up s)
      | 2 => if up = dirUp then modAxis n (fun x => { x with homing := 7, homeReversed := true }) (switchStop n up s) else s
      | 3 => if up = dirUp then s else endHoming n 2 true (switchStop n up s)
      | _ => s

/-- Braking along a path for a time: distance and path speed after it. -/
def pathRamp (p : AxProf) (path dt : Int) (e : Int × Int) : Int × Int :=
  if e.2 = 0 then e
  else
    let r := rampPart p e.2 dt
    (min path (e.1 + r.1), if path ≤ e.1 + r.1 then 0 else r.2)

/-- Braking along a path through a number of intervals. -/
def pathRamps (p : AxProf) (path : Int) : Nat → Int × Int → List (Int × Int)
  | 0, _ => []
  | k + 1, e => let e' := pathRamp p path 125000 e; e' :: pathRamps p path k e'

/-- The last `k` planned intervals of an axis are dropped, and it stands where those before them end. -/
def cutPlan (k n : Nat) (s : State) : State :=
  modAxis n (fun x =>
    let keep := x.plan.take (x.plan.length - k)
    let c := (keep.getLast?.map (·.pos)).getD (x.count * fxUnit)
    { x with pos := c, v := 0
             plan := keep ++ (x.plan.drop (x.plan.length - k)).map (fun g => { g with steps := 0, pos := c, v := 0 }) }) s

/-- Planned intervals of a member of start `st` and length `d`, through path positions, from a count on. -/
def memberAhead (st d path : Int) : List (PlanSeg × (Int × Int)) → Int → List PlanSeg
  | [], _ => []
  | e :: es, c =>
    let q := memberAt st d e.2.1 path
    let c' := if d < 0 then min c q else max c q
    { e.1 with steps := c' - c, pos := c' * fxUnit, v := memberV path e.2.2 d } :: memberAhead st d path es c'

/-- The plan of a member becomes a RAMP along the path that ends the present interval at `first` and goes on through `rest`. -/
def rampMember (n : Nat) (st d path : Int) (first : Int × Int) (rest : List (Int × Int)) (s : State) : State :=
  let x := getAxis s n
  let c := countNow s n
  let q := memberAt st d first.1 path
  let c' := if d < 0 then min c q else max c q
  let plan := memberAhead st d path (x.plan.zip rest) c'
  let e := plan.getLast?
  tellCut n x.cur (modAxis n (fun x => { x with
    cur := stepsDone s n + (c' - c), count := c', curV := memberV path first.2 d, plan := plan
    pos := (e.map (·.pos)).getD (c' * fxUnit), v := (e.map (·.v)).getD (memberV path first.2 d), groupStop := true }) s)

/-- A RAMP stop of a group that bypasses the plan (R344, R360): along the line from where its members are; a line planned but not
yet begun is dropped. -/
def rampGroup (g : Nat) (m : List Nat) (s : State) : State :=
  let x := getAxGroup s g
  if x.here.line ≠ x.line then
    let k := (x.ahead.filter (fun e => e.line == x.line)).length
    modAxGroup g (fun x => { x with
      moving := false, retarget := false, stopped := true, v := 0, line := x.line + 1 })
      (forAll m (fun n s => modAxis n (fun a => { a with groupStop := true }) (cutPlan k n s)) s)
  else
    let dt := intervalGone s
    let e0 : PathSeg := if x.past.line = x.line then x.past else {}
    let at_ := e0.s + (x.here.s - e0.s) * dt / 125000
    let vNow := if m.all (fun n => decide ((getAxis s n).curV = 0)) then 0
      else if e0.v = 0 then x.here.v else e0.v + (x.here.v - e0.v) * dt / 125000
    let p := (groupProf s g m x.path x.delta).1
    let first := pathRamp p x.path (125000 - dt) (at_, vNow)
    let rest := pathRamps p x.path x.ahead.length first
    let e := rest.getLastD first
    let s := (m.zip (x.start.zip x.delta)).foldl (fun s a => rampMember a.1 a.2.1 a.2.2 x.path first rest s) s
    modAxGroup g (fun x => { x with
      s := e.1, v := e.2, moving := decide (e.2 ≠ 0), stopped := true, here := ⟨x.line, first.1, first.2⟩
      ahead := rest.map (fun r => ⟨x.line, r.1, r.2⟩) }) s

/-- A qualified limit outside homing stops an axis that moves toward it, and its group (R344, R360). -/
def limitReached (n : Nat) (up : Bool) (s : State) : State :=
  if !movesToward (getAxis s n) up then s
  else
    let s := modAxis n (fun x => { x with limitStop := true, heldStop := true }) s
    match groupOfAxis s n with
    | some (g, m) => if bitOf (axNat s n 0x0E) (if up then 0 else 1) then hardStopAll n s else rampGroup g m s
    | none => switchStop n up s

/-- One qualified level. -/
def setLevel (i : LimitInput) (high : Bool) (x : LimitSet) : LimitSet :=
  match i with
  | .limp => { x with limp := high, limpOk := true }
  | .limn => { x with limn := high, limnOk := true }
  | .home => { x with home := high, homeOk := true }

def limitInputState (k : Nat) (i : LimitInput) (high : Bool) (stepsSince : Int) (s : State) : State :=
  if s.pwr.fsaOff || !motionUp s then s
  else
    let users := (List.range 24).filter (fun n => axUsed s n && axSet s n == some k)
    let was := users.map (fun n => (n, limActive s n i))
    let s := { s with mot := { s.mot with sets := Tbl.modify s.mot.sets {} k (setLevel i high) } }
    was.foldl (fun s e =>
      let now := limActive s e.1 i
      if now = e.2 then s
      else if (getAxis s e.1).homing ≠ 0 then homingInput e.1 i now stepsSince s
      else match i with
        | .home => s
        | .limp => if now then limitReached e.1 true s else s
        | .limn => if now then limitReached e.1 false s else s) s

/-- LIMIT_INPUT_QUALIFIED (R344). -/
def execLimitInputQualified (t : Nat) (set : Fin 8) (input : LimitInput) (high : Bool) (stepsSince : Int) (s : State) : Out :=
  .next (limitInputState set input high stepsSince (advance t s))

/-- HOME_TIMEOUT (R349). -/
def execHomeTimeout (t : Nat) (axis : Fin 24) (s : State) : Out :=
  let s := advance t s
  let x := getAxis s axis
  .next (if motionUp s && x.homing != 0 && decide (x.homeStart + axNat s axis 0x13 * secNs ≤ s.now)
    then endHoming axis 3 true s else s)

/-! ### Drives (R353, R356, R340) -/

/-- HOLD_DELAY (R353): hold current; none without a brake loses the position. -/
def execHoldDelay (t : Nat) (axis : Fin 24) (s : State) : Out :=
  let s := advance t s
  let x := getAxis s axis
  .next (if axIntegrated axis && axUsed s axis && x.enabled && axStill x && !x.holding
      && decide (x.stillSince + axNat s axis 0x19 * msNs ≤ s.now) then
    let s := modAxis axis (fun x => { x with holding := true }) s
    let s := if axLive s axis then send (.drive axis (axStage s axis)) s else s
    if axNat s axis 0x18 = 0 ∧ !axFlag s axis 3 then losePos axis 5 s else s
  else s)

/-- Row of Table 14.6, from 1. -/
def faultRow : DriveFaultKind → Nat
  | .overcurrent => 1 | .overtemp => 2 | .openCoil => 3 | .pulseFault => 4

/-- An axis retires: de-energised, its position lost (R356). -/
def retireAxis (n : Nat) (s : State) : State :=
  produceAxis n (losePos n 3 (deEnergise n (listRetired kindAxis n false s)))

def driveFaultState (n : Nat) (k : DriveFaultKind) (s : State) : State :=
  let x := getAxis s n
  let fits := if axIntegrated n then decide (k ≠ .pulseFault) else decide (k = .pulseFault)
  if !(motionUp s && axUsed s n && fits && axLive s n) then s
  else
    let counts := decide (k ≠ .openCoil) && !(axIntegrated n && x.supplyOff)
    let s := losePos n 3 (hardStopAll n (endHoming n 4 true s))
    let s := modAxis n (fun x => { x with
      enabled := false, heldStop := true, quiet := false, quietOut := false, driveFault := true, faultAt := s.now
      openCoil := decide (k = .openCoil), lifetime := sat 32 (x.lifetime + 1)
      faults := if counts then addFault s.now x.faults else x.faults }) s
    let s := emit (0x6000 + faultRow k) (0x3000 + n) [] s
    if counts ∧ 3 ≤ faultCount s.now (getAxis s n).faults then retireAxis n s else s

/-- DRIVE_FAULT (R356). -/
def execDriveFault (t : Nat) (axis : Fin 24) (kind : DriveFaultKind) (s : State) : Out :=
  .next (driveFaultState axis kind (advance t s))

/-- DRIVE_RETRY (R356). -/
def execDriveRetry (t : Nat) (axis : Fin 24) (tempC : Int) (s : State) : Out :=
  let s := advance t s
  let x := getAxis s axis
  .next (if motionUp s ∧ x.driveFault ∧ x.faultAt + 100 * msNs ≤ s.now ∧ tempC < 135 ∧ bitOf (ctrlWord s axis).1 0
      ∧ !axRetired s axis ∧ !x.supplyOff then
    energise axis (modAxis axis (fun x => { x with driveFault := false, openCoil := false }) s) else s)

/-- DRIVE_LINK_SILENCE (R340, code 0x07). -/
def execDriveLinkSilence (t : Nat) (axis : Fin 24) (s : State) : Out :=
  let s := advance t s
  .next (if axUsed s axis && decide ((axProf s axis).vStop < axSpeed s axis) then losePos axis 7 s else s)

/-! ### Supplies, modes of the pair, configuration, start (R340, R341, R346, R351, R352) -/

/-- An integrated drive while MS is outside its range (R351). -/
def msOff (s : State) (n : Nat) : Bool := axIntegrated n && (s.pwr.msOffLow || s.pwr.msOffHigh)

/-- MS is outside its range: the bridges go off, the positions are lost (R351). -/
def driveSupplyLost (s : State) : State :=
  forAll ((List.range 8).filter (axUsed s)) (fun n s =>
    let s := hardStopAll n (endHoming n 4 true s)
    losePos n 4 (modAxis n (fun x => { x with enabled := false, supplyOff := true, heldStop := true, quiet := false, quietOut := false }) s)) s

/-- MS is back: each axis re-energises at the first interval with ENABLE true. -/
def driveSupplyBack (s : State) : State :=
  forAll (List.range 8) (fun n s => modAxis n (fun x => { x with supplyOff := false }) s) s

/-- FSA is off: every limit input must qualify anew (R346). -/
def limitSupplyLost (s : State) : State :=
  { s with mot := { s.mot with sets := (List.range 8).foldl (fun t k =>
      Tbl.modify t {} k (fun x => { x with limpOk := false, limnOk := false, homeOk := false })) s.mot.sets } }

/-- Every axis loses its position for a reset of MOTL (R340, code 0x06). -/
def motionReset (s : State) : State :=
  let s := forAll ((List.range 24).filter (axUsed s)) (fun n s =>
    let s := hardStop n (endHoming n 4 true s)
    losePos n 6 (deEnergise n s)) s
  { s with mot := { s.mot with groups := [] } }

/-- The new active unit goes on from the last committed plan: an axis above v_stop is lost (R352). -/
def motionTakeover (s : State) : State :=
  forAll ((List.range 24).filter (axUsed s)) (fun n s =>
    if (axProf s n).vStop < axSpeed s n then losePos n 9 s else s) s

/-- A new configuration reaches the axes (R330, R331). -/
def applyAxes (old : Tbl (List Byte)) (s : State) : State :=
  let moved (n sub : Nat) : Bool := Tbl.find old (objKey (0x3400 + n) sub) != Tbl.find s.config (objKey (0x3400 + n) sub)
  let s := forAll (List.range 24) (fun n s =>
    if moved n 1 then
      let s := { s with mot := { s.mot with axes := Tbl.modify s.mot.axes {} n (fun x =>
        { faults := x.faults, lifetime := x.lifetime, supplyOff := msOff s n }) } }
      decideQual (inPoints s 3 n 1 ++ inPoints s 3 n 2) (if axNat s n 1 = 0 then 0x45 else 0x46) s
    else if moved n 0x16 ∧ axUsed s n then losePos n 8 s else s) s
  { s with mot := { s.mot with groups := s.mot.groups.filter (fun e => ((axGroups s).map Prod.fst).contains e.1) } }

/-- What the retain store keeps of the axes (R341). -/
def sealAxes (s : State) : State :=
  { s with mot := { s.mot with store := (List.range 24).filterMap (fun n =>
      if axUsed s n then
        let x := getAxis s n
        some (n, (⟨x.count, x.target, axStatus s n, if x.valid then 0 else x.lost, !axStill x⟩ : AxKept))
      else none) } }

/-- The axes at a start (R340, code 0x01): a pulse axis that stood valid resumes after a warm start, and what the retained status
says of past events stands again (R341; log entry 28). -/
def startAxes (warm : Bool) (s : State) : State :=
  let s := { s with mot := { s.mot with groups := [], sets := [], lastTick := 0 } }
  forAll (List.range 24) (fun n s =>
    let old := getAxis s n
    let fresh : Axis := { faults := [], lifetime := old.lifetime, supplyOff := msOff s n }
    let r := if warm then Tbl.find s.mot.store n else none
    let s := { s with mot := { s.mot with axes := Tbl.put s.mot.axes {} n fresh } }
    if !axUsed s n then s
    else match r with
      | none => losePos n 1 (modAxis n (fun x => { x with lost := 0 }) s)
      | some k =>
        let s := modAxis n (fun x => { x with
          count := k.count, pos := k.count * fxUnit, target := k.target, lost := 0, homeFailed := bitOf k.status 5
          limitStop := bitOf k.status 9, groupStop := bitOf k.status 20, homeReversed := bitOf k.status 21 }) s
        if !axIntegrated n && k.lost == 0 && !k.moving then modAxis n (fun x => { x with valid := true, lost := 1 }) s
        else losePos n 1 s) s

end Sys2Proof.Machine
end

