-- ==== Sys2Proof/Machine/SafetyComplex.lean ====
section
/-! DEFINITION. The safety cycle (10 R231 to R254): commit and cycle start, the second pass, the comparator, the tokens
and the output stages that follow them. -/

namespace Sys2Proof.Machine

/-! ### Output stages (R245, R246; 11 R274 to R278) -/

/-- The terminal an output's FEEDBACK names, if any. -/
def soFeedback (s : State) (k : Nat) : Option Nat :=
  let fb := soField s k 1 1
  if fb < 32 then some fb else none

/-- The cause of a stage's latch is gone (11 Table 11.5). -/
def soCauseGone (s : State) (k : Nat) (x : SoStage) : Bool :=
  (!x.external || x.causeGone) && (!x.feedback || match soFeedback s k with
    | some j => agreedBit s j
    | none => true)

/-- SOURCE of an output's records. -/
def soSource (k : Nat) : Nat := 0xB100 + k

/-- The end of each fault of a stage is recorded. -/
def soFaultEnds (k : Nat) (x : SoStage) (s : State) : State :=
  [(1, x.hStuck), (2, x.lStuck), (3, x.overcurrent), (4, x.external), (5, x.feedback)].foldl
    (fun s (e : Nat × Bool) => if e.2 then emit (0x1480 + e.1) (soSource k) [] s else s) s

/-- A stage hears what was committed for it: a committed off counts toward the latch, and on after it clears the latch
whose cause is gone (11 R277). -/
def soCommit (k : Nat) (on : Bool) (s : State) : State :=
  let x := getStage s k
  let clear := x.latched && on && x.offSeen && soCauseGone s k x
  let y := { x with
    committed := on, changedAt := if on = x.committed then x.changedAt else some s.now
    offSeen := (x.offSeen || !on) && x.latched && !clear, latched := x.latched && !clear }
  if clear then
    soFaultEnds k x (modStage k (fun _ => { y with
      hStuck := false, lStuck := false, overcurrent := false, external := false, feedback := false
      causeGone := true }) s)
  else modStage k (fun _ => y) s

/-- A stage applies the vector: on only where nothing holds it off, off at once, a running test giving way (11 R276). -/
def soApply (k : Nat) (s : State) : State :=
  let want := bitOf s.safe.vector (2 * k) && bitOf s.safe.vector (2 * k + 1)
  modStage k (fun x =>
    let on := want && !x.latched && !s.pwr.fsbOff && soField s k 0 1 != 0
    if on then { x with
      commanded := true, hOn := x.hOn || x.testing == 0, lOn := x.lOn || x.testing == 0 }
    else { x with
      commanded := want, hOn := x.hOn && x.hStuck, lOn := x.lOn && x.lStuck, testing := 0
      testDiscarded := x.testDiscarded || x.testing != 0 }) s

/-- Every stage applies the committed vector. -/
def applyVector (s : State) : State := forAll (List.range 8) soApply s

/-- The stages switch all outputs off at once and wait for 16 alternating tokens; the complex stops (R245). -/
def tokenFault (s : State) : State :=
  let (f, s) := draw s
  let s := safetyFault 6 (f % 256) (stagesOff s)
  { s with safe := { s.safe with stageOff := true, goodTokens := 0 } }

/-- A correct token arrives (R245): the vector is applied, or counts toward the return from all-off. -/
def goodToken (tok : Nat) (s : State) : State :=
  let n := s.safe.goodTokens + 1
  let s := { s with safe := { s.safe with lastToken := tok, missed := 0, goodTokens := min 16 n } }
  if s.safe.stageOff then
    if 16 ≤ n then applyVector { s with safe := { s.safe with stageOff := false } } else s
  else applyVector s

def tokenState (tok : Nat) (s : State) : State :=
  if !safetyRuns s || (tok != 0x5A && tok != 0xA5) then s
  else if tok = s.safe.lastToken then tokenFault s
  else goodToken tok s

/-- TOKEN (R245). -/
def execToken (t tok : Nat) (s : State) : Out := .next (tokenState tok (advance t s))

/-- The token that a cycle puts in the place after another's; none before the first. -/
def nextToken (tok : Nat) : Nat := if tok = 0x5A then 0xA5 else if tok = 0xA5 then 0x5A else tok

/-- A token stays out: the alternation goes on with its cycle, so that the next correct token is the one after it (R246). -/
def tokenMissingState (s : State) : State :=
  if !safetyRuns s then s
  else
    let s := emit 0x1600 0 (leBytes 4 s.safe.k) { s with safe := { s.safe with
      misses := (s.safe.misses + 1) % 2 ^ 32, missed := s.safe.missed + 1, goodTokens := 0, lastToken := nextToken s.safe.lastToken
      missHistory := (true :: s.safe.missHistory.drop 1) } }
    if 2 ≤ s.safe.missed then tokenFault s else s

/-- TOKEN_MISSING (R245): the first miss holds the stages, the second in a row switches them off. -/
def execTokenMissing (t : Nat) (s : State) : Out := .next (tokenMissingState (advance t s))

/-! ### Cycle start (R231, R235, R237) -/

/-- Both banks latch their terminals. -/
def latchInputs (s : State) : State :=
  { s with sio := { s.sio with
    terms := s.sio.terms.map (fun (e : Nat × Terminal) => (e.1, { e.2 with latch1 := e.2.bank1, latch2 := e.2.bank2 })) } }

/-- The request points as last committed, by request index. -/
def requestSnapshot (s : State) : Tbl MailWord :=
  ((mapRecs s).map Prod.snd).foldl (fun t (m : MapRec) =>
    if m.kind = 10 ∧ m.isOut then
      (List.range m.count).foldl (fun t j => Tbl.put t {} (m.a + j) (MailWord.post (readPoint s (m.first + j)).value)) t
    else t) []

/-- The vector a bank latched. -/
def bankVector (s : State) (second : Bool) : Nat :=
  (List.range 32).foldl (fun a j =>
    let x := getTerm s j
    if (if second then x.latch2 else x.latch1) then a + 2 ^ j else a) 0

/-- Pass A starts, unless no forme runs or a new configuration waits. -/
def startPassA (s : State) : State :=
  match s.safe.forme with
  | some f =>
    if s.safe.newConfig.isSome then dropPasses s
    else { s with safe := { s.safe with
      passA := startPass s (safetyEntry f) false s.safe.passA, passB := { s.safe.passB with ended := false } } }
  | none => s

/-- A proof window begins: its faults and self-test are forgotten, and the LFSR draws the cycle of the self-test. -/
def windowStart (s : State) : State :=
  if s.safe.k % 16 = 0 then
    let (f, s) := draw s
    { s with safe := { s.safe with windowFault := false, windowTest := false, lfsr := f % 2 ^ 16 } }
  else s

/-- Both banks, the request snapshot and the cycle number are posted; what an evaluation rests on beside them is as it
stands now (R237). -/
def postMailbox (s : State) : State :=
  { s with safe := { s.safe with
    mail1 := .post (BitVec.ofNat 32 (bankVector s false)), mail2 := .post (BitVec.ofNat 32 (bankVector s true))
    requests := requestSnapshot s, mailCycle := .post (BitVec.ofNat 32 s.safe.k)
    seenTerms := s.sio.terms, seenTps := s.sio.tps, seenFsb := s.pwr.fsbOff } }

/-- A safety cycle starts; pass A evaluates on plain data. -/
def cycleStart (mailboxLate : Bool) (s : State) : State :=
  let s := windowStart (latchInputs s)
  let s := { s with safe := { s.safe with
    compared := false, equal := false, cycleAt := s.now
    missHistory := (false :: s.safe.missHistory).take 16
    soAtStart := (List.range 8).foldl (fun t k => Tbl.put t 0 k (soStatus (getStage s k))) [] } }
  let s := startPassA (evaluation (postMailbox s))
  if mailboxLate ∧ s.safe.forme.isSome then
    let (f, s) := draw s
    safetyFault 5 (f % 256) s
  else s

/-! ### Commit (R231, R242, R247, R250) -/

/-- Pass A's vector is due: the SCU found the passes equal and the complex runs. -/
def liveVector (s : State) : Bool :=
  (decide (s.safe.state = .running) || decide (s.safe.state = .starting)) && s.safe.compared && s.safe.equal &&
    s.safe.newConfig.isNone

/-- The vector of this cycle, read from its delay register where it is due; all off otherwise. -/
def vectorDue (s : State) : Nat := if liveVector s then ((delayWord s 0).map BitVec.toNat).getD 0 else 0

/-- STARTING ends at the first commit; SAFE_STOP at the end of a window without a fault and with a passed self-test. -/
def stateAtCommit (s : State) : State :=
  match s.safe.state with
  | .starting => if s.safe.newConfig.isNone then enterSafety .running s else s
  | .safeStop =>
    if s.safe.k % 16 = 15 ∧ s.safe.windowFault = false ∧ s.safe.windowTest = true then enterSafety .running s else s
  | _ => s

/-- Every stage hears what is committed for it. -/
def stagesCommit (v : Nat) (s : State) : State :=
  forAll (List.range 8) (fun k s => soCommit k (bitOf v (2 * k)) s) s

/-- The committed vector and values enter the objects. -/
def noteCommit (v : Nat) (s : State) : State :=
  let st := if s.safe.compared && s.safe.equal then s.safe.passA.status else s.safe.status
  { s with safe := { s.safe with vector := v, agreedDone := s.safe.agreed, cycles := s.safe.k, status := st } }

/-- The token of a cycle (R245). -/
def tokenOf (k : Nat) : Nat := if k % 2 = 0 then 0x5A else 0xA5

/-- The vector, the status values and the token leave the SCU. -/
def commitVector (s : State) : State :=
  let v := vectorDue s
  send (.token (tokenOf s.safe.k) v) (publishStatus (stateAtCommit (noteCommit v (stagesCommit v s))))

/-- A delay register whose read fails (R243). -/
def registerFault (s : State) : State :=
  let (f, s) := draw s
  safetyFault 9 (f % 256) s

def safetyCommitState (mailboxLate : Bool) (s : State) : State :=
  if !safetyRuns s then s
  else if liveVector s && (delayWord s 0).isNone then registerFault s
  else
    let s := showSafety (commitVector s)
    let s := { s with safe := { s.safe with k := s.safe.k + 1 } }
    cycleStart mailboxLate s

/-- SAFETY_COMMIT (R231). -/
def execSafetyCommit (t : Nat) (mailboxLate : Bool) (s : State) : Out :=
  .next (safetyCommitState mailboxLate (advance t s))

/-! ### Pass B (R232, R239) -/

/-- The tag sweep: every coded word checked against the last cycle's tag and re-tagged; at cycle 0 the words carry its own
tag from their initialisation. -/
def tagSweep (k : Nat) (c : Tbl Int) : Option (Tbl Int) :=
  c.mapM (fun (e : Nat × Int) => (decodeInt (k - 1) e.2).map (fun v => (e.1, encodeInt k v)))

/-- Half the cycle has passed on the safety clock, whose oscillator keeps ±100 ppm (R230, R232). -/
def halfPassed (s : State) : Bool := decide (tSafe s / 2 * 9999 ≤ (s.now - s.safe.cycleAt) * 10000)

/-- Pass B evaluates and starts, on coded data swept to this cycle's tag. -/
def startPassB (f : Forme) (s : State) : State :=
  if !mailOk s then safetyFault 5 (coreB s) s
  else match evaluateCoded s with
    | some s => { s with safe := { s.safe with passB := startPass s (safetyEntry f) true s.safe.passB } }
    | none => safetyFault 3 (coreB s) s

/-- Pass B starts at T/2 and not before; pass A is past its end there (Table 10.3). -/
def passBStartState (s : State) : State :=
  let x := s.safe
  match x.forme with
  | some f =>
    if safetyRuns s && halfPassed s && (x.passA.running || x.passA.ended) && !x.passB.running && !x.passB.ended then
      if x.passA.running then safetyFault 4 (coreA s) s
      else match tagSweep x.k x.coded with
        | some c => startPassB f { s with safe := { x with coded := c } }
        | none => safetyFault 3 (coreB s) s
    else s
  | none => s

/-- PASS_B_START (R232). -/
def execPassBStart (t : Nat) (s : State) : Out := .next (passBStartState (advance t s))

def passOverrunState (s : State) : State :=
  if !safetyRuns s then s
  else if s.safe.passB.running then safetyFault 4 (coreB s) s
  else if s.safe.passA.running then safetyFault 4 (coreA s) s
  else s

/-- PASS_OVERRUN (R250). -/
def execPassOverrun (t : Nat) (s : State) : Out := .next (passOverrunState (advance t s))

/-! ### The comparator (R242 to R244) -/

/-- Pass B's output vector and status digest are those of pass A. -/
def resultsEqual (s : State) : Bool :=
  delayWord s 0 == some (BitVec.ofNat 64 (outVector s s.safe.agreedB s.safe.passB.outs)) &&
    delayWord s 1 == some (statusDigest s.safe.passB)

/-- At the end of a window, pass B's proof word is pass A's. -/
def windowsEqual (s : State) : Bool :=
  s.safe.k % 16 != 15 || delayWord s 3 == some s.safe.passB.window

/-- A register the comparison reads fails its check: the results, and the proof word at the end of a window (R243). -/
def registersBad (s : State) : Bool :=
  (delayWord s 0).isNone || (delayWord s 1).isNone || s.safe.k % 16 == 15 && (delayWord s 3).isNone

/-- The self-test of the window, in the cycle the LFSR drew (R244). -/
def selfTest (detected : Bool) (s : State) : State :=
  if s.safe.k % 16 ≠ s.safe.lfsr % 16 ∨ s.safe.state = .safeHalt then s
  else if detected then
    { s with safe := { s.safe with
      injections := (s.safe.injections + 1) % 2 ^ 32, windowTest := true, testTurn := (s.safe.testTurn + 1) % 144 } }
  else
    let (f, s) := draw s
    safetyFault 8 (f % 256) s

/-- The verdict on two passes that have ended. -/
def judge (s : State) : State :=
  let eq := resultsEqual s
  let s' := { s with safe := { s.safe with compared := true, equal := eq } }
  if !eq then let (f, s) := draw s'; safetyFault 1 (f % 256) s
  else if !windowsEqual s then let (f, s) := draw s'; safetyFault 2 (f % 256) s
  else s'

def scuCompareState (upset selfTestDetected : Bool) (s : State) : State :=
  let x := s.safe
  if !safetyRuns s || x.forme.isNone || x.compared then s
  else if x.passA.running then safetyFault 4 (coreA s) s
  else if x.passB.running then safetyFault 4 (coreB s) s
  else if !(x.passA.ended && x.passB.ended) then s
  else if upset || registersBad s then registerFault s
  else selfTest selfTestDetected (judge s)

/-- SCU_COMPARE (R242): `upset` says that a register's word has lost its complement since it was written. -/
def execScuCompare (t : Nat) (upset selfTestDetected : Bool) (s : State) : Out :=
  .next (scuCompareState upset selfTestDetected (advance t s))

/-! ### A new safety configuration (R228, R252, R253) -/

/-- Bytes of the forme object that a store holds. -/
abbrev safetyFormeLen : Nat := 262144

/-- Sub-indices of the RWS objects apart from `SAFETY_FORME`, below it and above it (Tables 10.6, 11.9). -/
def rwsAbove : List Nat := 0x11 :: (List.range 16).map (0x20 + ·) ++ (List.range 8).map (0x30 + ·)
  ++ (List.range 44).map (0x40 + ·)

/-- The seal of a safety configuration (R228). -/
def sealOf (get : Nat → List Byte) (forme : List Byte) : Nat :=
  (crc32 (get 3 ++ forme ++ rwsAbove.flatMap get)).toNat

/-- The seal of the live safety configuration. -/
def liveSeal (s : State) : Nat :=
  sealOf (fun sub => cfgBytes s 0x6000 sub) (Memory.readN s.safe.formeBytes 0 safetyFormeLen)

/-- The forme that the live bytes hold; none while they are all zero. -/
def loadedForme (s : State) : Option Forme :=
  if s.safe.formeBytes.isEmpty then none else some (formeOf (Memory.readN s.safe.formeBytes 0 safetyFormeLen))

/-- The complex starts at cycle 0 on the live safety configuration, its self-test passed. -/
def startSafety (s : State) : State :=
  let f := loadedForme s
  let s := { s with safe := { s.safe with
    forme := f, k := 0, newConfig := none, sealHash := liveSeal s, vector := 0, agreedDone := 0, status := []
    windowFault := false, windowTest := false } }
  let s := enterSafety (if f.isSome then .starting else .noForme) (dropPasses s)
  cycleStart false (publishStatus (startFunctions (reinitSafety s)))

def safetyConfigStartState (s : State) : State :=
  if !safetyRuns s || s.safe.newConfig.isNone then s
  else
    let s := startSafety s
    emit 0x1500 0 (leBytes 4 s.safe.sealHash) s

/-- SAFETY_CONFIG_START (R253). -/
def execSafetyConfigStart (t : Nat) (s : State) : Out := .next (safetyConfigStartState (advance t s))

end Sys2Proof.Machine
end

