-- ==== Sys2Proof/Machine/Prepare.lean ====
section
/-! DEFINITION. What the prepare phase checks of a safety configuration (10 R228, R229; 11 R256, R259, R274, R283). -/

namespace Sys2Proof.Machine

/-- A refusal that names an object of the safety area. -/
def safetyBad (sub : Nat) : Abort := abortAt 2 1 0x6000 sub

/-! ### The safety forme (Table 10.1) -/

/-- Type codes of the safety type set. -/
def safetyTypes : List Nat := [1, 2, 3, 4, 6, 7, 8]

/-- A block call names a configured instance of the block's kind, or an output (11 R258); the descriptor's last field
carries the immediate argument. -/
def safetyCallOk (s : State) (c : CallDesc) : Bool :=
  let f := c.instance_
  if c.target < 0x100 then true
  else if c.target ≤ 0x103 then f < 44 && sfInput s f < 16 && sfKind f == c.target - 0x100
  else if c.target = 0x104 then f < 8 else true

/-- A word of a safety forme passes: its type set, its addresses, its calls, its outputs (10 R229; 11 R258, R274). -/
def safetyWordOk (s : State) (f : Forme) (i : Nat) (w : BitVec 32) : Bool :=
  codeWordOk f true i w &&
    (match wordFmt w with
    | 1 => safetyTypes.contains (wordField w 4 0)
    | 4 =>
      let p := wordField w 17 0
      safetyField p && (wordField w 27 26 != 3 || (safetyWritable p && (p < 0x300 || soField s (p - 0x300) 0 1 == 1)))
    | 6 => wordField w 27 26 == 0 || (match f.calls[wordField w 25 0]? with
      | some c => safetyCallOk s c
      | none => false)
    | _ => true)

/-- Bytes of the safety area that a safety forme needs beyond 512 KiB. -/
def safetyExcess (f : Forme) : Nat := f.size + 3 * f.dataSize + 16384 - 524288

/-- Both passes fit T_safe. -/
def wcetOk (s : State) (f : Forme) : Bool :=
  f.wcetA + 75 * usNs ≤ tSafe s / 2 && f.wcetB + 150 * usNs ≤ tSafe s / 2

/-- The rows of Table 10.1 for the forme that a safety configuration leaves, in order; none has no forme. -/
def verifySafety (s : State) : Option Abort :=
  match loadedForme s with
  | none => none
  | some f =>
    let img := Memory.readN s.safe.formeBytes 0 f.size
    if !signedByProject s (img.take (img.length - 64)) (img.drop (img.length - 64)) then some ⟨5, 0x60, 5, 0x6000, 0x10, 0⟩
    else if !f.headerOk || !f.safety || !f.points.isEmpty || !f.charts.isEmpty then some (safetyBad 0x10)
    else if 0 < safetyExcess f then some ⟨4, 0x60, 2, 0x6000, 0x10, safetyExcess f⟩
    else need (wcetOk s f && f.size ≤ safetyFormeLen && (firstBad f.code (fun i w => !safetyWordOk s f i w)).isNone
        && f.tasks.length == 1 && f.tasks.all (fun d => d.kind != 0 && d.entry < f.code.length)
        && (List.range f.insts.length).all (instOk f) && (wrongWriter f [(0, taskWords f 0)]).isNone
        && f.vars.all (fun v => !v.retained) && f.insts.all (fun i => !i.retained)) (safetyBad 0x10)

/-! ### Safety records (Tables 11.1, 11.2, 11.10 to 11.12) -/

/-- A test-pulse source, or none. -/
def tpOk (v : Nat) : Bool := v < 8 || v == 0xFF

def siRecordOk (s : State) (n : Nat) : Bool :=
  let f (o w : Nat) : Nat := siField s n o w
  let mode := f 0 1
  mode == 0 || (mode ≤ 4 && tpOk (f 1 1) && tpOk (f 2 1) && within (f 3 1) 1 20
    && (mode == 4 || within (f 4 2) 10 3000)
    && (if mode = 2 then f 1 1 == 0xFF && f 2 1 == 0xFF
        else mode == 4 || (f 1 1 < 8 && f 2 1 < 8 && f 1 1 != f 2 1)))

/-- A terminal of a mode-0x04 input. -/
def singleTerminal (s : State) (j : Nat) : Bool := j < 32 && siMode s (j / 2) == 4

def soRecordOk (s : State) (k : Nat) : Bool :=
  let f (o w : Nat) : Nat := soField s k o w
  f 0 1 == 0 || (f 0 1 == 1 && (f 1 1 == 0xFF || singleTerminal s (f 1 1)) && within (f 2 2) 10 1000)

/-- The dual inputs that instance f names. -/
def sfInputs (s : State) (f : Nat) : List Nat :=
  if sfInput s f = 0xFF then [] else if sfKind f = 2 then [sfInput s f, sfField s f 1 1] else [sfInput s f]

/-- Input modes that a kind of instance takes (Table 11.1). -/
def sfModes (kind : Nat) : List Nat := [[1, 2], [1, 2, 3], [3], [2]].getD kind []

/-- The reset of an instance other than two-hand control. -/
def sfResetOk (s : State) (f : Nat) : Bool :=
  let manual := sfKind f == 0
  let src := sfField s f 4 2
  (match sfField s f 2 1 with
    | 1 => singleTerminal s src
    | 2 => !manual && src < 256
    | _ => false) && sfField s f 3 1 ≤ (if manual then 0 else 1)

def sfRecordOk (s : State) (f : Nat) : Bool :=
  let ins := sfInputs s f
  ins.isEmpty || (ins.all (fun n => n < 16 && (sfModes (sfKind f)).contains (siMode s n))
    && ins.eraseDups.length == ins.length
    && !(List.range f).any (fun g => (sfInputs s g).any ins.contains)
    && (if sfKind f = 2 then sfField s f 2 1 == 0 && sfField s f 3 1 == 0 && sfField s f 4 2 == 0 && within (sfField s f 6 2) 100 500
        else sfField s f 1 1 == 0xFF && sfResetOk s f && sfField s f 6 2 ≤ (if sfKind f = 0 then 30000 else 0)))

/-- The first safety record that breaks its table, in ascending sub-index. -/
def badSafetyRecord (s : State) : Option Abort :=
  let first (l : List Nat) (ok : Nat → Bool) (base : Nat) : Option Abort :=
    (l.find? (fun n => !ok n)).map (fun n => safetyBad (base + n))
  ((first (List.range 16) (siRecordOk s) 0x20).or (first (List.range 8) (soRecordOk s) 0x30)).or
    (first (List.range 44) (sfRecordOk s) 0x40)

/-- The checks of prepare over the safety configuration that would result. -/
def checkSafety (s : State) : Option Abort := (verifySafety s).or (badSafetyRecord s)

end Sys2Proof.Machine
end

