-- ==== Sys2Proof/Machine/SafetyIo.lean ====
section
/-! DEFINITION. Safety terminals, test-pulse sources and output stages: the events at their pins (11 R260 to R264,
R274 to R282). Their schedules run on the SAFE oscillator, which the module's own counter does not measure. -/

namespace Sys2Proof.Machine

/-! ### Terminals (R260 to R263) -/

/-- A terminal is blanked now. -/
def blanked (s : State) (j : Nat) : Bool :=
  match (getTerm s j).blankedUntil with
  | some u => decide (s.now < u)
  | none => false

def siAcceptedState (j : Nat) (second high : Bool) (s : State) : State :=
  if !safetyRuns s && s.safe.state != .safeHalt then s
  else if !up s || !domainOn s 5 || blanked s j then s
  else modTerm j (fun x =>
    if second then { x with bank2 := high, darkHeld := false } else { x with bank1 := high, darkHeld := false }) s

/-- SI_ACCEPTED (R260): a capture path accepts a value; none does while its terminal is blanked. -/
def execSiAccepted (t : Nat) (term : Fin 32) (bank : Fin 2) (high : Bool) (s : State) : Out :=
  .next (siAcceptedState term (bank.val == 1) high (advance t s))

/-- The terminals of a source: those of modes 0x01, 0x03 and 0x04 that name it (Table 11.2). -/
def assigned (s : State) (src : Nat) : List Nat :=
  (List.range 32).filter (fun j =>
    let m := siMode s (j / 2)
    (m == 1 || m == 3 || m == 4) && tpSource s j == src)

/-- Unit B of a pair, which holds a source dark until it has taken it over (R281). -/
def tpHeld (s : State) (src : Nat) : Bool := s.pwr.presLow && s.pwr.posB && !(getTp s src).takenOver

/-- The unit drives a source: it is used, JOINED, fed and not overloaded. -/
def tpDriven (s : State) (src : Nat) : Bool :=
  up s && domainOn s 5 && !isSplit s && !s.pwr.fsbOff && !(assigned s src).isEmpty && !(getTp s src).overload &&
    !tpHeld s src

/-- Terminals are blanked from a dark for 0.6 ms. -/
def blankAll (js : List Nat) (s : State) : State :=
  forAll js (fun j s => modTerm j (fun x => { x with blankedUntil := some (s.now + 600 * usNs) }) s) s

/-- Where the safety clock stands after `e` ns of raw counting in this cycle, at most ±100 ppm of it off (R230). -/
def clockWithin (s : State) (due : Nat) : Bool :=
  let e := s.now - s.safe.cycleAt
  let c := s.safe.k * tSafe s + e
  decide (due ≤ c + (e / 10000 + 1)) && decide (c ≤ due + (e / 10000 + 1))

/-- A dark of a source is due: m × T_TP + s × T_TP / 8 on the safety clock (R261). -/
def darkDue (s : State) (src : Nat) : Bool :=
  let p := cfgNat s 0x6000 0x11 * msNs
  let off := src * p / 8
  let c := s.safe.k * tSafe s + (s.now - s.safe.cycleAt)
  let m := (c + p / 2 - off) / p
  p != 0 && decide (off ≤ c + p / 2) && clockWithin s (m * p + off)

/-- A unit drives a source by the schedule of its own safety clock; unit B observes another's darks at any time (R281). -/
def testPulseDarkState (src : Nat) (s : State) : State :=
  if tpDriven s src && darkDue s src || (up s && domainOn s 5 && !isSplit s && tpHeld s src && !(assigned s src).isEmpty) then
    blankAll (assigned s src) (modTp src (fun x => { x with dark := true, darkAt := s.now }) s)
  else s

/-- TEST_PULSE_DARK (R261): unit B blanks at each dark it observes (R281). -/
def execTestPulseDark (t : Nat) (src : Fin 8) (s : State) : Out := .next (testPulseDarkState src (advance t s))

/-- SOURCE of a terminal's records: its dual input. -/
def siSource (j : Nat) : Nat := 0xB000 + j / 2

/-- One terminal's test (R262). -/
def testTerminal (j : Nat) (readsOn : Bool) (s : State) : State :=
  let x := getTerm s j
  if readsOn then
    let s := modTerm j (fun x => { x with testFailed := true, passed := 0, tpFault := x.tpFault || x.testFailed }) s
    if !x.testFailed then emit 0x1301 (siSource j) [] s
    else if !x.tpFault then emit 0x1302 (siSource j) [] s else s
  else
    let n := x.passed + 1
    let s := modTerm j (fun x => { x with testFailed := false, passed := min 16 n, tpFault := x.tpFault && n < 16 }) s
    let s := if x.testFailed then emit 0x1381 (siSource j) [] s else s
    if x.tpFault ∧ 16 ≤ n then emit 0x1382 (siSource j) [] s else s

def testPulseCheckState (src onMask : Nat) (s : State) : State :=
  let x := getTp s src
  if x.dark && decide (s.now < x.darkAt + 600 * usNs) then
    forAll (assigned s src) (fun j s => testTerminal j (bitOf onMask j) s) s
  else s

/-- TEST_PULSE_CHECK (R262): both banks sample the terminals of a dark source. -/
def execTestPulseCheck (t : Nat) (src : Fin 8) (onMask : Nat) (s : State) : Out :=
  .next (testPulseCheckState src onMask (advance t s))

def blankEndState (src : Nat) (s : State) : State :=
  let x := getTp s src
  if x.dark && decide (x.darkAt + 600 * usNs ≤ s.now) then
    forAll (assigned s src) (fun j s => modTerm j (fun y => { y with blankedUntil := none }) s)
      (modTp src (fun x => { x with dark := false }) s)
  else s

/-- BLANK_END (R263): filtering begins afresh, so that a value counts from here on. -/
def execBlankEnd (t : Nat) (src : Fin 8) (s : State) : Out := .next (blankEndState src (advance t s))

/-! ### Overload and takeover of sources (R264, R281) -/

/-- The record of an overload, at most one a minute. -/
def overloadRecord (src : Nat) (s : State) : State :=
  let due := match (getTp s src).overloadRec with
    | some r => decide (r + 60 * secNs ≤ s.now)
    | none => true
  if due then emit 0x1303 (0xB300 + src) [] (modTp src (fun x => { x with overloadRec := some s.now }) s) else s

def tpOverloadState (src : Nat) (s : State) : State :=
  if !tpDriven s src then s
  else overloadRecord src (modTp src (fun x => { x with overload := true, triedAt := s.now, dark := false }) s)

/-- TP_OVERLOAD (R264). -/
def execTpOverload (t : Nat) (src : Fin 8) (s : State) : Out := .next (tpOverloadState src (advance t s))

def tpRetryState (src : Nat) (overloaded : Bool) (s : State) : State :=
  let x := getTp s src
  if !x.overload || s.now < x.triedAt + secNs then s
  else if overloaded then overloadRecord src (modTp src (fun x => { x with triedAt := s.now }) s)
  else emit 0x1383 (0xB300 + src) [] (modTp src (fun x => { x with overload := false }) s)

/-- TP_RETRY (R264). -/
def execTpRetry (t : Nat) (src : Fin 8) (overloaded : Bool) (s : State) : Out :=
  .next (tpRetryState src overloaded (advance t s))

/-- A terminal that a source left dark reads 0 and is at demand until a capture path accepts its level again (R281, log
entry 82). -/
def darkDemand (j : Nat) (s : State) : State :=
  modTerm j (fun x => { x with bank1 := false, bank2 := false, darkHeld := true }) s

/-- The last dark that unit B observed at a source, and its blank, lie more than 2 ms back. -/
def longDark (s : State) (src : Nat) : Bool :=
  !(getTp s src).dark && decide ((getTp s src).darkAt + 2600 * usNs < s.now)

def tpTakeoverState (src : Nat) (s : State) : State :=
  if up s && domainOn s 5 && !isSplit s && tpHeld s src && !(assigned s src).isEmpty &&
      !(assigned s src).any (fun j => blanked s j) && longDark s src then
    forAll (assigned s src) darkDemand (modTp src (fun x => { x with takenOver := true }) s)
  else s

/-- TP_TAKEOVER (R281): unit B drives a source that stayed dark for more than 2 ms outside an observed blank. -/
def execTpTakeover (t : Nat) (src : Fin 8) (s : State) : Out := .next (tpTakeoverState src (advance t s))

/-! ### Output stages (R275 to R278, R282) -/

/-- A fault latches an output off with every switch that still works (R277). -/
def latchOutput (k variant : Nat) (f : SoStage → SoStage) (s : State) : State :=
  let s := modStage k (fun x =>
    let y := f x
    { y with
      latched := true, offSeen := false, hOn := y.hOn && y.hStuck, lOn := y.lOn && y.lStuck
      testDiscarded := y.testDiscarded || y.testing != 0, testing := 0 }) s
  emit (0x1400 + variant) (soSource k) [] s

/-- The stages are fed and in service. -/
def stagesUp (s : State) : Bool := up s && domainOn s 5 && !isSplit s && !s.pwr.fsbOff

def offTestState (k : Nat) (high : Bool) (s : State) : State :=
  let x := getStage s k
  if stagesUp s && x.hOn && x.lOn && x.committed && x.testing == 0 && s.safe.missed == 0 then
    modStage k (fun x => if high then { x with testing := 1, hOn := false } else { x with testing := 2, lOn := false }) s
  else s

/-- OFF_TEST (R275, R276). -/
def execOffTest (t : Nat) (k : Fin 8) (high : Bool) (s : State) : Out := .next (offTestState k high (advance t s))

/-- The switch under test goes on again. -/
def endPulse (discarded : Bool) (x : SoStage) : SoStage :=
  { x with hOn := x.hOn || x.testing == 1, lOn := x.lOn || x.testing == 2, testing := 0, testDiscarded := discarded }

def offTestEndState (k : Nat) (reached chainClosed : Bool) (s : State) : State :=
  let x := getStage s k
  if x.testing = 0 then s
  else if s.pwr.presLow && !chainClosed then modStage k (endPulse true) s
  else if reached then modStage k (endPulse false) s
  else if x.testing = 1 then
    latchOutput k 1 (fun x => { x with hStuck := true, hOn := true, testing := 0, testDiscarded := false }) s
  else latchOutput k 2 (fun x => { x with lStuck := true, lOn := true, testing := 0, testDiscarded := false }) s

/-- OFF_TEST_END (R275, R282). -/
def execOffTestEnd (t : Nat) (k : Fin 8) (reached chainClosed : Bool) (s : State) : Out :=
  .next (offTestEndState k reached chainClosed (advance t s))

/-- SO_OVERCURRENT (R277). -/
def execSoOvercurrent (t : Nat) (k : Fin 8) (s : State) : Out :=
  let s := advance t s
  .next (if stagesUp s && ((getStage s k).hOn || (getStage s k).lOn) && !(getStage s k).overcurrent then
    latchOutput k 3 (fun x => { x with overcurrent := true }) s else s)

def soExternalDriveState (k : Nat) (present : Bool) (s : State) : State :=
  let x := getStage s k
  if !stagesUp s || (s.pwr.presLow && !s.pwr.posB) then s
  else if present then
    if x.hOn && x.lOn || x.testing != 0 then s
    else if x.external then modStage k (fun x => { x with causeGone := false }) s
    else latchOutput k 4 (fun x => { x with external := true, causeGone := false }) s
  else modStage k (fun x => { x with causeGone := true }) s

/-- SO_EXTERNAL_DRIVE (R275, R282): unit A of a pair makes no off-state check. -/
def execSoExternalDrive (t : Nat) (k : Fin 8) (present : Bool) (s : State) : Out :=
  .next (soExternalDriveState k present (advance t s))

/-- The feedback of an output has not followed what was committed (R278). -/
def feedbackWrong (s : State) (k : Nat) : Bool :=
  let x := getStage s k
  match soFeedback s k, x.changedAt with
  | some j, some c => decide (c + soField s k 2 2 * msNs ≤ s.now) && agreedBit s j == x.committed
  | _, _ => false

/-- FEEDBACK_TIMEOUT (R278). -/
def execFeedbackTimeout (t : Nat) (k : Fin 8) (s : State) : Out :=
  let s := advance t s
  .next (if stagesUp s && soField s k 0 1 != 0 && feedbackWrong s k && !(getStage s k).feedback then
    latchOutput k 5 (fun x => { x with feedback := true }) s else s)

end Sys2Proof.Machine
end

