-- ==== Sys2Proof/Machine/Slots.lean ====
section
/-! DEFINITION. The firing of scheduler slots and what it does to their targets (06 R146 to R149; 07 R163 to R165). -/

namespace Sys2Proof.Machine

/-- The event reaches its target: in HOLD only loops take one, and a forced DO takes none (R149, 07 R168). -/
def slotWithheld (s : State) (r : SlotRec) : Bool :=
  (decide (s.prog.mode = .hold) && r.kind != 4) || (r.isDo && doForced s r.target)

/-- What a firing does: a DO keeps the level its edge gave it (07 R164), a loop samples, an event task is released. A
retired or unowned target ignores it (07 R165). -/
def slotAct (r : SlotRec) (fireAt : Int) (s : State) : State :=
  if r.isDo then
    if slotDoOpen s r.target && r.kind != 3 then modDio r.target (fun x => { x with edgeLevel := some (r.kind == 1) }) s
    else s
  else if r.kind = 4 then cadenceSample r.target fireAt s
  else if r.kind = 5 then triggerTask (32 + r.target) fireAt s
  else s

/-- A slot whose time has come, locked before or at this instant: it fires, or is withheld; a periodic one rests until it re-arms (R146). -/
def slotFireState (n : Nat) (s : State) : State :=
  let s := if cadenceUp s && decide ((getSched s n).state = 1) then scanSlot n s else s
  let r := slotRec s n
  let x := getSched s n
  if !cadenceUp s || x.state ≠ 2 || decide (localNow s < x.fireAt) then s
  else if s.prog.mode = .stop ∧ r.kind ≠ 4 then modSched n (fun x => { x with state := 1 }) s
  else
    let held := slotWithheld s r
    let turned := x.revDue || decide ((!f32Lt (speedAt s r.tracker (localNow s)) 0) ≠ x.forward)
    let s := modSched n (fun x => { restFrom s r x with
      late := x.lateDue, missed := false, withheld := held, reversed := turned
      count := if held then x.count else (x.count + 1) % 2 ^ 16 }) s
    if held then s else slotAct r x.fireAt s

/-- SLOT_FIRE (R147). -/
def execSlotFire (t : Nat) (n : Fin 256) (s : State) : Out := .next (slotFireState n (advance t s))

end Sys2Proof.Machine
end

