-- ==== Sys2Proof/Machine/Apply.lean ====
section
/-! DEFINITION. A new configuration takes effect whole: every subsystem takes the objects that changed (04 R89; 07 R161;
05 R463; 06 R146; 12 R286). -/

namespace Sys2Proof.Machine

/-- Bytes an object had in an older configuration. -/
def oldBytes (old : Tbl (List Byte)) (idx sub : Nat) : List Byte :=
  (Tbl.find old (objKey idx sub)).getD (defaultBytes idx sub)

/-- An object differs between an older configuration and the live one. -/
def moved (old : Tbl (List Byte)) (s : State) (idx sub : Nat) : Bool := oldBytes old idx sub != cfgBytes s idx sub

/-- Trackers whose mode, source, quanta or Z use changed begin anew (06 R141); a commit ends ANGLE_UNREFERENCED (06
R144). -/
def applyTrackers (old : Tbl (List Byte)) (s : State) : State :=
  forAll (List.range 8) (fun n s =>
    if [1, 2, 3, 4].any (moved old s (0x3800 + n)) then startTracker n s
    else if (getTracker s n).unref then modTracker n (fun x => { x with unref := false }) s else s) s

/-- Slots whose record a transaction holds are armed (06 R146). -/
def armStaged (objs : Tbl (List Byte)) (s : State) : State :=
  forAll (List.range 256) (fun n s => if (Tbl.find objs (objKey 0x3880 (n / 2 + 1))).isSome then armSlot n s else s) s

/-- Slots whose record changed are armed (06 R146). -/
def applySlots (old : Tbl (List Byte)) (s : State) : State :=
  forAll (List.range 256) (fun n s =>
    let was := slotRecOf ((oldBytes old 0x3880 (n / 2 + 1)).drop (16 * (n % 2)))
    if was = slotRec s n then s else armSlot n s) s

/-- Banks are sent the words the new configuration gives them (12 R286). Where they are those expected already, a commit is owed
only to a BIC that runs another configuration. -/
def applyBanks (s : State) : State :=
  forAll (List.range 8) (fun b s =>
    let ws := bankWords s b
    modBank b (fun x =>
      { x with
        sending := ws, cfgSent := if x.sending = ws then x.cfgSent else 0
        commitDue := wordsCrc x.expected != wordsCrc ws || wordsCrc x.active != wordsCrc ws }) s) s

/-- The words of an accepted configuration go to the banks ahead of its boundary (12 R286); to a bank that still owes the commit
of the present one they go from the boundary on, so that it commits none of them early. -/
def announceBanks (c : Tbl (List Byte)) (s : State) : State :=
  forAll (List.range 8) (fun b s =>
    let ws := bankWords { s with config := c } b
    modBank b (fun x => if x.commitDue ∨ x.sending = ws then x else { x with sending := ws, cfgSent := 0 }) s) s

/-- The source of a point is on the retirement list (07 R158). -/
def sourceRetired (s : State) (p : Nat) : Bool :=
  match producerIn (mapRecs s) p with
  | some (_, m) => match m.kind with
    | 1 => isRetired s kindDio (m.a + (p - m.first)) || isRetired s kindLink ((m.a + (p - m.first)) / 12)
    | 2 => isRetired s kindAio (m.a + (p - m.first))
    | 3 => isRetired s kindAxis m.a
    | _ => false
  | none => false

/-- A point's channel has no field supply, by the frame last landed. -/
def sourceUnfed (s : State) (p : Nat) : Bool :=
  match producerIn (mapRecs s) p with
  | some (_, m) => match m.kind with
    | 1 => (getDio s (m.a + (p - m.first))).landedQual == 0x44
    | 2 => (getAio s (m.a + (p - m.first))).landedQual == 0x44
    | _ => false
  | none => false

/-- The node a point comes from is lost, or the module is in an address conflict (05 R105, R119). -/
def sourceLost (s : State) (p : Nat) : Bool :=
  match producerIn (mapRecs s) p with
  | some (_, m) => m.kind == 5 && (s.ring.conflict.isSome ||
      (nodeRecs s).any (fun e => e.2.node == m.a && decide ((getNode s e.1).state = .lost)))
  | none => false

/-- The conditions of a point's source that last, apart from what its producer writes (R158). -/
def standing (s : State) (p : Nat) : List Nat :=
  (if producerOwner s p = .none ∨ splitRequest s p = true then [0x45] else []) ++ (if sourceRetired s p then [0x43] else [])
    ++ (if sourceUnfed s p then [0x44] else []) ++ (if sourceLost s p then [0x42] else [])

/-- The quality a point has once a new configuration stands: the first condition that lasts, BAD_NO_VALUE where the source
has gained an owner or come back into service, else what it has (R158, R161). -/
def standingQual (s : State) (p : Nat) : Nat :=
  let q := (underlying s p).qual
  match standing s p with
  | [] => if q = 0x45 ∨ q = 0x43 then 0x46 else q
  | qs => rankQual qs

/-- The points whose quality the safety complex does not decide (10 R248). -/
def plainPoints (s : State) : List Nat :=
  (((mapRecs s).map Prod.snd).filter (fun m => m.kind != 9)).flatMap MapRec.points

/-- Every point takes the quality that lasts under the new configuration; a request point of a module in SPLIT has value 0
(R158, R161; 10 R226). -/
def applyUnowned (s : State) : State :=
  let ps := (plainPoints s).filter (fun p => standingQual s p != (underlying s p).qual)
  ps.foldl (fun s p =>
    produce p (if splitRequest s p then 0 else (underlying s p).value) (standingQual s p) (localNow s) s) s

/-- Status points that no commit of the safety complex writes take their entries at the boundary (10 R226, R248). -/
def applyStatus (s : State) : State :=
  match s.safe.state with
  | .running | .safeStop => s
  | _ => publishStatus s

/-- The configuration `c` takes the place of the live one, and of a record in flash that the start refused. -/
def adoptConfig (c : Tbl (List Byte)) (s : State) : State :=
  let old := s.config
  let oldMap := mapRecs s
  let oldNodes := nodeRecs s
  let s := { s with config := c, sess := { s.sess with refused := none } }
  let s := applyNodeTable oldNodes (applyMapping oldMap s)
  let s := applySlots old (applyTrackers old (applyTimeRank s))
  let s := forAll (List.range 8) (applyCan old) s
  applyStatus (applyUnowned (applyBanks (applyAxes old (applyAio old (applyLoops old s)))))

end Sys2Proof.Machine
end

