-- ==== Sys2Proof/Machine/Recorder.lean ====
section
/-! DEFINITION. The Colophon recorder and the management sensors: RECORD_WRITE, BANK_RESYNC_COMPLETE,
RECORDER_SNAPSHOT, SENSOR_SAMPLE, HUMIDITY_LIMIT_EXCEEDED and COUNTER_MIRROR (17; 03 R57). -/

namespace Sys2Proof.Machine

/-! ### Records and banks (R410, R411, R413) -/

/-- Ring slots of a bank. -/
abbrev ringSlots : Nat := 32512

/-- The sequence number after one: it never passes 0 (R411). -/
def nextSeq (n : Nat) : Nat := if n = 0xFFFFFFFF then 1 else n + 1

/-- The 32 bytes of a record (Table 17.1); one that was not fully written still has its SEQUENCE at 0 (R414). -/
def recBytes (r : Rec) : List Byte :=
  let body (seq : Nat) : List Byte := leBytes 4 seq ++ leBytes 5 r.opTime ++ leBytes 3 r.cycles ++ leBytes 2 r.code
    ++ leBytes 2 r.source ++ leInt 8 r.net ++ recData r.data
  body (if r.ok then r.seq else 0) ++ leBytes 2 (crc16 (body r.seq)).toNat

/-- A bank takes a record: its ring slot, and the first-occurrence slot of its class if it is the `first` ever written of it
(R413). A slot that fails its read-back twice takes the bank out of use (R419). -/
def bankTake (r : Rec) (first good : Bool) (b : RecBank) : RecBank :=
  if !b.ok then b
  else if good then
    { b with ring := Tbl.insert b.ring (r.seq % ringSlots) r
             firsts := if first then Tbl.insert b.firsts (r.code / 256) r else b.firsts }
  else { b with ring := Tbl.insert b.ring (r.seq % ringSlots) { r with ok := false }, ok := false, sticky := true }

/-- AON time of a queued event, from its operating time. -/
def aonOf (s : State) (q : QRec) : Nat := aonTime s - (opTime s - q.opTime)

/-- A bank fault is recorded in the surviving bank (R419); a running copy that needed the bank ends. -/
def bankFault (b : Nat) (s : State) : State :=
  emit 0xA001 (0xE000 + b) (leBytes 4 s.recd.newest) { s with recd := { s.recd with resync := none } }

/-- A record is written to bank 0 and then to bank 1, or to the last-gasp ring when no bank takes it (R414, R419, R421). -/
def writeRec (q : QRec) (ok0 ok1 : Bool) (s : State) : State :=
  let seq := nextSeq s.recd.newest
  let r : Rec := ⟨seq, q.opTime, q.cycles, q.code, q.source, q.net, q.data, true⟩
  let first := (Tbl.find s.recd.bank0.firsts (q.code / 256)).isNone && (Tbl.find s.recd.bank1.firsts (q.code / 256)).isNone
  let kept := (s.recd.bank0.ok && ok0) || (s.recd.bank1.ok && ok1)
  let f0 := s.recd.bank0.ok && !ok0
  let f1 := s.recd.bank1.ok && !ok1
  let s := { s with recd := { s.recd with bank0 := bankTake r first ok0 s.recd.bank0, bank1 := bankTake r first ok1 s.recd.bank1 } }
  let s := if kept then
      { s with recd := { s.recd with
        newest := seq, wrapped := s.recd.wrapped || decide (seq < s.recd.newest), sinceStart := sat 32 (s.recd.sinceStart + 1) } }
    else { s with recd := { s.recd with gasp := gaspPush ⟨aonOf s q, q.code, q.source, q.data⟩ s.recd.gasp } }
  let s := if f0 then bankFault 0 s else s
  if f1 then bankFault 1 s else s

/-- The start record waits until the start kind is decided at the 1,400 ms step (R415; 03 Table 3.6). -/
def startUndecided (s : State) (q : QRec) : Bool :=
  q.code / 256 == 1 && decide (s.now < s.pwr.startedAt + 1400 * msNs)

def recordWriteState (ok0 ok1 : Bool) (s : State) : State :=
  if !(up s && domainOn s 3) then s
  else match s.recd.queue with
    | [] => s
    | q :: rest => if startUndecided s q then s else writeRec q ok0 ok1 { s with recd := { s.recd with queue := rest } }

/-- RECORD_WRITE (R414). -/
def execRecordWrite (t : Nat) (ok0 ok1 : Bool) (s : State) : Out := .next (recordWriteState ok0 ok1 (advance t s))

def resyncCompleteState (s : State) : State :=
  if !up s then s
  else match s.recd.resync with
    | none => s
    | some b =>
      let r := s.recd
      let r := if b = 0 then { r with bank0 := { r.bank0 with ring := r.bank1.ring, firsts := r.bank1.firsts, sticky := false } }
        else { r with bank1 := { r.bank1 with ring := r.bank0.ring, firsts := r.bank0.firsts, sticky := false } }
      emit 0xA002 (0xE000 + b) (leBytes 4 r.newest) { s with recd := { r with resync := none } }

/-- BANK_RESYNC_COMPLETE (R420). -/
def execBankResyncComplete (t : Nat) (s : State) : Out := .next (resyncCompleteState (advance t s))

/-! ### Reading (R417, R418) -/

/-- A bank serves reads: it is in use, and no copy into it is running. -/
def bankServes (r : Recorder) (b : Nat) : Bool :=
  (if b = 0 then r.bank0.ok else r.bank1.ok) && r.resync != some b

/-- The record a read of a slot returns: bank 0's, or bank 1's where that one fails or bank 0 does not serve. -/
def servedRec (r : Recorder) (pick : RecBank → Tbl Rec) (slot : Nat) : Option Rec :=
  let a := if bankServes r 0 then Tbl.find (pick r.bank0) slot else none
  match a with
  | some x => if x.ok || !bankServes r 1 then some x else (match Tbl.find (pick r.bank1) slot with
    | some y => some y
    | none => some x)
  | none => if bankServes r 1 then Tbl.find (pick r.bank1) slot else none

/-- The bytes of a slot, zeros while it is unwritten. -/
def slotBytes (r : Recorder) (pick : RecBank → Tbl Rec) (slot : Nat) : List Byte :=
  match servedRec r pick slot with
  | some x => recBytes x
  | none => List.replicate 32 0

/-- OLDEST of Table 17.4, counted over the wrap of R411; before the first record the manual gives none, and it is the
value `free`. -/
def oldestSeq (r : Recorder) (free : Nat) : Nat :=
  if r.newest = 0 then free % 2 ^ 32
  else if r.wrapped then (r.newest - 1 + 0xFFFFFFFF - (ringSlots - 1)) % 0xFFFFFFFF + 1
  else r.newest - min (ringSlots - 1) (r.newest - 1)

/-- First-occurrence slots written. -/
def firstFilled (r : Recorder) : Nat := ((List.range 256).filter (fun c => (servedRec r RecBank.firsts c).isSome)).length

/-- RECORDER_SNAPSHOT's result (Table 17.4). -/
def snapshotBytes (r : Recorder) (free : Nat) : List Byte :=
  leBytes 4 r.newest ++ leBytes 4 (oldestSeq r free) ++ leBytes 4 r.sinceStart ++ leBytes 2 (recHealth r) ++ leBytes 2 (firstFilled r)

/-- An invocation of RECORDER_SNAPSHOT. -/
def snapshotOp (data : List Byte) (n : Nat) (s : State) : Answer × State :=
  if fieldAt data 0 1 ≠ 1 then (.error ⟨2, 0xA0, 1, 0xF005, 1, 0⟩, s)
  else
    let (f, s) := if s.recd.newest = 0 then draw s else (0, s)
    cmdNow 5 n (snapshotBytes s.recd f) s

/-- RECORDER_SNAPSHOT (R418). -/
def execRecorderSnapshot (t : Nat) (c : Cmd) (s : State) : Out := .next (rowReq c 0xF005 1 [] snapshotOp (advance t s))

/-! ### Counters (03 R57) -/

/-- The counters as they stand enter the flash mirror, and with them the suppressed records of every class (17 R416). -/
def mirrorCounters (s : State) : State :=
  { s with pwr := { s.pwr with mirror := (aonTime s, opTime s, s.pwr.cycles) }
           recd := { s.recd with totals := s.recd.buckets.map (fun (e : Nat × Bucket) => (e.1, e.2.total)) } }

/-- COUNTER_MIRROR (03 R57). -/
def execCounterMirror (t : Nat) (s : State) : Out :=
  let s := advance t s
  .next (if up s then mirrorCounters s else s)

/-! ### Sensors (R424) -/

/-- The supercapacitor's state at a voltage: low below 2.4 V, no longer low above 2.6 V (03 R57). -/
def takeSupercap (mv : Nat) (s : State) : State :=
  let low := if mv < 2400 then true else if 2600 < mv then false else s.pwr.supercapLow
  let was := s.pwr.supercapLow
  let s := { s with pwr := { s.pwr with supercap := mv, supercapLow := low } }
  if low && !was then emit 0x0702 0xC000 (leBytes 2 mv) s
  else if was && !low then emit 0x0782 0xC000 (leBytes 2 mv) s else s

/-- A condition is recorded when it begins, and its end with bit 7 of the variant set (R412). -/
def condRecord (was is : Bool) (code src : Nat) (data : List Byte) (s : State) : State :=
  if is && !was then emit code src data s else if was && !is then emit (code + 0x80) src data s else s

/-- A sensor's raw value, corrected by the factory record (R424): points 0 to 7 temperature, 0x10 on rails, 0x30 on
supplies, 0x40 humidity, 0x50 on acceleration, 0x60 supercapacitor. -/
def corrected (point : Nat) (v : Nat) : Nat := (Config.sensorCorrect point v).toNat

/-- Readings with the factory correction, in the order of Table 17.7. -/
def correctAll (r : Readings) : Readings :=
  let at_ (l : List Nat) (base n : Nat) : List Nat := (List.range n).map (fun i => corrected (base + i) (l.getD i 0))
  { temps := (List.range 8).map (fun i => Config.sensorCorrect i (r.temps.getD i 0))
    rails := at_ r.rails 0x10 18, supplies := at_ r.supplies 0x30 10, humidity := corrected 0x40 r.humidity
    accel := at_ r.accel 0x50 6, supercap := corrected 0x60 r.supercap }

/-- The inlet temperature's run current, mA rms (02 Table 2.15); above the table's last row the manual gives no value, and
it is a free one. -/
def derateAt (tenths : Int) (free : Nat) : Nat :=
  if tenths ≤ 550 then 1500 else if tenths ≤ 700 then 1500 - 4 * (tenths - 550).toNat else free

/-- A rail lies more than 5 % off its nominal voltage. -/
def railOff (r mv : Nat) : Bool :=
  let n := Config.railNominal r
  decide (100 * mv < 95 * n) || decide (105 * n < 100 * mv)

/-- A rail is recorded once it has been off for 10 ms. -/
def takeRail (r mv : Nat) (s : State) : State :=
  let put (o : Option (Nat × Bool)) (s : State) : State :=
    { s with mgmt := { s.mgmt with railsOut := match o with
        | some x => Tbl.insert s.mgmt.railsOut r x
        | none => Tbl.erase s.mgmt.railsOut r } }
  let d := leBytes 2 mv
  match Tbl.find s.mgmt.railsOut r, railOff r mv with
  | none, true => put (some (s.now, false)) s
  | some (since, false), true =>
    if since + 10 * msNs ≤ s.now then emit (0x0900 + r) (0xD010 + r) d (put (some (since, true)) s) else s
  | some (_, true), false => emit (0x0980 + r) (0xD010 + r) d (put none s)
  | some (_, false), false => put none s
  | _, _ => s

/-- Humidity counts toward its limit from the first sample above it (Table 17.7). -/
def takeHumidity (h : Nat) (s : State) : State :=
  if cfgNat s 0xB000 8 < h then
    { s with mgmt := { s.mgmt with humidSince := some (s.mgmt.humidSince.getD s.now) } }
  else
    let done := s.mgmt.humidDone
    let s := { s with mgmt := { s.mgmt with humidSince := none, humidDone := false } }
    if done then emit 0xB381 0xD040 (leBytes 2 h) s else s

/-- A peak above `SHOCK_LEVEL` is recorded at most once per 10 s. -/
def takeShock (peaks : List Nat) (s : State) : State :=
  let peak := peaks.foldl max 0
  let s := { s with mgmt := { s.mgmt with peaks := (List.range 3).map (fun i => max (s.mgmt.peaks.getD i 0) (peaks.getD i 0)) } }
  let ready := match s.mgmt.shockAt with
    | some t => decide (t + 10 * secNs ≤ s.now)
    | none => true
  if decide (cfgNat s 0xB000 7 < peak) && ready then
    emit 0xB302 0xD050 (leBytes 2 peak) { s with mgmt := { s.mgmt with shockAt := some s.now } }
  else s

/-- The temperatures drive OVERTEMP, the derating and their records. -/
def takeTemps (s : State) : State :=
  let t := fun i => s.mgmt.readings.temps.getD i 0
  let (f, s) := if 700 < t 0 then draw s else (0, s)
  let dieHot := decide (1100 < t 1)
  let inletHot := decide (700 < t 0)
  let was := s.mgmt
  let s := { s with mgmt := { s.mgmt with dieHot := dieHot, inletHot := inletHot }
                    mot := { s.mot with derate := derateAt (t 0) f } }
  condRecord was.inletHot inletHot 0x0802 0xD000 (leInt 2 (t 0)) (condRecord was.dieHot dieHot 0x0801 0xD001 (leInt 2 (t 1)) s)

def sensorSampleState (raw : Readings) (s : State) : State :=
  if !up s then s
  else
    let r := correctAll raw
    let s := takeTemps { s with mgmt := { s.mgmt with readings := r } }
    let s := forAll (List.range 18) (fun i s => takeRail i (r.rails.getD i 0) s) s
    takeSupercap r.supercap (takeShock (r.accel.drop 3) (takeHumidity r.humidity s))

/-- SENSOR_SAMPLE (R424). -/
def execSensorSample (t : Nat) (r : Readings) (s : State) : Out := .next (sensorSampleState r (advance t s))

def humidityState (s : State) : State :=
  match s.mgmt.humidSince with
  | some t0 =>
    if up s && !s.mgmt.humidDone && decide (t0 + 60 * secNs ≤ s.now) then
      emit 0xB301 0xD040 (leBytes 2 s.mgmt.readings.humidity) { s with mgmt := { s.mgmt with humidDone := true } }
    else s
  | none => s

/-- HUMIDITY_LIMIT_EXCEEDED (R424). -/
def execHumidityLimitExceeded (t : Nat) (s : State) : Out := .next (humidityState (advance t s))

end Sys2Proof.Machine
end

