-- ==== Sys2Proof/Machine/Restart.lean ====
section
/-! DEFINITION. Going down: the retain store, the power-fail record, and the module losing its logic power or resetting
(01 R14, R19; 03 R60 to R67; 17 R414). -/

namespace Sys2Proof.Machine

/-! ### The retain store (01 R14; 03 R60, R64) -/

/-- Records acknowledged and not yet stored are stored as the module goes down: its own cycles of their tasks are lost (01
R17). -/
def storeAll (s : State) : State := forAll (s.pair.recs.map Prod.fst) storeRec s

/-- What was last committed becomes the content of the retain store; before the first commit it stays as it is (R65). -/
def storeRetain (s : State) : State :=
  let s := storeAll s
  match s.prog.sealed with
  | none => s
  | some clk =>
    let u := unswapped s
    sealAxes { s with
      prog := { s.prog with store := Memory.norm u.ret, storeInst := Memory.norm u.inst, storeBlocks := u.blocks, storeClock := clk }
      eng := { s.eng with store := s.eng.shadow } }

/-- Bytes of a store as numbers. -/
def memNats (m : Memory) : List Nat := m.length :: m.flatMap (fun e => [e.1, e.2.toNat])

/-- The content of the retain store as numbers, for the layout the manual does not give. -/
def retainNats (s : State) : List Nat :=
  let p := s.prog
  memNats p.store ++ memNats p.storeInst
    ++ p.storeBlocks.flatMap (fun (e : Nat × BlockInst) => e.1 :: blockNats e.2)
    ++ [intNat p.storeClock]
    ++ s.eng.store.flatMap (fun (e : Nat × Loop) => e.1 :: (loopBytes e.2).map BitVec.toNat)
    ++ s.mot.store.flatMap (fun (e : Nat × AxKept) =>
        [e.1, intNat e.2.count, intNat e.2.target, e.2.status, e.2.lost, flagBit 0 e.2.moving])

/-- CRC-32 of the retain store. -/
def retainCrc (s : State) : Nat := (crc32 (Config.retainLayout (retainNats s))).toNat

/-- Bytes of the retained area in use: the forme's, and the loops' and axes' (09 R221; 14 R341). -/
def retainUsed (s : State) : Nat := ((s.prog.forme.map Forme.retainSize).getD 0) + retainedOther s.config

/-- The identity of the active forme, 0 for none. -/
def formeId (s : State) : Nat := (s.prog.forme.map Forme.id).getD 0

/-- The identity of the forme that a restart loads: the old one until a swap is committed (08 R193). -/
def committedFormeId (s : State) : Nat :=
  if s.prog.uncommitted.isSome then (s.prog.flashForme.map Forme.id).getD 0 else formeId s

/-- A start record still waiting for the start kind is written with START_KIND 0x00, undecided (17 R415). -/
def writeUndecided (s : State) : State :=
  match s.recd.queue with
  | q :: rest =>
    if startUndecided s q then
      writeRec { q with data := 0 :: q.data.drop 1 } true true { s with recd := { s.recd with queue := rest } }
    else s
  | [] => s

/-- The power-fail record is written ahead of the queue, and what the next start needs of it is kept (R64, R128; 17 R414, R415). -/
def powerFailRecord (s : State) : State :=
  let s := writeUndecided s
  let crc := retainCrc s
  let data := leBytes 4 crc ++ leBytes 1 s.prog.mode.num ++ leBytes 1 ((retainUsed s + 4095) / 4096)
  let gasp := bothFailed s
  let s := { s with pwr := { s.pwr with
    pfMode := s.prog.mode, pfCrc := some crc, pfTime := netTime s, pfAon := aonTime s, pfForme := committedFormeId s, pfGasp := gasp } }
  let s := writeRec ⟨opTime s, s.pwr.cycles, 0x0200, 0, netTime s, recData data⟩ true true s
  { s with pwr := { s.pwr with pfSeq := if gasp then s.pwr.pfSeq else s.recd.newest } }

/-- The first `n` queued records are written. -/
def drainQueue : Nat → State → State
  | 0, s => s
  | n + 1, s => drainQueue n (recordWriteState true true s)

/-! ### The bypass relay (R67) -/

/-- The relay closes. -/
def relayClose (s : State) : State :=
  if s.pwr.relayOpen then
    { s with pwr := { s.pwr with relayOpen := false, transitions := (s.pwr.transitions + 1) % 2 ^ 32, closedAt := some s.now } }
  else s

/-! ### Down (R64; 04 R92) -/

/-- The drives are disabled: an integrated one loses its position (Table 3.8). -/
def drivesOff (s : State) : State :=
  { s with mot := { s.mot with axes := s.mot.axes.map (fun (e : Nat × Axis) =>
      (e.1, { e.2 with enabled := false, plan := [], valid := e.2.valid && !axIntegrated e.1 })) } }

/-- Every session that is open closes with a cause. -/
def closeAll (cause : Nat) (s : State) : State :=
  forAll (List.range 8) (fun n s => if (getSession s n).state ≠ 0 then closeSession n cause s else s) s

/-- The module is down: safety outputs and drives off, the relay closed, every domain but AON off, sessions ended. -/
def goDown (p : Phase) (s : State) : State :=
  let s := closeAll 6 (relayClose (drivesOff (stagesOff s)))
  { s with pwr := { s.pwr with
    phase := p, domains := 1, opBase := opTime s, opAt := s.now, domReset := none } }

/-- A restart the module brings about itself runs the retain copy and the record steps before it, and writes the queued
records (R19, R63). -/
def restartNow (cause : Nat) (s : State) : State :=
  let s := powerFailRecord (storeRetain s)
  goDown (.restart cause) (writeFlashDue (mirrorCounters (drainQueue s.recd.queue.length s)))

/-- A reset that takes the module by surprise: in a pair the store already holds the last commit (Table 3.8). -/
def resetNow (cause : Nat) (s : State) : State :=
  goDown (.restart cause) (if isPairUnit s then storeRetain s else s)

end Sys2Proof.Machine
end

