-- ==== Sys2Proof/Machine/Pair.lean ====
section
/-! DEFINITION. The redundant pair (16): heartbeat, arbitration, the sync link's records, state copy, switchover and the
field claim line. -/

namespace Sys2Proof.Machine

/-! ### What the pair's rules share -/

/-- The pair cable serves: a pair unit, up, whose PRES has not changed since reset (R384). -/
def linked (s : State) : Bool := up s && isPairUnit s && !s.pair.presChanged

/-- The sync link and the heartbeat serve: NET is up too. -/
def synced (s : State) : Bool := linked s && domainOn s 7

/-- CONFLICT: both units state one position (R386). -/
def enterConflict (s : State) : State :=
  if s.pair.state = .conflict then s
  else
    let s := if isActive s then loseRole s else failSwitchover s
    let s := if s.prog.mode = .stop then s else enterStop s.prog.stopCause s
    enterPair .conflict s

/-- A claim shows the partner in this unit's own position (R386). -/
def samePosition (s : State) (claim : Nat) : Bool := bitOf claim 10 == !s.pwr.posB

/-- The margin of Table 16.5 runs while the active grade lies that far below the standby's. -/
def noteMargin (s : State) : State :=
  let beyond := healthGrade s + cfgNat s 0x5000 9 ≤ s.pair.partnerGrade
  { s with pair := { s.pair with marginSince := if beyond then some (s.pair.marginSince.getD s.now) else none } }

/-- The standby qualifies to take over (R400). -/
def partnerQualifies (s : State) : Bool := decide (s.pair.partnerState = .tracking) && 8 ≤ s.pair.partnerGrade

/-! ### Becoming and ceasing to be active (R149, R152, R389, R401, R402) -/

/-- A release of a task that a slot brought about in the gap has not taken place (06 R149). -/
def undoRelease (k : Nat) (s : State) : State :=
  let s := { s with pair := { s.pair with own := Tbl.erase s.pair.own k } }
  modTask k (fun t => match t.cycle with
    | some c => if s.pair.lastRecord < c.releasedAt then { t with cycle := none, releases := t.releases - 1 } else t
    | none => t) s

/-- Slots whose fire time fell in the gap since local time `gap` (06 R149): a missed one has not fired. -/
def slotsTakeover (gap : Int) (s : State) : State :=
  forAll (slotsUsed s) (fun n s =>
    let x := getSched s n
    let r := slotRec s n
    if x.state ≠ 0 ∧ gap < x.fireAt ∧ x.fireAt ≤ localNow s ∧ r.kind ≠ 4 then
      let done (x : SlotSt) : SlotSt := if x.state = 2 then restFrom s r x else x
      if r.kind ≤ 2 then
        let s := modSched n (fun x => { done x with late := true }) s
        if slotDoOpen s r.target then modDio r.target (fun x => { x with edgeLevel := some (r.kind == 1) }) s else s
      else
        let fired := x.state == 3 && !x.withheld
        let s := if fired && r.kind == 5 then undoRelease (32 + r.target) s else s
        modSched n (fun x => { done x with missed := true, count := if fired then (x.count + 2 ^ 16 - 1) % 2 ^ 16 else x.count }) s
    else s) s

/-- The whole millisecond from which a unit active since now releases: the first whose FCL frame can end 100 µs before
it (R401). -/
def firstRelease (s : State) : Int := (localNow s + 124000 + 999999) / 1000000 * 1000000

/-- A switchover is counted, kept and recorded. -/
def noteSwitchover (trigger kind pauseUs : Nat) (s : State) : State :=
  let s := { s with pair := { s.pair with
    switchovers := (s.pair.switchovers + 1) % 2 ^ 32, last := (trigger, kind, sat 32 pauseUs, netTime s) } }
  emit (0x9100 + trigger) 0 (leBytes 4 (sat 32 pauseUs) ++ leBytes 1 kind) s

/-- Records acknowledged whose task's own cycle does not run are stored; those of running cycles are resumed at their ends
(01 R17). -/
def storeRecs (s : State) : State :=
  forAll (s.pair.recs.map Prod.fst) (fun k s => if (getTask s k).cycle.isSome then s else storeRec k s) s

/-- Updates whose release instant fell in the gap are not released: every output keeps its last released value until the
first release instant after the takeover (09 R222). -/
def dropGapUpdates (s : State) : State :=
  forAll (s.eng.loops.map Prod.fst) (fun n s =>
    modLoop n (fun l => { l with pending := l.pending.filter (fun r => !relDue (firstRelease s - 1) r) }) s) s

/-- Ended cycles that no record committed are dropped, and with each the running cycle that saw what it wrote (01 R16, R17). -/
def dropOwn (s : State) : State :=
  let s := forAll (s.pair.own.map Prod.fst) abandonCycle s
  { s with pair := { s.pair with own := [] } }

/-- A standby becomes active by replacing its partner (R401); a swap that its partner had waiting does not take place (08
R196). -/
def becomeActive (st : PairState) (trigger kind : Nat) (held : Int) (s : State) : State :=
  let s := dropGapUpdates (storeRecs s)
  let gap := localNow s - (s.now - s.pair.lastRecord : Nat)
  let pause := ((firstRelease s - held) / 1000).toNat
  let s := { s with pair := { s.pair with
    replaced := true, peak := min (healthGrade s) 14, held := [], holding := false, sets := [], wanted := []
    canSeen := [], landings := [], yielded := false, copyAt := none, retryAt := none, handing := none
    firstAt := some (firstRelease s), late := [], copySeq := none } }
  let s := if s.prog.oc.state = .waiting then
    { s with prog := { s.prog with oc := { s.prog.oc with state := .idle, forme := none } } } else s
  let s := noteSwitchover trigger kind pause (enterPair st s)
  motionTakeover (scResume (scAbortArmed (slotsTakeover gap s)))

/-- The old active unit of an orderly switchover becomes TRACKING: it holds the state it handed over (R402). -/
def handedOver (h : Handing) (s : State) : State :=
  let pause := ((firstRelease s - h.at_) / 1000).toNat
  let claim := 15 * 4096 + 2048 + s.pair.partnerClaim % 2048
  let s := noteSwitchover h.trigger 2 pause s
  let s := if h.trigger = 2 ∧ cmdRunning s 6 then cmdDone 6 (leBytes 2 claim ++ leBytes 4 (sat 32 pause)) s else s
  let own := s.pair.own
  let s := canStandby (scAbortArmed (loseRole s))
  let s := { s with pair := { s.pair with
    own := own, partnerClaim := claim, partnerState := .active, seqIn := none, lastRecord := s.now } }
  let s := enterPair .tracking s
  if h.trigger = 5 then restartNow 6 s else s

/-- An orderly switchover begins (R402): releases are held from the next whole millisecond. -/
def startHanding (trigger session : Nat) (s : State) : State :=
  let at_ := localNow s / 1000000 * 1000000 + 1000000
  { s with pair := { s.pair with handing := some { trigger := trigger, session := session, at_ := at_ } } }

/-! ### Heartbeat (R393) -/

/-- A pulse is due: in unit A once for each millisecond of local time; in unit B 500 µs after each pulse received from A, and
1.000 ms after its own while it receives none. -/
def hbDue (s : State) : Bool :=
  if s.pwr.posB then
    match s.pair.hbAt with
    | some a => if a < s.pair.lastPulse then decide (s.pair.lastPulse + 500 * usNs ≤ s.now) else decide (a + msNs ≤ s.now)
    | none => true
  else s.pair.hbGrid != some (gridAt s msNs)

def hbSendState (s : State) : State :=
  if up s && isPairUnit s && domainOn s 7 && s.pair.state != .conflict && hbDue s then
    send .hbPulse { s with pair := { s.pair with hbAt := some s.now, hbGrid := some (gridAt s msNs) } }
  else s

/-- HB_PULSE_SEND (R393): a unit in CONFLICT has stopped its heartbeat. -/
def execHbPulseSend (t : Nat) (s : State) : Out := .next (hbSendState (advance t s))

/-- The unit drives the heartbeat line itself: for 20 µs from its own pulse. -/
def drivesHb (s : State) : Bool :=
  match s.pair.hbAt with
  | some a => decide (s.now < a + 20 * usNs)
  | none => false

/-- When the records not acknowledged were sent, oldest of each kind first. -/
def unackedAt (s : State) : List Nat := s.pair.held.map (·.sentAt) ++ s.pair.sentRecs.map Prod.snd

/-- A partner's pulse has come since the first record unacknowledged was sent. -/
def pulseSince (s : State) : Bool := (unackedAt s).any (fun t => decide (t < s.pair.lastPulse))

/-- The unit continues alone; one that was handing over for an SRAM error restarts, as with no standby (Table 16.5). -/
def goOnAlone (s : State) : State :=
  let u := continueAlone s
  if (s.pair.handing.map (·.trigger)) = some 5 then restartNow 6 u else u

/-- A low period that begins while the unit itself drives the line is no partner pulse. -/
def hbPulseState (s : State) : State :=
  if !linked s || drivesHb s then s
  else
    let late := decide (s.pair.lastRecord + 2000 * usNs < s.now)
    let s := { s with pair := { s.pair with lastPulse := s.now, lossAt := none } }
    if s.pair.state = .active ∧ s.pair.holding = true ∧ pulseSince s = true then goOnAlone s
    else if s.pair.state = .tracking ∧ late then enterUnsynced s
    else s

/-- HB_PULSE (R393, R397, R398). -/
def execHbPulse (t : Nat) (s : State) : Out := .next (hbPulseState (advance t s))

/-- The unit's own arbitration frame: it starts once the line has been recessive for 50 µs, and ends 190 µs after its start
(R391). -/
def arbitrate (s : State) : State :=
  let start := match s.pair.precAt with
    | some e => max s.now (e + 50 * usNs)
    | none => s.now
  let e := some (start + 190 * usNs)
  let s := send (.prec (ownClaim s)) s
  { s with pair := { s.pair with arbAt := e, precAt := e, arbLost := false } }

def heartbeatLossState (s : State) : State :=
  if !(up s && isPairUnit s) || !(isActive s || isStandby s) || s.pair.lossAt.isSome
      || decide (s.now < s.pair.lastPulse + 3000 * usNs) then s
  else
    let s := { s with pair := { s.pair with lossAt := some s.now, partnerClaim := 0 } }
    if isActive s || 8 ≤ healthGrade s then arbitrate s else s

/-- HEARTBEAT_LOSS (R392, R393). -/
def execHeartbeatLoss (t : Nat) (s : State) : Out := .next (heartbeatLossState (advance t s))

/-! ### Arbitration (R387, R391, R392, R397) -/

/-- A unit that reads a higher claim has lost. -/
def arbitrationLost (claim : Nat) (s : State) : State :=
  let s := { s with pair := { s.pair with arbAt := none, arbLost := true, wonAt := none } }
  if isActive s then yieldTo claim s
  else if s.pair.state = .starting then enterPair .syncing { s with pair := { s.pair with copyAt := some s.now } }
  else match s.pair.lossAt with
    | some l => if isStandby s && s.pair.lastCommit ≤ l then enterUnsynced s else s
    | none => s

/-- A frame of the partner has been read to its end. -/
def precFrameState (claim : Nat) (s : State) : State :=
  if !linked s || s.pair.state = .conflict then s
  else
  let s := { s with pair := { s.pair with precAt := some s.now } }
  if samePosition s claim then enterConflict s
  else if ownClaim s < claim then arbitrationLost claim s
  else if isStandby s && healthGrade s < 8 then s
  else arbitrate s

/-- PREC_FRAME (R391, R392). -/
def execPrecFrame (t claim : Nat) (s : State) : Out := .next (precFrameState claim (advance t s))

def arbitrationWonState (s : State) : State :=
  match s.pair.arbAt with
  | none => s
  | some a =>
    if !up s || s.pair.arbLost || decide (s.now < a + 1000 * usNs) then s
    else
      let s := { s with pair := { s.pair with arbAt := none } }
      match s.pair.state with
      | .starting => canTakeover (enterPair .activeAlone { s with pair := { s.pair with
          peak := min (healthGrade s) 14, replaced := false, coldStart := false } })
      | .tracking =>
        if healthGrade s < 8 then s
        else
          let held := localNow s - (s.now - s.pair.lastRecord : Nat)
          let s := dropOwn s
          becomeActive .activeAlone 1 1 held { s with pair := { s.pair with partnerClaim := 0 } }
      | .active => if s.pair.lossAt.isSome then { s with pair := { s.pair with wonAt := some s.now } } else s
      | _ => s

/-- ARBITRATION_WON (R392, R401). -/
def execArbitrationWon (t : Nat) (s : State) : Out := .next (arbitrationWonState (advance t s))

def fclCheckEndState (s : State) : State :=
  match s.pair.wonAt with
  | none => s
  | some w =>
    if !up s || decide (s.now < w + 1000 * usNs) then s
    else
      let fcl := (s.dio.banks.map (fun (e : Nat × Bank) => e.2.fclSeen)).foldl max 0
      if ownClaim s < fcl then yieldTo fcl s else goOnAlone { s with pair := { s.pair with wonAt := none } }

/-- ARBITRATION_FCL_CHECK_END (R397). -/
def execArbitrationFclCheckEnd (t : Nat) (s : State) : Out := .next (fclCheckEndState (advance t s))

/-- STANDBY_RECORD_TIMEOUT (R392): no commit record within 1.0 ms of the loss. -/
def execStandbyRecordTimeout (t : Nat) (s : State) : Out :=
  let s := advance t s
  .next (match s.pair.lossAt with
    | some l =>
      if isStandby s && healthGrade s < 8 && decide (l + 1000 * usNs ≤ s.now) && s.pair.lastCommit ≤ l
      then enterUnsynced s else s
    | none => s)

/-! ### HELLO and the state copy of the active unit (R386, R394, R399) -/

/-- Ten milliseconds have passed since the last HELLO. -/
def helloDue (s : State) : Bool :=
  match s.pair.helloAt with
  | some a => decide (a + 10 * msNs ≤ s.now)
  | none => true

/-- HELLO_SEND (R394); a standby's shows whether a SWITCHOVER_REQUEST waits for its partner (log entry 81). -/
def execHelloSend (t : Nat) (s : State) : Out :=
  let s := advance t s
  .next (if up s && isPairUnit s && domainOn s 7 && helloDue s then
    sendSync 1 [if s.pwr.posB then 0x42 else 0x41, serialNumber, 0x42, ((s.prog.forme.map Forme.id).getD 0),
      s.sess.generation, if isSplit s then 0 else s.safe.sealHash, if isSplit s then 2 else 1,
      if isStandby s && cmdRunning s 6 then 1 else 0]
      (noteMargin { s with pair := { s.pair with helloAt := some s.now } })
  else s)

/-- Objects of the safety configuration, which each unit keeps by itself (10 R254). -/
def safetyKey (k : Nat) : Bool := decide (keyAcc k = .rws)

/-- The points of the safety complex, whose state is not sent over the sync link (10 R254). -/
def safetyPoints (s : State) : List Nat :=
  (((mapRecs s).map Prod.snd).filter (fun m => m.kind == 9)).flatMap MapRec.points

/-- Everything the committed state holds, piece by piece; the configuration comes first, and direct values after it (R399; 04
R462). NODE_ADDRESS passes with the configuration, so that both units hold one address (DESIGN CHOICE, log entry 91). The
safety configuration does not: a unit that differs shows another SAFETY_SEAL (DESIGN CHOICE, log entry 91). -/
def copyPieces (s : State) : List Piece :=
  let si := safetyPoints s
  (s.config.filter (fun e => !directKey e.1 && !safetyKey e.1)).map (fun e => Piece.config e.1 e.2)
    ++ [.generation s.sess.generation s.prog.generation]
    ++ (s.config.filter (fun e => directKey e.1)).map (fun e => Piece.direct e.1 e.2)
    ++ [.direct (objKey 0xF000 2) (leBytes 4 s.sess.bulkLen)]
    ++ (match s.prog.forme with
      | some f => [Piece.forme f]
      | none => [])
    ++ s.prog.inst.map (fun e => Piece.instData e.1 [e.2]) ++ s.prog.glob.map (fun e => Piece.globals e.1 [e.2])
    ++ s.prog.ret.map (fun e => Piece.retained e.1 [e.2]) ++ s.prog.blocks.map (fun e => Piece.block e.1 e.2)
    ++ s.prog.charts.map (fun e => Piece.chart e.1 e.2)
    ++ (s.img.points.filter (fun e => !si.contains e.1)).map (fun e => Piece.point e.1 e.2) ++ s.prog.released.map (fun e => Piece.released e.1 e.2)
    ++ s.eng.loops.map (fun e => Piece.loop (Fin.ofNat 1024 e.1) e.2)
    ++ s.eng.groups.map (fun e => Piece.group (Fin.ofNat 128 e.1) e.2)
    ++ s.mot.axes.map (fun e => Piece.axis (Fin.ofNat 24 e.1) e.2)
    ++ s.mot.groups.map (fun e => Piece.axGroup (Fin.ofNat 6 e.1) e.2)
    ++ s.cad.slots.map (fun e => Piece.slot (Fin.ofNat 256 e.1) e.2) ++ s.cad.sc.map (fun e => Piece.sc (Fin.ofNat 2 e.1) e.2)
    ++ s.ring.nodes.map (fun e => Piece.node (Fin.ofNat 2048 e.1) e.2)
    ++ s.can.bufs.map (fun e => Piece.canBuf (Fin.ofNat 8 (e.1 / 128)) (Fin.ofNat 128 (e.1 % 128)) e.2)
    ++ s.sess.slots.map (fun e => Piece.slotKey (Fin.ofNat 16 e.1) e.2.key)
    ++ [.forces s.img.forces, .clock (clockNow s) (localNow s), .mode s.prog.mode ((s.prog.holdUntil - s.now))]

/-- The COPY records leave, in order, the last one marked. -/
def sendPieces : List Piece → State → State
  | [], s => s
  | p :: r, s =>
    let u := countRecord false s
    let u := if r.isEmpty then { u with pair := { u.pair with copySeq := some u.pair.seqOut } } else u
    sendPieces r (send (.copy u.pair.seqOut (syncHdr s) p r.isEmpty) u)

/-- The active unit sends a state copy to a standby that asks for one, in ACTIVE_ALONE, not twice within 10 s. -/
def sendCopy (s : State) : State :=
  let due := match s.pair.copyAt with
    | some c => decide (c + 10 * secNs ≤ s.now)
    | none => true
  if (decide (s.pair.state = .active) || decide (s.pair.state = .activeAlone)) && due then
    let s := goOnAlone s
    if !up s then s else
    sendPieces (copyPieces s) { s with pair := { s.pair with copyAt := some s.now, copies := (s.pair.copies + 1) % 2 ^ 32 } }
  else s

/-- The partner's identity, claim and grade are noted. -/
def notePartner (m : HelloMsg) (s : State) : State :=
  { s with
    safe := { s.safe with mismatch := isSplit s && !m.split }
    pair := { s.pair with
      partnerClaim := m.claimNo, partnerGrade := m.grade, partnerSerial := m.serial, partnerState := m.state
      lastRecord := s.now, seqIn := s.pair.seqIn.map (fun q => (q + 1) % 2 ^ 32)
      copyAt := if m.state = .tracking ∧ isActive s = true then none else s.pair.copyAt } }

def helloState (m : HelloMsg) (s : State) : State :=
  if !synced s then s
  else if m.positionB = s.pwr.posB ∨ samePosition s m.claimNo = true then enterConflict s
  else
    let s := noteMargin (notePartner m s)
    let s := if m.switchover && decide (s.pair.state = .active) && partnerQualifies s && s.pair.handing.isNone then
      startHanding 2 8 s else s
    if m.state = .syncing ∨ m.state = .unsynced then sendCopy s else s

/-- HELLO (R386, R394, R399). -/
def execHello (t : Nat) (msg : HelloMsg) (s : State) : Out := .next (helloState msg (advance t s))

/-! ### Records at the standby (R396, R398) -/

/-- A record arrives in the one series of its sender; a gap ends TRACKING (R398), and a state copy that runs stays incomplete
(R399). Answers whether the record counts. -/
def takeRecord (seq : Nat) (s : State) : Bool × State :=
  if !synced s || !isStandby s then (false, s)
  else
    let gap := match s.pair.seqIn with
      | some q => seq != (q + 1) % 2 ^ 32
      | none => false
    let s := { s with pair := { s.pair with
      seqIn := some seq, lastRecord := s.now, copyBroken := s.pair.copyBroken || gap } }
    if gap && decide (s.pair.state = .tracking) then (false, enterUnsynced s)
    else (decide (s.pair.state = .tracking) || decide (s.pair.state = .syncing), s)

/-- An acknowledgement leaves a standby in TRACKING. -/
def ackIf (seq result : Nat) (s : State) : State := if s.pair.state = .tracking then sendAck seq result s else s

/-- The standby's own reading of a channel against the agreed one: since when they differ. -/
def differSince (now : Nat) (differ : Bool) (old : Option Nat) : Option Nat := if differ then some (old.getD now) else none

/-- Inputs differ for longer than Table 16.7 allows. -/
def judgeInputs (s : State) : State :=
  let beyond (d : Option Nat) (ms : Nat) : Bool := match d with
    | some t => decide (t + ms * msNs < s.now)
    | none => false
  let bad := s.dio.ch.any (fun e => beyond e.2.differs 2) || s.aio.any (fun e => beyond e.2.differs 50)
  let s := if bad && !s.pair.disagree then selfTestFailed 3 s else s
  { s with pair := { s.pair with disagree := bad } }

/-- The standby's own input states against a bank's agreed STATE. -/
def compareBank (b : Nat) (chans : List ChanRep) (s : State) : State :=
  (List.range 12).foldl (fun s c =>
    let ch := 12 * b + c
    if expMode s ch = 1 ∨ expMode s ch = 2 then
      modDio ch (fun x => { x with differs := differSince s.now (x.state != (chans.getD c {}).v) x.differs }) s
    else s) s

/-- A node-table record by node and class. -/
def nodeRecFor (s : State) (node cls : Nat) : Option Nat :=
  ((nodeRecs s).find? (fun e => e.2.node == node && e.2.has cls)).map Prod.fst

/-- A remote set named in an INPUT record lands from the standby's own reception, or is waited for; resent values land as
they come (R396). -/
def landRemote (rec node cls seq : Nat) (vs : Option (Int × List (BitVec 32 × Byte))) (s : State) : State :=
  match nodeRecFor s node cls with
  | none => s
  | some k =>
    let n := getNode s k
    match vs with
    | some (ts, es) =>
      let rest := s.pair.wanted.filter (fun (w : SetRef) => !(w.node == node && w.cls == cls && w.seq == seq))
      landSet k ⟨node, seq, cls, 0, 1, ts, n.rejoin, Tbl.get n.seqOut 0 cls, es, n.onePort⟩
        { s with pair := { s.pair with wanted := rest } }
    | none => match Tbl.find n.got cls with
      | some f => if f.seq = seq then landSet k f s
        else { s with pair := { s.pair with wanted := s.pair.wanted ++ [⟨rec, node, cls, seq, s.now, none⟩] } }
      | none => { s with pair := { s.pair with wanted := s.pair.wanted ++ [⟨rec, node, cls, seq, s.now, none⟩] } }

/-- A CAN frame of the active unit lands, and is looked for among those the standby received (Table 16.7). -/
def landCanFrame (p : Nat) (rx : CanRx) (s : State) : State :=
  let s := match s.pair.canSeen.find? (fun e => e.1 == p && e.2.1 == rx.frame) with
    | some e => { s with pair := { s.pair with canSeen := s.pair.canSeen.erase e } }
    | none => if s.pair.state = .tracking ∧ canOn s p then selfTestFailed 8 s else s
  canDeliver p rx s

/-- A frame that the standby received and two INPUT records have not named fails the comparison too (Table 16.7; log entry
81). -/
def judgeCan (s : State) : State :=
  let old := s.pair.canSeen.filter (fun e => e.2.2)
  let s := if s.pair.state = .tracking ∧ !old.isEmpty then selfTestFailed 8 s else s
  { s with pair := { s.pair with canSeen := (s.pair.canSeen.filter (fun e => !e.2.2)).map (fun e => (e.1, e.2.1, true)) } }

/-- Tracker points of the active unit land. -/
def landTracker (n : Nat) (st : TrkState) (angle : BitVec 32) (speed : Real32) (ts : Int) (slew : Bool) (s : State) :
    State :=
  let q := slewQual slew (match st with
    | .coasting => 0x14
    | .lost => 0x49
    | .off => 0x45
    | _ => 0)
  let s := produceAllAs (inPoints s 8 n 0) angle q ts s
  let s := produceAllAs (inPoints s 8 n 1) speed q ts s
  let s := produceAllAs (inPoints s 8 n 2) (BitVec.ofNat 32 st.num) q ts s
  produceAllAs (inPoints s 8 n 3) (BitVec.ofNat 32 (trkFlags (getTracker s n))) q ts s

/-- One landing of an INPUT record. -/
def landOne (rec : Nat) (l : Landing) (s : State) : State :=
  match l with
  | .bank b chans es => compareBank b chans (landBank b chans es s)
  | .aio ch v q ts =>
    let s := if isAo s ch then s else
      modAio ch (fun a => { a with differs := differSince s.now (differs02 a.current v) a.differs }) s
    landAio ch v q ts s
  | .tracker n st a v ts sl => landTracker n st a v ts sl s
  | .can p rx => landCanFrame p rx s
  | .remote node cls seq vs => landRemote rec node cls seq vs s

def inputState (seq : Nat) (ls : List Landing) (s : State) : State :=
  let (ok, s) := takeRecord seq s
  if !ok then s
  else
    let s := judgeCan <| judgeInputs (ls.foldl (fun s l => landOne seq l s) s)
    if s.pair.wanted.any (fun w => w.record == seq) then s else ackIf seq 0 s

/-- INPUT (R396). -/
def execInput (t seq : Nat) (landings : List Landing) (s : State) : Out := .next (inputState seq landings (advance t s))

/-- REMOTE_SET_MISSING (R396): not received within 2 ms of the record that names it. -/
def execRemoteSetMissing (t seq : Nat) (s : State) : Out :=
  let s := advance t s
  .next (if synced s && s.pair.wanted.any (fun w => w.record == seq && w.at_ + 2 * msNs ≤ s.now) then ackIf seq 2 s else s)

/-- The tick a TICK record belongs to: the one after the last, if it has come within the last millisecond. -/
def recordTick (s : State) : Int :=
  let g := gridAt s tickNs
  let n := s.eng.lastTick + (tickNs : Nat)
  if g - 1000000 ≤ n ∧ n ≤ g then n else g

/-- The firings whose samples a TICK record carries, each once, with its loop and instant. -/
def firings (points : List SampledPt) : List (Nat × Int) := (points.filterMap (·.loop)).eraseDups

/-- The sample a TICK record carries for a point. -/
def recordSample (points : List SampledPt) (g : Int) (s : State) (p : Nat) : Sample :=
  match points.find? (fun x => x.point == p) with
  | some x => { v := x.value, q := x.qual }
  | none => samplePoint g s p

/-- The standby computes the tick and the firings since the last one from the record's values, after the releases that fell
before it (R204; 09 R222). -/
def standbyTick (points : List SampledPt) (s : State) : State :=
  let g := recordTick s
  let s := { s with eng := { s.eng with lastTick := g } }
  let s := forAll (loopsUsed s) (fun n s => releaseDue n (relDue g) g s) s
  let s := (firings points).foldl (fun s f =>
    cadenceUpdate (recordSample (points.filter (fun x => x.loop == some f)) f.2 s) f.1 f.2 s) s
  sampleTick (recordSample (points.filter (fun x => x.loop.isNone)) g s) g s

/-- The mode of the active unit is taken (08 R189). -/
def takeMode (m : Mode) (leftNs : Nat) (s : State) : State :=
  if s.prog.mode = m then
    if m = .hold then { s with prog := { s.prog with holdUntil := s.now + leftNs } } else s
  else match m with
  | .stop => enterStop s.prog.stopCause s
  | .run => if s.prog.mode = .hold then resumeRun s else enterRun s
  | .hold => enterHold (s.now + leftNs) s

/-- A prepared forme of the active unit has been swapped in (08 R193). -/
def takeSwap (formeGen : Nat) (s : State) : State :=
  if formeGen = (s.prog.generation + 1) % 2 ^ 32 ∧ s.prog.candidate.isSome then
    swapStandby 0 { s with prog := { s.prog with oc := { s.prog.oc with forme := s.prog.candidate } } }
  else s

/-- Whether a forme waits for its swap at the active unit: its standby swaps with it at the boundary (08 R193). One that the
standby has swapped already waits no more. -/
def takeWaits (b : Bool) (s : State) : State :=
  let oc := s.prog.oc
  if b && s.prog.candidate.isSome && s.prog.uncommitted.isNone && decide (oc.state ≠ .waiting) then
    { s with prog := { s.prog with oc := { oc with state := .waiting, forme := s.prog.candidate, since := localNow s } } }
  else if !b && decide (oc.state = .waiting) then
    { s with prog := { s.prog with oc := { oc with state := .idle, forme := none } } }
  else s

/-- The node's state as the active unit has it; a node that is lost has no communication (07 R464). -/
def takeNode (n : Nat) (x : Node) (s : State) : State :=
  let was := (getNode s n).state
  let s := modNode n (fun _ => x) s
  if x.state = .lost ∧ was ≠ .lost then decideQual (nodePoints s (nodeRec s n).node) 0x42 s else s

/-- A copied configuration takes the place of the standby's own; the safety configuration stays its own, and its direct values
give way to those that follow (10 R254; 04 R462). -/
def takeConfig (cfg : Tbl (List Byte)) (s : State) : State :=
  let mine := s.config.filter (fun e => safetyKey e.1)
  let direct := s.config.filter (fun e => directKey e.1)
  let s := adoptConfig (mine.foldl (fun c e => Tbl.insert c e.1 e.2) cfg) s
  direct.foldl (fun s e => owe e.1 s) s

/-- One piece of committed state is applied; configuration pieces of a copy wait for its generation piece (R399). -/
def applyPiece (copying : Bool) (p : Piece) (s : State) : State :=
  let g := s.prog
  match p with
  | .config key v =>
    if copying then { s with pair := { s.pair with copyCfg := Tbl.insert s.pair.copyCfg key v } }
    else setCfg (key / 256) (key % 256) v s
  | .generation c f =>
    if copying then
      let s := takeConfig s.pair.copyCfg s
      { s with sess := { s.sess with generation := c }, prog := { s.prog with generation := f } }
    else takeSwap f { s with sess := { s.sess with generation := c } }
  | .forme f => { s with prog := { g with forme := some f } }
  | .instData a bs => { s with prog := { g with inst := Memory.writeN g.inst a bs } }
  | .globals a bs => { s with prog := { g with glob := Memory.writeN g.glob a bs } }
  | .retained a bs => { s with prog := { g with ret := Memory.writeN g.ret a bs } }
  | .block a b => { s with prog := { g with blocks := Tbl.put g.blocks {} a b } }
  | .chart i l => { s with prog := { g with charts := Tbl.insert g.charts i l } }
  | .released q v => releasePoint q v s
  | .point q x => { s with img := { s.img with points := Tbl.put s.img.points ptUnset q x } }
  | .clock c at_ => { s with prog := { g with clock := c, clockAt := at_ } }
  | .swapWaits b => takeWaits b s
  | .mode m left => takeMode m left s
  | .loop n l => modLoop n (fun _ => l) s
  | .group n x => { s with eng := { s.eng with groups := Tbl.insert s.eng.groups n x } }
  | .axis n x => modAxis n (fun y => { x with faults := y.faults, lifetime := y.lifetime, supplyOff := y.supplyOff }) s
  | .axGroup n x => { s with mot := { s.mot with groups := Tbl.insert s.mot.groups n x } }
  | .slot n x => modSched n (fun _ => x) s
  | .sc n x => modSc n (fun _ => x) s
  | .node n x => takeNode n x s
  | .forces l => { s with img := { s.img with forces := l } }
  | .canBuf p b x => modBuf p b (fun _ => x) s
  | .direct key v => if 0x3600 ≤ key / 256 ∧ key / 256 ≤ 0x3607 then s else directEffect key v 8 s
  | .slotKey k v => owe (objKey (0x1200 + k) 5) (modSlot k (fun x => { x with key := v }) s)

/-- A commit record has come (R392). -/
def noteCommitRec (s : State) : State := { s with pair := { s.pair with lastCommit := s.now } }

/-- The committed state a record carries beside its own content (04 R462; 05 R121; 07 R169; 08 R179, R189). -/
def applyMore (more : List Piece) (s : State) : State := more.foldl (fun s p => applyPiece false p s) s

/-- A TICK record: the tick is computed, what the record carries is applied, and the digest is compared (R204, R398). -/
def tickState (seq : Nat) (points : List SampledPt) (digest : Nat) (more : List Piece) (s : State) : State :=
  let (ok, s) := takeRecord seq s
  if !ok then s
  else if !engineUp s then applyMore more (noteCommitRec s)
  else
    let s := noteCommitRec s
    let s := applyMore more (standbyTick points s)
    if s.pair.state = .tracking ∧ loopDigest s ≠ digest then
      let s := selfTestFailed 2 { s with pair := { s.pair with mismatches := (s.pair.mismatches + 1) % 2 ^ 32 } }
      enterUnsynced (ackIf seq 1 s)
    else ackIf seq 0 (sealLoops s)

/-- TICK (R204, R398). -/
def execTick (t seq : Nat) (r : TickRec) (digest : Nat) (s : State) : Out :=
  .next (tickState seq r.points digest r.more (advance t s))

/-- A TASK record: its dirty state is stored once the task's own cycle has ended, so that the cycle reads what its release
found, or at once where the task has none; an older record of the task is stored first (01 R17; R395). -/
def taskState (seq : Nat) (r : TaskRec) (s : State) : State :=
  let (ok, s) := takeRecord seq s
  if !ok then s
  else
    let s := applyMore r.more (storeRec r.task (noteCommitRec s))
    if s.pair.state ≠ .tracking then storeDirty r s
    else match Tbl.find s.pair.own r.task with
    | some c => ackIf seq 0 (pairTask r.task c r s)
    | none => if (getTask s r.task).cycle.isNone then ackIf seq 0 (storeDirty r s)
      else ackIf seq 0 { s with pair := { s.pair with recs := Tbl.insert s.pair.recs r.task (s.now, r) } }

/-- TASK (R395, R398). -/
def execTask (t seq : Nat) (r : TaskRec) (s : State) : Out := .next (taskState seq r (advance t s))

/-! ### Acknowledgements at the active unit (R395 to R397) -/

/-- The latency of a record's acknowledgement is kept. -/
def noteLatency (h : HeldRec) (s : State) : State :=
  let us := (s.now - h.sentAt) / usNs
  { s with pair := { s.pair with
    latency := if h.cycle.isSome then max s.pair.latency (sat 32 us) else s.pair.latency
    lateAcks := if 200 < us then (s.pair.lateAcks + 1) % 2 ^ 32 else s.pair.lateAcks } }

/-- A record is acknowledged: once none waits any more, releases are held no longer (R397). -/
def ackSent (seq : Nat) (s : State) : State :=
  let s := { s with pair := { s.pair with sentRecs := s.pair.sentRecs.filter (fun e => e.1 != seq) } }
  firstReleases { s with pair := { s.pair with holding := s.pair.holding && !(unackedAt s).isEmpty } }

/-- A record acknowledged as stored is committed, and its outputs are released as soon as releases are not held. -/
def ackStored (seq : Nat) (s : State) : State :=
  let s := { s with
    pair := { s.pair with sets := s.pair.sets.filter (fun w => w.record != seq) }
    prog := { s.prog with oc := { s.prog.oc with partnerOk := s.prog.oc.partnerOk || s.prog.oc.record == some seq } } }
  let s := match s.pair.held.find? (fun h => h.seq == seq) with
    | none => s
    | some h => commitHeld h (noteLatency h s)
  tryHandover (ackSent seq s)

/-- Sets that the standby misses are sent again with their values (R396). -/
def resendSets (seq : Nat) (s : State) : State :=
  let mine := s.pair.sets.filter (fun w => w.record == seq)
  let ls : List Landing := mine.map (fun w => .remote w.node w.cls w.seq w.values)
  if mine.isEmpty then s
  else
    let s := sendSync 2 (ls.flatMap landingContent) s
    { s with pair := { s.pair with
      resent := (s.pair.resent + mine.length) % 2 ^ 32, sets := s.pair.sets.filter (fun w => w.record != seq) } }

/-- The HANDOVER of a running switchover is acknowledged. -/
def handoverAcked (s : State) (seq : Nat) : Option Handing := s.pair.handing.filter (fun h => h.seq == some seq)

/-- The partner is in TRACKING again: it acknowledges a record later than the last piece of its copy (R399). -/
def copyTaken (seq : Nat) (s : State) : Bool :=
  match s.pair.copySeq with
  | some q => decide (0 < (seq + 2 ^ 32 - q) % 2 ^ 32 ∧ (seq + 2 ^ 32 - q) % 2 ^ 32 < 2 ^ 31)
  | none => decide (s.pair.partnerState = .tracking)

/-- The partner's verification of a prepared forme has failed on a row of Table 8.2 (08 R196; log entry 75). -/
def partnerRefused (seq row : Nat) (s : State) : State :=
  let s := ackSent seq s
  if s.prog.oc.record = some seq then { s with prog := { s.prog with oc := { s.prog.oc with partnerAbort := some row } } } else s

def ackState (seq result : Nat) (s : State) : State :=
  if !synced s || !isActive s then s
  else
    let s := { s with pair := { s.pair with lastRecord := s.now } }
    match handoverAcked s seq with
    | some h => if result = 0 then handedOver h s else s
    | none =>
      match result with
      | 0 =>
        if s.pair.state = .activeAlone then
          if copyTaken seq s then
            enterPair .active { s with pair := { s.pair with copySeq := none, copyAt := none, partnerState := .tracking } }
          else s
        else ackStored seq s
      | 1 => goOnAlone { s with pair := { s.pair with
          mismatches := (s.pair.mismatches + 1) % 2 ^ 32, copySeq := none, partnerState := .unsynced } }
      | 2 => resendSets seq (ackSent seq s)
      | r => if 0x10 ≤ r then partnerRefused seq (r - 0x10) s else s

/-- ACK (R395 to R397, R399, R402). -/
def execAck (t seq result : Nat) (s : State) : Out := .next (ackState seq result (advance t s))

def ackTimeoutState (seq : Nat) (s : State) : State :=
  let late (e : Nat × Nat) : Bool := e.1 == seq && decide (e.2 + 1000 * usNs ≤ s.now)
  if s.pair.state = .active ∧ (s.pair.held.map (fun h => (h.seq, h.sentAt)) ++ s.pair.sentRecs).any late then
    let s := { s with pair := { s.pair with holding := true } }
    if pulseSince s then goOnAlone s else s
  else s

/-- ACK_TIMEOUT (R397). -/
def execAckTimeout (t seq : Nat) (s : State) : Out := .next (ackTimeoutState seq (advance t s))

/-! ### State copy at the standby (R399) -/

/-- A copy begins: the state it will replace is cleared. -/
def copyBegins (s : State) : State :=
  let s := if s.pair.state = .unsynced then enterPair .syncing s else s
  { s with
    img := { s.img with points := s.img.points.filter (fun e => (safetyPoints s).contains e.1), forces := [] }
    prog := { s.prog with inst := [], glob := [], ret := [], blocks := [], charts := [], released := [] }
    pair := { s.pair with copyAt := some (s.pair.copyAt.getD s.now), copyCfg := [], abandoned := false, retryAt := none,
                            copyBroken := false } }

/-- The copy is complete: forme and configuration are active in flash, and the standby tracks. Cycles that began on what stood
before it end without a commit (01 R17). -/
def copyEnds (s : State) : State :=
  let s := abandonAll (writeFlashDue s)
  let s := { s with
    prog := { s.prog with flashForme := s.prog.forme, runDue := false, uncommitted := none }
    pwr := { s.pwr with kind := if s.pwr.kind = 0 then 3 else s.pwr.kind }
    pair := { s.pair with
      copyAt := none, copyCfg := [], own := [], recs := [], wanted := [], canSeen := [], copies := (s.pair.copies + 1) % 2 ^ 32 } }
  enterPair .tracking s

/-- A piece of the copy; a copy of which a record was lost is never complete (R399). -/
def copyState (seq : Nat) (p : Piece) (last : Bool) (s : State) : State :=
  if !synced s || !(decide (s.pair.state = .syncing) || decide (s.pair.state = .unsynced)) then s
  else
    let gap := s.pair.seqIn.any (fun q => seq != (q + 1) % 2 ^ 32)
    let s := { s with pair := { s.pair with
      seqIn := some seq, lastRecord := s.now, copyBroken := s.pair.copyBroken || gap } }
    let first := match p with
      | .config _ _ => s.pair.copyCfg.isEmpty
      | .generation _ _ => s.pair.copyCfg.isEmpty
      | _ => false
    let s := if first then copyBegins s else s
    if s.pair.state ≠ .syncing then s
    else
      let s := applyPiece true p s
      if last && !s.pair.copyBroken then copyEnds s else s

/-- COPY (R399). -/
def execCopy (t seq : Nat) (piece : Piece) (last : Bool) (s : State) : Out := .next (copyState seq piece last (advance t s))

/-- COPY_TIMEOUT (R399). -/
def execCopyTimeout (t : Nat) (s : State) : Out :=
  let s := advance t s
  .next (match s.pair.copyAt with
    | some c =>
      if s.pair.state = .syncing ∧ c + 3000 * msNs ≤ s.now then
        let s := enterUnsynced s
        { s with pair := { s.pair with abandoned := true, retryAt := some (s.now + 10 * secNs) } }
      else s
    | none => s)

/-- COPY_RETRY (R399): the standby shows SYNCING to ask for a copy. -/
def execCopyRetry (t : Nat) (s : State) : Out :=
  let s := advance t s
  .next (match s.pair.retryAt with
    | some r =>
      if s.pair.state = .unsynced ∧ r ≤ s.now then
        enterPair .syncing { s with pair := { s.pair with retryAt := none, copyAt := some s.now } }
      else s
    | none => s)

/-! ### Switchover (R400 to R402) -/

/-- A standby of grade 8 or more takes the role it is handed (R400, R402). -/
def handoverState (seq _lastSeq trigger : Nat) (s : State) : State :=
  let (ok, s) := takeRecord seq s
  if !ok || s.pair.state ≠ .tracking || healthGrade s < 8 then s
  else
    let s := sendAck seq 0 s
    let own := s.pair.own
    let s := becomeActive .active trigger 2 (localNow s / 1000000 * 1000000)
      { s with pair := { s.pair with own := [], partnerState := .tracking } }
    let s := if trigger = 2 ∧ cmdRunning s 6 then
        cmdDone 6 (leBytes 2 (ownClaim s) ++ leBytes 4 s.pair.last.2.2.1) s else s
    own.foldl (fun s e => finishCycle e.1 e.2 s) s

/-- HANDOVER (R402). -/
def execHandover (t seq lastSeq trigger : Nat) (s : State) : Out := .next (handoverState seq lastSeq trigger (advance t s))

/-- The arguments of Table 16.6: on the active unit the standby must qualify; a standby that qualifies asks its partner by its
next HELLO (log entry 81). -/
def switchoverOp (data : List Byte) (n : Nat) (s : State) : Answer × State :=
  let ok := if isStandby s then decide (s.pair.state = .tracking) && 8 ≤ healthGrade s
    else decide (s.pair.state = .active) && partnerQualifies s && s.pair.handing.isNone
  if fieldAt data 0 1 ≠ 1 then (.error ⟨2, 0x50, 1, 0xF006, 1, 0⟩, s)
  else if cmdRunning s 6 then (.error (stillRunning 0x50 0xF006), s)
  else if !ok then (.error ⟨3, 0x50, 6, 0xF006, 1, s.pair.partnerGrade⟩, s)
  else cmdAccept 6 n (if isActive s then startHanding 2 n s else s)

/-- SWITCHOVER_REQUEST (R402). -/
def execSwitchoverRequest (t : Nat) (c : Cmd) (s : State) : Out := .next (rowReq c 0xF006 1 [] switchoverOp (advance t s))

def autoSwitchoverState (s : State) : State :=
  if !(up s && decide (s.pair.state = .active) && partnerQualifies s && s.pair.handing.isNone) then s
  else if healthGrade s < 8 then startHanding 3 8 s
  else match s.pair.marginSince with
    | some m =>
      if cfgBool s 0x5000 8 && healthGrade s + cfgNat s 0x5000 9 ≤ s.pair.partnerGrade && decide (m + secNs ≤ s.now)
      then startHanding 4 8 s else s
    | none => s

/-- AUTO_SWITCHOVER (R400). -/
def execAutoSwitchover (t : Nat) (s : State) : Out := .next (autoSwitchoverState (advance t s))

/-! ### CHANGE (04 R91; 08 R193; 10 R254) -/

/-- A safety configuration of the active unit: this unit commits only the all-off vector until it starts. -/
def takeSafety (objs : List (Nat × List Byte)) (forme : Memory) (s : State) : State :=
  if isSplit s then s
  else
    let c := objs.foldl (fun c e => cfgPut c (e.1 / 256) (e.1 % 256) e.2) s.config
    dropPasses { s with config := c, sess := { s.sess with refused := none }, safe := { s.safe with formeBytes := Memory.norm forme, newConfig := some s.now } }

/-- A safety configuration passes the checks of its commit in this unit too (10 R228, R229). -/
def safetyFits (objs : List (Nat × List Byte)) (forme : Memory) (s : State) : Bool :=
  (checkSafety { s with
    config := objs.foldl (fun c e => cfgPut c (e.1 / 256) (e.1 % 256) e.2) s.config
    safe := { s.safe with formeBytes := Memory.norm forme } }).isNone

/-- The row of Table 8.2 on which a forme's image fails its signature or its verification. -/
def imageRow (s : State) (image : List Byte) : Option Nat :=
  if imageSigned s image then (verifyRow s (formeOf image)).map Prod.fst else some 1

/-- A CHANGE record. A forme that fails its verification is acknowledged with the row on which it failed (08 R193, R196; log
entry 75); a safety configuration that fails its checks is not acknowledged. -/
def changeState (seq : Nat) (c : Change) (s : State) : State :=
  let (ok, s) := takeRecord seq s
  if !ok then s
  else
    match c with
    | .config objs g =>
      let cfg := objs.foldl (fun c e => cfgPut c (e.1 / 256) (e.1 % 256) e.2) s.config
      let s := armStaged objs (adoptConfig cfg s)
      ackIf seq 0 (emit 0x3300 0 (leBytes 4 g) { s with sess := { s.sess with generation := g } })
    | .forme image => match imageRow s image with
      | none => ackIf seq 0 { s with prog := { s.prog with candidate := some (formeOf image) } }
      | some row => ackIf seq (0x10 + row) s
    | .safety objs m => if safetyFits objs m s then ackIf seq 0 (takeSafety objs m s) else s

/-- CHANGE (04 R91). -/
def execChange (t seq : Nat) (c : Change) (s : State) : Out := .next (changeState seq c (advance t s))

/-! ### Field claim line (R403 to R406) and PRES (R384) -/

/-- FCL frames may start: the first of a takeover 124 µs before the millisecond of its first release, so that it ends 100 µs
before it (R401). -/
def fclStarts (s : State) : Bool :=
  match s.pair.firstAt with
  | some m => decide (m - 124000 ≤ localNow s)
  | none => true

/-- FCL_FRAME_SEND (R403). -/
def execFclFrameSend (t : Nat) (s : State) : Out :=
  let s := advance t s
  .next (if up s && isPairUnit s && isActive s && fclStarts s then send (.fcl (ownClaim s)) s else s)

/-- Claims heard, one entry each, the newest first. -/
def hear (now claim : Nat) (heard : List (Nat × Nat)) : List (Nat × Nat) :=
  (claim, now) :: (heardNow now heard).filter (fun e => e.1 != claim)

/-- A claim on the line of a unit in this unit's own position that is not this unit (R386). -/
def foreignTwin (s : State) (claim : Nat) : Bool :=
  samePosition s claim && claim % 1024 != ownClaim s % 1024

def fclFrameState (chip claim : Nat) (s : State) : State :=
  if !isPairUnit s then s
  else
    let s := if up s && foreignTwin s claim then enterConflict s else s
    if chip < 8 then
      let s := modBank chip (fun x =>
        let h := hear s.now claim x.heard
        { x with heard := h, claim := chipClaim s x.claim x.unitClaim x.partnerClaim h }) s
      claimSettles chip s
    else if chip < 40 then
      settleSource (chip - 8) (modAio (chip - 8) (fun a =>
        let h := hear s.now claim a.heard
        { a with heard := h, claim := chipClaim s a.claim a.unitClaim a.partnerClaim h }) s)
    else s

/-- FCL_FRAME (R404, R405): chips 0 to 7 are the BICs, 8 to 39 the AO channel chips. -/
def execFclFrame (t chip claim : Nat) (s : State) : Out := .next (fclFrameState chip claim (advance t s))

/-- PRES_CHANGED (R384). -/
def execPresChanged (t : Nat) (low : Bool) (s : State) : Out :=
  let s := advance t s
  .next (if !up s then s
    else emit (if low then 0x9302 else 0x9301) 0 (leBytes 1 (if s.pwr.presLow then 0 else 1))
      { s with pair := { s.pair with presChanged := true } })

end Sys2Proof.Machine
end

