-- ==== Sys2Proof/Machine/Mgmt.lean ====
section
/-! DEFINITION. Patch sets, re-admission and SRAM errors (17 R425, R426; 18 R439, R440; 01 R19). -/

namespace Sys2Proof.Machine

/-! ### SRAM (01 R19; 18 R438) -/

/-- A page is retired: remapped to a spare, or the module goes to STOP with every output safe when none is left. -/
def retirePage (page : Nat) (s : State) : State :=
  if s.sram.used < 16 then
    { s with sram := { s.sram with
      used := s.sram.used + 1, remapped := page :: s.sram.remapped
      corrected := s.sram.corrected.filter (fun e => e.1 / 4096 != page) } }
  else enterStop 4 { s with sram := { s.sram with empty := true } }

/-- R19 acts on a word in a TRACKING standby: its scrub test has failed (16 Table 16.7). -/
def scrubFailed (s : State) : State := if s.pair.state = .tracking then selfTestFailed 7 s else s

def sramCorrectedState (addr : Nat) (s : State) : State :=
  if !(up s && domainOn s 3) then s
  else
    let again := match Tbl.find s.sram.corrected addr with
      | some t => decide (s.now - t < 24 * 3600 * secNs)
      | none => false
    let s := { s with sram := { s.sram with
      count := s.sram.count + 1, corrected := Tbl.insert s.sram.corrected addr s.now } }
    if again then retirePage (addr / 4096) (scrubFailed s) else s

/-- SRAM_CORRECTED_ERROR (01 R19). -/
def execSramCorrectedError (t addr : Nat) (s : State) : Out := .next (sramCorrectedState addr (advance t s))

/-- An uncorrectable error leads to a switchover where the standby qualifies, else to a restart. -/
def sramHandOver (s : State) : State :=
  if s.pair.state = .active ∧ partnerQualifies s = true then
    match s.pair.handing with
    | some h => { s with pair := { s.pair with handing := some { h with trigger := 5 } } }
    | none => startHanding 5 8 s
  else restartNow 6 s

def sramUncorrectableState (addr : Nat) (safetyArea : Bool) (s : State) : State :=
  if !(up s && domainOn s 3) then s
  else
    let s := retirePage (addr / 4096) (scrubFailed { s with sram := { s.sram with uncorrectable := true } })
    let s := if safetyArea then
        let (f, s) := draw s
        safetyFault 0x0C (f % 256) s
      else s
    sramHandOver s

/-- SRAM_UNCORRECTABLE_ERROR (01 R19; 10 R250). -/
def execSramUncorrectableError (t addr : Nat) (safetyArea : Bool) (s : State) : Out :=
  .next (sramUncorrectableState addr safetyArea (advance t s))

/-- SRAM_SCRUB (16 R407): a TRACKING standby scrubs every 60 s. -/
def execSramScrub (t : Nat) (s : State) : Out :=
  let s := advance t s
  .next (if up s && decide (s.pair.state = .tracking) && decide (s.sram.scrubbed + 60 * secNs ≤ s.now) then
    { s with sram := { s.sram with scrubbed := s.now } } else s)

/-! ### READMIT (18 R439, R440) -/

/-- Subsystem byte and greatest number of a kind of Table 18.2. -/
def readmitKind : Nat → Option (Nat × Nat)
  | 1 => some (0x30, 95)
  | 2 => some (0x32, 31)
  | 3 => some (0x34, 23)
  | 4 => some (0x30, 7)
  | _ => none

/-- Lifetime faults of a resource. -/
def lifetimeFaults (s : State) (kind n : Nat) : Nat :=
  match kind with
  | 1 => (getDio s n).lifetime
  | 2 => (getAio s n).lifetime
  | 3 => (getAxis s n).lifetime
  | _ => (getBank s n).linkFaults

/-- An input has no value again; a lost supply stays reported (07 R158). -/
def unvalued (ch : Nat) (s : State) : State :=
  modDio ch (fun x => { x with landedQual := if x.landedQual = 0x44 then 0x44 else 0x46 }) s

/-- How a re-admitted resource returns (R440). -/
def readmitted (kind n : Nat) (s : State) : State :=
  match kind with
  | 1 =>
    let s := unvalued n (modDio n (fun x => { x with
      faults := [], awaiting := true, seen := false, trip := false, thermal := false, retry := false }) s)
    decideQual (dioPoints s n) (dioQual s n) s
  | 2 => requalAio n (settleSource n <| modAio n (fun a => {
      toMin a with faults := [], reinit := true }) s)
  | 3 => produceAxis n (losePos n 3 (modAxis n (fun x => { x with faults := [], driveFault := false, openCoil := false }) s))
  | _ =>
    let ws := bankWords s n
    let s := modBank n (fun x => { x with
      faults := [], linked := false, resyncing := true, badUp := 0, sending := ws, cfgSent := 0, commitDue := true }) s
    forAll ((bankChans n).filter (fun ch => !isRetired s kindDio ch)) (fun ch s =>
      let s := unvalued ch s
      decideQual (dioPoints s ch) (dioQual s ch) s) s

/-- An invocation of READMIT. -/
def readmitOp (data : List Byte) (n : Nat) (s : State) : Answer × State :=
  let kind := fieldAt data 0 1
  let num := fieldAt data 2 2
  match readmitKind kind with
  | none => (.error ⟨2, 0xF0, 1, 0xF003, 1, 0⟩, s)
  | some (ss, mx) =>
    if mx < num then (.error ⟨2, ss, 2, 0xF003, 1, mx⟩, s)
    else match s.retired.find? (fun r => r.kind == kind && r.number == num) with
      | none => (.error ⟨2, ss, 1, 0xF003, 1, 0⟩, s)
      | some r =>
        if r.cal then (.error ⟨4, ss, 5, 0xF003, 1, 0⟩, s)
        else
          let result := leBytes 1 kind ++ [0] ++ leBytes 2 num ++ leBytes 4 (lifetimeFaults s kind num)
            ++ leBytes 4 (sat 32 (opTime s / 64 - r.at_)) ++ leBytes 4 0
          let s := { s with retired := s.retired.filter (fun r => !(r.kind == kind && r.number == num)) }
          let s := emit 0xD102 (sourceOf kind num) (leBytes 1 n) s
          cmdNow 3 n result (readmitted kind num s)

/-- READMIT (18 R439). -/
def execReadmit (t : Nat) (c : Cmd) (s : State) : Out := .next (rowReq c 0xF003 1 [] readmitOp (advance t s))

/-! ### Patch sets (R425, R426) -/

/-- The bundle's signature verifies with the Ibeno patch key (R425). -/
def patchSigned (key : Nat) (img : List Byte) : Bool :=
  64 ≤ img.length &&
    ecdsaVerify (leBytes 64 key) (img.take (img.length - 64)) (img.drop (img.length - 64))

/-- The routine numbers of the bundle's entries. -/
def patchRoutines (img : List Byte) : List Nat := (List.range (fieldAt img 12 2)).map (fun i => fieldAt img (32 + 12 * i) 2)

/-- The checks of Table 17.9 in their order. -/
def patchCheck (key : Nat) (img : List Byte) (flashFull : Bool) : Option Abort :=
  let bad (cls ss num : Nat) : Option Abort := some ⟨cls, ss, num, 0xF00B, 1, 0⟩
  let rs := patchRoutines img
  if !patchSigned key img then bad 5 0xF0 5
  else if img.take 4 ≠ [0x50, 0x58, 0x50, 0x53] ∨ fieldAt img 4 2 ≠ 1 ∨ fieldAt img 6 1 ≠ 0x42 then bad 2 0xB0 1
  else if 64 < fieldAt img 12 2 then bad 4 0xB0 2
  else if !(rs.all Config.romRoutine) || rs.eraseDups.length != rs.length then bad 2 0xB0 1
  else if flashFull then bad 4 0xF0 6
  else none

/-- A patch command is refused: one runs, another change is pending, or the mode or role does not allow it. -/
def patchRefused (s : State) : Option Abort :=
  if cmdRunning s 0xB then some (stillRunning 0xB0 0xF00B)
  else match pendingChange s with
    | some c => some ⟨3, 0xB0, 2, 0xF00B, 1, c⟩
    | none =>
      if (if isPairUnit s then isActive s else decide (s.prog.mode ≠ .stop)) then
        some ⟨3, 0xB0, 1, 0xF00B, 1, s.prog.mode.num⟩ else none

/-- OP 0x01: the bundle is checked and stored, and the module restarts with cause 0x08. -/
def installPatch (flashFull : Bool) (n : Nat) (s : State) : Answer × State :=
  match patchRefused s with
  | some a => (.error a, s)
  | none => match patchCheck s.mgmt.patchKey (bulkBytes s) flashFull with
    | some a => (.error a, s)
    | none =>
      let id := fieldAt (bulkBytes s) 8 4
      let s := { s with mgmt := { s.mgmt with
        patchState := 2, heldId := id, heldCount := fieldAt (bulkBytes s) 12 2 } }
      let s := emit 0xB201 0 (leBytes 4 id) (cmdStart 0xB n (keepLeases 0xF00B n [0xB000, 0xF000] s))
      (.ok [], s)

/-- OP 0x02: the installed set is gone from the next start on, which is recorded where there was one (Table 17.3). -/
def removePatch (n : Nat) (s : State) : Answer × State :=
  match patchRefused s with
  | some a => (.error a, s)
  | none =>
    let s := if s.mgmt.heldCount = 0 then s else emit 0xB203 0 (leBytes 4 s.mgmt.heldId) s
    cmdNow 0xB n [] { s with mgmt := { s.mgmt with heldId := 0, heldCount := 0 } }

/-- An invocation of PATCH_INSTALL. -/
def patchOp (flashFull : Bool) (data : List Byte) (n : Nat) (s : State) : Answer × State :=
  match fieldAt data 0 1 with
  | 1 => installPatch flashFull n s
  | 2 => removePatch n s
  | _ => (.error ⟨2, 0xB0, 1, 0xF00B, 1, 0⟩, s)

/-- A patch set waits for its restart, which follows the answer at once. -/
def patchRestart (s : State) : State :=
  if up s && s.mgmt.patchState == 2 && cmdRunning s 0xB then restartNow 8 s else s

/-- PATCH_INSTALL (R426). -/
def execPatchInstall (t : Nat) (c : Cmd) (flashFull : Bool) (s : State) : Out :=
  .next (patchRestart (rowReq c 0xF00B 1 [1] (patchOp flashFull) (advance t s)))

/-- PATCH_REMOVE (R426). -/
def execPatchRemove (t : Nat) (c : Cmd) (s : State) : Out :=
  .next (rowReq c 0xF00B 1 [2] (patchOp false) (advance t s))

end Sys2Proof.Machine
end

