-- ==== Sys2Proof/Machine/Supply.lean ====
section
/-! DEFINITION. Trunk fuses, supplies, resets by the hardware, the bypass relay and DOMAIN_RESET (03 R49 to R55, R63, R67). -/

namespace Sys2Proof.Machine

/-! ### Through-feed fuses (R49) -/

/-- SOURCE of a trunk port. -/
def portSource : Port → Nat
  | .t1 => 0xC011
  | .t2 => 0xC012

def fuseTripState (p : Port) (mv : Nat) (s : State) : State :=
  let w := s.pwr
  let is := match p with
    | .t1 => w.t1Fuse
    | .t2 => w.t2Fuse
  if !up s || is then s
  else
    let n := sat 16 ((match p with
      | .t1 => w.tripsT1
      | .t2 => w.tripsT2) + 1)
    let w := match p with
      | .t1 => { w with t1Fuse := true, tripsT1 := n, fuseAtT1 := s.now }
      | .t2 => { w with t2Fuse := true, tripsT2 := n, fuseAtT2 := s.now }
    emit 0x0300 (portSource p) (leBytes 2 mv ++ leBytes 2 n) { s with pwr := w }

/-- FUSE_TRIP (R49). -/
def execFuseTrip (t : Nat) (port : Port) (mv : Nat) (s : State) : Out := .next (fuseTripState port mv (advance t s))

/-- FUSE_RECLOSE (R49). -/
def execFuseReclose (t : Nat) (port : Port) (s : State) : Out :=
  let s := advance t s
  .next (match port with
    | .t1 => if s.pwr.t1Fuse && decide (s.pwr.fuseAtT1 + secNs ≤ s.now) then { s with pwr := { s.pwr with t1Fuse := false } } else s
    | .t2 => if s.pwr.t2Fuse && decide (s.pwr.fuseAtT2 + secNs ≤ s.now) then { s with pwr := { s.pwr with t2Fuse := false } } else s)

/-! ### Supplies (R51, Table 3.2, Table 3.11) -/

/-- SOURCE of a supply. -/
def supplySource : Supply → Nat
  | .t1 => 0xC011
  | .t2 => 0xC012
  | .fsa => 0xC020
  | .fsb => 0xC021
  | .msLow | .msHigh => 0xC022

/-- The warning bit of a supply in `SUPPLY_STATUS`. -/
def warnBit : Supply → Nat
  | .t1 => 2 | .t2 => 3 | .fsa => 6 | .fsb => 8 | .msLow => 10 | .msHigh => 11

/-- A warning stands. -/
def warned (p : Pwr) : Supply → Bool
  | .t1 => p.t1Low | .t2 => p.t2Low | .fsa => p.fsaLow | .fsb => p.fsbLow | .msLow => p.msLow | .msHigh => p.msHigh

def setWarned (v : Bool) (p : Pwr) : Supply → Pwr
  | .t1 => { p with t1Low := v }
  | .t2 => { p with t2Low := v }
  | .fsa => { p with fsaLow := v }
  | .fsb => { p with fsbLow := v }
  | .msLow => { p with msLow := v }
  | .msHigh => { p with msHigh := v }

/-- A voltage lies beyond the warning threshold; back beyond it by 0.5 V. -/
def warns : Supply → Nat → Bool
  | .t1, mv | .t2, mv => decide (mv < 36000)
  | .fsa, mv | .fsb, mv => decide (mv < 19200)
  | .msLow, mv => decide (mv < 18000)
  | .msHigh, mv => decide (52000 < mv)
def unwarns : Supply → Nat → Bool
  | .t1, mv | .t2, mv => decide (36500 < mv)
  | .fsa, mv | .fsb, mv => decide (19700 < mv)
  | .msLow, mv => decide (18500 < mv)
  | .msHigh, mv => decide (mv < 51500)

/-- A record of class 0x04, written while the management processor runs. -/
def supplyRecord (variant : Nat) (x : Supply) (mv : Nat) (s : State) : State :=
  if up s then emit (0x0400 + variant) (supplySource x) (leBytes 2 mv) s else s

/-- A measurement of FSA or FSB. -/
def noteMv (x : Supply) (mv : Nat) (s : State) : State :=
  match x with
  | .fsa => { s with pwr := { s.pwr with fsaMv := mv } }
  | .fsb => { s with pwr := { s.pwr with fsbMv := mv } }
  | .t1 | .t2 | .msLow | .msHigh => s

def supplyWarningState (x : Supply) (mv : Nat) (s : State) : State :=
  let s := noteMv x mv s
  if warns x mv && !warned s.pwr x then supplyRecord (warnBit x) x mv { s with pwr := setWarned true s.pwr x } else s

/-- SUPPLY_WARNING (R51). -/
def execSupplyWarning (t : Nat) (supply : Supply) (mv : Nat) (s : State) : Out :=
  .next (supplyWarningState supply mv (advance t s))

def supplyWarningClearState (x : Supply) (mv : Nat) (s : State) : State :=
  let s := noteMv x mv s
  if unwarns x mv && warned s.pwr x then supplyRecord (warnBit x + 0x80) x mv { s with pwr := setWarned false s.pwr x } else s

/-- SUPPLY_WARNING_CLEAR (R51). -/
def execSupplyWarningClear (t : Nat) (supply : Supply) (mv : Nat) (s : State) : Out :=
  .next (supplyWarningClearState supply mv (advance t s))

/-- The AIO field electronics go without supply once the higher of FSA and FSB lies below 16.0 V (13 R323). -/
def aioFeed (s : State) : State :=
  if s.pwr.aioFed && decide (max s.pwr.fsaMv s.pwr.fsbMv < 16000) then
    aioSupplyLost { s with pwr := { s.pwr with aioFed := false } }
  else s

/-- They are fed again once the higher of the two has been above 18.0 V for 20 ms. -/
def aioFeedBack (x : Supply) (mv : Nat) (s : State) : State :=
  if !s.pwr.aioFed && (x == .fsa || x == .fsb) && decide (18000 < mv) then
    aioSupplyBack { s with pwr := { s.pwr with aioFed := true } }
  else s

/-- The outputs and inputs of four banks lose or regain their supply. -/
def banksLost (first : Nat) (s : State) : State :=
  forAll ((List.range 4).map (first + ·)) (fun b s => if (getBank s b).supplyOff then s else bankSupplyLost b s) s
def banksBack (first : Nat) (s : State) : State := forAll ((List.range 4).map (first + ·)) bankSupplyBack s

/-- MS goes outside its range, or comes back into it (14 R351). -/
def msChange (low high : Bool) (s : State) : State :=
  let was := s.pwr.msOffLow || s.pwr.msOffHigh
  let s := { s with pwr := { s.pwr with msOffLow := low, msOffHigh := high } }
  if (low || high) && !was then (if up s then driveSupplyLost s else s)
  else if was && !(low || high) then driveSupplyBack s else s

/-- A supply's own latch below its off threshold, with what it feeds. -/
def supplyLatch (x : Supply) (mv : Nat) (s : State) : State :=
  match x with
  | .fsa =>
    if s.pwr.fsaOff || decide (16000 ≤ mv) then s
    else limitSupplyLost (banksLost 0 (supplyRecord 7 x mv { s with pwr := { s.pwr with fsaOff := true } }))
  | .fsb =>
    if s.pwr.fsbOff || decide (16000 ≤ mv) then s
    else stagesOff (banksLost 4 (supplyRecord 9 x mv { s with pwr := { s.pwr with fsbOff := true } }))
  | .msLow => if s.pwr.msOffLow || decide (16000 ≤ mv) then s else msChange true s.pwr.msOffHigh s
  | .msHigh => if s.pwr.msOffHigh || decide (mv ≤ 55000) then s else msChange s.pwr.msOffLow true s
  | .t1 | .t2 => s

def supplyOffState (x : Supply) (mv : Nat) (s : State) : State := aioFeed (supplyLatch x mv (noteMv x mv s))

/-- SUPPLY_OFF (R51). -/
def execSupplyOff (t : Nat) (supply : Supply) (mv : Nat) (s : State) : Out :=
  .next (supplyOffState supply mv (advance t s))

/-- A supply's own recovery, with what it feeds. -/
def supplyUnlatch (x : Supply) (mv : Nat) (s : State) : State :=
  match x with
  | .fsa =>
    if !s.pwr.fsaOff || decide (mv ≤ 18000) then s
    else banksBack 0 (supplyRecord 0x87 x mv { s with pwr := { s.pwr with fsaOff := false } })
  | .fsb =>
    if !s.pwr.fsbOff || decide (mv ≤ 18000) then s
    else banksBack 4 (supplyRecord 0x89 x mv { s with pwr := { s.pwr with fsbOff := false } })
  | .msLow => if !s.pwr.msOffLow || decide (mv ≤ 18000) then s else msChange false s.pwr.msOffHigh s
  | .msHigh => if !s.pwr.msOffHigh || decide (53000 ≤ mv) then s else msChange s.pwr.msOffLow false s
  | .t1 | .t2 => s

def supplyRecoveryState (x : Supply) (mv : Nat) (s : State) : State :=
  aioFeedBack x mv (supplyUnlatch x mv (noteMv x mv s))

/-- SUPPLY_RECOVERY (R51). -/
def execSupplyRecovery (t : Nat) (supply : Supply) (mv : Nat) (s : State) : Out :=
  .next (supplyRecoveryState supply mv (advance t s))

/-! ### Resets (R63) -/

/-- THERMAL_SHUTDOWN (R63): it restarts when the die has cooled. -/
def execThermalShutdown (t : Nat) (dieTenths : Int) (s : State) : Out :=
  let s := advance t s
  .next (if up s && decide (1250 < dieTenths) then resetNow 5 s else s)

/-- RAIL_FAULT (R63). -/
def execRailFault (t : Nat) (_rail : Fin 18) (s : State) : Out :=
  let s := advance t s
  .next (if up s then resetNow 9 s else s)

/-- MGT_WATCHDOG (R63). -/
def execMgtWatchdog (t : Nat) (s : State) : Out :=
  let s := advance t s
  .next (if up s then resetNow 4 s else s)

/-! ### The bypass relay (R67) -/

/-- PHY_READY_LOST (R67). -/
def execPhyReadyLost (t : Nat) (s : State) : Out := .next (relayClose (advance t s))

/-- The relay has been closed for 2 s, or has never been open. -/
def relayRested (s : State) : Bool :=
  match s.pwr.closedAt with
  | some t => decide (t + 2 * secNs ≤ s.now)
  | none => true

/-- BYPASS_RELAY_OPEN (R67). -/
def execBypassRelayOpen (t : Nat) (s : State) : Out :=
  let s := advance t s
  .next (if up s && domainOn s 7 && !s.pwr.relayOpen && relayRested s then
    { s with pwr := { s.pwr with relayOpen := true, transitions := (s.pwr.transitions + 1) % 2 ^ 32 } } else s)

/-! ### DOMAIN_RESET (R54, R55) -/

/-- CAN switches off: the ports fall silent and forget. -/
def canOffState (s : State) : State := { s with can := {} }

/-- DIOL switches off: every bank takes its link-silence states, and its outputs stay there until their owners' next
releases. -/
def diolOffState (s : State) : State :=
  forAll (List.range 8) (fun b s =>
    let s := silenceOutputs b (modBank b (fun x => { x with silent := true, linked := false, waiting := [] }) s)
    forAll (bankChans b) (fun ch s => if bicMode s ch = 3 then modDio ch (fun x => { x with parked := true, edgeLevel := none }) s else s) s) s

/-- AIOL switches off: every output channel takes its safe state, and stays there until its owner's next release. -/
def aiolOffState (s : State) : State :=
  forAll (List.range 32) (fun ch s =>
    if aioMode s ch = 0 then s
    else
      let s := modAio ch (fun a => { a with silent := true, linked := false }) s
      if isAo s ch then modAio ch (fun a => { a with parked := true }) (aoApply ch s) else s) s

/-- NET switches off: the relay closes, sessions over the ring end, the ports have no link, local time is captured (R128)
and the raw counter stops (06 R126). An address conflict ends with it, without the 3 s and the end record of 05 R105 (DESIGN
CHOICE, log entry 76). -/
def netOffState (s : State) : State :=
  let c := localNow s
  let s := forAll (List.range 8) (fun n s =>
    if (getSession s n).state ≠ 0 ∧ (getSession s n).path = 1 then closeSession n 6 s else s) (relayClose s)
  { s with
    clk := { s.clk with captured := c, stopped := some s.now }
    ring := { s.ring with t1Up := false, t2Up := false, t1Seen := false, t2Seen := false, open_ := false, checks := [], dups := [], conflict := none } }

/-- A domain switches off: its resources are in their safe state first (R54). -/
def domainOff (target : Nat) (s : State) : State :=
  let s := match target with
    | 7 => netOffState s
    | 8 => canOffState s
    | 9 => diolOffState s
    | 10 => aiolOffState s
    | _ => motionReset s
  { s with pwr := { s.pwr with
    domains := s.pwr.domains - flagBit target (domainOn s target), domReset := some (target, s.now) } }

/-- The record of a DOMAIN_RESET: its target and the session. -/
def domainRecord (target n : Nat) (s : State) : State :=
  emit (0x0600 + target) (0xC000 + if target < 12 then target else 0) (leBytes 1 n) s

/-- An invocation of DOMAIN_RESET (Table 3.4). -/
def domainResetOp (data : List Byte) (n : Nat) (s : State) : Answer × State :=
  let target := fieldAt data 0 1
  if cmdRunning s 0xA then (.error (stillRunning 0x20 0xF00A), s)
  else if target = 0xFF then cmdAccept 0xA n (domainRecord target n s)
  else if target < 7 ∨ 11 < target then (.error ⟨2, 0x20, 1, 0xF00A, 1, 0⟩, s)
  else if target = 7 ∧ (isPairUnit s ∨ s.prog.mode ≠ .stop) then (.error ⟨3, 0x20, 1, 0xF00A, 1, s.prog.mode.num⟩, s)
  else cmdAccept 0xA n (domainOff target (domainRecord target n s))

/-- The whole module restarts once its DOMAIN_RESET has been answered. -/
def wholeRestart (s : State) : State :=
  if up s && cmdRunning s 0xA && s.pwr.domReset.isNone then restartNow 7 s else s

/-- DOMAIN_RESET (R54). -/
def execDomainReset (t : Nat) (c : Cmd) (s : State) : Out :=
  .next (wholeRestart (rowReq c 0xF00A 1 [] domainResetOp (advance t s)))

/-- NET is up again: the raw counter starts at zero, and local time goes on from what was captured and the off time as
measured to within 10 µs, a free value in that bound (06 R126, R128). -/
def netOnState (off : Nat) (s : State) : State :=
  let (f, s) := draw s
  let measured : Int := (off : Int) + (f % 20001 : Nat) - 10000
  { s with
    clk := { rawZero := s.now, offset := s.clk.captured + measured, steps := s.clk.steps, lastBetter := s.now }
    ring := { s.ring with lastReturn := s.now } }

/-- CAN is up again: every port takes its configuration anew. -/
def canOnState (s : State) : State :=
  forAll (List.range 8) (applyCan []) s

def domainCompleteState (s : State) : State :=
  match s.pwr.domReset with
  | none => s
  | some (target, t0) =>
    if !up s || decide (s.now < t0 + 10 * msNs) then s
    else
      let off := s.now - t0
      let s := { s with pwr := { s.pwr with domains := s.pwr.domains + flagBit target (!domainOn s target), domReset := none } }
      let s := match target with
        | 7 => netOnState off s
        | 8 => canOnState s
        | _ => s
      cmdDone 0xA (leBytes 4 (off / usNs)) s

/-- DOMAIN_RESET_COMPLETE (R55). -/
def execDomainResetComplete (t : Nat) (s : State) : Out := .next (domainCompleteState (advance t s))

end Sys2Proof.Machine
end

