-- ==== Sys2Proof/Machine/Power.lean ====
section
/-! DEFINITION. STARTUP and POWER_FAIL (03 R50, R57 to R65). -/

namespace Sys2Proof.Machine

/-! ### Power fail (R64, R65) -/

/-- The sequence of Table 3.8 on a running module: retain copy and record, counters and direct values, then queued records
for as long as Group 2 stays on; how many that are is open. -/
def powerFailSequence (margin : Nat) (s : State) : State :=
  let s := writeFlashDue (mirrorCounters (powerFailRecord (storeRetain s)))
  let (f, s) := draw s
  let s := drainQueue (f % (s.recd.queue.length + 1)) s
  { s with pwr := { s.pwr with margin := sat 16 margin, marginNew := true } }

/-- A power fail, by the form its instant gives it (R65). The first form, before MEM is up, ends a start from off as it ends
a restart, and leaves `LAST_HOLDUP_MARGIN` as it was (DESIGN CHOICE, log entry 79). -/
def powerFailState (margin : Nat) (trunkBack : Bool) (s : State) : State :=
  let next : Phase := if trunkBack then .restart 3 else .off
  match s.pwr.phase with
  | .off | .restart _ => { s with pwr := { s.pwr with phase := next } }
  | .up => goDown next (powerFailSequence margin s)

/-- POWER_FAIL (R64). -/
def execPowerFail (t margin : Nat) (trunkBack : Bool) (s : State) : Out :=
  .next (powerFailState margin trunkBack (advance t s))

/-! ### The start, step by step (Table 3.6) -/

/-- AON at the start: lost when it had run from a supercapacitor below 2.0 V, the counters then come from the mirror
(R57; 17 R416, R421). -/
def startAon (env : StartEnv) (s : State) : State :=
  let lost := decide (s.pwr.phase = .off) && decide (env.supercapMv < 2000)
  let cause := match s.pwr.phase with
    | .restart c => c
    | _ => if lost then 2 else 1
  let p := s.pwr
  if lost then
    { s with
      pwr := { p with aonBase := p.mirror.1, aonAt := s.now, opBase := p.mirror.2.1, cycles := p.mirror.2.2, aonLost := true
                      cause := cause, pfCrc := if p.pfGasp then none else p.pfCrc, pfGasp := false }
      recd := { s.recd with
        gasp := []
        bank0 := { s.recd.bank0 with ok := true, sticky := false }, bank1 := { s.recd.bank1 with ok := true, sticky := false }
        buckets := s.recd.buckets.map (fun (e : Nat × Bucket) => (e.1, { e.2 with suppressed := 0, total := Tbl.get s.recd.totals 0 e.1 })) } }
  else { s with pwr := { p with aonLost := false, cause := cause } }

/-- MGT comes up: the module runs, and its start is counted; POS and PRES are latched, and unit B of a pair switches its
encoder termination off (Table 3.5; 02 R36, R40; 16 R384). -/
def startMgt (env : StartEnv) (s : State) : State :=
  { s with pwr := { s.pwr with
    phase := .up, domains := 0xFFF, opAt := s.now, cycles := (s.pwr.cycles + 1) % 2 ^ 24, startedAt := s.now, domReset := none
    posB := env.posB, presLow := env.presLow, boot := cfgNat s 0x6000 1 }
           cad := { s.cad with encTerm := !(env.posB && env.presLow) } }

/-- The newest valid sequence of a bank. -/
def bankNewest (b : RecBank) : Nat := b.ring.foldl (fun a e => if e.2.ok then max a e.2.seq else a) 0

/-- Slots of one bank that are torn, or never written, come back from the other (17 R415). -/
def mendSlots (a b : Tbl Rec) : Tbl Rec :=
  b.foldl (fun t e => if e.2.ok && !(Tbl.find a e.1).any (fun (r : Rec) => r.ok) then Tbl.insert t e.1 e.2 else t) a

/-- The ring and the first-occurrence slots of one bank, mended from the other. -/
def mendBank (mend : Bool) (a b : RecBank) : RecBank :=
  if mend then { a with ring := mendSlots a.ring b.ring, firsts := mendSlots a.firsts b.firsts } else a

/-- The banks at a start: a bank with its sticky bit set is tested, and one that passes is copied from the surviving bank
(17 R415, R420). -/
def startRecorder (env : StartEnv) (s : State) : State :=
  let b0 := s.recd.bank0
  let b1 := s.recd.bank1
  let p0 := b0.sticky && env.bank0Ok
  let p1 := b1.sticky && env.bank1Ok
  let ok0 := if b0.sticky then env.bank0Ok else b0.ok
  let ok1 := if b1.sticky then env.bank1Ok else b1.ok
  let copy : Option Nat :=
    if p0 && p1 then some (if bankNewest b0 < bankNewest b1 then 0 else 1)
    else if p0 && ok1 then some 0 else if p1 && ok0 then some 1 else none
  let mend := b0.ok && b1.ok
  { s with recd := { s.recd with
    bank0 := { mendBank mend b0 b1 with ok := ok0, sticky := b0.sticky && (!ok0 || copy == some 0) }
    bank1 := { mendBank mend b1 b0 with ok := ok1, sticky := b1.sticky && (!ok1 || copy == some 1) }
    resync := copy, queue := [], drops := sat 32 (s.recd.drops + s.recd.queue.length), sinceStart := 0
    buckets := s.recd.buckets.map (fun (e : Nat × Bucket) => (e.1, { e.2 with spent := 0, burst := 0, last := s.now })) } }

/-- A key of flash that holds a slot's key. -/
def slotKeyOf (k : Nat) : List Byte → Option (List Byte)
  | [] => none
  | b => if 0x1200 ≤ k / 256 ∧ k / 256 ≤ 0x120F ∧ k % 256 = 5 then some b else none

/-- The configuration record and the safety forme in flash: the live ones, unless the last start refused them (R59). -/
def flashRecord (s : State) : Tbl (List Byte) × Memory := s.sess.refused.getD (s.config, s.safe.formeBytes)

/-- The configuration of a start: the record where its signature holds, and the kept direct values (R59; 04 R462). -/
def startConfig (env : StartEnv) (s : State) : Tbl (List Byte) :=
  let base := if env.configSigOk then (flashRecord s).1.filter (fun e => !directKey e.1) else []
  s.sess.flashDirect.foldl (fun c e =>
    if (slotKeyOf e.1 e.2).isSome || (env.configSigOk && !directKey e.1) then c else cfgPut c (e.1 / 256) (e.1 % 256) e.2) base

/-- Host-slot keys as SEC holds them, with no lock. -/
def startSlots (s : State) : Tbl Slot :=
  (List.range 16).filterMap (fun k => match Tbl.find s.sess.flashDirect (objKey (0x1200 + k) 5) with
    | some b => (slotKeyOf (objKey (0x1200 + k) 5) b).map (fun key => (k, { key := some key }))
    | none => none)

/-- What a start finds again: flash, MRAM, OTP, AON and what stands in the field; SRAM starts anew (R58, R59). -/
def startFresh (env : StartEnv) (s : State) : State :=
  { s with
    config := startConfig env s
    clk := { steps := s.clk.steps }
    sess := { sessions := s.sess.sessions, slots := startSlots s, generation := s.sess.generation, flashDirect := s.sess.flashDirect
              refused := if env.configSigOk then none else some (flashRecord s) }
    img := {}
    prog := { candidate := s.prog.candidate, flashForme := s.prog.flashForme, generation := (unswapped s).generation
              store := s.prog.store, storeInst := s.prog.storeInst, storeBlocks := s.prog.storeBlocks
              storeClock := s.prog.storeClock, stopCause := 5 }
    eng := { store := s.eng.store }
    cad := {}
    ring := { nodes := s.ring.nodes.map (fun (e : Nat × Node) => (e.1, { losses := e.2.losses, missed := e.2.missed })) }
    can := {}
    safe := { faults := s.safe.faults, formeBytes := if env.configSigOk then (flashRecord s).2 else [] }
    sio := {}
    pair := { switchovers := s.pair.switchovers }
    mgmt := { heldId := s.mgmt.heldId, heldCount := s.mgmt.heldCount, patchKey := s.mgmt.patchKey }
    sram := { remapped := s.sram.remapped, used := s.sram.used, empty := s.sram.empty, count := s.sram.count } }

/-- A refusal at the start (17 Table 17.3). -/
def refusedAtStart (variant code : Nat) (s : State) : State := emit (0x3400 + variant) 0 (leBytes 4 code) s

/-- The abort of a signature that fails. -/
abbrev badSignature : Nat := 0x05F00005

/-- The patch set in flash is verified and applied (R59; 17 R426). -/
def startPatch (env : StartEnv) (s : State) : State :=
  if s.mgmt.heldCount = 0 then s
  else if env.patchSigOk then
    emit 0xB202 0 (leBytes 4 s.mgmt.heldId)
      { s with mgmt := { s.mgmt with patchState := 1, patchId := s.mgmt.heldId, patchCount := s.mgmt.heldCount } }
  else refusedAtStart 3 badSignature s

/-- The forme in flash is loaded if its signature and its verification hold against the configuration record (R59; 08 R172). -/
def startForme (env : StartEnv) (s : State) : State :=
  match s.prog.flashForme with
  | none => s
  | some f =>
    if !env.formeSigOk then refusedAtStart 1 badSignature s
    else if !env.configSigOk then s
    else match verifyForme s f with
      | some a => refusedAtStart 1 a.code s
      | none => { s with prog := { s.prog with forme := some f } }

/-- The newest power-fail record can be read (17 R413, R421). -/
def pfReadable (s : State) : Bool :=
  s.pwr.pfCrc.isSome && (s.pwr.pfGasp || [s.recd.bank0, s.recd.bank1].any (fun (b : RecBank) =>
    b.ok && [Tbl.find b.ring (s.pwr.pfSeq % ringSlots), Tbl.find b.firsts 2].any (fun (r : Option Rec) =>
      match r with
      | some r => r.ok && r.seq == s.pwr.pfSeq
      | none => false)))

/-- How many records ago a sequence number was given (17 R411). -/
def seqAge (newest seq : Nat) : Nat := (newest + 0xFFFFFFFF - seq) % 0xFFFFFFFF

/-- The sequence of the newest power-fail record there is, 0 if none (17 Table 17.3): the last one, or where that cannot be read
the newest that the banks still hold. -/
def newestPf (s : State) : Nat :=
  if pfReadable s then s.pwr.pfSeq
  else
    let rs := ([s.recd.bank0, s.recd.bank1].filter (·.ok)).flatMap (fun b =>
      ((b.ring ++ b.firsts).map Prod.snd).filter (fun (r : Rec) => r.ok && r.code / 256 == 2))
    rs.foldl (fun a r => if a = 0 ∨ seqAge s.recd.newest r.seq < seqAge s.recd.newest a then r.seq else a) 0

/-- The record's CRC-32 is that of the retain store (R60). -/
def retainMatches (s : State) : Bool := pfReadable s && s.pwr.pfCrc == some (retainCrc s)

/-- NET comes up: local time goes on from the power-fail record and the AON time since, or from zero (06 R128). -/
def startTime (s : State) : State :=
  let t : Int := if pfReadable s && !s.pwr.aonLost && decide (0 ≤ s.pwr.pfTime) then
    s.pwr.pfTime + ((aonTime s - s.pwr.pfAon) * secNs / 64 : Nat) else 0
  { s with clk := { s.clk with rawZero := s.now, stopped := none, offset := t, lastBetter := s.now }, ring := { s.ring with lastReturn := s.now } }

/-- SAFE comes up: SPLIT, or the startup self-test and the first cycle (10 R224, R226, R252). -/
def startSafe (env : StartEnv) (s : State) : State :=
  if isSplit s then publishStatus (enterSafety .split s)
  else if env.selfTestOk then startSafety s
  else
    let (f, s) := draw s
    safetyFault 0x0A (f % 256) s

/-- The resources that the configuration names begin anew (05 R116; 06 R141, R146; 15 R364). -/
def startResources (warm : Bool) (s : State) : State :=
  let s := (nodeRecs s).foldl (fun s e => modNode e.1 (fun x => { x with state := .joining }) s) s
  let s := forAll (List.range 8) (fun n s => if trkMode s n = 0 then s else startTracker n s) s
  let s := forAll (List.range 8) (applyCan []) (applySlots [] s)
  applyUnowned (startAxes warm (startAio (startBanks (startLoops warm s))))

/-- Retained data continue after a warm start; everything else takes its initial value (R60; 08 R178, R179). -/
def startData (warm : Bool) (s : State) : State :=
  let f := s.prog.forme.getD {}
  let first := f.insts.foldl (fun m i => Memory.writeN m i.offset i.init) []
  let p := s.prog
  let inst := if warm then f.insts.foldl (fun m i =>
      if i.retained then Memory.writeN m i.offset (Memory.readN p.storeInst i.offset (instSize f i)) else m) first else first
  { s with prog := { p with
    inst := inst, glob := initMemory f false, ret := if warm then p.store else initMemory f true
    blocks := if warm then p.storeBlocks else [], clock := if warm then p.storeClock else 0, clockAt := localNow s } }

/-- The kind of the start (R60, R61): 3 from an active partner, 1 warm, 2 cold. A module with no forme in flash and none
active at the power-fail record meets the forme's condition of a warm start (DESIGN CHOICE, log entry 79). -/
def startKind (env : StartEnv) (s : State) : Nat :=
  if env.presLow && env.partnerActive then 3
  else if retainMatches s && formeId s == s.pwr.pfForme && (s.prog.flashForme.isSome == s.prog.forme.isSome) then 1 else 2

/-- The kind is decided, retained data are restored or initialised, and a missing power-fail record is recorded (R60). -/
def startDecide (env : StartEnv) (s : State) : State :=
  let kind := startKind env s
  let missing := kind == 2 && !retainMatches s
  let s := { s with pwr := { s.pwr with kind := kind, holdupIncomplete := missing } }
  let s := if missing then emit 0x0501 0 (leBytes 4 (newestPf s)) s else s
  startResources (kind == 1) (startData (kind == 1) s)

/-- The ring has been joined by the 900 ms step, so the unit takes its place with the links it then has (Table 3.6). -/
def joinRing (env : StartEnv) (s : State) : State :=
  { s with ring := { s.ring with t1Up := env.t1Link, t1Seen := env.t1Link, t2Up := env.t2Link, t2Seen := env.t2Link } }

/-- The unit takes its place in the pair (16 R384, R387). -/
def startPair (env : StartEnv) (s : State) : State :=
  let heard := { s with pair := { s.pair with
    lastPulse := s.now, lossAt := if env.partnerHeard || env.partnerActive then none else some s.now } }
  if !s.pwr.presLow then enterPair .single s
  else if env.partnerActive then enterPair .syncing { heard with pair := { heard.pair with copyAt := some s.now } }
  else
    let s := { heard with pair := { heard.pair with coldStart := s.pwr.kind == 2 } }
    let s := emit 0x9001 0 (leBytes 2 (ownClaim s) ++ leBytes 1 (healthGrade s) ++ leBytes 1 0) s
    arbitrate s

/-- STOP is entered; RUN is awaited where `START_MODE` selects it and a forme is loaded (R62). -/
def startMode (s : State) : State :=
  let m := cfgNat s 0x2000 2
  let run := m == 2 || (m == 1 && s.pwr.kind == 1 && decide (s.pwr.pfMode = .run))
  let s := emit 0x3000 0 (leBytes 1 5) s
  { s with prog := { s.prog with
    runDue := run && s.prog.forme.isSome && s.pwr.kind != 3, runByCommand := false
    runSince := localNow s + (2000 * msNs - 1 : Nat) } }

/-- A port of the trunk below 36.0 V sets its warning. -/
def startTrunk (env : StartEnv) (s : State) : State :=
  supplyWarningState .t2 env.t2Mv (supplyWarningState .t1 env.t1Mv
    { s with pwr := { s.pwr with t1Low := false, t2Low := false, t1Fuse := false, t2Fuse := false } })

/-- Records of what AON held (R57, R66). -/
def startRecords (env : StartEnv) (s : State) : State :=
  let s := if s.pwr.aonLost then emit 0x0701 0xC000 (leBytes 2 env.supercapMv) s else s
  let s := takeSupercap env.supercapMv s
  let s := if s.pwr.marginNew && decide (s.pwr.margin < 5) then emit 0x0500 0 (leBytes 2 s.pwr.margin) s else s
  { s with pwr := { s.pwr with marginNew := false } }

/-- Every force is cleared, and each clearing recorded (07 R169). -/
def startForces (forces : List Force) (s : State) : State :=
  forces.foldl (fun s f => emit 0xD003 0 (leBytes 4 f.point) s) s

/-- The start record goes ahead of every other one of this start, in the queue or, with both banks out of use, in the last-gasp
ring, which held `gasp` before (17 R415, R421). -/
def startRecord (gasp : List Gasp) (s : State) : State :=
  let rest := s.recd.queue
  let later := s.recd.gasp
  let s := { s with recd := { s.recd with queue := [], gasp := [] } }
  let s := emit (0x0100 + s.pwr.cause) 0 ([s.pwr.kind, cfgNat s 0x2000 2, s.mgmt.patchCount, s.pwr.boot,
    if s.pwr.posB then 0x42 else 0x41, 0].map (BitVec.ofNat 8)) s
  let q := s.recd.queue ++ rest
  { s with recd := { s.recd with
    queue := q.take 256, drops := s.recd.drops + (q.length - 256), gasp := gaspLast (gasp ++ s.recd.gasp ++ later) } }

/-- The module starts. -/
def startUp (env : StartEnv) (s : State) : State :=
  let forces := s.img.forces
  let s := startMgt env (startFresh env (startRecorder env (startAon env s)))
  let gasp := s.recd.gasp
  let s := { s with recd := { s.recd with gasp := [] } }
  let s := startTrunk env (startRecords env s)
  let s := startPatch env s
  let s := if env.configSigOk then s else refusedAtStart 2 badSignature s
  let s := startForces forces (startForme env s)
  let s := startSafe env (startTime s)
  startRecord gasp (startMode (startPair env (joinRing env (startDecide env s))))

/-- A start is due: a restart, which after a thermal shutdown awaits a die below 110 °C (R63), or a trunk above 38.0 V
(R50). -/
def startDue (env : StartEnv) (s : State) : Bool :=
  match s.pwr.phase with
  | .up => false
  | .off => decide (38000 < env.t1Mv) || decide (38000 < env.t2Mv)
  | .restart c => c != 5 || decide (env.dieTenths < 1100)

def startupState (env : StartEnv) (s : State) : State := if startDue env s then startUp env s else s

/-- STARTUP (R58). -/
def execStartup (t : Nat) (env : StartEnv) (s : State) : Out := .next (startupState env (advance t s))

end Sys2Proof.Machine
end

