-- ==== Sys2Proof/Machine/CommitRules.lean ====
section
/-! DEFINITION. What CONFIG_COMMIT checks of each staged object (04 R89; 18 R441, R442): second owners against the
configuration as the writes before have changed it, everything else against the configuration that would result. -/

namespace Sys2Proof.Machine

/-- The configurations a staged write is checked in: before it, after it, and with the whole transaction applied. -/
structure Stage where
  before : State
  after : State
  final : State

/-- A second owner (18 R441, Table 18.4): the write is the failing object, the detail the owner code already held. -/
def secondOwner (idx sub owner : Nat) : Abort := ⟨4, 0, 1, idx, sub, owner⟩

/-- A budget exceeded, over several areas (04 R75). -/
def overBudget (idx sub excess : Nat) : Abort := ⟨4, 0, 2, idx, sub, sat 32 excess⟩

/-- A value not allowed, naming an object. -/
def badValue (idx sub : Nat) : Abort := abortAt 2 1 idx sub

/-- A rule that fails both after the write and in the result: the write is then the first at which it fails. -/
def bothFail (st : Stage) (bad : State → Bool) : Bool := bad st.after && bad st.final

/-! ### Mapping records (07 R160, Table 7.4; 15 R368) -/

/-- Object of a mapping record. -/
def mapObj (k : Nat) : Nat × Nat := (0x2900 + k / 128, k % 128 + 1)

/-- TYPE codes a record may have. -/
def mapTypes (m : MapRec) : List Nat :=
  match m.kind with
  | 1 => [1]
  | 2 => [0x0A]
  | 3 => if m.b = 2 then [8] else [4]
  | 4 => if m.b = 3 then [8] else [0x0A]
  | 6 => [4, 8] ++ (if m.c % 64 = 0 then [1] else []) ++ (if m.c % 64 = 31 then [0x0A] else [])
  | 8 => [[0x0D], [0x0A], [8], [8]].getD m.b []
  | 9 => [1, 8]
  | 10 => [1, 8]
  | _ => [1, 4, 8, 0x0A, 0x0D]

/-- Fields A, B and COUNT of a record. -/
def mapFields (m : MapRec) : Bool :=
  match m.kind with
  | 1 => m.b == 0 && m.a + m.count ≤ 96
  | 2 => m.b == 0 && m.a + m.count ≤ 32
  | 3 => m.count == 1 && m.a < 24 && m.b ≤ 2
  | 4 => m.count == 1 && m.a < 1024 && m.b ≤ 3
  | 5 => 1 ≤ m.a && m.a ≤ 16383 && 1 ≤ m.b && m.b ≤ 3
  | 6 => m.count == 1 && m.a % 4096 < 128 && m.a / 4096 < 8 && m.b ≤ 511 && m.c < 256
  | 7 => m.a == 0 && m.b == 0
  | 8 => m.count == 1 && m.a < 8 && m.b ≤ 3
  | 9 => m.b == 0 && m.a + m.count ≤ 256
  | 10 => m.b == 0 && m.a + m.count ≤ 256
  | _ => false

/-- Bits of a buffer's frame: LENGTH of a transmit buffer, the format's longest for a receive buffer (15 R368). -/
def frameBits (r : BufRec) : Nat :=
  if r.kind = 3 then 8 * r.length else if bitOf r.flags 1 || bitOf r.flags 6 then 512 else 64

/-- The direction of a record, against the modes of the resources it names; a transmit buffer sent on request takes its data
from CAN_SEND only (15 R375). -/
def mapDirection (s : State) (m : MapRec) : Bool :=
  match m.kind with
  | 1 => !m.isOut || (List.range m.count).all (fun i => cfgNat s (0x3000 + m.a + i) 1 == 3)
  | 2 => !m.isOut || (List.range m.count).all (fun i => 3 ≤ cfgNat s (0x3200 + m.a + i) 1)
  | 3 => m.isOut == (m.b == 0)
  | 6 =>
    let r := bufRec s (m.a / 4096) (m.a % 4096)
    (if m.isOut then r.kind == 3 && r.trigger != 3 else r.kind != 3) && (r.kind == 0 || m.b < frameBits r)
  | 5 => true
  | 10 => true
  | _ => !m.isOut

/-- A record follows Table 7.3 and Table 7.4 in a configuration. -/
def mapRecOk (s : State) (m : MapRec) : Bool :=
  m.rsv == 0 && m.flags < 4 && (m.isOut || !m.holdUnsafe) && 1 ≤ m.count && m.first + m.count ≤ 2 ^ 18
    && (m.kind == 6 || m.c == 0) && (mapTypes m).contains m.type && mapFields m && mapDirection s m

/-- Producer record kinds that an output record's points may have: FORME's, and the engine's where Table 7.4 permits it. -/
def permitted (out prod : Nat) : Bool := prod == 7 || prod == 10 || (prod == 4 && (out == 2 || out == 3 || out == 5))

/-- The point of `e` that stands for a resource item that `m` names in the same direction (R160). -/
def sameItem (m e : MapRec) : Option Nat :=
  if m.kind != e.kind || m.isOut != e.isOut then none
  else match m.kind with
  | 3 => if m.a = e.a ∧ m.b = e.b then some e.first else none
  | 4 => if m.a = e.a ∧ m.b = e.b then some e.first else none
  | 8 => if m.a = e.a ∧ m.b = e.b then some e.first else none
  | 5 => none
  | 6 =>
    let bits := signalBits m.b m.c
    let theirs := signalBits e.b e.c
    if m.a == e.a && (if m.isOut then bits.any theirs.contains else bits == theirs) then some e.first else none
  | 7 => none
  | _ =>
    let lo := max m.a e.a
    if lo < min (m.a + m.count) (e.a + e.count) then some (e.first + (lo - e.a)) else none

/-- A second owner that record k brings about: the owner code already held (R160; 18 Table 18.4). -/
def mapOwner (st : Stage) (k : Nat) (m : MapRec) : Option Nat :=
  let rest := (mapRecs st.after).filter (fun e => e.1 != k)
  let owner (p : Nat) : Nat := (producerOwner st.before p).code
  let clash (p : Nat) : Option Nat := match producerIn rest p with
    | some (_, e) => if !m.isOut || !permitted m.kind e.kind then some (owner p) else none
    | none =>
      if !m.isOut && rest.any (fun e => e.2.isOut && e.2.covers p && !permitted e.2.kind m.kind) then some (owner p) else none
  if m.isOut && m.kind == 9 then some 6
  else if m.isOut && m.kind == 1 && (List.range m.count).any (fun i => syncClose st.before (m.a + i)) then some 5
  else match rest.findSome? (fun e => sameItem m e.2) with
    | some p => some (if m.kind = 6 then 1 else owner p)
    | none => m.points.findSome? clash

/-- The owner held by an AIO channel whose output record comes to have points of two producers, a LOOP record and FORME: the
producer of its first point until then (R160; 18 Table 18.4). -/
def mixedOwner (st : Stage) : Option Nat :=
  let rs := mapRecs st.after
  let mixed (m : MapRec) : Bool := m.isOut && m.kind == 2 && m.points.any (engineMade rs) && !m.points.all (engineMade rs)
  (rs.find? (fun e => mixed e.2)).map (fun e => if engineMade (mapRecs st.before) e.2.first then 2 else 1)

/-- A point the active forme writes loses FORME as its producer (08 R174). -/
def formeLoses (st : Stage) : Option Nat :=
  match st.final.prog.forme with
  | none => none
  | some f => (allWritten f).find? (fun p =>
      !formeMade (mapRecs st.after) p && !formeMade (mapRecs st.final) p)

/-- A staged mapping record. -/
def checkMap (st : Stage) (idx sub : Nat) : Option Abort :=
  let k := 128 * (idx - 0x2900) + sub - 1
  let m := mapRecOf (cfgBytes st.after idx sub)
  let own : Option Abort := match (if m.kind = 0 then none else mapOwner st k m).or (mixedOwner st) with
    | some o => some (secondOwner idx sub o)
    | none => need (m.kind == 0 || mapRecOk st.final m) (badValue idx sub)
  own.or ((formeLoses st).map (fun p => abortAt 2 1 idx sub p))

/-- The first record of some kind that a change of a resource's own configuration breaks. -/
def brokenRecord (s : State) (names : MapRec → Bool) : Option Abort :=
  ((mapRecs s).find? (fun e => names e.2 && !mapRecOk s e.2)).map (fun e => badValue (mapObj e.1).1 (mapObj e.1).2)

/-! ### Bindings and slots (06 R145; 07 R162, R163) -/

/-- The owner that binding b needs stands at its target. -/
def bindOwned (s : State) (b : BindRec) : Bool :=
  match b.kind with
  | 1 => b.target < 96 && cfgNat s (0x3000 + b.target) 1 == 3 && decide (dioOwner s b.target = .forme)
  | 2 => b.target < 1024 && loopConfigured s b.target
  | 3 => b.target < 16
  | _ => false

/-- Binding kind that a slot kind needs. -/
def slotBind (kind : Nat) : Nat := if kind ≤ 3 then 1 else kind - 2

/-- Fields of a slot record (Table 6.7). -/
def slotRecOk (r : SlotRec) : Bool :=
  r.kind ≤ 5 && r.tracker ≤ 7 && r.advance ≤ 10000 && (if r.kind = 3 then 1 ≤ r.width else r.width == 0)
    && r.target < (if r.kind ≤ 3 then 96 else if r.kind = 4 then 1024 else 16)

/-- A slot and the binding that names it agree, and its tracker is not OFF. -/
def slotAgrees (s : State) (n : Nat) : Bool :=
  let r := slotRec s n
  let bs := ((bindRecsOf s.config).map Prod.snd).filter (fun b => b.source == n)
  if r.kind = 0 then bs.isEmpty
  else slotRecOk r && trkMode s r.tracker != 0 && bs.any (fun b => b.kind == slotBind r.kind && b.target == r.target)

/-- The first of some slots that breaks R145. -/
def brokenSlot (s : State) (l : List Nat) : Option Abort :=
  (l.find? (fun n => !slotAgrees s n)).map (fun n => badValue 0x3880 (n / 2 + 1))

/-- A staged binding record. -/
def checkBind (st : Stage) (idx sub : Nat) : Option Abort :=
  let k := 128 * (idx - 0x2A00) + sub - 1
  let now := (bindRecsOf st.after.config).find? (fun e => e.1 == k)
  let was := (bindRecsOf st.before.config).find? (fun e => e.1 == k)
  let own : Option Abort := match now with
    | none => none
    | some (_, b) =>
      if 255 < b.source then some (badValue idx sub)
      else if (bindRecsOf st.after.config).any (fun e => e.1 != k && e.2.source == b.source) then some (secondOwner idx sub 4)
      else need (bindOwned st.final b) (badValue idx sub)
  own.or (brokenSlot st.final ((was.toList ++ now.toList).map (fun e => e.2.source)))

/-- The first binding to a target that the result no longer owns as Table 7.6 needs. -/
def brokenBind (s : State) (kind target : Nat) : Option Abort :=
  ((bindRecsOf s.config).find? (fun e => e.2.kind == kind && e.2.target == target && !bindOwned s e.2)).map
    (fun e => badValue (0x2A00 + e.1 / 128) (e.1 % 128 + 1))

/-- A staged pair of slot records. -/
def checkSlotPair (st : Stage) (sub : Nat) : Option Abort := brokenSlot st.final [2 * (sub - 1), 2 * (sub - 1) + 1]

/-! ### Trackers and synchro-check (06 R141, R150; 12 R291) -/

/-- Synchro-check instance i in use: its trackers run in mains mode, its close channel is an output. -/
def checkSc (s : State) (i : Nat) : Option Abort :=
  let ch := cfgNat s (0x38C0 + i) 3
  if ch = 255 then none
  else if trkMode s (cfgNat s (0x38C0 + i) 1) ≠ 2 then some (badValue (0x38C0 + i) 1)
  else if trkMode s (cfgNat s (0x38C0 + i) 2) ≠ 2 then some (badValue (0x38C0 + i) 2)
  else need (cfgNat s (0x3000 + ch) 1 == 3) (badValue (0x3000 + ch) 1)

/-- A staged object of an instance; naming a channel that the other instance or an output record holds makes it a second
owner. -/
def checkScObj (st : Stage) (i sub : Nat) : Option Abort :=
  let ch := cfgNat st.after (0x38C0 + i) 3
  let held := ch != 255 && (cfgNat st.after (0x38C0 + (1 - i)) 3 == ch || (outRecFor st.after 1 ch 0).isSome)
  if sub = 3 ∧ held then some (secondOwner (0x38C0 + i) 3 5)
  else (checkSc st.final i).or (if sub = 3 then brokenBind st.final 1 ch else none)

/-- A staged object of tracker n. -/
def checkTracker (st : Stage) (n sub : Nat) : Option Abort :=
  let src (s : State) (k : Nat) : Nat := cfgNat s (0x3800 + k) 2
  let shared := trkMode st.after n == 1 && (List.range 8).any (fun k =>
    k != n && trkMode st.after k == 1 && src st.after k == src st.after n)
  if sub ≠ 1 ∧ sub ≠ 2 then none
  else if shared then some (secondOwner (0x3800 + n) sub 4)
  else if trkMode st.final n = 2 ∧ 1 < src st.final n then some (abortAt 2 2 (0x3800 + n) 2 1)
  else if sub = 2 then none
  else (brokenSlot st.final ((slotsUsed st.final).filter (fun k => (slotRec st.final k).tracker == n))).or
    ((checkSc st.final 0).or (checkSc st.final 1))

/-! ### Ring (05 R102, R109, R111, R125) -/

/-- Excess of a node table over R111 or Table 5.6. Where several are exceeded at once, the load's excess comes first, else
the largest excess in points (DESIGN CHOICE, log entry 76). -/
def pdExcess (s : State) : Nat :=
  let rs := nodeRecs s
  let p := pdPoints rs
  let beyond (v lim : Nat) : Nat := v - lim
  let load := beyond (pdLoad rs) 600000000
  if 0 < load then load
  else max (max (beyond (p 1) 8192) (beyond (p 2) 65536)) (beyond (p 1 + p 2 + p 3) 262144)

/-- The network buffers a node table needs beyond 1 MiB (01 R25, Table 1.8; log entry 16). -/
def networkExcess (s : State) : Nat :=
  Config.networkBuffers ((nodeRecs s).map (fun e => (e.2.node, e.2.classes, e.2.counts))) - 1048576

/-- A staged node record. A record with NODE 0 is unused: its counts are not judged (DESIGN CHOICE, log entry 76). -/
def checkNode (st : Stage) (idx sub : Nat) : Option Abort :=
  let k := 128 * (idx - 0x1900) + sub - 1
  let r := nodeRecOf (cfgBytes st.after idx sub)
  let counts (c : Nat) : Nat := r.counts.getD (2 * c - 2) 0 + r.counts.getD (2 * c - 1) 0
  if r.node = 0 then none
  else if 16383 < r.node ∨ [1, 2, 3].any (fun c => !r.has c && counts c != 0) then some (badValue idx sub)
  else if (nodeRecs st.after).any (fun e => e.1 != k && e.2.node == r.node) then some (secondOwner idx sub 1)
  else if bothFail st (fun s => 0 < pdExcess s) then some (overBudget idx sub (pdExcess st.final))
  else if bothFail st (fun s => 0 < networkExcess s) then some (overBudget idx sub (networkExcess st.final))
  else none

/-- A staged `NODE_ADDRESS`: a change needs STOP (R102). -/
def checkAddress (st : Stage) (live : State) : Option Abort :=
  need (nodeAddress st.after == nodeAddress live || decide (live.prog.mode = .stop))
    (abortAt 3 1 0x1800 1 live.prog.mode.num)

/-! ### Engine (09 R204, R213, R217, R223; 01 R15) -/

/-- Retained data of the forme, the loops and the axes beyond the retained area (01 Table 1.4). -/
def retainExcess (s : State) : Nat := ((s.prog.forme.map Forme.retainSize).getD 0) + retainedOther s.config - retainMax

def checkRetain (st : Stage) (idx : Nat) : Option Abort :=
  if bothFail st (fun s => 0 < retainExcess s) then some (overBudget idx 1 (retainExcess st.final)) else none

/-- Points that some loops sample: the clock loops once each, and those of every cadence loop by itself, for its firing has an
instant of its own (R217). -/
def pointsOf (s : State) (loops : List Nat) : Nat :=
  let clock := loops.filter (fun n => loopNat s n 3 == 0)
  let cadence := loops.filter (fun n => loopNat s n 3 != 0)
  (clock.flatMap (sampledPoints s)).eraseDups.length + (cadence.map (fun n => (sampledPoints s n).eraseDups.length)).sum

/-- Points that the loops sampled in tick t need in a commit record: clock loops due at it, and every cadence loop. -/
def tickPoints (s : State) (t : Nat) : Nat :=
  pointsOf s ((loopsUsed s).filter (fun n => loopNat s n 3 != 0 || t % loopNat s n 1 == loopNat s n 2 % loopNat s n 1))

/-- Most points sampled in one tick, in bytes of its record beyond 20 KiB (R204). -/
def tickExcess (s : State) : Nat :=
  if pointsOf s (loopsUsed s) ≤ 4091 then 0
  else
    let cycle := (loopsUsed s).foldl (fun a n => Nat.lcm a (loopNat s n 1)) 1
    let most := (List.range cycle).foldl (fun a t => max a (tickPoints s t)) 0
    5 * most + 24 - 20480

/-- A group in use follows R213, membership apart. DESIGN CHOICE (log entry 91): a loop listed twice breaks it too, which the
cases of R213 do not name. -/
def groupOk (s : State) (m : List Nat) : Bool :=
  let key (n : Nat) : Nat × Nat × Nat := (loopNat s n 1, loopNat s n 2, loopNat s n 3)
  2 ≤ m.length && m.eraseDups.length == m.length && m.all (fun n => n < 1024 && loopConfigured s n)
    && m.all (fun n => key n == key (m.headD 0))

/-- A staged group. -/
def checkGroup (st : Stage) (g : Nat) : Option Abort :=
  let m := membersOf (cfgBytes st.after (0x4400 + g) 1)
  let taken (s : State) : Bool := (groupsIn s.config).any (fun e => e.1 != g && e.2.any m.contains)
  if m.isEmpty then none
  else need (groupOk st.final m && !bothFail st taken) (badValue (0x4400 + g) 1)

/-- The group of a loop whose own configuration changes. -/
def checkGroupOf (s : State) (n : Nat) : Option Abort :=
  match groupOfLoop s n with
  | some (g, m) => need (groupOk s m) (badValue (0x4400 + g) 1)
  | none => none

/-- A range of REAL32 taken from other objects of the same index (R96): below the minimum, above the maximum, or no number. -/
def checkReal (idx sub : Nat) (x lo hi : Real32) : Option Abort :=
  (rngCheck (.real lo hi) x.toNat).map (fun e => abortAt 2 e.1 idx sub e.2)

/-- The configuration of one loop (Table 9.9; R15, R217); the ranges hold in a slot not in use too (R223). -/
def loopRule (s : State) (n : Nat) : Option Abort :=
  let idx := 0x4000 + n
  let p := loopNat s n 1
  let least := if isPairUnit s then 3 else if loopNat s n 3 = 1 then 2 else 1
  let lo := loopReal s n 0x10
  let hi := loopReal s n 0x11
  if 0 < p ∧ p < least then some (abortAt 2 3 idx 1 least)
  else if 0 < p ∧ p ≤ loopNat s n 2 then some (abortAt 2 2 idx 2 (p - 1))
  else if !f32Lt lo hi then some (abortAt 2 2 idx 0x10 hi.toNat)
  else checkReal idx 0x13 (loopReal s n 0x13) lo hi

/-- A staged object of loop n. -/
def checkLoop (st : Stage) (n : Nat) : Option Abort :=
  (loopRule st.final n).or
    (if isPairUnit st.final ∧ bothFail st (fun s => 0 < tickExcess s) then
        some (abortAt 4 2 (0x4000 + n) 1 (tickExcess st.final)) else none) |>.or
    ((checkRetain st (0x4000 + n)).or ((checkGroupOf st.final n).or (brokenBind st.final 2 n)))

/-! ### Motion (14 R332, R337, R355, R358) -/

/-- A REAL32 is at most num / den. -/
def realAtMost (x : Real32) (num den : Nat) : Bool :=
  match f32Rat x with
  | some (n, d) => decide (n * den ≤ num * d)
  | none => false

/-- `AX_V_MAX` within Table 14.1. -/
def speedOk (s : State) (n : Nat) : Bool :=
  let v := cfgReal s (0x3400 + n) 6
  if axIntegrated n then realAtMost v (10000 * 2 ^ axNat s n 0x16) 1
  else realAtMost v 4000000 1 && realAtMost v 1000000000 (2 * axNat s n 0x20)

/-- The profile parameters of an axis follow R337: the first object that does not. -/
def axisRule (s : State) (n sub : Nat) : Option Abort :=
  let idx := 0x3400 + n
  let r (k : Nat) : Real32 := cfgReal s idx k
  let chk (subs : List Nat) (ok : Bool) : Option Abort := if subs.contains sub then need ok (badValue idx sub) else none
  (chk [4, 5] (f32Le 0 (r 4) && f32Le (r 4) (r 5))).or <| (chk [5, 6] (f32Le (r 5) (r 6))).or <|
    (chk [5, 0x0B] (f32Le (r 0x0B) (r 5))).or <| (chk [6, 0x16, 0x20] (speedOk s n)).or <|
    (chk [2] (!axFlag s n 2 || n < 2 || 8 ≤ n)).or <|
    (if [4, 5, 0x11].contains sub then checkReal idx 0x11 (r 0x11) (r 4) (r 5) else none).or <|
    (if [0x14, 0x15].contains sub && decide (cfgInt s idx 0x15 ≤ cfgInt s idx 0x14)
      then some (abortAt 2 2 idx 0x14 (axNat s n 0x15)) else none)

/-- A staged interpolation group. -/
def checkAxGroup (st : Stage) (g : Nat) : Option Abort :=
  match (axGroups st.after).find? (fun e => e.1 == g) with
  | none => none
  | some (_, m) =>
    let taken (s : State) : Bool := (axGroups s).any (fun e => e.1 != g && e.2.any m.contains)
    need (2 ≤ m.length && m.eraseDups.length == m.length && m.all (axUsed st.final) && !bothFail st taken)
      (badValue (0x3480 + g) 1)

/-- A staged object of an axis. -/
def checkAxis (st : Stage) (n sub : Nat) : Option Abort :=
  let k := axNat st.after n 0x0C
  let shared := k < 8 && (List.range 24).any (fun j => j != n && axNat st.after j 0x0C == k)
  if sub = 0x0C then (if shared then some (secondOwner (0x3400 + n) sub 3) else none)
  else if sub = 1 then
    (checkRetain st (0x3400 + n)).or (match groupOfAxis st.final n with
      | some (g, m) => need (m.all (axUsed st.final)) (badValue (0x3480 + g) 1)
      | none => none)
  else axisRule st.final n sub

/-! ### CAN (15 R365, R366, R368) -/

/-- Oscillator periods per bit of a timing: BRP × quanta. -/
def bitPeriods (brp tseg1 tseg2 : Nat) : Nat := brp * (1 + tseg1 + tseg2)

/-- The nominal timing of a port follows R365. -/
def nominalOk (b : List Byte) : Bool :=
  let brp := fieldAt b 0 2
  let t1 := fieldAt b 2 2
  let t2 := fieldAt b 4 1
  let sjw := fieldAt b 5 1
  within brp 1 256 && within t1 2 256 && within t2 2 128 && within sjw 1 128 && sjw ≤ t2
    && within (bitPeriods brp t1 t2) 80 8000

/-- The data timing of a port follows R365 and R366, against its nominal timing. -/
def dataOk (d b : List Byte) : Bool :=
  let brp := fieldAt d 0 1
  let t1 := fieldAt d 1 1
  let t2 := fieldAt d 2 1
  let sjw := fieldAt d 3 1
  within brp 1 32 && within t1 1 32 && within t2 1 16 && within sjw 1 16 && sjw ≤ t2 && fieldAt d 4 1 ≤ 1
    && fieldAt d 5 1 ≤ 127 && 16 ≤ bitPeriods brp t1 t2
    && bitPeriods brp t1 t2 ≤ bitPeriods (fieldAt b 0 2) (fieldAt b 2 2) (fieldAt b 4 1)

/-- A buffer record follows Table 15.4. -/
def bufRecOk (r : BufRec) : Bool :=
  let tx := r.kind == 3
  let fd := bitOf r.flags 1
  r.kind == 0 || (r.kind ≤ 3 && r.flags < 128
    && (if r.kind = 2 then within r.depth 2 64 && r.task < 48 else r.depth == 0 && r.task == 0xFF)
    && (bitOf r.flags 0 || r.id < 2048)
    && !(fd && bitOf r.flags 3) && (tx || (!bitOf r.flags 2 && !bitOf r.flags 4 && !bitOf r.flags 5)) && (!tx || !bitOf r.flags 6)
    && (if tx then r.mask == 0 && within r.trigger 1 3
          && (r.length ≤ 8 || (fd && [12, 16, 20, 24, 32, 48, 64].contains r.length))
          && (if r.trigger = 1 then 1 ≤ r.param else r.param == 0)
        else r.trigger == 0 && r.length == 0))

/-- Buffer memory of a port beyond 32 KiB. -/
def canExcess (s : State) (p : Nat) : Nat := canMemory ((List.range 128).map (bufRec s p)) - 32768

/-- A staged object of a CAN port. -/
def checkCan (st : Stage) (p sub : Nat) : Option Abort :=
  let s := st.final
  let idx := 0x3600 + p
  if sub = 2 ∨ sub = 3 ∨ sub = 4 then
    (need (nominalOk (cfgBytes s idx 2)) (badValue idx 2)).or
      (need (!bitOf (canFlags s p) 0 || dataOk (cfgBytes s idx 3) (cfgBytes s idx 2)) (badValue idx 3))
  else if 0x21 ≤ sub then
    let b := 2 * (sub - 0x21)
    (need (bufRecOk (bufRec s p b) && bufRecOk (bufRec s p (b + 1))) (badValue idx sub)).or
      ((if bothFail st (fun s => 0 < canExcess s p) then some (abortAt 4 2 idx sub (canExcess s p)) else none).or
        (brokenRecord s (fun m => m.kind == 6 && (m.a == p * 4096 + b || m.a == p * 4096 + b + 1))))
  else none

/-! ### The whole -/

/-- The checks of a staged configuration object. -/
def checkStaged (live : State) (st : Stage) (idx sub : Nat) : Option Abort :=
  if idx = 0x1800 then (if sub = 1 then checkAddress st live else none)
  else if 0x1900 ≤ idx ∧ idx ≤ 0x190F then checkNode st idx sub
  else if 0x2900 ≤ idx ∧ idx ≤ 0x291F then checkMap st idx sub
  else if 0x2A00 ≤ idx ∧ idx ≤ 0x2A03 then checkBind st idx sub
  else if 0x3000 ≤ idx ∧ idx ≤ 0x305F then
    let ch := idx - 0x3000
    if sub ≠ 1 then none
    else (brokenRecord st.final (fun m => m.kind == 1 && m.a ≤ ch && ch < m.a + m.count)).or
      ((brokenBind st.final 1 ch).or ((checkSc st.final 0).or (checkSc st.final 1)))
  else if 0x3200 ≤ idx ∧ idx ≤ 0x321F then
    let ch := idx - 0x3200
    if sub = 1 then brokenRecord st.final (fun m => m.kind == 2 && m.a ≤ ch && ch < m.a + m.count) else none
  else if 0x3400 ≤ idx ∧ idx ≤ 0x3417 then checkAxis st (idx - 0x3400) sub
  else if 0x3480 ≤ idx ∧ idx ≤ 0x3485 then (if sub = 1 then checkAxGroup st (idx - 0x3480) else none)
  else if 0x3600 ≤ idx ∧ idx ≤ 0x3607 then checkCan st (idx - 0x3600) sub
  else if 0x3800 ≤ idx ∧ idx ≤ 0x3807 then checkTracker st (idx - 0x3800) sub
  else if idx = 0x3880 then checkSlotPair st sub
  else if idx = 0x38C0 ∨ idx = 0x38C1 then checkScObj st (idx - 0x38C0) sub
  else if 0x4000 ≤ idx ∧ idx ≤ 0x43FF then checkLoop st (idx - 0x4000)
  else if 0x4400 ≤ idx ∧ idx ≤ 0x447F then checkGroup st (idx - 0x4400)
  else none

end Sys2Proof.Machine
end

