-- ==== Sys2Proof/Machine/Commit.lean ====
section
/-! DEFINITION. CONFIG_COMMIT and CONFIG_APPLY (04 R86, R88 to R92; 10 R228, R253, R254). -/

namespace Sys2Proof.Machine

/-! ### Direct objects (04 R74, R462) -/

/-- A staged direct object acts at the boundary of its commit (R89). -/
def directNow (idx sub : Nat) (data : List Byte) (n : Nat) (s : State) : State :=
  if 0x3400 ≤ idx ∧ idx ≤ 0x3417 then (axCommandOp (idx - 0x3400) data n s).2 else directEffect (objKey idx sub) data n s

/-- A direct object's write, by index and sub-index; every other object's bytes are kept as they are. -/
def directOp (idx sub off : Nat) (data : List Byte) (n : Nat) (s : State) : Answer × State :=
  if idx = 0xF000 then (if sub = 2 then bulkLengthOp data n s else bulkDataOp off data n s)
  else if 0x1200 ≤ idx ∧ idx ≤ 0x120F ∧ sub = 5 then slotKeyOp (idx - 0x1200) data n s
  else if idx = 0xB000 ∧ 0x20 ≤ sub then signerKeyOp (sub - 0x20) data n s
  else if idx = 0x38C0 ∨ idx = 0x38C1 then scArmOp (idx - 0x38C0) data n s
  else if 0x4000 ≤ idx ∧ idx ≤ 0x43FF ∧ sub = 0x1A then loopModeOp (idx - 0x4000) data n s
  else if 0x3400 ≤ idx ∧ idx ≤ 0x3417 then axCommandOp (idx - 0x3400) data n s
  else if 0x3600 ≤ idx ∧ idx ≤ 0x3607 then canRecoverOp (idx - 0x3600) data n s
  else if 0x4000 ≤ idx ∧ idx ≤ 0x43FF then deferred idx sub (fun _ _ s => (.ok [], s)) data n s
  else (.ok [], keepDirect idx sub data s)

/-! ### The staged writes as objects (R88, R89) -/

/-- Key of `SAFETY_FORME`, the one configuration object written in parts. -/
abbrev formeKey : Nat := 0x6000 * 256 + 0x10

/-- The objects staged, in ascending index:sub order, each with its last value; `SAFETY_FORME` apart. -/
def stagedObjs (ws : List Staged) : Tbl (List Byte) :=
  ws.foldl (fun m w => if w.key = formeKey then m else Tbl.insert m w.key w.data) []

/-- The bytes `SAFETY_FORME` would have. -/
def stagedForme (s : State) (ws : List Staged) : Memory :=
  ws.foldl (fun m w => if w.key = formeKey then Memory.writeN m w.off w.data else m) s.safe.formeBytes

/-- A transaction stages an RWS object (R90). -/
def hasRws (ws : List Staged) : Bool := ws.any (fun w => decide (keyAcc w.key = .rws))

/-- A configuration with some objects put into it; direct objects hold no place in it until they are applied. -/
def putObjs (c : Tbl (List Byte)) (objs : Tbl (List Byte)) : Tbl (List Byte) :=
  objs.foldl (fun c e => if directKey e.1 then c else cfgPut c (e.1 / 256) (e.1 % 256) e.2) c

/-- The state as checks see it with the whole transaction in place. -/
def resultOf (s : State) (ws : List Staged) : State :=
  { s with config := putObjs s.config (stagedObjs ws), safe := { s.safe with formeBytes := stagedForme s ws } }

/-! ### The checks of the whole transaction (R89; 18 R441) -/

/-- The checks of one staged object; a direct object is checked as its own write would be. -/
def checkObj (live final before : State) (n key : Nat) (v : List Byte) : Option Abort :=
  if directKey key then
    match (directOp (key / 256) (key % 256) 0 v n final).1 with
    | .error a => some a
    | .ok _ => none
  else
    let after := { before with config := cfgPut before.config (key / 256) (key % 256) v }
    checkStaged live ⟨before, after, final⟩ (key / 256) (key % 256)

/-- The objects in ascending order, each against the configuration as those before it have changed it. -/
def checkObjs (live final : State) (n : Nat) : Tbl (List Byte) → State → Option Abort
  | [], _ => none
  | e :: r, before =>
    match checkObj live final before n e.1 e.2 with
    | some a => some a
    | none => checkObjs live final n r { before with config := putObjs before.config [e] }

/-- Every check of a transaction. -/
def checkTxn (s : State) (n : Nat) (ws : List Staged) : Option Abort := checkObjs s (resultOf s ws) n (stagedObjs ws) s

/-! ### CONFIG_COMMIT (R89 to R91) -/

def commitBad (cls ss num detail : Nat) : Abort := ⟨cls, ss, num, 0xF007, 1, detail⟩

/-- The open transaction of a session. -/
def txnOf (s : State) (n : Nat) : Txn := ((getSession s n).txn).getD {}

/-- Keys staged, ascending. -/
def stagedKeys (ws : List Staged) : List Nat := (ws.foldl (fun m w => Tbl.insert m w.key ()) ([] : Tbl Unit)).map Prod.fst

/-- Areas staged, each with its first staged key. -/
def stagedAreas (ws : List Staged) : List (Nat × Nat) :=
  (stagedKeys ws).map (fun k => (((areaOf (k / 256)).map Prod.fst).getD 0, k))

/-- A staged area whose lease ended while writes to it were staged, or is not held now (R86; Table 4.12). -/
def leaseEnded (s : State) (n : Nat) (tx : Txn) : Option Abort :=
  (stagedAreas tx.writes).findSome? (fun e =>
    if tx.lostAreas.contains e.1 then some (abortAt 6 3 (e.2 / 256) (e.2 % 256))
    else leaseCheck s n e.1 (e.2 / 256) (e.2 % 256))

/-- The refusals before any check of the transaction. -/
def commitRefused (data : List Byte) (n : Nat) (s : State) : Option Abort :=
  let phase := fieldAt data 0 1
  let tx := txnOf s n
  if phase < 1 ∨ 3 < phase ∨ (phase ≠ 3 ∧ fieldAt data 4 4 ≠ 0) then some (commitBad 2 0xF0 1 0)
  else if isStandby s then some (commitBad 3 0x50 1 s.prog.mode.num)
  else match pendingChange s with
  | some c => some (commitBad 3 0xF0 2 c)
  | none =>
    if (getSession s n).txn.isNone then some (commitBad 3 0x10 3 0)
    else if phase = 1 ∧ hasRws tx.writes then some (commitBad 7 0x60 2 0)
    else leaseEnded s n tx

/-- A transaction that fails is discarded whole, and the command has failed (R89). -/
def commitFails (a : Abort) (n : Nat) (s : State) : Answer × State :=
  (.error a, modSession n (fun x => { x with txn := none }) (cmdFail 7 a (cmdStart 7 n s)))

/-- A transaction that passes leaves its session and waits to be applied; its leases are kept, and the banks are sent
their new words (R86, R89; 12 R286). -/
def commitAccepted (n : Nat) (s : State) : Answer × State :=
  let ws := (txnOf s n).writes
  let s := { s with sess := { s.sess with pending := some ⟨n, ws, localNow s⟩ } }
  let s := keepLeases 0xF007 n ((stagedAreas ws).map Prod.fst).eraseDups s
  let s := announceBanks (putObjs s.config (stagedObjs ws)) (modSession n (fun x => { x with txn := none }) s)
  cmdAccept 7 n s

/-- Phase 0x01. -/
def commitNow (n : Nat) (s : State) : Answer × State :=
  match checkTxn s n (txnOf s n).writes with
  | some a => commitFails a n s
  | none => commitAccepted n s

/-- The seal of the safety configuration that a transaction would leave (10 R228). -/
def sealAfter (s : State) (ws : List Staged) : Nat := liveSeal (resultOf s ws)

/-- Phase 0x02: every check, the safety verification, and the seal; nothing is applied. -/
def commitPrepare (n : Nat) (s : State) : Answer × State :=
  let ws := (txnOf s n).writes
  match (checkTxn s n ws).or (checkSafety (resultOf s ws)) with
  | some a => commitFails a n s
  | none =>
    let v := sealAfter s ws
    cmdNow 7 n (leBytes 4 v) (modSession n (fun x =>
      { x with txn := x.txn.map (fun t => { t with prepared := some (v, s.now + 60 * secNs) }) }) s)

/-- The safety outputs that are on. -/
def outputsOn (s : State) : Nat :=
  flagWord ((List.range 8).map (fun k => (k, (getStage s k).hOn && (getStage s k).lOn)))

/-- The RWS objects of a transaction. -/
def rwsObjs (ws : List Staged) : Tbl (List Byte) := (stagedObjs ws).filter (fun e => decide (keyAcc e.1 = .rws))


/-- The safety side of a confirmed transaction: only the all-off vector until it starts (10 R253). -/
def confirmSafety (ws : List Staged) (s : State) : State :=
  if hasRws ws then passChange (.safety (rwsObjs ws) (stagedForme s ws)) (takeSafety (rwsObjs ws) (stagedForme s ws) s) else s

/-- Phase 0x03. -/
def commitConfirm (sealNo n : Nat) (s : State) : Answer × State :=
  let tx := txnOf s n
  match tx.prepared with
  | none => (.error (commitBad 3 0x60 1 s.prog.mode.num), s)
  | some (v, lapse) =>
    if lapse < s.now then
      (.error (commitBad 3 0x60 1 s.prog.mode.num),
        modSession n (fun x => { x with txn := some { tx with prepared := none } }) s)
    else if sealNo ≠ v then commitFails (commitBad 7 0x60 1 v) n s
    else if outputsOn s ≠ 0 then (.error (commitBad 7 0x60 4 (outputsOn s)), s)
    else match (checkTxn s n tx.writes).or (checkSafety (resultOf s tx.writes)) with
      | some a => commitFails a n s
      | none => commitAccepted n (confirmSafety tx.writes s)

/-- An invocation of CONFIG_COMMIT (Table 4.10). -/
def commitOp (data : List Byte) (n : Nat) (s : State) : Answer × State :=
  match commitRefused data n s with
  | some a => (.error a, s)
  | none => match fieldAt data 0 1 with
    | 1 => commitNow n s
    | 2 => commitPrepare n s
    | _ => commitConfirm (fieldAt data 4 4) n s

/-- CONFIG_COMMIT (R89). -/
def execConfigCommit (t : Nat) (c : Cmd) (s : State) : Out := .next (rowReq c 0xF007 1 [1] commitOp (advance t s))
/-- CONFIG_COMMIT_PREPARE (R90). -/
def execConfigCommitPrepare (t : Nat) (c : Cmd) (s : State) : Out := .next (rowReq c 0xF007 1 [2] commitOp (advance t s))
/-- CONFIG_COMMIT_CONFIRM (R90). -/
def execConfigCommitConfirm (t : Nat) (c : Cmd) (s : State) : Out := .next (rowReq c 0xF007 1 [3] commitOp (advance t s))

/-! ### CONFIG_APPLY (R89, R91) -/

/-- Staged direct objects act as their own writes would. -/
def applyDirect (n : Nat) (objs : Tbl (List Byte)) (s : State) : State :=
  objs.foldl (fun s e => if directKey e.1 then directNow (e.1 / 256) (e.1 % 256) e.2 n s else s) s

/-- Committed values take the place of values written directly beside the configuration record. -/
def dropDirect (objs : Tbl (List Byte)) (s : State) : State :=
  let gone (k : Nat) : Bool := objs.any (fun e => e.1 == k && !directKey k)
  { s with sess := { s.sess with
    flashDirect := s.sess.flashDirect.filter (fun e => !gone e.1), flashDue := s.sess.flashDue.filter (fun e => !gone e.1) } }

/-- The time for an accepted commit: in STOP, or at the next 1000 ms boundary. -/
def applyDue (s : State) (since : Int) : Bool := up s && (decide (s.prog.mode = .stop) || boundarySince s since)

/-- The generation counts the applied commit, which is recorded. -/
def countCommit (s : State) : State :=
  let g := (s.sess.generation + 1) % 2 ^ 32
  emit 0x3300 0 (leBytes 4 g) { s with sess := { s.sess with generation := g } }

def applyPending (p : PendingCommit) (s : State) : State :=
  let objs := (stagedObjs p.writes).filter (fun e => decide (keyAcc e.1 ≠ .rws))
  let s := armStaged objs (adoptConfig (putObjs s.config objs) { s with sess := { s.sess with pending := none } })
  let s := countCommit (dropDirect objs (applyDirect p.session objs s))
  cmdDone 7 [] (releaseKept (passChange (.config objs s.sess.generation) s))

def configApplyState (s : State) : State :=
  match s.sess.pending with
  | some p => if applyDue s p.since then applyPending p s else s
  | none => s

/-- CONFIG_APPLY (R89). -/
def execConfigApply (t : Nat) (s : State) : Out := .next (configApplyState (advance t s))

/-! ### What waits for a commit that is due (R89; 05 R102; 09 R220) -/

/-- A change accepted in STOP is applied in STOP: before RUN is entered (05 R102). -/
def execRunEntry (t : Nat) (s : State) : Out :=
  let s := advance t s
  .next (if runEntryDue s then runEntryState (configApplyState s) else s)

/-- At its boundary a configuration comes before the tasks and ticks of that instant, so that every task and loop sees either
all old or all new values (R89; 09 R220). -/
def applyFirst (s : State) : State := if s.prog.mode = .stop then s else configApplyState s

/-- TASK_RELEASE (08 R183). -/
def execTaskRelease (t : Nat) (k : Fin 48) (s : State) : Out := .next (taskReleaseState k (applyFirst (advance t s)))

end Sys2Proof.Machine
end

