-- ==== Sys2Proof/Machine/Access.lean ====
section
/-! DEFINITION. WRITE_OBJECT: a WRITE of any object, by its index and sub-index (04 R72 to R74, R88). -/

namespace Sys2Proof.Machine

/-- What a checked WRITE outside a transaction does: a command object's invocation, or a direct object's write. A patch
set installed through this row finds room in flash (log entry 46). -/
def objectOp (idx sub off : Nat) (data : List Byte) (n : Nat) (s : State) : Answer × State :=
  if idx = 0xF001 then modeSetOp data n s
  else if idx = 0xF002 then onlineChangeOp data n s
  else if idx = 0xF003 then readmitOp data n s
  else if idx = 0xF004 then timeRestepOp data n s
  else if idx = 0xF005 then snapshotOp data n s
  else if idx = 0xF006 then switchoverOp data n s
  else if idx = 0xF007 then commitOp data n s
  else if idx = 0xF008 then leaseOp data n s
  else if idx = 0xF009 then forceOp data n s
  else if idx = 0xF00A then domainResetOp data n s
  else if idx = 0xF00B then patchOp false data n s
  else directOp idx sub off data n s

/-- The restarts that follow the answer of DOMAIN_RESET and PATCH_INSTALL. -/
def restartsAfter (idx : Nat) (s : State) : State :=
  if idx = 0xF00A then wholeRestart s else if idx = 0xF00B then patchRestart s else s

def writeObjectState (h : Hdr) (idx sub ty off : Nat) (data : List Byte) (s : State) : State :=
  restartsAfter idx (writeReq h idx sub ty off data (objectOp idx sub off data) (closeDue s))

/-- WRITE_OBJECT (R74). -/
def execWriteObject (t : Nat) (h : Hdr) (idx sub ty off : Nat) (data : List Byte) (s : State) : Out :=
  .next (writeObjectState h idx sub ty off data (advance t s))

end Sys2Proof.Machine
end

