-- ==== Sys2Proof/Machine/Read.lean ====
section
/-! DEFINITION. READ: the bytes of every readable object, and the checks of a READ request (04 R70 to R73; 04 R461; 07
R170; 17 R417). -/

namespace Sys2Proof.Machine

/-! ### Objects the module produces, by area -/

/-- Identity (00 Table 0.1). -/
def readIdentity (s : State) (sub : Nat) : List Byte :=
  match sub with
  | 2 => leBytes 4 serialNumber
  | 3 => leBytes 2 (1 + Config.hwIssueRaw % 999)
  | 5 => leBytes 4 s.mgmt.patchId
  | 6 => leBytes 1 s.mgmt.patchCount
  | 7 => leBytes 1 (if s.pwr.posB then 0x42 else 0x41)
  | _ => defaultBytes 0x1000 sub

/-- Sessions (04 Table 4.7). -/
def readSession (s : State) (n sub : Nat) : List Byte :=
  let x := getSession s n
  match sub with
  | 1 => leBytes 1 x.state
  | 2 => leBytes 1 x.role
  | 3 => leBytes 1 x.slot
  | 4 => leBytes 1 x.path
  | 5 => leBytes 2 x.peer
  | _ => leBytes 1 x.closeCause

/-- Key set and lock of a host slot (04 Table 4.7). -/
def readSlot (s : State) (k sub : Nat) : List Byte :=
  leBytes 1 (flagBit 0 (if sub = 3 then (getSlot s k).key.isSome else slotLocked s k))

/-- Power and domains (03 Table 3.10). -/
def readPower (s : State) (sub : Nat) : List Byte :=
  let p := s.pwr
  match sub with
  | 1 => leBytes 1 p.cause
  | 3 => leBytes 1 p.kind
  | 4 => leBytes 2 (supplyStatus p)
  | 5 => leBytes 2 p.domains
  | 6 => leBytes 1 (flagBit 0 p.relayOpen)
  | 7 => leBytes 4 p.transitions
  | 8 => leBytes 2 p.tripsT1
  | 9 => leBytes 2 p.tripsT2
  | 10 => leBytes 8 (aonTime s)
  | 11 => leBytes 8 (opTime s)
  | 12 => leBytes 4 p.cycles
  | 13 => leBytes 1 (flagBit 0 p.supercapLow)
  | _ => leBytes 2 p.margin

/-- Station ring (05 Table 5.9). -/
def readRing (s : State) (sub : Nat) : List Byte :=
  let r := s.ring
  match sub with
  | 3 => leBytes 1 (ringState s)
  | 4 => leBytes 1 (portState r)
  | 5 => leBytes 2 r.lastBreak.1 ++ leBytes 1 r.lastBreak.2.1 ++ leBytes 1 r.lastBreak.2.2.1
      ++ leBytes 4 r.lastBreak.2.2.2.1 ++ leInt 8 r.lastBreak.2.2.2.2
  | 6 => leBytes 4 (pdLoad (nodeRecs s))
  | 7 => [1, 2, 3].flatMap (fun c => leBytes 4 (pdPoints (nodeRecs s) c))
  | 8 => leBytes 4 r.fcsT1
  | 9 => leBytes 4 r.fcsT2
  | 10 => leBytes 4 r.unknown
  | _ => leBytes 8 r.duplicates

/-- A path delay as its UINT32 object shows it; below zero the manual gives it no form, so a free value stands there (log
entry 77). -/
def delayShown (d : Int) : Nat := if 0 ≤ d then d.toNat else Config.negativeDelay d % 2 ^ 32

/-- Time (06 Table 6.11). -/
def readTime (s : State) (sub : Nat) : List Byte :=
  let c := s.clk
  match sub with
  | 2 => leBytes 1 c.state.num
  | 3 => leInt 8 (localNow s)
  | 4 => leBytes 8 (rawCount s)
  | 5 => leInt 8 c.theta
  | 6 => leInt 4 c.rate
  | 7 => leBytes 2 c.masterNode
  | 8 => leBytes 4 (delayShown c.pathT1)
  | 9 => leBytes 4 (delayShown c.pathT2)
  | 10 => leBytes 4 c.loop
  | 11 => leBytes 4 c.linkT1
  | 12 => leBytes 4 c.linkT2
  | _ => leBytes 4 c.steps

/-- A tracker (06 Table 6.12). -/
def readTracker (s : State) (n sub : Nat) : List Byte :=
  let x := getTracker s n
  match sub with
  | 12 => leBytes 1 x.state.num
  | 13 => leBytes 4 (angleAt s n (localNow s)).toNat
  | 14 => leBytes 4 (speedAt s n (localNow s)).toNat
  | 15 => leBytes 1 (trkFlags x)
  | _ => leBytes 4 x.level.toNat

/-- Four scheduler slots (06 Table 6.13). -/
def readSlots (s : State) (sub : Nat) : List Byte :=
  (List.range 4).flatMap (fun i => slotStatus (getSched s (4 * (sub - 0x81) + i)))

/-- A synchro-check instance (06 Table 6.14). -/
def readSc (s : State) (i sub : Nat) : List Byte :=
  match sub with
  | 11 => leBytes 1 (flagBit 0 (getSc s i).arm)
  | 12 => leBytes 1 (getSc s i).state.num
  | _ => scResult (getSc s i)

/-- Process image (07 Table 7.9). -/
def readImage (s : State) (sub : Nat) : List Byte :=
  match sub with
  | 2 => leBytes 4 (mappedPoints s)
  | 3 => leBytes 2 s.img.forces.length
  | _ => forceList s

/-- Remaining ms of HOLD (08 Table 8.16). -/
def holdRemaining (s : State) : Nat := if s.prog.mode = .hold then (s.prog.holdUntil - s.now) / msNs else 0

/-- `OC_STATE` (08 Table 8.16). -/
def ocCode : OcState → Nat
  | .idle => 0 | .preparing => 1 | .waiting => 2 | .swapped => 3 | .abandoned => 4

/-- Program execution (08 Table 8.16). -/
def readProgram (s : State) (sub : Nat) : List Byte :=
  let p := s.prog
  match sub with
  | 1 => leBytes 1 p.mode.num
  | 2 => leBytes 4 (holdRemaining s)
  | 3 => leBytes 1 p.stopCause
  | 4 => leBytes 8 (formeId s)
  | 5 => leBytes 4 p.generation
  | 6 => leInt 8 (clockNow s)
  | 7 => leBytes 1 (if isSplit s then 6 else 4)
  | 8 => leBytes 4 ((p.forme.map Forme.dataSize).getD 0)
  | 9 => leBytes 4 (retainUsed s)
  | _ => leBytes 1 (ocCode p.oc.state)

/-- `TASK_DEF` (08 Table 8.5). -/
def taskDefBytes (d : TaskDef) : List Byte :=
  leBytes 1 d.kind ++ leBytes 1 d.core ++ leBytes 1 d.priority ++ [0] ++ leBytes 4 d.periodUs ++ leBytes 4 d.entry
    ++ leBytes 4 d.wcet

/-- A task (08 Table 8.16). -/
def readTask (s : State) (k sub : Nat) : List Byte :=
  if sub = 1 then taskDefBytes (taskDef s k) else taskStatus s k

/-- A loop (09 Table 9.9). -/
def readLoop (s : State) (n sub : Nat) : List Byte :=
  let x := getLoop s n
  match sub with
  | 29 => leBytes 4 x.shownStatus
  | 30 => leBytes 4 x.shownOut.toNat
  | 31 => leBytes 4 x.cand.toNat
  | 32 => leBytes 4 x.x.toNat
  | 33 => leBytes 4 x.lag.toNat
  | 34 => leBytes 4 x.i.toNat
  | 35 => leBytes 4 x.updates
  | _ => leBytes 1 (((groupOfLoop s n).map Prod.fst).getD 0xFF)

/-- An override group (09 Table 9.10). -/
def readGroup (s : State) (g sub : Nat) : List Byte :=
  match sub with
  | 2 => leBytes 4 (getGroup s g).out.toNat
  | 3 => leBytes 2 (getGroup s g).winner
  | _ => leBytes 4 (getGroup s g).switches

/-- `SAFETY_INPUT_FAULTS` (10 Table 10.6). -/
def inputFaults (s : State) : Nat :=
  flagWord ((List.range 16).map (fun n => (n, (getTerm s (2 * n)).held || (getTerm s (2 * n + 1)).held)))

/-- `TP_STATUS` (11 Table 11.9). -/
def tpStatus (s : State) : Nat := flagWord ((List.range 8).map (fun k => (k, (getTp s k).overload)))

/-- Safety (10 Table 10.6, 11 Table 11.9). -/
def readSafety (s : State) (sub : Nat) : List Byte :=
  let x := s.safe
  if 0xB0 ≤ sub then leBytes 2 (soStatus (getStage s (sub - 0xB0)))
  else if 0xA0 ≤ sub then leBytes 2 (Tbl.get s.sio.shownSi 0 (sub - 0xA0))
  else if 0x70 ≤ sub then Tbl.get s.sio.shownSf (List.replicate 4 0) (sub - 0x70)
  else match sub with
  | 2 => leBytes 1 s.pwr.boot
  | 4 => leBytes 1 x.state.num
  | 5 => leBytes 4 x.sealHash
  | 6 => leBytes 8 ((x.forme.map Forme.id).getD 0)
  | 7 => leBytes 1 x.cause
  | 8 => leBytes 4 x.faults
  | 9 => leBytes 8 x.cycles
  | 10 => leBytes 4 x.maxA
  | 11 => leBytes 4 x.maxB
  | 12 => leBytes 4 x.injections
  | 13 => leBytes 4 x.misses
  | 14 => leBytes 2 (inputFaults s)
  | 15 => leBytes 1 (flagBit 0 x.mismatch)
  | _ => leBytes 1 (tpStatus s)

/-- A DIO channel, and a bank at its first channel (12 Table 12.8, Table 12.10). -/
def readDio (s : State) (ch sub : Nat) : List Byte :=
  let x := getDio s ch
  let b := getBank s (ch / 12)
  match sub with
  | 5 => leBytes 2 (dioStatus s ch)
  | 6 => leBytes 1 (dioOwner s ch).code
  | 7 => leBytes 1 (faultCount s.now x.faults)
  | 8 => leBytes 4 x.lifetime
  | 9 => leBytes 2 x.current
  | 10 => leInt 8 x.lastEdge
  | 0x21 => leBytes 1 (bankCode s (ch / 12))
  | 0x22 => leBytes 2 b.flags
  | 0x23 => leBytes 2 b.currentMa
  | 0x24 => leBytes 2 b.supplyMv
  | 0x25 => leInt 1 b.temp
  | 0x26 => leBytes 4 b.badFrames
  | _ => leBytes 4 b.linkFaults

/-- An AIO channel (13 Table 13.7). -/
def readAio (s : State) (ch sub : Nat) : List Byte :=
  let x := getAio s ch
  match sub with
  | 7 => leBytes 2 x.status
  | 8 => leBytes 1 (aioOwner s ch).code
  | 9 => leBytes 4 x.current.toNat
  | 10 => leBytes 4 x.applied.toNat
  | 11 => leBytes 4 (f32OfRat x.termMv 1000).toNat
  | 12 => leBytes 1 (faultCount s.now x.faults)
  | 13 => leBytes 4 x.lifetime
  | _ => leInt 1 x.temp

/-- Factory records (13 Table 13.9). -/
def readFactory (sub : Nat) : List Byte :=
  if sub ≤ 0x20 then factoryAio (sub - 1) else if sub ≤ 0x22 then factoryMains (sub - 0x21)
  else leBytes 256 Config.factorySensors

/-- An axis (14 Table 14.7). -/
def readAxis (s : State) (n sub : Nat) : List Byte :=
  let x := getAxis s n
  match sub with
  | 0x22 => [0]
  | 0x23 => leBytes 4 (axStatus s n)
  | 0x24 => leInt 4 x.count
  | 0x25 => leInt 4 x.target
  | 0x26 => leBytes 4 (f32OfRat x.curV (2 ^ 32)).toNat
  | 0x27 => leBytes 2 (if axIntegrated n then s.mot.derate else 1500)
  | 0x28 => leBytes 1 (axisOwner s n).code
  | 0x29 => leBytes 1 (faultCount s.now x.faults)
  | 0x2A => leBytes 4 x.lifetime
  | 0x2B => leInt 4 x.latch
  | 0x2C => leBytes 1 (if x.valid then 0 else x.lost)
  | _ => leBytes 1 x.homeResult

/-- Every member of a group stands at its target. -/
def groupAtTarget (s : State) (g : Nat) : Bool :=
  (axGroups s).any (fun e => e.1 == g && e.2.all (fun n => bitOf (axStatus s n) 2))

/-- An interpolation group (14 Table 14.8). -/
def readAxGroup (s : State) (g sub : Nat) : List Byte :=
  let x := getAxGroup s g
  if sub = 6 then
    leBytes 2 (flagWord [(0, x.moving), (1, !x.moving && groupAtTarget s g), (2, x.retarget), (3, x.stopped), (4, x.limited)])
  else leBytes 4 (f32OfRat x.path (2 ^ 32)).toNat

/-- A CAN port (15 Table 15.7). -/
def readCan (s : State) (p sub : Nat) : List Byte :=
  let x := getPort s p
  if 0x61 ≤ sub then (List.range 4).flatMap (fun i => bufStatus s p (4 * (sub - 0x61) + i))
  else match sub with
  | 7 => [0]
  | 8 => leBytes 2 (canStatus s p)
  | 9 => leBytes 1 (sat 8 x.tec)
  | 10 => leBytes 1 (sat 8 x.rec_)
  | 11 => (x.found ++ List.replicate 8 0).take 8
  | 12 => canCounters x
  | _ => leBytes 1 x.lastError

/-- Redundancy (16 Table 16.9). -/
def readPair (s : State) (sub : Nat) : List Byte :=
  let x := s.pair
  match sub with
  | 1 => leBytes 1 x.state.num
  | 2 => leBytes 1 (healthGrade s)
  | 3 => leBytes 4 (healthCauses s)
  | 4 => leBytes 2 (ownClaim s)
  | 5 => leBytes 2 x.partnerClaim
  | 6 => leBytes 1 x.partnerGrade
  | 7 => leBytes 4 x.partnerSerial
  | 10 => leBytes 2 (flagWord [(0, isPairUnit s), (1, x.presChanged), (2, x.yielded), (3, x.abandoned)])
  | 11 => leBytes 4 x.switchovers
  | 12 => leBytes 1 x.last.1 ++ leBytes 1 x.last.2.1 ++ [0, 0] ++ leBytes 4 x.last.2.2.1 ++ leInt 8 x.last.2.2.2
  | 13 => [x.sent, x.lateAcks, x.mismatches, x.copies, x.fcs, x.resent].flatMap (leBytes 4)
  | 14 => leBytes 4 x.latency
  | _ => (List.range 8).flatMap (fun r => leBytes 4 (Tbl.get x.selftest 0 (r + 1)))

/-- Seconds a presence window stays open, a begun second counted (17 R427). -/
def presenceLeft (s : State) : Nat :=
  match s.sess.presence with
  | some t => (t - s.now + secNs - 1) / secNs
  | none => 0

/-- Management (17 Table 17.10). -/
def readMgmt (s : State) (sub : Nat) : List Byte :=
  let r := s.mgmt.readings
  match sub with
  | 1 => (List.range 8).flatMap (fun i => leInt 2 (r.temps.getD i 0))
  | 2 => (List.range 18).flatMap (fun i => leBytes 2 (r.rails.getD i 0))
  | 3 => (List.range 10).flatMap (fun i => leBytes 2 (r.supplies.getD i 0))
  | 4 => leBytes 1 r.humidity
  | 5 => (List.range 6).flatMap (fun i => leBytes 2 (r.accel.getD i 0))
      ++ (List.range 3).flatMap (fun i => leBytes 2 (s.mgmt.peaks.getD i 0)) ++ List.replicate 6 0
  | 6 => leBytes 2 r.supercap
  | 16 => leBytes 1 (presenceLeft s)
  | 17 => leBytes 1 s.mgmt.patchState
  | 18 => leBytes 4 (if s.mgmt.patchState = 2 then s.mgmt.heldId else 0)
  | _ => leBytes 64 Config.devicePublicKey

/-- An entry of the last-gasp ring (17 R421). -/
def gaspBytes (g : Gasp) : List Byte := leBytes 6 g.aon ++ leBytes 2 g.code ++ leBytes 2 g.source ++ recData g.data

/-- Recorder (17 Table 17.11). -/
def readRecorder (s : State) (sub : Nat) : List Byte :=
  match sub with
  | 1 => leBytes 2 (recHealth s.recd)
  | 2 => leBytes 4 s.recd.newest
  | 3 => leBytes 4 s.recd.drops
  | 5 => (List.range 256).flatMap (fun c => leBytes 4 (Tbl.get s.recd.buckets {} c).total)
  | _ => (s.recd.gasp.flatMap gaspBytes ++ List.replicate 256 0).take 256

/-- A command object's status (04 Table 4.11), and `CONFIG_GENERATION`. -/
def readCmd (s : State) (c sub : Nat) : List Byte :=
  let x := getCmd s c
  match sub with
  | 2 => leBytes 1 x.status
  | 3 => (x.result ++ List.replicate 16 0).take 16
  | 4 => leBytes 1 x.invoker
  | _ => leBytes 4 s.sess.generation

/-- The bulk buffer's objects (04 R94). -/
def readBulk (s : State) (sub : Nat) : List Byte :=
  if sub = 2 then leBytes 4 s.sess.bulkLen else leBytes 4 (crc32 (bulkBytes s)).toNat

/-! ### A whole object, and a part of one -/

/-- Objects with a value outside the configuration store although a host may write them. -/
def heldApart (idx sub : Nat) : Bool :=
  (idx == 0xF000 && sub == 2) || (0x38C0 ≤ idx && idx ≤ 0x38C1 && sub == 11) ||
    (0x3400 ≤ idx && idx ≤ 0x3417 && sub == 0x22) || (0x3600 ≤ idx && idx ≤ 0x3607 && sub == 7)

/-- The value of an object the module produces. -/
def readLive (s : State) (idx sub : Nat) : List Byte :=
  if idx = 0x1000 then readIdentity s sub
  else if idx < 0x1200 then readSession s (idx - 0x1100) sub
  else if idx < 0x1800 then readSlot s (idx - 0x1200) sub
  else if idx = 0x1800 then readRing s sub
  else if idx < 0x2000 then nodeStatus s (128 * (idx - 0x1A00) + (sub - 1))
  else if idx = 0x2000 then readPower s sub
  else if idx = 0x2200 then readTime s sub
  else if idx = 0x2400 then readProgram s sub
  else if idx < 0x2800 then readTask s (idx - 0x2500) sub
  else if idx = 0x2800 then readImage s sub
  else if idx < 0x3200 then readDio s (idx - 0x3000) sub
  else if idx < 0x3400 then readAio s (idx - 0x3200) sub
  else if idx < 0x3480 then readAxis s (idx - 0x3400) sub
  else if idx < 0x3600 then readAxGroup s (idx - 0x3480) sub
  else if idx < 0x3800 then readCan s (idx - 0x3600) sub
  else if idx < 0x3880 then readTracker s (idx - 0x3800) sub
  else if idx = 0x3880 then readSlots s sub
  else if idx < 0x4000 then readSc s (idx - 0x38C0) sub
  else if idx < 0x4400 then readLoop s (idx - 0x4000) sub
  else if idx < 0x5000 then readGroup s (idx - 0x4400) sub
  else if idx = 0x5000 then readPair s sub
  else if idx = 0x6000 then readSafety s sub
  else if idx = 0xA000 then readRecorder s sub
  else if idx = 0xB000 then readMgmt s sub
  else if idx = 0xC000 then readFactory sub
  else if idx = 0xF000 then readBulk s sub
  else readCmd s (idx - 0xF000) sub

/-- The bytes of an object transferred whole (R72). -/
def readObject (s : State) (idx sub : Nat) (r : ObjRow) : List Byte :=
  if sub = 0 then leBytes 1 r.dflt
  else if (r.acc = .rw ∨ r.acc = .rws) ∧ !heldApart idx sub then cfgBytes s idx sub
  else readLive s idx sub

/-- `n` bytes of an object transferred in parts, from an offset (R72). -/
def readPart (s : State) (idx sub off n : Nat) : List Byte :=
  if idx = 0x2800 then (List.range (n / 16)).flatMap (fun i => pointEntry s (off / 16 + i))
  else if idx = 0xA000 then
    let pick := if sub = 16 then RecBank.ring else RecBank.firsts
    (List.range (n / 32)).flatMap (fun i => slotBytes s.recd pick (off / 32 + i))
  else if idx = 0x6000 then Memory.readN s.safe.formeBytes off n
  else ((ocReport s.prog.oc).drop off).take n

/-! ### READ (R72, R461) -/

/-- Entries and records are read whole (07 R170; 17 R417): the multiple that offset and maximum length must be. -/
def readUnit (idx : Nat) : Nat := if idx = 0x2800 then 16 else if idx = 0xA000 then 32 else 1

/-- Both banks of the recorder are out of use (17 R417). -/
def ringUnreadable (s : State) (idx : Nat) : Bool := idx == 0xA000 && bothFailed s

/-- The checks of a READ, steps 5 to 17 of Table 4.16; every role reads, an enrolment session too (R2, R83; 17 R429). -/
def checkRead (s : State) (idx sub ty off max : Nat) : Except Abort ObjRow :=
  match findRow idx sub with
  | .error a => .error a
  | .ok r =>
    if r.acc = .wo then .error (abortAt 1 2 idx sub)
    else if ty ≠ 0 ∧ ty ≠ r.ty then .error (abortAt 2 6 idx sub r.ty)
    else if r.parted then
      if max < 1 ∨ 1024 < max ∨ r.len ≤ off ∨ off % readUnit idx ≠ 0 ∨ max % readUnit idx ≠ 0 then
        .error (abortAt 2 5 idx sub r.len)
      else if ringUnreadable s idx then .error (abortAt 4 5 idx sub)
      else .ok r
    else if off ≠ 0 ∨ max < r.len then .error (abortAt 2 5 idx sub r.len)
    else .ok r

/-- The data of a checked READ. -/
def readData (s : State) (idx sub off max : Nat) (r : ObjRow) : List Byte :=
  if r.parted then readPart s idx sub off (min max (r.len - off)) else readObject s idx sub r

/-- A final state of a synchro-check instance that has been read gives way to IDLE (06 Table 6.9). -/
def scRead (idx sub : Nat) (s : State) : State :=
  if (idx = 0x38C0 ∨ idx = 0x38C1) ∧ sub = 0x0C then
    match (getSc s (idx - 0x38C0)).state with
    | .closed | .timedOut | .aborted => modSc (idx - 0x38C0) (fun x => { x with state := .idle }) s
    | _ => s
  else s

/-- A READ's answer: the request's fields with the length of the data read, and the data (Table 4.5). -/
def readOp (idx sub ty off max _n : Nat) (s : State) : Answer × State :=
  match checkRead s idx sub ty off max with
  | .error a => (.error a, s)
  | .ok r =>
    let data := readData s idx sub off max r
    (.ok (objFields idx sub ty off data.length ++ data), scRead idx sub s)

def readState (h : Hdr) (idx sub ty off max : Nat) (s : State) : State :=
  request h svcRead (objFields idx sub ty off max) (readOp idx sub ty off max) s

/-- READ (R72). -/
def execRead (t : Nat) (h : Hdr) (idx sub ty off max : Nat) (s : State) : Out :=
  .next (readState h idx sub ty off max (advance t s))

end Sys2Proof.Machine
end

