-- ==== Sys2Proof/Machine/Messages.lean ====
section
/-! DEFINITION. Messages that waited for the answer of a FORCE (04 R77), and ENGINE_TICK, whose tick answers it. -/

namespace Sys2Proof.Machine

/-- A waiting READ or WRITE by the fields of its body (04 Table 4.5). -/
def serveObject (h : Hdr) (write : Bool) (b : List Byte) (s : State) : State :=
  if write then writeObjectState h (fieldAt b 0 2) (fieldAt b 2 1) (fieldAt b 3 1) (fieldAt b 4 4) (b.drop 12) s
  else readState h (fieldAt b 0 2) (fieldAt b 2 1) (fieldAt b 3 1) (fieldAt b 4 4) (fieldAt b 8 2) s

/-- A waiting message is taken (R77). -/
def serveMsg (m : Msg) (s : State) : State :=
  match m with
  | .openReq path peer slot role nonceH => openReqState path peer slot role nonceH s
  | .auth path peer n proof => authState path peer n proof s
  | .request h service b =>
    if service = svcRead then serveObject h false b s
    else if service = svcWrite then serveObject h true b s
    else if service = svcClose then closeState h s
    else if service = svcTxnBegin then txnBeginState h s
    else if service = svcTxnAbort then txnAbortState h s
    else keepaliveState h s

/-- The waiting messages are taken in their order; one taken while a further FORCE waits keeps waiting. -/
def serveWaiting (s : State) : State :=
  if s.sess.force.isSome then s
  else s.sess.waiting.foldl (fun s m => serveMsg m s) { s with sess := { s.sess with waiting := [] } }

/-- ENGINE_TICK (09 R201, R220; 07 R166). -/
def execEngineTick (t : Nat) (s : State) : Out := .next (serveWaiting (engineTickState (applyFirst (advance t s))))

end Sys2Proof.Machine
end

