-- ==== Sys2Proof/Machine/Dispatch.lean ====
section
/-! DEFINITION. Every command to its meaning: one arm per constructor, one direct call each. -/

namespace Sys2Proof.Machine

def exec (i : Instr) (s : State) : Host.Outcome State Fault Refusal :=
  match i with
  | .openReq t path peer slot role nonceH => Sys2Proof.Machine.execOpenReq t path peer slot role nonceH s
  | .auth t path peer session proof => Sys2Proof.Machine.execAuth t path peer session proof s
  | .close t h => Sys2Proof.Machine.execClose t h s
  | .read t h idx sub ty off max => Sys2Proof.Machine.execRead t h idx sub ty off max s
  | .writeObject t h idx sub ty off data => Sys2Proof.Machine.execWriteObject t h idx sub ty off data s
  | .txnBegin t h => Sys2Proof.Machine.execTxnBegin t h s
  | .txnAbort t h => Sys2Proof.Machine.execTxnAbort t h s
  | .keepalive t h => Sys2Proof.Machine.execKeepalive t h s
  | .sessionTimeout t n => Sys2Proof.Machine.execSessionTimeout t n s
  | .authTimeout t n => Sys2Proof.Machine.execAuthTimeout t n s
  | .slotLockExpiry t k => Sys2Proof.Machine.execSlotLockExpiry t k s
  | .modeSetStop t c => Sys2Proof.Machine.execModeSetStop t c s
  | .modeSetRun t c => Sys2Proof.Machine.execModeSetRun t c s
  | .modeSetHold t c => Sys2Proof.Machine.execModeSetHold t c s
  | .modeSetStep t c => Sys2Proof.Machine.execModeSetStep t c s
  | .runEntry t => Sys2Proof.Machine.execRunEntry t s
  | .holdLapse t => Sys2Proof.Machine.execHoldLapse t s
  | .stepCycleTimeout t k => Sys2Proof.Machine.execStepCycleTimeout t k s
  | .onlineChangePrepareAndSwap t c => Sys2Proof.Machine.execOnlineChangePrepareAndSwap t c s
  | .onlineChangePrepareOnly t c => Sys2Proof.Machine.execOnlineChangePrepareOnly t c s
  | .onlineChangeCancel t c => Sys2Proof.Machine.execOnlineChangeCancel t c s
  | .preparationEnd t flashFull => Sys2Proof.Machine.execPreparationEnd t flashFull s
  | .swap t pauseUs => Sys2Proof.Machine.execSwap t pauseUs s
  | .readmit t c => Sys2Proof.Machine.execReadmit t c s
  | .timeRestepFollower t c => Sys2Proof.Machine.execTimeRestepFollower t c s
  | .timeRestepMaster t c => Sys2Proof.Machine.execTimeRestepMaster t c s
  | .recorderSnapshot t c => Sys2Proof.Machine.execRecorderSnapshot t c s
  | .switchoverRequest t c => Sys2Proof.Machine.execSwitchoverRequest t c s
  | .configCommit t c => Sys2Proof.Machine.execConfigCommit t c s
  | .configCommitPrepare t c => Sys2Proof.Machine.execConfigCommitPrepare t c s
  | .configCommitConfirm t c => Sys2Proof.Machine.execConfigCommitConfirm t c s
  | .preparedTransactionLapse t n => Sys2Proof.Machine.execPreparedTransactionLapse t n s
  | .configApply t => Sys2Proof.Machine.execConfigApply t s
  | .leaseAcquire t c => Sys2Proof.Machine.execLeaseAcquire t c s
  | .leaseRenew t c => Sys2Proof.Machine.execLeaseRenew t c s
  | .leaseRelease t c => Sys2Proof.Machine.execLeaseRelease t c s
  | .leaseExpiry t area => Sys2Proof.Machine.execLeaseExpiry t area s
  | .forcePoint t c => Sys2Proof.Machine.execForcePoint t c s
  | .forceRelease t c => Sys2Proof.Machine.execForceRelease t c s
  | .forceReleaseAll t c => Sys2Proof.Machine.execForceReleaseAll t c s
  | .domainReset t c => Sys2Proof.Machine.execDomainReset t c s
  | .domainResetComplete t => Sys2Proof.Machine.execDomainResetComplete t s
  | .patchInstall t c flashFull => Sys2Proof.Machine.execPatchInstall t c flashFull s
  | .patchRemove t c => Sys2Proof.Machine.execPatchRemove t c s
  | .bulkLength t c => Sys2Proof.Machine.execBulkLength t c s
  | .bulkData t c => Sys2Proof.Machine.execBulkData t c s
  | .slotKey t k c => Sys2Proof.Machine.execSlotKey t k c s
  | .signerKey t k c => Sys2Proof.Machine.execSignerKey t k c s
  | .scArmTrue t n c => Sys2Proof.Machine.execScArmTrue t n c s
  | .scArmFalse t n c => Sys2Proof.Machine.execScArmFalse t n c s
  | .loopMode t n c => Sys2Proof.Machine.execLoopMode t n c s
  | .axCommandHome t axis c => Sys2Proof.Machine.execAxCommandHome t axis c s
  | .axCommandStopRamp t axis c => Sys2Proof.Machine.execAxCommandStopRamp t axis c s
  | .axCommandStopHard t axis c => Sys2Proof.Machine.execAxCommandStopHard t axis c s
  | .canRecoverBusOff t port c => Sys2Proof.Machine.execCanRecoverBusOff t port c s
  | .canRecoverCollision t port c => Sys2Proof.Machine.execCanRecoverCollision t port c s
  | .presenceKey t heldMs => Sys2Proof.Machine.execPresenceKey t heldMs s
  | .presenceWindowExpiry t => Sys2Proof.Machine.execPresenceWindowExpiry t s
  | .startup t env => Sys2Proof.Machine.execStartup t env s
  | .powerFail t margin trunkBack => Sys2Proof.Machine.execPowerFail t margin trunkBack s
  | .fuseTrip t port mv => Sys2Proof.Machine.execFuseTrip t port mv s
  | .fuseReclose t port => Sys2Proof.Machine.execFuseReclose t port s
  | .supplyWarning t supply mv => Sys2Proof.Machine.execSupplyWarning t supply mv s
  | .supplyWarningClear t supply mv => Sys2Proof.Machine.execSupplyWarningClear t supply mv s
  | .supplyOff t supply mv => Sys2Proof.Machine.execSupplyOff t supply mv s
  | .supplyRecovery t supply mv => Sys2Proof.Machine.execSupplyRecovery t supply mv s
  | .thermalShutdown t dieTenths => Sys2Proof.Machine.execThermalShutdown t dieTenths s
  | .railFault t rail => Sys2Proof.Machine.execRailFault t rail s
  | .mgtWatchdog t => Sys2Proof.Machine.execMgtWatchdog t s
  | .counterMirror t => Sys2Proof.Machine.execCounterMirror t s
  | .directValueFlashWrite t => Sys2Proof.Machine.execDirectValueFlashWrite t s
  | .sensorSample t r => Sys2Proof.Machine.execSensorSample t r s
  | .humidityLimitExceeded t => Sys2Proof.Machine.execHumidityLimitExceeded t s
  | .phyReadyLost t => Sys2Proof.Machine.execPhyReadyLost t s
  | .bypassRelayOpen t => Sys2Proof.Machine.execBypassRelayOpen t s
  | .frameReceived t port f => Sys2Proof.Machine.execFrameReceived t port f s
  | .duplicateEntryExpiry t src hsrSeq => Sys2Proof.Machine.execDuplicateEntryExpiry t src hsrSeq s
  | .supervisionSend t => Sys2Proof.Machine.execSupervisionSend t s
  | .supervisionFrame t src => Sys2Proof.Machine.execSupervisionFrame t src s
  | .pdInputFrame t f => Sys2Proof.Machine.execPdInputFrame t f s
  | .pdOutputFrameForwarded t dst src => Sys2Proof.Machine.execPdOutputFrameForwarded t dst src s
  | .pdOutputSetSend t cls => Sys2Proof.Machine.execPdOutputSetSend t cls s
  | .exchangePeriodEnd t rec => Sys2Proof.Machine.execExchangePeriodEnd t rec s
  | .ringCheckSend t => Sys2Proof.Machine.execRingCheckSend t s
  | .ringCheckTimeout t => Sys2Proof.Machine.execRingCheckTimeout t s
  | .rmFrame t port node seq op portNo link serial => Sys2Proof.Machine.execRmFrame t port node seq op portNo link serial s
  | .addressConflictEnd t => Sys2Proof.Machine.execAddressConflictEnd t s
  | .linkChange t port up => Sys2Proof.Machine.execLinkChange t port up s
  | .tbSend t => Sys2Proof.Machine.execTbSend t s
  | .tbFrame t port seq origin master rank st => Sys2Proof.Machine.execTbFrame t port seq origin master rank st s
  | .servoPeriod t => Sys2Proof.Machine.execServoPeriod t s
  | .mastership t => Sys2Proof.Machine.execMastership t s
  | .beaconTimeout t => Sys2Proof.Machine.execBeaconTimeout t s
  | .ldSend t => Sys2Proof.Machine.execLdSend t s
  | .ldFrame t port op tReqSent tReqReceived tRespSent => Sys2Proof.Machine.execLdFrame t port op tReqSent tReqReceived tRespSent s
  | .engineTick t => Sys2Proof.Machine.execEngineTick t s
  | .loopRelease t n => Sys2Proof.Machine.execLoopRelease t n s
  | .cadTimeout t n => Sys2Proof.Machine.execCadTimeout t n s
  | .taskRelease t k => Sys2Proof.Machine.execTaskRelease t k s
  | .reg t x op dst a b ty => Sys2Proof.Machine.execReg t x op dst a b ty s
  | .imm t x op dst imm => Sys2Proof.Machine.execImm t x op dst imm s
  | .frameLoad t x w base off => Sys2Proof.Machine.execFrameLoad t x w base off s
  | .frameStore t x w base off => Sys2Proof.Machine.execFrameStore t x w base off s
  | .frameLoadAddress t x w base off => Sys2Proof.Machine.execFrameLoadAddress t x w base off s
  | .pointReadValue t x w point => Sys2Proof.Machine.execPointReadValue t x w point s
  | .pointReadQuality t x w point => Sys2Proof.Machine.execPointReadQuality t x w point s
  | .pointReadTimestamp t x w point => Sys2Proof.Machine.execPointReadTimestamp t x w point s
  | .pointWriteValue t x w point => Sys2Proof.Machine.execPointWriteValue t x w point s
  | .branch t x cond w disp => Sys2Proof.Machine.execBranch t x cond w disp s
  | .callUserBlock t x desc => Sys2Proof.Machine.execCallUserBlock t x desc s
  | .callRomBlock t x desc => Sys2Proof.Machine.execCallRomBlock t x desc s
  | .callFunction t x desc => Sys2Proof.Machine.execCallFunction t x desc s
  | .ext t x bits => Sys2Proof.Machine.execExt t x bits s
  | .sysReturn t x arg => Sys2Proof.Machine.execSysReturn t x arg s
  | .sysEndOfCycle t x arg => Sys2Proof.Machine.execSysEndOfCycle t x arg s
  | .sysTrap t x arg => Sys2Proof.Machine.execSysTrap t x arg s
  | .ton t x inst inp pt => Sys2Proof.Machine.execTon t x inst inp pt s
  | .tof t x inst inp pt => Sys2Proof.Machine.execTof t x inst inp pt s
  | .tp t x inst inp pt => Sys2Proof.Machine.execTp t x inst inp pt s
  | .rTrig t x inst clk => Sys2Proof.Machine.execRTrig t x inst clk s
  | .fTrig t x inst clk => Sys2Proof.Machine.execFTrig t x inst clk s
  | .ctu t x inst cu r pv => Sys2Proof.Machine.execCtu t x inst cu r pv s
  | .ctd t x inst cd ld pv => Sys2Proof.Machine.execCtd t x inst cd ld pv s
  | .ctud t x inst cu cd r ld pv => Sys2Proof.Machine.execCtud t x inst cu cd r ld pv s
  | .sr t x inst s1 r => Sys2Proof.Machine.execSr t x inst s1 r s
  | .rs t x inst st r1 => Sys2Proof.Machine.execRs t x inst st r1 s
  | .canRecv t k port buf => Sys2Proof.Machine.execCanRecv t k port buf s
  | .canSend t k port buf id data => Sys2Proof.Machine.execCanSend t k port buf id data s
  | .canStateRecover t k port => Sys2Proof.Machine.execCanStateRecover t k port s
  | .canStateReenable t k port => Sys2Proof.Machine.execCanStateReenable t k port s
  | .emergencyStopBlock t x f => Sys2Proof.Machine.execEmergencyStopBlock t x f s
  | .guardInterlockBlock t x f => Sys2Proof.Machine.execGuardInterlockBlock t x f s
  | .twoHandControlBlock t x f => Sys2Proof.Machine.execTwoHandControlBlock t x f s
  | .lightCurtainBlock t x f => Sys2Proof.Machine.execLightCurtainBlock t x f s
  | .soStatusBlock t x k => Sys2Proof.Machine.execSoStatusBlock t x k s
  | .downstreamFrame t b ok => Sys2Proof.Machine.execDownstreamFrame t b ok s
  | .upstreamFrame t b syncOk crcOk supplyMv currentMa temp curMa => Sys2Proof.Machine.execUpstreamFrame t b syncOk crcOk supplyMv currentMa temp curMa s
  | .linkResync t b => Sys2Proof.Machine.execLinkResync t b s
  | .linkSilence t b => Sys2Proof.Machine.execLinkSilence t b s
  | .diEdgeAccepted t ch mv ua => Sys2Proof.Machine.execDiEdgeAccepted t ch mv ua s
  | .outputTrip t ch thermal => Sys2Proof.Machine.execOutputTrip t ch thermal s
  | .outputRetry t ch tempC => Sys2Proof.Machine.execOutputRetry t ch tempC s
  | .bankOverload t b ma => Sys2Proof.Machine.execBankOverload t b ma s
  | .bankOverloadRestore t b => Sys2Proof.Machine.execBankOverloadRestore t b s
  | .restoreGroup t b => Sys2Proof.Machine.execRestoreGroup t b s
  | .openLoad t ch ma => Sys2Proof.Machine.execOpenLoad t ch ma s
  | .externalDrive t ch mv => Sys2Proof.Machine.execExternalDrive t ch mv s
  | .bankSupplyOff t b mv => Sys2Proof.Machine.execBankSupplyOff t b mv s
  | .bankRestore t b mv => Sys2Proof.Machine.execBankRestore t b mv s
  | .bicReset t b mv => Sys2Proof.Machine.execBicReset t b mv s
  | .timedEdge t ch => Sys2Proof.Machine.execTimedEdge t ch s
  | .pulseEnd t ch => Sys2Proof.Machine.execPulseEnd t ch s
  | .aioConversion t ch code temp => Sys2Proof.Machine.execAioConversion t ch code temp s
  | .aoUpdate t ch => Sys2Proof.Machine.execAoUpdate t ch s
  | .aioLinkFrame t ch okDown okUp mv temp => Sys2Proof.Machine.execAioLinkFrame t ch okDown okUp mv temp s
  | .aioLinkSilence t ch => Sys2Proof.Machine.execAioLinkSilence t ch s
  | .aoCondition t ch cond present => Sys2Proof.Machine.execAoCondition t ch cond present s
  | .readbackMismatch t ch => Sys2Proof.Machine.execReadbackMismatch t ch s
  | .partnerMismatch t ch present => Sys2Proof.Machine.execPartnerMismatch t ch present s
  | .motionTick t => Sys2Proof.Machine.execMotionTick t s
  | .limitInputQualified t set input high stepsSince => Sys2Proof.Machine.execLimitInputQualified t set input high stepsSince s
  | .homeTimeout t axis => Sys2Proof.Machine.execHomeTimeout t axis s
  | .holdDelay t axis => Sys2Proof.Machine.execHoldDelay t axis s
  | .driveFault t axis kind => Sys2Proof.Machine.execDriveFault t axis kind s
  | .driveRetry t axis tempC => Sys2Proof.Machine.execDriveRetry t axis tempC s
  | .driveLinkSilence t axis => Sys2Proof.Machine.execDriveLinkSilence t axis s
  | .canFrameReceived t port f => Sys2Proof.Machine.execCanFrameReceived t port f s
  | .canFrameSent t port => Sys2Proof.Machine.execCanFrameSent t port s
  | .canError t port kind tx spot => Sys2Proof.Machine.execCanError t port kind tx spot s
  | .busOffRecoveryComplete t port => Sys2Proof.Machine.execBusOffRecoveryComplete t port s
  | .canCyclicTrigger t port buf => Sys2Proof.Machine.execCanCyclicTrigger t port buf s
  | .canRxTimeout t port buf => Sys2Proof.Machine.execCanRxTimeout t port buf s
  | .autobaudDwell t port => Sys2Proof.Machine.execAutobaudDwell t port s
  | .encoderEdge t e ev => Sys2Proof.Machine.execEncoderEdge t e ev s
  | .mainsZeroCrossing t m tz codes temp => Sys2Proof.Machine.execMainsZeroCrossing t m tz codes temp s
  | .encoderStill t n => Sys2Proof.Machine.execEncoderStill t n s
  | .trackerSourceLoss t n => Sys2Proof.Machine.execTrackerSourceLoss t n s
  | .coastExpiry t n => Sys2Proof.Machine.execCoastExpiry t n s
  | .slotFire t n => Sys2Proof.Machine.execSlotFire t n s
  | .scCommand t n => Sys2Proof.Machine.execScCommand t n s
  | .scPulseEnd t n => Sys2Proof.Machine.execScPulseEnd t n s
  | .scArmTimeout t n => Sys2Proof.Machine.execScArmTimeout t n s
  | .safetyCommit t mailboxLate => Sys2Proof.Machine.execSafetyCommit t mailboxLate s
  | .passBStart t => Sys2Proof.Machine.execPassBStart t s
  | .passOverrun t => Sys2Proof.Machine.execPassOverrun t s
  | .scuCompare t registerFault selfTestDetected => Sys2Proof.Machine.execScuCompare t registerFault selfTestDetected s
  | .token t tok => Sys2Proof.Machine.execToken t tok s
  | .tokenMissing t => Sys2Proof.Machine.execTokenMissing t s
  | .safetyConfigStart t => Sys2Proof.Machine.execSafetyConfigStart t s
  | .siAccepted t term bank high => Sys2Proof.Machine.execSiAccepted t term bank high s
  | .testPulseDark t src => Sys2Proof.Machine.execTestPulseDark t src s
  | .testPulseCheck t src onMask => Sys2Proof.Machine.execTestPulseCheck t src onMask s
  | .blankEnd t src => Sys2Proof.Machine.execBlankEnd t src s
  | .tpOverload t src => Sys2Proof.Machine.execTpOverload t src s
  | .tpRetry t src overloaded => Sys2Proof.Machine.execTpRetry t src overloaded s
  | .tpTakeover t src => Sys2Proof.Machine.execTpTakeover t src s
  | .offTest t k high => Sys2Proof.Machine.execOffTest t k high s
  | .offTestEnd t k reached chainClosed => Sys2Proof.Machine.execOffTestEnd t k reached chainClosed s
  | .soOvercurrent t k => Sys2Proof.Machine.execSoOvercurrent t k s
  | .soExternalDrive t k present => Sys2Proof.Machine.execSoExternalDrive t k present s
  | .feedbackTimeout t k => Sys2Proof.Machine.execFeedbackTimeout t k s
  | .hbPulseSend t => Sys2Proof.Machine.execHbPulseSend t s
  | .hbPulse t => Sys2Proof.Machine.execHbPulse t s
  | .heartbeatLoss t => Sys2Proof.Machine.execHeartbeatLoss t s
  | .precFrame t claim => Sys2Proof.Machine.execPrecFrame t claim s
  | .arbitrationWon t => Sys2Proof.Machine.execArbitrationWon t s
  | .standbyRecordTimeout t => Sys2Proof.Machine.execStandbyRecordTimeout t s
  | .helloSend t => Sys2Proof.Machine.execHelloSend t s
  | .hello t msg => Sys2Proof.Machine.execHello t msg s
  | .input t seq landings => Sys2Proof.Machine.execInput t seq landings s
  | .tick t seq r digest => Sys2Proof.Machine.execTick t seq r digest s
  | .task t seq r => Sys2Proof.Machine.execTask t seq r s
  | .ack t seq result => Sys2Proof.Machine.execAck t seq result s
  | .ackTimeout t seq => Sys2Proof.Machine.execAckTimeout t seq s
  | .remoteSetMissing t seq => Sys2Proof.Machine.execRemoteSetMissing t seq s
  | .copy t seq piece last => Sys2Proof.Machine.execCopy t seq piece last s
  | .copyTimeout t => Sys2Proof.Machine.execCopyTimeout t s
  | .copyRetry t => Sys2Proof.Machine.execCopyRetry t s
  | .handover t seq lastSeq trigger => Sys2Proof.Machine.execHandover t seq lastSeq trigger s
  | .change t seq c => Sys2Proof.Machine.execChange t seq c s
  | .autoSwitchover t => Sys2Proof.Machine.execAutoSwitchover t s
  | .fclFrameSend t => Sys2Proof.Machine.execFclFrameSend t s
  | .fclFrame t chip claim => Sys2Proof.Machine.execFclFrame t chip claim s
  | .presChanged t low => Sys2Proof.Machine.execPresChanged t low s
  | .sramCorrectedError t addr => Sys2Proof.Machine.execSramCorrectedError t addr s
  | .sramUncorrectableError t addr safetyArea => Sys2Proof.Machine.execSramUncorrectableError t addr safetyArea s
  | .sramScrub t => Sys2Proof.Machine.execSramScrub t s
  | .recordWrite t ok0 ok1 => Sys2Proof.Machine.execRecordWrite t ok0 ok1 s
  | .bankResyncComplete t => Sys2Proof.Machine.execBankResyncComplete t s
  | .busIntegrated t port => Sys2Proof.Machine.execBusIntegrated t port s
  | .channelChipReinitialised t ch => Sys2Proof.Machine.execChannelChipReinitialised t ch s
  | .masterSlewEnd t => Sys2Proof.Machine.execMasterSlewEnd t s
  | .arbitrationFclCheckEnd t => Sys2Proof.Machine.execArbitrationFclCheckEnd t s

end Sys2Proof.Machine
end

