-- ==== Sys2Proof/Safety.lean ====
section
/-! DEFINITION. The terms claims use: the parts of the state a command leaves alone, the bounds that hold in every state
worth speaking of, and what no command undoes. -/

namespace Sys2Proof.Machine

/-- The parts of the state, one per field. -/
inductive Part where
  | pending | now | freeN | outbox | config | clk | pwr | sess | img | prog | eng | cad | ring | dio | aio | mot | can
  | safe | sio | pair | recd | mgmt | retired | sram
  deriving DecidableEq, Repr

/-- Two states agree on a part. -/
def Part.same (p : Part) (s t : State) : Prop :=
  match p with
  | .pending => t.pending = s.pending
  | .now => t.now = s.now
  | .freeN => t.freeN = s.freeN
  | .outbox => t.outbox = s.outbox
  | .config => t.config = s.config
  | .clk => t.clk = s.clk
  | .pwr => t.pwr = s.pwr
  | .sess => t.sess = s.sess
  | .img => t.img = s.img
  | .prog => t.prog = s.prog
  | .eng => t.eng = s.eng
  | .cad => t.cad = s.cad
  | .ring => t.ring = s.ring
  | .dio => t.dio = s.dio
  | .aio => t.aio = s.aio
  | .mot => t.mot = s.mot
  | .can => t.can = s.can
  | .safe => t.safe = s.safe
  | .sio => t.sio = s.sio
  | .pair => t.pair = s.pair
  | .recd => t.recd = s.recd
  | .mgmt => t.mgmt = s.mgmt
  | .retired => t.retired = s.retired
  | .sram => t.sram = s.sram

/-- Every part but those named is the same in both states: the frame of a command. -/
structure Untouched (ps : List Part) (s t : State) : Prop where
  same : ∀ p : Part, p ∉ ps → p.same s t

/-- A command completes with this next state. -/
def Completes (i : Instr) (s t : State) : Prop := exec i s = .next t

/-- Kind and number of every retired resource. -/
def retiredNames (s : State) : List (Nat × Nat) := s.retired.map (fun r => (r.kind, r.number))

/-- The bounds of the module's stores: the record queue and the last-gasp ring (17 R414, R421), the leases (04 R84), the
HSR sequence (05 R99), the spare pages (01 R19), a retirement list without repeats (18 R436), and byte stores in their
canonical form. -/
structure Sound (s : State) : Prop where
  queue : s.recd.queue.length ≤ 256
  gasp : s.recd.gasp.length ≤ 16
  leases : s.sess.leases.length ≤ 16
  hsr : s.ring.hsrSeq < 2 ^ 16
  spare : s.sram.used ≤ 16
  retiredOnce : (retiredNames s).Nodup
  inst : Memory.wf s.prog.inst = true
  glob : Memory.wf s.prog.glob = true
  ret : Memory.wf s.prog.ret = true
  store : Memory.wf s.prog.store = true
  storeInst : Memory.wf s.prog.storeInst = true
  bulk : Memory.wf s.sess.bulk = true
  refused : Memory.wf ((s.sess.refused.map Prod.snd).getD []) = true
  formeBytes : Memory.wf s.safe.formeBytes = true
  plain : Memory.wf s.safe.plain = true

/-- What a command may do that no other does: re-admit a retired resource, or start the module. -/
structure Allow where
  readmit : Bool
  start : Bool
  deriving DecidableEq, Repr

/-- What from `s` to `t` is not undone: the clock and the queue stand, what was sent stays sent, a remapped page stays
remapped and a spare stays used (18 R438), a retired resource stays retired but for READMIT (18 R436), and the straps
and the boot option are as latched but for a start (10 R224; 16 R384). -/
structure Lasting (a : Allow) (s t : State) : Prop where
  now : t.now = s.now
  pending : t.pending = s.pending
  outbox : s.outbox <:+ t.outbox
  remapped : s.sram.remapped <:+ t.sram.remapped
  used : s.sram.used ≤ t.sram.used
  retired : a.readmit = false → ∀ r ∈ s.retired, r ∈ t.retired
  boot : a.start = false → t.pwr.boot = s.pwr.boot
  posB : a.start = false → t.pwr.posB = s.pwr.posB
  pres : a.start = false → t.pwr.presLow = s.pwr.presLow

/-- The parts a command may touch beside the clock and the pair's timers. -/
def touches (i : Instr) : List Part :=
  match i with
  | .autoSwitchover .. => []
  | .masterSlewEnd .. => [.clk]
  | .fuseReclose .. | .phyReadyLost .. | .bypassRelayOpen .. => [.pwr]
  | .sessionTimeout .. | .authTimeout .. | .slotLockExpiry .. | .preparedTransactionLapse .. | .leaseExpiry ..
  | .presenceWindowExpiry .. | .directValueFlashWrite .. => [.sess]
  | .stepCycleTimeout .. => [.prog]
  | .duplicateEntryExpiry .. | .supervisionFrame .. => [.ring]
  | .linkResync .. | .diEdgeAccepted .. => [.dio]
  | .aioLinkSilence .. | .aoCondition .. | .partnerMismatch .. | .channelChipReinitialised .. => [.aio]
  | .driveRetry .. => [.mot]
  | .canRxTimeout .. | .autobaudDwell .. => [.can]
  | .testPulseDark .. | .blankEnd .. | .tpTakeover .. | .offTest .. => [.sio]
  | .copyRetry .. | .presChanged .. | .recordWrite .. | .bankResyncComplete .. => [.recd]
  | .sramScrub .. => [.sram]
  | .frameReceived .. | .supervisionSend .. | .pdOutputSetSend .. | .ringCheckSend .. | .tbSend .. | .ldSend ..
  | .hbPulseSend .. | .heartbeatLoss .. | .helloSend .. | .remoteSetMissing .. | .fclFrameSend .. => [.outbox, .ring]
  | .tbFrame .. | .mastership .. | .beaconTimeout .. => [.clk, .recd]
  | .fuseTrip .. | .supplyWarning .. | .supplyWarningClear .. | .counterMirror .. => [.pwr, .recd]
  | .presenceKey .. | .standbyRecordTimeout .. | .copyTimeout .. => [.sess, .recd]
  | .aioConversion .. => [.img, .aio]
  | .frameLoadAddress .. | .callRomBlock .. | .callFunction .. | .ext .. | .sysReturn .. | .canRecv .. | .canSend ..
  | .canStateRecover .. | .canStateReenable .. => [.prog, .safe]
  | .scCommand .. => [.cad, .dio]
  | .scPulseEnd .. | .scArmTimeout .. => [.cad, .recd]
  | .pdOutputFrameForwarded .. | .ringCheckTimeout .. | .addressConflictEnd .. => [.ring, .recd]
  | .linkSilence .. | .outputRetry .. | .bankOverload .. | .bankOverloadRestore .. | .restoreGroup .. | .openLoad ..
  | .externalDrive .. | .bankSupplyOff .. | .bankRestore .. | .timedEdge .. | .pulseEnd .. => [.dio, .recd]
  | .homeTimeout .. | .driveLinkSilence .. => [.mot, .recd]
  | .testPulseCheck .. | .tpOverload .. | .tpRetry .. | .offTestEnd .. | .soOvercurrent .. | .soExternalDrive ..
  | .feedbackTimeout .. => [.sio, .recd]
  | .humidityLimitExceeded .. => [.recd, .mgmt]
  | .bicReset .. => [.freeN, .dio, .recd]
  | .ldFrame .. => [.outbox, .clk, .ring]
  | .linkChange .. => [.outbox, .ring, .recd]
  | .preparationEnd .. => [.sess, .prog, .recd]
  | .encoderStill .. | .trackerSourceLoss .. | .coastExpiry .. => [.img, .cad, .recd]
  | .exchangePeriodEnd .. => [.img, .ring, .recd]
  | .openReq .. => [.freeN, .outbox, .sess, .ring]
  | .canCyclicTrigger .. | .busIntegrated .. => [.freeN, .outbox, .ring, .can]
  | .auth .. | .close .. | .txnBegin .. | .txnAbort .. | .keepalive .. | .switchoverRequest .. | .leaseAcquire ..
  | .leaseRenew .. | .leaseRelease .. | .forcePoint .. | .forceRelease .. | .forceReleaseAll .. | .bulkLength ..
  | .bulkData .. | .slotKey .. | .signerKey .. | .scArmTrue .. | .scArmFalse .. | .loopMode .. | .canRecoverBusOff ..
  | .canRecoverCollision .. => [.outbox, .sess, .ring, .recd]
  | .pdInputFrame .. => [.outbox, .img, .ring, .recd]
  | .limitInputQualified .. | .holdDelay .. => [.outbox, .ring, .mot, .recd]
  | .rmFrame .. => [.clk, .img, .ring, .recd]
  | .encoderEdge .. | .mainsZeroCrossing .. => [.img, .cad, .dio, .recd]
  | .readbackMismatch .. => [.img, .aio, .recd, .retired]
  | .passBStart .. | .passOverrun .. | .siAccepted .. => [.img, .safe, .sio, .recd]
  | .recorderSnapshot .. => [.freeN, .outbox, .sess, .ring, .recd]
  | .canFrameSent .. | .canError .. | .busOffRecoveryComplete .. => [.freeN, .outbox, .ring, .can, .recd]
  | .sensorSample .. => [.freeN, .pwr, .mot, .recd, .mgmt]
  | .scuCompare .. | .token .. | .tokenMissing .. | .safetyConfigStart .. => [.freeN, .img, .safe, .sio, .recd]
  | .onlineChangePrepareAndSwap .. | .onlineChangePrepareOnly .. | .onlineChangeCancel .. =>
    [.outbox, .sess, .prog, .ring, .recd]
  | .read .. => [.outbox, .sess, .cad, .ring, .recd]
  | .axCommandHome .. | .axCommandStopRamp .. | .axCommandStopHard .. => [.outbox, .sess, .ring, .mot, .recd]
  | .patchRemove .. => [.outbox, .sess, .ring, .recd, .mgmt]
  | .motionTick .. => [.outbox, .img, .ring, .mot, .recd]
  | .holdLapse .. | .swap .. => [.sess, .prog, .cad, .can, .recd]
  | .imm .. | .branch .. => [.img, .prog, .safe, .sio, .recd]
  | .outputTrip .. => [.img, .cad, .dio, .recd, .retired]
  | .canFrameReceived .. => [.freeN, .outbox, .img, .ring, .can, .recd]
  | .aioLinkFrame .. => [.outbox, .img, .ring, .aio, .recd, .retired]
  | .driveFault .. => [.outbox, .img, .ring, .mot, .recd, .retired]
  | .sramCorrectedError .. => [.sess, .prog, .cad, .can, .recd, .sram]
  | .safetyCommit .. => [.freeN, .outbox, .img, .ring, .safe, .sio, .recd]
  | .domainResetComplete .. => [.freeN, .clk, .pwr, .sess, .ring, .can, .recd]
  | .configCommit .. | .configCommitPrepare .. | .configCommitConfirm .. =>
    [.outbox, .config, .sess, .ring, .dio, .safe, .recd]
  | .supplyRecovery .. => [.outbox, .pwr, .ring, .dio, .aio, .mot, .recd]
  | .modeSetStop .. | .modeSetRun .. | .modeSetHold .. | .modeSetStep .. =>
    [.freeN, .outbox, .sess, .prog, .cad, .ring, .can, .recd]
  | .reg .. | .frameLoad .. | .frameStore .. | .pointWriteValue .. | .callUserBlock .. | .sysTrap .. | .ton ..
  | .tof .. | .tp .. | .rTrig .. | .fTrig .. | .ctu .. | .ctd .. | .ctud .. | .sr .. | .rs .. | .emergencyStopBlock ..
  | .guardInterlockBlock .. | .twoHandControlBlock .. | .lightCurtainBlock .. | .soStatusBlock .. =>
    [.sess, .img, .prog, .cad, .can, .safe, .sio, .recd]
  | .fclFrame .. => [.sess, .prog, .eng, .cad, .dio, .aio, .can, .recd]
  | .loopRelease .. | .cadTimeout .. | .aoUpdate .. => [.freeN, .outbox, .img, .prog, .eng, .ring, .dio, .aio, .can]
  | .pointReadValue .. | .pointReadQuality .. | .pointReadTimestamp .. =>
    [.freeN, .sess, .img, .prog, .cad, .can, .safe, .sio, .recd]
  | .supplyOff .. => [.outbox, .pwr, .ring, .dio, .aio, .mot, .safe, .sio, .recd]
  | .readmit .. => [.outbox, .sess, .img, .ring, .dio, .aio, .mot, .recd, .retired]
  | .precFrame .. => [.outbox, .sess, .prog, .eng, .cad, .ring, .dio, .can, .recd]
  | .servoPeriod .. => [.clk, .sess, .img, .prog, .eng, .cad, .ring, .dio, .recd]
  | .thermalShutdown .. | .railFault .. | .mgtWatchdog .. => [.pwr, .sess, .img, .prog, .eng, .mot, .can, .safe, .sio]
  | .upstreamFrame .. => [.sess, .img, .prog, .eng, .cad, .dio, .can, .recd, .retired]
  | .timeRestepFollower .. | .timeRestepMaster .. => [.outbox, .clk, .sess, .img, .prog, .eng, .cad, .ring, .dio, .recd]
  | .input .. => [.outbox, .sess, .img, .prog, .cad, .ring, .dio, .aio, .can, .recd]
  | .sysEndOfCycle .. => [.freeN, .outbox, .sess, .img, .prog, .ring, .dio, .aio, .can, .safe, .recd]
  | .arbitrationWon .. => [.freeN, .outbox, .img, .prog, .eng, .cad, .ring, .dio, .mot, .can, .recd]
  | .powerFail .. => [.freeN, .pwr, .sess, .img, .prog, .eng, .mot, .can, .safe, .sio, .recd]
  | .slotFire .. => [.freeN, .outbox, .sess, .img, .prog, .eng, .cad, .ring, .dio, .aio, .can, .recd]
  | .downstreamFrame .. => [.freeN, .outbox, .img, .prog, .eng, .cad, .ring, .dio, .aio, .can, .recd, .retired]
  | .handover .. => [.freeN, .outbox, .sess, .img, .prog, .eng, .cad, .ring, .dio, .aio, .mot, .can, .recd]
  | .sramUncorrectableError .. => [.freeN, .pwr, .sess, .img, .prog, .eng, .cad, .mot, .can, .safe, .sio, .recd, .sram]
  | .patchInstall .. => [.outbox, .pwr, .sess, .img, .prog, .eng, .ring, .mot, .can, .safe, .sio, .recd, .mgmt]
  | .domainReset .. => [.outbox, .clk, .pwr, .sess, .img, .prog, .eng, .ring, .dio, .aio, .mot, .can, .safe, .sio, .recd]
  | .runEntry .. | .configApply .. | .taskRelease .. | .change .. =>
    [.outbox, .config, .clk, .sess, .img, .prog, .eng, .cad, .ring, .dio, .aio, .mot, .can, .safe, .sio, .recd]
  | .tick .. | .task .. =>
    [.freeN, .outbox, .config, .clk, .sess, .img, .prog, .eng, .cad, .ring, .dio, .aio, .mot, .can, .safe, .sio, .recd]
  | .hbPulse .. | .hello .. | .ack .. | .ackTimeout .. | .arbitrationFclCheckEnd .. =>
    [.freeN, .outbox, .config, .pwr, .sess, .img, .prog, .eng, .cad, .ring, .dio, .aio, .mot, .can, .safe, .sio, .recd]
  | .copy .. =>
    [.freeN, .outbox, .config, .clk, .pwr, .sess, .img, .prog, .eng, .cad, .ring, .dio, .aio, .mot, .can, .safe, .sio,
      .recd]
  | .writeObject .. | .engineTick .. =>
    [.freeN, .outbox, .config, .clk, .pwr, .sess, .img, .prog, .eng, .cad, .ring, .dio, .aio, .mot, .can, .safe, .sio,
      .recd, .mgmt, .retired]
  | .startup .. =>
    [.freeN, .outbox, .config, .clk, .pwr, .sess, .img, .prog, .eng, .cad, .ring, .dio, .aio, .mot, .can, .safe, .sio,
      .recd, .mgmt, .retired, .sram]

/-! ### Requests that are heard (04 R81, Table 4.16) -/

/-- The state a request finds: time has passed, and sessions whose time has run out are closed (04 R78). -/
def found (t : Nat) (s : State) : State := closeDue (advance t s)

/-- A request passes the checks of a message (Table 4.16, steps 1 to 4): its path is answered, no other request is being
processed, its service code is of Table 4.5, its session is ACTIVE, its tag verifies and its SEQUENCE is the next one. -/
def heard (s : State) (h : Hdr) (service : Nat) (body : List Byte) : Bool :=
  answers s h.path && s.sess.force.isNone && h.service.isNone && decide (h.session < 8) && (getSession s h.session).state == 2
    && tagOk (getSession s h.session) h service body && h.seq == ((getSession s h.session).lastSeq + 1) % 2 ^ 32

/-- A heard request restarts the idle time of its session (04 R78). -/
def taken (s : State) (n : Nat) : State := modSession n (fun x => { x with lastValid := s.now }) s

/-- The state a WRITE acts on: taken, with the leases whose time has run out gone. -/
def served (s : State) (n : Nat) : State := pruneLeases (taken s n)

/-- A row's WRITE is heard, passes the checks of Table 4.16 and is not staged. -/
def writeHeard (s : State) (c : Cmd) (idx sub : Nat) (fixed : List Byte) : Bool :=
  let n := c.hdr.session
  let v := served s n
  heard s c.hdr svcWrite (objFields idx sub c.ty c.off (fixed ++ c.rest).length ++ (fixed ++ c.rest))
    && (match checkWrite v n idx sub c.ty c.off (fixed ++ c.rest) with
      | .ok _ => true
      | .error _ => false)
    && ((getSession v n).txn.isNone || alwaysDirect idx sub || enrolWrite (getSession v n) idx sub)

/-- What a heard request found at `s` leaves of the state its operation made: the response is kept in its session, if
that is still ACTIVE, and sent (04 R81); a FORCE that waits for its tick waits with the request (07 R166). -/
def respond (s : State) (h : Hdr) (service : Nat) (a : Answer) (u : State) : State :=
  answerOrWait (getSession s h.session) h service a u

end Sys2Proof.Machine
end

