-- ==== Sys2Proof/Certificates/Slice0/Obligations.lean ====
section
/-! DEFINITION. The statements about the machine, one definition each. -/

open Sys2Proof Sys2Proof.Machine

/-- A step is `exec` of the front command on the state with the queue's rest; an empty queue idles, which is the model's own
choice (log entry 9). -/
def Obligations.StepRunsTheFrontCommand : Prop :=
  (∀ (i : Instr) (s : State), step { s with pending := i :: s.pending } = exec i s) ∧
  (∀ s : State, s.pending = [] → step s = .next s)

/-- The bounds of `Sound` hold after reset. -/
def Obligations.ResetStateIsSound : Prop := Sound State.reset

/-- `Sound` is kept by every step from every sound state: 17 R414 and R421, 04 R84, 01 R19, 18 R436. -/
def Obligations.EveryStepKeepsTheStoresSound : Prop :=
  ∀ s t : State, Sound s → step s = .next t → Sound t

/-- Over all commands: the queue stands, the clock does not go back, the outbox only grows (log entry 8), and a remapped
page stays remapped (18 R438). -/
def Obligations.NoCommandUndoesWhatLasts : Prop :=
  ∀ (i : Instr) (s t : State), exec i s = .next t →
    t.pending = s.pending ∧ s.now ≤ t.now ∧ s.outbox <:+ t.outbox ∧ s.sram.remapped <:+ t.sram.remapped

/-- A retirement is undone by no command but a host's WRITE of READMIT, as its own row or as an object (18 R436, R439). -/
def Obligations.RetiredResourcesStayRetired : Prop :=
  ∀ (i : Instr) (s t : State), exec i s = .next t →
    (∀ n c, i ≠ .readmit n c) → (∀ n h idx sub ty off d, i ≠ .writeObject n h idx sub ty off d) →
    ∀ r ∈ s.retired, r ∈ t.retired

/-- BOOT_OPTION_LATCHED, POS and PRES change at STARTUP and at no other command (02 R36, 10 R224, 16 R384). -/
def Obligations.StrapsAndBootOptionAreLatchedAtStart : Prop :=
  ∀ (i : Instr) (s t : State), exec i s = .next t → (∀ n env, i ≠ .startup n env) →
    t.pwr.boot = s.pwr.boot ∧ t.pwr.posB = s.pwr.posB ∧ t.pwr.presLow = s.pwr.presLow

/-- OPEN (04 R78 to R80). The module nonce is a free value (log entry 7). -/
def Obligations.OpenCreatesASession : Prop :=
  ∀ (t : Nat) (path : Path) (peer n : Nat) (nonce : List Byte) (s : State),
    answers (advance t s) path = true → s.sess.force = none → nonce.length = 16 → freeSession (found t s) = some n →
    let v := found t s
    let pathNo := match path with
      | .ring => 1
      | .svc => 2
    let nonceM := leBytes 16 (Config.free v.freeN)
    let ses (slot role state : Nat) : Session :=
      { state := state, role := role, slot := slot, path := pathNo, peer := peer, nonceH := nonce, nonceM := nonceM,
        openedAt := v.now, lastValid := v.now }
    let next (slot role state : Nat) : State :=
      send (bareReply path peer n svcOpen (.ok (nonceM ++ leBytes 4 serialNumber)))
        (modSession n (fun _ => ses slot role state) { v with freeN := v.freeN + 1 })
    (cfgBool v 0x1000 8 = true → exec (.openReq t path peer 0xFF roleObserver nonce) s = .next (next 0xFF roleObserver 2)) ∧
    (∀ k role, k < 16 → 1 ≤ role → role ≤ 5 → slotLocked v k = false → (getSlot v k).key.isSome = true →
      bitOf (cfgNat v (0x1200 + k) 1) role = true → bitOf (cfgNat v (0x1200 + k) 2) (pathNo - 1) = true →
      exec (.openReq t path peer k role nonce) s = .next (next k role 1))

/-- AUTH (04 R80). -/
def Obligations.AuthActivatesOrCloses : Prop :=
  ∀ (t : Nat) (path : Path) (peer n : Nat) (proof : List Byte) (s : State),
    answers (advance t s) path = true → s.sess.force = none → n < 8 → (getSession (found t s) n).state = 1 →
    let v := found t s
    let ses := getSession v n
    let k := sessionKey v ses
    (proof = hostProof k ses → exec (.auth t path peer n proof) s =
      .next (send (bareReply path peer n svcAuth (.ok (moduleProof k ses)))
        (modSession n (fun x => { x with state := 2, tagged := true, ks := derivedKey k ses, lastValid := v.now }) v))) ∧
    (proof ≠ hostProof k ses → ∃ u, exec (.auth t path peer n proof) s = .next u ∧ getSession u n = { closeCause := 3 })

/-- KEEPALIVE and CLOSE (04 R78), TXN_BEGIN (R88), TXN_ABORT (R89). -/
def Obligations.SessionServicesComplete : Prop :=
  ∀ (t : Nat) (h : Hdr) (s : State), (getSession (found t s) h.session).enrol = false →
    let v := found t s
    let w := taken v h.session
    (heard v h svcKeepalive [] = true → exec (.keepalive t h) s = .next (respond v h svcKeepalive (.ok []) w)) ∧
    (heard v h svcClose [] = true →
      exec (.close t h) s = .next (respond v h svcClose (.ok []) (closeSession h.session 1 w))) ∧
    (heard v h svcTxnBegin [] = true → (getSession v h.session).role ≠ roleObserver →
      (getSession v h.session).txn = none → exec (.txnBegin t h) s =
        .next (respond v h svcTxnBegin (.ok []) (modSession h.session (fun x => { x with txn := some {} }) w))) ∧
    (heard v h svcTxnAbort [] = true → (getSession v h.session).role ≠ roleObserver →
      (getSession v h.session).txn.isSome = true → exec (.txnAbort t h) s =
        .next (respond v h svcTxnAbort (.ok []) (modSession h.session (fun x => { x with txn := none }) w)))

/-- SESSION_TIMEOUT, AUTH_TIMEOUT (04 R78), SLOT_LOCK_EXPIRY (R80), LEASE_EXPIRY (R86), PREPARED_TRANSACTION_LAPSE (R90) and
PRESENCE_WINDOW_EXPIRY (17 R427). -/
def Obligations.TimeoutsCloseAndUnlock : Prop :=
  ∀ (t : Nat) (s : State),
    let v := advance t s
    (∀ n : Fin 8, (getSession s n).state = 2 → (getSession s n).lastValid + 60000000000 ≤ v.now →
      ∃ u, exec (.sessionTimeout t n) s = .next u ∧ getSession u n = { closeCause := 2 } ∧ Untouched [.sess] v u) ∧
    (∀ n : Fin 8, (getSession s n).state = 1 → (getSession s n).openedAt + 10000000000 ≤ v.now →
      ∃ u, exec (.authTimeout t n) s = .next u ∧ getSession u n = { closeCause := 2 } ∧ Untouched [.sess] v u) ∧
    (∀ (k : Fin 16) (e : Nat), (getSlot s k).lockedUntil = some e → e ≤ v.now →
      exec (.slotLockExpiry t k) s = .next (modSlot k (fun x => { x with lockedUntil := none }) v)) ∧
    (∀ l ∈ s.sess.leases, l.until_ ≤ v.now → s.sess.kept.contains (l.area, l.holder) = false →
      ∃ u, exec (.leaseExpiry t l.area) s = .next u ∧
        u.sess.leases = s.sess.leases.filter (fun x => x.area != l.area) ∧ Untouched [.sess] v u) ∧
    (∀ (n : Fin 8) (x : Txn) (digest lapse : Nat), (getSession s n).txn = some x → x.prepared = some (digest, lapse) →
      lapse ≤ v.now → exec (.preparedTransactionLapse t n) s =
        .next (modSession n (fun y => { y with txn := some { x with prepared := none } }) v)) ∧
    (∀ e : Nat, s.sess.presence = some e → e ≤ v.now →
      exec (.presenceWindowExpiry t) s = .next { v with sess := { v.sess with presence := none } })

/-- LEASE (04 R84, R85). -/
def Obligations.LeaseCommandsMoveTheLease : Prop :=
  ∀ (t : Nat) (c : Cmd) (s : State),
    let n := c.hdr.session
    let v := served (found t s) n
    let a (op : Byte) := fieldAt (op :: c.rest) 2 2
    let d (op : Byte) := fieldAt (op :: c.rest) 4 4
    let done (r : List Byte) (ls : List Lease) : State :=
      let x : CmdObj := { status := 2, result := (r ++ List.replicate 16 0).take 16, invoker := n }
      respond (found t s) c.hdr svcWrite (.ok r) (modCmd 8 (fun _ => x) { v with sess := { v.sess with leases := ls } })
    (writeHeard (found t s) c 0xF008 1 [1] = true → areaMap.any (fun r => r.1 == a 1) = true → 1000 ≤ d 1 → d 1 ≤ 60000 →
      leaseOf v (a 1) = none → v.sess.leases.length < 16 →
      exec (.leaseAcquire t c) s = .next (done (leBytes 4 (d 1)) (v.sess.leases ++ [⟨a 1, n, v.now + d 1 * 1000000⟩]))) ∧
    (∀ l, writeHeard (found t s) c 0xF008 1 [2] = true → areaMap.any (fun r => r.1 == a 2) = true → 1000 ≤ d 2 →
      d 2 ≤ 60000 → leaseOf v (a 2) = some l → l.holder = n →
      exec (.leaseRenew t c) s = .next (done (leBytes 4 (d 2))
        (v.sess.leases.map (fun x => if x.area == a 2 then { x with until_ := v.now + d 2 * 1000000 } else x)))) ∧
    (∀ l, writeHeard (found t s) c 0xF008 1 [3] = true → areaMap.any (fun r => r.1 == a 3) = true →
      leaseOf v (a 3) = some l → l.holder = n → (getSession v n).txn = none →
      ∃ u, exec (.leaseRelease t c) s = .next u ∧ leaseOf u (a 3) = none ∧
        u.sess.leases = v.sess.leases.filter (fun x => x.area != a 3) ∧
        getCmd u 8 = { status := 2, result := List.replicate 16 0, invoker := n } ∧
        Untouched [.sess, .outbox, .ring] v u)

/-- The bulk buffer (04 R72, R94). -/
def Obligations.BulkBufferIsWrittenByOffset : Prop :=
  ∀ (t : Nat) (c : Cmd) (s : State),
    let v := served (found t s) c.hdr.session
    (writeHeard (found t s) c 0xF000 2 [] = true →
      let w : DirectWrite := { key := objKey 0xF000 2, data := c.rest, session := c.hdr.session }
      exec (.bulkLength t c) s = .next (respond (found t s) c.hdr svcWrite (.ok [])
        { v with sess := { v.sess with direct := v.sess.direct ++ [w] } })) ∧
    (∀ (data : List Byte) (n : Nat) (w : State),
      let key := objKey 0xF000 2
      directEffect key data n w = { w with sess := { w.sess with
        bulkLen := leVal data, bulk := [], passDue := key :: w.sess.passDue.filter (fun k => k != key) } }) ∧
    (writeHeard (found t s) c 0xF000 1 [] = true →
      ∃ u, exec (.bulkData t c) s = .next u ∧ u.sess.bulkLen = v.sess.bulkLen ∧ u.sess.leases = v.sess.leases ∧
        (∀ a, Memory.read u.sess.bulk a = if c.off ≤ a ∧ a < c.off + c.rest.length then c.rest.getD (a - c.off) 0
          else Memory.read v.sess.bulk a) ∧
        Untouched [.sess, .outbox, .ring] v u)

/-- SLOT_KEY (17 R428), SIGNER_KEY (R430), PRESENCE_KEY (R427). -/
def Obligations.KeysAreSetAndRecorded : Prop :=
  (∀ (t : Nat) (k : Fin 16) (c : Cmd) (s : State), writeHeard (found t s) c (0x1200 + k) 5 [] = true →
    let v := served (found t s) c.hdr.session
    let key := xorBytes c.rest (hmacSha256 (getSession v c.hdr.session).ks (labelPXKW ++ leBytes 1 k))
    ∃ u, exec (.slotKey t k c) s = .next u ∧
      (getSlot u k).key = (if key.all (· == 0) then none else some key) ∧
      (∀ j : Nat, j ≠ k → getSlot u j = getSlot v j) ∧ Untouched [.sess, .outbox, .ring, .recd] v u) ∧
  (∀ (t : Nat) (i : Fin 4) (c : Cmd) (s : State), writeHeard (found t s) c (0xB000) (0x20 + i) [] = true →
    let v := served (found t s) c.hdr.session
    let w : DirectWrite := { key := objKey 0xB000 (0x20 + i), data := c.rest, session := c.hdr.session }
    exec (.signerKey t i c) s = .next (respond (found t s) c.hdr svcWrite (.ok [])
      { v with sess := { v.sess with direct := v.sess.direct ++ [w] } })) ∧
  (∀ (i : Fin 4) (data : List Byte) (n : Nat) (s : State),
    let key := objKey 0xB000 (0x20 + i)
    directEffect key data n s = emit 0xB104 0 (leBytes 1 i)
      { s with config := cfgPut s.config 0xB000 (0x20 + i) data, sess := { s.sess with
        flashDue := (key, s.now) :: s.sess.flashDue.filter (fun e => e.1 != key)
        passDue := key :: s.sess.passDue.filter (fun k => k != key) } }) ∧
  (∀ (t ms : Nat) (s : State), up s = true →
    let v := advance t s
    (500 ≤ ms → ms ≤ 5000 → exec (.presenceKey t ms) s =
      .next (emit 0xB101 0 [] { v with sess := { v.sess with presence := some (v.now + 120000000000) } })) ∧
    (5000 < ms → exec (.presenceKey t ms) s = .next (emit 0xB105 0 [] v)))

/-- READ and WRITE_OBJECT (04 R72, R74, R88). -/
def Obligations.ReadsAnswerAndWritesActOrStage : Prop :=
  (∀ (t : Nat) (h : Hdr) (idx sub ty off max : Nat) (r : ObjRow) (s : State),
    let v := found t s
    let w := taken v h.session
    heard v h svcRead (objFields idx sub ty off max) = true → checkRead w idx sub ty off max = .ok r →
    let data := readData w idx sub off max r
    exec (.read t h idx sub ty off max) s =
      .next (respond v h svcRead (.ok (objFields idx sub ty off data.length ++ data)) (scRead idx sub w))) ∧
  (∀ (t : Nat) (h : Hdr) (n : Fin 1024) (sub ty off : Nat) (data : List Byte) (s : State), sub = 0x1B ∨ sub = 0x1C →
    let c : Cmd := { hdr := h, ty := ty, off := off, rest := data }
    let v := served (found t s) h.session
    writeHeard (found t s) c (0x4000 + n) sub [] = true →
    let w : DirectWrite := { key := objKey (0x4000 + n) sub, data := data, session := h.session }
    exec (.writeObject t h (0x4000 + n) sub ty off data) s = .next (respond (found t s) h svcWrite (.ok [])
      { v with sess := { v.sess with direct := v.sess.direct ++ [w] } })) ∧
  (∀ (t : Nat) (n : Fin 1024) (c : Cmd) (s : State),
    let v := served (found t s) c.hdr.session
    writeHeard (found t s) c (0x4000 + n) 0x1A [] = true → leVal c.rest ≠ 2 →
    let w : DirectWrite := { key := objKey (0x4000 + n) 0x1A, data := c.rest, session := c.hdr.session }
    exec (.loopMode t n c) s = .next (respond (found t s) c.hdr svcWrite (.ok [])
      { v with sess := { v.sess with direct := v.sess.direct ++ [w] } })) ∧
  (∀ (n : Fin 1024) (sub m : Nat) (data : List Byte) (s : State), sub = 0x1B ∨ sub = 0x1C →
    let key := objKey (0x4000 + n) sub
    directEffect key data m s = { s with config := cfgPut s.config (0x4000 + n) sub data, sess := { s.sess with
      flashDue := (key, s.now) :: s.sess.flashDue.filter (fun e => e.1 != key)
      passDue := key :: s.sess.passDue.filter (fun k => k != key) } }) ∧
  (∀ (t : Nat) (h : Hdr) (idx sub ty off : Nat) (data : List Byte) (r : ObjRow) (x : Txn) (s : State),
    let v := served (found t s) h.session
    heard (found t s) h svcWrite (objFields idx sub ty off data.length ++ data) = true →
    checkWrite v h.session idx sub ty off data = .ok r → alwaysDirect idx sub = false →
    (getSession v h.session).enrol = false → (getSession v h.session).txn = some x →
    stagingFull v h.session data.length = false →
    exec (.writeObject t h idx sub ty off data) s = .next (respond (found t s) h svcWrite (.ok [])
      (modSession h.session (fun y =>
        { y with txn := some { x with writes := x.writes ++ [⟨objKey idx sub, off, data⟩], prepared := none } }) v)))
/-- MODE_SET (04 R87; 08 R189, R191, R192). -/
def Obligations.ModeSetCommandsChangeTheMode : Prop :=
  ∀ (t : Nat) (c : Cmd) (s : State),
    let v := served (found t s) c.hdr.session
    let data (op : Byte) : List Byte := op :: c.rest
    let answered (i : Instr) (w : State) : Prop := exec i s = .next (respond (found t s) c.hdr svcWrite (.ok []) w)
    isStandby v = false →
    (writeHeard (found t s) c 0xF001 1 [0] = true → modeArgs (data 0) = none →
      ∃ w, answered (.modeSetStop t c) w ∧ w.prog.mode = .stop ∧ w.prog.runDue = false ∧ (getCmd w 1).status = 2 ∧
        (v.prog.mode ≠ .stop → w.prog.stopCause = 1)) ∧
    (writeHeard (found t s) c 0xF001 1 [1] = true → modeArgs (data 1) = none → (getCmd v 1).status ≠ 1 →
      v.pair.state ≠ .conflict → v.prog.mode = .stop → v.prog.forme.isSome = true →
      answered (.modeSetRun t c) (modCmd 1 (fun _ => { status := 1, result := [], invoker := c.hdr.session })
        { v with prog := { v.prog with runDue := true, runByCommand := true, runSince := localNow v } })) ∧
    (writeHeard (found t s) c 0xF001 1 [2] = true → modeArgs (data 2) = none → (getCmd v 1).status ≠ 1 →
      v.pair.state ≠ .conflict → v.prog.mode = .run →
      ∃ w, answered (.modeSetHold t c) w ∧ w.prog.mode = .hold ∧ (getCmd w 1).status = 2 ∧
        w.prog.holdUntil = v.now + (if fieldAt (data 2) 4 4 = 0 then 60000 else fieldAt (data 2) 4 4) * 1000000) ∧
    (writeHeard (found t s) c 0xF001 1 [3] = true → modeArgs (data 3) = none → (getCmd v 1).status ≠ 1 →
      v.pair.state ≠ .conflict → v.prog.mode = .hold → taskUsed v (fieldAt (data 3) 1 1) = true →
      (getTask v (fieldAt (data 3) 1 1)).cycle = none →
      ∃ w cy, answered (.modeSetStep t c) w ∧ (getTask w (fieldAt (data 3) 1 1)).cycle = some cy ∧ cy.step = true ∧
        cy.pc = (taskDef v (fieldAt (data 3) 1 1)).entry ∧ w.prog.mode = .hold ∧ (getCmd w 1).status = 2)

/-- RUN_ENTRY (03 R62), HOLD_LAPSE (08 R191), STEP_CYCLE_TIMEOUT (R192), TASK_RELEASE (R183). -/
def Obligations.ModesChangeWhenTheirTimeComes : Prop :=
  ∀ (t : Nat) (s : State),
    let v := advance t s
    (appUp s = true → s.pair.state ≠ .conflict → s.prog.runDue = true → s.prog.mode = .stop → s.prog.forme.isSome = true →
      boundarySince v s.prog.runSince = true →
      ∃ u, exec (.runEntry t) s = .next u ∧ u.prog.mode = .run ∧ u.prog.runDue = false) ∧
    (s.prog.mode = .hold → s.prog.holdUntil ≤ v.now →
      ∃ u, exec (.holdLapse t) s = .next u ∧ u.prog.mode = .stop ∧ u.prog.stopCause = 3) ∧
    (∀ (k : Fin 48) (c : Cycle), (getTask s k).cycle = some c → c.step = true → c.releasedAt + 1000000000 ≤ v.now →
      exec (.stepCycleTimeout t k) s = .next (modTask k (fun x =>
        { x with cycle := none, abandoned := true, lastExec := sat 32 (v.now - c.releasedAt) }) v)) ∧
    (∀ k : Fin 48, k.val < 32 → appUp s = true → s.prog.mode = .run →
      (∀ p, s.sess.pending = some p → boundarySince v p.since = false) → swapHeld v = false → (taskDef s k).kind = 1 →
      (getTask s k).cycle = none → (getTask s k).lastGrid ≠ some (gridAt v (taskPeriod s k)) →
      ∃ u cy, exec (.taskRelease t k) s = .next u ∧ (getTask u k).cycle = some cy ∧ cy.pc = (taskDef s k).entry ∧
        (getTask u k).lastGrid = some (gridAt v (taskPeriod s k)) ∧ (getTask u k).releases = sat 32 ((getTask s k).releases + 1))

/-- ONLINE_CHANGE, PREPARATION_END and SWAP (08 R193 to R197). What the spec leaves open of an image's layout is free (log entry 3). -/
def Obligations.OnlineChangeRunsItsCourse : Prop :=
  (∀ (t : Nat) (c : Cmd) (s : State),
    let v := served (found t s) c.hdr.session
    let answered (i : Instr) (w : State) : Prop := exec i s = .next (respond (found t s) c.hdr svcWrite (.ok []) w)
    isStandby v = false →
    (∀ op i, (op = 1 ∧ i = .onlineChangePrepareAndSwap t c) ∨ (op = 2 ∧ i = .onlineChangePrepareOnly t c) →
      writeHeard (found t s) c 0xF002 1 [BitVec.ofNat 8 op] = true → (getCmd v 2).status ≠ 1 → v.sess.pending = none →
      v.sess.change = none → bulkSigned v = true →
      ∃ w, answered i w ∧ w.prog.oc.state = .preparing ∧ w.prog.oc.op = op ∧
        w.prog.oc.forme = some (formeOf (bulkBytes v)) ∧ (getCmd w 2).status = 1 ∧ w.sess.change = some 0xF002) ∧
    (writeHeard (found t s) c 0xF002 1 [3] = true → v.prog.oc.state = .waiting →
      ∃ w, answered (.onlineChangeCancel t c) w ∧ w.prog.oc.state = .abandoned ∧ w.prog.oc.forme = none ∧
        (getCmd w 2).status = 3)) ∧
  (∀ (t : Nat) (f : Forme) (s : State),
    let v := advance t s
    s.prog.oc.state = .preparing → s.prog.oc.forme = some f → verifyForme v f = none → isPairUnit s = false →
    s.prog.oc.op = 1 → s.prog.oc.partnerAbort = none → s.prog.mode = .run →
    exec (.preparationEnd t false) s = .next { v with prog := { v.prog with
      candidate := some f, oc := { v.prog.oc with state := .waiting, since := localNow v } } }) ∧
  (∀ (t pauseUs : Nat) (f : Forme) (s : State),
    let v := advance t s
    s.prog.oc.state = .waiting → s.prog.oc.forme = some f → boundarySince v s.prog.oc.since = true → quiet s = true →
    isStandby s = false →
    ∃ u, exec (.swap t pauseUs) s = .next u ∧ u.prog.forme = some f ∧
      u.prog.generation = (s.prog.generation + 1) % 2 ^ 32 ∧ u.prog.oc.state = .swapped ∧ u.prog.mode = s.prog.mode ∧
      (s.prog.mode ≠ .stop → u.prog.flashForme = s.prog.flashForme ∧ u.prog.candidate = s.prog.candidate ∧
        u.prog.uncommitted = some (unswapped s)) ∧
      (s.prog.mode = .stop → u.prog.flashForme = some f ∧ u.prog.candidate = s.prog.flashForme ∧
        u.prog.uncommitted = none))
/-- TIME_RESTEP (06 R138) under the rule of steps of R136. -/
def Obligations.TimeRestepMovesLocalTime : Prop :=
  ∀ (t : Nat) (c : Cmd) (s : State),
    let v := served (found t s) c.hdr.session
    let answered (i : Instr) (w : State) : Prop := exec i s = .next (respond (found t s) c.hdr svcWrite (.ok []) w)
    (writeHeard (found t s) c 0xF004 1 [1] = true → fieldAt (1 :: c.rest) 8 8 = 0 → v.clk.state = .locked ∨ v.clk.state = .slewing →
      ∃ w, answered (.timeRestepFollower t c) w ∧ localNow w = localNow v + stepPart v v.clk.theta ∧
        w.clk.theta = v.clk.theta - stepPart v v.clk.theta ∧ w.clk.steps = v.clk.steps + 1 ∧
        w.prog.clockAt = v.prog.clockAt + stepPart v v.clk.theta ∧ (getCmd w 4).status = 2) ∧
    (writeHeard (found t s) c 0xF004 1 [2] = true → v.clk.state = .master →
      let d := signedAt (2 :: c.rest) 8 8 - localNow v
      ∃ w, answered (.timeRestepMaster t c) w ∧ localNow w = localNow v + stepPart v d ∧
        w.clk.slewLeft = d - stepPart v d ∧ w.clk.steps = v.clk.steps + 1 ∧ (getCmd w 4).status = 2)

/-- TB_FRAME, TB_SEND, SERVO_PERIOD, MASTERSHIP, BEACON_TIMEOUT, LD_SEND, LD_FRAME, MASTER_SLEW_END (06 R132 to R138). -/
def Obligations.TimeUnitFollowsBeacons : Prop :=
  ∀ (t : Nat) (s : State),
    let v := advance t s
    (∀ port seq origin master rank st, up s = true → domainOn s 7 = true →
      nodeAddress s = 0 ∨ nodeAddress s ≠ master → s.clk.state = .free →
      ∃ u, exec (.tbFrame t port seq origin master rank st) s = .next u ∧ u.clk.state = .acquiring ∧
        u.clk.masterNode = master ∧ u.clk.masterRank = rank ∧ u.clk.lastBeacon = some v.now ∧ u.clk.agree = 0) ∧
    (originatesAll s = true → s.clk.state = .master →
      exec (.tbSend t) s = .next (send
        (.tb (nodeAddress v) (frameSeq v.ring.tbSeq) (localNow v) (nodeAddress v) (timeRank v) 5) v)) ∧
    (∀ th, up s = true → domainOn s 7 = true → s.clk.state = .locked → s.clk.copy = none → (acceptSamples v).1 ≠ [] →
      th = meanInt (acceptSamples v).1 → th.natAbs ≤ 1000000 →
      ∃ u, exec (.servoPeriod t) s = .next u ∧ u.clk.state = .locked ∧ u.clk.theta = th ∧
        u.clk.freq = clampFreq (s.clk.freq + th) ∧ u.clk.rate = rateOf (clampFreq (u.clk.freq + 32 * th)) ∧
        localNow u = localNow v ∧ u.clk.samples = []) ∧
    (originatesAll s = true → timeRank s ≠ 255 → s.clk.state ≠ .master → s.clk.lastBetter + 250000000 ≤ v.now →
      ∃ u, exec (.mastership t) s = .next u ∧ u.clk.state = .master ∧ u.clk.masterNode = nodeAddress s ∧
        u.clk.masterRank = timeRank s ∧ u.clk.locked = true) ∧
    (∀ b, s.clk.lastBeacon = some b → up s = true → s.clk.state = .locked ∨ s.clk.state = .slewing → b + 500000000 ≤ v.now →
      ∃ u, exec (.beaconTimeout t) s = .next u ∧ u.clk.state = .holdover ∧ u.clk.rate = rateOf s.clk.freq ∧
        localNow u = localNow v) ∧
    (originatesAll s = true → s.ring.t1Up = true → s.ring.t2Up = true →
      let q := v.ring.ldSeq
      exec (.ldSend t) s = .next (send (.ld .t2 (nodeAddress v) (frameSeq (frameSeq q)) 1 (localNow v) 0 0)
        (send (.ld .t1 (nodeAddress v) (frameSeq q) 1 (localNow v) 0 0) v))) ∧
    (∀ port a b c, originatesAll s = true →
      exec (.ldFrame t port 1 a b c) s =
        .next (send (.ld port (nodeAddress v) (frameSeq v.ring.ldSeq) 2 a (localNow v) (localNow v)) v)) ∧
    (∀ a b c, up s = true → domainOn s 7 = true →
      exec (.ldFrame t .t1 2 a b c) s = .next { v with clk := { v.clk with
        linkT1 := (((localNow v - a) - (c - b)) / 2).toNat } } ∧
      exec (.ldFrame t .t2 2 a b c) s = .next { v with clk := { v.clk with
        linkT2 := (((localNow v - a) - (c - b)) / 2).toNat } }) ∧
    (s.clk.state = .master → s.clk.slewLeft ≠ 0 → s.clk.slewUntil ≤ v.now →
      exec (.masterSlewEnd t) s = .next (setRate s.clk.slewRate { v with clk := { v.clk with slewLeft := 0 } }))
/-- CONFIG_COMMIT, CONFIG_COMMIT_PREPARE and CONFIG_COMMIT_CONFIRM (04 R88 to R91). -/
def Obligations.ConfigCommitChecksThenWaits : Prop :=
  ∀ (t : Nat) (c : Cmd) (s : State),
    let n := c.hdr.session
    let v := served (found t s) n
    let ws := (txnOf v n).writes
    let answered (i : Instr) (a : Answer) (w : State) : Prop := exec i s = .next (respond (found t s) c.hdr svcWrite a w)
    (writeHeard (found t s) c 0xF007 1 [1] = true → commitRefused (1 :: c.rest) n v = none →
      (checkTxn v n ws = none → ∃ w, answered (.configCommit t c) (.ok []) w ∧ w.config = v.config ∧
        w.sess.pending = some ⟨n, ws, localNow v⟩ ∧ (getSession w n).txn = none ∧
        getCmd w 7 = { status := 1, result := [], invoker := n } ∧ w.sess.change = some 0xF007) ∧
      (∀ a, checkTxn v n ws = some a → ∃ w, answered (.configCommit t c) (.error a) w ∧ w.config = v.config ∧
        w.sess.pending = v.sess.pending ∧ (getSession w n).txn = none ∧ (getCmd w 7).status = 3)) ∧
    (writeHeard (found t s) c 0xF007 1 [2] = true → commitRefused (2 :: c.rest) n v = none → checkTxn v n ws = none →
      checkSafety (resultOf v ws) = none →
      ∃ w, answered (.configCommitPrepare t c) (.ok (leBytes 4 (sealAfter v ws))) w ∧ w.config = v.config ∧
        w.sess.pending = v.sess.pending ∧ w.safe = v.safe ∧
        (getSession w n).txn = some { txnOf v n with prepared := some (sealAfter v ws, v.now + 60000000000) }) ∧
    (writeHeard (found t s) c 0xF007 1 [3] = true → commitRefused (3 :: c.rest) n v = none → checkTxn v n ws = none →
      checkSafety (resultOf v ws) = none → outputsOn v = 0 →
      ∀ lapse, (txnOf v n).prepared = some (fieldAt (3 :: c.rest) 4 4, lapse) → v.now ≤ lapse →
      ∃ w, answered (.configCommitConfirm t c) (.ok []) w ∧ w.sess.pending = some ⟨n, ws, localNow v⟩ ∧
        (getSession w n).txn = none ∧ (getCmd w 7).status = 1)

/-- CONFIG_APPLY (04 R89, R91). -/
def Obligations.PendingCommitIsAppliedWhole : Prop :=
  ∀ (t : Nat) (s : State),
    let v := advance t s
    (∀ p, s.sess.pending = some p → up s = true → s.prog.mode = .stop ∨ boundarySince v p.since = true →
      let objs := (stagedObjs p.writes).filter (fun e => decide (keyAcc e.1 ≠ .rws))
      ∃ u, exec (.configApply t) s = .next u ∧ u.sess.pending = none ∧ u.sess.change = none ∧
        u.sess.generation = (s.sess.generation + 1) % 2 ^ 32 ∧ (getCmd u 7).status = 2 ∧
        ((∀ e ∈ objs, directKey e.1 = false) → u.config = putObjs s.config objs)) ∧
    (∀ p, s.sess.pending = some p → s.prog.mode ≠ .stop → boundarySince v p.since = false →
      exec (.configApply t) s = .next v) ∧
    (s.sess.pending = none → exec (.configApply t) s = .next v)
/-- FORCE_POINT, FORCE_RELEASE, FORCE_RELEASE_ALL (07 R166 to R168). -/
def Obligations.ForcesAreSetAndReleased : Prop :=
  (∀ (t : Nat) (c : Cmd) (s : State),
    let v := served (found t s) c.hdr.session
    let p (op : Byte) := fieldAt (op :: c.rest) 4 4
    let x := fieldAt (1 :: c.rest) 8 4
    let waits (r : ForceReq) : State := { v with sess := { v.sess with force := some { r with
      hdr := c.hdr, ready := if needsAck v then none else some (localNow v) } } }
    (writeHeard (found t s) c 0xF009 1 [1] = true → p 1 < 2 ^ 18 → unforceable v (p 1) = false →
      (pointType v (p 1) = 1 → x ≤ 1) → (forceOf v (p 1)).isSome = true ∨ v.img.forces.length < 256 →
      exec (.forcePoint t c) s = .next (waits { op := 1, point := p 1, value := BitVec.ofNat 32 x })) ∧
    (writeHeard (found t s) c 0xF009 1 [2] = true → p 2 < 2 ^ 18 →
      ∃ y, exec (.forceRelease t c) s = .next (waits { op := 2, point := p 2, value := y })) ∧
    (writeHeard (found t s) c 0xF009 1 [3] = true →
      ∃ q y, exec (.forceReleaseAll t c) s = .next (waits { op := 3, point := q, value := y }))) ∧
  (∀ (t : Nat) (r : ForceReq) (s : State),
    let v := advance t s
    let g := gridAt v 125000
    up v = true → v.eng.lastTick ≠ g → (v.prog.mode = .stop ∨ ∀ p, v.sess.pending = some p → boundarySince v p.since = false) →
    v.sess.force = some r → forceReady v r g = true → v.sess.waiting = [] →
    ∃ u, exec (.engineTick t) s = .next u ∧ u.sess.force = none ∧ (r.op = 3 → u.img.forces = []) ∧
      (r.op = 1 → unforceable v r.point = false → forceOf u r.point = some ⟨r.point, typedValue v r.point r.value, g⟩)) ∧
  (∀ (g : Int) (r : ForceReq) (s : State), s.sess.force = some r → forceReady s r g = true →
    let u := forceTick g s
    u.sess.force = none ∧
    let refused := r.op = 1 ∧ unforceable s r.point = true
    (refused → u.img.forces = s.img.forces) ∧
    (r.op = 1 → unforceable s r.point = false → forceOf u r.point = some ⟨r.point, typedValue s r.point r.value, g⟩ ∧
      ∀ q, q ≠ r.point → forceOf u q = forceOf s q) ∧
    (r.op = 2 → forceOf u r.point = none ∧ ∀ q, q ≠ r.point → forceOf u q = forceOf s q) ∧
    (r.op = 3 → u.img.forces = []) ∧
    (¬ refused → (getCmd u 9).status = 2 ∧
      (getCmd u 9).result.take 3 = forceResult u (if r.op = 3 then none else some r.point)) ∧
    (¬ refused → (getSession s r.hdr.session).state = 2 → ∃ b, u.outbox.head? =
      some (framed b (answerMsg (getSession s r.hdr.session) r.hdr svcWrite
        (.ok (forceResult u (if r.op = 3 then none else some r.point)))))))

/-- READMIT (18 R439, R440) and RECORDER_SNAPSHOT (17 R418). -/
def Obligations.ResourcesAreReadmittedAndSnapshotsTaken : Prop :=
  ∀ (t : Nat) (c : Cmd) (s : State),
    let n := c.hdr.session
    let v := served (found t s) n
    let kind := fieldAt c.rest 0 1
    let num := fieldAt c.rest 2 2
    (∀ ss mx r, writeHeard (found t s) c 0xF003 1 [] = true → readmitKind kind = some (ss, mx) → num ≤ mx →
      v.retired.find? (fun r => r.kind == kind && r.number == num) = some r → r.cal = false →
      ∃ body w, exec (.readmit t c) s = .next (respond (found t s) c.hdr svcWrite (.ok body) w) ∧
        w.retired = v.retired.filter (fun r => !(r.kind == kind && r.number == num)) ∧ (getCmd w 3).status = 2 ∧
        (kind = 1 → (getDio w num).faults = [] ∧ (getDio w num).awaiting = true)) ∧
    (writeHeard (found t s) c 0xF005 1 [] = true → fieldAt c.rest 0 1 = 1 → v.recd.newest ≠ 0 →
      exec (.recorderSnapshot t c) s = .next (respond (found t s) c.hdr svcWrite (.ok (snapshotBytes v.recd 0))
        (cmdDone 5 (snapshotBytes v.recd 0) (cmdStart 5 n v))))

/-- DOMAIN_RESET and DOMAIN_RESET_COMPLETE (03 R54, R55). -/
def Obligations.DomainsAreResetAlone : Prop :=
  (∀ (t : Nat) (c : Cmd) (s : State),
    let v := served (found t s) c.hdr.session
    let d := fieldAt c.rest 0 1
    (writeHeard (found t s) c 0xF00A 1 [] = true → (getCmd v 0xA).status ≠ 1 →
      (8 ≤ d ∧ d ≤ 11) ∨ (d = 7 ∧ isPairUnit v = false ∧ v.prog.mode = .stop) →
      ∃ w, exec (.domainReset t c) s = .next (respond (found t s) c.hdr svcWrite (.ok []) w) ∧
        domainOn w d = false ∧ w.pwr.domReset = some (d, v.now) ∧ (getCmd w 0xA).status = 1 ∧
        (∀ e, e ≠ d → domainOn w e = domainOn v e)) ∧
    (writeHeard (found t s) c 0xF00A 1 [] = true → (getCmd v 0xA).status ≠ 1 → d = 0xFF → v.pwr.domReset = none →
      ∃ u, exec (.domainReset t c) s = .next u ∧ u.pwr.phase = .restart 7)) ∧
  (∀ (t d t0 : Nat) (s : State), s.pwr.domReset = some (d, t0) → up s = true → 7 ≤ d → d ≤ 11 →
    (t0 + 10000000 ≤ (advance t s).now →
      ∃ u, exec (.domainResetComplete t) s = .next u ∧ domainOn u d = true ∧ u.pwr.domReset = none ∧
        (getCmd u 0xA).status = 2 ∧ (getCmd u 0xA).result.take 4 = leBytes 4 (((advance t s).now - t0) / 1000)) ∧
    ((advance t s).now < t0 + 10000000 → exec (.domainResetComplete t) s = .next (advance t s)))

/-- PATCH_INSTALL and PATCH_REMOVE (17 R425, R426). -/
def Obligations.PatchSetsAreInstalledAndRemoved : Prop :=
  ∀ (t : Nat) (c : Cmd) (s : State),
    let v := served (found t s) c.hdr.session
    (∀ flashFull, writeHeard (found t s) c 0xF00B 1 [1] = true → patchRefused v = none →
      patchCheck v.mgmt.patchKey (bulkBytes v) flashFull = none →
      ∃ u, exec (.patchInstall t c flashFull) s = .next u ∧ u.pwr.phase = .restart 8 ∧ u.mgmt.patchState = 2 ∧
        u.mgmt.heldId = fieldAt (bulkBytes v) 8 4 ∧ u.mgmt.heldCount = fieldAt (bulkBytes v) 12 2) ∧
    (writeHeard (found t s) c 0xF00B 1 [2] = true → patchRefused v = none →
      ∃ w, exec (.patchRemove t c) s = .next (respond (found t s) c.hdr svcWrite (.ok []) w) ∧ w.mgmt.heldId = 0 ∧
        w.mgmt.heldCount = 0 ∧ w.mgmt.patchId = v.mgmt.patchId ∧ w.mgmt.patchState = v.mgmt.patchState ∧
        (getCmd w 0xB).status = 2)
/-- STARTUP (03 R50, R57, R62), POWER_FAIL (R64), THERMAL_SHUTDOWN, RAIL_FAULT and MGT_WATCHDOG (R63). -/
def Obligations.PowerFailsAndStarts : Prop :=
  ∀ (t : Nat) (s : State),
    let v := advance t s
    let down (p : Phase) (u : State) : Prop :=
      u.pwr.phase = p ∧ u.pwr.domains = 1 ∧ u.pwr.relayOpen = false ∧ (∀ n, n < 8 → (getSession u n).state = 0)
    (∀ env, startDue env v = true →
      let cycles := if s.pwr.phase = .off ∧ env.supercapMv < 2000 then s.pwr.mirror.2.2 else s.pwr.cycles
      ∃ u, exec (.startup t env) s = .next u ∧ u.pwr.phase = .up ∧ u.pwr.domains = 0xFFF ∧ u.prog.mode = .stop ∧
        u.pwr.cycles = (cycles + 1) % 2 ^ 24 ∧ u.pwr.posB = env.posB ∧ u.pwr.presLow = env.presLow ∧
        u.pwr.startedAt = v.now) ∧
    (∀ env, startDue env v = false → exec (.startup t env) s = .next v) ∧
    (∀ margin back, s.pwr.phase = .up →
      ∃ u, exec (.powerFail t margin back) s = .next u ∧ down (if back then .restart 3 else .off) u ∧
        u.pwr.margin = sat 16 margin ∧ u.pwr.mirror = (aonTime v, opTime v, s.pwr.cycles) ∧
        u.prog.store = (if (storeAll v).prog.sealed.isSome then Memory.norm (unswapped (storeAll v)).ret else s.prog.store)) ∧
    (∀ tenths, s.pwr.phase = .up → tenths > 1250 →
      ∃ u, exec (.thermalShutdown t tenths) s = .next u ∧ down (.restart 5) u) ∧
    (∀ rail, s.pwr.phase = .up → ∃ u, exec (.railFault t rail) s = .next u ∧ down (.restart 9) u) ∧
    (s.pwr.phase = .up → ∃ u, exec (.mgtWatchdog t) s = .next u ∧ down (.restart 4) u)

/-- FUSE_TRIP, FUSE_RECLOSE (03 R49), SUPPLY_WARNING, SUPPLY_WARNING_CLEAR, SUPPLY_OFF, SUPPLY_RECOVERY (R51),
PHY_READY_LOST, BYPASS_RELAY_OPEN (R67). -/
def Obligations.SuppliesWarnFailAndRecover : Prop :=
  ∀ (t : Nat) (s : State), up s = true →
    let v := advance t s
    (∀ mv, s.pwr.t1Fuse = false → exec (.fuseTrip t .t1 mv) s = .next
      (emit 0x0300 0xC011 (leBytes 2 mv ++ leBytes 2 (sat 16 (s.pwr.tripsT1 + 1)))
        { v with pwr := { v.pwr with t1Fuse := true, tripsT1 := sat 16 (s.pwr.tripsT1 + 1), fuseAtT1 := v.now } })) ∧
    (∀ mv, s.pwr.t2Fuse = false → exec (.fuseTrip t .t2 mv) s = .next
      (emit 0x0300 0xC012 (leBytes 2 mv ++ leBytes 2 (sat 16 (s.pwr.tripsT2 + 1)))
        { v with pwr := { v.pwr with t2Fuse := true, tripsT2 := sat 16 (s.pwr.tripsT2 + 1), fuseAtT2 := v.now } })) ∧
    (s.pwr.t1Fuse = true → s.pwr.fuseAtT1 + 1000000000 ≤ v.now →
      exec (.fuseReclose t .t1) s = .next { v with pwr := { v.pwr with t1Fuse := false } }) ∧
    (s.pwr.t2Fuse = true → s.pwr.fuseAtT2 + 1000000000 ≤ v.now →
      exec (.fuseReclose t .t2) s = .next { v with pwr := { v.pwr with t2Fuse := false } }) ∧
    (∀ x mv, let m := noteMv x mv v
      (warns x mv = true → warned s.pwr x = false → exec (.supplyWarning t x mv) s = .next
        (emit (0x0400 + warnBit x) (supplySource x) (leBytes 2 mv) { m with pwr := setWarned true m.pwr x })) ∧
      (unwarns x mv = true → warned s.pwr x = true → exec (.supplyWarningClear t x mv) s = .next
        (emit (0x0480 + warnBit x) (supplySource x) (leBytes 2 mv) { m with pwr := setWarned false m.pwr x }))) ∧
    (∀ mv, (noteMv .fsa mv v).pwr.fsaMv = mv ∧ (noteMv .fsb mv v).pwr.fsbMv = mv) ∧
    (∀ mv, mv < 16000 →
      (s.pwr.fsaOff = false → ∃ u, exec (.supplyOff t .fsa mv) s = .next u ∧ u.pwr.fsaOff = true ∧
        ∀ b, b < 4 → (getBank u b).supplyOff = true) ∧
      (s.pwr.fsbOff = false → ∃ u, exec (.supplyOff t .fsb mv) s = .next u ∧ u.pwr.fsbOff = true ∧
        ∀ b, 4 ≤ b → b < 8 → (getBank u b).supplyOff = true) ∧
      (s.pwr.msOffLow = false → ∃ u, exec (.supplyOff t .msLow mv) s = .next u ∧ u.pwr.msOffLow = true)) ∧
    (∀ mv, 55000 < mv → s.pwr.msOffHigh = false →
      ∃ u, exec (.supplyOff t .msHigh mv) s = .next u ∧ u.pwr.msOffHigh = true) ∧
    (∀ mv, 18000 < mv →
      (s.pwr.fsaOff = true → ∃ u, exec (.supplyRecovery t .fsa mv) s = .next u ∧ u.pwr.fsaOff = false ∧
        ∀ b, b < 4 → (getBank u b).supplyOff = false) ∧
      (s.pwr.fsbOff = true → ∃ u, exec (.supplyRecovery t .fsb mv) s = .next u ∧ u.pwr.fsbOff = false ∧
        ∀ b, 4 ≤ b → b < 8 → (getBank u b).supplyOff = false) ∧
      (s.pwr.msOffLow = true → ∃ u, exec (.supplyRecovery t .msLow mv) s = .next u ∧ u.pwr.msOffLow = false)) ∧
    (∀ mv, mv < 53000 → s.pwr.msOffHigh = true →
      ∃ u, exec (.supplyRecovery t .msHigh mv) s = .next u ∧ u.pwr.msOffHigh = false) ∧
    (s.pwr.relayOpen = true → exec (.phyReadyLost t) s = .next { v with pwr := { v.pwr with
      relayOpen := false, transitions := (v.pwr.transitions + 1) % 2 ^ 32, closedAt := some v.now } }) ∧
    (domainOn s 7 = true → s.pwr.relayOpen = false → relayRested v = true → exec (.bypassRelayOpen t) s = .next
      { v with pwr := { v.pwr with relayOpen := true, transitions := (v.pwr.transitions + 1) % 2 ^ 32 } })

/-- SENSOR_SAMPLE, HUMIDITY_LIMIT_EXCEEDED (17 R424), COUNTER_MIRROR (03 R57), DIRECT_VALUE_FLASH_WRITE (04 R462). -/
def Obligations.ManagementKeepsReadingsAndCounters : Prop :=
  ∀ (t : Nat) (s : State), up s = true →
    let v := advance t s
    (∀ raw, let r := correctAll raw
      ∃ u, exec (.sensorSample t raw) s = .next u ∧ u.mgmt.readings = r ∧ u.pwr.supercap = r.supercap ∧
        (r.supercap < 2400 → u.pwr.supercapLow = true) ∧ (2600 < r.supercap → u.pwr.supercapLow = false) ∧
        (r.temps.getD 0 0 ≤ 700 → u.mot.derate = derateAt (r.temps.getD 0 0) 0) ∧
        u.mgmt.dieHot = decide (r.temps.getD 1 0 > 1100) ∧ u.mgmt.inletHot = decide (r.temps.getD 0 0 > 700)) ∧
    (∀ t0, s.mgmt.humidSince = some t0 → s.mgmt.humidDone = false → t0 + 60000000000 ≤ v.now →
      exec (.humidityLimitExceeded t) s = .next
        (emit 0xB301 0xD040 (leBytes 2 s.mgmt.readings.humidity) { v with mgmt := { v.mgmt with humidDone := true } })) ∧
    exec (.counterMirror t) s = .next { v with
      pwr := { v.pwr with mirror := (aonTime v, opTime v, v.pwr.cycles) }
      recd := { v.recd with totals := v.recd.buckets.map (fun (e : Nat × Bucket) => (e.1, e.2.total)) } } ∧
    (∃ u, exec (.directValueFlashWrite t) s = .next u ∧ u.sess.flashDue = [] ∧
      ∀ k, (s.sess.flashDue.any (fun e => e.1 == k)) = true → Tbl.find u.sess.flashDirect k = some (flashValue v k))
/-- FRAME_RECEIVED, DUPLICATE_ENTRY_EXPIRY, SUPERVISION_SEND, SUPERVISION_FRAME (05 R99 to R107). -/
def Obligations.TheSwitchForwardsRemovesAndConsumes : Prop :=
  ∀ (t : Nat) (s : State),
    let v := advance t s
    (up s = true → domainOn s 7 = true → s.pwr.relayOpen = true → ∀ (port : Port) (f : Frame),
      let fwd := send (.forwarded (otherPort port) f.src f.hsrSeq false) v
      (f.fcsOk = false → ownFrame s f = false → f.dst ≠ macLd → ∃ u, exec (.frameReceived t port f) s = .next u ∧ u.ring.verdict = .badFcs ∧
        u.outbox = .forwarded (otherPort port) f.src f.hsrSeq true :: s.outbox ∧
        u.ring.fcsT1 = s.ring.fcsT1 + (if port = .t1 then 1 else 0) ∧
        u.ring.fcsT2 = s.ring.fcsT2 + (if port = .t2 then 1 else 0)) ∧
      (nodeAddress s ≠ 0 → f.src = 0x02E960000000 + nodeAddress s →
        exec (.frameReceived t port f) s = .next (setVerdict .removed (if f.fcsOk then v else countFcs port v))) ∧
      (f.fcsOk = true → ownFrame s f = false → f.hornpipe = true → f.version = 1 → 1 ≤ f.kind → f.kind ≤ 5 →
        toModule s f.dst = true → f.dst ≠ macLd →
        (dupOf v f.src f.hsrSeq = none → exec (.frameReceived t port f) s = .next { fwd with ring := { fwd.ring with
          verdict := .consumed
          dups := (⟨f.src, f.hsrSeq, v.now, port⟩ :: s.ring.dups.filter (fun e => v.now < e.at_ + 400000000)).take 4096 } }) ∧
        (∀ e, dupOf v f.src f.hsrSeq = some e → exec (.frameReceived t port f) s = .next { fwd with ring := { fwd.ring with
          verdict := if sameEdge v port e then .consumed else .duplicate, duplicates := s.ring.duplicates + 1 } }))) ∧
    (∀ src seq, exec (.duplicateEntryExpiry t src seq) s = .next { v with ring := { v.ring with
      dups := s.ring.dups.filter (fun e => !(e.src == src && e.seq == seq && decide (e.at_ + 400000000 ≤ v.now))) } }) ∧
    (originatesAll s = true → exec (.supervisionSend t) s = .next (send (.supervision s.ring.hsrSeq) v)) ∧
    (∀ src, up s = true → domainOn s 7 = true → exec (.supervisionFrame t src) s = .next { v with ring := { v.ring with
      nodeTable := (src, v.now) :: s.ring.nodeTable.filter (fun e => e.1 != src) } })

/-- RING_CHECK_SEND, RING_CHECK_TIMEOUT, RM_FRAME, LINK_CHANGE (05 R122), ADDRESS_CONFLICT_END (R105). -/
def Obligations.RingChecksLinksAndConflicts : Prop :=
  ∀ (t : Nat) (s : State),
    let v := advance t s
    let seq := (s.ring.rmSeq + 1) % 2 ^ 24
    (originates s = true → ∃ u, exec (.ringCheckSend t) s = .next u ∧
      u.outbox = .rm (nodeAddress s) seq 1 0 0 serialNumber :: s.outbox ∧ u.ring.rmSeq = seq ∧
      u.ring.checks = ((seq, localNow v) :: s.ring.checks).take 8) ∧
    (originates s = true → s.ring.open_ = false → s.ring.lastReturn + 300000000 ≤ v.now →
      exec (.ringCheckTimeout t) s = .next (emit 0x8301 0 [0, 0] { v with ring := { v.ring with open_ := true } })) ∧
    (up s = true → domainOn s 7 = true → ∀ (port : Port) (node q portNo link : Nat),
      (node = nodeAddress s → node ≠ 0 → ∀ sent, s.ring.checks.find? (fun c => c.1 == q && decide (localNow v ≤ c.2 + 300000000)) = some (q, sent) →
        ∃ u, exec (.rmFrame t port node q 1 portNo link serialNumber) s = .next u ∧ u.ring.open_ = false ∧
          u.ring.lastReturn = v.now ∧ u.ring.checks = s.ring.checks.filter (fun c => c.1 != q) ∧
          u.clk.loops = ((localNow v - sent).toNat :: s.clk.loops).take 8 ∧ u.clk.loop = loopMean u.clk.loops) ∧
      (node = nodeAddress s → node ≠ 0 → ∀ op serial, serial ≠ serialNumber →
        ∃ u, exec (.rmFrame t port node q op portNo link serial) s = .next u ∧ u.ring.conflict = some v.now ∧
          (op = 2 → u.ring.lastBreak = (node, portNo, link, serial, netTime v))) ∧
      (node ≠ nodeAddress s → ∀ serial,
        exec (.rmFrame t port node q 2 portNo link serial) s = .next
          { v with ring := { v.ring with lastBreak := (node, portNo, link, serial, netTime v) } })) ∧
    (∀ a, s.ring.conflict = some a → a + 3000000000 ≤ v.now →
      exec (.addressConflictEnd t) s = .next (emit 0x8181 0 [] { v with ring := { v.ring with conflict := none } })) ∧
    (up s = true → domainOn s 7 = true → ∀ link,
      (∃ u, exec (.linkChange t .t1 link) s = .next u ∧ u.ring.t1Up = link ∧ u.ring.t2Up = s.ring.t2Up) ∧
      (∃ u, exec (.linkChange t .t2 link) s = .next u ∧ u.ring.t2Up = link ∧ u.ring.t1Up = s.ring.t1Up))

/-- PD_INPUT_FRAME (05 R110, R120), PD_OUTPUT_SET_SEND (R108, R109), EXCHANGE_PERIOD_END (R119),
PD_OUTPUT_FRAME_FORWARDED (R117). -/
def Obligations.NodesExchangeProcessData : Prop :=
  ∀ (t : Nat) (s : State), up s = true → domainOn s 7 = true → ringConflict s = false → nodeAddress s ≠ 0 →
    let v := advance t s
    (∀ (f : PdInput) (k : Nat) (r : NodeRec),
      let ps := remotePoints s (nodeRec s k).node f.cls false
      isStandby s = false → (nodeRecs s).find? (fun e => e.2.node == f.node && e.2.has f.cls) = some (k, r) →
      Tbl.get (getNode s k).partialSets {} f.cls = {} → f.frames = 1 → f.index = 0 → ps.Nodup →
      ∃ u, exec (.pdInputFrame t f) s = .next u ∧
        (∀ (i p : Nat) (e : BitVec 32 × Byte), ps[i]? = some p → f.entries[i]? = some e →
          underlying u p = ⟨e.1, e.2.toNat, f.sourceTime⟩) ∧
        (((getNode s k).state = .joining ∨ (getNode s k).state = .lost) →
          ((getNode s k).fresh ||| 2 ^ (f.cls - 1)) &&& (nodeRec s k).classes = (nodeRec s k).classes →
          (getNode u k).state = .rejoining ∧ (getNode u k).rejoin = max (getNode s k).rejoin f.rejoin + 1 ∧
          (getNode u k).owed = (nodeRec s k).classes)) ∧
    (∀ (cls : Fin 4) (k : Nat), isActive s = true → Tbl.find s.ring.sentAt cls ≠ some (gridAt v (periodOf cls)) → ((nodeRecs s).map Prod.fst).Nodup →
      k ∈ (nodeRecs s).map Prod.fst → (nodeRec s k).has cls = true → (getNode s k).state = .exchanging →
      ∃ u, exec (.pdOutputSetSend t cls) s = .next u ∧ (∀ m ∈ pdFrames v k cls, m ∈ u.outbox) ∧
        Tbl.get (getNode u k).seqOut 0 cls = (Tbl.get (getNode s k).seqOut 0 cls + 1) % 2 ^ 24) ∧
    (∀ (k : Fin 2048) (c : Nat), (nodeRec s k).fastest = some c → isActive s = true →
      let g := gridAt v (periodOf c)
      let x := getNode s k
      let w := modNode k (fun n => { n with ended := some g }) v
      let links := s.ring.t1Up || s.ring.t2Up
      x.ended ≠ some g →
      (x.state = .exchanging → links = true →
        (x.acked = true → exec (.exchangePeriodEnd t k) s = .next (modNode k (fun n => { n with acked := false }) w)) ∧
        (x.acked = false → setBefore x c g = false → exec (.exchangePeriodEnd t k) s = .next w) ∧
        (x.acked = false → setBefore x c g = true → x.consecutive + 1 < cfgNat s 0x1800 2 →
          exec (.exchangePeriodEnd t k) s = .next
            (modNode k (fun n => { n with missed := n.missed + 1, consecutive := n.consecutive + 1 }) w)) ∧
        (x.acked = false → setBefore x c g = true → cfgNat s 0x1800 2 ≤ x.consecutive + 1 →
          ∃ u, exec (.exchangePeriodEnd t k) s = .next u ∧ (getNode u k).state = .lost ∧
            (getNode u k).losses = x.losses + 1)) ∧
      (x.state = .exchanging ∨ x.state = .rejoining ∨ x.state = .joining → links = false →
        ∃ u, exec (.exchangePeriodEnd t k) s = .next u ∧ (getNode u k).state = .lost ∧
          (getNode u k).losses = x.losses + 1)) ∧
    (∀ (dst src k : Nat) (r : NodeRec), (nodeRecs s).find? (fun e => 0x02E960000000 + e.2.node == dst) = some (k, r) →
      src ≠ 0x02E960000000 + nodeAddress s → (isPairUnit s = true → src ≠ 0x02E960000000 + Config.partnerAddress) →
      ∃ u, exec (.pdOutputFrameForwarded t dst src) s = .next u ∧ (getNode u k).foreign = true)
/-- DOWNSTREAM_FRAME (12 R284, R290), UPSTREAM_FRAME (R285, R294), LINK_RESYNC (R285), LINK_SILENCE (R287, R288). -/
def Obligations.BankFramesCarryCommandsAndStates : Prop :=
  ∀ (t : Nat) (b : Fin 8) (s : State),
    let v := advance t s
    let x := getBank s b
    let w := loopsRelease v
    let cmds := flagWord ((List.range 12).map (fun c => (c, ownerCommand w (12 * b + c))))
    let ens := flagWord ((List.range 12).map (fun c => (c, enableBit w (12 * b + c))))
    (dioUp s = true → isRetired s kindLink b = false → x.resyncing = false →
      (∃ u, exec (.downstreamFrame t b true) s = .next u ∧
        (∃ time edges, u.outbox = .downstream b ((x.frameNo + 1) % 2 ^ 16) time (frameClaims w).1 (frameClaims w).2 cmds ens
          edges (frameWord x).1 (frameWord x).2 :: w.outbox) ∧
        (getBank u b).frameNo = (x.frameNo + 1) % 2 ^ 16 ∧ (getBank u b).lastGood = v.now ∧
        (getBank u b).silent = false ∧ (getBank u b).badDown = 0 ∧
        ∀ c, c < 12 → (getDio u (12 * b + c)).sent = ownerCommand w (12 * b + c) ∧
          (getDio u (12 * b + c)).commanded = ownerCommand w (12 * b + c) ∧
          (getDio u (12 * b + c)).enabled = enableBit w (12 * b + c)) ∧
      (x.badDown + 1 < 16 → ∃ u, exec (.downstreamFrame t b false) s = .next u ∧
        (getBank u b).badDown = x.badDown + 1 ∧ (getBank u b).lastGood = x.lastGood ∧
        ∀ ch : Nat, getDio u ch = { getDio w ch with
          commanded := if ch / 12 = b then ownerCommand w ch else (getDio w ch).commanded }) ∧
      (∀ mv ma temp curMa,
        (∃ u, exec (.upstreamFrame t b true true mv ma temp curMa) s = .next u ∧
          let y := getBank u b
          y.linked = true ∧ y.badUp = 0 ∧ y.edges = x.edges.drop 8 ∧ y.curCh = (x.curCh + 1) % 12 ∧
          (bankMatched x = true → y.mismatch = false ∧ y.supplyMv = mv ∧ y.currentMa = ma ∧ y.temp = temp ∧
            y.flags = bicFlags x mv ∧ (getDio u (12 * b + x.curCh)).current = curMa ∧
            (landsOwn s = true → x.edges = [] → ∀ c, c < 12 → expMode s (12 * b + c) ≠ 0 →
              (getDio u (12 * b + c)).landed = reportState s (12 * b + c))) ∧
          (bankMatched x = false → y.mismatch = true ∧ y.supplyMv = x.supplyMv ∧ y.currentMa = x.currentMa ∧
            y.temp = x.temp ∧ y.flags = x.flags)) ∧
        (∀ sync crc, (sync && crc) = false → x.badUp + 1 < 16 →
          exec (.upstreamFrame t b sync crc mv ma temp curMa) s = .next
          (modBank b (fun x => { x with badUp := x.badUp + 1, badFrames := (x.badFrames + 1) % 2 ^ 32 })
            (loseStamps (x.edges.take 8) (frameSent b v)))))) ∧
    (dioUp s = true → exec (.linkResync t b) s = .next
      (modBank b (fun x => { x with resyncing := false, badDown := 0, badUp := 0 }) v)) ∧
    (x.silent = false → x.lastGood + wordWd x.active * 1000000 < v.now →
      ∃ u, exec (.linkSilence t b) s = .next u ∧ (getBank u b).silent = true ∧ (getBank u b).silentSeen = true ∧
        ∀ ch ∈ bankChans b, bicMode s ch = 3 → wordSafe x.active (ch % 12) = 0 →
          (getDio u ch).on = false ∧ (x.claim = true → isRetired s kindDio ch = false →
            (getDio u ch).command = false ∧ (getDio u ch).pulseEnd = none))

/-- OUTPUT_TRIP, OUTPUT_RETRY (12 R297), BANK_OVERLOAD, BANK_OVERLOAD_RESTORE (R298), OPEN_LOAD (R299), TIMED_EDGE,
PULSE_END (R301), RESTORE_GROUP (R303), EXTERNAL_DRIVE (R304). -/
def Obligations.OutputsTripRestoreAndPulse : Prop :=
  ∀ (t : Nat) (s : State),
    let v := advance t s
    (∀ ch : Fin 96, let x := getDio s ch; let k := getBank s (ch / 12)
      (∀ th, x.on = true → ∃ u, exec (.outputTrip t ch th) s = .next u ∧ (getDio u ch).on = false ∧
        (getDio u ch).trip = true ∧ (getDio u ch).thermal = th ∧ (getDio u ch).tripAt = v.now ∧
        (getDio u ch).lifetime = sat 32 (x.lifetime + 1)) ∧
      (∀ temp, x.retry = true → x.tripAt + 100000000 ≤ v.now → temp < 135 → isRetired s kindDio ch = false →
        driveAllowed s ch = true → x.command = true → k.supplyOff = false → k.overload = false → k.restoring = false →
        ∃ u, exec (.outputRetry t ch temp) s = .next u ∧ (getDio u ch).on = true ∧ (getDio u ch).retry = false ∧
          (getDio u ch).trip = false ∧ (getDio u ch).thermal = false) ∧
      (∀ ma, x.on = true → ma < 2 → x.openLoad = false → wordOpen k.active (ch % 12) = true →
        exec (.openLoad t ch ma) s = .next (let w := modDio ch (fun y => { y with openLoad := true }) v
          if up w then emit 0x4202 (0x1000 + ch) [] w else w)) ∧
      (∀ ma, x.openLoad = true → 5 ≤ ma →
        exec (.openLoad t ch ma) s = .next (let w := modDio ch (fun y => { y with openLoad := false }) v
          if up w then emit 0x4282 (0x1000 + ch) [] w else w)) ∧
      (∀ mv, bicMode s ch = 3 → x.on = false → x.external = false → k.claim = true → 11000 ≤ mv →
        ∃ u, exec (.externalDrive t ch mv) s = .next u ∧ (getDio u ch).external = true ∧ (getDio u ch).pinHigh = true) ∧
      (∀ mv, bicMode s ch = 3 → x.on = false → mv ≤ 5000 →
        ∃ u, exec (.externalDrive t ch mv) s = .next u ∧ (getDio u ch).external = false ∧ (getDio u ch).pinHigh = false) ∧
      (∀ e : DioEdge, k.placed = [e] → e.ch = ch → e.fireAt ≤ localNow v →
        let goes := driveAllowed s ch && !dioRetired s ch && !(decide (e.slot < 256) && doForced s ch)
        (goes = false → exec (.timedEdge t ch) s = .next (modBank (ch / 12) (fun y => { y with placed := [] }) v)) ∧
        (goes = true → ∃ u, exec (.timedEdge t ch) s = .next u ∧ (getBank u (ch / 12)).placed = [] ∧
          (getDio u ch).command = decide (e.action ≠ 2) ∧
          (getDio u ch).pulseEnd = (if e.action = 1 ∨ e.action = 2 then none else some (v.now + e.width * 1000)))) ∧
      (∀ e, x.pulseEnd = some e → e ≤ v.now →
        ∃ u, exec (.pulseEnd t ch) s = .next u ∧ (getDio u ch).on = false ∧ (getDio u ch).command = false ∧
          (getDio u ch).pulseEnd = none)) ∧
    (∀ b : Fin 8, let x := getBank s b
      (∀ ma, 6600 < ma → x.overload = false →
        ∃ u, exec (.bankOverload t b ma) s = .next u ∧ (getBank u b).overload = true ∧
          (getBank u b).overloadAt = v.now ∧ ∀ ch ∈ bankChans b, (getDio u ch).on = false) ∧
      (x.overload = true → x.overloadAt + 1000000000 ≤ v.now →
        ∃ u, exec (.bankOverloadRestore t b) s = .next u ∧ (getBank u b).overload = false ∧
          (getBank u b).restoring = true) ∧
      (x.restoring = true → x.supplyOff = false →
        ∃ u, exec (.restoreGroup t b) s = .next u ∧ (∀ ch ∈ x.group.take 4, (getDio u ch).on = true) ∧
          (getBank u b).group = x.group.drop 4 ∧ (getBank u b).restoring = decide (4 < x.group.length)))

/-- DI_EDGE_ACCEPTED (12 R293, R295), BANK_SUPPLY_OFF, BANK_RESTORE (R303), BIC_RESET (R289). -/
def Obligations.InputsAndBankSupplies : Prop :=
  ∀ (t : Nat) (s : State),
    let v := advance t s
    (∀ (ch : Fin 96) (mv ua : Nat) (val : Bool), let x := getDio s ch; let k := getBank s (ch / 12)
      readInput (bicMode s ch) mv ua = some (some val, 0) → k.supplyOff = false → x.seen = true → x.state ≠ val →
      let stamp := bicTime v (ch / 12)
      ∃ u, exec (.diEdgeAccepted t ch mv ua) s = .next u ∧
        (let y := getDio u ch;
          y.state = val ∧ y.sup = 0 ∧ y.seen = true ∧ y.stamp = stamp ∧ y.stampLost = decide (32 ≤ k.edges.length)) ∧
        (let y := getBank u (ch / 12);
          y.edges = (if k.edges.length < 32 then insertEdge ⟨ch, val, stamp, slewing v⟩ k.edges else k.edges) ∧
          y.overflow = (k.overflow || decide (32 ≤ k.edges.length)))) ∧
    (∀ (b : Fin 8) (mv : Nat), let x := getBank s b
      (mv < 16000 → x.supplyOff = false →
        ∃ u, exec (.bankSupplyOff t b mv) s = .next u ∧ (getBank u b).supplyOff = true ∧
          ∀ ch ∈ bankChans b, (getDio u ch).on = false ∧ (getDio u ch).seen = false) ∧
      (18000 < mv → x.supplyOff = true →
        ∃ u, exec (.bankRestore t b mv) s = .next u ∧ (getBank u b).supplyOff = false) ∧
      (mv < 12000 →
        ∃ u, exec (.bicReset t b mv) s = .next u ∧ (getBank u b).active = [] ∧ (getBank u b).edges = [] ∧
          (getBank u b).placed = [] ∧ (getBank u b).claim = !isPairUnit s ∧
          ∀ ch ∈ bankChans b, (getDio u ch).on = false ∧ (getDio u ch).enabled = false))
/-- AIO_CONVERSION (13 R309 to R311), AO_UPDATE (R312, R314, R316), AIO_LINK_FRAME and AIO_LINK_SILENCE (R313). -/
def Obligations.AnalogueChannelsConvertAndDrive : Prop :=
  ∀ (t : Nat) (ch : Fin 32) (s : State), aioUp s = true →
    let v := advance t s
    let a := getAio s ch
    (∀ code env, aioMode s ch ≠ 0 → isAo s ch = false → cfgNat s (0x3200 + ch) 3 = 0 → landsOwn s = true →
      a.convAt ≠ some (gridAt v 1000000) →
      let x := aioReported s ch (aioFactory ch code env.temp)
      ∃ u, exec (.aioConversion t ch code env) s = .next u ∧ (getAio u ch).current = x ∧ (getAio u ch).yValid = true ∧
        ∀ p ∈ aioPoints s ch, underlying u p =
          ⟨x, if aioQual u ch = 0 && aioChipQual u ch == 0 && slewing v then 0x10 else aioQual u ch, gridAt v 1000000⟩) ∧
    (∀ p m x, let w := loopsRelease v
      let b := getAio w ch
      let c := f32Clamp x (aoRange s ch).1 (aoRange s ch).2
      isAo s ch = true → b.updAt ≠ some (gridAt v 1000000) → outPointFor s 2 ch 0 = some (p, m) →
      isRetired w kindAio ch = false → b.reinit = false → b.supplyOff = false → b.silent = false → b.parked = false →
      outHeldSafe w m p = false → aioOwner s ch ≠ .none → isBad (readPoint w p).qual = false →
      releasedOf w p = some x → f32Finite x = true →
      exec (.aoUpdate t ch) s = .next (modAio ch (fun y => { y with
        lastCmd := some c, applied := c, atMin := false, cmdBad := false
        clamped := f32Lt x (aoRange s ch).1 || f32Lt (aoRange s ch).2 x
        code := some (aoCode ch (aoTargetOf s ch c) y.temp) })
        (modAio ch (fun y => { y with updAt := some (gridAt v 1000000), updNow := v.now }) w))) ∧
    (∀ mv temp, ∃ u, exec (.aioLinkFrame t ch true true mv temp) s = .next u ∧
      u.outbox = .aioDown ch ((aoApplied v ch).1.getD 0) (frameClaims v).1 (frameClaims v).2 :: s.outbox ∧
      (getAio u ch).lastGood = v.now ∧ (getAio u ch).silent = false ∧ (getAio u ch).badDown = 0 ∧
      (getAio u ch).linked = true ∧ (getAio u ch).termMv = mv ∧ (getAio u ch).temp = temp) ∧
    (a.silent = false → a.lastGood + cfgNat s (0x3200 + ch) 6 * 1000000 ≤ v.now →
      ∃ u, exec (.aioLinkSilence t ch) s = .next u ∧ (getAio u ch).silent = true ∧
        (isAo s ch = true → (outPointFor s 2 ch 0).isSome = true → isRetired s kindAio ch = false → a.reinit = false →
          a.supplyOff = false → (getAio u ch).applied = (aoSafe s ch).getD 0))

/-- READBACK_MISMATCH, CHANNEL_CHIP_REINITIALISED (13 R321), AO_CONDITION (R319), PARTNER_MISMATCH (R326). -/
def Obligations.AnalogueFaultsAndConditions : Prop :=
  ∀ (t : Nat) (ch : Fin 32) (s : State),
    let v := advance t s
    let a := getAio s ch
    (∀ t0, a.mismatchAt = some t0 → regulating s ch = true → t0 + 50000000 ≤ v.now →
      ∃ u, exec (.readbackMismatch t ch) s = .next u ∧ (getAio u ch).applied = 0 ∧ (getAio u ch).mismatchAt = none ∧
        (getAio u ch).lifetime = sat 32 (a.lifetime + 1)) ∧
    (a.reinit = true → ∃ u, exec (.channelChipReinitialised t ch) s = .next u ∧ (getAio u ch).reinit = false) ∧
    (∀ cond present, condApplies s ch cond = true → (present && aioPass s ch) = false →
      (condFlag a cond ≠ present → condDue v a cond = true → exec (.aoCondition t ch cond present) s = .next
        (modAio ch (fun y => setCond cond present { y with condAt := y.condAt.filter (fun e => e.1 != cond) }) v)) ∧
      (condFlag a cond = present ∨ condDue v a cond = false → exec (.aoCondition t ch cond present) s = .next v)) ∧
    (∀ t0, isAo s ch = true → aioPass s ch = true → a.partnerMismatch = false → a.partnerAt = some t0 →
      t0 + 50000000 ≤ v.now →
      ∃ u, exec (.partnerMismatch t ch true) s = .next u ∧ (getAio u ch).partnerMismatch = true ∧
        Tbl.get u.pair.selftest 0 5 = (Tbl.get s.pair.selftest 0 5 + 1) % 2 ^ 32) ∧
    (a.partnerAt = none ∨ aioPass s ch = false →
      exec (.partnerMismatch t ch false) s = .next (modAio ch (fun y => { y with partnerMismatch := false }) v))
/-- AX_COMMAND_HOME, AX_COMMAND_STOP_RAMP, AX_COMMAND_STOP_HARD (14 R335), MOTION_TICK (R336, R337),
LIMIT_INPUT_QUALIFIED (R344). -/
def Obligations.AxesTakeCommandsAndPlanTheirMoves : Prop :=
  (∀ (t : Nat) (n : Fin 24) (c : Cmd) (s : State),
    let v := served (found t s) c.hdr.session
    let takes (i : Instr) (k : Nat) : Prop :=
      let w : DirectWrite := { key := objKey (0x3400 + n) 0x22, data := [BitVec.ofNat 8 k], session := c.hdr.session }
      exec i s = .next (respond (found t s) c.hdr svcWrite (.ok [])
        (if v.pair.state = .active then { v with sess := { v.sess with direct := v.sess.direct ++ [w] } }
         else modAxis n (fun x => { x with cmd := k }) v))
    c.rest = [] → v.prog.mode ≠ .stop → axRetired v n = false →
    (writeHeard (found t s) c (0x3400 + n) 0x22 [1] = true → groupOfAxis v n = none → takes (.axCommandHome t n c) 1) ∧
    (writeHeard (found t s) c (0x3400 + n) 0x22 [2] = true → takes (.axCommandStopRamp t n c) 2) ∧
    (writeHeard (found t s) c (0x3400 + n) 0x22 [3] = true → takes (.axCommandStopHard t n c) 3)) ∧
  (∀ (n : Fin 24) (data : List Byte) (m : Nat) (s : State),
    directEffect (objKey (0x3400 + n) 0x22) data m s = modAxis n (fun x => { x with cmd := leVal data }) s) ∧
  (∀ (t n p : Nat) (m : MapRec) (val : BitVec 32) (s : State), motionUp s = true →
    let v := advance t s
    let x := getAxis s n
    let dist := x.target * fxUnit - x.pos
    let r := towardStep (axProf s n) dist (axProf s n).vStart (decide (dist < brakeFx (axProf s n) (axProf s n).vStart))
    s.mot.lastTick ≠ gridAt v 125000 → (List.range 24).filter (axUsed s) = [n] → axGroups s = [] → s.prog.mode = .run →
    isPairUnit s = false → relsHeld s = false → beforeFirst v = false → turnReady s n true = true → axFlag s n 0 = false → axFlag s n 5 = false → axSet s n = none → axRetired s n = false →
    targetPoint s n = some (p, m) → pointType s p ≠ 0x0A → isBad (readPoint s p).qual = false →
    p ∉ inPoints s 3 n 1 ++ inPoints s 3 n 2 → releasedOf s p = some val → x.lastTarget = some val → x.target = val.toInt → x.homing = 0 → x.enabled = true →
    x.cmd = 0 → x.heldStop = false → x.v = 0 → x.plan = [] → 0 < dist → r.2 ≠ 0 →
    ∃ u, exec (.motionTick t) s = .next u ∧ (getAxis u n).pos = x.pos + r.1 ∧ (getAxis u n).v = r.2 ∧
      (getAxis u n).plan = [⟨toCount (x.pos + r.1) - toCount x.pos, x.pos + r.1, r.2, v.now⟩] ∧ u.mot.lastTick = gridAt v 125000) ∧
  (∀ (t : Nat) (k : Fin 8) (s : State), motionUp s = true → s.pwr.fsaOff = false →
    (∀ i high steps, ∃ u, exec (.limitInputQualified t k i high steps) s = .next u ∧
      getSet u k = setLevel i high (getSet s k)) ∧
    (∀ n steps, (List.range 24).filter (fun n => axUsed s n && axSet s n == some (k : Nat)) = [n] →
      groupOfAxis s n = none → (getAxis s n).homing = 0 → movesToward (getAxis s n) true = true → limActive s n .limp = false →
      bitOf (axNat s n 0x0E) 0 = true →
      ∃ u, exec (.limitInputQualified t k .limp (bitOf (axNat s n 0x0E) 2) steps) s = .next u ∧ (getAxis u n).v = 0 ∧
        (getAxis u n).limitStop = true ∧ (getAxis u n).heldStop = true ∧ (getAxis u n).target = (getAxis s n).target))

/-- HOME_TIMEOUT (14 R349), HOLD_DELAY (R353), DRIVE_FAULT, DRIVE_RETRY (R356), DRIVE_LINK_SILENCE (R340). -/
def Obligations.DrivesHoldFaultAndRetry : Prop :=
  ∀ (t : Nat) (n : Fin 24) (s : State),
    let v := advance t s
    let x := getAxis s n
    (motionUp s = true → x.homing ≠ 0 → x.homeStart + axNat s n 0x13 * 1000000000 ≤ v.now →
      ∃ u, exec (.homeTimeout t n) s = .next u ∧ (getAxis u n).homing = 0 ∧ (getAxis u n).homeResult = 3 ∧
        (getAxis u n).homeFailed = true ∧ (getAxis u n).valid = false) ∧
    (axIntegrated n = true → axUsed s n = true → x.enabled = true → axStill x = true → x.holding = false →
      x.stillSince + axNat s n 0x19 * 1000000 ≤ v.now →
      ∃ u, exec (.holdDelay t n) s = .next u ∧ (getAxis u n).holding = true ∧
        (axNat s n 0x18 = 0 → axFlag s n 3 = false → (getAxis u n).valid = false ∧ (getAxis u n).lost = 5) ∧
        (axNat s n 0x18 ≠ 0 ∨ axFlag s n 3 = true → (getAxis u n).valid = x.valid)) ∧
    (∀ k, motionUp s = true → axUsed s n = true → axLive s n = true → (axIntegrated n = true ↔ k ≠ .pulseFault) →
      ∃ u, exec (.driveFault t n k) s = .next u ∧ (getAxis u n).enabled = false ∧ (getAxis u n).driveFault = true ∧
        (getAxis u n).faultAt = v.now ∧ (getAxis u n).v = 0 ∧ (getAxis u n).valid = false ∧ (getAxis u n).lost = 3 ∧
        (getAxis u n).lifetime = sat 32 (x.lifetime + 1)) ∧
    (∀ temp, motionUp s = true → x.driveFault = true → x.faultAt + 100000000 ≤ v.now → temp < 135 →
      bitOf (ctrlWord s n).1 0 = true → axRetired s n = false → x.supplyOff = false →
      ∃ u, exec (.driveRetry t n temp) s = .next u ∧ (getAxis u n).enabled = true ∧ (getAxis u n).driveFault = false ∧
        (getAxis u n).openCoil = false) ∧
    (axUsed s n = true → (axProf s n).vStop < axSpeed s n →
      ∃ u, exec (.driveLinkSilence t n) s = .next u ∧ (getAxis u n).valid = false ∧ (getAxis u n).lost = 7)
/-- ENCODER_EDGE, ENCODER_STILL, MAINS_ZERO_CROSSING (06 R141, R142), TRACKER_SOURCE_LOSS, COAST_EXPIRY (R144). -/
def Obligations.TrackersFollowTheirSources : Prop :=
  (∀ (t : Nat) (e : Fin 4) (n : Nat) (s : State),
    let v := advance t s
    let x := getTracker v n
    let q : Int := trkQuanta v n
    cadenceUp v = true → n ∈ trackersOn v 1 e →
    (∀ fwd : Bool, x.state = .valid ∨ x.state = .still →
      ∃ u, exec (.encoderEdge t e (if fwd then .up else .down)) s = .next u ∧
        (getTracker u n).count = x.count + (if fwd then 1 else -1) ∧
        (getTracker u n).angle = BitVec.ofInt 32 ((x.count + (if fwd then 1 else -1)) * (2 ^ 32 : Nat) / q) ∧
        (getTracker u n).at_ = localNow v ∧ (getTracker u n).state = .valid) ∧
    (cfgBool v (0x3800 + n) 4 = true →
      ∃ u, exec (.encoderEdge t e .z) s = .next u ∧ (getTracker u n).count = 0 ∧ (getTracker u n).angle = 0 ∧
        (x.state ≠ .lost → 2 < x.count % q → x.count % q < q - 2 → (getTracker u n).zMismatch = true) ∧
        (x.state = .coasting ∨ x.state = .lost → (getTracker u n).state = .valid)) ∧
    (∃ u, exec (.encoderEdge t e .illegal) s = .next u ∧ (getTracker u n).illegal = true ∧
        (x.state = .valid → (getTracker u n).state = .coasting))) ∧
  (∀ (t : Nat) (n : Fin 8) (s : State),
    let v := advance t s
    let x := getTracker v n
    cadenceUp v = true →
    (trkMode v n = 1 → x.state = .valid → x.at_ + 100000000 ≤ localNow v →
      ∃ u, exec (.encoderStill t n) s = .next u ∧ (getTracker u n).state = .still ∧ (getTracker u n).speed = 0 ∧
        (getTracker u n).angle = x.angle) ∧
    (trkMode v n = 1 ∨ trkMode v n = 2 → x.state = .valid ∨ x.state = .still →
      ∃ u, exec (.trackerSourceLoss t n) s = .next u ∧ (getTracker u n).state = .coasting ∧
        (getTracker u n).lostAt = v.now ∧ (getTracker u n).at_ = localNow v ∧ (getTracker u n).speed = speedAt v n (localNow v)) ∧
    (x.state = .coasting → x.lostAt + trkCoast v n ≤ v.now →
      ∃ u, exec (.coastExpiry t n) s = .next u ∧
        (trkMode v n = 1 ∧ cfgBool v (0x3800 + n) 4 = false →
          (getTracker u n).state = .valid ∧ (getTracker u n).unref = true) ∧
        (¬ (trkMode v n = 1 ∧ cfgBool v (0x3800 + n) 4 = false) → (getTracker u n).state = .lost))) ∧
  (∀ (t : Nat) (m : Fin 2) (tz : Int) (codes : List Int) (temp : Int) (s : State),
    let v := advance t s
    let z := tz - f32ScaleInt (realAt (factoryMains m) 12) 1000
    let volts := mainsRms m codes temp
    cadenceUp v = true →
    ∃ u, exec (.mainsZeroCrossing t m tz codes temp) s = .next u ∧
      (factoryOk (factoryMains m) = false → u.cad.trackers = v.cad.trackers) ∧
      (factoryOk (factoryMains m) = true → ∀ n ∈ trackersOn v 2 m,
        let x := getTracker v n
        let cr := (z :: x.crossings).take 5
        let k := cr.length - 1
        let f := if cr.getD k z < z then f32OfRat (k * 1000000000) (z - cr.getD k z).toNat else 0
        let good := !f32Lt volts (f32OfInt 8) && !f32Lt f (f32OfInt 40) && !f32Lt (f32OfInt 70) f
        (getTracker u n).level = volts ∧
        (k = 0 → (getTracker u n).crossings = cr ∧ (getTracker u n).state = x.state) ∧
        (k ≠ 0 → good = true → (getTracker u n).crossings = cr ∧ (getTracker u n).angle = 0 ∧ (getTracker u n).at_ = z ∧
          (getTracker u n).speed = f ∧ (getTracker u n).state = .valid) ∧
        (k ≠ 0 → good = false → x.state = .valid ∨ x.state = .still → (getTracker u n).state = .coasting)))

/-- SLOT_FIRE (06 R146 to R149), SC_ARM_TRUE, SC_ARM_FALSE (R150, R152), SC_COMMAND (R151), SC_PULSE_END, SC_ARM_TIMEOUT
(R152). -/
def Obligations.SlotsFireAndSynchroCheckCloses : Prop :=
  (∀ (t : Nat) (n : Fin 256) (s : State),
    let v := advance t s
    let r := slotRec v n
    let x := getSched v n
    cadenceUp v = true → v.prog.mode ≠ .stop ∨ r.kind = 4 →
    (∀ d, x.state = 1 → x.due = some d → d ≤ localNow v → slotLive v r = true →
      (if slotForward v n then bitOf r.flags 1 else bitOf r.flags 2) = true →
      ∃ u, exec (.slotFire t n) s = .next u ∧ (getSched u n).state = 3 ∧ (getSched u n).fireAt = d ∧
        (getSched u n).late = false ∧
        (getSched u n).count = if slotWithheld v r then x.count else (x.count + 1) % 2 ^ 16) ∧
    (x.state = 2 → x.fireAt ≤ localNow v →
    ∃ u, exec (.slotFire t n) s = .next u ∧ (getSched u n).state = 3 ∧ (getSched u n).resting = bitOf r.flags 0 ∧
      (slotWithheld v r = true → (getSched u n).withheld = true ∧ (getSched u n).count = x.count ∧ u.dio = v.dio) ∧
      (slotWithheld v r = false → (getSched u n).withheld = false ∧ (getSched u n).count = (x.count + 1) % 2 ^ 16) ∧
      (slotWithheld v r = false → slotDoOpen v r.target = true → r.kind = 1 → (getDio u r.target).edgeLevel = some true) ∧
      (slotWithheld v r = false → slotDoOpen v r.target = true → r.kind = 2 → (getDio u r.target).edgeLevel = some false))) ∧
  (∀ (t : Nat) (i : Fin 2) (c : Cmd) (s : State),
    let v := served (found t s) c.hdr.session
    let ch := cfgNat v (0x38C0 + i) 3
    let waits (k : Byte) : State :=
      let w : DirectWrite := { key := objKey (0x38C0 + i) 0x0B, data := [k], session := c.hdr.session }
      respond (found t s) c.hdr svcWrite (.ok []) { v with sess := { v.sess with direct := v.sess.direct ++ [w] } }
    c.rest = [] →
    (writeHeard (found t s) c (0x38C0 + i) 0x0B [1] = true →
      ((getSc v (1 - i)).state = .armed → exec (.scArmTrue t i c) s = .next (respond (found t s) c.hdr svcWrite
        (.error ⟨3, 0x38, 1, 0x38C0 + i, 0x0B, v.prog.mode.num⟩) v)) ∧
      ((getSc v (1 - i)).state ≠ .armed → dioRetired v ch = true → exec (.scArmTrue t i c) s =
        .next (respond (found t s) c.hdr svcWrite (.error ⟨4, 0x38, 5, 0x38C0 + i, 0x0B, 0⟩) v)) ∧
      ((getSc v (1 - i)).state ≠ .armed → dioRetired v ch = false → exec (.scArmTrue t i c) s = .next (waits 1))) ∧
    (writeHeard (found t s) c (0x38C0 + i) 0x0B [0] = true → exec (.scArmFalse t i c) s = .next (waits 0))) ∧
  (∀ (i : Fin 2) (data : List Byte) (n : Nat) (s : State),
    let u := directEffect (objKey (0x38C0 + i) 0x0B) data n s
    let barred := (getSc s (1 - i)).state = .armed ∨ dioRetired s (cfgNat s (0x38C0 + i) 3) = true
    (leVal data = 0 → (getSc u i).arm = false ∧
      (getSc u i).state = if (getSc s i).state = .armed then .aborted else (getSc s i).state) ∧
    (leVal data ≠ 0 → barred → u = s) ∧
    (leVal data ≠ 0 → ¬ barred → (getSc s i).state ≠ .armed → (getSc s i).state ≠ .closing →
      u = modSc i (fun _ => { state := .armed, arm := true, armedAt := s.now }) s)) ∧
  (∀ (t : Nat) (i : Fin 2) (s : State),
    let v := advance t s
    let x := getSc v i
    let ch := cfgNat v (0x38C0 + i) 3
    (∀ at_, cadenceUp v = true → x.state = .armed → 3 ≤ x.held → scConditions v i = true → scCommandAt v i = some at_ →
      ∃ u, exec (.scCommand t i) s = .next u ∧ (getSc u i).state = .closing ∧ (getSc u i).resTime = at_ ∧
        (getSc u i).pulseEnd = at_ + (cfgNat v (0x38C0 + i) 9 * msNs : Nat) ∧
        (getSc u i).resPhi = degrees (scPhase v i at_) ∧ (getSc u i).resDf = scDf v i ∧
        (ch ≠ 0xFF → isActive v = true → (getBank u (ch / 12)).waiting =
          (getBank v (ch / 12)).waiting ++ [⟨ch, actPulse, at_, cfgNat v (0x38C0 + i) 9 * 1000, 0x200⟩]) ∧
        (ch = 0xFF ∨ isActive v = false → u.dio = v.dio)) ∧
    (x.state = .closing → x.pulseEnd ≤ localNow v →
      ∃ u, exec (.scPulseEnd t i) s = .next u ∧ (getSc u i).state = .closed ∧ (getSc u i).arm = false) ∧
    (x.state = .armed → x.armedAt + cfgNat v (0x38C0 + i) 10 * secNs ≤ v.now →
      ∃ u, exec (.scArmTimeout t i) s = .next u ∧ (getSc u i).state = .timedOut ∧ (getSc u i).arm = false))

/-- ENGINE_TICK, LOOP_RELEASE (09 R201, R202), CAD_TIMEOUT (R218), LOOP_MODE (R208, R216). -/
def Obligations.LoopsSampleAndReleaseInTime : Prop :=
  (∀ (t : Nat) (s : State),
    let v := advance t s
    let g := gridAt v tickNs
    engineUp v = true → (v.prog.mode = .stop ∨ ∀ p, v.sess.pending = some p → boundarySince v p.since = false) →
    (v.eng.lastTick = g → exec (.engineTick t) s = .next (serveWaiting v)) ∧
    (v.eng.lastTick ≠ g → isStandby v = false → (needsAck v && handingHeld v) = false →
      ∃ u, exec (.engineTick t) s = .next (serveWaiting u) ∧ u.eng.lastTick = g ∧
        ∀ n ∈ loopsUsed v, groupOfLoop v n = none → clockDue v g n = true →
          (getLoop u n).sampled = true ∧ (getLoop u n).updates = ((getLoop v n).updates + 1) % 2 ^ 32 ∧
          (getLoop u n).pending.getLast?.map LoopRel.at_ = some (some (g + (loopNat v n 1 * tickNs : Nat))))) ∧
  (∀ (t : Nat) (n : Fin 1024) (s : State),
    let v := advance t s
    let goes (r : LoopRel) : Bool := relDue (localNow v) r && (unacked v r || !relsHeld v)
    engineUp v = true → isStandby v = false →
    (∃ u, exec (.loopRelease t n) s = .next u ∧
      (getLoop u n).pending = (getLoop v n).pending.filter (fun r => !goes r)) ∧
    (∀ r, (getLoop v n).pending.filter goes = [r] → unacked v r = false → engineReleases v = true → beforeFirst v = false →
      ∃ u, exec (.loopRelease t n) s = .next u ∧ (getLoop u n).shownOut = (asReleased v n r).out ∧
        (getLoop u n).shownStatus = (asReleased v n r).status ∧
        u.prog.lastRelease = r.at_.getD (localNow v))) ∧
  (∀ (t : Nat) (n : Fin 1024) (t0 : Int) (s : State),
    let v := advance t s
    engineUp v = true → loopNat v n 1 ≠ 0 → loopNat v n 3 = 1 → (getLoop v n).fallback = false →
    (getLoop v n).lastSample = some t0 → t0 + (loopNat v n 0x19 * msNs : Nat) ≤ localNow v →
    ∃ u, exec (.cadTimeout t n) s = .next u ∧ (getLoop u n).fallback = true) ∧
  (∀ (t : Nat) (n : Fin 1024) (c : Cmd) (s : State),
    let v := served (found t s) c.hdr.session
    let w : DirectWrite := { key := objKey (0x4000 + n) 0x1A, data := c.rest, session := c.hdr.session }
    writeHeard (found t s) c (0x4000 + n) 0x1A [] = true →
    (leVal c.rest = 2 → (∃ g, groupOfLoop v n = some g ∧ g.2.headD n ≠ n) →
      exec (.loopMode t n c) s = .next (respond (found t s) c.hdr svcWrite
        (.error ⟨3, 0x40, 1, 0x4000 + n, 0x1A, v.prog.mode.num⟩) v)) ∧
    (leVal c.rest ≠ 2 ∨ groupOfLoop v n = none ∨ (∃ g, groupOfLoop v n = some g ∧ g.2.headD n = n) →
      exec (.loopMode t n c) s = .next (respond (found t s) c.hdr svcWrite (.ok [])
        { v with sess := { v.sess with direct := v.sess.direct ++ [w] } }))) ∧
  (∀ (n : Fin 1024) (data : List Byte) (m : Nat) (s : State), leVal data ≠ 2 ∨ groupOfLoop s n = none ∨ (∃ g, groupOfLoop s n = some g ∧ g.2.headD n = n) →
    let u := directEffect (objKey (0x4000 + n) 0x1A) data m s
    cfgBytes u (0x4000 + n) 0x1A = data ∧ u.eng = s.eng)

/-- REG, IMM (08 R175), FRAME_LOAD, FRAME_STORE, FRAME_LOAD_ADDRESS (R175, R178; 10 R229, R239). -/
def Obligations.WordsComputeLoadAndStore : Prop :=
  ∀ (t : Nat) (x : Ctx) (c : Cycle) (s : State),
    let v := noteStart x (advance t s)
    let here (w : BitVec 32) : Prop := atWord (advance t s) x w = true
    let divZero (op ty : Nat) (vb : Word64) : Prop :=
      Config.regDivides op = true ∧ intBytes ty ≠ 0 ∧ vb.toNat % 2 ^ (8 * intBytes ty) = 0
    ctxCycle v x = some c →
    (∀ op dst a b ty va vb, here (regWord op dst a b ty) → readReg v x c a = some va → readReg v x c b = some vb →
      typeValid x ty va = true → typeValid x ty vb = true →
      let p := ofType x ty va
      let q := ofType x ty vb
      Config.regBounds op ty p q = false →
      ∃ u, exec (.reg t x op dst a b ty) s = .next u ∧ u.img = v.img ∧
        ctxCycle u x = some (stepped (putReg v x dst (ofType x ty (regResult op ty p q).1) c)) ∧
        (divZero op ty q → (regResult op ty p q).1 = 0 ∧ ∀ k, x = .task k → (getTask u k).arith = true)) ∧
    (∀ op dst imm vd, here (immWord op dst imm) → readReg v x c dst = some vd →
      ∃ u, exec (.imm t x op dst imm) s = .next u ∧
        ctxCycle u x = some (stepped (putReg v x dst (untyped x (immResult op (untyped x vd) (signedExt c 15 imm)).1) c)) ∧ u.img = v.img) ∧
    (∀ w base off, here (frameWord32 2 w base off) → ∃ u, exec (.frameLoadAddress t x w base off) s = .next u ∧
        ctxCycle u x = some (stepped (putReg v x w (BitVec.ofNat 64 (frameAddr c (base % 4) off)) c))) ∧
    (∀ w base off val, here (frameWord32 0 w base off) → frameFault v x (base % 4) (frameAddr c (base % 4) off) = false →
      loadWord v x c (base % 4) (frameAddr c (base % 4) off) = some val →
      ∃ u, exec (.frameLoad t x w base off) s = .next u ∧
        ctxCycle u x = some (stepped (putReg v x w val c)) ∧ u.img = v.img) ∧
    (∀ w base off vr, here (frameWord32 1 w base off) → readReg v x c w = some vr → base % 4 ≠ 3 →
      frameFault v x (base % 4) (frameAddr c (base % 4) off) = false →
      (∀ k, x = .task k → dirtyBytes c + 4 ≤ 131072) →
      ∃ u c', exec (.frameStore t x w base off) s = .next u ∧ ctxCycle u x = some c' ∧ c'.pc = c.pc + 1 ∧
        loadWord u x c' (base % 4) (frameAddr c (base % 4) off) = some (match x with
          | .passB => BitVec.ofInt 64 (codedValue vr)
          | _ => widen x (vr.truncate 32)) ∧
        u.prog.inst = v.prog.inst ∧ u.prog.glob = v.prog.glob ∧ u.prog.ret = v.prog.ret)

/-- POINT_READ_VALUE, POINT_READ_QUALITY, POINT_READ_TIMESTAMP, POINT_WRITE_VALUE (08 R176; 10 R229), BRANCH,
CALL_USER_BLOCK, CALL_ROM_BLOCK, CALL_FUNCTION, EXT, SYS_RETURN (08 R175), SYS_END_OF_CYCLE (01 R14), SYS_TRAP (R186). -/
def Obligations.WordsReachPointsAndControlFlow : Prop :=
  ∀ (t : Nat) (x : Ctx) (c : Cycle) (s : State),
    let v := noteStart x (advance t s)
    let pass (u : State) : Pass := match x with
      | .passB => u.safe.passB
      | _ => u.safe.passA
    let moves (w : BitVec 32) (i : Instr) (c' : Cycle) : Prop :=
      atWord (advance t s) x w = true → ∃ u, exec i s = .next u ∧ ctxCycle u x = some c' ∧ u.img = v.img
    ctxCycle v x = some c →
    (∀ w p, let pt := snapPoint c (p % 2 ^ 18)
      (∀ k, x = .task k →
        moves (pointWord 0 w p) (.pointReadValue t x w p) (stepped (putReg v x w (widen x pt.value) c)) ∧
        moves (pointWord 1 w p) (.pointReadQuality t x w p) (stepped (putReg v x w (BitVec.ofNat 64 pt.qual) c)) ∧
        moves (pointWord 2 w p) (.pointReadTimestamp t x w p) (stepped (putReg v x w (BitVec.ofInt 64 pt.ts) c)))) ∧
    (∀ w p, (x = .passA ∨ x = .passB) → safetyField (p % 2 ^ 18) = true →
      (requestBad v (p % 2 ^ 18) = true → atWord (advance t s) x (pointWord 0 w p) = true →
        exec (.pointReadValue t x w p) s = .next (safetyFault 5 (coreOf v x) v)) ∧
      (requestBad v (p % 2 ^ 18) = false →
        (∀ val, safetyRead v x (p % 2 ^ 18) = some val →
          moves (pointWord 0 w p) (.pointReadValue t x w p) (stepped (putReg v x w (val.zeroExtend 64) c))) ∧
        (∃ f, moves (pointWord 1 w p) (.pointReadQuality t x w p) (stepped (putReg v x w f c))) ∧
        (∃ f, moves (pointWord 2 w p) (.pointReadTimestamp t x w p) (stepped (putReg v x w f c))))) ∧
    (∀ w p vr, atWord (advance t s) x (pointWord 3 w p) = true → readReg v x c w = some vr →
      (∀ k, x = .task k → dirtyBytes { c with out := c.out ++ [(p % 2 ^ 18, vr.truncate 32)] } ≤ 131072 →
        moves (pointWord 3 w p) (.pointWriteValue t x w p) (stepped { c with out := c.out ++ [(p % 2 ^ 18, vr.truncate 32)] })) ∧
      (x = .passA ∨ x = .passB → 0x210 ≤ p % 2 ^ 18 → p % 2 ^ 18 < 0x300 →
        ∃ u, exec (.pointWriteValue t x w p) s = .next u ∧ ctxCycle u x = some (stepped c) ∧
          Tbl.get (pass u).status 0 (p % 2 ^ 18 - 0x200) = vr.truncate 32 ∧ (pass u).outs = (pass v).outs) ∧
      (x = .passA ∨ x = .passB → 0x300 ≤ p % 2 ^ 18 → p % 2 ^ 18 < 0x308 →
        ∃ u, exec (.pointWriteValue t x w p) s = .next u ∧ ctxCycle u x = some (stepped c) ∧
          bitOf (pass u).outs (p % 2 ^ 18 - 0x300) = vr.getLsbD 0 ∧ (pass u).status = (pass v).status)) ∧
    (∀ cond w disp vr, atWord (advance t s) x (branchWord cond w disp) = true → readReg v x c w = some vr →
      ∃ u c', exec (.branch t x cond w disp) s = .next u ∧ ctxCycle u x = some c' ∧ c'.ext = none ∧ c'.regs = c.regs ∧
        (Config.branchTaken cond (untyped x vr) = true → c'.pc = ((c.pc : Int) + signedExt c 19 disp).toNat) ∧
        (Config.branchTaken cond (untyped x vr) = false → c'.pc = c.pc + 1)) ∧
    (∀ d, c.stack.length < 32 → moves (callWord 0 d) (.callUserBlock t x d) { c with
      pc := (callDesc v x d).target, inst := instOffset v x (callDesc v x d).instance_
      stack := (c.pc + 1, c.inst) :: c.stack, ext := none }) ∧
    (∀ d, moves (callWord 1 d) (.callRomBlock t x d) { c with
      pc := c.pc + 1, ext := none, result := []
      called := some ((callDesc v x d).target, instOffset v x (callDesc v x d).instance_) }) ∧
    (∀ d, moves (callWord 2 d) (.callFunction t x d) { c with
      pc := c.pc + 1, ext := none, result := [], called := some ((callDesc v x d).target, 0) }) ∧
    (∀ bits, moves (extWord bits) (.ext t x bits) { c with pc := c.pc + 1, ext := some (bits % 2 ^ 28) }) ∧
    (∀ arg pc i r, c.stack = (pc, i) :: r →
      moves (sysWord 1 arg) (.sysReturn t x arg) { c with pc := pc, inst := i, stack := r, ext := none }) ∧
    (∀ arg, atWord (advance t s) x (sysWord 2 arg) = true → ∃ u, exec (.sysEndOfCycle t x arg) s = .next u ∧
      (x = .passA → u.safe.passA.running = false ∧ u.safe.passA.ended = true ∧ u.safe.delay = delayRegs v) ∧
      (x = .passB → u.safe.passB.running = false ∧ u.safe.passB.ended = true) ∧
      (∀ k, x = .task k → v.pair.state = .single → Tbl.find v.pair.recs k = none →
        v.pair.firstAt = none → relsHeld v = false → (getTask u k).cycle = none ∧
        u.prog.inst = writeAll v.prog.inst c.wInst ∧ u.prog.glob = writeAll v.prog.glob c.wGlob ∧
        u.prog.ret = writeAll v.prog.ret c.wRet ∧ u.prog.lastRelease = localNow v) ∧
      (∀ k, x = .task k → v.pair.state = .active → handingHeld v = false →
        Tbl.find v.pair.recs k = none → (getTask u k).cycle = none ∧
        u.pair.held = v.pair.held ++ [⟨u.pair.seqOut, v.now, some (k, c)⟩] ∧ u.prog.inst = v.prog.inst ∧ u.img = v.img)) ∧
    (∀ arg, atWord (advance t s) x (sysWord 3 arg) = true → ∃ u, exec (.sysTrap t x arg) s = .next u ∧
      (∀ k, x = .task k → (getTask u k).cycle = none ∧ (getTask u k).faulted = true ∧ (getTask u k).abandoned = true ∧
        (getTask u k).faults = sat 32 ((getTask v k).faults + 1)) ∧
      (x = .passA ∨ x = .passB → v.safe.state = .running → v.safe.counted = [] →
        u.safe.state = .safeStop ∧ u.safe.cause = 7 ∧ u.safe.faults = (v.safe.faults + 1) % 2 ^ 32))

/-- TON, TOF, TP, R_TRIG, F_TRIG (08 R179, R180), CTU, CTD, CTUD (R180), SR, RS (R178); log entry 21. -/
def Obligations.NativeBlocksFollowTheirInputs : Prop :=
  ∀ (t : Nat) (x : Ctx) (c : Cycle) (inst : Nat) (s : State),
    let v := noteStart x (advance t s)
    let now := timerNow v x
    let ran (i : Instr) (num bytes : Nat) (P : BlockInst → BlockInst → List Nat → Prop) : Prop :=
      let ix := blockInst c num inst
      (getBlock v x c ix = none → exec i s = .next (safetyFault 3 (coreB v) v)) ∧
      (∀ b, getBlock v x c ix = some b → (∀ k, x = .task k → dirtyBytes c + bytes ≤ 131072) →
        ∃ u c' b', exec i s = .next u ∧ ctxCycle u x = some c' ∧ c'.called = none ∧ c'.pc = c.pc ∧ P b b' c'.result ∧
          getBlock u x c' ix = some (match x with
            | .passB => blockOfWords (blockWords b')
            | _ => b'))
    ctxCycle v x = some c →
    (∀ inp pt, ran (.ton t x inst inp pt) 1 40 (fun b b' r =>
      let start := if b.running then b.start else now
      r = [boolNat b'.q, b'.et.toNat] ∧
      (inp = false → b'.q = false ∧ b'.et = 0 ∧ b'.running = false) ∧
      (inp = true → b'.running = true ∧ b'.start = start ∧ b'.et = min (now - start) (max pt 0) ∧
        (b'.q = true ↔ max pt 0 ≤ now - start)))) ∧
    (∀ inp pt, ran (.tof t x inst inp pt) 2 40 (fun b b' r =>
      let start := if b.running then b.start else now
      r = [boolNat b'.q, b'.et.toNat] ∧
      (inp = true → b'.q = true ∧ b'.et = 0) ∧
      (inp = false → b.inp = true ∨ b.running = true → b'.et = min (now - start) (max pt 0) ∧
        (b'.q = true ↔ now - start < max pt 0)) ∧
      (inp = false → b.inp = false → b.running = false → b'.q = false))) ∧
    (∀ inp pt, ran (.tp t x inst inp pt) 3 40 (fun b b' r =>
      r = [boolNat b'.q, b'.et.toNat] ∧
      (b.running = false → b.inp = false → inp = true → 0 < pt → b'.running = true ∧ b'.q = true ∧ b'.start = now ∧ b'.et = 0) ∧
      (b.running = false → b.inp = true ∨ inp = false → b'.q = false) ∧
      (b.running = true → now - b.start < max pt 0 → b'.q = true ∧ b'.et = now - b.start) ∧
      (b.running = true → max pt 0 ≤ now - b.start → b'.q = false ∧ b'.running = false))) ∧
    (∀ clk, ran (.rTrig t x inst clk) 0x10 4 (fun b b' r => r = [boolNat b'.q] ∧ b'.prev = clk ∧
      b'.q = (clk && b.prevValid && !b.prev))) ∧
    (∀ clk, ran (.fTrig t x inst clk) 0x11 4 (fun b b' r => r = [boolNat b'.q] ∧ b'.prev = clk ∧
      b'.q = (!clk && b.prevValid && b.prev))) ∧
    (∀ cu r pv, ran (.ctu t x inst cu r pv) 0x20 16 (fun b b' res =>
      res = [boolNat b'.q, (b'.cv % 65536).toNat] ∧ (b'.q = true ↔ pv ≤ b'.cv) ∧ (r = true → b'.cv = 0) ∧
      (r = false → b'.cv = b.cv + (if cu && b.prevValid && !b.prev && decide (b.cv < 32767) then 1 else 0)))) ∧
    (∀ cd ld pv, ran (.ctd t x inst cd ld pv) 0x21 16 (fun b b' res =>
      res = [boolNat b'.q, (b'.cv % 65536).toNat] ∧ (b'.q = true ↔ b'.cv ≤ 0) ∧ (ld = true → b'.cv = pv) ∧
      (ld = false → b'.cv = b.cv - (if cd && b.prevValid && !b.prev && decide (-32768 < b.cv) then 1 else 0)))) ∧
    (∀ cu cd r ld pv, ran (.ctud t x inst cu cd r ld pv) 0x22 16 (fun b b' res =>
      let up := cu && b.prevValid && !b.prev
      let down := cd && b.prevDValid && !b.prevD
      res = [boolNat b'.qu, boolNat b'.qd, (b'.cv % 65536).toNat] ∧ (b'.qu = true ↔ pv ≤ b'.cv) ∧ (b'.qd = true ↔ b'.cv ≤ 0) ∧
      (r = true → b'.cv = 0) ∧ (r = false → ld = true → b'.cv = pv) ∧
      (r = false → ld = false → up = down → b'.cv = b.cv) ∧
      (r = false → ld = false → up = true → down = false → b.cv < 32767 → b'.cv = b.cv + 1) ∧
      (r = false → ld = false → up = false → down = true → -32768 < b.cv → b'.cv = b.cv - 1))) ∧
    (∀ st r, ran (.sr t x inst st r) 0x30 2 (fun b b' res => res = [boolNat b'.q] ∧ b'.q = (st || (!r && b.q)))) ∧
    (∀ st r, ran (.rs t x inst st r) 0x31 2 (fun b b' res => res = [boolNat b'.q] ∧ b'.q = (!r && (st || b.q))))

/-- CAN_RECV, CAN_SEND, CAN_STATE_RECOVER, CAN_STATE_REENABLE (15 R370, R372, R378), EMERGENCY_STOP_BLOCK,
GUARD_INTERLOCK_BLOCK, TWO_HAND_CONTROL_BLOCK, LIGHT_CURTAIN_BLOCK, SO_STATUS_BLOCK (11 R258). -/
def Obligations.CanFunctionsAndSafetyBlocksAnswer : Prop :=
  (∀ (t : Nat) (k : Fin 48) (p b : Nat) (c : Cycle) (s : State),
    let x := Ctx.task k
    let v := noteStart x (advance t s)
    let r := bufRec v p b
    let key := p * 128 + b
    let n := Tbl.get c.snapCount 0 key
    let gives (i : Instr) (res : List Nat) (P : Cycle → Prop) : Prop :=
      ∃ u c', exec i s = .next u ∧ ctxCycle u x = some c' ∧ c'.result = res ∧ c'.called = none ∧ P c' ∧ u.can = v.can
    let named (n : Nat) : Prop := c.called.map Prod.fst = some n
    ctxCycle v x = some c →
    (¬ named 0x40 → exec (.canRecv t k p b) s = .next v) ∧
    (¬ named 0x41 → ∀ id data, exec (.canSend t k p b id data) s = .next v) ∧
    (¬ named 0x42 → exec (.canStateRecover t k p) s = .next v ∧ exec (.canStateReenable t k p) s = .next v) ∧
    (∀ rx rest, named 0x40 → r.kind = 1 → Tbl.get c.snapCan [] key = rx :: rest →
      gives (.canRecv t k p b) (recvResult (some rx) n) (fun c' => c'.pops = c.pops)) ∧
    (∀ rx, named 0x40 → r.kind = 2 → r.task = k → (Tbl.get c.snapCan [] key)[Tbl.get c.pops 0 key]? = some rx →
      gives (.canRecv t k p b) (recvResult (some rx) n) (fun c' => Tbl.get c'.pops 0 key = Tbl.get c.pops 0 key + 1)) ∧
    (named 0x40 → (r.kind = 1 → Tbl.get c.snapCan [] key = []) →
      (r.kind = 2 → r.task = k → (Tbl.get c.snapCan [] key)[Tbl.get c.pops 0 key]? = none) →
      gives (.canRecv t k p b) [0, 0, 0, 0, 0, n] (fun c' => c'.pops = c.pops)) ∧
    (∀ id data, named 0x41 → r.kind = 3 → r.trigger = 3 → key ∉ c.snapQueued →
      gives (.canSend t k p b id data) [1] (fun c' => (p, b, id, data) ∈ c'.sends)) ∧
    (∀ id data, named 0x41 → r.kind ≠ 3 ∨ r.trigger ≠ 3 ∨ key ∈ c.snapQueued →
      gives (.canSend t k p b id data) [0] (fun c' => c'.sends = c.sends)) ∧
    (∀ st tec rec, named 0x42 → c.snapPorts.getD p (0, 0, 0) = (st, tec, rec) →
      gives (.canStateRecover t k p) [st, tec, rec] (fun c' => c'.states = c.states ++ [(p, 1)]) ∧
      gives (.canStateReenable t k p) [st, tec, rec] (fun c' => c'.states = c.states ++ [(p, 2)]))) ∧
  (∀ (t : Nat) (x : Ctx) (f k : Nat) (c : Cycle) (s : State),
    let v := noteStart x (advance t s)
    let answers (i : Instr) (res : List Nat) : Prop := ∃ u, exec i s = .next u ∧
      ctxCycle u x = some { c with called := none, result := res } ∧ u.sio = v.sio
    let block (i : Instr) : Prop :=
      (∀ inst, sfIn v x f = some inst → answers i [boolNat (sfEn inst.state), boolNat inst.enDelayed, inst.state.num]) ∧
      (sfIn v x f = none → exec i s = .next (safetyFault 3 (coreB v) v))
    ctxCycle v x = some c → x = .passA ∨ x = .passB →
    (f < 16 → sfInput v f < 16 → block (.emergencyStopBlock t x f)) ∧
    (16 ≤ f → f < 32 → sfInput v f < 16 → block (.guardInterlockBlock t x f)) ∧
    (32 ≤ f → f < 36 → sfInput v f < 16 → block (.twoHandControlBlock t x f)) ∧
    (36 ≤ f → f < 44 → sfInput v f < 16 → block (.lightCurtainBlock t x f)) ∧
    (k < 8 → answers (.soStatusBlock t x k) [Tbl.get v.safe.soAtStart 0 k])) ∧
  (∀ (t : Nat) (k : Fin 48) (n : Nat) (c : Cycle) (s : State),
    let x := Ctx.task k
    let v := noteStart x (advance t s)
    ctxCycle v x = some c →
    ∀ i ∈ [Instr.emergencyStopBlock t x n, .guardInterlockBlock t x n, .twoHandControlBlock t x n,
      .lightCurtainBlock t x n, .soStatusBlock t x n],
      ∃ u, exec i s = .next u ∧ (getTask u k).faulted = true ∧ (getTask u k).cycle = none)

/-- SAFETY_COMMIT (10 R231, R235, R237, R245, R247), PASS_B_START (R232, R239), PASS_OVERRUN (R250), SCU_COMPARE (R242 to
R244), SAFETY_CONFIG_START (R253). -/
def Obligations.SafetyCyclesCommitCompareAndStop : Prop :=
  ∀ (t : Nat) (s : State),
    let v := advance t s
    let stops (i : Instr) (cause : Nat) : Prop := v.safe.state = .running → v.safe.counted = [] →
      ∃ u, exec i s = .next u ∧ u.safe.state = .safeStop ∧ u.safe.cause = cause ∧
        u.safe.counted = [v.now]
    let halts (i : Instr) (cause : Nat) : Prop := v.safe.state = .running →
      ∃ u, exec i s = .next u ∧ u.safe.state = .safeHalt ∧ u.safe.cause = cause ∧ u.safe.vector = 0
    safetyRuns v = true →
    let unread := liveVector v && (delayWord v 0).isNone
    (∀ late : Bool, unread = true → halts (.safetyCommit t late) 9) ∧
    (unread = false → ∃ u, exec (.safetyCommit t false) s = .next u ∧ .token (tokenOf v.safe.k) (vectorDue v) ∈ u.outbox ∧
      u.safe.k = v.safe.k + 1 ∧ u.safe.vector = vectorDue v ∧ u.safe.cycles = v.safe.k ∧
      (∀ k, k < 8 → (getStage u k).committed = bitOf (vectorDue v) (2 * k)) ∧
      (∀ j, j < 32 → (getTerm u j).latch1 = (getTerm v j).bank1 ∧ (getTerm u j).latch2 = (getTerm v j).bank2) ∧
      (v.safe.state = .starting → v.safe.newConfig = none → u.safe.state = .running) ∧
      (v.safe.forme.isSome = true → v.safe.newConfig = none → u.safe.passA.running = true ∧
        u.safe.passA.startedAt = v.now + 25000)) ∧
    (unread = false → v.safe.forme.isSome = true → stops (.safetyCommit t true) 5) ∧
    (∀ f, v.safe.forme = some f → v.safe.passA.running = true ∨ v.safe.passA.ended = true →
      v.safe.passB.running = false → v.safe.passB.ended = false →
      let last (e : Nat × Int) : Option Int := decodeInt (v.safe.k - 1) e.2
      let c := v.safe.coded.map (fun e => (e.1, encodeInt v.safe.k ((last e).getD 0)))
      let w := { v with safe := { v.safe with coded := c } }
      (halfPassed v = false → exec (.passBStart t) s = .next v) ∧
      (halfPassed v = true → v.safe.passA.running = true → stops (.passBStart t) 4) ∧
      (halfPassed v = true → v.safe.passA.running = false →
        ((∃ e ∈ v.safe.coded, last e = none) → stops (.passBStart t) 3) ∧
        ((∀ e ∈ v.safe.coded, last e ≠ none) →
          (mailOk v = false → stops (.passBStart t) 5) ∧
          (mailOk v = true → ∃ z u, evaluateCoded w = some z ∧ exec (.passBStart t) s = .next u ∧
            u.safe.passB.running = true ∧ u.safe.passB.cyc.pc = safetyEntry f ∧ u.safe.coded = z.safe.coded ∧
            u.safe.agreedB = z.safe.agreedB)))) ∧
    (v.safe.passA.running = true ∨ v.safe.passB.running = true → stops (.passOverrun t) 4) ∧
    (∀ upset det : Bool, v.safe.forme.isSome = true → v.safe.compared = false →
      v.safe.passA.running = true ∨ v.safe.passB.running = true → stops (.scuCompare t upset det) 4) ∧
    (∀ det : Bool, v.safe.forme.isSome = true → v.safe.compared = false → v.safe.passA.running = false → v.safe.passB.running = false →
      v.safe.passA.ended = true → v.safe.passB.ended = true →
      halts (.scuCompare t true det) 9 ∧ (registersBad v = true → halts (.scuCompare t false det) 9)) ∧
    (∀ det : Bool, v.safe.forme.isSome = true → v.safe.compared = false → v.safe.passA.running = false → v.safe.passB.running = false →
      v.safe.passA.ended = true → v.safe.passB.ended = true → registersBad v = false →
      (resultsEqual v = false → v.safe.k % 16 ≠ v.safe.lfsr % 16 ∨ det = true → stops (.scuCompare t false det) 1) ∧
      (resultsEqual v = true → windowsEqual v = false → v.safe.k % 16 ≠ v.safe.lfsr % 16 ∨ det = true →
        stops (.scuCompare t false det) 2) ∧
      (resultsEqual v = true → windowsEqual v = true → v.safe.k % 16 = v.safe.lfsr % 16 → det = false →
        halts (.scuCompare t false det) 8) ∧
      (resultsEqual v = true → windowsEqual v = true → v.safe.state ≠ .safeHalt →
        v.safe.k % 16 ≠ v.safe.lfsr % 16 ∨ det = true →
        ∃ u, exec (.scuCompare t false det) s = .next u ∧ u.safe.compared = true ∧ u.safe.equal = true ∧
          u.safe.state = v.safe.state ∧ (v.safe.k % 16 = v.safe.lfsr % 16 → u.safe.windowTest = true ∧
            u.safe.injections = (v.safe.injections + 1) % 2 ^ 32))) ∧
    (v.safe.newConfig.isSome = true → ∃ u, exec (.safetyConfigStart t) s = .next u ∧ u.safe.k = 0 ∧
      u.safe.newConfig = none ∧ u.safe.forme = loadedForme v ∧ u.safe.sealHash = liveSeal v ∧
      u.safe.state = if (loadedForme v).isSome then .starting else .noForme)

/-- SI_ACCEPTED (11 R260), TEST_PULSE_DARK, TEST_PULSE_CHECK, BLANK_END (R261 to R263), TP_OVERLOAD, TP_RETRY (R264),
TP_TAKEOVER (R281). -/
def Obligations.SafetyTerminalsAreTestedAndBlanked : Prop :=
  (∀ (t : Nat) (j : Fin 32) (b : Fin 2) (high : Bool) (s : State),
    let v := advance t s
    up v = true → domainOn v 5 = true → safetyRuns v = true ∨ v.safe.state = .safeHalt →
    (blanked v j = true → exec (.siAccepted t j b high) s = .next v) ∧
    (blanked v j = false → ∃ u, exec (.siAccepted t j b high) s = .next u ∧
      (b = 0 → (getTerm u j).bank1 = high ∧ (getTerm u j).bank2 = (getTerm v j).bank2) ∧
      (b = 1 → (getTerm u j).bank2 = high ∧ (getTerm u j).bank1 = (getTerm v j).bank1))) ∧
  (∀ (t : Nat) (n : Fin 8) (s : State),
    let v := advance t s
    let x := getTp v n
    let watched := up v && domainOn v 5 && !isSplit v && tpHeld v n && !(assigned v n).isEmpty
    ((tpDriven v n && darkDue v n) = false → watched = false → exec (.testPulseDark t n) s = .next v) ∧
    ((tpDriven v n && darkDue v n) = true ∨ watched = true →
      ∃ u, exec (.testPulseDark t n) s = .next u ∧ (getTp u n).dark = true ∧ (getTp u n).darkAt = v.now ∧
        ∀ j ∈ assigned v n, (getTerm u j).blankedUntil = some (v.now + 600000)) ∧
    (∀ mask, x.dark = true → v.now < x.darkAt + 600000 →
      ∃ u, exec (.testPulseCheck t n mask) s = .next u ∧ ∀ j ∈ assigned v n,
        (bitOf mask j = true → (getTerm u j).testFailed = true ∧ (getTerm u j).passed = 0 ∧
          (getTerm u j).tpFault = ((getTerm v j).tpFault || (getTerm v j).testFailed)) ∧
        (bitOf mask j = false → (getTerm u j).testFailed = false ∧ (getTerm u j).passed = min 16 ((getTerm v j).passed + 1))) ∧
    (x.dark = true → x.darkAt + 600000 ≤ v.now →
      ∃ u, exec (.blankEnd t n) s = .next u ∧ (getTp u n).dark = false ∧
        ∀ j ∈ assigned v n, (getTerm u j).blankedUntil = none) ∧
    (tpDriven v n = true → ∃ u, exec (.tpOverload t n) s = .next u ∧ (getTp u n).overload = true ∧
      (getTp u n).triedAt = v.now ∧ (getTp u n).dark = false) ∧
    (x.overload = true → x.triedAt + 1000000000 ≤ v.now →
      (∃ u, exec (.tpRetry t n true) s = .next u ∧ (getTp u n).overload = true ∧ (getTp u n).triedAt = v.now) ∧
      (∃ u, exec (.tpRetry t n false) s = .next u ∧ (getTp u n).overload = false)) ∧
    (up v = true → domainOn v 5 = true → isSplit v = false → tpHeld v n = true → assigned v n ≠ [] →
      (∀ j ∈ assigned v n, blanked v j = false) →
      (longDark v n = false → exec (.tpTakeover t n) s = .next v) ∧
      (longDark v n = true → ∃ u, exec (.tpTakeover t n) s = .next u ∧ (getTp u n).takenOver = true ∧ tpHeld u n = false ∧
        ∀ j ∈ assigned v n, (getTerm u j).bank1 = false ∧ (getTerm u j).bank2 = false ∧
          channelValue u j = !releasedValue (siMode v (j / 2)) j)))

/-- TOKEN, TOKEN_MISSING (10 R245; 11 R274), OFF_TEST, OFF_TEST_END (11 R275, R276, R282), SO_OVERCURRENT (R277),
SO_EXTERNAL_DRIVE (R275, R282), FEEDBACK_TIMEOUT (R278). -/
def Obligations.SafetyOutputsFollowTokensAndLatch : Prop :=
  (∀ (t tok : Nat) (s : State),
    let v := advance t s
    safetyRuns v = true →
    (tok = 0x5A ∨ tok = 0xA5 →
      (tok ≠ v.safe.lastToken → v.safe.stageOff = false → ∃ u, exec (.token t tok) s = .next u ∧
        u.safe.lastToken = tok ∧ u.safe.missed = 0 ∧ ∀ k, k < 8 →
          let want := bitOf v.safe.vector (2 * k) && bitOf v.safe.vector (2 * k + 1)
          (want = true → (getStage v k).latched = false → v.pwr.fsbOff = false → soField v k 0 1 ≠ 0 →
            (getStage v k).testing = 0 → (getStage u k).hOn = true ∧ (getStage u k).lOn = true) ∧
          (want = false → (getStage u k).hOn = ((getStage v k).hOn && (getStage v k).hStuck) ∧
            (getStage u k).lOn = ((getStage v k).lOn && (getStage v k).lStuck))) ∧
      (tok ≠ v.safe.lastToken → v.safe.stageOff = true → v.safe.goodTokens < 15 → ∃ u, exec (.token t tok) s = .next u ∧
        u.safe.goodTokens = v.safe.goodTokens + 1 ∧ u.safe.stageOff = true ∧ u.sio = v.sio) ∧
      (tok ≠ v.safe.lastToken → v.safe.stageOff = true → v.safe.goodTokens = 15 →
        ∃ u, exec (.token t tok) s = .next u ∧ u.safe.stageOff = false) ∧
      (tok = v.safe.lastToken → ∃ u, exec (.token t tok) s = .next u ∧ u.safe.stageOff = true ∧ u.safe.goodTokens = 0 ∧
        u.safe.vector = 0 ∧ ∀ k, k < 8 → (getStage v k).hStuck = false → (getStage u k).hOn = false)) ∧
    (v.safe.missed = 0 → ∃ u, exec (.tokenMissing t) s = .next u ∧ u.safe.missed = 1 ∧ u.sio = v.sio ∧
      u.safe.lastToken = nextToken v.safe.lastToken ∧
      u.safe.misses = (v.safe.misses + 1) % 2 ^ 32 ∧ u.safe.stageOff = v.safe.stageOff) ∧
    (1 ≤ v.safe.missed → ∃ u, exec (.tokenMissing t) s = .next u ∧ u.safe.stageOff = true ∧ u.safe.vector = 0)) ∧
  (∀ (t : Nat) (k : Fin 8) (s : State),
    let v := advance t s
    let x := getStage v k
    stagesUp v = true →
    (∀ high : Bool, x.hOn = true → x.lOn = true → x.committed = true → x.testing = 0 → v.safe.missed = 0 →
      ∃ u, exec (.offTest t k high) s = .next u ∧ (getStage u k).hOn = !high ∧ (getStage u k).lOn = high) ∧
    (∀ reached chain : Bool, x.testing ≠ 0 →
      (v.pwr.presLow = true → chain = false → ∃ u, exec (.offTestEnd t k reached chain) s = .next u ∧
        (getStage u k).testing = 0 ∧ (getStage u k).testDiscarded = true ∧ (getStage u k).latched = x.latched) ∧
      (v.pwr.presLow = false ∨ chain = true → reached = true → ∃ u, exec (.offTestEnd t k reached chain) s = .next u ∧
        (getStage u k).testing = 0 ∧ (getStage u k).testDiscarded = false ∧ (x.testing = 1 → (getStage u k).hOn = true) ∧
        (x.testing = 2 → (getStage u k).lOn = true)) ∧
      (v.pwr.presLow = false ∨ chain = true → reached = false → ∃ u, exec (.offTestEnd t k reached chain) s = .next u ∧
        (getStage u k).latched = true ∧ (x.testing = 1 → (getStage u k).hStuck = true ∧ (getStage u k).lOn = (x.lOn && x.lStuck)) ∧
        (x.testing ≠ 1 → (getStage u k).lStuck = true ∧ (getStage u k).hOn = (x.hOn && x.hStuck)))) ∧
    (x.hOn = true ∨ x.lOn = true → x.overcurrent = false → ∃ u, exec (.soOvercurrent t k) s = .next u ∧
      (getStage u k).latched = true ∧ (getStage u k).overcurrent = true ∧ (getStage u k).hOn = (x.hOn && x.hStuck)) ∧
    (v.pwr.presLow = false ∨ v.pwr.posB = true → (x.hOn = false ∨ x.lOn = false) → x.testing = 0 → x.external = false →
      ∃ u, exec (.soExternalDrive t k true) s = .next u ∧ (getStage u k).latched = true ∧ (getStage u k).external = true) ∧
    (v.pwr.presLow = false ∨ v.pwr.posB = true → ∃ u, exec (.soExternalDrive t k false) s = .next u ∧
      (getStage u k).causeGone = true ∧ (getStage u k).latched = x.latched) ∧
    (soField v k 0 1 ≠ 0 → feedbackWrong v k = true → x.feedback = false → ∃ u, exec (.feedbackTimeout t k) s = .next u ∧
      (getStage u k).latched = true ∧ (getStage u k).feedback = true))

/-- CAN_FRAME_RECEIVED (15 R363, R369 to R372), CAN_CYCLIC_TRIGGER (R375), CAN_FRAME_SENT (R376), CAN_RX_TIMEOUT (R373). -/
def Obligations.CanFramesFindBuffersAndLeaveInTurn : Prop :=
  ∀ (t : Nat) (p : Fin 8) (s : State),
    let v := advance t s
    let x := getPort v p
    (∀ f, canOn v p = true → x.synchronised = true → x.busOff = false →
      (f.fd = true → x.fdEnabled = false → ∃ u, exec (.canFrameReceived t p f) s = .next u ∧
        (getPort u p).exceptions = (x.exceptions + 1) % 2 ^ 32 ∧ (getPort u p).synchronised = false ∧
        (getPort u p).tec = x.tec ∧ (getPort u p).rec_ = x.rec_ ∧ (∀ b, (getBuf u p b).rx = (getBuf v p b).rx) ∧
        (canOnBus v p = none → u.can.bufs = v.can.bufs)) ∧
      (f.fd = false ∨ x.fdEnabled = true → ∃ u, exec (.canFrameReceived t p f) s = .next u ∧
        (getPort u p).received = (x.received + 1) % 2 ^ 32 ∧
        (canSends v p = true → x.rec_ ≤ 127 → (getPort u p).rec_ = x.rec_ - 1) ∧
        (landsOwn v = true → canMode v p ≠ 4 ∨ x.locked = true →
          ((∀ b ∈ canBufs v p, bufMatches (bufRec v p b) f = false) →
            (getPort u p).unmatched = (x.unmatched + 1) % 2 ^ 32 ∧ ∀ b, (getBuf u p b).rx = (getBuf v p b).rx) ∧
          (∀ b, (getBuf v p b).onBus = none → (canBufs v p).find? (fun b => bufMatches (bufRec v p b) f) = some b →
            (getPort u p).unmatched = x.unmatched ∧ (getBuf u p b).count = ((getBuf v p b).count + 1) % 2 ^ 32 ∧
            (getBuf u p b).timeout = false ∧
            ((bufRec v p b).kind = 1 → (getBuf u p b).rx = [⟨f, localNow v, slewing v⟩] ∧
              (getBuf u p b).overwritten = !(getBuf v p b).rx.isEmpty) ∧
            ((bufRec v p b).kind ≠ 1 → (getBuf v p b).rx.length < (bufRec v p b).depth →
              (getBuf u p b).rx = (getBuf v p b).rx ++ [⟨f, localNow v, slewing v⟩]) ∧
            ((bufRec v p b).kind ≠ 1 → (bufRec v p b).depth ≤ (getBuf v p b).rx.length →
              (getBuf u p b).rx = (getBuf v p b).rx ∧ (getBuf u p b).overflow = true))))) ∧
    (∀ b : Fin 128, (bufRec v p b).kind = 3 → (bufRec v p b).trigger = 1 → canOn v p = true → v.prog.mode ≠ .stop →
      v.prog.mode ≠ .hold ∨ bufHoldUnsafe v p b = false →
      let g := gridAt v ((bufRec v p b).param * 1000000)
      ((getBuf v p b).cycleAt = some g → exec (.canCyclicTrigger t p b) s = .next v) ∧
      ((getBuf v p b).cycleAt ≠ some g → ∃ u, exec (.canCyclicTrigger t p b) s = .next u ∧ (getBuf u p b).cycleAt = some g ∧
        (canSends v p = false ∨ fdSends v p b = false → (getPort u p).suppressed = (x.suppressed + 1) % 2 ^ 32 ∧
          getBuf u p b = { getBuf v p b with cycleAt := some g }) ∧
        (canSends v p = true → fdSends v p b = true → (getBuf v p b).state = 2 ∨ (getBuf v p b).state = 3 → (getBuf u p b).txLate = true ∧
          (getBuf u p b).state = (getBuf v p b).state) ∧
        (canSends v p = true → fdSends v p b = true → (getBuf v p b).state < 2 → x.busOff = true → (getBuf u p b).state = 3) ∧
        (canSends v p = true → fdSends v p b = true → (getBuf v p b).state < 2 → x.busOff = false → (getBuf v p b).onBus = none →
          (getBuf u p b).state = 2 ∨ (getBuf u p b).onBus = some (canSendData v p b)))) ∧
    (∀ b, canOnBus v p = some b → ∃ u, exec (.canFrameSent t p) s = .next u ∧
      (getPort u p).sent = (x.sent + 1) % 2 ^ 32 ∧ (getPort u p).tec = x.tec - 1 ∧
      (getBuf u p b).count = ((getBuf v p b).count + 1) % 2 ^ 32 ∧ (getBuf u p b).txLate = false) ∧
    (∀ b : Fin 128, canOn v p = true → (bufRec v p b).kind = 1 ∨ (bufRec v p b).kind = 2 → (bufRec v p b).param ≠ 0 →
      (getBuf v p b).lastRx + (bufRec v p b).param * 1000000 ≤ v.now →
      ∃ u, exec (.canRxTimeout t p b) s = .next u ∧ (getBuf u p b).timeout = true ∧ (getBuf u p b).rx = (getBuf v p b).rx)

/-- CAN_ERROR (15 R379, R381), CAN_RECOVER_BUS_OFF, BUS_OFF_RECOVERY_COMPLETE (R380), CAN_RECOVER_COLLISION (R381),
AUTOBAUD_DWELL (R367), BUS_INTEGRATED (R364). -/
def Obligations.CanErrorsConfineAndPortsRecover : Prop :=
  (∀ (t : Nat) (p : Fin 8) (s : State),
    let v := advance t s
    let x := getPort v p
    (∀ kind tx spot, canSends v p = true → canMode v p = 1 → x.synchronised = true → x.busOff = false →
      ∃ u, exec (.canError t p kind tx spot) s = .next u ∧ (getPort u p).errors = (x.errors + 1) % 2 ^ 32 ∧
        (getPort u p).lastError = kind.num ∧
        (tx = true → kind ≠ .ack ∨ x.passive = false → (getPort u p).tec = x.tec + 8 ∧ (getPort u p).rec_ = x.rec_ ∧
          (255 < x.tec + 8 → (getPort u p).busOff = true ∧ (getPort u p).busOffs = (x.busOffs + 1) % 2 ^ 32) ∧
          (x.tec + 8 ≤ 255 → (getPort u p).busOff = false)) ∧
        (tx = true → kind = .ack → x.passive = true → (getPort u p).tec = x.tec) ∧
        (tx = false → (getPort u p).rec_ = min 255 (x.rec_ + (if spot = .flag then 8 else 1)) ∧ (getPort u p).tec = x.tec) ∧
        (∀ b, tx = true → spot = .dataCrc → kind = .bit0 ∨ kind = .bit1 → canOnBus v p = some b →
          2 ≤ ((getBuf v p b).bitErrors.filter (fun i => v.now - i < 1000000000)).length →
          (getBuf u p b).collision = true ∧ (getPort u p).collisions = (x.collisions + 1) % 2 ^ 32 ∧
          (bitOf (bufRec v p b).flags 5 = true → (getBuf u p b).state = 4))) ∧
    (canOn v p = true → x.busOff = true → x.recovering = true →
      ∃ u, exec (.busOffRecoveryComplete t p) s = .next u ∧ (getPort u p).busOff = false ∧ (getPort u p).recovering = false ∧
        (getPort u p).tec = 0 ∧ (getPort u p).rec_ = 0 ∧ ∀ b ∈ canBufs v p, (getBuf u p b).state ≠ 3) ∧
    (canOn v p = true → canMode v p = 4 → x.locked = false → x.rateAt + cfgNat v (0x3600 + p) 6 * 1000000 ≤ v.now →
      ∃ u, exec (.autobaudDwell t p) s = .next u ∧ (getPort u p).rate = (x.rate + 1) % 9) ∧
    (canOn v p = true → ∃ u, exec (.busIntegrated t p) s = .next u ∧ (getPort u p).synchronised = true ∧
      (getPort u p).tec = x.tec)) ∧
  (∀ (t : Nat) (p : Fin 8) (c : Cmd) (s : State),
    let v := served (found t s) c.hdr.session
    let waits (i : Instr) (k : Byte) : Prop :=
      let w : DirectWrite := { key := objKey (0x3600 + p) 7, data := [k], session := c.hdr.session }
      exec i s = .next (respond (found t s) c.hdr svcWrite (.ok []) { v with sess := { v.sess with direct := v.sess.direct ++ [w] } })
    c.rest = [] →
    (writeHeard (found t s) c (0x3600 + p) 7 [1] = true → waits (.canRecoverBusOff t p c) 1) ∧
    (writeHeard (found t s) c (0x3600 + p) 7 [2] = true → waits (.canRecoverCollision t p c) 2)) ∧
  (∀ (p : Fin 8) (n : Nat) (s : State),
    let acts (k : Byte) : State := directEffect (objKey (0x3600 + p) 7) [k] n s
    ((getPort s p).busOff = true → (getPort (acts 1) p).recovering = true ∧ (acts 1).can.bufs = s.can.bufs) ∧
    ((acts 2).can.ports = s.can.ports ∧ ∀ b ∈ canBufs s p, (getBuf s p b).state = 4 → (getBuf (acts 2) p b).state = 1))

/-- HB_PULSE_SEND, HB_PULSE, HEARTBEAT_LOSS (16 R393), PREC_FRAME (R386, R391), ARBITRATION_WON (R392, R401),
ARBITRATION_FCL_CHECK_END (R397), STANDBY_RECORD_TIMEOUT (R392), FCL_FRAME_SEND (R403), FCL_FRAME (R404, R405),
PRES_CHANGED (R384). -/
def Obligations.UnitsHearClaimsAndArbitrate : Prop :=
  ∀ (t : Nat) (s : State),
    let v := advance t s
    let alone (u : State) : Prop := u.pair.state = .activeAlone ∧ u.pair.held = []
    let yielded (u : State) : Prop := u.pair.state = .unsynced ∧ u.pair.yielded = true ∧ u.pair.held = []
    let forSram : Prop := v.pair.handing.map Handing.trigger = some 5
    up v = true → isPairUnit v = true →
    (domainOn v 7 = true → v.pair.state ≠ .conflict →
      (hbDue v = true → exec (.hbPulseSend t) s = .next (send .hbPulse { v with pair := { v.pair with
        hbAt := some v.now, hbGrid := some (gridAt v 1000000) } })) ∧
      (hbDue v = false → exec (.hbPulseSend t) s = .next v)) ∧
    (v.pair.presChanged = false → drivesHb v = true → exec (.hbPulse t) s = .next v) ∧
    (v.pair.presChanged = false → drivesHb v = false → ∃ u, exec (.hbPulse t) s = .next u ∧ u.pair.lastPulse = v.now ∧ u.pair.lossAt = none ∧
      (v.pair.state = .active → v.pair.holding = true → (∃ a ∈ unackedAt v, a < v.now) → ¬ forSram → alone u) ∧
      (v.pair.state = .tracking → v.pair.lastRecord + 2000000 < v.now → u.pair.state = .unsynced) ∧
      (v.pair.state = .tracking → v.now ≤ v.pair.lastRecord + 2000000 → u.pair.state = .tracking)) ∧
    (isActive v = true ∨ isStandby v = true → v.pair.lossAt = none → v.pair.lastPulse + 3000000 ≤ v.now →
      ∃ u, exec (.heartbeatLoss t) s = .next u ∧ u.pair.lossAt = some v.now ∧ u.pair.partnerClaim = 0 ∧
        (isActive v = true ∨ 8 ≤ healthGrade v →
          u.outbox = .prec (ownClaim v) :: v.outbox ∧
          u.pair.arbAt = some ((v.pair.precAt.map (fun e => max v.now (e + 50000))).getD v.now + 190000)) ∧
        (isActive v = false → healthGrade v < 8 → u.outbox = v.outbox)) ∧
    (∀ claim, v.pair.presChanged = false → v.pair.state ≠ .conflict →
      (samePosition v claim = true → ∃ u, exec (.precFrame t claim) s = .next u ∧ u.pair.state = .conflict) ∧
      (samePosition v claim = false → ownClaim v < claim → ∃ u, exec (.precFrame t claim) s = .next u ∧
        u.pair.arbLost = true ∧ u.pair.arbAt = none ∧
        (v.pair.state = .active ∨ v.pair.state = .activeAlone → yielded u) ∧
        (v.pair.state = .starting → u.pair.state = .syncing)) ∧
      (samePosition v claim = false → claim ≤ ownClaim v → isStandby v = false ∨ 8 ≤ healthGrade v →
        ∃ u, exec (.precFrame t claim) s = .next u ∧ u.outbox = .prec (ownClaim v) :: v.outbox ∧
          u.pair.arbAt = some (v.now + 240000) ∧ u.pair.state = v.pair.state)) ∧
    (∀ a, v.pair.arbAt = some a → v.pair.arbLost = false → a + 1000000 ≤ v.now →
      ∃ u, exec (.arbitrationWon t) s = .next u ∧ u.pair.arbAt = none ∧
        (v.pair.state = .starting → u.pair.state = .activeAlone) ∧
        (v.pair.state = .tracking → 8 ≤ healthGrade v → u.pair.state = .activeAlone ∧
          u.pair.switchovers = (v.pair.switchovers + 1) % 2 ^ 32 ∧ u.pair.replaced = true ∧
          u.pair.firstAt = some (firstRelease v)) ∧
        (v.pair.state = .active → v.pair.lossAt.isSome = true → u.pair.wonAt = some v.now)) ∧
    (∀ w, v.pair.wonAt = some w → w + 1000000 ≤ v.now → v.pair.state = .active →
      let fcl := (v.dio.banks.map (fun e => e.2.fclSeen)).foldl max 0
      ∃ u, exec (.arbitrationFclCheckEnd t) s = .next u ∧ (ownClaim v < fcl → yielded u) ∧
        (fcl ≤ ownClaim v → ¬ forSram → alone u)) ∧
    (∀ l, v.pair.lossAt = some l → isStandby v = true → healthGrade v < 8 → l + 1000000 ≤ v.now → v.pair.lastCommit ≤ l →
      ∃ u, exec (.standbyRecordTimeout t) s = .next u ∧ u.pair.state = .unsynced) ∧
    (isActive v = true → fclStarts v = true → exec (.fclFrameSend t) s = .next (send (.fcl (ownClaim v)) v)) ∧
    (fclStarts v = false → exec (.fclFrameSend t) s = .next v) ∧
    (∀ chip claim, foreignTwin v claim = false →
      (chip < 8 → ∃ u, exec (.fclFrame t chip claim) s = .next u ∧ (getBank u chip).claim = chipClaim v (getBank v chip).claim
        (getBank v chip).unitClaim (getBank v chip).partnerClaim (hear v.now claim (getBank v chip).heard)) ∧
      (8 ≤ chip → chip < 40 → ∃ u, exec (.fclFrame t chip claim) s = .next u ∧ (getAio u (chip - 8)).claim =
        chipClaim v (getAio v (chip - 8)).claim (getAio v (chip - 8)).unitClaim (getAio v (chip - 8)).partnerClaim
          (hear v.now claim (getAio v (chip - 8)).heard))) ∧
    (∀ low, ∃ u, exec (.presChanged t low) s = .next u ∧ u.pair.presChanged = true ∧ linked u = false ∧
      u.pwr.presLow = v.pwr.presLow)

/-- HELLO_SEND, HELLO (16 R386, R394, R399), INPUT, REMOTE_SET_MISSING (R396), TICK (09 R204; 16 R398), TASK (R395, R398),
CHANGE (04 R91; 10 R254), COPY, COPY_TIMEOUT, COPY_RETRY (R399). -/
def Obligations.TheStandbyTakesRecordsAndCopies : Prop :=
  ∀ (t : Nat) (s : State),
    let v := advance t s
    let w (seq : Nat) : State := { v with pair := { v.pair with seqIn := some seq, lastRecord := v.now } }
    let commit (seq : Nat) : State := { w seq with pair := { (w seq).pair with lastCommit := v.now } }
    let ordered (seq : Nat) : Prop := v.pair.state = .tracking ∧ (v.pair.seqIn = none ∨ ∃ q, v.pair.seqIn = some q ∧ seq = (q + 1) % 2 ^ 32)
    let acks (u : State) (seq res : Nat) : Prop := ∃ q hdr, .sync 5 q hdr [seq, res] ∈ u.outbox
    synced v = true →
    (helloDue v = false → exec (.helloSend t) s = .next v) ∧
    (helloDue v = true → ∃ u, exec (.helloSend t) s = .next u ∧ u.pair.helloAt = some v.now ∧ ∃ rest, u.outbox = .sync 1 ((v.pair.seqOut + 1) % 2 ^ 32) (syncHdr v)
      ((if v.pwr.posB then 0x42 else 0x41) :: serialNumber :: 0x42 :: rest) :: v.outbox) ∧
    (∀ m : HelloMsg,
      (m.positionB = v.pwr.posB ∨ samePosition v m.claimNo = true → ∃ u, exec (.hello t m) s = .next u ∧ u.pair.state = .conflict) ∧
      (m.positionB ≠ v.pwr.posB → samePosition v m.claimNo = false → ∃ u, exec (.hello t m) s = .next u ∧
        u.pair.partnerSerial = m.serial ∧ u.safe.mismatch = (isSplit v && !m.split) ∧
        u.pair.partnerClaim = m.claimNo ∧ u.pair.partnerGrade = m.grade ∧ u.pair.partnerState = m.state ∧
        u.pair.lastRecord = v.now ∧
        (m.state = .syncing ∨ m.state = .unsynced → isActive v = true → v.pair.state ≠ .single →
          (∀ c, v.pair.copyAt = some c → c + 10000000000 ≤ v.now) → v.pair.handing.map Handing.trigger ≠ some 5 →
          u.pair.state = .activeAlone ∧ u.pair.copyAt = some v.now ∧ u.pair.copies = (v.pair.copies + 1) % 2 ^ 32))) ∧
    (∀ seq q ls, v.pair.state = .tracking → v.pair.seqIn = some q → seq ≠ (q + 1) % 2 ^ 32 →
      ∃ u, exec (.input t seq ls) s = .next u ∧ u.pair.state = .unsynced ∧ u.img = v.img) ∧
    (∀ seq ls, ordered seq → ∃ u, exec (.input t seq ls) s = .next u ∧ u.pair.seqIn = some seq ∧
      (∀ ch val q ts, ls = [.aio ch val q ts] → v.pair.wanted = [] → acks u seq 0 ∧
        ∀ p ∈ aioPoints v ch, (underlying u p).value = val)) ∧
    (∀ seq, v.pair.state = .tracking →
      let missing := v.pair.wanted.any (fun r => r.record == seq && decide (r.at_ + 2000000 ≤ v.now))
      exec (.remoteSetMissing t seq) s = .next (if missing = true then sendAck seq 2 v else v)) ∧
    (∀ seq ps d more, ordered seq → engineUp v = true →
      let z := applyMore more (standbyTick ps (commit seq))
      ∃ u, exec (.tick t seq ⟨ps, more⟩ d) s = .next u ∧ u.pair.lastCommit = v.now ∧
        (loopDigest z = d → acks u seq 0 ∧ u.pair.state = .tracking) ∧
        (loopDigest z ≠ d → acks u seq 1 ∧ u.pair.state = .unsynced ∧
          u.pair.mismatches = (v.pair.mismatches + 1) % 2 ^ 32)) ∧
    (∀ seq r, ordered seq →
      let z := applyMore r.more (storeRec r.task (commit seq))
      z.pair.state = .tracking → ∃ u, exec (.task t seq r) s = .next u ∧ u.pair.lastCommit = z.pair.lastCommit ∧
        (Tbl.find z.pair.own r.task = none → (getTask z r.task).cycle.isSome = true → acks u seq 0 ∧
          Tbl.find u.pair.recs r.task = some (v.now, r) ∧ u.prog = z.prog) ∧
        (Tbl.find z.pair.own r.task = none → (getTask z r.task).cycle = none → acks u seq 0 ∧
          u.prog.inst = writeAll z.prog.inst r.inst ∧ u.prog.glob = writeAll z.prog.glob r.glob) ∧
        (∀ c, Tbl.find z.pair.own r.task = some c → Tbl.find u.pair.own r.task = none ∧
          u.prog.inst = writeAll z.prog.inst r.inst ∧ u.prog.glob = writeAll z.prog.glob r.glob ∧
          (outputCrc c = r.crc → acks u seq 0) ∧
          (outputCrc c ≠ r.crc → u.pair.state = .unsynced ∧ u.pair.mismatches = (z.pair.mismatches + 1) % 2 ^ 32))) ∧
    (∀ seq, ordered seq →
      (∀ objs g, ∃ u, exec (.change t seq (.config objs g)) s = .next u ∧ u.sess.generation = g ∧ acks u seq 0) ∧
      (∀ image, (imageRow (w seq) image = none → ∃ u, exec (.change t seq (.forme image)) s = .next u ∧ acks u seq 0 ∧
          u.prog.candidate = some (formeOf image)) ∧
        (∀ row, imageRow (w seq) image = some row →
          exec (.change t seq (.forme image)) s = .next (sendAck seq (0x10 + row) (w seq)))) ∧
      (∀ objs m, (safetyFits objs m (w seq) = true → isSplit v = false →
          ∃ u, exec (.change t seq (.safety objs m)) s = .next u ∧ acks u seq 0 ∧
            u.safe.newConfig = some v.now ∧ u.safe.formeBytes = Memory.norm m) ∧
        (safetyFits objs m (w seq) = false → exec (.change t seq (.safety objs m)) s = .next (w seq)))) ∧
    (∀ seq piece, v.pair.state = .syncing →
      let whole := v.pair.copyBroken = false ∧ ∀ q, v.pair.seqIn = some q → seq = (q + 1) % 2 ^ 32
      (whole → ∃ u, exec (.copy t seq piece true) s = .next u ∧ u.pair.state = .tracking ∧ u.pair.seqIn = some seq ∧
        u.pair.copies = (v.pair.copies + 1) % 2 ^ 32) ∧
      (¬ whole → v.pair.copyCfg ≠ [] → ∃ u, exec (.copy t seq piece true) s = .next u ∧ u.pair.state = .syncing) ∧
      (∀ a bs, piece = .instData a bs → ∃ u, exec (.copy t seq piece false) s = .next u ∧ u.pair.state = .syncing ∧
        u.prog.inst = Memory.writeN v.prog.inst a bs)) ∧
    (∀ c, v.pair.state = .syncing → v.pair.copyAt = some c → c + 3000000000 ≤ v.now →
      ∃ u, exec (.copyTimeout t) s = .next u ∧ u.pair.state = .unsynced ∧ u.pair.abandoned = true ∧
        u.pair.retryAt = some (v.now + 10000000000)) ∧
    (∀ r, v.pair.state = .unsynced → v.pair.retryAt = some r → r ≤ v.now →
      ∃ u, exec (.copyRetry t) s = .next u ∧ u.pair.state = .syncing ∧ u.pair.retryAt = none ∧ u.pair.copyAt = some v.now)

/-- ACK (16 R395 to R397, R399, R402), ACK_TIMEOUT (R397), SWITCHOVER_REQUEST, HANDOVER (R402), AUTO_SWITCHOVER (R400). -/
def Obligations.TheActiveUnitCommitsAndHandsOver : Prop :=
  (∀ (t seq : Nat) (s : State),
    let v := advance t s
    synced v = true → isActive v = true →
    (∀ h, v.pair.state = .active → v.pair.handing = none → v.pair.held = [h] → h.seq = seq →
      v.pair.sentRecs.filter (fun e => e.1 != seq) = [] →
      ∃ u, exec (.ack t seq 0) s = .next u ∧ u.pair.held = [] ∧ u.pair.holding = false ∧ u.pair.state = .active ∧
        ∀ k c, h.cycle = some (k, c) → u.prog.inst = writeAll v.prog.inst c.wInst ∧ u.prog.glob = writeAll v.prog.glob c.wGlob ∧
          (v.pair.firstAt = none → u.prog.lastRelease = localNow v)) ∧
    (v.pair.state = .activeAlone → v.pair.handing = none → copyTaken seq v = true →
      ∃ u, exec (.ack t seq 0) s = .next u ∧ u.pair.state = .active) ∧
    (v.pair.state = .active → v.pair.handing = none → ∃ u, exec (.ack t seq 1) s = .next u ∧ u.pair.state = .activeAlone ∧
      u.pair.held = [] ∧ u.pair.mismatches = (v.pair.mismatches + 1) % 2 ^ 32) ∧
    (v.pair.handing = none → (∃ r ∈ v.pair.sets, r.record = seq) → ∃ u, exec (.ack t seq 2) s = .next u ∧
      (∀ r ∈ u.pair.sets, r.record ≠ seq) ∧
      u.pair.resent = (v.pair.resent + (v.pair.sets.filter (fun r => r.record == seq)).length) % 2 ^ 32) ∧
    (∀ h, v.pair.handing = some h → h.seq = some seq → h.trigger ≠ 5 → ∃ u, exec (.ack t seq 0) s = .next u ∧
      u.pair.state = .tracking ∧ u.pair.switchovers = (v.pair.switchovers + 1) % 2 ^ 32)) ∧
  (∀ (t seq at_ : Nat) (s : State),
    let v := advance t s
    v.pair.state = .active → (seq, at_) ∈ v.pair.held.map (fun h => (h.seq, h.sentAt)) ++ v.pair.sentRecs →
    at_ + 1000000 ≤ v.now →
    (pulseSince v = false → ∃ u, exec (.ackTimeout t seq) s = .next u ∧ u.pair.holding = true ∧
      u.pair.held = v.pair.held ∧ u.pair.state = .active) ∧
    (pulseSince v = true → v.pair.handing.map Handing.trigger ≠ some 5 →
      ∃ u, exec (.ackTimeout t seq) s = .next u ∧ u.pair.state = .activeAlone ∧ u.pair.held = [])) ∧
  (∀ (t : Nat) (c : Cmd) (s : State),
    let v := served (found t s) c.hdr.session
    writeHeard (found t s) c 0xF006 1 [] = true → fieldAt c.rest 0 1 = 1 → cmdRunning v 6 = false →
    (v.pair.state = .active → partnerQualifies v = true → v.pair.handing = none → ∃ u, exec (.switchoverRequest t c) s =
      .next (respond (found t s) c.hdr svcWrite (.ok []) u) ∧ cmdRunning u 6 = true ∧ u.pair.handing =
        some { trigger := 2, session := c.hdr.session, at_ := localNow v / 1000000 * 1000000 + 1000000 }) ∧
    (v.pair.state = .tracking → 8 ≤ healthGrade v → ∃ u, exec (.switchoverRequest t c) s =
      .next (respond (found t s) c.hdr svcWrite (.ok []) u) ∧ cmdRunning u 6 = true ∧ u.pair = v.pair) ∧
    (v.pair.state = .active ∧ partnerQualifies v = false ∨ v.pair.state = .tracking ∧ healthGrade v < 8 → exec (.switchoverRequest t c) s =
      .next (respond (found t s) c.hdr svcWrite (.error ⟨3, 0x50, 6, 0xF006, 1, v.pair.partnerGrade⟩) v))) ∧
  (∀ (t : Nat) (s : State),
    let v := advance t s
    up v = true → v.pair.state = .active → partnerQualifies v = true → v.pair.handing = none →
    (healthGrade v < 8 → ∃ u, exec (.autoSwitchover t) s = .next u ∧ (u.pair.handing.map Handing.trigger) = some 3) ∧
    (∀ m, 8 ≤ healthGrade v → v.pair.marginSince = some m → cfgBool v 0x5000 8 = true →
      healthGrade v + cfgNat v 0x5000 9 ≤ v.pair.partnerGrade → m + 1000000000 ≤ v.now →
      ∃ u, exec (.autoSwitchover t) s = .next u ∧ (u.pair.handing.map Handing.trigger) = some 4)) ∧
  (∀ (t seq last trig : Nat) (s : State),
    let v := advance t s
    synced v = true → v.pair.state = .tracking →
    v.pair.seqIn = none ∨ (∃ q, v.pair.seqIn = some q ∧ seq = (q + 1) % 2 ^ 32) →
    (8 ≤ healthGrade v → ∃ u, exec (.handover t seq last trig) s = .next u ∧ u.pair.state = .active ∧
      (∃ q hdr, .sync 5 q hdr [seq, 0] ∈ u.outbox) ∧
      u.pair.switchovers = (v.pair.switchovers + 1) % 2 ^ 32 ∧ u.pair.replaced = true) ∧
    (healthGrade v < 8 → ∃ u, exec (.handover t seq last trig) s = .next u ∧ u.pair.state = .tracking ∧ u.outbox = v.outbox))

/-- RECORD_WRITE (17 R413, R414, R419, R421), BANK_RESYNC_COMPLETE (R420), SRAM_CORRECTED_ERROR, SRAM_UNCORRECTABLE_ERROR
(01 R19), SRAM_SCRUB (16 R407). -/
def Obligations.RecordsReachBanksAndPagesAreRemapped : Prop :=
  ∀ (t : Nat) (s : State),
    let v := advance t s
    let r := v.recd
    up v = true →
    (∀ q rest ok0 ok1, domainOn v 3 = true → r.queue = q :: rest → startUndecided v q = false →
      let w : Rec := ⟨nextSeq r.newest, q.opTime, q.cycles, q.code, q.source, q.net, q.data, true⟩
      ∃ u, exec (.recordWrite t ok0 ok1) s = .next u ∧
        (ok0 = true → ok1 = true → r.bank0.ok = true ∨ r.bank1.ok = true → u.recd.newest = nextSeq r.newest ∧
          u.recd.queue = rest ∧
          (r.bank0.ok = true → Tbl.find u.recd.bank0.ring (nextSeq r.newest % ringSlots) = some w) ∧
          (r.bank1.ok = true → Tbl.find u.recd.bank1.ring (nextSeq r.newest % ringSlots) = some w)) ∧
        (ok0 = false → r.bank0.ok = true → u.recd.bank0.ok = false ∧ u.recd.bank0.sticky = true) ∧
        (ok1 = false → r.bank1.ok = true → u.recd.bank1.ok = false ∧ u.recd.bank1.sticky = true) ∧
        (r.bank0.ok = false → r.bank1.ok = false → u.recd.newest = r.newest ∧ u.recd.queue = rest ∧
          u.recd.gasp = gaspPush ⟨aonOf v q, q.code, q.source, q.data⟩ r.gasp)) ∧
    (∀ b, r.resync = some b → ∃ u, exec (.bankResyncComplete t) s = .next u ∧ u.recd.resync = none ∧
      (b = 0 → u.recd.bank0.ring = r.bank1.ring ∧ u.recd.bank0.firsts = r.bank1.firsts ∧ u.recd.bank0.sticky = false) ∧
      (b ≠ 0 → u.recd.bank1.ring = r.bank0.ring ∧ u.recd.bank1.firsts = r.bank0.firsts ∧ u.recd.bank1.sticky = false)) ∧
    (∀ addr, domainOn v 3 = true → ∃ u, exec (.sramCorrectedError t addr) s = .next u ∧ u.sram.count = v.sram.count + 1 ∧
      (Tbl.find v.sram.corrected addr = none → u.sram.used = v.sram.used ∧
        Tbl.find u.sram.corrected addr = some v.now) ∧
      (∀ c, Tbl.find v.sram.corrected addr = some c → v.now - c < 86400000000000 → v.sram.used < 16 →
        u.sram.remapped = addr / 4096 :: v.sram.remapped ∧ u.sram.used = v.sram.used + 1) ∧
      (∀ c, Tbl.find v.sram.corrected addr = some c → v.now - c < 86400000000000 → 16 ≤ v.sram.used →
        u.sram.empty = true ∧ u.prog.mode = .stop)) ∧
    (∀ addr safety, domainOn v 3 = true → ∃ u, exec (.sramUncorrectableError t addr safety) s = .next u ∧
      (v.sram.used < 16 → u.sram.remapped = addr / 4096 :: v.sram.remapped) ∧
      (v.pair.state = .active → partnerQualifies v = true → v.pair.handing = none → (u.pair.handing.map Handing.trigger) = some 5 ∧
        u.sram.uncorrectable = true) ∧
      (v.pair.state ≠ .active → up u = false)) ∧
    (v.pair.state = .tracking → v.sram.scrubbed + 60000000000 ≤ v.now →
      exec (.sramScrub t) s = .next { v with sram := { v.sram with scrubbed := v.now } })

/-- The frame of every command, by the parts of the state: `touches` names, row by row, the parts it may change
beside the clock. -/
def Obligations.CommandsLeaveOtherPartsAlone : Prop :=
  ∀ (i : Instr) (s t : State), exec i s = .next t → Untouched (.now :: .pair :: touches i) s t

/-- The frame within the tables of resources: 06 R152, 11 R261, R275, 12 R293, R299, R301, 13 R310, R312, 14 R349, 15 R367,
R373. -/
def Obligations.EventsChangeOnlyTheirOwnResource : Prop :=
  ∀ (t : Nat) (s u : State),
    (∀ (ch : Fin 96) (mv ua : Nat) (temp : Int) (i : Instr), i ∈ [.diEdgeAccepted t ch mv ua, .outputRetry t ch temp,
      .openLoad t ch ua, .externalDrive t ch mv, .timedEdge t ch, .pulseEnd t ch] →
      exec i s = .next u → ∀ k, k ≠ ch.val → getDio u k = getDio s k) ∧
    (∀ (ch : Fin 32) (code : Int) (env : ConvEnv) (cond : AoCond) (b : Bool) (i : Instr), i ∈ [.aioConversion t ch code env,
      .aioLinkSilence t ch, .aoCondition t ch cond b] →
      exec i s = .next u → ∀ k, k ≠ ch.val → getAio u k = getAio s k) ∧
    (∀ (ch : Fin 32), exec (.aoUpdate t ch) s = .next u →
      ∀ k, k ≠ ch.val → getAio u k = getAio (loopsRelease (advance t s)) k) ∧
    (∀ (n : Fin 24) (temp : Int) (i : Instr), i ∈ [.homeTimeout t n, .holdDelay t n, .driveRetry t n temp,
      .driveLinkSilence t n] → exec i s = .next u → ∀ k, k ≠ n.val → getAxis u k = getAxis s k) ∧
    (∀ (p : Fin 8), exec (.autobaudDwell t p) s = .next u → u.can.bufs = s.can.bufs ∧
      ∀ k, k ≠ p.val → getPort u k = getPort s k) ∧
    (∀ (p : Fin 8) (b : Fin 128), exec (.canRxTimeout t p b) s = .next u → u.can.ports = s.can.ports ∧
      ∀ k c : Nat, c < 128 → (k ≠ p.val ∨ c ≠ b.val) → getBuf u k c = getBuf s k c) ∧
    (∀ (n : Fin 8) (i : Instr), i ∈ [.encoderStill t n, .trackerSourceLoss t n, .coastExpiry t n] →
      exec i s = .next u → u.cad.slots = s.cad.slots ∧ ∀ k, k ≠ n.val → getTracker u k = getTracker s k) ∧
    (∀ (n : Fin 256), exec (.slotFire t n) s = .next u → ∀ k, k ≠ n.val → getSched u k = getSched s k) ∧
    (∀ (n : Fin 2) (i : Instr), i ∈ [.scCommand t n, .scPulseEnd t n, .scArmTimeout t n] → exec i s = .next u →
      u.cad.trackers = s.cad.trackers ∧ ∀ k, k ≠ n.val → getSc u k = getSc s k) ∧
    (∀ (n : Fin 1024), ∃ w, exec (.loopRelease t n) s = .next w ∧ ∀ k, k ≠ n.val → getLoop w k = getLoop s k) ∧
    (∀ (n : Fin 1024), ∃ w, exec (.cadTimeout t n) s = .next w ∧
      ∀ k, k ≠ n.val → k ∉ unitOf s n → getLoop w k = getLoop s k) ∧
    (∀ (j : Fin 32) (b : Fin 2) (high : Bool), exec (.siAccepted t j b high) s = .next u →
      ∀ k, k ≠ j.val → getTerm u k = getTerm s k) ∧
    (∀ (n : Fin 8) (b : Bool) (i : Instr), i ∈ [.testPulseDark t n, .blankEnd t n, .tpOverload t n, .tpRetry t n b,
      .tpTakeover t n] → exec i s = .next u → u.sio.stages = s.sio.stages ∧ ∀ k, k ≠ n.val → getTp u k = getTp s k) ∧
    (∀ (n : Fin 8) (a b : Bool) (i : Instr), i ∈ [.offTest t n a, .offTestEnd t n a b, .soOvercurrent t n,
      .soExternalDrive t n a, .feedbackTimeout t n] → exec i s = .next u →
      u.sio.terms = s.sio.terms ∧ ∀ k, k ≠ n.val → getStage u k = getStage s k)

/-- 18 R438: SRAM pages are never re-admitted, and a spare is used once. -/
def Obligations.RemappedPagesStayRemapped : Prop :=
  ∀ (i : Instr) (s t : State), exec i s = .next t →
    s.sram.remapped <:+ t.sram.remapped ∧ (∀ p ∈ s.sram.remapped, p ∈ t.sram.remapped) ∧ s.sram.used ≤ t.sram.used

/-- 08 R187: an abandoned cycle is never committed, and the next one starts from the state before it. -/
def Obligations.AbandonedCyclesLeaveNoTrace : Prop :=
  (∀ (k : Nat) (s : State),
    let u := abandonCycle k s
    (getTask u k).cycle = none ∧ u.img = s.img ∧ u.can = s.can ∧ u.prog.released = s.prog.released ∧
      u.prog.inst = s.prog.inst ∧ u.prog.glob = s.prog.glob ∧ u.prog.ret = s.prog.ret ∧ u.prog.blocks = s.prog.blocks ∧
      ∀ clock step, let c := newCycle u k clock step
        c = newCycle s k clock step ∧
          (heldCycles s k = [] → c.snapGlobals = s.prog.glob ∧ c.snapRetained = s.prog.ret) ∧
          c.wInst = [] ∧ c.wGlob = [] ∧ c.wRet = [] ∧ c.wBlocks = [] ∧ c.out = []) ∧
  (∀ (t arg : Nat) (k : Fin 48) (c : Cycle) (s : State),
    let v := noteStart (.task k) (advance t s)
    ctxCycle v (.task k) = some c → atWord (advance t s) (.task k) (sysWord 3 arg) = true → faultStops v k = false →
    ∃ u, exec (.sysTrap t (.task k) arg) s = .next u ∧ (getTask u k).cycle = none ∧ u.img = v.img ∧
      u.prog.released = v.prog.released ∧ u.prog.inst = v.prog.inst ∧ u.prog.glob = v.prog.glob ∧ u.prog.ret = v.prog.ret ∧
      u.prog.blocks = v.prog.blocks)

/-- 18 R444: a synchro-check instance and its close output. -/
def Obligations.SynchroCheckEndsWithItsCloseOutput : Prop :=
  (∀ (t : Nat) (i : Fin 2) (c : Cmd) (s : State),
    let v := served (found t s) c.hdr.session
    c.rest = [] → writeHeard (found t s) c (0x38C0 + i) 0x0B [1] = true → (getSc v (1 - i)).state ≠ .armed →
    dioRetired v (cfgNat v (0x38C0 + i) 3) = true →
    exec (.scArmTrue t i c) s = .next (respond (found t s) c.hdr svcWrite (.error ⟨4, 0x38, 5, 0x38C0 + i, 0x0B, 0⟩) v)) ∧
  (∀ (ch : Nat) (s : State),
    let u := retireDio ch s
    (getDio u ch).on = false ∧ (getDio u ch).command = false ∧ (getDio u ch).pulseEnd = none ∧
    ∀ i : Fin 2, cfgNat s (0x38C0 + i) 3 = ch → (getSc s i).state = .armed ∨ (getSc s i).state = .closing →
      (getSc u i).state = .aborted ∧ (getSc u i).arm = false)

/-- The state after reset: 04 R70 (defaults), 08 R189 (STOP), 18 R436, R438 (the lists), Tables 6.11 to 6.14. -/
def Obligations.ResetLeavesWhatTheTablesGive : Prop :=
  let s := State.reset
  s.pending = [] ∧ s.outbox = [] ∧ s.config = [] ∧ s.retired = [] ∧ s.sram.remapped = [] ∧ s.sram.used = 0 ∧
    s.recd.queue = [] ∧ s.recd.gasp = [] ∧ s.sess.leases = [] ∧ (∀ n, (getSession s n).state = 0) ∧ s.prog.mode = .stop ∧
    s.clk.state = .free ∧ cfgBytes s 0x2200 1 = [255] ∧
    (∀ n : Fin 8, trkMode s n = 0 ∧ trkQuanta s n = 16384 ∧ cfgNat s (0x3800 + n) 8 = 20 ∧ (getTracker s n).state = .off) ∧
    (∀ i : Fin 2, cfgNat s (0x38C0 + i) 4 = 80 ∧ cfgNat s (0x38C0 + i) 3 = 0xFF ∧ (getSc s i).state = .idle) ∧
    (∀ k : Nat, (getDio s k).on = false ∧ (getTask s k).cycle = none)
end

