-- ==== Sys2Proof/Laws/Tbl.lean ====
section
/-! SUPPORT. Sparse tables: reading what was written, and the canonical form that every operation keeps. -/

set_option Elab.async false

namespace Sys2Proof

variable {α : Type}

@[simp] theorem Tbl.find_nil (k : Nat) : Tbl.find ([] : Tbl α) k = none := rfl

theorem Tbl.find_insert (m : Tbl α) (k j : Nat) (v : α) :
    Tbl.find (Tbl.insert m k v) j = if j = k then some v else Tbl.find m j := by
  induction m with
  | nil => simp only [Tbl.insert, Tbl.find, eq_comm]
  | cons e r ih =>
    obtain ⟨i, w⟩ := e
    simp only [Tbl.insert]
    split
    · simp only [Tbl.find, eq_comm (a := k)]
    · split
      · rename_i h; subst h; simp only [Tbl.find, eq_comm (a := k)]; split <;> rfl
      · rename_i h; simp only [Tbl.find, ih]; split
        · rename_i g; rw [if_neg (by omega)]
        · rfl

theorem Tbl.find_erase (m : Tbl α) (k j : Nat) :
    Tbl.find (Tbl.erase m k) j = if j = k then none else Tbl.find m j := by
  induction m with
  | nil => simp [Tbl.erase, Tbl.find]
  | cons e r ih =>
    obtain ⟨i, w⟩ := e
    simp only [Tbl.erase] at ih ⊢
    by_cases h : i = k
    · subst h
      simp only [List.filter_cons, bne_self_eq_false, Bool.false_eq_true, if_false, ih, Tbl.find]
      split <;> simp_all [eq_comm]
    · have h' : (i != k) = true := by simpa using h
      simp only [List.filter_cons, h', if_true, Tbl.find, ih]
      split <;> split <;> simp_all

/-- A read after a write: the value written at its key, what stood there at every other. -/
@[simp] theorem Tbl.get_put [DecidableEq α] (m : Tbl α) (d : α) (k j : Nat) (v : α) :
    Tbl.get (Tbl.put m d k v) d j = if j = k then v else Tbl.get m d j := by
  simp only [Tbl.get, Tbl.put]
  split
  · rename_i h; rw [Tbl.find_erase]; split <;> simp_all
  · rw [Tbl.find_insert]; split <;> simp_all

@[simp] theorem Tbl.get_modify [DecidableEq α] (m : Tbl α) (d : α) (k j : Nat) (f : α → α) :
    Tbl.get (Tbl.modify m d k f) d j = if j = k then f (Tbl.get m d k) else Tbl.get m d j := Tbl.get_put ..

/-- Every key of a table lies above `n`. -/
def Tbl.above (n : Nat) (m : Tbl α) : Prop := ∀ e ∈ m, n < e.1

theorem Tbl.rising_cons (k : Nat) (v : α) (m : Tbl α) :
    Tbl.rising ((k, v) :: m) = true ↔ Tbl.above k m ∧ Tbl.rising m = true := by
  induction m generalizing k v with
  | nil => simp [Tbl.rising, Tbl.above]
  | cons e r ih =>
    obtain ⟨j, w⟩ := e
    simp only [Tbl.rising, Bool.and_eq_true, decide_eq_true_eq, Tbl.above, List.mem_cons, forall_eq_or_imp]
    constructor
    · rintro ⟨h1, h2⟩
      have := (ih j w).1 h2
      exact ⟨⟨h1, fun e he => Nat.lt_trans h1 (this.1 e he)⟩, h2⟩
    · rintro ⟨⟨h1, _⟩, h2⟩; exact ⟨h1, h2⟩

theorem Tbl.mem_insert {m : Tbl α} {k : Nat} {v : α} {e : Nat × α} (h : e ∈ Tbl.insert m k v) : e = (k, v) ∨ e ∈ m := by
  induction m with
  | nil => simpa [Tbl.insert] using h
  | cons x r ih =>
    simp only [Tbl.insert] at h
    split at h
    · simpa using h
    · split at h
      · rcases List.mem_cons.1 h with h | h
        · exact .inl h
        · exact .inr (List.mem_cons_of_mem _ h)
      · rcases List.mem_cons.1 h with h | h
        · exact .inr (h ▸ List.mem_cons_self ..)
        · rcases ih h with h | h
          · exact .inl h
          · exact .inr (List.mem_cons_of_mem _ h)

theorem Tbl.rising_insert (m : Tbl α) (k : Nat) (v : α) (h : Tbl.rising m = true) : Tbl.rising (Tbl.insert m k v) = true := by
  induction m with
  | nil => rfl
  | cons x r ih =>
    obtain ⟨j, w⟩ := x
    have hr := (Tbl.rising_cons j w r).1 h
    simp only [Tbl.insert]
    split
    · rename_i hk
      refine (Tbl.rising_cons ..).2 ⟨?_, h⟩
      intro e he
      rcases List.mem_cons.1 he with rfl | he
      · exact hk
      · exact Nat.lt_trans hk (hr.1 e he)
    · split
      · rename_i hk; subst hk; exact (Tbl.rising_cons ..).2 hr
      · rename_i h1 h2
        refine (Tbl.rising_cons ..).2 ⟨?_, ih hr.2⟩
        intro e he
        rcases Tbl.mem_insert he with rfl | he
        · exact Nat.lt_of_le_of_ne (Nat.not_lt.1 h1) (fun x => h2 x.symm)
        · exact hr.1 e he

theorem Tbl.rising_filter (m : Tbl α) (p : Nat × α → Bool) (h : Tbl.rising m = true) : Tbl.rising (m.filter p) = true := by
  induction m with
  | nil => rfl
  | cons x r ih =>
    obtain ⟨j, w⟩ := x
    have hr := (Tbl.rising_cons j w r).1 h
    rw [List.filter_cons]
    split
    · exact (Tbl.rising_cons ..).2 ⟨fun e he => hr.1 e ((List.mem_filter.1 he).1), ih hr.2⟩
    · exact ih hr.2

/-- A write keeps the canonical form. -/
theorem Tbl.wf_put [DecidableEq α] (m : Tbl α) (d : α) (k : Nat) (v : α) (h : Tbl.wf d m = true) :
    Tbl.wf d (Tbl.put m d k v) = true := by
  simp only [Tbl.wf, Bool.and_eq_true, List.all_eq_true, decide_eq_true_eq] at h ⊢
  simp only [Tbl.put]
  split
  · exact ⟨Tbl.rising_filter m _ h.1, fun e he => h.2 e ((List.mem_filter.1 he).1)⟩
  · rename_i hv
    refine ⟨Tbl.rising_insert m k v h.1, fun e he => ?_⟩
    rcases Tbl.mem_insert he with rfl | he
    · exact hv
    · exact h.2 e he

theorem Tbl.wf_modify [DecidableEq α] (m : Tbl α) (d : α) (k : Nat) (f : α → α) (h : Tbl.wf d m = true) :
    Tbl.wf d (Tbl.modify m d k f) = true := Tbl.wf_put m d k _ h

/-! ### Byte stores -/

@[simp] theorem Memory.read_write (m : Memory) (a j : Nat) (b : Byte) :
    Memory.read (Memory.write m a b) j = if j = a then b else Memory.read m j := Tbl.get_put ..

theorem Memory.wf_nil : Memory.wf [] = true := rfl

theorem Memory.wf_write (m : Memory) (a : Nat) (b : Byte) (h : Memory.wf m = true) : Memory.wf (Memory.write m a b) = true :=
  Tbl.wf_put m 0 a b h

theorem Memory.wf_writeN (bs : List Byte) : ∀ (m : Memory) (a : Nat), Memory.wf m = true → Memory.wf (Memory.writeN m a bs) = true := by
  induction bs with
  | nil => intro m a h; exact h
  | cons b r ih => intro m a h; exact ih _ _ (Memory.wf_write m a b h)

theorem Memory.wf_foldl {α : Type} (f : Memory → α → Memory) (hf : ∀ m x, Memory.wf m = true → Memory.wf (f m x) = true)
    (l : List α) : ∀ m, Memory.wf m = true → Memory.wf (l.foldl f m) = true := by
  induction l with
  | nil => intro m h; exact h
  | cons x r ih => intro m h; exact ih _ (hf m x h)

theorem Memory.wf_norm (m : Memory) : Memory.wf (Memory.norm m) = true :=
  Memory.wf_foldl _ (fun m e h => Memory.wf_write m e.1 e.2 h) m [] Memory.wf_nil

/-- Reading after a write of several bytes. -/
theorem Memory.read_writeN (bs : List Byte) : ∀ (m : Memory) (a j : Nat),
    Memory.read (Memory.writeN m a bs) j = if a ≤ j ∧ j < a + bs.length then bs.getD (j - a) 0 else Memory.read m j := by
  induction bs with
  | nil => intro m a j; simp only [Memory.writeN, List.length_nil]; rw [if_neg (by omega)]
  | cons b r ih =>
    intro m a j
    simp only [Memory.writeN, ih, Memory.read_write, List.length_cons]
    by_cases h1 : j = a
    · subst h1
      rw [if_neg (by omega), if_pos rfl, if_pos (by omega)]; simp
    · by_cases h2 : a + 1 ≤ j ∧ j < a + 1 + r.length
      · rw [if_pos h2, if_pos (by omega)]
        obtain ⟨n, hn⟩ : ∃ n, j - a = n + 1 := ⟨j - a - 1, by omega⟩
        have : j - (a + 1) = n := by omega
        rw [hn, this]; simp
      · rw [if_neg h2, if_neg h1, if_neg (by omega)]

end Sys2Proof
end

