-- ==== Sys2Proof/Laws/State.lean ====
section
/-! SUPPORT. What each update of the state leaves as it was, field by field, and what it makes of the field it writes. -/

set_option Elab.async false

namespace Sys2Proof.Machine

@[simp] theorem advance_fields (t : Nat) (s : State) :
    (advance t s).pending = s.pending ∧ (advance t s).freeN = s.freeN ∧ (advance t s).outbox = s.outbox ∧
    (advance t s).config = s.config ∧ (advance t s).clk = s.clk ∧ (advance t s).pwr = s.pwr ∧ (advance t s).sess = s.sess ∧
    (advance t s).img = s.img ∧ (advance t s).prog = s.prog ∧ (advance t s).eng = s.eng ∧ (advance t s).cad = s.cad ∧
    (advance t s).ring = s.ring ∧ (advance t s).dio = s.dio ∧ (advance t s).aio = s.aio ∧ (advance t s).mot = s.mot ∧
    (advance t s).can = s.can ∧ (advance t s).safe = s.safe ∧ (advance t s).sio = s.sio ∧ (advance t s).recd = s.recd ∧
    (advance t s).mgmt = s.mgmt ∧ (advance t s).retired = s.retired ∧ (advance t s).sram = s.sram :=
  ⟨rfl, rfl, rfl, rfl, rfl, rfl, rfl, rfl, rfl, rfl, rfl, rfl, rfl, rfl, rfl, rfl, rfl, rfl, rfl, rfl, rfl, rfl⟩

@[simp] theorem setRate_fields (r : Int) (s : State) :
    (setRate r s).pending = s.pending ∧ (setRate r s).now = s.now ∧ (setRate r s).freeN = s.freeN ∧
    (setRate r s).outbox = s.outbox ∧ (setRate r s).config = s.config ∧ (setRate r s).pwr = s.pwr ∧
    (setRate r s).sess = s.sess ∧ (setRate r s).img = s.img ∧ (setRate r s).prog = s.prog ∧ (setRate r s).eng = s.eng ∧
    (setRate r s).cad = s.cad ∧ (setRate r s).ring = s.ring ∧ (setRate r s).dio = s.dio ∧ (setRate r s).aio = s.aio ∧
    (setRate r s).mot = s.mot ∧ (setRate r s).can = s.can ∧ (setRate r s).safe = s.safe ∧ (setRate r s).sio = s.sio ∧
    (setRate r s).pair = s.pair ∧ (setRate r s).recd = s.recd ∧ (setRate r s).mgmt = s.mgmt ∧
    (setRate r s).retired = s.retired ∧ (setRate r s).sram = s.sram :=
  ⟨rfl, rfl, rfl, rfl, rfl, rfl, rfl, rfl, rfl, rfl, rfl, rfl, rfl, rfl, rfl, rfl, rfl, rfl, rfl, rfl, rfl, rfl, rfl⟩

@[simp] theorem stepTime_fields (d : Int) (s : State) :
    (stepTime d s).pending = s.pending ∧ (stepTime d s).now = s.now ∧ (stepTime d s).freeN = s.freeN ∧
    (stepTime d s).outbox = s.outbox ∧ (stepTime d s).config = s.config ∧ (stepTime d s).pwr = s.pwr ∧
    (stepTime d s).sess = s.sess ∧ (stepTime d s).img = s.img ∧ (stepTime d s).eng = s.eng ∧ (stepTime d s).cad = s.cad ∧
    (stepTime d s).ring = s.ring ∧ (stepTime d s).dio = s.dio ∧ (stepTime d s).aio = s.aio ∧ (stepTime d s).mot = s.mot ∧
    (stepTime d s).can = s.can ∧ (stepTime d s).safe = s.safe ∧ (stepTime d s).sio = s.sio ∧ (stepTime d s).pair = s.pair ∧
    (stepTime d s).recd = s.recd ∧ (stepTime d s).mgmt = s.mgmt ∧ (stepTime d s).retired = s.retired ∧
    (stepTime d s).sram = s.sram :=
  ⟨rfl, rfl, rfl, rfl, rfl, rfl, rfl, rfl, rfl, rfl, rfl, rfl, rfl, rfl, rfl, rfl, rfl, rfl, rfl, rfl, rfl, rfl⟩

@[simp] theorem setCfg_fields (i j : Nat) (v : List Byte) (s : State) :
    (setCfg i j v s).pending = s.pending ∧ (setCfg i j v s).now = s.now ∧ (setCfg i j v s).freeN = s.freeN ∧
    (setCfg i j v s).outbox = s.outbox ∧ (setCfg i j v s).clk = s.clk ∧ (setCfg i j v s).pwr = s.pwr ∧
    (setCfg i j v s).sess = s.sess ∧ (setCfg i j v s).img = s.img ∧ (setCfg i j v s).prog = s.prog ∧
    (setCfg i j v s).eng = s.eng ∧ (setCfg i j v s).cad = s.cad ∧ (setCfg i j v s).ring = s.ring ∧
    (setCfg i j v s).dio = s.dio ∧ (setCfg i j v s).aio = s.aio ∧ (setCfg i j v s).mot = s.mot ∧
    (setCfg i j v s).can = s.can ∧ (setCfg i j v s).safe = s.safe ∧ (setCfg i j v s).sio = s.sio ∧
    (setCfg i j v s).pair = s.pair ∧ (setCfg i j v s).recd = s.recd ∧ (setCfg i j v s).mgmt = s.mgmt ∧
    (setCfg i j v s).retired = s.retired ∧ (setCfg i j v s).sram = s.sram :=
  ⟨rfl, rfl, rfl, rfl, rfl, rfl, rfl, rfl, rfl, rfl, rfl, rfl, rfl, rfl, rfl, rfl, rfl, rfl, rfl, rfl, rfl, rfl, rfl⟩

@[simp] theorem send_fields (x : Sent) (s : State) :
    (send x s).pending = s.pending ∧ (send x s).now = s.now ∧ (send x s).freeN = s.freeN ∧ (send x s).config = s.config ∧
    (send x s).clk = s.clk ∧ (send x s).pwr = s.pwr ∧ (send x s).sess = s.sess ∧ (send x s).img = s.img ∧
    (send x s).prog = s.prog ∧ (send x s).eng = s.eng ∧ (send x s).cad = s.cad ∧ (send x s).dio = s.dio ∧
    (send x s).aio = s.aio ∧ (send x s).mot = s.mot ∧ (send x s).can = s.can ∧ (send x s).safe = s.safe ∧
    (send x s).sio = s.sio ∧ (send x s).pair = s.pair ∧ (send x s).recd = s.recd ∧ (send x s).mgmt = s.mgmt ∧
    (send x s).retired = s.retired ∧ (send x s).sram = s.sram :=
  ⟨rfl, rfl, rfl, rfl, rfl, rfl, rfl, rfl, rfl, rfl, rfl, rfl, rfl, rfl, rfl, rfl, rfl, rfl, rfl, rfl, rfl, rfl⟩

@[simp] theorem sendSync_fields (k : Nat) (c : List Nat) (s : State) :
    (sendSync k c s).pending = s.pending ∧ (sendSync k c s).now = s.now ∧ (sendSync k c s).freeN = s.freeN ∧
    (sendSync k c s).config = s.config ∧ (sendSync k c s).clk = s.clk ∧ (sendSync k c s).pwr = s.pwr ∧
    (sendSync k c s).sess = s.sess ∧ (sendSync k c s).img = s.img ∧ (sendSync k c s).prog = s.prog ∧
    (sendSync k c s).eng = s.eng ∧ (sendSync k c s).cad = s.cad ∧ (sendSync k c s).dio = s.dio ∧
    (sendSync k c s).aio = s.aio ∧ (sendSync k c s).mot = s.mot ∧ (sendSync k c s).can = s.can ∧
    (sendSync k c s).safe = s.safe ∧ (sendSync k c s).sio = s.sio ∧ (sendSync k c s).recd = s.recd ∧
    (sendSync k c s).mgmt = s.mgmt ∧ (sendSync k c s).retired = s.retired ∧ (sendSync k c s).sram = s.sram :=
  ⟨rfl, rfl, rfl, rfl, rfl, rfl, rfl, rfl, rfl, rfl, rfl, rfl, rfl, rfl, rfl, rfl, rfl, rfl, rfl, rfl, rfl⟩

@[simp] theorem sendAck_fields (q r : Nat) (s : State) :
    (sendAck q r s).pending = s.pending ∧ (sendAck q r s).now = s.now ∧ (sendAck q r s).freeN = s.freeN ∧
    (sendAck q r s).config = s.config ∧ (sendAck q r s).clk = s.clk ∧ (sendAck q r s).pwr = s.pwr ∧
    (sendAck q r s).sess = s.sess ∧ (sendAck q r s).img = s.img ∧ (sendAck q r s).prog = s.prog ∧
    (sendAck q r s).eng = s.eng ∧ (sendAck q r s).cad = s.cad ∧ (sendAck q r s).dio = s.dio ∧ (sendAck q r s).aio = s.aio ∧
    (sendAck q r s).mot = s.mot ∧ (sendAck q r s).can = s.can ∧ (sendAck q r s).safe = s.safe ∧
    (sendAck q r s).sio = s.sio ∧ (sendAck q r s).recd = s.recd ∧ (sendAck q r s).mgmt = s.mgmt ∧
    (sendAck q r s).retired = s.retired ∧ (sendAck q r s).sram = s.sram :=
  ⟨rfl, rfl, rfl, rfl, rfl, rfl, rfl, rfl, rfl, rfl, rfl, rfl, rfl, rfl, rfl, rfl, rfl, rfl, rfl, rfl, rfl⟩

@[simp] theorem releasePoint_fields (p : Nat) (v : BitVec 32) (s : State) :
    (releasePoint p v s).pending = s.pending ∧ (releasePoint p v s).now = s.now ∧ (releasePoint p v s).freeN = s.freeN ∧
    (releasePoint p v s).outbox = s.outbox ∧ (releasePoint p v s).config = s.config ∧ (releasePoint p v s).clk = s.clk ∧
    (releasePoint p v s).pwr = s.pwr ∧ (releasePoint p v s).sess = s.sess ∧ (releasePoint p v s).img = s.img ∧
    (releasePoint p v s).eng = s.eng ∧ (releasePoint p v s).cad = s.cad ∧ (releasePoint p v s).ring = s.ring ∧
    (releasePoint p v s).dio = s.dio ∧ (releasePoint p v s).aio = s.aio ∧ (releasePoint p v s).mot = s.mot ∧
    (releasePoint p v s).can = s.can ∧ (releasePoint p v s).safe = s.safe ∧ (releasePoint p v s).sio = s.sio ∧
    (releasePoint p v s).pair = s.pair ∧ (releasePoint p v s).recd = s.recd ∧ (releasePoint p v s).mgmt = s.mgmt ∧
    (releasePoint p v s).retired = s.retired ∧ (releasePoint p v s).sram = s.sram :=
  ⟨rfl, rfl, rfl, rfl, rfl, rfl, rfl, rfl, rfl, rfl, rfl, rfl, rfl, rfl, rfl, rfl, rfl, rfl, rfl, rfl, rfl, rfl, rfl⟩

@[simp] theorem cmdStart_fields (c n : Nat) (s : State) :
    (cmdStart c n s).pending = s.pending ∧ (cmdStart c n s).now = s.now ∧ (cmdStart c n s).freeN = s.freeN ∧
    (cmdStart c n s).outbox = s.outbox ∧ (cmdStart c n s).config = s.config ∧ (cmdStart c n s).clk = s.clk ∧
    (cmdStart c n s).pwr = s.pwr ∧ (cmdStart c n s).img = s.img ∧ (cmdStart c n s).prog = s.prog ∧
    (cmdStart c n s).eng = s.eng ∧ (cmdStart c n s).cad = s.cad ∧ (cmdStart c n s).ring = s.ring ∧
    (cmdStart c n s).dio = s.dio ∧ (cmdStart c n s).aio = s.aio ∧ (cmdStart c n s).mot = s.mot ∧
    (cmdStart c n s).can = s.can ∧ (cmdStart c n s).safe = s.safe ∧ (cmdStart c n s).sio = s.sio ∧
    (cmdStart c n s).pair = s.pair ∧ (cmdStart c n s).recd = s.recd ∧ (cmdStart c n s).mgmt = s.mgmt ∧
    (cmdStart c n s).retired = s.retired ∧ (cmdStart c n s).sram = s.sram :=
  ⟨rfl, rfl, rfl, rfl, rfl, rfl, rfl, rfl, rfl, rfl, rfl, rfl, rfl, rfl, rfl, rfl, rfl, rfl, rfl, rfl, rfl, rfl, rfl⟩

@[simp] theorem cmdDone_fields (c : Nat) (r : List Byte) (s : State) :
    (cmdDone c r s).pending = s.pending ∧ (cmdDone c r s).now = s.now ∧ (cmdDone c r s).freeN = s.freeN ∧
    (cmdDone c r s).outbox = s.outbox ∧ (cmdDone c r s).config = s.config ∧ (cmdDone c r s).clk = s.clk ∧
    (cmdDone c r s).pwr = s.pwr ∧ (cmdDone c r s).img = s.img ∧ (cmdDone c r s).prog = s.prog ∧
    (cmdDone c r s).eng = s.eng ∧ (cmdDone c r s).cad = s.cad ∧ (cmdDone c r s).ring = s.ring ∧
    (cmdDone c r s).dio = s.dio ∧ (cmdDone c r s).aio = s.aio ∧ (cmdDone c r s).mot = s.mot ∧ (cmdDone c r s).can = s.can ∧
    (cmdDone c r s).safe = s.safe ∧ (cmdDone c r s).sio = s.sio ∧ (cmdDone c r s).pair = s.pair ∧
    (cmdDone c r s).recd = s.recd ∧ (cmdDone c r s).mgmt = s.mgmt ∧ (cmdDone c r s).retired = s.retired ∧
    (cmdDone c r s).sram = s.sram :=
  ⟨rfl, rfl, rfl, rfl, rfl, rfl, rfl, rfl, rfl, rfl, rfl, rfl, rfl, rfl, rfl, rfl, rfl, rfl, rfl, rfl, rfl, rfl, rfl⟩

@[simp] theorem cmdFail_fields (c : Nat) (a : Abort) (s : State) :
    (cmdFail c a s).pending = s.pending ∧ (cmdFail c a s).now = s.now ∧ (cmdFail c a s).freeN = s.freeN ∧
    (cmdFail c a s).outbox = s.outbox ∧ (cmdFail c a s).config = s.config ∧ (cmdFail c a s).clk = s.clk ∧
    (cmdFail c a s).pwr = s.pwr ∧ (cmdFail c a s).img = s.img ∧ (cmdFail c a s).prog = s.prog ∧
    (cmdFail c a s).eng = s.eng ∧ (cmdFail c a s).cad = s.cad ∧ (cmdFail c a s).ring = s.ring ∧
    (cmdFail c a s).dio = s.dio ∧ (cmdFail c a s).aio = s.aio ∧ (cmdFail c a s).mot = s.mot ∧ (cmdFail c a s).can = s.can ∧
    (cmdFail c a s).safe = s.safe ∧ (cmdFail c a s).sio = s.sio ∧ (cmdFail c a s).pair = s.pair ∧
    (cmdFail c a s).recd = s.recd ∧ (cmdFail c a s).mgmt = s.mgmt ∧ (cmdFail c a s).retired = s.retired ∧
    (cmdFail c a s).sram = s.sram :=
  ⟨rfl, rfl, rfl, rfl, rfl, rfl, rfl, rfl, rfl, rfl, rfl, rfl, rfl, rfl, rfl, rfl, rfl, rfl, rfl, rfl, rfl, rfl, rfl⟩

@[simp] theorem keepDirect_fields (i j : Nat) (v : List Byte) (s : State) :
    (keepDirect i j v s).pending = s.pending ∧ (keepDirect i j v s).now = s.now ∧ (keepDirect i j v s).freeN = s.freeN ∧
    (keepDirect i j v s).outbox = s.outbox ∧ (keepDirect i j v s).clk = s.clk ∧ (keepDirect i j v s).pwr = s.pwr ∧
    (keepDirect i j v s).img = s.img ∧ (keepDirect i j v s).prog = s.prog ∧ (keepDirect i j v s).eng = s.eng ∧
    (keepDirect i j v s).cad = s.cad ∧ (keepDirect i j v s).ring = s.ring ∧ (keepDirect i j v s).dio = s.dio ∧
    (keepDirect i j v s).aio = s.aio ∧ (keepDirect i j v s).mot = s.mot ∧ (keepDirect i j v s).can = s.can ∧
    (keepDirect i j v s).safe = s.safe ∧ (keepDirect i j v s).sio = s.sio ∧ (keepDirect i j v s).pair = s.pair ∧
    (keepDirect i j v s).recd = s.recd ∧ (keepDirect i j v s).mgmt = s.mgmt ∧ (keepDirect i j v s).retired = s.retired ∧
    (keepDirect i j v s).sram = s.sram :=
  ⟨rfl, rfl, rfl, rfl, rfl, rfl, rfl, rfl, rfl, rfl, rfl, rfl, rfl, rfl, rfl, rfl, rfl, rfl, rfl, rfl, rfl, rfl⟩

@[simp] theorem writeFlashDue_fields (s : State) :
    (writeFlashDue s).pending = s.pending ∧ (writeFlashDue s).now = s.now ∧ (writeFlashDue s).freeN = s.freeN ∧
    (writeFlashDue s).outbox = s.outbox ∧ (writeFlashDue s).config = s.config ∧ (writeFlashDue s).clk = s.clk ∧
    (writeFlashDue s).pwr = s.pwr ∧ (writeFlashDue s).img = s.img ∧ (writeFlashDue s).prog = s.prog ∧
    (writeFlashDue s).eng = s.eng ∧ (writeFlashDue s).cad = s.cad ∧ (writeFlashDue s).ring = s.ring ∧
    (writeFlashDue s).dio = s.dio ∧ (writeFlashDue s).aio = s.aio ∧ (writeFlashDue s).mot = s.mot ∧
    (writeFlashDue s).can = s.can ∧ (writeFlashDue s).safe = s.safe ∧ (writeFlashDue s).sio = s.sio ∧
    (writeFlashDue s).pair = s.pair ∧ (writeFlashDue s).recd = s.recd ∧ (writeFlashDue s).mgmt = s.mgmt ∧
    (writeFlashDue s).retired = s.retired ∧ (writeFlashDue s).sram = s.sram :=
  ⟨rfl, rfl, rfl, rfl, rfl, rfl, rfl, rfl, rfl, rfl, rfl, rfl, rfl, rfl, rfl, rfl, rfl, rfl, rfl, rfl, rfl, rfl, rfl⟩

@[simp] theorem modDio_fields (n : Nat) (f : Dio → Dio) (s : State) :
    (modDio n f s).pending = s.pending ∧ (modDio n f s).now = s.now ∧ (modDio n f s).freeN = s.freeN ∧
    (modDio n f s).outbox = s.outbox ∧ (modDio n f s).config = s.config ∧ (modDio n f s).clk = s.clk ∧
    (modDio n f s).pwr = s.pwr ∧ (modDio n f s).sess = s.sess ∧ (modDio n f s).img = s.img ∧ (modDio n f s).prog = s.prog ∧
    (modDio n f s).eng = s.eng ∧ (modDio n f s).cad = s.cad ∧ (modDio n f s).ring = s.ring ∧ (modDio n f s).aio = s.aio ∧
    (modDio n f s).mot = s.mot ∧ (modDio n f s).can = s.can ∧ (modDio n f s).safe = s.safe ∧ (modDio n f s).sio = s.sio ∧
    (modDio n f s).pair = s.pair ∧ (modDio n f s).recd = s.recd ∧ (modDio n f s).mgmt = s.mgmt ∧
    (modDio n f s).retired = s.retired ∧ (modDio n f s).sram = s.sram :=
  ⟨rfl, rfl, rfl, rfl, rfl, rfl, rfl, rfl, rfl, rfl, rfl, rfl, rfl, rfl, rfl, rfl, rfl, rfl, rfl, rfl, rfl, rfl, rfl⟩

@[simp] theorem modBank_fields (n : Nat) (f : Bank → Bank) (s : State) :
    (modBank n f s).pending = s.pending ∧ (modBank n f s).now = s.now ∧ (modBank n f s).freeN = s.freeN ∧
    (modBank n f s).outbox = s.outbox ∧ (modBank n f s).config = s.config ∧ (modBank n f s).clk = s.clk ∧
    (modBank n f s).pwr = s.pwr ∧ (modBank n f s).sess = s.sess ∧ (modBank n f s).img = s.img ∧
    (modBank n f s).prog = s.prog ∧ (modBank n f s).eng = s.eng ∧ (modBank n f s).cad = s.cad ∧
    (modBank n f s).ring = s.ring ∧ (modBank n f s).aio = s.aio ∧ (modBank n f s).mot = s.mot ∧
    (modBank n f s).can = s.can ∧ (modBank n f s).safe = s.safe ∧ (modBank n f s).sio = s.sio ∧
    (modBank n f s).pair = s.pair ∧ (modBank n f s).recd = s.recd ∧ (modBank n f s).mgmt = s.mgmt ∧
    (modBank n f s).retired = s.retired ∧ (modBank n f s).sram = s.sram :=
  ⟨rfl, rfl, rfl, rfl, rfl, rfl, rfl, rfl, rfl, rfl, rfl, rfl, rfl, rfl, rfl, rfl, rfl, rfl, rfl, rfl, rfl, rfl, rfl⟩

@[simp] theorem modAio_fields (n : Nat) (f : Aio → Aio) (s : State) :
    (modAio n f s).pending = s.pending ∧ (modAio n f s).now = s.now ∧ (modAio n f s).freeN = s.freeN ∧
    (modAio n f s).outbox = s.outbox ∧ (modAio n f s).config = s.config ∧ (modAio n f s).clk = s.clk ∧
    (modAio n f s).pwr = s.pwr ∧ (modAio n f s).sess = s.sess ∧ (modAio n f s).img = s.img ∧ (modAio n f s).prog = s.prog ∧
    (modAio n f s).eng = s.eng ∧ (modAio n f s).cad = s.cad ∧ (modAio n f s).ring = s.ring ∧ (modAio n f s).dio = s.dio ∧
    (modAio n f s).mot = s.mot ∧ (modAio n f s).can = s.can ∧ (modAio n f s).safe = s.safe ∧ (modAio n f s).sio = s.sio ∧
    (modAio n f s).pair = s.pair ∧ (modAio n f s).recd = s.recd ∧ (modAio n f s).mgmt = s.mgmt ∧
    (modAio n f s).retired = s.retired ∧ (modAio n f s).sram = s.sram :=
  ⟨rfl, rfl, rfl, rfl, rfl, rfl, rfl, rfl, rfl, rfl, rfl, rfl, rfl, rfl, rfl, rfl, rfl, rfl, rfl, rfl, rfl, rfl, rfl⟩

@[simp] theorem modAxis_fields (n : Nat) (f : Axis → Axis) (s : State) :
    (modAxis n f s).pending = s.pending ∧ (modAxis n f s).now = s.now ∧ (modAxis n f s).freeN = s.freeN ∧
    (modAxis n f s).outbox = s.outbox ∧ (modAxis n f s).config = s.config ∧ (modAxis n f s).clk = s.clk ∧
    (modAxis n f s).pwr = s.pwr ∧ (modAxis n f s).sess = s.sess ∧ (modAxis n f s).img = s.img ∧
    (modAxis n f s).prog = s.prog ∧ (modAxis n f s).eng = s.eng ∧ (modAxis n f s).cad = s.cad ∧
    (modAxis n f s).ring = s.ring ∧ (modAxis n f s).dio = s.dio ∧ (modAxis n f s).aio = s.aio ∧
    (modAxis n f s).can = s.can ∧ (modAxis n f s).safe = s.safe ∧ (modAxis n f s).sio = s.sio ∧
    (modAxis n f s).pair = s.pair ∧ (modAxis n f s).recd = s.recd ∧ (modAxis n f s).mgmt = s.mgmt ∧
    (modAxis n f s).retired = s.retired ∧ (modAxis n f s).sram = s.sram :=
  ⟨rfl, rfl, rfl, rfl, rfl, rfl, rfl, rfl, rfl, rfl, rfl, rfl, rfl, rfl, rfl, rfl, rfl, rfl, rfl, rfl, rfl, rfl, rfl⟩

@[simp] theorem modPort_fields (n : Nat) (f : CanPort → CanPort) (s : State) :
    (modPort n f s).pending = s.pending ∧ (modPort n f s).now = s.now ∧ (modPort n f s).freeN = s.freeN ∧
    (modPort n f s).outbox = s.outbox ∧ (modPort n f s).config = s.config ∧ (modPort n f s).clk = s.clk ∧
    (modPort n f s).pwr = s.pwr ∧ (modPort n f s).sess = s.sess ∧ (modPort n f s).img = s.img ∧
    (modPort n f s).prog = s.prog ∧ (modPort n f s).eng = s.eng ∧ (modPort n f s).cad = s.cad ∧
    (modPort n f s).ring = s.ring ∧ (modPort n f s).dio = s.dio ∧ (modPort n f s).aio = s.aio ∧
    (modPort n f s).mot = s.mot ∧ (modPort n f s).safe = s.safe ∧ (modPort n f s).sio = s.sio ∧
    (modPort n f s).pair = s.pair ∧ (modPort n f s).recd = s.recd ∧ (modPort n f s).mgmt = s.mgmt ∧
    (modPort n f s).retired = s.retired ∧ (modPort n f s).sram = s.sram :=
  ⟨rfl, rfl, rfl, rfl, rfl, rfl, rfl, rfl, rfl, rfl, rfl, rfl, rfl, rfl, rfl, rfl, rfl, rfl, rfl, rfl, rfl, rfl, rfl⟩

@[simp] theorem modSession_fields (n : Nat) (f : Session → Session) (s : State) :
    (modSession n f s).pending = s.pending ∧ (modSession n f s).now = s.now ∧ (modSession n f s).freeN = s.freeN ∧
    (modSession n f s).outbox = s.outbox ∧ (modSession n f s).config = s.config ∧ (modSession n f s).clk = s.clk ∧
    (modSession n f s).pwr = s.pwr ∧ (modSession n f s).img = s.img ∧ (modSession n f s).prog = s.prog ∧
    (modSession n f s).eng = s.eng ∧ (modSession n f s).cad = s.cad ∧ (modSession n f s).ring = s.ring ∧
    (modSession n f s).dio = s.dio ∧ (modSession n f s).aio = s.aio ∧ (modSession n f s).mot = s.mot ∧
    (modSession n f s).can = s.can ∧ (modSession n f s).safe = s.safe ∧ (modSession n f s).sio = s.sio ∧
    (modSession n f s).pair = s.pair ∧ (modSession n f s).recd = s.recd ∧ (modSession n f s).mgmt = s.mgmt ∧
    (modSession n f s).retired = s.retired ∧ (modSession n f s).sram = s.sram :=
  ⟨rfl, rfl, rfl, rfl, rfl, rfl, rfl, rfl, rfl, rfl, rfl, rfl, rfl, rfl, rfl, rfl, rfl, rfl, rfl, rfl, rfl, rfl, rfl⟩

@[simp] theorem modSlot_fields (n : Nat) (f : Slot → Slot) (s : State) :
    (modSlot n f s).pending = s.pending ∧ (modSlot n f s).now = s.now ∧ (modSlot n f s).freeN = s.freeN ∧
    (modSlot n f s).outbox = s.outbox ∧ (modSlot n f s).config = s.config ∧ (modSlot n f s).clk = s.clk ∧
    (modSlot n f s).pwr = s.pwr ∧ (modSlot n f s).img = s.img ∧ (modSlot n f s).prog = s.prog ∧
    (modSlot n f s).eng = s.eng ∧ (modSlot n f s).cad = s.cad ∧ (modSlot n f s).ring = s.ring ∧
    (modSlot n f s).dio = s.dio ∧ (modSlot n f s).aio = s.aio ∧ (modSlot n f s).mot = s.mot ∧ (modSlot n f s).can = s.can ∧
    (modSlot n f s).safe = s.safe ∧ (modSlot n f s).sio = s.sio ∧ (modSlot n f s).pair = s.pair ∧
    (modSlot n f s).recd = s.recd ∧ (modSlot n f s).mgmt = s.mgmt ∧ (modSlot n f s).retired = s.retired ∧
    (modSlot n f s).sram = s.sram :=
  ⟨rfl, rfl, rfl, rfl, rfl, rfl, rfl, rfl, rfl, rfl, rfl, rfl, rfl, rfl, rfl, rfl, rfl, rfl, rfl, rfl, rfl, rfl, rfl⟩

@[simp] theorem modCmd_fields (n : Nat) (f : CmdObj → CmdObj) (s : State) :
    (modCmd n f s).pending = s.pending ∧ (modCmd n f s).now = s.now ∧ (modCmd n f s).freeN = s.freeN ∧
    (modCmd n f s).outbox = s.outbox ∧ (modCmd n f s).config = s.config ∧ (modCmd n f s).clk = s.clk ∧
    (modCmd n f s).pwr = s.pwr ∧ (modCmd n f s).img = s.img ∧ (modCmd n f s).prog = s.prog ∧ (modCmd n f s).eng = s.eng ∧
    (modCmd n f s).cad = s.cad ∧ (modCmd n f s).ring = s.ring ∧ (modCmd n f s).dio = s.dio ∧ (modCmd n f s).aio = s.aio ∧
    (modCmd n f s).mot = s.mot ∧ (modCmd n f s).can = s.can ∧ (modCmd n f s).safe = s.safe ∧ (modCmd n f s).sio = s.sio ∧
    (modCmd n f s).pair = s.pair ∧ (modCmd n f s).recd = s.recd ∧ (modCmd n f s).mgmt = s.mgmt ∧
    (modCmd n f s).retired = s.retired ∧ (modCmd n f s).sram = s.sram :=
  ⟨rfl, rfl, rfl, rfl, rfl, rfl, rfl, rfl, rfl, rfl, rfl, rfl, rfl, rfl, rfl, rfl, rfl, rfl, rfl, rfl, rfl, rfl, rfl⟩

@[simp] theorem modTask_fields (n : Nat) (f : Task → Task) (s : State) :
    (modTask n f s).pending = s.pending ∧ (modTask n f s).now = s.now ∧ (modTask n f s).freeN = s.freeN ∧
    (modTask n f s).outbox = s.outbox ∧ (modTask n f s).config = s.config ∧ (modTask n f s).clk = s.clk ∧
    (modTask n f s).pwr = s.pwr ∧ (modTask n f s).sess = s.sess ∧ (modTask n f s).img = s.img ∧
    (modTask n f s).eng = s.eng ∧ (modTask n f s).cad = s.cad ∧ (modTask n f s).ring = s.ring ∧
    (modTask n f s).dio = s.dio ∧ (modTask n f s).aio = s.aio ∧ (modTask n f s).mot = s.mot ∧ (modTask n f s).can = s.can ∧
    (modTask n f s).safe = s.safe ∧ (modTask n f s).sio = s.sio ∧ (modTask n f s).pair = s.pair ∧
    (modTask n f s).recd = s.recd ∧ (modTask n f s).mgmt = s.mgmt ∧ (modTask n f s).retired = s.retired ∧
    (modTask n f s).sram = s.sram :=
  ⟨rfl, rfl, rfl, rfl, rfl, rfl, rfl, rfl, rfl, rfl, rfl, rfl, rfl, rfl, rfl, rfl, rfl, rfl, rfl, rfl, rfl, rfl, rfl⟩

@[simp] theorem modLoop_fields (n : Nat) (f : Loop → Loop) (s : State) :
    (modLoop n f s).pending = s.pending ∧ (modLoop n f s).now = s.now ∧ (modLoop n f s).freeN = s.freeN ∧
    (modLoop n f s).outbox = s.outbox ∧ (modLoop n f s).config = s.config ∧ (modLoop n f s).clk = s.clk ∧
    (modLoop n f s).pwr = s.pwr ∧ (modLoop n f s).sess = s.sess ∧ (modLoop n f s).img = s.img ∧
    (modLoop n f s).prog = s.prog ∧ (modLoop n f s).cad = s.cad ∧ (modLoop n f s).ring = s.ring ∧
    (modLoop n f s).dio = s.dio ∧ (modLoop n f s).aio = s.aio ∧ (modLoop n f s).mot = s.mot ∧ (modLoop n f s).can = s.can ∧
    (modLoop n f s).safe = s.safe ∧ (modLoop n f s).sio = s.sio ∧ (modLoop n f s).pair = s.pair ∧
    (modLoop n f s).recd = s.recd ∧ (modLoop n f s).mgmt = s.mgmt ∧ (modLoop n f s).retired = s.retired ∧
    (modLoop n f s).sram = s.sram :=
  ⟨rfl, rfl, rfl, rfl, rfl, rfl, rfl, rfl, rfl, rfl, rfl, rfl, rfl, rfl, rfl, rfl, rfl, rfl, rfl, rfl, rfl, rfl, rfl⟩

@[simp] theorem modTracker_fields (n : Nat) (f : Tracker → Tracker) (s : State) :
    (modTracker n f s).pending = s.pending ∧ (modTracker n f s).now = s.now ∧ (modTracker n f s).freeN = s.freeN ∧
    (modTracker n f s).outbox = s.outbox ∧ (modTracker n f s).config = s.config ∧ (modTracker n f s).clk = s.clk ∧
    (modTracker n f s).pwr = s.pwr ∧ (modTracker n f s).sess = s.sess ∧ (modTracker n f s).img = s.img ∧
    (modTracker n f s).prog = s.prog ∧ (modTracker n f s).eng = s.eng ∧ (modTracker n f s).ring = s.ring ∧
    (modTracker n f s).dio = s.dio ∧ (modTracker n f s).aio = s.aio ∧ (modTracker n f s).mot = s.mot ∧
    (modTracker n f s).can = s.can ∧ (modTracker n f s).safe = s.safe ∧ (modTracker n f s).sio = s.sio ∧
    (modTracker n f s).pair = s.pair ∧ (modTracker n f s).recd = s.recd ∧ (modTracker n f s).mgmt = s.mgmt ∧
    (modTracker n f s).retired = s.retired ∧ (modTracker n f s).sram = s.sram :=
  ⟨rfl, rfl, rfl, rfl, rfl, rfl, rfl, rfl, rfl, rfl, rfl, rfl, rfl, rfl, rfl, rfl, rfl, rfl, rfl, rfl, rfl, rfl, rfl⟩

@[simp] theorem modSched_fields (n : Nat) (f : SlotSt → SlotSt) (s : State) :
    (modSched n f s).pending = s.pending ∧ (modSched n f s).now = s.now ∧ (modSched n f s).freeN = s.freeN ∧
    (modSched n f s).outbox = s.outbox ∧ (modSched n f s).config = s.config ∧ (modSched n f s).clk = s.clk ∧
    (modSched n f s).pwr = s.pwr ∧ (modSched n f s).sess = s.sess ∧ (modSched n f s).img = s.img ∧
    (modSched n f s).prog = s.prog ∧ (modSched n f s).eng = s.eng ∧ (modSched n f s).ring = s.ring ∧
    (modSched n f s).dio = s.dio ∧ (modSched n f s).aio = s.aio ∧ (modSched n f s).mot = s.mot ∧
    (modSched n f s).can = s.can ∧ (modSched n f s).safe = s.safe ∧ (modSched n f s).sio = s.sio ∧
    (modSched n f s).pair = s.pair ∧ (modSched n f s).recd = s.recd ∧ (modSched n f s).mgmt = s.mgmt ∧
    (modSched n f s).retired = s.retired ∧ (modSched n f s).sram = s.sram :=
  ⟨rfl, rfl, rfl, rfl, rfl, rfl, rfl, rfl, rfl, rfl, rfl, rfl, rfl, rfl, rfl, rfl, rfl, rfl, rfl, rfl, rfl, rfl, rfl⟩

@[simp] theorem modSc_fields (n : Nat) (f : Sc → Sc) (s : State) :
    (modSc n f s).pending = s.pending ∧ (modSc n f s).now = s.now ∧ (modSc n f s).freeN = s.freeN ∧
    (modSc n f s).outbox = s.outbox ∧ (modSc n f s).config = s.config ∧ (modSc n f s).clk = s.clk ∧
    (modSc n f s).pwr = s.pwr ∧ (modSc n f s).sess = s.sess ∧ (modSc n f s).img = s.img ∧ (modSc n f s).prog = s.prog ∧
    (modSc n f s).eng = s.eng ∧ (modSc n f s).ring = s.ring ∧ (modSc n f s).dio = s.dio ∧ (modSc n f s).aio = s.aio ∧
    (modSc n f s).mot = s.mot ∧ (modSc n f s).can = s.can ∧ (modSc n f s).safe = s.safe ∧ (modSc n f s).sio = s.sio ∧
    (modSc n f s).pair = s.pair ∧ (modSc n f s).recd = s.recd ∧ (modSc n f s).mgmt = s.mgmt ∧
    (modSc n f s).retired = s.retired ∧ (modSc n f s).sram = s.sram :=
  ⟨rfl, rfl, rfl, rfl, rfl, rfl, rfl, rfl, rfl, rfl, rfl, rfl, rfl, rfl, rfl, rfl, rfl, rfl, rfl, rfl, rfl, rfl, rfl⟩

@[simp] theorem modNode_fields (n : Nat) (f : Node → Node) (s : State) :
    (modNode n f s).pending = s.pending ∧ (modNode n f s).now = s.now ∧ (modNode n f s).freeN = s.freeN ∧
    (modNode n f s).outbox = s.outbox ∧ (modNode n f s).config = s.config ∧ (modNode n f s).clk = s.clk ∧
    (modNode n f s).pwr = s.pwr ∧ (modNode n f s).sess = s.sess ∧ (modNode n f s).img = s.img ∧
    (modNode n f s).prog = s.prog ∧ (modNode n f s).eng = s.eng ∧ (modNode n f s).cad = s.cad ∧
    (modNode n f s).dio = s.dio ∧ (modNode n f s).aio = s.aio ∧ (modNode n f s).mot = s.mot ∧ (modNode n f s).can = s.can ∧
    (modNode n f s).safe = s.safe ∧ (modNode n f s).sio = s.sio ∧ (modNode n f s).pair = s.pair ∧
    (modNode n f s).recd = s.recd ∧ (modNode n f s).mgmt = s.mgmt ∧ (modNode n f s).retired = s.retired ∧
    (modNode n f s).sram = s.sram :=
  ⟨rfl, rfl, rfl, rfl, rfl, rfl, rfl, rfl, rfl, rfl, rfl, rfl, rfl, rfl, rfl, rfl, rfl, rfl, rfl, rfl, rfl, rfl, rfl⟩

@[simp] theorem modTerm_fields (n : Nat) (f : Terminal → Terminal) (s : State) :
    (modTerm n f s).pending = s.pending ∧ (modTerm n f s).now = s.now ∧ (modTerm n f s).freeN = s.freeN ∧
    (modTerm n f s).outbox = s.outbox ∧ (modTerm n f s).config = s.config ∧ (modTerm n f s).clk = s.clk ∧
    (modTerm n f s).pwr = s.pwr ∧ (modTerm n f s).sess = s.sess ∧ (modTerm n f s).img = s.img ∧
    (modTerm n f s).prog = s.prog ∧ (modTerm n f s).eng = s.eng ∧ (modTerm n f s).cad = s.cad ∧
    (modTerm n f s).ring = s.ring ∧ (modTerm n f s).dio = s.dio ∧ (modTerm n f s).aio = s.aio ∧
    (modTerm n f s).mot = s.mot ∧ (modTerm n f s).can = s.can ∧ (modTerm n f s).safe = s.safe ∧
    (modTerm n f s).pair = s.pair ∧ (modTerm n f s).recd = s.recd ∧ (modTerm n f s).mgmt = s.mgmt ∧
    (modTerm n f s).retired = s.retired ∧ (modTerm n f s).sram = s.sram :=
  ⟨rfl, rfl, rfl, rfl, rfl, rfl, rfl, rfl, rfl, rfl, rfl, rfl, rfl, rfl, rfl, rfl, rfl, rfl, rfl, rfl, rfl, rfl, rfl⟩

@[simp] theorem modSf_fields (n : Nat) (f : SfInst → SfInst) (s : State) :
    (modSf n f s).pending = s.pending ∧ (modSf n f s).now = s.now ∧ (modSf n f s).freeN = s.freeN ∧
    (modSf n f s).outbox = s.outbox ∧ (modSf n f s).config = s.config ∧ (modSf n f s).clk = s.clk ∧
    (modSf n f s).pwr = s.pwr ∧ (modSf n f s).sess = s.sess ∧ (modSf n f s).img = s.img ∧ (modSf n f s).prog = s.prog ∧
    (modSf n f s).eng = s.eng ∧ (modSf n f s).cad = s.cad ∧ (modSf n f s).ring = s.ring ∧ (modSf n f s).dio = s.dio ∧
    (modSf n f s).aio = s.aio ∧ (modSf n f s).mot = s.mot ∧ (modSf n f s).can = s.can ∧ (modSf n f s).safe = s.safe ∧
    (modSf n f s).pair = s.pair ∧ (modSf n f s).recd = s.recd ∧ (modSf n f s).mgmt = s.mgmt ∧
    (modSf n f s).retired = s.retired ∧ (modSf n f s).sram = s.sram :=
  ⟨rfl, rfl, rfl, rfl, rfl, rfl, rfl, rfl, rfl, rfl, rfl, rfl, rfl, rfl, rfl, rfl, rfl, rfl, rfl, rfl, rfl, rfl, rfl⟩

@[simp] theorem modTp_fields (n : Nat) (f : TpSource → TpSource) (s : State) :
    (modTp n f s).pending = s.pending ∧ (modTp n f s).now = s.now ∧ (modTp n f s).freeN = s.freeN ∧
    (modTp n f s).outbox = s.outbox ∧ (modTp n f s).config = s.config ∧ (modTp n f s).clk = s.clk ∧
    (modTp n f s).pwr = s.pwr ∧ (modTp n f s).sess = s.sess ∧ (modTp n f s).img = s.img ∧ (modTp n f s).prog = s.prog ∧
    (modTp n f s).eng = s.eng ∧ (modTp n f s).cad = s.cad ∧ (modTp n f s).ring = s.ring ∧ (modTp n f s).dio = s.dio ∧
    (modTp n f s).aio = s.aio ∧ (modTp n f s).mot = s.mot ∧ (modTp n f s).can = s.can ∧ (modTp n f s).safe = s.safe ∧
    (modTp n f s).pair = s.pair ∧ (modTp n f s).recd = s.recd ∧ (modTp n f s).mgmt = s.mgmt ∧
    (modTp n f s).retired = s.retired ∧ (modTp n f s).sram = s.sram :=
  ⟨rfl, rfl, rfl, rfl, rfl, rfl, rfl, rfl, rfl, rfl, rfl, rfl, rfl, rfl, rfl, rfl, rfl, rfl, rfl, rfl, rfl, rfl, rfl⟩

@[simp] theorem modStage_fields (n : Nat) (f : SoStage → SoStage) (s : State) :
    (modStage n f s).pending = s.pending ∧ (modStage n f s).now = s.now ∧ (modStage n f s).freeN = s.freeN ∧
    (modStage n f s).outbox = s.outbox ∧ (modStage n f s).config = s.config ∧ (modStage n f s).clk = s.clk ∧
    (modStage n f s).pwr = s.pwr ∧ (modStage n f s).sess = s.sess ∧ (modStage n f s).img = s.img ∧
    (modStage n f s).prog = s.prog ∧ (modStage n f s).eng = s.eng ∧ (modStage n f s).cad = s.cad ∧
    (modStage n f s).ring = s.ring ∧ (modStage n f s).dio = s.dio ∧ (modStage n f s).aio = s.aio ∧
    (modStage n f s).mot = s.mot ∧ (modStage n f s).can = s.can ∧ (modStage n f s).safe = s.safe ∧
    (modStage n f s).pair = s.pair ∧ (modStage n f s).recd = s.recd ∧ (modStage n f s).mgmt = s.mgmt ∧
    (modStage n f s).retired = s.retired ∧ (modStage n f s).sram = s.sram :=
  ⟨rfl, rfl, rfl, rfl, rfl, rfl, rfl, rfl, rfl, rfl, rfl, rfl, rfl, rfl, rfl, rfl, rfl, rfl, rfl, rfl, rfl, rfl, rfl⟩

@[simp] theorem modBuf_fields (p b : Nat) (f : CanBuf → CanBuf) (s : State) :
    (modBuf p b f s).pending = s.pending ∧ (modBuf p b f s).now = s.now ∧ (modBuf p b f s).freeN = s.freeN ∧
    (modBuf p b f s).outbox = s.outbox ∧ (modBuf p b f s).config = s.config ∧ (modBuf p b f s).clk = s.clk ∧
    (modBuf p b f s).pwr = s.pwr ∧ (modBuf p b f s).sess = s.sess ∧ (modBuf p b f s).img = s.img ∧
    (modBuf p b f s).prog = s.prog ∧ (modBuf p b f s).eng = s.eng ∧ (modBuf p b f s).cad = s.cad ∧
    (modBuf p b f s).ring = s.ring ∧ (modBuf p b f s).dio = s.dio ∧ (modBuf p b f s).aio = s.aio ∧
    (modBuf p b f s).mot = s.mot ∧ (modBuf p b f s).safe = s.safe ∧ (modBuf p b f s).sio = s.sio ∧
    (modBuf p b f s).pair = s.pair ∧ (modBuf p b f s).recd = s.recd ∧ (modBuf p b f s).mgmt = s.mgmt ∧
    (modBuf p b f s).retired = s.retired ∧ (modBuf p b f s).sram = s.sram :=
  ⟨rfl, rfl, rfl, rfl, rfl, rfl, rfl, rfl, rfl, rfl, rfl, rfl, rfl, rfl, rfl, rfl, rfl, rfl, rfl, rfl, rfl, rfl, rfl⟩

@[simp] theorem getDio_modDio (s : State) (n j : Nat) (f : Dio → Dio) :
    getDio (modDio n f s) j = if j = n then f (getDio s n) else getDio s j := Tbl.get_modify ..

@[simp] theorem getBank_modBank (s : State) (n j : Nat) (f : Bank → Bank) :
    getBank (modBank n f s) j = if j = n then f (getBank s n) else getBank s j := Tbl.get_modify ..

@[simp] theorem getAio_modAio (s : State) (n j : Nat) (f : Aio → Aio) :
    getAio (modAio n f s) j = if j = n then f (getAio s n) else getAio s j := Tbl.get_modify ..

@[simp] theorem getAxis_modAxis (s : State) (n j : Nat) (f : Axis → Axis) :
    getAxis (modAxis n f s) j = if j = n then f (getAxis s n) else getAxis s j := Tbl.get_modify ..

@[simp] theorem getPort_modPort (s : State) (n j : Nat) (f : CanPort → CanPort) :
    getPort (modPort n f s) j = if j = n then f (getPort s n) else getPort s j := Tbl.get_modify ..

@[simp] theorem getSession_modSession (s : State) (n j : Nat) (f : Session → Session) :
    getSession (modSession n f s) j = if j = n then f (getSession s n) else getSession s j := Tbl.get_modify ..

@[simp] theorem getSlot_modSlot (s : State) (n j : Nat) (f : Slot → Slot) :
    getSlot (modSlot n f s) j = if j = n then f (getSlot s n) else getSlot s j := Tbl.get_modify ..

@[simp] theorem getCmd_modCmd (s : State) (n j : Nat) (f : CmdObj → CmdObj) :
    getCmd (modCmd n f s) j = if j = n then f (getCmd s n) else getCmd s j := Tbl.get_modify ..

@[simp] theorem getTask_modTask (s : State) (n j : Nat) (f : Task → Task) :
    getTask (modTask n f s) j = if j = n then f (getTask s n) else getTask s j := Tbl.get_modify ..

@[simp] theorem getLoop_modLoop (s : State) (n j : Nat) (f : Loop → Loop) :
    getLoop (modLoop n f s) j = if j = n then f (getLoop s n) else getLoop s j := Tbl.get_modify ..

@[simp] theorem getTracker_modTracker (s : State) (n j : Nat) (f : Tracker → Tracker) :
    getTracker (modTracker n f s) j = if j = n then f (getTracker s n) else getTracker s j := Tbl.get_modify ..

@[simp] theorem getSched_modSched (s : State) (n j : Nat) (f : SlotSt → SlotSt) :
    getSched (modSched n f s) j = if j = n then f (getSched s n) else getSched s j := Tbl.get_modify ..

@[simp] theorem getSc_modSc (s : State) (n j : Nat) (f : Sc → Sc) :
    getSc (modSc n f s) j = if j = n then f (getSc s n) else getSc s j := Tbl.get_modify ..

@[simp] theorem getNode_modNode (s : State) (n j : Nat) (f : Node → Node) :
    getNode (modNode n f s) j = if j = n then f (getNode s n) else getNode s j := Tbl.get_modify ..

@[simp] theorem getTerm_modTerm (s : State) (n j : Nat) (f : Terminal → Terminal) :
    getTerm (modTerm n f s) j = if j = n then f (getTerm s n) else getTerm s j := Tbl.get_modify ..

@[simp] theorem getSf_modSf (s : State) (n j : Nat) (f : SfInst → SfInst) :
    getSf (modSf n f s) j = if j = n then f (getSf s n) else getSf s j := Tbl.get_modify ..

@[simp] theorem getTp_modTp (s : State) (n j : Nat) (f : TpSource → TpSource) :
    getTp (modTp n f s) j = if j = n then f (getTp s n) else getTp s j := Tbl.get_modify ..

@[simp] theorem getStage_modStage (s : State) (n j : Nat) (f : SoStage → SoStage) :
    getStage (modStage n f s) j = if j = n then f (getStage s n) else getStage s j := Tbl.get_modify ..

@[simp] theorem draw_fst (s : State) : (draw s).1 = Config.free s.freeN := rfl
@[simp] theorem draw_snd (s : State) : (draw s).2 = { s with freeN := s.freeN + 1 } := rfl
@[simp] theorem send_outbox (x : Sent) (s : State) : (send x s).outbox = framed s x :: s.outbox := rfl
@[simp] theorem advance_now (t : Nat) (s : State) : (advance t s).now = max s.now t := rfl
@[simp] theorem up_advance (t : Nat) (s : State) : up (advance t s) = up s := rfl
@[simp] theorem domainOn_advance (t n : Nat) (s : State) : domainOn (advance t s) n = domainOn s n := rfl
theorem enqueue_recd (q : QRec) (s : State) : enqueue q s = { s with recd := (enqueue q s).recd } := by
  unfold enqueue; split <;> rfl

theorem emit_recd (c src : Nat) (d : List Byte) (s : State) : emit c src d s = { s with recd := (emit c src d s).recd } := by
  simp only [emit]
  split
  · rfl
  split
  · rw [enqueue_recd]
    split
    · rw [enqueue_recd]
    · rfl
  · rfl

/-- A record changes nothing but the recorder. -/
@[simp] theorem emit_fields (c src : Nat) (d : List Byte) (s : State) :
    (emit c src d s).pending = s.pending ∧ (emit c src d s).now = s.now ∧ (emit c src d s).freeN = s.freeN ∧
    (emit c src d s).outbox = s.outbox ∧ (emit c src d s).config = s.config ∧ (emit c src d s).clk = s.clk ∧
    (emit c src d s).pwr = s.pwr ∧ (emit c src d s).sess = s.sess ∧ (emit c src d s).img = s.img ∧
    (emit c src d s).prog = s.prog ∧ (emit c src d s).eng = s.eng ∧ (emit c src d s).cad = s.cad ∧
    (emit c src d s).ring = s.ring ∧ (emit c src d s).dio = s.dio ∧ (emit c src d s).aio = s.aio ∧
    (emit c src d s).mot = s.mot ∧ (emit c src d s).can = s.can ∧ (emit c src d s).safe = s.safe ∧
    (emit c src d s).sio = s.sio ∧ (emit c src d s).pair = s.pair ∧ (emit c src d s).mgmt = s.mgmt ∧
    (emit c src d s).retired = s.retired ∧ (emit c src d s).sram = s.sram := by
  rw [emit_recd]; exact ⟨rfl, rfl, rfl, rfl, rfl, rfl, rfl, rfl, rfl, rfl, rfl, rfl, rfl, rfl, rfl, rfl, rfl, rfl, rfl, rfl, rfl, rfl, rfl⟩

end Sys2Proof.Machine
end

