-- ==== Sys2Proof/Laws/Frame.lean ====
section
/-! SUPPORT. Frames compose: how an operation built from others leaves the parts of the state none of them touches. -/

set_option Elab.async false

namespace Sys2Proof.Machine

theorem Untouched.refl (ps : List Part) (s : State) : Untouched ps s s := ⟨fun p _ => by cases p <;> rfl⟩

theorem Part.same_trans {p : Part} {s t u : State} (h : p.same s t) (k : p.same t u) : p.same s u := by
  cases p <;> exact Eq.trans k h

theorem Untouched.trans {ps : List Part} {s t u : State} (h : Untouched ps s t) (k : Untouched ps t u) : Untouched ps s u :=
  ⟨fun p hp => Part.same_trans (h.same p hp) (k.same p hp)⟩

theorem Untouched.mono {ps qs : List Part} {s t : State} (h : Untouched ps s t) (k : ∀ p ∈ ps, p ∈ qs) : Untouched qs s t :=
  ⟨fun p hp => h.same p (fun x => hp (k p x))⟩

/-- One operation more, touching no part beyond those named. -/
theorem Untouched.step {ps qs : List Part} {s t u : State} (h : Untouched ps s t) (k : Untouched qs t u)
    (i : ∀ p ∈ qs, p ∈ ps) : Untouched ps s u := h.trans (k.mono i)

theorem Untouched.of_snd {ps : List Part} {α : Type} {s t : State} {p : α × State} {y : α} (h : Untouched ps s p.2)
    (e : p = (y, t)) : Untouched ps s t := by
  subst e; exact h

theorem Untouched.foldl {ps : List Part} {s : State} {α : Type} {f : State → α → State}
    (hf : ∀ t x, Untouched ps s t → Untouched ps s (f t x)) : ∀ (l : List α) (t : State), Untouched ps s t → Untouched ps s (l.foldl f t)
  | [], _, h => h
  | x :: l, t, h => Untouched.foldl hf l (f t x) (hf t x h)

theorem Untouched.forAll {ps : List Part} {s : State} {l : List Nat} {f : Nat → State → State} {t : State}
    (hf : ∀ n t, Untouched ps s t → Untouched ps s (f n t)) (h : Untouched ps s t) : Untouched ps s (forAll l f t) :=
  Untouched.foldl (fun t n => hf n t) l t h

/-- A record of the state is written; each part is named or as it was. -/
theorem Untouched.put {ps : List Part} {s t : State} (h : Untouched ps s t) {x0 x1 x2 x3 x4 x5 x6 x7 x8 x9 x10 x11 x12 x13 x14 x15 x16 x17 x18 x19 x20 x21 x22 x23}
    (e0 : x0 = t.pending ∨ .pending ∈ ps := by first | exact .inl (by with_reducible rfl) | exact .inr (by decide))
    (e1 : x1 = t.now ∨ .now ∈ ps := by first | exact .inl (by with_reducible rfl) | exact .inr (by decide))
    (e2 : x2 = t.freeN ∨ .freeN ∈ ps := by first | exact .inl (by with_reducible rfl) | exact .inr (by decide))
    (e3 : x3 = t.outbox ∨ .outbox ∈ ps := by first | exact .inl (by with_reducible rfl) | exact .inr (by decide))
    (e4 : x4 = t.config ∨ .config ∈ ps := by first | exact .inl (by with_reducible rfl) | exact .inr (by decide))
    (e5 : x5 = t.clk ∨ .clk ∈ ps := by first | exact .inl (by with_reducible rfl) | exact .inr (by decide))
    (e6 : x6 = t.pwr ∨ .pwr ∈ ps := by first | exact .inl (by with_reducible rfl) | exact .inr (by decide))
    (e7 : x7 = t.sess ∨ .sess ∈ ps := by first | exact .inl (by with_reducible rfl) | exact .inr (by decide))
    (e8 : x8 = t.img ∨ .img ∈ ps := by first | exact .inl (by with_reducible rfl) | exact .inr (by decide))
    (e9 : x9 = t.prog ∨ .prog ∈ ps := by first | exact .inl (by with_reducible rfl) | exact .inr (by decide))
    (e10 : x10 = t.eng ∨ .eng ∈ ps := by first | exact .inl (by with_reducible rfl) | exact .inr (by decide))
    (e11 : x11 = t.cad ∨ .cad ∈ ps := by first | exact .inl (by with_reducible rfl) | exact .inr (by decide))
    (e12 : x12 = t.ring ∨ .ring ∈ ps := by first | exact .inl (by with_reducible rfl) | exact .inr (by decide))
    (e13 : x13 = t.dio ∨ .dio ∈ ps := by first | exact .inl (by with_reducible rfl) | exact .inr (by decide))
    (e14 : x14 = t.aio ∨ .aio ∈ ps := by first | exact .inl (by with_reducible rfl) | exact .inr (by decide))
    (e15 : x15 = t.mot ∨ .mot ∈ ps := by first | exact .inl (by with_reducible rfl) | exact .inr (by decide))
    (e16 : x16 = t.can ∨ .can ∈ ps := by first | exact .inl (by with_reducible rfl) | exact .inr (by decide))
    (e17 : x17 = t.safe ∨ .safe ∈ ps := by first | exact .inl (by with_reducible rfl) | exact .inr (by decide))
    (e18 : x18 = t.sio ∨ .sio ∈ ps := by first | exact .inl (by with_reducible rfl) | exact .inr (by decide))
    (e19 : x19 = t.pair ∨ .pair ∈ ps := by first | exact .inl (by with_reducible rfl) | exact .inr (by decide))
    (e20 : x20 = t.recd ∨ .recd ∈ ps := by first | exact .inl (by with_reducible rfl) | exact .inr (by decide))
    (e21 : x21 = t.mgmt ∨ .mgmt ∈ ps := by first | exact .inl (by with_reducible rfl) | exact .inr (by decide))
    (e22 : x22 = t.retired ∨ .retired ∈ ps := by first | exact .inl (by with_reducible rfl) | exact .inr (by decide))
    (e23 : x23 = t.sram ∨ .sram ∈ ps := by first | exact .inl (by with_reducible rfl) | exact .inr (by decide)) :
    Untouched ps s (State.mk x0 x1 x2 x3 x4 x5 x6 x7 x8 x9 x10 x11 x12 x13 x14 x15 x16 x17 x18 x19 x20 x21 x22 x23) := by
  refine h.trans ⟨fun p hp => ?_⟩
  cases p
  · exact e0.resolve_right hp
  · exact e1.resolve_right hp
  · exact e2.resolve_right hp
  · exact e3.resolve_right hp
  · exact e4.resolve_right hp
  · exact e5.resolve_right hp
  · exact e6.resolve_right hp
  · exact e7.resolve_right hp
  · exact e8.resolve_right hp
  · exact e9.resolve_right hp
  · exact e10.resolve_right hp
  · exact e11.resolve_right hp
  · exact e12.resolve_right hp
  · exact e13.resolve_right hp
  · exact e14.resolve_right hp
  · exact e15.resolve_right hp
  · exact e16.resolve_right hp
  · exact e17.resolve_right hp
  · exact e18.resolve_right hp
  · exact e19.resolve_right hp
  · exact e20.resolve_right hp
  · exact e21.resolve_right hp
  · exact e22.resolve_right hp
  · exact e23.resolve_right hp

end Sys2Proof.Machine
end

