-- ==== Sys2Proof/Laws/FrameOps.lean ====
section
/-! SUPPORT. The frame of every operation of Machine/Ops.lean: the parts of the state it may touch. -/

set_option Elab.async false

namespace Sys2Proof.Machine

theorem setRate_frame (rate : Int) (s : State) :
    Untouched [.clk] s (setRate rate s) := by
  unfold setRate
  repeat' first
    | with_reducible exact Untouched.refl _ _
    | lift_lets -underBinder
    | (intro x; subst x)
    | with_reducible refine Untouched.put ?_

theorem stepTime_frame (d : Int) (s : State) :
    Untouched [.clk, .prog] s (stepTime d s) := by
  unfold stepTime
  repeat' first
    | with_reducible exact Untouched.refl _ _
    | lift_lets -underBinder
    | (intro x; subst x)
    | with_reducible refine Untouched.put ?_

theorem setCfg_frame (idx : Nat) (sub : Nat) (v : List Byte) (s : State) :
    Untouched [.config] s (setCfg idx sub v s) := by
  unfold setCfg
  repeat' first | with_reducible exact Untouched.refl _ _ | with_reducible refine Untouched.put ?_

theorem draw_frame (s : State) :
    Untouched [.freeN] s (draw s).2 := by
  unfold draw
  repeat' first
    | with_reducible exact Untouched.refl _ _
    | dsimp -zeta only
    | with_reducible refine Untouched.put ?_

theorem send_frame (x_ : Sent) (s : State) :
    Untouched [.outbox, .ring] s (send x_ s) := by
  unfold send
  repeat' first
    | with_reducible exact Untouched.refl _ _
    | lift_lets -underBinder
    | (intro x; subst x)
    | split
    | with_reducible refine Untouched.put ?_

theorem enqueue_frame (q : QRec) (s : State) :
    Untouched [.recd] s (enqueue q s) := by
  unfold enqueue
  repeat' first
    | with_reducible exact Untouched.refl _ _
    | lift_lets -underBinder
    | (intro x; subst x)
    | split
    | with_reducible refine Untouched.put ?_

theorem emit_frame (code : Nat) (src : Nat) (data : List Byte) (s : State) :
    Untouched [.recd] s (emit code src data s) := by
  unfold emit
  repeat' first
    | with_reducible assumption
    | with_reducible exact Untouched.refl _ _
    | lift_lets -underBinder
    | (intro x; have hx : Untouched [.recd] s x := (by
        subst x
        repeat' first
          | with_reducible assumption
          | with_reducible exact Untouched.refl _ _
          | (with_reducible apply Untouched.step (k := enqueue_frame ..); case i => decide)
          | split
          | with_reducible refine Untouched.put ?_); clear_value x)
    | (intro x; subst x)
    | (with_reducible apply Untouched.step (k := enqueue_frame ..); case i => decide)
    | split
    | with_reducible refine Untouched.put ?_

theorem countRecord_frame (acked : Bool) (s : State) :
    Untouched [.pair] s (countRecord acked s) := by
  unfold countRecord
  repeat' first
    | with_reducible exact Untouched.refl _ _
    | lift_lets -underBinder
    | (intro x; subst x)
    | split
    | with_reducible refine Untouched.put ?_

theorem sendSync_frame (kind : Nat) (content : List Nat) (s : State) :
    Untouched [.outbox, .ring, .pair] s (sendSync kind content s) := by
  unfold sendSync
  repeat' first
    | with_reducible assumption
    | lift_lets -underBinder
    | (intro x; have hx : Untouched [.outbox, .ring, .pair] s x := (by
        subst x
        repeat' first
          | with_reducible exact Untouched.refl _ _
          | (with_reducible apply Untouched.step (k := countRecord_frame ..); case i => decide)); clear_value x)
    | (with_reducible apply Untouched.step (k := send_frame ..); case i => decide)

theorem passChange_frame (c : Change) (s : State) :
    Untouched [.outbox, .ring, .pair] s (passChange c s) := by
  unfold passChange
  repeat' first
    | with_reducible assumption
    | with_reducible exact Untouched.refl _ _
    | lift_lets -underBinder
    | (intro x; have hx : Untouched [.outbox, .ring, .pair] s x := (by
        subst x
        repeat' first
          | with_reducible exact Untouched.refl _ _
          | (with_reducible apply Untouched.step (k := countRecord_frame ..); case i => decide)); clear_value x)
    | (with_reducible apply Untouched.step (k := send_frame ..); case i => decide)
    | split

theorem sendAck_frame (seq : Nat) (result : Nat) (s : State) :
    Untouched [.outbox, .ring, .pair] s (sendAck seq result s) := by
  unfold sendAck
  repeat' first
    | with_reducible exact Untouched.refl _ _
    | (with_reducible apply Untouched.step (k := sendSync_frame ..); case i => decide)

theorem enterPair_frame (st : PairState) (s : State) :
    Untouched [.pair, .recd] s (enterPair st s) := by
  unfold enterPair
  repeat' first
    | with_reducible assumption
    | with_reducible exact Untouched.refl _ _
    | lift_lets -underBinder
    | (intro x; have hx : Untouched [.pair, .recd] s x := (by
        subst x
        repeat' first | with_reducible exact Untouched.refl _ _ | with_reducible refine Untouched.put ?_); clear_value x)
    | (intro x; subst x)
    | (with_reducible apply Untouched.step (k := emit_frame ..); case i => decide)
    | split

theorem listRetired_frame (kind : Nat) (n : Nat) (cal : Bool) (s : State) :
    Untouched [.recd, .retired] s (listRetired kind n cal s) := by
  unfold listRetired
  repeat' first
    | with_reducible exact Untouched.refl _ _
    | lift_lets -underBinder
    | (with_reducible apply Untouched.step (k := emit_frame ..); case i => decide)
    | split
    | with_reducible refine Untouched.put ?_

theorem modDio_frame (ch : Nat) (f : Dio → Dio) (s : State) :
    Untouched [.dio] s (modDio ch f s) := by
  unfold modDio
  repeat' first
    | with_reducible exact Untouched.refl _ _
    | lift_lets -underBinder
    | (intro x; subst x)
    | with_reducible refine Untouched.put ?_

theorem modBank_frame (b : Nat) (f : Bank → Bank) (s : State) :
    Untouched [.dio] s (modBank b f s) := by
  unfold modBank
  repeat' first
    | with_reducible exact Untouched.refl _ _
    | lift_lets -underBinder
    | (intro x; subst x)
    | with_reducible refine Untouched.put ?_

theorem modAio_frame (ch : Nat) (f : Aio → Aio) (s : State) :
    Untouched [.aio] s (modAio ch f s) := by
  unfold modAio
  repeat' first | with_reducible exact Untouched.refl _ _ | with_reducible refine Untouched.put ?_

theorem modAxis_frame (n : Nat) (f : Axis → Axis) (s : State) :
    Untouched [.mot] s (modAxis n f s) := by
  unfold modAxis
  repeat' first
    | with_reducible exact Untouched.refl _ _
    | lift_lets -underBinder
    | (intro x; subst x)
    | with_reducible refine Untouched.put ?_

theorem modPort_frame (p : Nat) (f : CanPort → CanPort) (s : State) :
    Untouched [.can] s (modPort p f s) := by
  unfold modPort
  repeat' first
    | with_reducible exact Untouched.refl _ _
    | lift_lets -underBinder
    | (intro x; subst x)
    | with_reducible refine Untouched.put ?_

theorem modBuf_frame (p : Nat) (b : Nat) (f : CanBuf → CanBuf) (s : State) :
    Untouched [.can] s (modBuf p b f s) := by
  unfold modBuf
  repeat' first
    | with_reducible exact Untouched.refl _ _
    | lift_lets -underBinder
    | (intro x; subst x)
    | with_reducible refine Untouched.put ?_

theorem modSession_frame (n : Nat) (f : Session → Session) (s : State) :
    Untouched [.sess] s (modSession n f s) := by
  unfold modSession
  repeat' first
    | with_reducible exact Untouched.refl _ _
    | lift_lets -underBinder
    | (intro x; subst x)
    | with_reducible refine Untouched.put ?_

theorem modSlot_frame (k : Nat) (f : Slot → Slot) (s : State) :
    Untouched [.sess] s (modSlot k f s) := by
  unfold modSlot
  repeat' first
    | with_reducible exact Untouched.refl _ _
    | lift_lets -underBinder
    | (intro x; subst x)
    | with_reducible refine Untouched.put ?_

theorem modCmd_frame (c : Nat) (f : CmdObj → CmdObj) (s : State) :
    Untouched [.sess] s (modCmd c f s) := by
  unfold modCmd
  repeat' first
    | with_reducible exact Untouched.refl _ _
    | lift_lets -underBinder
    | (intro x; subst x)
    | with_reducible refine Untouched.put ?_

theorem modTask_frame (k : Nat) (f : Task → Task) (s : State) :
    Untouched [.prog] s (modTask k f s) := by
  unfold modTask
  repeat' first
    | with_reducible exact Untouched.refl _ _
    | lift_lets -underBinder
    | (intro x; subst x)
    | with_reducible refine Untouched.put ?_

theorem modLoop_frame (n : Nat) (f : Loop → Loop) (s : State) :
    Untouched [.eng] s (modLoop n f s) := by
  unfold modLoop
  repeat' first
    | with_reducible exact Untouched.refl _ _
    | lift_lets -underBinder
    | (intro x; subst x)
    | with_reducible refine Untouched.put ?_

theorem modTracker_frame (n : Nat) (f : Tracker → Tracker) (s : State) :
    Untouched [.cad] s (modTracker n f s) := by
  unfold modTracker
  repeat' first
    | with_reducible exact Untouched.refl _ _
    | lift_lets -underBinder
    | (intro x; subst x)
    | with_reducible refine Untouched.put ?_

theorem modSched_frame (n : Nat) (f : SlotSt → SlotSt) (s : State) :
    Untouched [.cad] s (modSched n f s) := by
  unfold modSched
  repeat' first
    | with_reducible exact Untouched.refl _ _
    | lift_lets -underBinder
    | (intro x; subst x)
    | with_reducible refine Untouched.put ?_

theorem modSc_frame (n : Nat) (f : Sc → Sc) (s : State) :
    Untouched [.cad] s (modSc n f s) := by
  unfold modSc
  repeat' first
    | with_reducible exact Untouched.refl _ _
    | lift_lets -underBinder
    | (intro x; subst x)
    | with_reducible refine Untouched.put ?_

theorem modNode_frame (n : Nat) (f : Node → Node) (s : State) :
    Untouched [.ring] s (modNode n f s) := by
  unfold modNode
  repeat' first
    | with_reducible exact Untouched.refl _ _
    | lift_lets -underBinder
    | (intro x; subst x)
    | with_reducible refine Untouched.put ?_

theorem modTerm_frame (n : Nat) (f : Terminal → Terminal) (s : State) :
    Untouched [.sio] s (modTerm n f s) := by
  unfold modTerm
  repeat' first
    | with_reducible exact Untouched.refl _ _
    | lift_lets -underBinder
    | (intro x; subst x)
    | with_reducible refine Untouched.put ?_

theorem modSf_frame (n : Nat) (f : SfInst → SfInst) (s : State) :
    Untouched [.sio] s (modSf n f s) := by
  unfold modSf
  repeat' first
    | with_reducible exact Untouched.refl _ _
    | lift_lets -underBinder
    | (intro x; subst x)
    | with_reducible refine Untouched.put ?_

theorem modTp_frame (n : Nat) (f : TpSource → TpSource) (s : State) :
    Untouched [.sio] s (modTp n f s) := by
  unfold modTp
  repeat' first
    | with_reducible exact Untouched.refl _ _
    | lift_lets -underBinder
    | (intro x; subst x)
    | with_reducible refine Untouched.put ?_

theorem modStage_frame (n : Nat) (f : SoStage → SoStage) (s : State) :
    Untouched [.sio] s (modStage n f s) := by
  unfold modStage
  repeat' first
    | with_reducible exact Untouched.refl _ _
    | lift_lets -underBinder
    | (intro x; subst x)
    | with_reducible refine Untouched.put ?_

end Sys2Proof.Machine
end

