-- ==== Sys2Proof/Laws/FrameImage.lean ====
section
/-! SUPPORT. The frame of every operation of Machine/Image.lean: the parts of the state it may touch. -/

set_option Elab.async false

namespace Sys2Proof.Machine

theorem landPoint_frame (p : Nat) (x_ : Pt) (s : State) :
    Untouched [.img] s (landPoint p x_ s) := by
  unfold landPoint
  repeat' first
    | with_reducible exact Untouched.refl _ _
    | lift_lets -underBinder
    | (intro x; subst x)
    | with_reducible refine Untouched.put ?_

theorem produceAs_frame (p : Nat) (v : BitVec 32) (q : Nat) (ts : Int) (s : State) :
    Untouched [.img] s (produceAs p v q ts s) := by
  unfold produceAs
  repeat' first
    | with_reducible exact Untouched.refl _ _
    | (with_reducible apply Untouched.step (k := landPoint_frame ..); case i => decide)
    | split

theorem produce_frame (p : Nat) (v : BitVec 32) (q : Nat) (ts : Int) (s : State) :
    Untouched [.img] s (produce p v q ts s) := by
  unfold produce
  repeat' first
    | with_reducible exact Untouched.refl _ _
    | (with_reducible apply Untouched.step (k := produceAs_frame ..); case i => decide)

theorem produceForme_frame (p : Nat) (v : BitVec 32) (ts : Int) (s : State) :
    Untouched [.img] s (produceForme p v ts s) := by
  unfold produceForme
  repeat' first
    | with_reducible exact Untouched.refl _ _
    | (with_reducible apply Untouched.step (k := produce_frame ..); case i => decide)
    | (with_reducible apply Untouched.step (k := produceAs_frame ..); case i => decide)
    | split

theorem produceAllAs_frame (ps : List Nat) (v : BitVec 32) (q : Nat) (ts : Int) (s : State) :
    Untouched [.img] s (produceAllAs ps v q ts s) := by
  unfold produceAllAs
  repeat' first
    | with_reducible assumption
    | with_reducible exact Untouched.refl _ _
    | lift_lets -underBinder
    | (with_reducible apply Untouched.step (k := produceAs_frame ..); case i => decide)
    | with_reducible refine Untouched.foldl (fun t x ht => ?_) _ _ ?_

theorem produceAll_frame (ps : List Nat) (v : BitVec 32) (q : Nat) (ts : Int) (s : State) :
    Untouched [.img] s (produceAll ps v q ts s) := by
  unfold produceAll
  repeat' first
    | with_reducible assumption
    | with_reducible exact Untouched.refl _ _
    | lift_lets -underBinder
    | (with_reducible apply Untouched.step (k := produce_frame ..); case i => decide)
    | with_reducible refine Untouched.foldl (fun t x ht => ?_) _ _ ?_

theorem decideQual_frame (ps : List Nat) (q : Nat) (s : State) :
    Untouched [.img] s (decideQual ps q s) := by
  unfold decideQual
  repeat' first
    | with_reducible assumption
    | with_reducible exact Untouched.refl _ _
    | lift_lets -underBinder
    | (with_reducible apply Untouched.step (k := produce_frame ..); case i => decide)
    | with_reducible refine Untouched.foldl (fun t x ht => ?_) _ _ ?_

theorem releasePoint_frame (p : Nat) (v : BitVec 32) (s : State) :
    Untouched [.prog] s (releasePoint p v s) := by
  unfold releasePoint
  repeat' first
    | with_reducible exact Untouched.refl _ _
    | lift_lets -underBinder
    | (intro x; subst x)
    | with_reducible refine Untouched.put ?_

theorem dropForce_frame (p : Nat) (variant : Nat) (s : State) :
    Untouched [.img, .recd] s (dropForce p variant s) := by
  unfold dropForce
  repeat' first
    | with_reducible exact Untouched.refl _ _
    | lift_lets -underBinder
    | (intro x; subst x)
    | (with_reducible apply Untouched.step (k := emit_frame ..); case i => decide)
    | split
    | with_reducible refine Untouched.put ?_

theorem applyMapping_frame (old : List (Nat × MapRec)) (s : State) :
    Untouched [.img, .prog, .recd] s (applyMapping old s) := by
  unfold applyMapping
  repeat' first
    | with_reducible assumption
    | lift_lets -underBinder
    | (intro x; have hx : Untouched [.img, .prog, .recd] s x := (by
        subst x
        repeat' first
          | with_reducible assumption
          | with_reducible exact Untouched.refl _ _
          | lift_lets -underBinder
          | (intro x; subst x)
          | (with_reducible apply Untouched.step (k := dropForce_frame ..); case i => decide)
          | (with_reducible apply Untouched.step (k := landPoint_frame ..); case i => decide)
          | split
          | with_reducible refine Untouched.foldl (fun t x ht => ?_) _ _ ?_
          | with_reducible refine Untouched.put ?_); clear_value x)
    | (intro x; subst x)

theorem noteLanding_frame (l : Landing) (s : State) :
    Untouched [.pair] s (noteLanding l s) := by
  unfold noteLanding
  repeat' first
    | with_reducible exact Untouched.refl _ _
    | lift_lets -underBinder
    | (intro x; subst x)
    | split
    | with_reducible refine Untouched.put ?_

end Sys2Proof.Machine
end

