-- ==== Sys2Proof/Laws/FrameOperands.lean ====
section
/-! SUPPORT. The frame of every operation of Machine/Operands.lean: the parts of the state it may touch. -/

set_option Elab.async false

namespace Sys2Proof.Machine

theorem endLease_frame (area : Nat) (s : State) :
    Untouched [.sess] s (endLease area s) := by
  unfold endLease
  repeat' first
    | with_reducible assumption
    | with_reducible exact Untouched.refl _ _
    | lift_lets -underBinder
    | (intro x; have hx : Untouched [.sess] s x := (by
        subst x
        repeat' first
          | with_reducible exact Untouched.refl _ _
          | (with_reducible apply Untouched.step (k := modSession_frame ..); case i => decide)); clear_value x)
    | (intro x; subst x)
    | split
    | with_reducible refine Untouched.put ?_

theorem pruneLeases_frame (s : State) :
    Untouched [.sess] s (pruneLeases s) := by
  unfold pruneLeases
  repeat' first
    | with_reducible assumption
    | with_reducible exact Untouched.refl _ _
    | lift_lets -underBinder
    | (with_reducible apply Untouched.step (k := endLease_frame ..); case i => decide)
    | with_reducible refine Untouched.forAll (fun n t ht => ?_) ?_

theorem releaseKept_frame (s : State) :
    Untouched [.sess] s (releaseKept s) := by
  unfold releaseKept
  repeat' first
    | with_reducible exact Untouched.refl _ _
    | lift_lets -underBinder
    | (intro x; subst x)
    | (with_reducible apply Untouched.step (k := pruneLeases_frame ..); case i => decide)
    | with_reducible refine Untouched.put ?_

theorem closeSession_frame (n : Nat) (cause : Nat) (s : State) :
    Untouched [.sess] s (closeSession n cause s) := by
  unfold closeSession
  repeat' first
    | with_reducible assumption
    | lift_lets -underBinder
    | (intro x; have hx : Untouched [.sess] s x := (by
        subst x
        repeat' first
          | with_reducible assumption
          | with_reducible exact Untouched.refl _ _
          | lift_lets -underBinder
          | (with_reducible apply Untouched.step (k := endLease_frame ..); case i => decide)
          | with_reducible refine Untouched.forAll (fun n t ht => ?_) ?_
          | with_reducible refine Untouched.put ?_); clear_value x)
    | (intro x; subst x)
    | with_reducible refine Untouched.put ?_

theorem await_frame (m : Msg) (s : State) :
    Untouched [.sess] s (await m s) := by
  unfold await
  repeat' first
    | with_reducible exact Untouched.refl _ _
    | lift_lets -underBinder
    | (intro x; subst x)
    | with_reducible refine Untouched.put ?_

theorem answerDone_frame (ses : Session) (h : Hdr) (service : Nat) (a : Answer) (s : State) :
    Untouched [.outbox, .sess, .ring] s (answerDone ses h service a s) := by
  unfold answerDone
  repeat' first
    | with_reducible exact Untouched.refl _ _
    | lift_lets -underBinder
    | (intro x; subst x)
    | (with_reducible apply Untouched.step (k := modSession_frame ..); case i => decide)
    | (with_reducible apply Untouched.step (k := send_frame ..); case i => decide)
    | split

theorem answerOrWait_frame (ses : Session) (h : Hdr) (service : Nat) (a : Answer) (s : State) :
    Untouched [.outbox, .sess, .ring] s (answerOrWait ses h service a s) := by
  unfold answerOrWait
  repeat' first
    | with_reducible exact Untouched.refl _ _
    | lift_lets -underBinder
    | (intro x; subst x)
    | (with_reducible apply Untouched.step (k := answerDone_frame ..); case i => decide)
    | split
    | with_reducible refine Untouched.put ?_

theorem stage_frame (n : Nat) (idx : Nat) (sub : Nat) (off : Nat) (data : List Byte) (s : State) :
    Untouched [.sess] s (stage n idx sub off data s).2 := by
  unfold stage
  repeat' first
    | with_reducible exact Untouched.refl _ _
    | (with_reducible apply Untouched.step (k := modSession_frame ..); case i => decide)
    | split

/-- The parts a request may touch whatever it asks for. -/
abbrev requestParts : List Part := [.outbox, .sess, .ring, .recd]

theorem serve_frame {ps : List Part} {s0 : State} (h : Hdr) (service : Nat) (body : List Byte) {f : Nat → State → Answer × State}
    (hp : ∀ p ∈ requestParts, p ∈ ps) (hf : ∀ n t, Untouched ps s0 t → Untouched ps s0 (f n t).2) {s : State}
    (k : Untouched ps s0 s) : Untouched ps s0 (serve h service body f s) := by
  have hS : ∀ p ∈ [Part.sess], p ∈ ps := fun p q => hp p (by revert p; decide)
  have hR : ∀ p ∈ [Part.recd], p ∈ ps := fun p q => hp p (by revert p; decide)
  have hO : ∀ p ∈ [Part.outbox, .ring], p ∈ ps := fun p q => hp p (by revert p; decide)
  have hA : ∀ p ∈ [Part.outbox, .sess, .ring], p ∈ ps := fun p q => hp p (by revert p; decide)
  unfold serve
  lift_lets
  intro n ses s1 s2
  have h1 : Untouched ps s0 s1 := k.step (modSession_frame _ _ _) hS
  have h2 : Untouched ps s0 s2 := k.step (modSession_frame _ _ _) hS
  clear_value s1 s2
  split
  · exact k
  split
  · exact k.step (await_frame _ _) hS
  split
  · exact k.step (send_frame _ _) hO
  split
  · exact k.step (send_frame _ _) hO
  split
  · split
    · exact (h1.step (closeSession_frame _ _ _) hS).step (emit_frame _ _ _ _) hR
    · exact h1
  split
  · split
    · exact h2.step (send_frame _ _) hO
    · exact h2
  split
  · exact h2.step (send_frame _ _) hO
  · exact (hf _ _ h2).step (answerOrWait_frame _ _ _ _ _) hA

theorem writeReq_frame {ps : List Part} {s0 : State} (h : Hdr) (idx sub ty off : Nat) (data : List Byte)
    {act : Nat → State → Answer × State} (hp : ∀ p ∈ requestParts, p ∈ ps)
    (hf : ∀ n t, Untouched ps s0 t → Untouched ps s0 (act n t).2) {s : State}
    (k : Untouched ps s0 s) : Untouched ps s0 (writeReq h idx sub ty off data act s) := by
  have hS : ∀ p ∈ [Part.sess], p ∈ ps := fun p q => hp p (by revert p; decide)
  unfold writeReq
  refine serve_frame _ _ _ hp (fun n t ht => ?_) k
  lift_lets
  intro t1
  have h1 : Untouched ps s0 t1 := ht.step (pruneLeases_frame _) hS
  clear_value t1
  split
  · exact h1
  · split
    · exact h1.step (stage_frame _ _ _ _ _ _) hS
    · exact hf _ _ h1

end Sys2Proof.Machine
end

