-- ==== Sys2Proof/Laws/FrameSession.lean ====
section
/-! SUPPORT. The frame of every operation of Machine/Session.lean: the parts of the state it may touch. -/

set_option Elab.async false

namespace Sys2Proof.Machine

theorem closeDue_frame (s : State) :
    Untouched [.sess] s (closeDue s) := by
  unfold closeDue
  repeat' first
    | with_reducible assumption
    | with_reducible exact Untouched.refl _ _
    | lift_lets -underBinder
    | (with_reducible apply Untouched.step (k := closeSession_frame ..); case i => decide)
    | split
    | with_reducible refine Untouched.forAll (fun n t ht => ?_) ?_

theorem deferred_frame (idx sub : Nat) (op : List Byte → Nat → State → Answer × State) (data : List Byte) (n : Nat) (s : State) :
    Untouched [.sess] s (deferred idx sub op data n s).2 := by
  unfold deferred
  split
  · exact Untouched.refl _ _
  · exact Untouched.put (Untouched.refl _ s)

theorem request_frame {ps : List Part} {s0 : State} (h : Hdr) (service : Nat) (body : List Byte) {f : Nat → State → Answer × State}
    (hp : ∀ p ∈ requestParts, p ∈ ps) (hf : ∀ n t, Untouched ps s0 t → Untouched ps s0 (f n t).2) {s : State}
    (k : Untouched ps s0 s) : Untouched ps s0 (request h service body f s) :=
  serve_frame _ _ _ hp hf (k.step (closeDue_frame _) (fun p q => hp p (by revert p; decide)))

theorem openReqState_frame (path : Path) (peer : Nat) (slot : Nat) (role : Nat) (nonceH : List Byte) (s : State) :
    Untouched [.freeN, .outbox, .sess, .ring] s (openReqState path peer slot role nonceH s) := by
  unfold openReqState
  repeat' first
    | with_reducible assumption
    | with_reducible exact Untouched.refl _ _
    | lift_lets -underBinder
    | (intro x; have hx : Untouched [.freeN, .outbox, .sess, .ring] s x := (by
        subst x
        repeat' first
          | with_reducible exact Untouched.refl _ _
          | (with_reducible apply Untouched.step (k := closeDue_frame ..); case i => decide)); clear_value x)
    | (intro x; subst x)
    | (with_reducible apply Untouched.step (k := await_frame ..); case i => decide)
    | (with_reducible apply Untouched.step (k := draw_frame ..); case i => decide)
    | (with_reducible apply Untouched.step (k := send_frame ..); case i => decide)
    | split
    | with_reducible refine Untouched.put ?_

theorem authFailed_frame (n : Nat) (ses : Session) (path : Path) (peer : Nat) (s : State) :
    Untouched [.outbox, .sess, .ring, .recd] s (authFailed n ses path peer s) := by
  unfold authFailed
  repeat' first
    | with_reducible assumption
    | lift_lets -underBinder
    | (intro x; have hx : Untouched [.outbox, .sess, .ring, .recd] s x := (by
        subst x
        repeat' first
          | with_reducible assumption
          | with_reducible exact Untouched.refl _ _
          | lift_lets -underBinder
          | (with_reducible apply Untouched.step (k := closeSession_frame ..); case i => decide)
          | (with_reducible apply Untouched.step (k := emit_frame ..); case i => decide)
          | (with_reducible apply Untouched.step (k := modSlot_frame ..); case i => decide)
          | split); clear_value x)
    | (intro x; subst x)
    | (with_reducible apply Untouched.step (k := send_frame ..); case i => decide)

theorem authState_frame (path : Path) (peer : Nat) (n : Nat) (proof : List Byte) (s : State) :
    Untouched [.outbox, .sess, .ring, .recd] s (authState path peer n proof s) := by
  unfold authState
  repeat' first
    | with_reducible assumption
    | with_reducible exact Untouched.refl _ _
    | lift_lets -underBinder
    | (intro x; have hx : Untouched [.outbox, .sess, .ring, .recd] s x := (by
        subst x
        repeat' first
          | with_reducible assumption
          | with_reducible exact Untouched.refl _ _
          | (with_reducible apply Untouched.step (k := closeDue_frame ..); case i => decide)
          | (with_reducible apply Untouched.step (k := modSession_frame ..); case i => decide)); clear_value x)
    | (intro x; subst x)
    | (with_reducible apply Untouched.step (k := authFailed_frame ..); case i => decide)
    | (with_reducible apply Untouched.step (k := await_frame ..); case i => decide)
    | (with_reducible apply Untouched.step (k := send_frame ..); case i => decide)
    | split

theorem closeState_frame (h : Hdr) (s : State) :
    Untouched [.outbox, .sess, .ring, .recd] s (closeState h s) := by
  unfold closeState
  repeat' first
    | with_reducible assumption
    | with_reducible exact Untouched.refl _ _
    | lift_lets -underBinder
    | (with_reducible apply Untouched.step (k := closeSession_frame ..); case i => decide)
    | with_reducible refine request_frame _ _ _ (by decide) (fun n t ht => ?_) ?_
    | split

theorem txnBeginState_frame (h : Hdr) (s : State) :
    Untouched [.outbox, .sess, .ring, .recd] s (txnBeginState h s) := by
  unfold txnBeginState
  repeat' first
    | with_reducible assumption
    | with_reducible exact Untouched.refl _ _
    | lift_lets -underBinder
    | (with_reducible apply Untouched.step (k := modSession_frame ..); case i => decide)
    | with_reducible refine request_frame _ _ _ (by decide) (fun n t ht => ?_) ?_
    | split

theorem txnAbortState_frame (h : Hdr) (s : State) :
    Untouched [.outbox, .sess, .ring, .recd] s (txnAbortState h s) := by
  unfold txnAbortState
  repeat' first
    | with_reducible assumption
    | with_reducible exact Untouched.refl _ _
    | lift_lets -underBinder
    | (with_reducible apply Untouched.step (k := modSession_frame ..); case i => decide)
    | with_reducible refine request_frame _ _ _ (by decide) (fun n t ht => ?_) ?_
    | split

theorem keepaliveState_frame (h : Hdr) (s : State) :
    Untouched [.outbox, .sess, .ring, .recd] s (keepaliveState h s) := by
  unfold keepaliveState
  repeat' first
    | with_reducible assumption
    | with_reducible exact Untouched.refl _ _
    | lift_lets -underBinder
    | with_reducible refine request_frame _ _ _ (by decide) (fun n t ht => ?_) ?_
    | split

theorem cmdStart_frame (c : Nat) (n : Nat) (s : State) :
    Untouched [.sess] s (cmdStart c n s) := by
  unfold cmdStart
  repeat' first
    | with_reducible exact Untouched.refl _ _
    | (with_reducible apply Untouched.step (k := modCmd_frame ..); case i => decide)

theorem cmdDone_frame (c : Nat) (result : List Byte) (s : State) :
    Untouched [.sess] s (cmdDone c result s) := by
  unfold cmdDone
  repeat' first
    | with_reducible exact Untouched.refl _ _
    | (with_reducible apply Untouched.step (k := modCmd_frame ..); case i => decide)

theorem cmdFail_frame (c : Nat) (a : Abort) (s : State) :
    Untouched [.sess] s (cmdFail c a s) := by
  unfold cmdFail
  repeat' first
    | with_reducible exact Untouched.refl _ _
    | (with_reducible apply Untouched.step (k := modCmd_frame ..); case i => decide)

theorem cmdNow_frame (c : Nat) (n : Nat) (result : List Byte) (s : State) :
    Untouched [.sess] s (cmdNow c n result s).2 := by
  unfold cmdNow
  repeat' first
    | with_reducible exact Untouched.refl _ _
    | lift_lets -underBinder
    | (with_reducible apply Untouched.step (k := cmdDone_frame ..); case i => decide)
    | (with_reducible apply Untouched.step (k := cmdStart_frame ..); case i => decide)

theorem leaseOp_frame (data : List Byte) (n : Nat) (s : State) :
    Untouched [.sess] s (leaseOp data n s).2 := by
  unfold leaseOp
  repeat' first
    | with_reducible exact Untouched.refl _ _
    | lift_lets -underBinder
    | (intro x; subst x)
    | (with_reducible apply Untouched.step (k := cmdNow_frame ..); case i => decide)
    | (with_reducible apply Untouched.step (k := endLease_frame ..); case i => decide)
    | split
    | with_reducible refine Untouched.put ?_

theorem passOn_frame (key : Nat) (s : State) :
    Untouched [.sess] s (passOn key s) := by
  unfold passOn
  repeat' first
    | with_reducible exact Untouched.refl _ _
    | lift_lets -underBinder
    | (intro x; subst x)
    | with_reducible refine Untouched.put ?_

theorem bulkLengthNow_frame (data : List Byte) (u1 : Nat) (s : State) :
    Untouched [.sess] s (bulkLengthNow data u1 s).2 := by
  unfold bulkLengthNow
  repeat' first
    | with_reducible exact Untouched.refl _ _
    | lift_lets -underBinder
    | (intro x; subst x)
    | (with_reducible apply Untouched.step (k := passOn_frame ..); case i => decide)
    | with_reducible refine Untouched.put ?_

theorem bulkLengthOp_frame (data : List Byte) (n : Nat) (s : State) :
    Untouched [.sess] s (bulkLengthOp data n s).2 := by
  unfold bulkLengthOp
  repeat' first
    | with_reducible exact Untouched.refl _ _
    | (with_reducible apply Untouched.step (k := deferred_frame ..); case i => decide)

theorem bulkDataOp_frame (off : Nat) (data : List Byte) (u2 : Nat) (s : State) :
    Untouched [.sess] s (bulkDataOp off data u2 s).2 := by
  unfold bulkDataOp
  repeat' first
    | with_reducible exact Untouched.refl _ _
    | lift_lets -underBinder
    | (intro x; subst x)
    | dsimp -zeta only
    | with_reducible refine Untouched.put ?_

theorem owe_frame (key : Nat) (s : State) :
    Untouched [.sess] s (owe key s) := by
  unfold owe
  repeat' first
    | with_reducible exact Untouched.refl _ _
    | lift_lets -underBinder
    | (intro x; subst x)
    | (with_reducible apply Untouched.step (k := passOn_frame ..); case i => decide)
    | with_reducible refine Untouched.put ?_

theorem slotKeyOp_frame (k : Nat) (data : List Byte) (n : Nat) (s : State) :
    Untouched [.sess, .recd] s (slotKeyOp k data n s).2 := by
  unfold slotKeyOp
  repeat' first
    | with_reducible assumption
    | lift_lets -underBinder
    | (intro x; have hx : Untouched [.sess, .recd] s x := (by
        subst x
        repeat' first
          | with_reducible assumption
          | with_reducible exact Untouched.refl _ _
          | lift_lets -underBinder
          | (with_reducible apply Untouched.step (k := closeSession_frame ..); case i => decide)
          | (with_reducible apply Untouched.step (k := emit_frame ..); case i => decide)
          | (with_reducible apply Untouched.step (k := modSlot_frame ..); case i => decide)
          | (with_reducible apply Untouched.step (k := owe_frame ..); case i => decide)
          | split
          | with_reducible refine Untouched.forAll (fun n t ht => ?_) ?_); clear_value x)
    | (intro x; subst x)
    | (with_reducible apply Untouched.step (k := closeSession_frame ..); case i => decide)
    | split

theorem keepDirect_frame (idx : Nat) (sub : Nat) (data : List Byte) (s : State) :
    Untouched [.config, .sess] s (keepDirect idx sub data s) := by
  unfold keepDirect
  repeat' first
    | with_reducible exact Untouched.refl _ _
    | lift_lets -underBinder
    | (with_reducible apply Untouched.step (k := owe_frame ..); case i => decide)
    | (with_reducible apply Untouched.step (k := setCfg_frame ..); case i => decide)

theorem signerKeyNow_frame (i : Nat) (data : List Byte) (u2 : Nat) (s : State) :
    Untouched [.config, .sess, .recd] s (signerKeyNow i data u2 s).2 := by
  unfold signerKeyNow
  repeat' first
    | with_reducible exact Untouched.refl _ _
    | lift_lets -underBinder
    | (with_reducible apply Untouched.step (k := emit_frame ..); case i => decide)
    | (with_reducible apply Untouched.step (k := keepDirect_frame ..); case i => decide)

theorem signerKeyOp_frame (i : Nat) (data : List Byte) (n : Nat) (s : State) :
    Untouched [.sess] s (signerKeyOp i data n s).2 := by
  unfold signerKeyOp
  repeat' first
    | with_reducible exact Untouched.refl _ _
    | (with_reducible apply Untouched.step (k := deferred_frame ..); case i => decide)

theorem writeFlashDue_frame (s : State) :
    Untouched [.sess] s (writeFlashDue s) := by
  unfold writeFlashDue
  repeat' first
    | with_reducible exact Untouched.refl _ _
    | lift_lets -underBinder
    | (intro x; subst x)
    | with_reducible refine Untouched.put ?_

theorem rowReq_frame {ps : List Part} {s0 : State} (c : Cmd) (idx sub : Nat) (fixed : List Byte)
    {act : List Byte → Nat → State → Answer × State} (hp : ∀ p ∈ requestParts, p ∈ ps)
    (hf : ∀ d n t, Untouched ps s0 t → Untouched ps s0 (act d n t).2) {s : State}
    (k : Untouched ps s0 s) : Untouched ps s0 (rowReq c idx sub fixed act s) := by
  unfold rowReq cmdReq
  exact writeReq_frame _ _ _ _ _ _ hp (hf _) (k.step (closeDue_frame _) (fun p q => hp p (by revert p; decide)))

end Sys2Proof.Machine
end

