-- ==== Sys2Proof/Laws/FrameRing.lean ====
section
/-! SUPPORT. The frame of every operation of Machine/Ring.lean: the parts of the state it may touch. -/

set_option Elab.async false

namespace Sys2Proof.Machine

theorem noteDup_frame (src : Nat) (seq : Nat) (port : Port) (s : State) :
    Untouched [.ring] s (noteDup src seq port s) := by
  unfold noteDup
  repeat' first
    | with_reducible exact Untouched.refl _ _
    | lift_lets -underBinder
    | (intro x; subst x)
    | with_reducible refine Untouched.put ?_

theorem setVerdict_frame (v : Verdict) (s : State) :
    Untouched [.ring] s (setVerdict v s) := by
  unfold setVerdict
  repeat' first
    | with_reducible exact Untouched.refl _ _
    | lift_lets -underBinder
    | (intro x; subst x)
    | with_reducible refine Untouched.put ?_

theorem countFcs_frame (port : Port) (s : State) :
    Untouched [.ring] s (countFcs port s) := by
  unfold countFcs
  repeat' first
    | with_reducible exact Untouched.refl _ _
    | lift_lets -underBinder
    | (intro x; subst x)
    | split
    | with_reducible refine Untouched.put ?_

theorem frameReceivedState_frame (port : Port) (f : Frame) (s : State) :
    Untouched [.outbox, .ring] s (frameReceivedState port f s) := by
  unfold frameReceivedState
  repeat' first
    | with_reducible assumption
    | with_reducible exact Untouched.refl _ _
    | lift_lets -underBinder
    | (intro x; have hx : Untouched [.outbox, .ring] s x := (by
        subst x
        repeat' first
          | with_reducible exact Untouched.refl _ _
          | (with_reducible apply Untouched.step (k := countFcs_frame ..); case i => decide)
          | (with_reducible apply Untouched.step (k := send_frame ..); case i => decide)
          | split); clear_value x)
    | (intro x; subst x)
    | (with_reducible apply Untouched.step (k := countFcs_frame ..); case i => decide)
    | (with_reducible apply Untouched.step (k := noteDup_frame ..); case i => decide)
    | (with_reducible apply Untouched.step (k := send_frame ..); case i => decide)
    | (with_reducible apply Untouched.step (k := setVerdict_frame ..); case i => decide)
    | split
    | with_reducible refine Untouched.put ?_

theorem declareLost_frame (k : Nat) (s : State) :
    Untouched [.img, .ring, .recd] s (declareLost k s) := by
  unfold declareLost
  repeat' first
    | with_reducible assumption
    | lift_lets -underBinder
    | (intro x; have hx : Untouched [.img, .ring, .recd] s x := (by
        subst x
        repeat' first
          | with_reducible assumption
          | with_reducible exact Untouched.refl _ _
          | (with_reducible apply Untouched.step (k := decideQual_frame ..); case i => decide)
          | (with_reducible apply Untouched.step (k := modNode_frame ..); case i => decide)); clear_value x)
    | (intro x; subst x)
    | (with_reducible apply Untouched.step (k := emit_frame ..); case i => decide)

theorem countMissing_frame (k : Nat) (s : State) :
    Untouched [.img, .ring, .recd] s (countMissing k s) := by
  unfold countMissing
  repeat' first
    | with_reducible assumption
    | lift_lets -underBinder
    | (intro x; have hx : Untouched [.img, .ring, .recd] s x := (by
        subst x
        repeat' first
          | with_reducible exact Untouched.refl _ _
          | (with_reducible apply Untouched.step (k := modNode_frame ..); case i => decide)); clear_value x)
    | (with_reducible apply Untouched.step (k := declareLost_frame ..); case i => decide)
    | split

theorem landEntries_frame (ps : List Nat) (entries : List (BitVec 32 × Byte)) (ts : Int) (s : State) :
    Untouched [.img] s (landEntries ps entries ts s) := by
  unfold landEntries
  repeat' first
    | with_reducible assumption
    | with_reducible exact Untouched.refl _ _
    | lift_lets -underBinder
    | (with_reducible apply Untouched.step (k := produceAs_frame ..); case i => decide)
    | with_reducible refine Untouched.foldl (fun t x ht => ?_) _ _ ?_

theorem setLanded_frame (k : Nat) (f : PdInput) (s : State) :
    Untouched [.ring, .recd] s (setLanded k f s) := by
  unfold setLanded
  repeat' first
    | with_reducible assumption
    | with_reducible exact Untouched.refl _ _
    | lift_lets -underBinder
    | (intro x; have hx : Untouched [.ring, .recd] s x := (by
        subst x
        repeat' first
          | with_reducible exact Untouched.refl _ _
          | (with_reducible apply Untouched.step (k := modNode_frame ..); case i => decide)); clear_value x)
    | (intro x; subst x)
    | (with_reducible apply Untouched.step (k := emit_frame ..); case i => decide)
    | (with_reducible apply Untouched.step (k := modNode_frame ..); case i => decide)
    | split

theorem landSet_frame (k : Nat) (f : PdInput) (s : State) :
    Untouched [.img, .ring, .recd] s (landSet k f s) := by
  unfold landSet
  repeat' first
    | with_reducible exact Untouched.refl _ _
    | lift_lets -underBinder
    | (with_reducible apply Untouched.step (k := landEntries_frame ..); case i => decide)
    | (with_reducible apply Untouched.step (k := setLanded_frame ..); case i => decide)

theorem landWanted_frame (k : Nat) (f : PdInput) (s : State) :
    Untouched [.outbox, .img, .ring, .pair, .recd] s (landWanted k f s) := by
  unfold landWanted
  repeat' first
    | with_reducible assumption
    | with_reducible exact Untouched.refl _ _
    | lift_lets -underBinder
    | (intro x; have hx : Untouched [.outbox, .img, .ring, .pair, .recd] s x := (by
        subst x
        repeat' first
          | with_reducible exact Untouched.refl _ _
          | lift_lets -underBinder
          | (with_reducible apply Untouched.step (k := landSet_frame ..); case i => decide)
          | with_reducible refine Untouched.put ?_); clear_value x)
    | (intro x; subst x)
    | (with_reducible apply Untouched.step (k := sendAck_frame ..); case i => decide)
    | split

theorem setIncomplete_frame (k : Nat) (cls : Nat) (s : State) :
    Untouched [.img, .ring, .recd] s (setIncomplete k cls s) := by
  unfold setIncomplete
  repeat' first
    | with_reducible exact Untouched.refl _ _
    | lift_lets -underBinder
    | (intro x; subst x)
    | (with_reducible apply Untouched.step (k := countMissing_frame ..); case i => decide)
    | split

theorem pdInputFrameState_frame (f : PdInput) (s : State) :
    Untouched [.outbox, .img, .ring, .pair, .recd] s (pdInputFrameState f s) := by
  unfold pdInputFrameState
  repeat' first
    | with_reducible assumption
    | with_reducible exact Untouched.refl _ _
    | lift_lets -underBinder
    | (intro x; have hx : Untouched [.outbox, .img, .ring, .pair, .recd] s x := (by
        subst x
        repeat' first
          | with_reducible assumption
          | with_reducible exact Untouched.refl _ _
          | (with_reducible apply Untouched.step (k := modNode_frame ..); case i => decide)
          | (with_reducible apply Untouched.step (k := setIncomplete_frame ..); case i => decide)
          | split); clear_value x)
    | (intro x; subst x)
    | (with_reducible apply Untouched.step (k := landSet_frame ..); case i => decide)
    | (with_reducible apply Untouched.step (k := landWanted_frame ..); case i => decide)
    | (with_reducible apply Untouched.step (k := modNode_frame ..); case i => decide)
    | (with_reducible apply Untouched.step (k := noteLanding_frame ..); case i => decide)
    | split

theorem sendSet_frame (cls : Nat) (k : Nat) (s : State) :
    Untouched [.outbox, .ring] s (sendSet cls k s) := by
  unfold sendSet
  repeat' first
    | with_reducible assumption
    | with_reducible exact Untouched.refl _ _
    | lift_lets -underBinder
    | (intro x; have hx : Untouched [.outbox, .ring] s x := (by
        subst x
        repeat' first
          | with_reducible assumption
          | with_reducible exact Untouched.refl _ _
          | lift_lets -underBinder
          | (with_reducible apply Untouched.step (k := send_frame ..); case i => decide)
          | split
          | with_reducible refine Untouched.foldl (fun t x ht => ?_) _ _ ?_); clear_value x)
    | (intro x; subst x)
    | (with_reducible apply Untouched.step (k := modNode_frame ..); case i => decide)
    | split

theorem pdOutputSetSendState_frame (cls : Nat) (s : State) :
    Untouched [.outbox, .ring] s (pdOutputSetSendState cls s) := by
  unfold pdOutputSetSendState
  repeat' first
    | with_reducible assumption
    | with_reducible exact Untouched.refl _ _
    | lift_lets -underBinder
    | (intro x; subst x)
    | (with_reducible apply Untouched.step (k := sendSet_frame ..); case i => decide)
    | split
    | with_reducible refine Untouched.forAll (fun n t ht => ?_) ?_
    | with_reducible refine Untouched.put ?_

theorem loseUnreachable_frame (k : Nat) (s : State) :
    Untouched [.img, .ring, .recd] s (loseUnreachable k s) := by
  unfold loseUnreachable
  repeat' first
    | with_reducible exact Untouched.refl _ _
    | lift_lets -underBinder
    | (intro x; subst x)
    | (with_reducible apply Untouched.step (k := declareLost_frame ..); case i => decide)
    | (with_reducible apply Untouched.step (k := modNode_frame ..); case i => decide)
    | split

theorem periodEndState_frame (k : Nat) (cls : Nat) (g : Int) (s : State) :
    Untouched [.img, .ring, .recd] s (periodEndState k cls g s) := by
  unfold periodEndState
  repeat' first
    | with_reducible assumption
    | lift_lets -underBinder
    | (intro x; have hx : Untouched [.img, .ring, .recd] s x := (by
        subst x
        repeat' first
          | with_reducible exact Untouched.refl _ _
          | (with_reducible apply Untouched.step (k := modNode_frame ..); case i => decide)); clear_value x)
    | (intro x; subst x)
    | (with_reducible apply Untouched.step (k := countMissing_frame ..); case i => decide)
    | (with_reducible apply Untouched.step (k := loseUnreachable_frame ..); case i => decide)
    | (with_reducible apply Untouched.step (k := modNode_frame ..); case i => decide)
    | split

theorem sendRm_frame (op : Nat) (port : Nat) (link : Nat) (s : State) :
    Untouched [.outbox, .ring] s (sendRm op port link s) := by
  unfold sendRm
  repeat' first
    | with_reducible exact Untouched.refl _ _
    | (with_reducible apply Untouched.step (k := send_frame ..); case i => decide)

theorem checkReturned_frame (seq : Nat) (s : State) :
    Untouched [.clk, .ring, .recd] s (checkReturned seq s) := by
  unfold checkReturned
  repeat' first
    | with_reducible assumption
    | with_reducible exact Untouched.refl _ _
    | lift_lets -underBinder
    | (intro x; have hx : Untouched [.clk, .ring, .recd] s x := (by
        subst x
        repeat' first | with_reducible exact Untouched.refl _ _ | with_reducible refine Untouched.put ?_); clear_value x)
    | (intro x; subst x)
    | (with_reducible apply Untouched.step (k := emit_frame ..); case i => decide)
    | split

theorem keepBreak_frame (node : Nat) (op : Nat) (portNo : Nat) (link : Nat) (serial : Nat) (s : State) :
    Untouched [.ring] s (keepBreak node op portNo link serial s) := by
  unfold keepBreak
  repeat' first
    | with_reducible exact Untouched.refl _ _
    | lift_lets -underBinder
    | (intro x; subst x)
    | split
    | with_reducible refine Untouched.put ?_

theorem rmFrameState_frame (node : Nat) (seq : Nat) (op : Nat) (portNo : Nat) (link : Nat) (serial : Nat) (s : State) :
    Untouched [.clk, .img, .ring, .recd] s (rmFrameState node seq op portNo link serial s) := by
  unfold rmFrameState
  repeat' first
    | with_reducible assumption
    | with_reducible exact Untouched.refl _ _
    | lift_lets -underBinder
    | (intro x; have hx : Untouched [.clk, .img, .ring, .recd] s x := (by
        subst x
        repeat' first
          | with_reducible assumption
          | with_reducible exact Untouched.refl _ _
          | lift_lets -underBinder
          | (with_reducible apply Untouched.step (k := decideQual_frame ..); case i => decide)
          | (with_reducible apply Untouched.step (k := keepBreak_frame ..); case i => decide)
          | with_reducible refine Untouched.put ?_); clear_value x)
    | (intro x; subst x)
    | (with_reducible apply Untouched.step (k := checkReturned_frame ..); case i => decide)
    | (with_reducible apply Untouched.step (k := emit_frame ..); case i => decide)
    | (with_reducible apply Untouched.step (k := keepBreak_frame ..); case i => decide)
    | split

theorem setLink_frame (port : Port) (up : Bool) (s : State) :
    Untouched [.ring] s (setLink port up s) := by
  unfold setLink
  repeat' first
    | with_reducible exact Untouched.refl _ _
    | lift_lets -underBinder
    | (intro x; subst x)
    | split
    | with_reducible refine Untouched.put ?_

theorem linkChangeState_frame (port : Port) (link : Bool) (s : State) :
    Untouched [.outbox, .ring, .recd] s (linkChangeState port link s) := by
  unfold linkChangeState
  repeat' first
    | with_reducible assumption
    | with_reducible exact Untouched.refl _ _
    | lift_lets -underBinder
    | (intro x; have hx : Untouched [.outbox, .ring, .recd] s x := (by
        subst x
        repeat' first
          | with_reducible assumption
          | with_reducible exact Untouched.refl _ _
          | (with_reducible apply Untouched.step (k := sendRm_frame ..); case i => decide)
          | (with_reducible apply Untouched.step (k := setLink_frame ..); case i => decide)
          | split
          | with_reducible refine Untouched.put ?_); clear_value x)
    | (intro x; subst x)
    | (with_reducible apply Untouched.step (k := emit_frame ..); case i => decide)
    | split

theorem applyNodeTable_frame (old : List (Nat × NodeRec)) (s : State) :
    Untouched [.img, .ring] s (applyNodeTable old s) := by
  unfold applyNodeTable
  repeat' first
    | with_reducible assumption
    | with_reducible exact Untouched.refl _ _
    | lift_lets -underBinder
    | (intro x; subst x)
    | (with_reducible apply Untouched.step (k := decideQual_frame ..); case i => decide)
    | (with_reducible apply Untouched.step (k := modNode_frame ..); case i => decide)
    | split
    | with_reducible refine Untouched.foldl (fun t x ht => ?_) _ _ ?_
    | with_reducible refine Untouched.put ?_

end Sys2Proof.Machine
end

