-- ==== Sys2Proof/Laws/FrameTime.lean ====
section
/-! SUPPORT. The frame of every operation of Machine/Time.lean: the parts of the state it may touch. -/

set_option Elab.async false

namespace Sys2Proof.Machine

theorem enterDisc_frame (d : Disc) (s : State) :
    Untouched [.clk, .recd] s (enterDisc d s) := by
  unfold enterDisc
  repeat' first
    | with_reducible exact Untouched.refl _ _
    | lift_lets -underBinder
    | (intro x; subst x)
    | (with_reducible apply Untouched.step (k := emit_frame ..); case i => decide)
    | split
    | with_reducible refine Untouched.put ?_

theorem enterByTheta_frame (s : State) :
    Untouched [.clk, .recd] s (enterByTheta s) := by
  unfold enterByTheta
  repeat' first
    | with_reducible exact Untouched.refl _ _
    | (with_reducible apply Untouched.step (k := enterDisc_frame ..); case i => decide)

theorem shiftInstants_frame (d : Int) (s : State) :
    Untouched [.sess, .img, .prog, .eng, .cad, .ring, .dio, .pair] s (shiftInstants d s) := by
  unfold shiftInstants
  repeat' first
    | with_reducible assumption
    | lift_lets -underBinder
    | (intro x; have hx : Untouched [.sess, .img, .prog, .eng, .cad, .ring, .dio, .pair] s x := (by
        subst x
        repeat' first
          | with_reducible assumption
          | with_reducible exact Untouched.refl _ _
          | lift_lets -underBinder
          | (with_reducible apply Untouched.step (k := modBank_frame ..); case i => decide)
          | (with_reducible apply Untouched.step (k := modNode_frame ..); case i => decide)
          | (with_reducible apply Untouched.step (k := modSc_frame ..); case i => decide)
          | (with_reducible apply Untouched.step (k := modSched_frame ..); case i => decide)
          | (with_reducible apply Untouched.step (k := modTask_frame ..); case i => decide)
          | (with_reducible apply Untouched.step (k := modTracker_frame ..); case i => decide)
          | with_reducible refine Untouched.forAll (fun n t ht => ?_) ?_
          | dsimp -zeta only
          | with_reducible refine Untouched.put ?_); clear_value x)
    | (intro x; subst x)
    | (with_reducible apply Untouched.step (k := modLoop_frame ..); case i => decide)
    | with_reducible refine Untouched.forAll (fun n t ht => ?_) ?_

theorem stepBy_frame (variant : Nat) (th : Int) (s : State) :
    Untouched [.clk, .sess, .img, .prog, .eng, .cad, .ring, .dio, .pair, .recd] s (stepBy variant th s) := by
  unfold stepBy
  repeat' first
    | with_reducible assumption
    | lift_lets -underBinder
    | (intro x; have hx : Untouched [.clk, .sess, .img, .prog, .eng, .cad, .ring, .dio, .pair, .recd] s x := (by
        subst x
        repeat' first
          | with_reducible exact Untouched.refl _ _
          | lift_lets -underBinder
          | (with_reducible apply Untouched.step (k := shiftInstants_frame ..); case i => decide)
          | (with_reducible apply Untouched.step (k := stepTime_frame ..); case i => decide)); clear_value x)
    | (intro x; subst x)
    | (with_reducible apply Untouched.step (k := emit_frame ..); case i => decide)
    | with_reducible refine Untouched.put ?_

theorem flushCopy_frame (s : State) :
    Untouched [.clk] s (flushCopy s) := by
  unfold flushCopy
  repeat' first
    | with_reducible exact Untouched.refl _ _
    | lift_lets -underBinder
    | (intro x; subst x)
    | split
    | with_reducible refine Untouched.put ?_

theorem pairCopies_frame (t1 : Int) (t2 : Int) (origin : Int) (s : State) :
    Untouched [.clk] s (pairCopies t1 t2 origin s) := by
  unfold pairCopies
  repeat' first
    | with_reducible exact Untouched.refl _ _
    | lift_lets -underBinder
    | (intro x; subst x)
    | split
    | with_reducible refine Untouched.put ?_

theorem followMaster_frame (master : Nat) (rank : Nat) (s : State) :
    Untouched [.clk, .recd] s (followMaster master rank s) := by
  unfold followMaster
  repeat' first
    | with_reducible exact Untouched.refl _ _
    | lift_lets -underBinder
    | (intro x; subst x)
    | (with_reducible apply Untouched.step (k := emit_frame ..); case i => decide)
    | split
    | with_reducible refine Untouched.put ?_

theorem takeBeacon_frame (port : Port) (seq : Nat) (origin : Int) (s : State) :
    Untouched [.clk] s (takeBeacon port seq origin s) := by
  unfold takeBeacon
  repeat' first
    | with_reducible assumption
    | with_reducible exact Untouched.refl _ _
    | lift_lets -underBinder
    | (intro x; have hx : Untouched [.clk] s x := (by
        subst x
        repeat' first
          | with_reducible exact Untouched.refl _ _
          | (with_reducible apply Untouched.step (k := flushCopy_frame ..); case i => decide)); clear_value x)
    | (intro x; subst x)
    | (with_reducible apply Untouched.step (k := pairCopies_frame ..); case i => decide)
    | split
    | with_reducible refine Untouched.put ?_

theorem tbFrameState_frame (port : Port) (seq : Nat) (origin : Int) (master : Nat) (rank : Nat) (s : State) :
    Untouched [.clk, .recd] s (tbFrameState port seq origin master rank s) := by
  unfold tbFrameState
  repeat' first
    | with_reducible assumption
    | with_reducible exact Untouched.refl _ _
    | lift_lets -underBinder
    | (intro x; have hx : Untouched [.clk, .recd] s x := (by
        subst x
        repeat' first
          | with_reducible assumption
          | with_reducible exact Untouched.refl _ _
          | lift_lets -underBinder
          | (with_reducible apply Untouched.step (k := followMaster_frame ..); case i => decide)
          | (with_reducible apply Untouched.step (k := takeBeacon_frame ..); case i => decide)
          | split
          | with_reducible refine Untouched.put ?_); clear_value x)
    | (intro x; subst x)
    | (with_reducible apply Untouched.step (k := enterByTheta_frame ..); case i => decide)
    | (with_reducible apply Untouched.step (k := enterDisc_frame ..); case i => decide)
    | split
    | with_reducible refine Untouched.put ?_

theorem servoAct_frame (th : Int) (s : State) :
    Untouched [.clk, .recd] s (servoAct th s) := by
  unfold servoAct
  repeat' first
    | with_reducible assumption
    | lift_lets -underBinder
    | (intro x; have hx : Untouched [.clk, .recd] s x := (by
        subst x
        repeat' first
          | with_reducible assumption
          | with_reducible exact Untouched.refl _ _
          | (with_reducible apply Untouched.step (k := enterDisc_frame ..); case i => decide)
          | split
          | with_reducible refine Untouched.put ?_); clear_value x)
    | (intro x; subst x)
    | (with_reducible apply Untouched.step (k := setRate_frame ..); case i => decide)
    | split
    | with_reducible refine Untouched.put ?_

theorem acceptSamples_frame (s : State) :
    Untouched [.clk] s (acceptSamples s).2 := by
  unfold acceptSamples
  repeat' first
    | with_reducible exact Untouched.refl _ _
    | lift_lets -underBinder
    | (intro x; subst x)
    | split
    | dsimp -zeta only
    | with_reducible refine Untouched.put ?_

theorem acquirePeriod_frame (s : State) :
    Untouched [.clk, .sess, .img, .prog, .eng, .cad, .ring, .dio, .pair, .recd] s (acquirePeriod s) := by
  unfold acquirePeriod
  repeat' first
    | with_reducible assumption
    | lift_lets -underBinder
    | (intro x; have hx : Untouched [.clk, .sess, .img, .prog, .eng, .cad, .ring, .dio, .pair, .recd] s x := (by
        subst x
        repeat' first
          | with_reducible assumption
          | with_reducible exact Untouched.refl _ _
          | (with_reducible apply Untouched.step (k := stepBy_frame ..); case i => decide)
          | with_reducible refine Untouched.put ?_); clear_value x)
    | (intro x; subst x)
    | (with_reducible apply Untouched.step (k := enterByTheta_frame ..); case i => decide)
    | split
    | with_reducible refine Untouched.put ?_

theorem servoPeriodState_frame (s : State) :
    Untouched [.clk, .sess, .img, .prog, .eng, .cad, .ring, .dio, .pair, .recd] s (servoPeriodState s) := by
  unfold servoPeriodState
  repeat' first
    | with_reducible assumption
    | with_reducible exact Untouched.refl _ _
    | lift_lets -underBinder
    | (intro x; have hx : Untouched [.clk, .sess, .img, .prog, .eng, .cad, .ring, .dio, .pair, .recd] s x := (by
        subst x
        repeat' first
          | with_reducible exact Untouched.refl _ _
          | (with_reducible apply Untouched.step (k := flushCopy_frame ..); case i => decide)); clear_value x)
    | (intro x; subst x)
    | (with_reducible apply Untouched.step (k := acceptSamples_frame ..); case i => decide)
    | (with_reducible apply Untouched.step (k := acquirePeriod_frame ..); case i => decide)
    | (with_reducible apply Untouched.step (k := enterByTheta_frame ..); case i => decide)
    | (with_reducible apply Untouched.step (k := servoAct_frame ..); case i => decide)
    | split
    | with_reducible refine Untouched.of_snd ?_ (by assumption)
    | with_reducible refine Untouched.put ?_

theorem sendLd_frame (port : Port) (op : Nat) (a : Int) (b : Int) (c : Int) (s : State) :
    Untouched [.outbox, .ring] s (sendLd port op a b c s) := by
  unfold sendLd
  repeat' first
    | with_reducible exact Untouched.refl _ _
    | (with_reducible apply Untouched.step (k := send_frame ..); case i => decide)

theorem ldFrameState_frame (port : Port) (op : Nat) (a : Int) (b : Int) (c : Int) (s : State) :
    Untouched [.outbox, .clk, .ring] s (ldFrameState port op a b c s) := by
  unfold ldFrameState
  repeat' first
    | with_reducible exact Untouched.refl _ _
    | lift_lets -underBinder
    | (intro x; subst x)
    | (with_reducible apply Untouched.step (k := sendLd_frame ..); case i => decide)
    | split
    | with_reducible refine Untouched.put ?_

theorem timeRestepOp_frame (data : List Byte) (n : Nat) (s : State) :
    Untouched [.clk, .sess, .img, .prog, .eng, .cad, .ring, .dio, .pair, .recd] s (timeRestepOp data n s).2 := by
  unfold timeRestepOp
  repeat' first
    | with_reducible assumption
    | with_reducible exact Untouched.refl _ _
    | lift_lets -underBinder
    | (intro x; have hx : Untouched [.clk, .sess, .img, .prog, .eng, .cad, .ring, .dio, .pair, .recd] s x := (by
        subst x
        repeat' first
          | with_reducible assumption
          | with_reducible exact Untouched.refl _ _
          | lift_lets -underBinder
          | (with_reducible apply Untouched.step (k := enterByTheta_frame ..); case i => decide)
          | (with_reducible apply Untouched.step (k := setRate_frame ..); case i => decide)
          | (with_reducible apply Untouched.step (k := stepBy_frame ..); case i => decide)
          | split
          | with_reducible refine Untouched.put ?_); clear_value x)
    | (intro x; subst x)
    | (with_reducible apply Untouched.step (k := cmdNow_frame ..); case i => decide)
    | split

theorem applyTimeRank_frame (s : State) :
    Untouched [.clk, .recd] s (applyTimeRank s) := by
  unfold applyTimeRank
  repeat' first
    | with_reducible exact Untouched.refl _ _
    | lift_lets -underBinder
    | (intro x; subst x)
    | (with_reducible apply Untouched.step (k := enterDisc_frame ..); case i => decide)
    | split
    | with_reducible refine Untouched.put ?_

end Sys2Proof.Machine
end

