-- ==== Sys2Proof/Laws/FrameCadence.lean ====
section
/-! SUPPORT. The frame of every operation of Machine/Cadence.lean: the parts of the state it may touch. -/

set_option Elab.async false

namespace Sys2Proof.Machine

theorem produceTracker_frame (n : Nat) (s : State) :
    Untouched [.img] s (produceTracker n s) := by
  unfold produceTracker
  repeat' first
    | with_reducible assumption
    | with_reducible exact Untouched.refl _ _
    | lift_lets -underBinder
    | (intro x; have hx : Untouched [.img] s x := (by
        subst x
        repeat' first
          | with_reducible assumption
          | with_reducible exact Untouched.refl _ _
          | (with_reducible apply Untouched.step (k := produceAll_frame ..); case i => decide)); clear_value x)
    | (intro x; subst x)
    | (with_reducible apply Untouched.step (k := produceAll_frame ..); case i => decide)
    | split

theorem scEnd_frame (i : Nat) (st : ScState) (s : State) :
    Untouched [.cad, .recd] s (scEnd i st s) := by
  unfold scEnd
  repeat' first
    | with_reducible exact Untouched.refl _ _
    | lift_lets -underBinder
    | (intro x; subst x)
    | (with_reducible apply Untouched.step (k := emit_frame ..); case i => decide)
    | (with_reducible apply Untouched.step (k := modSc_frame ..); case i => decide)

theorem scTrackerLeft_frame (n : Nat) (s : State) :
    Untouched [.cad, .recd] s (scTrackerLeft n s) := by
  unfold scTrackerLeft
  repeat' first
    | with_reducible assumption
    | with_reducible exact Untouched.refl _ _
    | lift_lets -underBinder
    | (with_reducible apply Untouched.step (k := scEnd_frame ..); case i => decide)
    | split
    | with_reducible refine Untouched.forAll (fun n t ht => ?_) ?_

theorem scAbortArmed_frame (s : State) :
    Untouched [.cad, .recd] s (scAbortArmed s) := by
  unfold scAbortArmed
  repeat' first
    | with_reducible assumption
    | with_reducible exact Untouched.refl _ _
    | lift_lets -underBinder
    | (with_reducible apply Untouched.step (k := scEnd_frame ..); case i => decide)
    | split
    | with_reducible refine Untouched.forAll (fun n t ht => ?_) ?_

theorem scRetired_frame (ch : Nat) (s : State) :
    Untouched [.cad, .recd] s (scRetired ch s) := by
  unfold scRetired
  repeat' first
    | with_reducible assumption
    | with_reducible exact Untouched.refl _ _
    | lift_lets -underBinder
    | (with_reducible apply Untouched.step (k := scEnd_frame ..); case i => decide)
    | split
    | with_reducible refine Untouched.forAll (fun n t ht => ?_) ?_

theorem enterTrk_frame (n : Nat) (st : TrkState) (s : State) :
    Untouched [.img, .cad, .recd] s (enterTrk n st s) := by
  unfold enterTrk
  repeat' first
    | with_reducible assumption
    | with_reducible exact Untouched.refl _ _
    | lift_lets -underBinder
    | (intro x; have hx : Untouched [.img, .cad, .recd] s x := (by
        subst x
        repeat' first
          | with_reducible assumption
          | with_reducible exact Untouched.refl _ _
          | (with_reducible apply Untouched.step (k := emit_frame ..); case i => decide)
          | (with_reducible apply Untouched.step (k := modTracker_frame ..); case i => decide)
          | (with_reducible apply Untouched.step (k := scTrackerLeft_frame ..); case i => decide)
          | split); clear_value x)
    | (intro x; subst x)
    | (with_reducible apply Untouched.step (k := produceTracker_frame ..); case i => decide)
    | split

theorem loseTracker_frame (n : Nat) (s : State) :
    Untouched [.img, .cad, .recd] s (loseTracker n s) := by
  unfold loseTracker
  repeat' first
    | with_reducible exact Untouched.refl _ _
    | lift_lets -underBinder
    | (intro x; subst x)
    | (with_reducible apply Untouched.step (k := enterTrk_frame ..); case i => decide)
    | (with_reducible apply Untouched.step (k := modTracker_frame ..); case i => decide)
    | split

theorem startTracker_frame (n : Nat) (s : State) :
    Untouched [.img, .cad, .recd] s (startTracker n s) := by
  unfold startTracker
  repeat' first
    | with_reducible assumption
    | lift_lets -underBinder
    | (intro x; have hx : Untouched [.img, .cad, .recd] s x := (by
        subst x
        repeat' first
          | with_reducible assumption
          | with_reducible exact Untouched.refl _ _
          | (with_reducible apply Untouched.step (k := scTrackerLeft_frame ..); case i => decide)
          | split
          | with_reducible refine Untouched.put ?_); clear_value x)
    | (intro x; subst x)
    | (with_reducible apply Untouched.step (k := enterTrk_frame ..); case i => decide)
    | (with_reducible apply Untouched.step (k := modTracker_frame ..); case i => decide)

theorem waitEdge_frame (ch : Nat) (action : Nat) (fireAt : Int) (width : Nat) (slot : Nat) (s : State) :
    Untouched [.dio] s (waitEdge ch action fireAt width slot s) := by
  unfold waitEdge
  repeat' first
    | with_reducible exact Untouched.refl _ _
    | (with_reducible apply Untouched.step (k := modBank_frame ..); case i => decide)
    | split

theorem restSlot_frame (n : Nat) (s : State) :
    Untouched [.cad] s (restSlot n s) := by
  unfold restSlot
  repeat' first
    | with_reducible exact Untouched.refl _ _
    | lift_lets -underBinder
    | (intro x; subst x)
    | (with_reducible apply Untouched.step (k := modSched_frame ..); case i => decide)

theorem scanSlot_frame (n : Nat) (s : State) :
    Untouched [.cad, .dio] s (scanSlot n s) := by
  unfold scanSlot
  repeat' first
    | with_reducible assumption
    | with_reducible exact Untouched.refl _ _
    | lift_lets -underBinder
    | (intro x; have hx : Untouched [.cad, .dio] s x := (by
        subst x
        repeat' first
          | with_reducible exact Untouched.refl _ _
          | (with_reducible apply Untouched.step (k := modSched_frame ..); case i => decide)); clear_value x)
    | (intro x; subst x)
    | (with_reducible apply Untouched.step (k := modSched_frame ..); case i => decide)
    | (with_reducible apply Untouched.step (k := restSlot_frame ..); case i => decide)
    | (with_reducible apply Untouched.step (k := waitEdge_frame ..); case i => decide)
    | split

theorem scanSlots_frame (s : State) :
    Untouched [.cad, .dio] s (scanSlots s) := by
  unfold scanSlots
  repeat' first
    | with_reducible assumption
    | with_reducible exact Untouched.refl _ _
    | lift_lets -underBinder
    | (with_reducible apply Untouched.step (k := scanSlot_frame ..); case i => decide)
    | split
    | with_reducible refine Untouched.forAll (fun n t ht => ?_) ?_

theorem armSlot_frame (n : Nat) (s : State) :
    Untouched [.cad] s (armSlot n s) := by
  unfold armSlot
  repeat' first
    | with_reducible exact Untouched.refl _ _
    | lift_lets -underBinder
    | (intro x; subst x)
    | (with_reducible apply Untouched.step (k := modSched_frame ..); case i => decide)
    | split
    | with_reducible refine Untouched.put ?_

theorem returnUnref_frame (n : Nat) (s : State) :
    Untouched [.img, .cad, .recd] s (returnUnref n s) := by
  unfold returnUnref
  repeat' first
    | with_reducible exact Untouched.refl _ _
    | lift_lets -underBinder
    | (intro x; subst x)
    | (with_reducible apply Untouched.step (k := enterTrk_frame ..); case i => decide)
    | (with_reducible apply Untouched.step (k := modTracker_frame ..); case i => decide)

theorem encoderStep_frame (n : Nat) (fwd : Bool) (s : State) :
    Untouched [.img, .cad, .recd] s (encoderStep n fwd s) := by
  unfold encoderStep
  repeat' first
    | with_reducible assumption
    | lift_lets -underBinder
    | (intro x; have hx : Untouched [.img, .cad, .recd] s x := (by
        subst x
        repeat' first
          | with_reducible exact Untouched.refl _ _
          | (with_reducible apply Untouched.step (k := modTracker_frame ..); case i => decide)); clear_value x)
    | (intro x; subst x)
    | (with_reducible apply Untouched.step (k := enterTrk_frame ..); case i => decide)
    | (with_reducible apply Untouched.step (k := produceTracker_frame ..); case i => decide)
    | (with_reducible apply Untouched.step (k := returnUnref_frame ..); case i => decide)
    | split

theorem encoderZ_frame (n : Nat) (s : State) :
    Untouched [.img, .cad, .recd] s (encoderZ n s) := by
  unfold encoderZ
  repeat' first
    | with_reducible assumption
    | with_reducible exact Untouched.refl _ _
    | lift_lets -underBinder
    | (intro x; have hx : Untouched [.img, .cad, .recd] s x := (by
        subst x
        repeat' first
          | with_reducible exact Untouched.refl _ _
          | (with_reducible apply Untouched.step (k := modTracker_frame ..); case i => decide)); clear_value x)
    | (intro x; subst x)
    | (with_reducible apply Untouched.step (k := enterTrk_frame ..); case i => decide)
    | (with_reducible apply Untouched.step (k := produceTracker_frame ..); case i => decide)
    | split

theorem encoderEdgeState_frame (e : Nat) (ev : EncEvent) (s : State) :
    Untouched [.img, .cad, .dio, .recd] s (encoderEdgeState e ev s) := by
  unfold encoderEdgeState
  repeat' first
    | with_reducible assumption
    | with_reducible exact Untouched.refl _ _
    | lift_lets -underBinder
    | (with_reducible apply Untouched.step (k := encoderStep_frame ..); case i => decide)
    | (with_reducible apply Untouched.step (k := encoderZ_frame ..); case i => decide)
    | (with_reducible apply Untouched.step (k := loseTracker_frame ..); case i => decide)
    | (with_reducible apply Untouched.step (k := modTracker_frame ..); case i => decide)
    | (with_reducible apply Untouched.step (k := scanSlots_frame ..); case i => decide)
    | split
    | with_reducible refine Untouched.forAll (fun n t ht => ?_) ?_

theorem scBusCycle_frame (n : Nat) (s : State) :
    Untouched [.cad] s (scBusCycle n s) := by
  unfold scBusCycle
  repeat' first
    | with_reducible assumption
    | with_reducible exact Untouched.refl _ _
    | lift_lets -underBinder
    | (intro x; subst x)
    | (with_reducible apply Untouched.step (k := modSc_frame ..); case i => decide)
    | split
    | with_reducible refine Untouched.forAll (fun n t ht => ?_) ?_

theorem mainsState_frame (m : Nat) (tz : Int) (codes : List Int) (temp : Int) (s : State) :
    Untouched [.img, .cad, .dio, .recd] s (mainsState m tz codes temp s) := by
  unfold mainsState
  repeat' first
    | with_reducible assumption
    | with_reducible exact Untouched.refl _ _
    | lift_lets -underBinder
    | (intro x; have hx : Untouched [.img, .cad, .dio, .recd] s x := (by
        subst x
        repeat' first
          | with_reducible assumption
          | (with_reducible apply Untouched.step (k := enterTrk_frame ..); case i => decide)
          | (with_reducible apply Untouched.step (k := modTracker_frame ..); case i => decide)
          | (with_reducible apply Untouched.step (k := produceTracker_frame ..); case i => decide)
          | split); clear_value x)
    | (intro x; subst x)
    | (with_reducible apply Untouched.step (k := loseTracker_frame ..); case i => decide)
    | (with_reducible apply Untouched.step (k := scBusCycle_frame ..); case i => decide)
    | (with_reducible apply Untouched.step (k := scanSlots_frame ..); case i => decide)
    | split
    | with_reducible refine Untouched.forAll (fun n t ht => ?_) ?_

theorem pointUpdate_frame (n : Nat) (p : Pt) (s : State) :
    Untouched [.img, .cad, .recd] s (pointUpdate n p s) := by
  unfold pointUpdate
  repeat' first
    | with_reducible assumption
    | with_reducible exact Untouched.refl _ _
    | lift_lets -underBinder
    | (intro x; have hx : Untouched [.img, .cad, .recd] s x := (by
        subst x
        repeat' first
          | with_reducible exact Untouched.refl _ _
          | (with_reducible apply Untouched.step (k := modTracker_frame ..); case i => decide)); clear_value x)
    | (intro x; subst x)
    | (with_reducible apply Untouched.step (k := enterTrk_frame ..); case i => decide)
    | split

theorem pointTracker_frame (n : Nat) (s : State) :
    Untouched [.img, .cad, .recd] s (pointTracker n s) := by
  unfold pointTracker
  repeat' first
    | with_reducible assumption
    | with_reducible exact Untouched.refl _ _
    | lift_lets -underBinder
    | (with_reducible apply Untouched.step (k := pointUpdate_frame ..); case i => decide)
    | with_reducible refine Untouched.foldl (fun t x ht => ?_) _ _ ?_

theorem waveUpdate_frame (n : Nat) (a : Pt) (r : Pt) (s : State) :
    Untouched [.img, .cad, .recd] s (waveUpdate n a r s) := by
  unfold waveUpdate
  repeat' first
    | with_reducible assumption
    | with_reducible exact Untouched.refl _ _
    | lift_lets -underBinder
    | (intro x; have hx : Untouched [.img, .cad, .recd] s x := (by
        subst x
        repeat' first
          | with_reducible exact Untouched.refl _ _
          | (with_reducible apply Untouched.step (k := modTracker_frame ..); case i => decide)); clear_value x)
    | (intro x; subst x)
    | (with_reducible apply Untouched.step (k := enterTrk_frame ..); case i => decide)
    | split

theorem waveTracker_frame (n : Nat) (s : State) :
    Untouched [.img, .cad, .recd] s (waveTracker n s) := by
  unfold waveTracker
  repeat' first
    | with_reducible assumption
    | with_reducible exact Untouched.refl _ _
    | lift_lets -underBinder
    | (with_reducible apply Untouched.step (k := waveUpdate_frame ..); case i => decide)
    | with_reducible refine Untouched.foldl (fun t x ht => ?_) _ _ ?_

theorem tickTrackers_frame (s : State) :
    Untouched [.img, .cad, .recd] s (tickTrackers s) := by
  unfold tickTrackers
  repeat' first
    | with_reducible assumption
    | with_reducible exact Untouched.refl _ _
    | lift_lets -underBinder
    | (with_reducible apply Untouched.step (k := pointTracker_frame ..); case i => decide)
    | (with_reducible apply Untouched.step (k := produceTracker_frame ..); case i => decide)
    | (with_reducible apply Untouched.step (k := waveTracker_frame ..); case i => decide)
    | split
    | with_reducible refine Untouched.forAll (fun n t ht => ?_) ?_

theorem coastEnd_frame (n : Nat) (s : State) :
    Untouched [.img, .cad, .recd] s (coastEnd n s) := by
  unfold coastEnd
  repeat' first
    | with_reducible assumption
    | lift_lets -underBinder
    | (intro x; have hx : Untouched [.img, .cad, .recd] s x := (by
        subst x
        repeat' first
          | with_reducible exact Untouched.refl _ _
          | (with_reducible apply Untouched.step (k := enterTrk_frame ..); case i => decide)); clear_value x)
    | (with_reducible apply Untouched.step (k := returnUnref_frame ..); case i => decide)
    | split

theorem scArmNow_frame (i : Nat) (data : List Byte) (u2 : Nat) (s : State) :
    Untouched [.cad, .recd] s (scArmNow i data u2 s).2 := by
  unfold scArmNow
  repeat' first
    | with_reducible exact Untouched.refl _ _
    | lift_lets -underBinder
    | (intro x; subst x)
    | (with_reducible apply Untouched.step (k := modSc_frame ..); case i => decide)
    | (with_reducible apply Untouched.step (k := scEnd_frame ..); case i => decide)
    | split

theorem scArmOp_frame (i : Nat) (data : List Byte) (n : Nat) (s : State) :
    Untouched [.sess] s (scArmOp i data n s).2 := by
  unfold scArmOp
  repeat' first
    | with_reducible exact Untouched.refl _ _
    | (with_reducible apply Untouched.step (k := deferred_frame ..); case i => decide)

theorem scCommandState_frame (i : Nat) (s : State) :
    Untouched [.cad, .dio] s (scCommandState i s) := by
  unfold scCommandState
  repeat' first
    | with_reducible assumption
    | with_reducible exact Untouched.refl _ _
    | lift_lets -underBinder
    | (intro x; have hx : Untouched [.cad, .dio] s x := (by
        subst x
        repeat' first
          | with_reducible exact Untouched.refl _ _
          | (with_reducible apply Untouched.step (k := modSc_frame ..); case i => decide)); clear_value x)
    | (intro x; subst x)
    | (with_reducible apply Untouched.step (k := waitEdge_frame ..); case i => decide)
    | split

theorem scResume_frame (s : State) :
    Untouched [.dio] s (scResume s) := by
  unfold scResume
  repeat' first
    | with_reducible assumption
    | with_reducible exact Untouched.refl _ _
    | lift_lets -underBinder
    | (intro x; subst x)
    | (with_reducible apply Untouched.step (k := waitEdge_frame ..); case i => decide)
    | split
    | with_reducible refine Untouched.forAll (fun n t ht => ?_) ?_

end Sys2Proof.Machine
end

