-- ==== Sys2Proof/Laws/FrameCan.lean ====
section
/-! SUPPORT. The frame of every operation of Machine/Can.lean: the parts of the state it may touch. -/

set_option Elab.async false

namespace Sys2Proof.Machine

theorem landCan_frame (p : Nat) (b : Nat) (rx : CanRx) (s : State) :
    Untouched [.img, .can] s (landCan p b rx s) := by
  unfold landCan
  repeat' first
    | with_reducible assumption
    | with_reducible exact Untouched.refl _ _
    | lift_lets -underBinder
    | (with_reducible apply Untouched.step (k := modBuf_frame ..); case i => decide)
    | (with_reducible apply Untouched.step (k := produceAs_frame ..); case i => decide)
    | split
    | with_reducible refine Untouched.foldl (fun t x ht => ?_) _ _ ?_

theorem bufTake_frame (p : Nat) (b : Nat) (rx : CanRx) (s : State) :
    Untouched [.img, .can] s (bufTake p b rx s) := by
  unfold bufTake
  repeat' first
    | with_reducible exact Untouched.refl _ _
    | lift_lets -underBinder
    | (intro x; subst x)
    | (with_reducible apply Untouched.step (k := landCan_frame ..); case i => decide)
    | (with_reducible apply Untouched.step (k := modBuf_frame ..); case i => decide)
    | split

theorem canDeliver_frame (p : Nat) (rx : CanRx) (s : State) :
    Untouched [.img, .can] s (canDeliver p rx s) := by
  unfold canDeliver
  repeat' first
    | with_reducible exact Untouched.refl _ _
    | (with_reducible apply Untouched.step (k := bufTake_frame ..); case i => decide)
    | (with_reducible apply Untouched.step (k := modPort_frame ..); case i => decide)
    | split

theorem canLevels_frame (p : Nat) (s : State) :
    Untouched [.can, .recd] s (canLevels p s) := by
  unfold canLevels
  repeat' first
    | with_reducible assumption
    | lift_lets -underBinder
    | (intro x; have hx : Untouched [.can, .recd] s x := (by
        subst x
        repeat' first
          | with_reducible assumption
          | with_reducible exact Untouched.refl _ _
          | (with_reducible apply Untouched.step (k := emit_frame ..); case i => decide)
          | (with_reducible apply Untouched.step (k := modPort_frame ..); case i => decide)
          | split); clear_value x)
    | (intro x; subst x)
    | (with_reducible apply Untouched.step (k := emit_frame ..); case i => decide)
    | split

theorem canGoodRx_frame (p : Nat) (s : State) :
    Untouched [.freeN, .can, .recd] s (canGoodRx p s) := by
  unfold canGoodRx
  repeat' first
    | with_reducible exact Untouched.refl _ _
    | lift_lets -underBinder
    | (intro x; subst x)
    | (with_reducible apply Untouched.step (k := canLevels_frame ..); case i => decide)
    | (with_reducible apply Untouched.step (k := draw_frame ..); case i => decide)
    | (with_reducible apply Untouched.step (k := modPort_frame ..); case i => decide)
    | split

theorem autobaudGood_frame (p : Nat) (s : State) :
    Untouched [.can] s (autobaudGood p s) := by
  unfold autobaudGood
  repeat' first
    | with_reducible exact Untouched.refl _ _
    | lift_lets -underBinder
    | (intro x; subst x)
    | (with_reducible apply Untouched.step (k := modPort_frame ..); case i => decide)
    | split

theorem canSeenBy_frame (p : Nat) (f : CanFrame) (s : State) :
    Untouched [.can, .pair] s (canSeenBy p f s) := by
  unfold canSeenBy
  repeat' first
    | with_reducible assumption
    | lift_lets -underBinder
    | (intro x; have hx : Untouched [.can, .pair] s x := (by
        subst x
        repeat' first
          | with_reducible assumption
          | with_reducible exact Untouched.refl _ _
          | lift_lets -underBinder
          | (with_reducible apply Untouched.step (k := modBuf_frame ..); case i => decide)
          | with_reducible refine Untouched.forAll (fun n t ht => ?_) ?_); clear_value x)
    | (intro x; subst x)
    | with_reducible refine Untouched.put ?_

theorem placeSsp_frame (p : Nat) (b : Nat) (s : State) :
    Untouched [.freeN, .can] s (placeSsp p b s) := by
  unfold placeSsp
  repeat' first
    | with_reducible exact Untouched.refl _ _
    | lift_lets -underBinder
    | (intro x; subst x)
    | (with_reducible apply Untouched.step (k := draw_frame ..); case i => decide)
    | (with_reducible apply Untouched.step (k := modPort_frame ..); case i => decide)
    | split

theorem canOffer_frame (p : Nat) (s : State) :
    Untouched [.freeN, .outbox, .ring, .can] s (canOffer p s) := by
  unfold canOffer
  repeat' first
    | with_reducible exact Untouched.refl _ _
    | lift_lets -underBinder
    | (intro x; subst x)
    | (with_reducible apply Untouched.step (k := modBuf_frame ..); case i => decide)
    | (with_reducible apply Untouched.step (k := placeSsp_frame ..); case i => decide)
    | (with_reducible apply Untouched.step (k := send_frame ..); case i => decide)
    | split

theorem canTrigger_frame (p : Nat) (b : Nat) (s : State) :
    Untouched [.freeN, .outbox, .ring, .can] s (canTrigger p b s) := by
  unfold canTrigger
  repeat' first
    | with_reducible exact Untouched.refl _ _
    | lift_lets -underBinder
    | (intro x; subst x)
    | (with_reducible apply Untouched.step (k := canOffer_frame ..); case i => decide)
    | (with_reducible apply Untouched.step (k := modBuf_frame ..); case i => decide)
    | (with_reducible apply Untouched.step (k := modPort_frame ..); case i => decide)
    | split

theorem canReleased_frame (s : State) :
    Untouched [.freeN, .outbox, .ring, .can] s (canReleased s) := by
  unfold canReleased
  repeat' first
    | with_reducible assumption
    | with_reducible exact Untouched.refl _ _
    | lift_lets -underBinder
    | (intro x; have hx : Untouched [.freeN, .outbox, .ring, .can] s x := (by
        subst x
        repeat' first
          | with_reducible assumption
          | (with_reducible apply Untouched.step (k := modBuf_frame ..); case i => decide)); clear_value x)
    | (intro x; subst x)
    | (with_reducible apply Untouched.step (k := canTrigger_frame ..); case i => decide)
    | split
    | with_reducible refine Untouched.forAll (fun n t ht => ?_) ?_

theorem canRequested_frame (l : List (Nat × Nat × Nat × List Byte)) (s : State) :
    Untouched [.freeN, .outbox, .ring, .can] s (canRequested l s) := by
  unfold canRequested
  repeat' first
    | with_reducible assumption
    | with_reducible exact Untouched.refl _ _
    | lift_lets -underBinder
    | (with_reducible apply Untouched.step (k := canTrigger_frame ..); case i => decide)
    | (with_reducible apply Untouched.step (k := modBuf_frame ..); case i => decide)
    | with_reducible refine Untouched.foldl (fun t x ht => ?_) _ _ ?_

theorem canWithdraw_frame (s : State) :
    Untouched [.can] s (canWithdraw s) := by
  unfold canWithdraw
  repeat' first
    | with_reducible assumption
    | with_reducible exact Untouched.refl _ _
    | lift_lets -underBinder
    | (with_reducible apply Untouched.step (k := modBuf_frame ..); case i => decide)
    | split
    | with_reducible refine Untouched.forAll (fun n t ht => ?_) ?_

theorem canFrameSentState_frame (p : Nat) (s : State) :
    Untouched [.freeN, .outbox, .ring, .can, .recd] s (canFrameSentState p s) := by
  unfold canFrameSentState
  repeat' first
    | with_reducible assumption
    | with_reducible exact Untouched.refl _ _
    | lift_lets -underBinder
    | (intro x; have hx : Untouched [.freeN, .outbox, .ring, .can, .recd] s x := (by
        subst x
        repeat' first
          | with_reducible assumption
          | with_reducible exact Untouched.refl _ _
          | lift_lets -underBinder
          | (with_reducible apply Untouched.step (k := canLevels_frame ..); case i => decide)
          | (with_reducible apply Untouched.step (k := modBuf_frame ..); case i => decide)
          | (with_reducible apply Untouched.step (k := modPort_frame ..); case i => decide)); clear_value x)
    | (intro x; subst x)
    | (with_reducible apply Untouched.step (k := canOffer_frame ..); case i => decide)
    | split

theorem busOffEnter_frame (p : Nat) (s : State) :
    Untouched [.can, .recd] s (busOffEnter p s) := by
  unfold busOffEnter
  repeat' first
    | with_reducible assumption
    | lift_lets -underBinder
    | (intro x; have hx : Untouched [.can, .recd] s x := (by
        subst x
        repeat' first
          | with_reducible assumption
          | with_reducible exact Untouched.refl _ _
          | lift_lets -underBinder
          | (intro x; subst x)
          | (with_reducible apply Untouched.step (k := modBuf_frame ..); case i => decide)
          | (with_reducible apply Untouched.step (k := modPort_frame ..); case i => decide)
          | split
          | with_reducible refine Untouched.forAll (fun n t ht => ?_) ?_); clear_value x)
    | (intro x; subst x)
    | (with_reducible apply Untouched.step (k := emit_frame ..); case i => decide)

theorem bitErrorCounted_frame (p : Nat) (b : Nat) (s : State) :
    Untouched [.can, .recd] s (bitErrorCounted p b s) := by
  unfold bitErrorCounted
  repeat' first
    | with_reducible assumption
    | lift_lets -underBinder
    | (intro x; have hx : Untouched [.can, .recd] s x := (by
        subst x
        repeat' first
          | with_reducible assumption
          | with_reducible exact Untouched.refl _ _
          | (with_reducible apply Untouched.step (k := modBuf_frame ..); case i => decide)
          | (with_reducible apply Untouched.step (k := modPort_frame ..); case i => decide)); clear_value x)
    | (intro x; subst x)
    | (with_reducible apply Untouched.step (k := emit_frame ..); case i => decide)
    | split

theorem canRetry_frame (p : Nat) (b : Nat) (s : State) :
    Untouched [.can] s (canRetry p b s) := by
  unfold canRetry
  repeat' first
    | with_reducible exact Untouched.refl _ _
    | (with_reducible apply Untouched.step (k := modBuf_frame ..); case i => decide)
    | split

theorem canLost_frame (p : Nat) (s : State) :
    Untouched [.can] s (canLost p s) := by
  unfold canLost
  repeat' first
    | with_reducible exact Untouched.refl _ _
    | (with_reducible apply Untouched.step (k := canRetry_frame ..); case i => decide)
    | split

theorem canFrameReceivedState_frame (p : Nat) (f : CanFrame) (s : State) :
    Untouched [.freeN, .outbox, .img, .ring, .can, .pair, .recd] s (canFrameReceivedState p f s) := by
  unfold canFrameReceivedState
  repeat' first
    | with_reducible assumption
    | with_reducible exact Untouched.refl _ _
    | lift_lets -underBinder
    | (intro x; have hx : Untouched [.freeN, .outbox, .img, .ring, .can, .pair, .recd] s x := (by
        subst x
        repeat' first
          | with_reducible assumption
          | with_reducible exact Untouched.refl _ _
          | (with_reducible apply Untouched.step (k := autobaudGood_frame ..); case i => decide)
          | (with_reducible apply Untouched.step (k := canGoodRx_frame ..); case i => decide)
          | (with_reducible apply Untouched.step (k := canLost_frame ..); case i => decide)
          | (with_reducible apply Untouched.step (k := modPort_frame ..); case i => decide)
          | split); clear_value x)
    | (intro x; subst x)
    | (with_reducible apply Untouched.step (k := autobaudGood_frame ..); case i => decide)
    | (with_reducible apply Untouched.step (k := canDeliver_frame ..); case i => decide)
    | (with_reducible apply Untouched.step (k := canLost_frame ..); case i => decide)
    | (with_reducible apply Untouched.step (k := canOffer_frame ..); case i => decide)
    | (with_reducible apply Untouched.step (k := canSeenBy_frame ..); case i => decide)
    | (with_reducible apply Untouched.step (k := modPort_frame ..); case i => decide)
    | (with_reducible apply Untouched.step (k := noteLanding_frame ..); case i => decide)
    | split

theorem autobaudBad_frame (p : Nat) (s : State) :
    Untouched [.can] s (autobaudBad p s) := by
  unfold autobaudBad
  repeat' first
    | with_reducible exact Untouched.refl _ _
    | (with_reducible apply Untouched.step (k := modPort_frame ..); case i => decide)

theorem canErrorState_frame (p : Nat) (kind : CanErr) (tx : Bool) (spot : CanSpot) (s : State) :
    Untouched [.freeN, .outbox, .ring, .can, .recd] s (canErrorState p kind tx spot s) := by
  unfold canErrorState
  repeat' first
    | with_reducible assumption
    | with_reducible exact Untouched.refl _ _
    | lift_lets -underBinder
    | (intro x; have hx : Untouched [.freeN, .outbox, .ring, .can, .recd] s x := (by
        subst x
        repeat' first
          | with_reducible assumption
          | with_reducible exact Untouched.refl _ _
          | (with_reducible apply Untouched.step (k := bitErrorCounted_frame ..); case i => decide)
          | (with_reducible apply Untouched.step (k := canLevels_frame ..); case i => decide)
          | (with_reducible apply Untouched.step (k := canLost_frame ..); case i => decide)
          | (with_reducible apply Untouched.step (k := modPort_frame ..); case i => decide)
          | split); clear_value x)
    | (intro x; subst x)
    | (with_reducible apply Untouched.step (k := autobaudBad_frame ..); case i => decide)
    | (with_reducible apply Untouched.step (k := busOffEnter_frame ..); case i => decide)
    | (with_reducible apply Untouched.step (k := canOffer_frame ..); case i => decide)
    | (with_reducible apply Untouched.step (k := modPort_frame ..); case i => decide)
    | split

theorem startRecovery_frame (p : Nat) (s : State) :
    Untouched [.can] s (startRecovery p s) := by
  unfold startRecovery
  repeat' first
    | with_reducible exact Untouched.refl _ _
    | (with_reducible apply Untouched.step (k := modPort_frame ..); case i => decide)

theorem reenable_frame (p : Nat) (s : State) :
    Untouched [.can] s (reenable p s) := by
  unfold reenable
  repeat' first
    | with_reducible assumption
    | with_reducible exact Untouched.refl _ _
    | lift_lets -underBinder
    | (with_reducible apply Untouched.step (k := modBuf_frame ..); case i => decide)
    | split
    | with_reducible refine Untouched.forAll (fun n t ht => ?_) ?_

theorem canRecoverNow_frame (p : Nat) (data : List Byte) (u2 : Nat) (s : State) :
    Untouched [.can] s (canRecoverNow p data u2 s).2 := by
  unfold canRecoverNow
  repeat' first
    | with_reducible exact Untouched.refl _ _
    | (with_reducible apply Untouched.step (k := reenable_frame ..); case i => decide)
    | (with_reducible apply Untouched.step (k := startRecovery_frame ..); case i => decide)
    | split

theorem canRecoverOp_frame (p : Nat) (data : List Byte) (n : Nat) (s : State) :
    Untouched [.sess] s (canRecoverOp p data n s).2 := by
  unfold canRecoverOp
  repeat' first
    | with_reducible exact Untouched.refl _ _
    | (with_reducible apply Untouched.step (k := deferred_frame ..); case i => decide)

theorem busOffRecoveryState_frame (p : Nat) (s : State) :
    Untouched [.freeN, .outbox, .ring, .can, .recd] s (busOffRecoveryState p s) := by
  unfold busOffRecoveryState
  repeat' first
    | with_reducible assumption
    | with_reducible exact Untouched.refl _ _
    | lift_lets -underBinder
    | (intro x; have hx : Untouched [.freeN, .outbox, .ring, .can, .recd] s x := (by
        subst x
        repeat' first
          | with_reducible assumption
          | with_reducible exact Untouched.refl _ _
          | lift_lets -underBinder
          | (with_reducible apply Untouched.step (k := canLevels_frame ..); case i => decide)
          | (with_reducible apply Untouched.step (k := emit_frame ..); case i => decide)
          | (with_reducible apply Untouched.step (k := modBuf_frame ..); case i => decide)
          | (with_reducible apply Untouched.step (k := modPort_frame ..); case i => decide)
          | split
          | with_reducible refine Untouched.forAll (fun n t ht => ?_) ?_); clear_value x)
    | (intro x; subst x)
    | (with_reducible apply Untouched.step (k := canOffer_frame ..); case i => decide)
    | split

theorem modeChanged_frame (p : Nat) (s : State) :
    Untouched [.can] s (modeChanged p s) := by
  unfold modeChanged
  repeat' first
    | with_reducible assumption
    | lift_lets -underBinder
    | (intro x; have hx : Untouched [.can] s x := (by
        subst x
        repeat' first
          | with_reducible exact Untouched.refl _ _
          | (with_reducible apply Untouched.step (k := modPort_frame ..); case i => decide)); clear_value x)
    | (with_reducible apply Untouched.step (k := modBuf_frame ..); case i => decide)
    | (with_reducible apply Untouched.step (k := modPort_frame ..); case i => decide)
    | split
    | with_reducible refine Untouched.forAll (fun n t ht => ?_) ?_

theorem applyCan_frame (old : Tbl (List Byte)) (p : Nat) (s : State) :
    Untouched [.can, .recd] s (applyCan old p s) := by
  unfold applyCan
  repeat' first
    | with_reducible assumption
    | lift_lets -underBinder
    | (intro x; have hx : Untouched [.can, .recd] s x := (by
        subst x
        repeat' first
          | with_reducible assumption
          | with_reducible exact Untouched.refl _ _
          | (with_reducible apply Untouched.step (k := canLevels_frame ..); case i => decide)
          | (with_reducible apply Untouched.step (k := modPort_frame ..); case i => decide)
          | (with_reducible apply Untouched.step (k := modeChanged_frame ..); case i => decide)
          | split); clear_value x)
    | (intro x; subst x)
    | split
    | with_reducible refine Untouched.forAll (fun n t ht => ?_) ?_
    | dsimp -zeta only
    | with_reducible refine Untouched.put ?_

theorem canTakeover_frame (s : State) :
    Untouched [.freeN, .outbox, .ring, .can] s (canTakeover s) := by
  unfold canTakeover
  repeat' first
    | with_reducible assumption
    | with_reducible exact Untouched.refl _ _
    | lift_lets -underBinder
    | (with_reducible apply Untouched.step (k := canOffer_frame ..); case i => decide)
    | (with_reducible apply Untouched.step (k := modPort_frame ..); case i => decide)
    | split
    | with_reducible refine Untouched.forAll (fun n t ht => ?_) ?_

theorem canStandby_frame (s : State) :
    Untouched [.can] s (canStandby s) := by
  unfold canStandby
  repeat' first
    | with_reducible assumption
    | with_reducible exact Untouched.refl _ _
    | lift_lets -underBinder
    | (with_reducible apply Untouched.step (k := modBuf_frame ..); case i => decide)
    | (with_reducible apply Untouched.step (k := modPort_frame ..); case i => decide)
    | split
    | with_reducible refine Untouched.forAll (fun n t ht => ?_) ?_

end Sys2Proof.Machine
end

