-- ==== Sys2Proof/Laws/FrameSafetyOps.lean ====
section
/-! SUPPORT. The frame of every operation of Machine/SafetyOps.lean: the parts of the state it may touch. -/

set_option Elab.async false

namespace Sys2Proof.Machine

theorem publishStatus_frame (s : State) :
    Untouched [.img, .safe, .sio, .recd] s (publishStatus s) := by
  unfold publishStatus
  repeat' first
    | with_reducible assumption
    | with_reducible exact Untouched.refl _ _
    | lift_lets -underBinder
    | (intro x; subst x)
    | (with_reducible apply Untouched.step (k := produce_frame ..); case i => decide)
    | split
    | with_reducible refine Untouched.foldl (fun t x ht => ?_) _ _ ?_

theorem codeFunctions_frame (used : List Nat) (x_ : Sio) (s : State) :
    Untouched [.safe] s (codeFunctions used x_ s) := by
  unfold codeFunctions
  repeat' first
    | with_reducible exact Untouched.refl _ _
    | lift_lets -underBinder
    | (intro x; subst x)
    | with_reducible refine Untouched.put ?_

theorem reinitSafety_frame (s : State) :
    Untouched [.safe] s (reinitSafety s) := by
  unfold reinitSafety
  repeat' first
    | with_reducible exact Untouched.refl _ _
    | lift_lets -underBinder
    | (intro x; subst x)
    | with_reducible refine Untouched.put ?_

theorem sfStart_frame (s : State) :
    Untouched [.sio] s (sfStart s) := by
  unfold sfStart
  repeat' first
    | with_reducible assumption
    | lift_lets -underBinder
    | (intro x; have hx : Untouched [.sio] s x := (by
        subst x
        repeat' first | with_reducible exact Untouched.refl _ _ | with_reducible refine Untouched.put ?_); clear_value x)
    | (intro x; subst x)
    | (with_reducible apply Untouched.step (k := modSf_frame ..); case i => decide)
    | with_reducible refine Untouched.forAll (fun n t ht => ?_) ?_

theorem startFunctions_frame (s : State) :
    Untouched [.safe, .sio] s (startFunctions s) := by
  unfold startFunctions
  repeat' first
    | with_reducible assumption
    | lift_lets -underBinder
    | (intro x; have hx : Untouched [.safe, .sio] s x := (by
        subst x
        repeat' first
          | with_reducible exact Untouched.refl _ _
          | (with_reducible apply Untouched.step (k := sfStart_frame ..); case i => decide)); clear_value x)
    | (with_reducible apply Untouched.step (k := codeFunctions_frame ..); case i => decide)

theorem enterSafety_frame (st : SafetyState) (s : State) :
    Untouched [.safe, .recd] s (enterSafety st s) := by
  unfold enterSafety
  repeat' first
    | with_reducible exact Untouched.refl _ _
    | lift_lets -underBinder
    | (intro x; subst x)
    | (with_reducible apply Untouched.step (k := emit_frame ..); case i => decide)
    | split
    | with_reducible refine Untouched.put ?_

theorem stagesOff_frame (s : State) :
    Untouched [.safe, .sio] s (stagesOff s) := by
  unfold stagesOff
  repeat' first
    | with_reducible exact Untouched.refl _ _
    | lift_lets -underBinder
    | (intro x; subst x)
    | with_reducible refine Untouched.put ?_

theorem dropPasses_frame (s : State) :
    Untouched [.safe] s (dropPasses s) := by
  unfold dropPasses
  repeat' first
    | with_reducible exact Untouched.refl _ _
    | lift_lets -underBinder
    | (intro x; subst x)
    | with_reducible refine Untouched.put ?_

theorem safeHalt_frame (s : State) :
    Untouched [.img, .safe, .sio, .recd] s (safeHalt s) := by
  unfold safeHalt
  repeat' first
    | with_reducible exact Untouched.refl _ _
    | lift_lets -underBinder
    | (with_reducible apply Untouched.step (k := dropPasses_frame ..); case i => decide)
    | (with_reducible apply Untouched.step (k := enterSafety_frame ..); case i => decide)
    | (with_reducible apply Untouched.step (k := publishStatus_frame ..); case i => decide)
    | (with_reducible apply Untouched.step (k := stagesOff_frame ..); case i => decide)

theorem safeStop_frame (s : State) :
    Untouched [.safe, .sio, .recd] s (safeStop s) := by
  unfold safeStop
  repeat' first
    | with_reducible exact Untouched.refl _ _
    | lift_lets -underBinder
    | (with_reducible apply Untouched.step (k := dropPasses_frame ..); case i => decide)
    | (with_reducible apply Untouched.step (k := enterSafety_frame ..); case i => decide)
    | (with_reducible apply Untouched.step (k := reinitSafety_frame ..); case i => decide)
    | (with_reducible apply Untouched.step (k := startFunctions_frame ..); case i => decide)

theorem noteSafetyFault_frame (cause : Nat) (core : Nat) (s : State) :
    Untouched [.safe, .recd] s (noteSafetyFault cause core s) := by
  unfold noteSafetyFault
  repeat' first
    | with_reducible exact Untouched.refl _ _
    | lift_lets -underBinder
    | (intro x; subst x)
    | (with_reducible apply Untouched.step (k := emit_frame ..); case i => decide)
    | with_reducible refine Untouched.put ?_

theorem safetyFault_frame (cause : Nat) (core : Nat) (s : State) :
    Untouched [.img, .safe, .sio, .recd] s (safetyFault cause core s) := by
  unfold safetyFault
  repeat' first
    | with_reducible assumption
    | with_reducible exact Untouched.refl _ _
    | lift_lets -underBinder
    | (intro x; have hx : Untouched [.img, .safe, .sio, .recd] s x := (by
        subst x
        repeat' first
          | with_reducible assumption
          | with_reducible exact Untouched.refl _ _
          | (with_reducible apply Untouched.step (k := noteSafetyFault_frame ..); case i => decide)
          | with_reducible refine Untouched.put ?_); clear_value x)
    | (intro x; subst x)
    | (with_reducible apply Untouched.step (k := noteSafetyFault_frame ..); case i => decide)
    | (with_reducible apply Untouched.step (k := safeHalt_frame ..); case i => decide)
    | (with_reducible apply Untouched.step (k := safeStop_frame ..); case i => decide)
    | split

theorem endPassA_frame (s : State) :
    Untouched [.safe] s (endPassA s) := by
  unfold endPassA
  repeat' first
    | with_reducible exact Untouched.refl _ _
    | lift_lets -underBinder
    | (intro x; subst x)
    | with_reducible refine Untouched.put ?_

theorem endPassB_frame (s : State) :
    Untouched [.safe] s (endPassB s) := by
  unfold endPassB
  repeat' first
    | with_reducible exact Untouched.refl _ _
    | lift_lets -underBinder
    | (intro x; subst x)
    | with_reducible refine Untouched.put ?_

theorem captureCounts_frame (s : State) :
    Untouched [.safe, .sio, .recd] s (captureCounts s) := by
  unfold captureCounts
  repeat' first
    | with_reducible assumption
    | with_reducible exact Untouched.refl _ _
    | lift_lets -underBinder
    | (intro x; have hx : Untouched [.safe, .sio, .recd] s x := (by
        subst x
        repeat' first
          | with_reducible assumption
          | (with_reducible apply Untouched.step (k := modTerm_frame ..); case i => decide)); clear_value x)
    | (intro x; subst x)
    | (with_reducible apply Untouched.step (k := emit_frame ..); case i => decide)
    | (with_reducible apply Untouched.step (k := noteSafetyFault_frame ..); case i => decide)
    | split
    | with_reducible refine Untouched.forAll (fun n t ht => ?_) ?_

theorem dualCounts_frame (s : State) :
    Untouched [.sio] s (dualCounts s) := by
  unfold dualCounts
  repeat' first
    | with_reducible assumption
    | with_reducible exact Untouched.refl _ _
    | lift_lets -underBinder
    | (intro x; subst x)
    | split
    | with_reducible refine Untouched.forAll (fun n t ht => ?_) ?_
    | with_reducible refine Untouched.put ?_

theorem evalSafe_frame (f : Nat) (s : State) :
    Untouched [.sio, .recd] s (evalSafe f s) := by
  unfold evalSafe
  repeat' first
    | with_reducible assumption
    | lift_lets -underBinder
    | (intro x; have hx : Untouched [.sio, .recd] s x := (by
        subst x
        repeat' first
          | with_reducible assumption
          | with_reducible exact Untouched.refl _ _
          | (with_reducible apply Untouched.step (k := emit_frame ..); case i => decide)
          | (with_reducible apply Untouched.step (k := modSf_frame ..); case i => decide)
          | split); clear_value x)
    | (intro x; subst x)
    | (with_reducible apply Untouched.step (k := emit_frame ..); case i => decide)
    | split

theorem evalHands_frame (f : Nat) (s : State) :
    Untouched [.sio, .recd] s (evalHands f s) := by
  unfold evalHands
  repeat' first
    | with_reducible assumption
    | with_reducible exact Untouched.refl _ _
    | lift_lets -underBinder
    | (intro x; have hx : Untouched [.sio, .recd] s x := (by
        subst x
        repeat' first
          | with_reducible exact Untouched.refl _ _
          | (with_reducible apply Untouched.step (k := modSf_frame ..); case i => decide)); clear_value x)
    | (intro x; subst x)
    | (with_reducible apply Untouched.step (k := emit_frame ..); case i => decide)
    | (with_reducible apply Untouched.step (k := modSf_frame ..); case i => decide)
    | split

theorem evaluate_frame (s : State) :
    Untouched [.safe, .sio, .recd] s (evaluate s) := by
  unfold evaluate
  repeat' first
    | with_reducible assumption
    | with_reducible exact Untouched.refl _ _
    | lift_lets -underBinder
    | (with_reducible apply Untouched.step (k := evalHands_frame ..); case i => decide)
    | (with_reducible apply Untouched.step (k := evalSafe_frame ..); case i => decide)
    | split
    | with_reducible refine Untouched.forAll (fun n t ht => ?_) ?_

theorem evaluation_frame (s : State) :
    Untouched [.safe, .sio, .recd] s (evaluation s) := by
  unfold evaluation
  repeat' first
    | with_reducible assumption
    | lift_lets -underBinder
    | (intro x; have hx : Untouched [.safe, .sio, .recd] s x := (by
        subst x
        repeat' first
          | with_reducible exact Untouched.refl _ _
          | (with_reducible apply Untouched.step (k := captureCounts_frame ..); case i => decide)); clear_value x)
    | (intro x; subst x)
    | (with_reducible apply Untouched.step (k := dualCounts_frame ..); case i => decide)
    | (with_reducible apply Untouched.step (k := evaluate_frame ..); case i => decide)
    | with_reducible refine Untouched.put ?_

theorem showSafety_frame (s : State) :
    Untouched [.sio] s (showSafety s) := by
  unfold showSafety
  repeat' first
    | with_reducible exact Untouched.refl _ _
    | lift_lets -underBinder
    | (intro x; subst x)
    | with_reducible refine Untouched.put ?_

end Sys2Proof.Machine
end

