-- ==== Sys2Proof/Laws/FrameProgram.lean ====
section
/-! SUPPORT. The frame of every operation of Machine/Program.lean: the parts of the state it may touch. -/

set_option Elab.async false

namespace Sys2Proof.Machine

theorem settleClock_frame (s : State) :
    Untouched [.prog] s (settleClock s) := by
  unfold settleClock
  repeat' first
    | with_reducible exact Untouched.refl _ _
    | lift_lets -underBinder
    | (intro x; subst x)
    | with_reducible refine Untouched.put ?_

theorem dropPops_frame (pops : Tbl Nat) (s : State) :
    Untouched [.can] s (dropPops pops s) := by
  unfold dropPops
  repeat' first
    | with_reducible assumption
    | with_reducible exact Untouched.refl _ _
    | lift_lets -underBinder
    | (with_reducible apply Untouched.step (k := modBuf_frame ..); case i => decide)
    | with_reducible refine Untouched.foldl (fun t x ht => ?_) _ _ ?_

theorem settleSwap_frame (s : State) :
    Untouched [.prog] s (settleSwap s) := by
  unfold settleSwap
  repeat' first
    | with_reducible exact Untouched.refl _ _
    | lift_lets -underBinder
    | (intro x; subst x)
    | split
    | with_reducible refine Untouched.put ?_

theorem commitCycle_frame (c : Cycle) (s : State) :
    Untouched [.img, .prog, .can] s (commitCycle c s) := by
  unfold commitCycle
  repeat' first
    | with_reducible assumption
    | lift_lets -underBinder
    | (intro x; have hx : Untouched [.img, .prog, .can] s x := (by
        subst x
        repeat' first
          | with_reducible assumption
          | with_reducible exact Untouched.refl _ _
          | (with_reducible apply Untouched.step (k := settleSwap_frame ..); case i => decide)
          | with_reducible refine Untouched.put ?_); clear_value x)
    | (intro x; subst x)
    | (with_reducible apply Untouched.step (k := dropPops_frame ..); case i => decide)
    | (with_reducible apply Untouched.step (k := produceForme_frame ..); case i => decide)
    | with_reducible refine Untouched.foldl (fun t x ht => ?_) _ _ ?_

theorem aoApply_frame (ch : Nat) (s : State) :
    Untouched [.aio] s (aoApply ch s) := by
  unfold aoApply
  repeat' first
    | with_reducible exact Untouched.refl _ _
    | lift_lets -underBinder
    | (intro x; subst x)
    | (with_reducible apply Untouched.step (k := modAio_frame ..); case i => decide)

theorem afterRelease_frame (old : State) (s : State) :
    Untouched [.freeN, .outbox, .ring, .dio, .can] s (afterRelease old s) := by
  unfold afterRelease
  repeat' first
    | with_reducible assumption
    | lift_lets -underBinder
    | (intro x; have hx : Untouched [.freeN, .outbox, .ring, .dio, .can] s x := (by
        subst x
        repeat' first
          | with_reducible assumption
          | with_reducible exact Untouched.refl _ _
          | lift_lets -underBinder
          | (with_reducible apply Untouched.step (k := modDio_frame ..); case i => decide)
          | split
          | with_reducible refine Untouched.foldl (fun t x ht => ?_) _ _ ?_); clear_value x)
    | (with_reducible apply Untouched.step (k := canReleased_frame ..); case i => decide)
    | (with_reducible apply Untouched.step (k := canTakeover_frame ..); case i => decide)
    | split

theorem endAwaiting_frame (vs : List (Nat × BitVec 32)) (s : State) :
    Untouched [.dio, .aio] s (endAwaiting vs s) := by
  unfold endAwaiting
  repeat' first
    | with_reducible assumption
    | lift_lets -underBinder
    | (intro x; have hx : Untouched [.dio, .aio] s x := (by
        subst x
        repeat' first
          | with_reducible assumption
          | with_reducible exact Untouched.refl _ _
          | lift_lets -underBinder
          | (with_reducible apply Untouched.step (k := modDio_frame ..); case i => decide)
          | split
          | with_reducible refine Untouched.foldl (fun t x ht => ?_) _ _ ?_); clear_value x)
    | (with_reducible apply Untouched.step (k := modAio_frame ..); case i => decide)
    | split
    | with_reducible refine Untouched.foldl (fun t x ht => ?_) _ _ ?_

theorem aoReapply_frame (vs : List (Nat × BitVec 32)) (s : State) :
    Untouched [.aio] s (aoReapply vs s) := by
  unfold aoReapply
  repeat' first
    | with_reducible assumption
    | with_reducible exact Untouched.refl _ _
    | lift_lets -underBinder
    | (with_reducible apply Untouched.step (k := aoApply_frame ..); case i => decide)
    | split
    | with_reducible refine Untouched.foldl (fun t x ht => ?_) _ _ ?_

theorem releaseValues_frame (vs : List (Nat × BitVec 32)) (s : State) :
    Untouched [.freeN, .outbox, .prog, .ring, .dio, .aio, .can] s (releaseValues vs s) := by
  unfold releaseValues
  repeat' first
    | with_reducible assumption
    | with_reducible exact Untouched.refl _ _
    | lift_lets -underBinder
    | (with_reducible apply Untouched.step (k := afterRelease_frame ..); case i => decide)
    | (with_reducible apply Untouched.step (k := aoReapply_frame ..); case i => decide)
    | (with_reducible apply Untouched.step (k := endAwaiting_frame ..); case i => decide)
    | (with_reducible apply Untouched.step (k := releasePoint_frame ..); case i => decide)
    | with_reducible refine Untouched.foldl (fun t x ht => ?_) _ _ ?_

theorem releaseCycle_frame (c : Cycle) (s : State) :
    Untouched [.freeN, .outbox, .prog, .ring, .dio, .aio, .can] s (releaseCycle c s) := by
  unfold releaseCycle
  repeat' first
    | with_reducible assumption
    | lift_lets -underBinder
    | (intro x; have hx : Untouched [.freeN, .outbox, .prog, .ring, .dio, .aio, .can] s x := (by
        subst x
        repeat' first
          | with_reducible assumption
          | with_reducible exact Untouched.refl _ _
          | lift_lets -underBinder
          | (with_reducible apply Untouched.step (k := canRequested_frame ..); case i => decide)
          | (with_reducible apply Untouched.step (k := releaseValues_frame ..); case i => decide)
          | with_reducible refine Untouched.put ?_); clear_value x)
    | (intro x; subst x)
    | (with_reducible apply Untouched.step (k := reenable_frame ..); case i => decide)
    | (with_reducible apply Untouched.step (k := startRecovery_frame ..); case i => decide)
    | split
    | with_reducible refine Untouched.foldl (fun t x ht => ?_) _ _ ?_

theorem releaseCommitted_frame (c : Cycle) (s : State) :
    Untouched [.freeN, .outbox, .prog, .ring, .dio, .aio, .can, .pair] s (releaseCommitted c s) := by
  unfold releaseCommitted
  repeat' first
    | with_reducible exact Untouched.refl _ _
    | lift_lets -underBinder
    | (intro x; subst x)
    | (with_reducible apply Untouched.step (k := releaseCycle_frame ..); case i => decide)
    | split
    | with_reducible refine Untouched.put ?_

theorem firstReleases_frame (s : State) :
    Untouched [.freeN, .outbox, .prog, .ring, .dio, .aio, .can, .pair] s (firstReleases s) := by
  unfold firstReleases
  repeat' first
    | with_reducible assumption
    | with_reducible exact Untouched.refl _ _
    | lift_lets -underBinder
    | (intro x; subst x)
    | (with_reducible apply Untouched.step (k := releaseCycle_frame ..); case i => decide)
    | split
    | with_reducible refine Untouched.foldl (fun t x ht => ?_) _ _ ?_
    | with_reducible refine Untouched.put ?_

theorem noteCarried_frame (s : State) :
    Untouched [.sess] s (noteCarried s) := by
  unfold noteCarried
  repeat' first
    | with_reducible exact Untouched.refl _ _
    | lift_lets -underBinder
    | (intro x; subst x)
    | with_reducible refine Untouched.put ?_

theorem sendCommit_frame (kind : Nat) (content : List Nat) (s : State) :
    Untouched [.outbox, .sess, .ring, .pair] s (sendCommit kind content s) := by
  unfold sendCommit
  repeat' first
    | with_reducible exact Untouched.refl _ _
    | lift_lets -underBinder
    | (with_reducible apply Untouched.step (k := noteCarried_frame ..); case i => decide)
    | (with_reducible apply Untouched.step (k := sendSync_frame ..); case i => decide)

theorem forceAcked_frame (q : Nat) (s : State) :
    Untouched [.sess] s (forceAcked q s) := by
  unfold forceAcked
  repeat' first
    | with_reducible exact Untouched.refl _ _
    | lift_lets -underBinder
    | (intro x; subst x)
    | with_reducible refine Untouched.put ?_

theorem tryHandover_frame (s : State) :
    Untouched [.outbox, .ring, .pair] s (tryHandover s) := by
  unfold tryHandover
  repeat' first
    | with_reducible assumption
    | with_reducible exact Untouched.refl _ _
    | lift_lets -underBinder
    | (intro x; have hx : Untouched [.outbox, .ring, .pair] s x := (by
        subst x
        repeat' first
          | with_reducible exact Untouched.refl _ _
          | (with_reducible apply Untouched.step (k := sendSync_frame ..); case i => decide)); clear_value x)
    | (intro x; subst x)
    | split
    | with_reducible refine Untouched.put ?_

theorem storeDirty_frame (r : TaskRec) (s : State) :
    Untouched [.img, .prog, .can] s (storeDirty r s) := by
  unfold storeDirty
  repeat' first
    | with_reducible exact Untouched.refl _ _
    | (with_reducible apply Untouched.step (k := commitCycle_frame ..); case i => decide)

theorem storeRec_frame (k : Nat) (s : State) :
    Untouched [.img, .prog, .can, .pair] s (storeRec k s) := by
  unfold storeRec
  repeat' first
    | with_reducible exact Untouched.refl _ _
    | lift_lets -underBinder
    | (intro x; subst x)
    | (with_reducible apply Untouched.step (k := storeDirty_frame ..); case i => decide)
    | split
    | with_reducible refine Untouched.put ?_

theorem finishStored_frame (k : Nat) (c : Cycle) (r : TaskRec) (s : State) :
    Untouched [.freeN, .outbox, .img, .prog, .ring, .dio, .aio, .can, .pair] s (finishStored k c r s) := by
  unfold finishStored
  repeat' first
    | with_reducible assumption
    | lift_lets -underBinder
    | (intro x; have hx : Untouched [.freeN, .outbox, .img, .prog, .ring, .dio, .aio, .can, .pair] s x := (by
        subst x
        repeat' first
          | with_reducible exact Untouched.refl _ _
          | lift_lets -underBinder
          | (with_reducible apply Untouched.step (k := storeDirty_frame ..); case i => decide)
          | with_reducible refine Untouched.put ?_); clear_value x)
    | (intro x; subst x)
    | (with_reducible apply Untouched.step (k := commitCycle_frame ..); case i => decide)
    | (with_reducible apply Untouched.step (k := releaseCommitted_frame ..); case i => decide)

theorem failSwitchover_frame (s : State) :
    Untouched [.sess] s (failSwitchover s) := by
  unfold failSwitchover
  repeat' first
    | with_reducible exact Untouched.refl _ _
    | (with_reducible apply Untouched.step (k := cmdFail_frame ..); case i => decide)
    | split

theorem enterUnsynced_frame (s : State) :
    Untouched [.sess, .pair, .recd] s (enterUnsynced s) := by
  unfold enterUnsynced
  repeat' first
    | with_reducible assumption
    | lift_lets -underBinder
    | (intro x; have hx : Untouched [.sess, .pair, .recd] s x := (by
        subst x
        repeat' first
          | with_reducible exact Untouched.refl _ _
          | (with_reducible apply Untouched.step (k := failSwitchover_frame ..); case i => decide)); clear_value x)
    | (intro x; subst x)
    | (with_reducible apply Untouched.step (k := enterPair_frame ..); case i => decide)
    | with_reducible refine Untouched.put ?_

theorem pairTask_frame (k : Nat) (c : Cycle) (r : TaskRec) (s : State) :
    Untouched [.freeN, .outbox, .sess, .img, .prog, .ring, .dio, .aio, .can, .pair, .recd] s (pairTask k c r s) := by
  unfold pairTask
  repeat' first
    | with_reducible assumption
    | with_reducible exact Untouched.refl _ _
    | lift_lets -underBinder
    | (intro x; have hx : Untouched [.freeN, .outbox, .sess, .img, .prog, .ring, .dio, .aio, .can, .pair, .recd] s x := (by
        subst x
        repeat' first
          | with_reducible assumption
          | with_reducible exact Untouched.refl _ _
          | lift_lets -underBinder
          | (with_reducible apply Untouched.step (k := storeDirty_frame ..); case i => decide)
          | with_reducible refine Untouched.put ?_); clear_value x)
    | (intro x; subst x)
    | (with_reducible apply Untouched.step (k := enterUnsynced_frame ..); case i => decide)
    | (with_reducible apply Untouched.step (k := finishStored_frame ..); case i => decide)
    | split

theorem finishCycle_frame (k : Nat) (c : Cycle) (s : State) :
    Untouched [.freeN, .outbox, .sess, .img, .prog, .ring, .dio, .aio, .can, .pair, .recd] s (finishCycle k c s) := by
  unfold finishCycle
  repeat' first
    | with_reducible assumption
    | with_reducible exact Untouched.refl _ _
    | lift_lets -underBinder
    | (intro x; have hx : Untouched [.freeN, .outbox, .sess, .img, .prog, .ring, .dio, .aio, .can, .pair, .recd] s x := (by
        subst x
        repeat' first
          | with_reducible exact Untouched.refl _ _
          | (with_reducible apply Untouched.step (k := sendCommit_frame ..); case i => decide)
          | split); clear_value x)
    | (intro x; subst x)
    | (with_reducible apply Untouched.step (k := commitCycle_frame ..); case i => decide)
    | (with_reducible apply Untouched.step (k := pairTask_frame ..); case i => decide)
    | (with_reducible apply Untouched.step (k := releaseCommitted_frame ..); case i => decide)
    | split
    | with_reducible refine Untouched.put ?_

theorem endCycle_frame (k : Nat) (s : State) :
    Untouched [.freeN, .outbox, .sess, .img, .prog, .ring, .dio, .aio, .can, .pair, .recd] s (endCycle k s) := by
  unfold endCycle
  repeat' first
    | with_reducible exact Untouched.refl _ _
    | lift_lets -underBinder
    | (intro x; subst x)
    | (with_reducible apply Untouched.step (k := finishCycle_frame ..); case i => decide)
    | (with_reducible apply Untouched.step (k := modTask_frame ..); case i => decide)
    | split

theorem abandonCycle_frame (k : Nat) (s : State) :
    Untouched [.prog] s (abandonCycle k s) := by
  unfold abandonCycle
  repeat' first
    | with_reducible exact Untouched.refl _ _
    | (with_reducible apply Untouched.step (k := modTask_frame ..); case i => decide)
    | split

theorem abandonAll_frame (s : State) :
    Untouched [.prog] s (abandonAll s) := by
  unfold abandonAll
  repeat' first
    | with_reducible assumption
    | with_reducible exact Untouched.refl _ _
    | lift_lets -underBinder
    | (with_reducible apply Untouched.step (k := abandonCycle_frame ..); case i => decide)
    | with_reducible refine Untouched.forAll (fun n t ht => ?_) ?_

theorem changeOver_frame (s : State) :
    Untouched [.sess] s (changeOver s) := by
  unfold changeOver
  repeat' first
    | with_reducible exact Untouched.refl _ _
    | (with_reducible apply Untouched.step (k := releaseKept_frame ..); case i => decide)

theorem swapIn_frame (new : Forme) (m : Migrated) (g : Nat) (s : State) :
    Untouched [.prog] s (swapIn new m g s) := by
  unfold swapIn
  repeat' first
    | with_reducible exact Untouched.refl _ _
    | lift_lets -underBinder
    | (intro x; subst x)
    | with_reducible refine Untouched.put ?_

theorem swapNow_frame (pauseUs : Nat) (s : State) :
    Untouched [.sess, .prog, .recd] s (swapNow pauseUs s) := by
  unfold swapNow
  repeat' first
    | with_reducible assumption
    | with_reducible exact Untouched.refl _ _
    | lift_lets -underBinder
    | (intro x; have hx : Untouched [.sess, .prog, .recd] s x := (by
        subst x
        repeat' first
          | with_reducible assumption
          | with_reducible exact Untouched.refl _ _
          | lift_lets -underBinder
          | (with_reducible apply Untouched.step (k := abandonAll_frame ..); case i => decide)
          | (with_reducible apply Untouched.step (k := emit_frame ..); case i => decide)
          | (with_reducible apply Untouched.step (k := settleClock_frame ..); case i => decide)
          | (with_reducible apply Untouched.step (k := settleSwap_frame ..); case i => decide)
          | (with_reducible apply Untouched.step (k := swapIn_frame ..); case i => decide)
          | split); clear_value x)
    | (intro x; subst x)
    | (with_reducible apply Untouched.step (k := changeOver_frame ..); case i => decide)
    | (with_reducible apply Untouched.step (k := cmdDone_frame ..); case i => decide)
    | split

theorem abandonChange_frame (a : Abort) (s : State) :
    Untouched [.sess, .prog, .recd] s (abandonChange a s) := by
  unfold abandonChange
  repeat' first
    | with_reducible assumption
    | lift_lets -underBinder
    | (intro x; have hx : Untouched [.sess, .prog, .recd] s x := (by
        subst x
        repeat' first
          | with_reducible assumption
          | with_reducible exact Untouched.refl _ _
          | (with_reducible apply Untouched.step (k := emit_frame ..); case i => decide)
          | with_reducible refine Untouched.put ?_); clear_value x)
    | (intro x; subst x)
    | (with_reducible apply Untouched.step (k := changeOver_frame ..); case i => decide)
    | (with_reducible apply Untouched.step (k := cmdFail_frame ..); case i => decide)

theorem enterStop_frame (cause : Nat) (s : State) :
    Untouched [.sess, .prog, .cad, .can, .recd] s (enterStop cause s) := by
  unfold enterStop
  repeat' first
    | with_reducible assumption
    | with_reducible exact Untouched.refl _ _
    | lift_lets -underBinder
    | (intro x; have hx : Untouched [.sess, .prog, .cad, .can, .recd] s x := (by
        subst x
        repeat' first
          | with_reducible assumption
          | with_reducible exact Untouched.refl _ _
          | lift_lets -underBinder
          | (with_reducible apply Untouched.step (k := abandonAll_frame ..); case i => decide)
          | (with_reducible apply Untouched.step (k := canWithdraw_frame ..); case i => decide)
          | (with_reducible apply Untouched.step (k := emit_frame ..); case i => decide)
          | (with_reducible apply Untouched.step (k := scAbortArmed_frame ..); case i => decide)
          | (with_reducible apply Untouched.step (k := settleClock_frame ..); case i => decide)
          | with_reducible refine Untouched.put ?_); clear_value x)
    | (intro x; subst x)
    | (with_reducible apply Untouched.step (k := swapNow_frame ..); case i => decide)
    | split

theorem enterHold_frame (until_ : Nat) (s : State) :
    Untouched [.prog, .cad, .recd] s (enterHold until_ s) := by
  unfold enterHold
  repeat' first
    | with_reducible assumption
    | lift_lets -underBinder
    | (intro x; have hx : Untouched [.prog, .cad, .recd] s x := (by
        subst x
        repeat' first
          | with_reducible assumption
          | with_reducible exact Untouched.refl _ _
          | (with_reducible apply Untouched.step (k := settleClock_frame ..); case i => decide)
          | with_reducible refine Untouched.put ?_); clear_value x)
    | (intro x; subst x)
    | (with_reducible apply Untouched.step (k := emit_frame ..); case i => decide)
    | (with_reducible apply Untouched.step (k := scAbortArmed_frame ..); case i => decide)

theorem taskFault_frame (k : Nat) (kind : Nat) (off : Nat) (s : State) :
    Untouched [.sess, .prog, .cad, .can, .recd] s (taskFault k kind off s) := by
  unfold taskFault
  repeat' first
    | with_reducible assumption
    | lift_lets -underBinder
    | (intro x; have hx : Untouched [.sess, .prog, .cad, .can, .recd] s x := (by
        subst x
        repeat' first
          | with_reducible assumption
          | with_reducible exact Untouched.refl _ _
          | (with_reducible apply Untouched.step (k := abandonCycle_frame ..); case i => decide)
          | (with_reducible apply Untouched.step (k := emit_frame ..); case i => decide)
          | (with_reducible apply Untouched.step (k := modTask_frame ..); case i => decide)); clear_value x)
    | (with_reducible apply Untouched.step (k := enterStop_frame ..); case i => decide)
    | split

theorem missRelease_frame (k : Nat) (s : State) :
    Untouched [.sess, .prog, .cad, .can, .recd] s (missRelease k s) := by
  unfold missRelease
  repeat' first
    | with_reducible assumption
    | lift_lets -underBinder
    | (intro x; have hx : Untouched [.sess, .prog, .cad, .can, .recd] s x := (by
        subst x
        repeat' first
          | with_reducible exact Untouched.refl _ _
          | (with_reducible apply Untouched.step (k := modTask_frame ..); case i => decide)); clear_value x)
    | (intro x; subst x)
    | (with_reducible apply Untouched.step (k := taskFault_frame ..); case i => decide)
    | split

theorem releaseTask_frame (k : Nat) (clock : Int) (step : Bool) (s : State) :
    Untouched [.prog] s (releaseTask k clock step s) := by
  unfold releaseTask
  repeat' first
    | with_reducible exact Untouched.refl _ _
    | lift_lets -underBinder
    | (intro x; subst x)
    | (with_reducible apply Untouched.step (k := modTask_frame ..); case i => decide)

theorem releaseOrMiss_frame (k : Nat) (clock : Int) (s : State) :
    Untouched [.sess, .prog, .cad, .can, .recd] s (releaseOrMiss k clock s) := by
  unfold releaseOrMiss
  repeat' first
    | with_reducible exact Untouched.refl _ _
    | (with_reducible apply Untouched.step (k := missRelease_frame ..); case i => decide)
    | (with_reducible apply Untouched.step (k := releaseTask_frame ..); case i => decide)
    | split

theorem gridRelease_frame (k : Nat) (s : State) :
    Untouched [.sess, .prog, .cad, .can, .recd] s (gridRelease k s) := by
  unfold gridRelease
  repeat' first
    | with_reducible exact Untouched.refl _ _
    | lift_lets -underBinder
    | (intro x; subst x)
    | (with_reducible apply Untouched.step (k := modTask_frame ..); case i => decide)
    | (with_reducible apply Untouched.step (k := releaseOrMiss_frame ..); case i => decide)
    | split

theorem releaseAllCyclic_frame (s : State) :
    Untouched [.sess, .prog, .cad, .can, .recd] s (releaseAllCyclic s) := by
  unfold releaseAllCyclic
  repeat' first
    | with_reducible assumption
    | with_reducible exact Untouched.refl _ _
    | lift_lets -underBinder
    | (with_reducible apply Untouched.step (k := gridRelease_frame ..); case i => decide)
    | with_reducible refine Untouched.forAll (fun n t ht => ?_) ?_

theorem triggerTask_frame (k : Nat) (at_ : Int) (s : State) :
    Untouched [.sess, .prog, .cad, .can, .recd] s (triggerTask k at_ s) := by
  unfold triggerTask
  repeat' first
    | with_reducible exact Untouched.refl _ _
    | lift_lets -underBinder
    | (intro x; subst x)
    | (with_reducible apply Untouched.step (k := modTask_frame ..); case i => decide)
    | (with_reducible apply Untouched.step (k := releaseOrMiss_frame ..); case i => decide)
    | split

theorem enterRun_frame (s : State) :
    Untouched [.sess, .prog, .cad, .can, .recd] s (enterRun s) := by
  unfold enterRun
  repeat' first
    | with_reducible assumption
    | lift_lets -underBinder
    | (intro x; have hx : Untouched [.sess, .prog, .cad, .can, .recd] s x := (by
        subst x
        repeat' first | with_reducible exact Untouched.refl _ _ | with_reducible refine Untouched.put ?_); clear_value x)
    | (intro x; subst x)
    | (with_reducible apply Untouched.step (k := emit_frame ..); case i => decide)
    | (with_reducible apply Untouched.step (k := releaseAllCyclic_frame ..); case i => decide)

theorem resumeRun_frame (s : State) :
    Untouched [.freeN, .outbox, .prog, .ring, .can, .recd] s (resumeRun s) := by
  unfold resumeRun
  repeat' first
    | with_reducible assumption
    | lift_lets -underBinder
    | (intro x; have hx : Untouched [.freeN, .outbox, .prog, .ring, .can, .recd] s x := (by
        subst x
        repeat' first
          | with_reducible assumption
          | with_reducible exact Untouched.refl _ _
          | lift_lets -underBinder
          | (with_reducible apply Untouched.step (k := modTask_frame ..); case i => decide)
          | split
          | with_reducible refine Untouched.forAll (fun n t ht => ?_) ?_
          | with_reducible refine Untouched.put ?_); clear_value x)
    | (intro x; subst x)
    | (with_reducible apply Untouched.step (k := canOffer_frame ..); case i => decide)
    | (with_reducible apply Untouched.step (k := emit_frame ..); case i => decide)
    | with_reducible refine Untouched.forAll (fun n t ht => ?_) ?_

end Sys2Proof.Machine
end

