-- ==== Sys2Proof/Laws/FrameExecutor.lean ====
section
/-! SUPPORT. The frame of every operation of Machine/Executor.lean: the parts of the state it may touch. -/

set_option Elab.async false

namespace Sys2Proof.Machine

theorem setCycle_frame (x_ : Ctx) (c : Cycle) (s : State) :
    Untouched [.prog, .safe] s (setCycle x_ c s) := by
  unfold setCycle
  repeat' first
    | with_reducible exact Untouched.refl _ _
    | lift_lets -underBinder
    | (intro x; subst x)
    | (with_reducible apply Untouched.step (k := modTask_frame ..); case i => decide)
    | split
    | with_reducible refine Untouched.put ?_

theorem noteStart_frame (x_ : Ctx) (s : State) :
    Untouched [.prog] s (noteStart x_ s) := by
  unfold noteStart
  repeat' first
    | with_reducible exact Untouched.refl _ _
    | (with_reducible apply Untouched.step (k := modTask_frame ..); case i => decide)
    | split

theorem onWord_frame {ps : List Part} {s0 : State} (x : Ctx) {f : Cycle → State → State} (hp : ∀ p ∈ [Part.prog], p ∈ ps)
    (hf : ∀ c t, Untouched ps s0 t → Untouched ps s0 (f c t)) {s : State} (k : Untouched ps s0 s) :
    Untouched ps s0 (onWord x f s) := by
  have h := k.step (noteStart_frame x s) hp
  unfold onWord
  dsimp only
  split
  · exact hf _ _ h
  · exact h

theorem onCode_frame {ps : List Part} {s0 : State} (x : Ctx) (w : BitVec 32) {f : Cycle → State → State} (hp : ∀ p ∈ [Part.prog], p ∈ ps)
    (hf : ∀ c t, Untouched ps s0 t → Untouched ps s0 (f c t)) {s : State} (k : Untouched ps s0 s) :
    Untouched ps s0 (onCode x w f s) := by
  unfold onCode
  split
  · exact onWord_frame x hp hf k
  · exact k

theorem withReg_frame {ps : List Part} {s0 : State} (x : Ctx) (w : Nat) (c : Cycle) {f : Word64 → State → State}
    (hp : ∀ p ∈ [Part.img, .safe, .sio, .recd], p ∈ ps) (hf : ∀ v t, Untouched ps s0 t → Untouched ps s0 (f v t)) {s : State} (k : Untouched ps s0 s) :
    Untouched ps s0 (withReg x w c f s) := by
  unfold withReg
  split
  · exact hf _ _ k
  · exact k.step (safetyFault_frame _ _ _) hp

theorem wordFault_frame (x_ : Ctx) (kind : Nat) (c : Cycle) (s : State) :
    Untouched [.sess, .img, .prog, .cad, .can, .safe, .sio, .recd] s (wordFault x_ kind c s) := by
  unfold wordFault
  repeat' first
    | with_reducible exact Untouched.refl _ _
    | (with_reducible apply Untouched.step (k := safetyFault_frame ..); case i => decide)
    | (with_reducible apply Untouched.step (k := taskFault_frame ..); case i => decide)
    | split

theorem noteArith_frame (x_ : Ctx) (b : Bool) (s : State) :
    Untouched [.prog] s (noteArith x_ b s) := by
  unfold noteArith
  repeat' first
    | with_reducible exact Untouched.refl _ _
    | (with_reducible apply Untouched.step (k := modTask_frame ..); case i => decide)
    | split

theorem regState_frame (x_ : Ctx) (op : Nat) (dst : Nat) (a : Nat) (b : Nat) (ty : Nat) (s : State) :
    Untouched [.sess, .img, .prog, .cad, .can, .safe, .sio, .recd] s (regState x_ op dst a b ty s) := by
  unfold regState
  repeat' first
    | with_reducible assumption
    | with_reducible exact Untouched.refl _ _
    | lift_lets -underBinder
    | (intro x; subst x)
    | (with_reducible apply Untouched.step (k := noteArith_frame ..); case i => decide)
    | (with_reducible apply Untouched.step (k := safetyFault_frame ..); case i => decide)
    | (with_reducible apply Untouched.step (k := setCycle_frame ..); case i => decide)
    | (with_reducible apply Untouched.step (k := wordFault_frame ..); case i => decide)
    | with_reducible refine withReg_frame _ _ _ (by decide) (fun v t ht => ?_) ?_
    | with_reducible refine onCode_frame _ _ (by decide) (fun c t ht => ?_) ?_
    | split

theorem immState_frame (x_ : Ctx) (op : Nat) (dst : Nat) (imm : Nat) (s : State) :
    Untouched [.img, .prog, .safe, .sio, .recd] s (immState x_ op dst imm s) := by
  unfold immState
  repeat' first
    | with_reducible assumption
    | with_reducible exact Untouched.refl _ _
    | lift_lets -underBinder
    | (intro x; subst x)
    | (with_reducible apply Untouched.step (k := noteArith_frame ..); case i => decide)
    | (with_reducible apply Untouched.step (k := setCycle_frame ..); case i => decide)
    | with_reducible refine withReg_frame _ _ _ (by decide) (fun v t ht => ?_) ?_
    | with_reducible refine onCode_frame _ _ (by decide) (fun c t ht => ?_) ?_

theorem frameLoadState_frame (x_ : Ctx) (w : Nat) (base : Nat) (off : Nat) (s : State) :
    Untouched [.sess, .img, .prog, .cad, .can, .safe, .sio, .recd] s (frameLoadState x_ w base off s) := by
  unfold frameLoadState
  repeat' first
    | with_reducible assumption
    | with_reducible exact Untouched.refl _ _
    | lift_lets -underBinder
    | (intro x; subst x)
    | (with_reducible apply Untouched.step (k := safetyFault_frame ..); case i => decide)
    | (with_reducible apply Untouched.step (k := setCycle_frame ..); case i => decide)
    | (with_reducible apply Untouched.step (k := wordFault_frame ..); case i => decide)
    | with_reducible refine onCode_frame _ _ (by decide) (fun c t ht => ?_) ?_
    | split

theorem dirtyChecked_frame (x_ : Ctx) (c : Cycle) (s : State) :
    Untouched [.sess, .img, .prog, .cad, .can, .safe, .sio, .recd] s (dirtyChecked x_ c s) := by
  unfold dirtyChecked
  repeat' first
    | with_reducible exact Untouched.refl _ _
    | lift_lets -underBinder
    | (with_reducible apply Untouched.step (k := setCycle_frame ..); case i => decide)
    | (with_reducible apply Untouched.step (k := wordFault_frame ..); case i => decide)
    | split

theorem passStore_frame (x_ : Ctx) (a : Nat) (v : Word64) (s : State) :
    Untouched [.safe] s (passStore x_ a v s) := by
  unfold passStore
  repeat' first
    | with_reducible exact Untouched.refl _ _
    | lift_lets -underBinder
    | (intro x; subst x)
    | split
    | with_reducible refine Untouched.put ?_

theorem frameStoreState_frame (x_ : Ctx) (w : Nat) (base : Nat) (off : Nat) (s : State) :
    Untouched [.sess, .img, .prog, .cad, .can, .safe, .sio, .recd] s (frameStoreState x_ w base off s) := by
  unfold frameStoreState
  repeat' first
    | with_reducible assumption
    | with_reducible exact Untouched.refl _ _
    | lift_lets -underBinder
    | (intro x; have hx : Untouched [.sess, .img, .prog, .cad, .can, .safe, .sio, .recd] s x := (by
        subst x
        repeat' first
          | with_reducible assumption
          | (with_reducible apply Untouched.step (k := setCycle_frame ..); case i => decide)); clear_value x)
    | (intro x; subst x)
    | (with_reducible apply Untouched.step (k := dirtyChecked_frame ..); case i => decide)
    | (with_reducible apply Untouched.step (k := passStore_frame ..); case i => decide)
    | (with_reducible apply Untouched.step (k := wordFault_frame ..); case i => decide)
    | with_reducible refine withReg_frame _ _ _ (by decide) (fun v t ht => ?_) ?_
    | with_reducible refine onCode_frame _ _ (by decide) (fun c t ht => ?_) ?_
    | split

theorem freeRead_frame (x_ : Ctx) (w : Nat) (c : Cycle) (s : State) :
    Untouched [.freeN, .prog, .safe] s (freeRead x_ w c s) := by
  unfold freeRead
  repeat' first
    | with_reducible exact Untouched.refl _ _
    | lift_lets -underBinder
    | (with_reducible apply Untouched.step (k := draw_frame ..); case i => decide)
    | (with_reducible apply Untouched.step (k := setCycle_frame ..); case i => decide)

theorem pointRead_frame (x_ : Ctx) (op : Nat) (w : Nat) (point : Nat) (f : Pt → Word64) (s : State) :
    Untouched [.freeN, .sess, .img, .prog, .cad, .can, .safe, .sio, .recd] s (pointRead x_ op w point f s) := by
  unfold pointRead
  repeat' first
    | with_reducible assumption
    | with_reducible exact Untouched.refl _ _
    | lift_lets -underBinder
    | (intro x; subst x)
    | (with_reducible apply Untouched.step (k := freeRead_frame ..); case i => decide)
    | (with_reducible apply Untouched.step (k := safetyFault_frame ..); case i => decide)
    | (with_reducible apply Untouched.step (k := setCycle_frame ..); case i => decide)
    | (with_reducible apply Untouched.step (k := wordFault_frame ..); case i => decide)
    | with_reducible refine onCode_frame _ _ (by decide) (fun c t ht => ?_) ?_
    | split

theorem pointWriteState_frame (x_ : Ctx) (w : Nat) (point : Nat) (s : State) :
    Untouched [.sess, .img, .prog, .cad, .can, .safe, .sio, .recd] s (pointWriteState x_ w point s) := by
  unfold pointWriteState
  repeat' first
    | with_reducible assumption
    | with_reducible exact Untouched.refl _ _
    | lift_lets -underBinder
    | (intro x; have hx : Untouched [.sess, .img, .prog, .cad, .can, .safe, .sio, .recd] s x := (by
        subst x
        repeat' first
          | with_reducible assumption
          | (with_reducible apply Untouched.step (k := setCycle_frame ..); case i => decide)); clear_value x)
    | (intro x; subst x)
    | (with_reducible apply Untouched.step (k := dirtyChecked_frame ..); case i => decide)
    | (with_reducible apply Untouched.step (k := wordFault_frame ..); case i => decide)
    | with_reducible refine withReg_frame _ _ _ (by decide) (fun v t ht => ?_) ?_
    | with_reducible refine onCode_frame _ _ (by decide) (fun c t ht => ?_) ?_
    | split
    | with_reducible refine Untouched.put ?_

theorem callUserState_frame (x_ : Ctx) (d : Nat) (s : State) :
    Untouched [.sess, .img, .prog, .cad, .can, .safe, .sio, .recd] s (callUserState x_ d s) := by
  unfold callUserState
  repeat' first
    | with_reducible assumption
    | with_reducible exact Untouched.refl _ _
    | lift_lets -underBinder
    | (intro x; subst x)
    | (with_reducible apply Untouched.step (k := setCycle_frame ..); case i => decide)
    | (with_reducible apply Untouched.step (k := wordFault_frame ..); case i => decide)
    | with_reducible refine onCode_frame _ _ (by decide) (fun c t ht => ?_) ?_
    | split

theorem callRomState_frame (x_ : Ctx) (d : Nat) (s : State) :
    Untouched [.prog, .safe] s (callRomState x_ d s) := by
  unfold callRomState
  repeat' first
    | with_reducible assumption
    | with_reducible exact Untouched.refl _ _
    | lift_lets -underBinder
    | (intro x; subst x)
    | (with_reducible apply Untouched.step (k := setCycle_frame ..); case i => decide)
    | with_reducible refine onCode_frame _ _ (by decide) (fun c t ht => ?_) ?_

theorem endOfCycle_frame (x_ : Ctx) (arg : Nat) (s : State) :
    Untouched [.freeN, .outbox, .sess, .img, .prog, .ring, .dio, .aio, .can, .safe, .pair, .recd] s (endOfCycle x_ arg s) := by
  unfold endOfCycle
  repeat' first
    | with_reducible assumption
    | with_reducible exact Untouched.refl _ _
    | lift_lets -underBinder
    | (with_reducible apply Untouched.step (k := endCycle_frame ..); case i => decide)
    | (with_reducible apply Untouched.step (k := endPassA_frame ..); case i => decide)
    | (with_reducible apply Untouched.step (k := endPassB_frame ..); case i => decide)
    | with_reducible refine onCode_frame _ _ (by decide) (fun c t ht => ?_) ?_
    | split

end Sys2Proof.Machine
end

