-- ==== Sys2Proof/Laws/FrameBlocks.lean ====
section
/-! SUPPORT. The frame of every operation of Machine/Blocks.lean: the parts of the state it may touch. -/

set_option Elab.async false

namespace Sys2Proof.Machine

theorem putBlock_frame (x_ : Ctx) (number : Nat) (bytes : Nat) (i : Nat) (b : BlockInst) (res : List Nat) (c : Cycle) (s : State) :
    Untouched [.sess, .img, .prog, .cad, .can, .safe, .sio, .recd] s (putBlock x_ number bytes i b res c s) := by
  unfold putBlock
  repeat' first
    | with_reducible assumption
    | with_reducible exact Untouched.refl _ _
    | lift_lets -underBinder
    | (intro x; have hx : Untouched [.sess, .img, .prog, .cad, .can, .safe, .sio, .recd] s x := (by
        subst x
        repeat' first
          | with_reducible exact Untouched.refl _ _
          | (with_reducible apply Untouched.step (k := setCycle_frame ..); case i => decide)); clear_value x)
    | (intro x; subst x)
    | (with_reducible apply Untouched.step (k := setCycle_frame ..); case i => decide)
    | (with_reducible apply Untouched.step (k := wordFault_frame ..); case i => decide)
    | split
    | with_reducible refine Untouched.put ?_

theorem runBlock_frame (x_ : Ctx) (number : Nat) (bytes : Nat) (inst : Nat) (f : BlockInst → BlockInst × List Nat) (s : State) :
    Untouched [.sess, .img, .prog, .cad, .can, .safe, .sio, .recd] s (runBlock x_ number bytes inst f s) := by
  unfold runBlock
  repeat' first
    | with_reducible assumption
    | with_reducible exact Untouched.refl _ _
    | lift_lets -underBinder
    | (intro x; subst x)
    | (with_reducible apply Untouched.step (k := putBlock_frame ..); case i => decide)
    | (with_reducible apply Untouched.step (k := safetyFault_frame ..); case i => decide)
    | with_reducible refine onWord_frame _ (by decide) (fun c t ht => ?_) ?_
    | split

theorem onFunction_frame {ps : List Part} {s0 : State} (k : Fin 48) (number : Nat) {f : Cycle → State → State} (hp : ∀ p ∈ [Part.prog], p ∈ ps)
    (hf : ∀ c t, Untouched ps s0 t → Untouched ps s0 (f c t)) {s : State} (h : Untouched ps s0 s) :
    Untouched ps s0 (onFunction k number f s) := by
  unfold onFunction
  refine onWord_frame _ hp (fun c t ht => ?_) h
  split
  · exact hf _ _ ht
  · exact ht

theorem canRecvState_frame (k : Fin 48) (p : Nat) (b : Nat) (s : State) :
    Untouched [.prog, .safe] s (canRecvState k p b s) := by
  unfold canRecvState
  repeat' first
    | with_reducible assumption
    | with_reducible exact Untouched.refl _ _
    | lift_lets -underBinder
    | (intro x; subst x)
    | (with_reducible apply Untouched.step (k := setCycle_frame ..); case i => decide)
    | with_reducible refine onFunction_frame _ _ (by decide) (fun c t ht => ?_) ?_
    | split

theorem canSendState_frame (k : Fin 48) (p : Nat) (b : Nat) (id : Nat) (data : List Byte) (s : State) :
    Untouched [.prog, .safe] s (canSendState k p b id data s) := by
  unfold canSendState
  repeat' first
    | with_reducible assumption
    | with_reducible exact Untouched.refl _ _
    | lift_lets -underBinder
    | (intro x; subst x)
    | (with_reducible apply Untouched.step (k := setCycle_frame ..); case i => decide)
    | with_reducible refine onFunction_frame _ _ (by decide) (fun c t ht => ?_) ?_

theorem canStateOp_frame (k : Fin 48) (p : Nat) (op : Nat) (s : State) :
    Untouched [.prog, .safe] s (canStateOp k p op s) := by
  unfold canStateOp
  repeat' first
    | with_reducible assumption
    | with_reducible exact Untouched.refl _ _
    | lift_lets -underBinder
    | (intro x; subst x)
    | (with_reducible apply Untouched.step (k := setCycle_frame ..); case i => decide)
    | with_reducible refine onFunction_frame _ _ (by decide) (fun c t ht => ?_) ?_

theorem sfBlock_frame (x_ : Ctx) (kind : Nat) (f : Nat) (s : State) :
    Untouched [.sess, .img, .prog, .cad, .can, .safe, .sio, .recd] s (sfBlock x_ kind f s) := by
  unfold sfBlock
  repeat' first
    | with_reducible assumption
    | with_reducible exact Untouched.refl _ _
    | lift_lets -underBinder
    | (intro x; subst x)
    | (with_reducible apply Untouched.step (k := safetyFault_frame ..); case i => decide)
    | (with_reducible apply Untouched.step (k := setCycle_frame ..); case i => decide)
    | (with_reducible apply Untouched.step (k := wordFault_frame ..); case i => decide)
    | with_reducible refine onWord_frame _ (by decide) (fun c t ht => ?_) ?_
    | split

end Sys2Proof.Machine
end

