-- ==== Sys2Proof/Laws/FrameModes.lean ====
section
/-! SUPPORT. The frame of every operation of Machine/Modes.lean: the parts of the state it may touch. -/

set_option Elab.async false

namespace Sys2Proof.Machine

theorem cmdAccept_frame (c : Nat) (n : Nat) (s : State) :
    Untouched [.sess] s (cmdAccept c n s).2 := by
  unfold cmdAccept
  repeat' first
    | with_reducible exact Untouched.refl _ _
    | (with_reducible apply Untouched.step (k := cmdStart_frame ..); case i => decide)

theorem keepLeases_frame (cmd : Nat) (n : Nat) (areas : List Nat) (s : State) :
    Untouched [.sess] s (keepLeases cmd n areas s) := by
  unfold keepLeases
  repeat' first
    | with_reducible exact Untouched.refl _ _
    | lift_lets -underBinder
    | (intro x; subst x)
    | with_reducible refine Untouched.put ?_

theorem setStop_frame (n : Nat) (s : State) :
    Untouched [.sess, .prog, .cad, .can, .recd] s (setStop n s).2 := by
  unfold setStop
  repeat' first
    | with_reducible assumption
    | lift_lets -underBinder
    | (intro x; have hx : Untouched [.sess, .prog, .cad, .can, .recd] s x := (by
        subst x
        repeat' first
          | with_reducible assumption
          | with_reducible exact Untouched.refl _ _
          | (with_reducible apply Untouched.step (k := cmdFail_frame ..); case i => decide)
          | split
          | with_reducible refine Untouched.put ?_); clear_value x)
    | (intro x; subst x)
    | (with_reducible apply Untouched.step (k := cmdDone_frame ..); case i => decide)
    | (with_reducible apply Untouched.step (k := cmdStart_frame ..); case i => decide)
    | (with_reducible apply Untouched.step (k := enterStop_frame ..); case i => decide)

theorem setRun_frame (n : Nat) (s : State) :
    Untouched [.freeN, .outbox, .sess, .prog, .ring, .can, .recd] s (setRun n s).2 := by
  unfold setRun
  repeat' first
    | with_reducible exact Untouched.refl _ _
    | lift_lets -underBinder
    | (intro x; subst x)
    | (with_reducible apply Untouched.step (k := cmdDone_frame ..); case i => decide)
    | (with_reducible apply Untouched.step (k := cmdStart_frame ..); case i => decide)
    | (with_reducible apply Untouched.step (k := resumeRun_frame ..); case i => decide)
    | split
    | with_reducible refine Untouched.put ?_

theorem setHold_frame (dur : Nat) (n : Nat) (s : State) :
    Untouched [.sess, .prog, .cad, .recd] s (setHold dur n s).2 := by
  unfold setHold
  repeat' first
    | with_reducible exact Untouched.refl _ _
    | lift_lets -underBinder
    | (intro x; subst x)
    | (with_reducible apply Untouched.step (k := cmdDone_frame ..); case i => decide)
    | (with_reducible apply Untouched.step (k := cmdStart_frame ..); case i => decide)
    | (with_reducible apply Untouched.step (k := enterHold_frame ..); case i => decide)
    | split
    | with_reducible refine Untouched.put ?_

theorem setStep_frame (k : Nat) (n : Nat) (s : State) :
    Untouched [.sess, .prog] s (setStep k n s).2 := by
  unfold setStep
  repeat' first
    | with_reducible assumption
    | with_reducible exact Untouched.refl _ _
    | lift_lets -underBinder
    | (intro x; have hx : Untouched [.sess, .prog] s x := (by
        subst x
        repeat' first
          | with_reducible assumption
          | with_reducible exact Untouched.refl _ _
          | (with_reducible apply Untouched.step (k := cmdStart_frame ..); case i => decide)
          | split
          | with_reducible refine Untouched.put ?_); clear_value x)
    | (intro x; subst x)
    | (with_reducible apply Untouched.step (k := cmdDone_frame ..); case i => decide)
    | (with_reducible apply Untouched.step (k := releaseTask_frame ..); case i => decide)
    | split

theorem modeSetOp_frame (data : List Byte) (n : Nat) (s : State) :
    Untouched [.freeN, .outbox, .sess, .prog, .cad, .ring, .can, .recd] s (modeSetOp data n s).2 := by
  unfold modeSetOp
  repeat' first
    | with_reducible exact Untouched.refl _ _
    | lift_lets -underBinder
    | (intro x; subst x)
    | (with_reducible apply Untouched.step (k := setHold_frame ..); case i => decide)
    | (with_reducible apply Untouched.step (k := setRun_frame ..); case i => decide)
    | (with_reducible apply Untouched.step (k := setStep_frame ..); case i => decide)
    | (with_reducible apply Untouched.step (k := setStop_frame ..); case i => decide)
    | split

theorem runEntryState_frame (s : State) :
    Untouched [.sess, .prog, .cad, .can, .recd] s (runEntryState s) := by
  unfold runEntryState
  repeat' first
    | with_reducible assumption
    | lift_lets -underBinder
    | (intro x; have hx : Untouched [.sess, .prog, .cad, .can, .recd] s x := (by
        subst x
        repeat' first
          | with_reducible exact Untouched.refl _ _
          | (with_reducible apply Untouched.step (k := enterRun_frame ..); case i => decide)); clear_value x)
    | (intro x; subst x)
    | (with_reducible apply Untouched.step (k := cmdDone_frame ..); case i => decide)
    | split

theorem taskReleaseState_frame (k : Nat) (s : State) :
    Untouched [.sess, .prog, .cad, .can, .recd] s (taskReleaseState k s) := by
  unfold taskReleaseState
  repeat' first
    | with_reducible exact Untouched.refl _ _
    | (with_reducible apply Untouched.step (k := gridRelease_frame ..); case i => decide)
    | split

theorem ocStart_frame (op : Nat) (n : Nat) (s : State) :
    Untouched [.outbox, .sess, .prog, .ring, .pair, .recd] s (ocStart op n s).2 := by
  unfold ocStart
  repeat' first
    | with_reducible assumption
    | with_reducible exact Untouched.refl _ _
    | lift_lets -underBinder
    | (intro x; have hx : Untouched [.outbox, .sess, .prog, .ring, .pair, .recd] s x := (by
        subst x
        repeat' first
          | with_reducible assumption
          | with_reducible exact Untouched.refl _ _
          | lift_lets -underBinder
          | (with_reducible apply Untouched.step (k := keepLeases_frame ..); case i => decide)
          | (with_reducible apply Untouched.step (k := passChange_frame ..); case i => decide)
          | split
          | with_reducible refine Untouched.put ?_); clear_value x)
    | (intro x; subst x)
    | (with_reducible apply Untouched.step (k := abandonChange_frame ..); case i => decide)
    | (with_reducible apply Untouched.step (k := cmdAccept_frame ..); case i => decide)
    | (with_reducible apply Untouched.step (k := cmdStart_frame ..); case i => decide)
    | split

theorem ocCancel_frame (n : Nat) (s : State) :
    Untouched [.sess, .prog, .recd] s (ocCancel n s).2 := by
  unfold ocCancel
  repeat' first
    | with_reducible exact Untouched.refl _ _
    | lift_lets -underBinder
    | (intro x; subst x)
    | (with_reducible apply Untouched.step (k := abandonChange_frame ..); case i => decide)
    | (with_reducible apply Untouched.step (k := modCmd_frame ..); case i => decide)
    | split

theorem onlineChangeOp_frame (data : List Byte) (n : Nat) (s : State) :
    Untouched [.outbox, .sess, .prog, .ring, .pair, .recd] s (onlineChangeOp data n s).2 := by
  unfold onlineChangeOp
  repeat' first
    | with_reducible exact Untouched.refl _ _
    | (with_reducible apply Untouched.step (k := ocCancel_frame ..); case i => decide)
    | (with_reducible apply Untouched.step (k := ocStart_frame ..); case i => decide)
    | split

theorem preparationEndState_frame (flashFull : Bool) (s : State) :
    Untouched [.sess, .prog, .recd] s (preparationEndState flashFull s) := by
  unfold preparationEndState
  repeat' first
    | with_reducible assumption
    | with_reducible exact Untouched.refl _ _
    | lift_lets -underBinder
    | (intro x; have hx : Untouched [.sess, .prog, .recd] s x := (by
        subst x
        repeat' first
          | with_reducible exact Untouched.refl _ _
          | dsimp -zeta only
          | with_reducible refine Untouched.put ?_); clear_value x)
    | (intro x; subst x)
    | (with_reducible apply Untouched.step (k := abandonChange_frame ..); case i => decide)
    | (with_reducible apply Untouched.step (k := changeOver_frame ..); case i => decide)
    | (with_reducible apply Untouched.step (k := cmdDone_frame ..); case i => decide)
    | (with_reducible apply Untouched.step (k := swapNow_frame ..); case i => decide)
    | split
    | dsimp -zeta only
    | with_reducible refine Untouched.put ?_

theorem lateReleases_frame (s : State) :
    Untouched [.sess, .prog, .cad, .can, .recd] s (lateReleases s) := by
  unfold lateReleases
  repeat' first
    | with_reducible exact Untouched.refl _ _
    | (with_reducible apply Untouched.step (k := releaseAllCyclic_frame ..); case i => decide)
    | split

theorem releaseSwapped_frame (s : State) :
    Untouched [.sess, .prog, .cad, .can, .recd] s (releaseSwapped s) := by
  unfold releaseSwapped
  repeat' first
    | with_reducible assumption
    | with_reducible exact Untouched.refl _ _
    | lift_lets -underBinder
    | (with_reducible apply Untouched.step (k := lateReleases_frame ..); case i => decide)
    | (with_reducible apply Untouched.step (k := modTask_frame ..); case i => decide)
    | with_reducible refine Untouched.forAll (fun n t ht => ?_) ?_

theorem swapStandby_frame (pauseUs : Nat) (s : State) :
    Untouched [.sess, .prog, .cad, .can, .pair, .recd] s (swapStandby pauseUs s) := by
  unfold swapStandby
  repeat' first
    | with_reducible assumption
    | lift_lets -underBinder
    | (intro x; have hx : Untouched [.sess, .prog, .cad, .can, .pair, .recd] s x := (by
        subst x
        repeat' first
          | with_reducible assumption
          | with_reducible exact Untouched.refl _ _
          | lift_lets -underBinder
          | (with_reducible apply Untouched.step (k := modTask_frame ..); case i => decide)
          | with_reducible refine Untouched.forAll (fun n t ht => ?_) ?_
          | with_reducible refine Untouched.put ?_); clear_value x)
    | (intro x; subst x)
    | (with_reducible apply Untouched.step (k := releaseSwapped_frame ..); case i => decide)
    | (with_reducible apply Untouched.step (k := swapNow_frame ..); case i => decide)

theorem swapState_frame (pauseUs : Nat) (s : State) :
    Untouched [.sess, .prog, .cad, .can, .pair, .recd] s (swapState pauseUs s) := by
  unfold swapState
  repeat' first
    | with_reducible assumption
    | with_reducible exact Untouched.refl _ _
    | lift_lets -underBinder
    | (intro x; have hx : Untouched [.sess, .prog, .cad, .can, .pair, .recd] s x := (by
        subst x
        repeat' first | with_reducible exact Untouched.refl _ _ | with_reducible refine Untouched.put ?_); clear_value x)
    | (intro x; subst x)
    | (with_reducible apply Untouched.step (k := abandonChange_frame ..); case i => decide)
    | (with_reducible apply Untouched.step (k := lateReleases_frame ..); case i => decide)
    | (with_reducible apply Untouched.step (k := releaseSwapped_frame ..); case i => decide)
    | (with_reducible apply Untouched.step (k := swapNow_frame ..); case i => decide)
    | (with_reducible apply Untouched.step (k := swapStandby_frame ..); case i => decide)
    | split

end Sys2Proof.Machine
end

