-- ==== Sys2Proof/Laws/FrameForce.lean ====
section
/-! SUPPORT. The frame of every operation of Machine/Force.lean: the parts of the state it may touch. -/

set_option Elab.async false

namespace Sys2Proof.Machine

theorem putForce_frame (p : Nat) (v : BitVec 32) (g : Int) (s : State) :
    Untouched [.freeN, .outbox, .img, .ring, .dio, .can, .recd] s (putForce p v g s) := by
  unfold putForce
  repeat' first
    | with_reducible exact Untouched.refl _ _
    | lift_lets -underBinder
    | (intro x; subst x)
    | (with_reducible apply Untouched.step (k := afterRelease_frame ..); case i => decide)
    | (with_reducible apply Untouched.step (k := emit_frame ..); case i => decide)
    | split
    | with_reducible refine Untouched.put ?_

theorem liftForce_frame (p : Nat) (s : State) :
    Untouched [.freeN, .outbox, .img, .ring, .dio, .can, .recd] s (liftForce p s) := by
  unfold liftForce
  repeat' first
    | with_reducible exact Untouched.refl _ _
    | lift_lets -underBinder
    | (with_reducible apply Untouched.step (k := afterRelease_frame ..); case i => decide)
    | (with_reducible apply Untouched.step (k := dropForce_frame ..); case i => decide)

theorem forceTake_frame (op : Nat) (p : Nat) (v : BitVec 32) (s : State) :
    Untouched [.sess] s (forceTake op p v s).2 := by
  unfold forceTake
  repeat' first
    | with_reducible exact Untouched.refl _ _
    | lift_lets -underBinder
    | (intro x; subst x)
    | split
    | dsimp -zeta only
    | with_reducible refine Untouched.put ?_

theorem forceAct_frame (r : ForceReq) (g : Int) (s : State) :
    Untouched [.freeN, .outbox, .img, .ring, .dio, .can, .recd] s (forceAct r g s) := by
  unfold forceAct
  repeat' first
    | with_reducible assumption
    | with_reducible exact Untouched.refl _ _
    | lift_lets -underBinder
    | (with_reducible apply Untouched.step (k := liftForce_frame ..); case i => decide)
    | (with_reducible apply Untouched.step (k := putForce_frame ..); case i => decide)
    | split
    | with_reducible refine Untouched.foldl (fun t x ht => ?_) _ _ ?_

theorem forceAnswer_frame (r : ForceReq) (g : Int) (s : State) :
    Untouched [.freeN, .outbox, .sess, .img, .ring, .dio, .can, .recd] s (forceAnswer r g s).2 := by
  unfold forceAnswer
  repeat' first
    | with_reducible assumption
    | with_reducible exact Untouched.refl _ _
    | lift_lets -underBinder
    | (intro x; have hx : Untouched [.freeN, .outbox, .sess, .img, .ring, .dio, .can, .recd] s x := (by
        subst x
        repeat' first
          | with_reducible exact Untouched.refl _ _
          | (with_reducible apply Untouched.step (k := forceAct_frame ..); case i => decide)); clear_value x)
    | (with_reducible apply Untouched.step (k := cmdNow_frame ..); case i => decide)
    | split

theorem forceTick_frame (g : Int) (s : State) :
    Untouched [.freeN, .outbox, .sess, .img, .ring, .dio, .can, .recd] s (forceTick g s) := by
  unfold forceTick
  repeat' first
    | with_reducible exact Untouched.refl _ _
    | lift_lets -underBinder
    | (intro x; subst x)
    | (with_reducible apply Untouched.step (k := answerDone_frame ..); case i => decide)
    | (with_reducible apply Untouched.step (k := forceAnswer_frame ..); case i => decide)
    | split
    | with_reducible refine Untouched.of_snd ?_ (by assumption)
    | with_reducible refine Untouched.put ?_

theorem forceOp_frame (data : List Byte) (u1 : Nat) (s : State) :
    Untouched [.sess] s (forceOp data u1 s).2 := by
  unfold forceOp
  repeat' first
    | with_reducible exact Untouched.refl _ _
    | lift_lets -underBinder
    | (intro x; subst x)
    | (with_reducible apply Untouched.step (k := forceTake_frame ..); case i => decide)
    | split

end Sys2Proof.Machine
end

