-- ==== Sys2Proof/Laws/FrameEngine.lean ====
section
/-! SUPPORT. The frame of every operation of Machine/Engine.lean: the parts of the state it may touch. -/

set_option Elab.async false

namespace Sys2Proof.Machine

theorem modGroup_frame (g : Nat) (f : Group → Group) (s : State) :
    Untouched [.eng] s (modGroup g f s) := by
  unfold modGroup
  repeat' first
    | with_reducible exact Untouched.refl _ _
    | lift_lets -underBinder
    | (intro x; subst x)
    | with_reducible refine Untouched.put ?_

theorem followUnit_frame (n : Nat) (winner : Nat) (win : Nat) (out : Real32) (limited : Bool) (safe : Bool) (safeOut : Option Real32) (at_ : Option Int) (s : State) :
    Untouched [.eng] s (followUnit n winner win out limited safe safeOut at_ s) := by
  unfold followUnit
  repeat' first
    | with_reducible exact Untouched.refl _ _
    | lift_lets -underBinder
    | (intro x; subst x)
    | (with_reducible apply Untouched.step (k := modLoop_frame ..); case i => decide)
    | split

theorem sampleUnit_frame (rd : Nat → Sample) (members : List Nat) (now : List Nat) (h : Real32) (at_ : Option Int) (s : State) :
    Untouched [.eng] s (sampleUnit rd members now h at_ s) := by
  unfold sampleUnit
  repeat' first
    | with_reducible assumption
    | lift_lets -underBinder
    | (intro x; have hx : Untouched [.eng] s x := (by
        subst x
        repeat' first
          | with_reducible assumption
          | with_reducible exact Untouched.refl _ _
          | lift_lets -underBinder
          | (with_reducible apply Untouched.step (k := followUnit_frame ..); case i => decide)
          | split
          | with_reducible refine Untouched.forAll (fun n t ht => ?_) ?_); clear_value x)
    | (intro x; subst x)
    | (with_reducible apply Untouched.step (k := modLoop_frame ..); case i => decide)
    | split
    | with_reducible refine Untouched.foldl (fun t x ht => ?_) _ _ ?_

theorem releaseGroup_frame (n : Nat) (r : LoopRel) (s : State) :
    Untouched [.eng] s (releaseGroup n r s) := by
  unfold releaseGroup
  repeat' first
    | with_reducible exact Untouched.refl _ _
    | (with_reducible apply Untouched.step (k := modGroup_frame ..); case i => decide)
    | split

theorem landUpdate_frame (n : Nat) (t : Int) (r : LoopRel) (s : State) :
    Untouched [.img] s (landUpdate n t r s) := by
  unfold landUpdate
  repeat' first
    | with_reducible assumption
    | lift_lets -underBinder
    | (intro x; have hx : Untouched [.img] s x := (by
        subst x
        repeat' first
          | with_reducible assumption
          | with_reducible exact Untouched.refl _ _
          | (with_reducible apply Untouched.step (k := produceAll_frame ..); case i => decide)); clear_value x)
    | (with_reducible apply Untouched.step (k := produceAll_frame ..); case i => decide)

theorem releaseOne_frame (n : Nat) (at_ : Int) (r : LoopRel) (s : State) :
    Untouched [.freeN, .outbox, .img, .prog, .eng, .ring, .dio, .aio, .can] s (releaseOne n at_ r s) := by
  unfold releaseOne
  repeat' first
    | with_reducible assumption
    | with_reducible exact Untouched.refl _ _
    | lift_lets -underBinder
    | (intro x; have hx : Untouched [.freeN, .outbox, .img, .prog, .eng, .ring, .dio, .aio, .can] s x := (by
        subst x
        repeat' first
          | with_reducible assumption
          | with_reducible exact Untouched.refl _ _
          | lift_lets -underBinder
          | (with_reducible apply Untouched.step (k := landUpdate_frame ..); case i => decide)
          | (with_reducible apply Untouched.step (k := modLoop_frame ..); case i => decide)
          | (with_reducible apply Untouched.step (k := releaseGroup_frame ..); case i => decide)
          | split
          | with_reducible refine Untouched.put ?_); clear_value x)
    | (intro x; subst x)
    | (with_reducible apply Untouched.step (k := modLoop_frame ..); case i => decide)
    | (with_reducible apply Untouched.step (k := produceAll_frame ..); case i => decide)
    | (with_reducible apply Untouched.step (k := releaseValues_frame ..); case i => decide)
    | split

theorem releaseDue_frame (n : Nat) (due : LoopRel → Bool) (t : Int) (s : State) :
    Untouched [.freeN, .outbox, .img, .prog, .eng, .ring, .dio, .aio, .can] s (releaseDue n due t s) := by
  unfold releaseDue
  repeat' first
    | with_reducible assumption
    | with_reducible exact Untouched.refl _ _
    | lift_lets -underBinder
    | (intro x; have hx : Untouched [.freeN, .outbox, .img, .prog, .eng, .ring, .dio, .aio, .can] s x := (by
        subst x
        repeat' first
          | with_reducible exact Untouched.refl _ _
          | (with_reducible apply Untouched.step (k := modLoop_frame ..); case i => decide)); clear_value x)
    | (intro x; subst x)
    | (with_reducible apply Untouched.step (k := releaseOne_frame ..); case i => decide)
    | split
    | with_reducible refine Untouched.foldl (fun t x ht => ?_) _ _ ?_

theorem landDue_frame (n : Nat) (s : State) :
    Untouched [.img, .eng] s (landDue n s) := by
  unfold landDue
  repeat' first
    | with_reducible assumption
    | with_reducible exact Untouched.refl _ _
    | lift_lets -underBinder
    | (intro x; have hx : Untouched [.img, .eng] s x := (by
        subst x
        repeat' first
          | with_reducible exact Untouched.refl _ _
          | (with_reducible apply Untouched.step (k := modLoop_frame ..); case i => decide)); clear_value x)
    | (intro x; subst x)
    | (with_reducible apply Untouched.step (k := landUpdate_frame ..); case i => decide)
    | split
    | with_reducible refine Untouched.foldl (fun t x ht => ?_) _ _ ?_

theorem loopReleaseState_frame (n : Nat) (s : State) :
    Untouched [.freeN, .outbox, .img, .prog, .eng, .ring, .dio, .aio, .can] s (loopReleaseState n s) := by
  unfold loopReleaseState
  repeat' first
    | with_reducible exact Untouched.refl _ _
    | (with_reducible apply Untouched.step (k := landDue_frame ..); case i => decide)
    | (with_reducible apply Untouched.step (k := releaseDue_frame ..); case i => decide)
    | split

theorem loopsRelease_frame (s : State) :
    Untouched [.freeN, .outbox, .img, .prog, .eng, .ring, .dio, .aio, .can] s (loopsRelease s) := by
  unfold loopsRelease
  repeat' first
    | with_reducible assumption
    | with_reducible exact Untouched.refl _ _
    | lift_lets -underBinder
    | (with_reducible apply Untouched.step (k := loopReleaseState_frame ..); case i => decide)
    | with_reducible refine Untouched.forAll (fun n t ht => ?_) ?_

theorem sampleSet_frame (rd : Nat → Sample) (now : List Nat) (t : Int) (at_ : Nat → Option Int) (s : State) :
    Untouched [.eng] s (sampleSet rd now t at_ s) := by
  unfold sampleSet
  repeat' first
    | with_reducible assumption
    | with_reducible exact Untouched.refl _ _
    | lift_lets -underBinder
    | (intro x; have hx : Untouched [.eng] s x := (by
        subst x
        repeat' first
          | with_reducible assumption
          | (with_reducible apply Untouched.step (k := sampleUnit_frame ..); case i => decide)); clear_value x)
    | (intro x; subst x)
    | (with_reducible apply Untouched.step (k := modLoop_frame ..); case i => decide)
    | with_reducible refine Untouched.foldl (fun t x ht => ?_) _ _ ?_
    | with_reducible refine Untouched.forAll (fun n t ht => ?_) ?_

theorem sampleTick_frame (rd : Nat → Sample) (g : Int) (s : State) :
    Untouched [.freeN, .outbox, .img, .prog, .eng, .ring, .dio, .aio, .can] s (sampleTick rd g s) := by
  unfold sampleTick
  repeat' first
    | with_reducible assumption
    | lift_lets -underBinder
    | (intro x; have hx : Untouched [.freeN, .outbox, .img, .prog, .eng, .ring, .dio, .aio, .can] s x := (by
        subst x
        repeat' first
          | with_reducible assumption
          | with_reducible exact Untouched.refl _ _
          | lift_lets -underBinder
          | (with_reducible apply Untouched.step (k := releaseDue_frame ..); case i => decide)
          | with_reducible refine Untouched.forAll (fun n t ht => ?_) ?_); clear_value x)
    | (intro x; subst x)
    | (with_reducible apply Untouched.step (k := sampleSet_frame ..); case i => decide)

theorem sealLoops_frame (s : State) :
    Untouched [.prog, .eng] s (sealLoops s) := by
  unfold sealLoops
  repeat' first
    | with_reducible exact Untouched.refl _ _
    | lift_lets -underBinder
    | (intro x; subst x)
    | with_reducible refine Untouched.put ?_

theorem sendInput_frame (s : State) :
    Untouched [.outbox, .ring, .pair] s (sendInput s) := by
  unfold sendInput
  repeat' first
    | with_reducible assumption
    | with_reducible exact Untouched.refl _ _
    | lift_lets -underBinder
    | (intro x; have hx : Untouched [.outbox, .ring, .pair] s x := (by
        subst x
        repeat' first
          | with_reducible exact Untouched.refl _ _
          | (with_reducible apply Untouched.step (k := sendSync_frame ..); case i => decide)); clear_value x)
    | (intro x; subst x)
    | split
    | with_reducible refine Untouched.put ?_

theorem loopModeNow_frame (n : Nat) (data : List Byte) (u2 : Nat) (s : State) :
    Untouched [.config, .sess] s (loopModeNow n data u2 s).2 := by
  unfold loopModeNow
  repeat' first
    | with_reducible exact Untouched.refl _ _
    | lift_lets -underBinder
    | (intro x; subst x)
    | (with_reducible apply Untouched.step (k := keepDirect_frame ..); case i => decide)
    | split

theorem directEffect_frame (key : Nat) (data : List Byte) (n : Nat) (s : State) :
    Untouched [.config, .sess, .cad, .mot, .can, .recd] s (directEffect key data n s) := by
  unfold directEffect
  repeat' first
    | with_reducible exact Untouched.refl _ _
    | lift_lets -underBinder
    | (intro x; subst x)
    | (with_reducible apply Untouched.step (k := bulkLengthNow_frame ..); case i => decide)
    | (with_reducible apply Untouched.step (k := canRecoverNow_frame ..); case i => decide)
    | (with_reducible apply Untouched.step (k := keepDirect_frame ..); case i => decide)
    | (with_reducible apply Untouched.step (k := loopModeNow_frame ..); case i => decide)
    | (with_reducible apply Untouched.step (k := modAxis_frame ..); case i => decide)
    | (with_reducible apply Untouched.step (k := scArmNow_frame ..); case i => decide)
    | (with_reducible apply Untouched.step (k := signerKeyNow_frame ..); case i => decide)
    | split

theorem commitDirect_frame (q : Option Nat) (s : State) :
    Untouched [.config, .sess, .cad, .mot, .can, .recd] s (commitDirect q s) := by
  unfold commitDirect
  repeat' first
    | with_reducible assumption
    | with_reducible exact Untouched.refl _ _
    | lift_lets -underBinder
    | (intro x; subst x)
    | (with_reducible apply Untouched.step (k := directEffect_frame ..); case i => decide)
    | with_reducible refine Untouched.foldl (fun t x ht => ?_) _ _ ?_
    | with_reducible refine Untouched.put ?_

theorem recordCommitted_frame (q : Nat) (s : State) :
    Untouched [.config, .sess, .cad, .mot, .can, .recd] s (recordCommitted q s) := by
  unfold recordCommitted
  repeat' first
    | with_reducible exact Untouched.refl _ _
    | lift_lets -underBinder
    | (with_reducible apply Untouched.step (k := commitDirect_frame ..); case i => decide)
    | (with_reducible apply Untouched.step (k := forceAcked_frame ..); case i => decide)

theorem commitTick_frame (points : List Nat) (rd : Nat → Sample) (s : State) :
    Untouched [.outbox, .config, .sess, .prog, .eng, .cad, .ring, .mot, .can, .pair, .recd] s (commitTick points rd s) := by
  unfold commitTick
  repeat' first
    | with_reducible assumption
    | lift_lets -underBinder
    | (intro x; have hx : Untouched [.outbox, .config, .sess, .prog, .eng, .cad, .ring, .mot, .can, .pair, .recd] s x := (by
        subst x
        repeat' first
          | with_reducible assumption
          | with_reducible exact Untouched.refl _ _
          | (with_reducible apply Untouched.step (k := sendCommit_frame ..); case i => decide)
          | with_reducible refine Untouched.put ?_); clear_value x)
    | (intro x; subst x)
    | (with_reducible apply Untouched.step (k := commitDirect_frame ..); case i => decide)
    | (with_reducible apply Untouched.step (k := modLoop_frame ..); case i => decide)
    | (with_reducible apply Untouched.step (k := sealLoops_frame ..); case i => decide)
    | (with_reducible apply Untouched.step (k := sendCommit_frame ..); case i => decide)
    | split
    | with_reducible refine Untouched.forAll (fun n t ht => ?_) ?_

theorem closeTick_frame (s : State) :
    Untouched [.img] s (closeTick s) := by
  unfold closeTick
  repeat' first
    | with_reducible exact Untouched.refl _ _
    | lift_lets -underBinder
    | (intro x; subst x)
    | with_reducible refine Untouched.put ?_

theorem engineTickState_frame (s : State) :
    Untouched [.freeN, .outbox, .config, .sess, .img, .prog, .eng, .cad, .ring, .dio, .aio, .mot, .can, .pair, .recd] s (engineTickState s) := by
  unfold engineTickState
  repeat' first
    | with_reducible assumption
    | with_reducible exact Untouched.refl _ _
    | lift_lets -underBinder
    | (intro x; have hx : Untouched [.freeN, .outbox, .config, .sess, .img, .prog, .eng, .cad, .ring, .dio, .aio, .mot, .can, .pair, .recd] s x := (by
        subst x
        repeat' first
          | with_reducible assumption
          | with_reducible exact Untouched.refl _ _
          | lift_lets -underBinder
          | (with_reducible apply Untouched.step (k := commitTick_frame ..); case i => decide)
          | (with_reducible apply Untouched.step (k := firstReleases_frame ..); case i => decide)
          | (with_reducible apply Untouched.step (k := forceTick_frame ..); case i => decide)
          | (with_reducible apply Untouched.step (k := sampleTick_frame ..); case i => decide)
          | (with_reducible apply Untouched.step (k := sendInput_frame ..); case i => decide)
          | with_reducible refine Untouched.put ?_); clear_value x)
    | (intro x; subst x)
    | (with_reducible apply Untouched.step (k := closeTick_frame ..); case i => decide)
    | (with_reducible apply Untouched.step (k := commitDirect_frame ..); case i => decide)
    | (with_reducible apply Untouched.step (k := scanSlots_frame ..); case i => decide)
    | (with_reducible apply Untouched.step (k := tickTrackers_frame ..); case i => decide)
    | (with_reducible apply Untouched.step (k := tryHandover_frame ..); case i => decide)
    | split
    | with_reducible refine Untouched.put ?_

theorem cadenceUpdate_frame (rd : Nat → Sample) (n : Nat) (fireAt : Int) (s : State) :
    Untouched [.freeN, .outbox, .img, .prog, .eng, .ring, .dio, .aio, .can] s (cadenceUpdate rd n fireAt s) := by
  unfold cadenceUpdate
  repeat' first
    | with_reducible assumption
    | lift_lets -underBinder
    | (intro x; have hx : Untouched [.freeN, .outbox, .img, .prog, .eng, .ring, .dio, .aio, .can] s x := (by
        subst x
        repeat' first
          | with_reducible assumption
          | with_reducible exact Untouched.refl _ _
          | lift_lets -underBinder
          | (with_reducible apply Untouched.step (k := releaseDue_frame ..); case i => decide)
          | with_reducible refine Untouched.forAll (fun n t ht => ?_) ?_); clear_value x)
    | (with_reducible apply Untouched.step (k := modLoop_frame ..); case i => decide)
    | (with_reducible apply Untouched.step (k := sampleSet_frame ..); case i => decide)

theorem cadenceSample_frame (n : Nat) (fireAt : Int) (s : State) :
    Untouched [.freeN, .outbox, .img, .prog, .eng, .ring, .dio, .aio, .can] s (cadenceSample n fireAt s) := by
  unfold cadenceSample
  repeat' first
    | with_reducible exact Untouched.refl _ _
    | lift_lets -underBinder
    | (intro x; subst x)
    | (with_reducible apply Untouched.step (k := cadenceUpdate_frame ..); case i => decide)
    | (with_reducible apply Untouched.step (k := modLoop_frame ..); case i => decide)
    | split
    | with_reducible refine Untouched.put ?_

theorem cadTimeoutState_frame (n : Nat) (s : State) :
    Untouched [.freeN, .outbox, .img, .prog, .eng, .ring, .dio, .aio, .can] s (cadTimeoutState n s) := by
  unfold cadTimeoutState
  repeat' first
    | with_reducible assumption
    | with_reducible exact Untouched.refl _ _
    | lift_lets -underBinder
    | (intro x; have hx : Untouched [.freeN, .outbox, .img, .prog, .eng, .ring, .dio, .aio, .can] s x := (by
        subst x
        repeat' first
          | with_reducible assumption
          | with_reducible exact Untouched.refl _ _
          | lift_lets -underBinder
          | (with_reducible apply Untouched.step (k := modLoop_frame ..); case i => decide)
          | with_reducible refine Untouched.forAll (fun n t ht => ?_) ?_); clear_value x)
    | (intro x; subst x)
    | (with_reducible apply Untouched.step (k := loopReleaseState_frame ..); case i => decide)
    | split
    | with_reducible refine Untouched.forAll (fun n t ht => ?_) ?_

theorem loopModeOp_frame (n : Nat) (data : List Byte) (m : Nat) (s : State) :
    Untouched [.sess] s (loopModeOp n data m s).2 := by
  unfold loopModeOp
  repeat' first
    | with_reducible exact Untouched.refl _ _
    | (with_reducible apply Untouched.step (k := deferred_frame ..); case i => decide)

theorem applyLoops_frame (old : Tbl (List Byte)) (s : State) :
    Untouched [.img, .eng] s (applyLoops old s) := by
  unfold applyLoops
  repeat' first
    | with_reducible assumption
    | lift_lets -underBinder
    | (intro x; have hx : Untouched [.img, .eng] s x := (by
        subst x
        repeat' first
          | with_reducible assumption
          | with_reducible exact Untouched.refl _ _
          | lift_lets -underBinder
          | (intro x; subst x)
          | (with_reducible apply Untouched.step (k := decideQual_frame ..); case i => decide)
          | (with_reducible apply Untouched.step (k := modLoop_frame ..); case i => decide)
          | split
          | with_reducible refine Untouched.forAll (fun n t ht => ?_) ?_
          | with_reducible refine Untouched.put ?_); clear_value x)
    | (intro x; subst x)
    | with_reducible refine Untouched.put ?_

theorem startLoops_frame (warm : Bool) (s : State) :
    Untouched [.eng] s (startLoops warm s) := by
  unfold startLoops
  repeat' first
    | with_reducible exact Untouched.refl _ _
    | lift_lets -underBinder
    | (intro x; subst x)
    | split
    | with_reducible refine Untouched.put ?_

end Sys2Proof.Machine
end

