-- ==== Sys2Proof/Laws/FramePairOps.lean ====
section
/-! SUPPORT. The frame of every operation of Machine/PairOps.lean: the parts of the state it may touch. -/

set_option Elab.async false

namespace Sys2Proof.Machine

theorem failRunning_frame (s : State) :
    Untouched [.sess] s (failRunning s) := by
  unfold failRunning
  repeat' first
    | with_reducible assumption
    | with_reducible exact Untouched.refl _ _
    | lift_lets -underBinder
    | (with_reducible apply Untouched.step (k := cmdFail_frame ..); case i => decide)
    | split
    | with_reducible refine Untouched.foldl (fun t x ht => ?_) _ _ ?_

theorem dropUnacked_frame (s : State) :
    Untouched [.eng] s (dropUnacked s) := by
  unfold dropUnacked
  repeat' first
    | with_reducible assumption
    | with_reducible exact Untouched.refl _ _
    | lift_lets -underBinder
    | (with_reducible apply Untouched.step (k := modLoop_frame ..); case i => decide)
    | with_reducible refine Untouched.forAll (fun n t ht => ?_) ?_

theorem loseRole_frame (s : State) :
    Untouched [.sess, .prog, .eng, .dio, .pair] s (loseRole s) := by
  unfold loseRole
  repeat' first
    | with_reducible assumption
    | lift_lets -underBinder
    | (intro x; have hx : Untouched [.sess, .prog, .eng, .dio, .pair] s x := (by
        subst x
        repeat' first
          | with_reducible assumption
          | with_reducible exact Untouched.refl _ _
          | lift_lets -underBinder
          | (with_reducible apply Untouched.step (k := closeSession_frame ..); case i => decide)
          | (with_reducible apply Untouched.step (k := dropUnacked_frame ..); case i => decide)
          | (with_reducible apply Untouched.step (k := failRunning_frame ..); case i => decide)
          | (with_reducible apply Untouched.step (k := releaseKept_frame ..); case i => decide)
          | split
          | with_reducible refine Untouched.forAll (fun n t ht => ?_) ?_
          | with_reducible refine Untouched.put ?_); clear_value x)
    | (intro x; subst x)
    | with_reducible refine Untouched.put ?_

theorem yieldTo_frame (claim : Nat) (s : State) :
    Untouched [.sess, .prog, .eng, .cad, .dio, .can, .pair, .recd] s (yieldTo claim s) := by
  unfold yieldTo
  repeat' first
    | with_reducible assumption
    | with_reducible exact Untouched.refl _ _
    | lift_lets -underBinder
    | (intro x; have hx : Untouched [.sess, .prog, .eng, .cad, .dio, .can, .pair, .recd] s x := (by
        subst x
        repeat' first
          | with_reducible exact Untouched.refl _ _
          | lift_lets -underBinder
          | (with_reducible apply Untouched.step (k := canStandby_frame ..); case i => decide)
          | (with_reducible apply Untouched.step (k := loseRole_frame ..); case i => decide)
          | (with_reducible apply Untouched.step (k := scAbortArmed_frame ..); case i => decide)); clear_value x)
    | (intro x; subst x)
    | (with_reducible apply Untouched.step (k := emit_frame ..); case i => decide)
    | (with_reducible apply Untouched.step (k := enterPair_frame ..); case i => decide)
    | split
    | with_reducible refine Untouched.put ?_

theorem commitHeld_frame (h : HeldRec) (s : State) :
    Untouched [.freeN, .outbox, .config, .sess, .img, .prog, .eng, .cad, .ring, .dio, .aio, .mot, .can, .pair, .recd] s (commitHeld h s) := by
  unfold commitHeld
  repeat' first
    | with_reducible assumption
    | lift_lets -underBinder
    | (intro x; have hx : Untouched [.freeN, .outbox, .config, .sess, .img, .prog, .eng, .cad, .ring, .dio, .aio, .mot, .can, .pair, .recd] s x := (by
        subst x
        repeat' first
          | with_reducible exact Untouched.refl _ _
          | lift_lets -underBinder
          | (with_reducible apply Untouched.step (k := recordCommitted_frame ..); case i => decide)
          | with_reducible refine Untouched.put ?_); clear_value x)
    | (intro x; subst x)
    | (with_reducible apply Untouched.step (k := commitCycle_frame ..); case i => decide)
    | (with_reducible apply Untouched.step (k := releaseCommitted_frame ..); case i => decide)
    | (with_reducible apply Untouched.step (k := sealLoops_frame ..); case i => decide)
    | split

theorem commitAllHeld_frame (s : State) :
    Untouched [.freeN, .outbox, .config, .sess, .img, .prog, .eng, .cad, .ring, .dio, .aio, .mot, .can, .pair, .recd] s (commitAllHeld s) := by
  unfold commitAllHeld
  repeat' first
    | with_reducible assumption
    | with_reducible exact Untouched.refl _ _
    | lift_lets -underBinder
    | (with_reducible apply Untouched.step (k := commitHeld_frame ..); case i => decide)
    | with_reducible refine Untouched.foldl (fun t x ht => ?_) _ _ ?_

theorem endHanding_frame (s : State) :
    Untouched [.sess, .pair] s (endHanding s) := by
  unfold endHanding
  repeat' first
    | with_reducible assumption
    | lift_lets -underBinder
    | (intro x; have hx : Untouched [.sess, .pair] s x := (by
        subst x
        repeat' first
          | with_reducible exact Untouched.refl _ _
          | (with_reducible apply Untouched.step (k := failSwitchover_frame ..); case i => decide)
          | split); clear_value x)
    | (intro x; subst x)
    | with_reducible refine Untouched.put ?_

theorem continueAlone_frame (s : State) :
    Untouched [.freeN, .outbox, .config, .sess, .img, .prog, .eng, .cad, .ring, .dio, .aio, .mot, .can, .pair, .recd] s (continueAlone s) := by
  unfold continueAlone
  repeat' first
    | with_reducible assumption
    | with_reducible exact Untouched.refl _ _
    | lift_lets -underBinder
    | (intro x; have hx : Untouched [.freeN, .outbox, .config, .sess, .img, .prog, .eng, .cad, .ring, .dio, .aio, .mot, .can, .pair, .recd] s x := (by
        subst x
        repeat' first
          | with_reducible assumption
          | with_reducible exact Untouched.refl _ _
          | lift_lets -underBinder
          | (with_reducible apply Untouched.step (k := commitAllHeld_frame ..); case i => decide)
          | (with_reducible apply Untouched.step (k := endHanding_frame ..); case i => decide)
          | with_reducible refine Untouched.put ?_); clear_value x)
    | (intro x; subst x)
    | (with_reducible apply Untouched.step (k := enterPair_frame ..); case i => decide)
    | (with_reducible apply Untouched.step (k := firstReleases_frame ..); case i => decide)
    | split

theorem selfTestFailed_frame (row : Nat) (s : State) :
    Untouched [.pair] s (selfTestFailed row s) := by
  unfold selfTestFailed
  repeat' first
    | with_reducible exact Untouched.refl _ _
    | lift_lets -underBinder
    | (intro x; subst x)
    | with_reducible refine Untouched.put ?_

theorem judgeFcl_frame (s : State) :
    Untouched [.pair] s (judgeFcl s) := by
  unfold judgeFcl
  repeat' first
    | with_reducible assumption
    | with_reducible exact Untouched.refl _ _
    | lift_lets -underBinder
    | (intro x; have hx : Untouched [.pair] s x := (by
        subst x
        repeat' first
          | with_reducible exact Untouched.refl _ _
          | (with_reducible apply Untouched.step (k := selfTestFailed_frame ..); case i => decide)
          | split); clear_value x)
    | (intro x; subst x)
    | split
    | with_reducible refine Untouched.put ?_

end Sys2Proof.Machine
end

