-- ==== Sys2Proof/Laws/FrameDio.lean ====
section
/-! SUPPORT. The frame of every operation of Machine/Dio.lean: the parts of the state it may touch. -/

set_option Elab.async false

namespace Sys2Proof.Machine

theorem requalDio_frame (ch : Nat) (s : State) :
    Untouched [.img] s (requalDio ch s) := by
  unfold requalDio
  repeat' first
    | with_reducible exact Untouched.refl _ _
    | lift_lets -underBinder
    | (intro x; subst x)
    | (with_reducible apply Untouched.step (k := decideQual_frame ..); case i => decide)
    | split

theorem requalBank_frame (b : Nat) (s : State) :
    Untouched [.img] s (requalBank b s) := by
  unfold requalBank
  repeat' first
    | with_reducible assumption
    | with_reducible exact Untouched.refl _ _
    | lift_lets -underBinder
    | (with_reducible apply Untouched.step (k := requalDio_frame ..); case i => decide)
    | with_reducible refine Untouched.forAll (fun n t ht => ?_) ?_

theorem endDrive_frame (ch : Nat) (s : State) :
    Untouched [.dio, .recd] s (endDrive ch s) := by
  unfold endDrive
  repeat' first
    | with_reducible assumption
    | with_reducible exact Untouched.refl _ _
    | lift_lets -underBinder
    | (intro x; have hx : Untouched [.dio, .recd] s x := (by
        subst x
        repeat' first
          | with_reducible exact Untouched.refl _ _
          | (with_reducible apply Untouched.step (k := modDio_frame ..); case i => decide)); clear_value x)
    | (with_reducible apply Untouched.step (k := emit_frame ..); case i => decide)
    | split

theorem endOpenLoad_frame (ch : Nat) (s : State) :
    Untouched [.dio, .recd] s (endOpenLoad ch s) := by
  unfold endOpenLoad
  repeat' first
    | with_reducible assumption
    | with_reducible exact Untouched.refl _ _
    | lift_lets -underBinder
    | (intro x; have hx : Untouched [.dio, .recd] s x := (by
        subst x
        repeat' first
          | with_reducible exact Untouched.refl _ _
          | (with_reducible apply Untouched.step (k := modDio_frame ..); case i => decide)); clear_value x)
    | (with_reducible apply Untouched.step (k := emit_frame ..); case i => decide)
    | split

theorem stampDio_frame (ch : Nat) (changed : Dio → Dio → Bool) (f : Dio → Dio) (s : State) :
    Untouched [.dio] s (stampDio ch changed f s) := by
  unfold stampDio
  repeat' first
    | with_reducible exact Untouched.refl _ _
    | lift_lets -underBinder
    | (intro x; subst x)
    | (with_reducible apply Untouched.step (k := modDio_frame ..); case i => decide)

theorem setSwitch_frame (ch : Nat) (v : Bool) (s : State) :
    Untouched [.dio, .recd] s (setSwitch ch v s) := by
  unfold setSwitch
  repeat' first
    | with_reducible assumption
    | lift_lets -underBinder
    | (intro x; have hx : Untouched [.dio, .recd] s x := (by
        subst x
        repeat' first
          | with_reducible exact Untouched.refl _ _
          | (with_reducible apply Untouched.step (k := stampDio_frame ..); case i => decide)); clear_value x)
    | (with_reducible apply Untouched.step (k := endDrive_frame ..); case i => decide)
    | split

theorem settleSwitch_frame (ch : Nat) (s : State) :
    Untouched [.dio, .recd] s (settleSwitch ch s) := by
  unfold settleSwitch
  repeat' first
    | with_reducible assumption
    | with_reducible exact Untouched.refl _ _
    | lift_lets -underBinder
    | (intro x; have hx : Untouched [.dio, .recd] s x := (by
        subst x
        repeat' first
          | with_reducible exact Untouched.refl _ _
          | (with_reducible apply Untouched.step (k := modBank_frame ..); case i => decide)
          | split); clear_value x)
    | (intro x; subst x)
    | (with_reducible apply Untouched.step (k := modBank_frame ..); case i => decide)
    | (with_reducible apply Untouched.step (k := setSwitch_frame ..); case i => decide)
    | split

theorem settleBank_frame (b : Nat) (s : State) :
    Untouched [.dio, .recd] s (settleBank b s) := by
  unfold settleBank
  repeat' first
    | with_reducible assumption
    | with_reducible exact Untouched.refl _ _
    | lift_lets -underBinder
    | (with_reducible apply Untouched.step (k := settleSwitch_frame ..); case i => decide)
    | with_reducible refine Untouched.forAll (fun n t ht => ?_) ?_

theorem commandLevel_frame (ch : Nat) (v : Bool) (s : State) :
    Untouched [.dio, .recd] s (commandLevel ch v s) := by
  unfold commandLevel
  repeat' first
    | with_reducible assumption
    | lift_lets -underBinder
    | (intro x; have hx : Untouched [.dio, .recd] s x := (by
        subst x
        repeat' first
          | with_reducible exact Untouched.refl _ _
          | lift_lets -underBinder
          | (with_reducible apply Untouched.step (k := modDio_frame ..); case i => decide)
          | (with_reducible apply Untouched.step (k := settleSwitch_frame ..); case i => decide)); clear_value x)
    | (with_reducible apply Untouched.step (k := endOpenLoad_frame ..); case i => decide)
    | split

theorem dropEdges_frame (b : Nat) (own : Nat → Bool) (s : State) :
    Untouched [.dio] s (dropEdges b own s) := by
  unfold dropEdges
  repeat' first
    | with_reducible assumption
    | with_reducible exact Untouched.refl _ _
    | lift_lets -underBinder
    | (with_reducible apply Untouched.step (k := modBank_frame ..); case i => decide)
    | (with_reducible apply Untouched.step (k := modDio_frame ..); case i => decide)
    | split
    | with_reducible refine Untouched.forAll (fun n t ht => ?_) ?_

theorem retireDio_frame (ch : Nat) (s : State) :
    Untouched [.img, .cad, .dio, .recd, .retired] s (retireDio ch s) := by
  unfold retireDio
  repeat' first
    | with_reducible assumption
    | lift_lets -underBinder
    | (intro x; have hx : Untouched [.img, .cad, .dio, .recd, .retired] s x := (by
        subst x
        repeat' first
          | with_reducible assumption
          | with_reducible exact Untouched.refl _ _
          | lift_lets -underBinder
          | (with_reducible apply Untouched.step (k := listRetired_frame ..); case i => decide)
          | (with_reducible apply Untouched.step (k := modDio_frame ..); case i => decide)
          | (with_reducible apply Untouched.step (k := setSwitch_frame ..); case i => decide)); clear_value x)
    | (with_reducible apply Untouched.step (k := dropEdges_frame ..); case i => decide)
    | (with_reducible apply Untouched.step (k := requalDio_frame ..); case i => decide)
    | (with_reducible apply Untouched.step (k := scRetired_frame ..); case i => decide)

theorem safeLevel_frame (ch : Nat) (v : Bool) (s : State) :
    Untouched [.dio, .recd] s (safeLevel ch v s) := by
  unfold safeLevel
  repeat' first
    | with_reducible exact Untouched.refl _ _
    | lift_lets -underBinder
    | (with_reducible apply Untouched.step (k := commandLevel_frame ..); case i => decide)
    | (with_reducible apply Untouched.step (k := modDio_frame ..); case i => decide)

theorem silenceOutputs_frame (b : Nat) (s : State) :
    Untouched [.dio, .recd] s (silenceOutputs b s) := by
  unfold silenceOutputs
  repeat' first
    | with_reducible assumption
    | with_reducible exact Untouched.refl _ _
    | lift_lets -underBinder
    | (intro x; subst x)
    | (with_reducible apply Untouched.step (k := safeLevel_frame ..); case i => decide)
    | (with_reducible apply Untouched.step (k := setSwitch_frame ..); case i => decide)
    | (with_reducible apply Untouched.step (k := settleSwitch_frame ..); case i => decide)
    | split
    | with_reducible refine Untouched.forAll (fun n t ht => ?_) ?_

theorem claimSettles_frame (b : Nat) (s : State) :
    Untouched [.dio, .recd] s (claimSettles b s) := by
  unfold claimSettles
  repeat' first
    | with_reducible exact Untouched.refl _ _
    | (with_reducible apply Untouched.step (k := settleBank_frame ..); case i => decide)
    | (with_reducible apply Untouched.step (k := silenceOutputs_frame ..); case i => decide)
    | split

theorem retireLink_frame (b : Nat) (s : State) :
    Untouched [.img, .cad, .dio, .recd, .retired] s (retireLink b s) := by
  unfold retireLink
  repeat' first
    | with_reducible assumption
    | lift_lets -underBinder
    | (intro x; have hx : Untouched [.img, .cad, .dio, .recd, .retired] s x := (by
        subst x
        repeat' first
          | with_reducible exact Untouched.refl _ _
          | lift_lets -underBinder
          | (with_reducible apply Untouched.step (k := dropEdges_frame ..); case i => decide)
          | (with_reducible apply Untouched.step (k := listRetired_frame ..); case i => decide)
          | (with_reducible apply Untouched.step (k := modBank_frame ..); case i => decide)); clear_value x)
    | (with_reducible apply Untouched.step (k := requalBank_frame ..); case i => decide)
    | (with_reducible apply Untouched.step (k := scRetired_frame ..); case i => decide)
    | (with_reducible apply Untouched.step (k := silenceOutputs_frame ..); case i => decide)
    | with_reducible refine Untouched.forAll (fun n t ht => ?_) ?_

theorem linkFault_frame (b : Nat) (s : State) :
    Untouched [.img, .cad, .dio, .recd, .retired] s (linkFault b s) := by
  unfold linkFault
  repeat' first
    | with_reducible assumption
    | lift_lets -underBinder
    | (intro x; have hx : Untouched [.img, .cad, .dio, .recd, .retired] s x := (by
        subst x
        repeat' first
          | with_reducible assumption
          | with_reducible exact Untouched.refl _ _
          | (with_reducible apply Untouched.step (k := emit_frame ..); case i => decide)
          | (with_reducible apply Untouched.step (k := modBank_frame ..); case i => decide)); clear_value x)
    | (intro x; subst x)
    | (with_reducible apply Untouched.step (k := retireLink_frame ..); case i => decide)
    | split

theorem activateBank_frame (b : Nat) (s : State) :
    Untouched [.dio] s (activateBank b s) := by
  unfold activateBank
  repeat' first
    | with_reducible assumption
    | lift_lets -underBinder
    | (intro x; have hx : Untouched [.dio] s x := (by
        subst x
        repeat' first
          | with_reducible exact Untouched.refl _ _
          | (with_reducible apply Untouched.step (k := modBank_frame ..); case i => decide)); clear_value x)
    | (intro x; subst x)
    | (with_reducible apply Untouched.step (k := modDio_frame ..); case i => decide)
    | split
    | with_reducible refine Untouched.forAll (fun n t ht => ?_) ?_

theorem takeWord_frame (b : Nat) (w : Nat × Nat) (s : State) :
    Untouched [.dio] s (takeWord b w s) := by
  unfold takeWord
  repeat' first
    | with_reducible exact Untouched.refl _ _
    | lift_lets -underBinder
    | (with_reducible apply Untouched.step (k := activateBank_frame ..); case i => decide)
    | (with_reducible apply Untouched.step (k := modBank_frame ..); case i => decide)
    | split

theorem takeCommand_frame (leaving : Bool) (ch : Nat) (cmd : Bool) (en : Bool) (s : State) :
    Untouched [.dio, .recd] s (takeCommand leaving ch cmd en s) := by
  unfold takeCommand
  repeat' first
    | with_reducible assumption
    | lift_lets -underBinder
    | (intro x; have hx : Untouched [.dio, .recd] s x := (by
        subst x
        repeat' first
          | with_reducible assumption
          | with_reducible exact Untouched.refl _ _
          | (with_reducible apply Untouched.step (k := endDrive_frame ..); case i => decide)
          | (with_reducible apply Untouched.step (k := modDio_frame ..); case i => decide)
          | split); clear_value x)
    | (intro x; subst x)
    | (with_reducible apply Untouched.step (k := commandLevel_frame ..); case i => decide)
    | (with_reducible apply Untouched.step (k := modDio_frame ..); case i => decide)
    | (with_reducible apply Untouched.step (k := settleSwitch_frame ..); case i => decide)
    | split

theorem markLate_frame (g : Int) (es : List DioEdge) (s : State) :
    Untouched [.cad] s (markLate g es s) := by
  unfold markLate
  repeat' first
    | with_reducible assumption
    | with_reducible exact Untouched.refl _ _
    | lift_lets -underBinder
    | (with_reducible apply Untouched.step (k := modSched_frame ..); case i => decide)
    | split
    | with_reducible refine Untouched.foldl (fun t x ht => ?_) _ _ ?_

theorem bicTakes_frame (b : Nat) (g : Int) (cmds : Nat) (ens : Nat) (es : List DioEdge) (w : Nat × Nat) (s : State) :
    Untouched [.dio, .recd] s (bicTakes b g cmds ens es w s) := by
  unfold bicTakes
  repeat' first
    | with_reducible assumption
    | lift_lets -underBinder
    | (intro x; have hx : Untouched [.dio, .recd] s x := (by
        subst x
        repeat' first
          | with_reducible assumption
          | with_reducible exact Untouched.refl _ _
          | (with_reducible apply Untouched.step (k := modBank_frame ..); case i => decide)
          | (with_reducible apply Untouched.step (k := takeWord_frame ..); case i => decide)); clear_value x)
    | (intro x; subst x)
    | (with_reducible apply Untouched.step (k := takeCommand_frame ..); case i => decide)
    | with_reducible refine Untouched.foldl (fun t x ht => ?_) _ _ ?_

theorem downstreamFrameState_frame (b : Nat) (ok : Bool) (s : State) :
    Untouched [.freeN, .outbox, .img, .prog, .eng, .cad, .ring, .dio, .aio, .can, .recd, .retired] s (downstreamFrameState b ok s) := by
  unfold downstreamFrameState
  repeat' first
    | with_reducible assumption
    | with_reducible exact Untouched.refl _ _
    | lift_lets -underBinder
    | (intro x; have hx : Untouched [.freeN, .outbox, .img, .prog, .eng, .cad, .ring, .dio, .aio, .can, .recd, .retired] s x := (by
        subst x
        repeat' first
          | with_reducible assumption
          | with_reducible exact Untouched.refl _ _
          | lift_lets -underBinder
          | (with_reducible apply Untouched.step (k := loopsRelease_frame ..); case i => decide)
          | (with_reducible apply Untouched.step (k := markLate_frame ..); case i => decide)
          | (with_reducible apply Untouched.step (k := modBank_frame ..); case i => decide)
          | (with_reducible apply Untouched.step (k := modDio_frame ..); case i => decide)
          | (with_reducible apply Untouched.step (k := send_frame ..); case i => decide)
          | with_reducible refine Untouched.foldl (fun t x ht => ?_) _ _ ?_); clear_value x)
    | (intro x; subst x)
    | (with_reducible apply Untouched.step (k := bicTakes_frame ..); case i => decide)
    | (with_reducible apply Untouched.step (k := linkFault_frame ..); case i => decide)
    | split

theorem edgeTasks_frame (ch : Nat) (rising : Bool) (s : State) :
    Untouched [.sess, .prog, .cad, .can, .recd] s (edgeTasks ch rising s) := by
  unfold edgeTasks
  repeat' first
    | with_reducible assumption
    | with_reducible exact Untouched.refl _ _
    | lift_lets -underBinder
    | (intro x; subst x)
    | (with_reducible apply Untouched.step (k := triggerTask_frame ..); case i => decide)
    | split
    | with_reducible refine Untouched.forAll (fun n t ht => ?_) ?_

theorem landChannel_frame (ch : Nat) (r : ChanRep) (s : State) :
    Untouched [.img, .dio] s (landChannel ch r s) := by
  unfold landChannel
  repeat' first
    | with_reducible assumption
    | lift_lets -underBinder
    | (intro x; have hx : Untouched [.img, .dio] s x := (by
        subst x
        repeat' first
          | with_reducible exact Untouched.refl _ _
          | (with_reducible apply Untouched.step (k := modDio_frame ..); case i => decide)); clear_value x)
    | (with_reducible apply Untouched.step (k := produceAllAs_frame ..); case i => decide)

theorem landEdge_frame (r : ChanRep) (e : EdgeRec) (s : State) :
    Untouched [.sess, .img, .prog, .cad, .dio, .can, .recd] s (landEdge r e s) := by
  unfold landEdge
  repeat' first
    | with_reducible assumption
    | lift_lets -underBinder
    | (intro x; have hx : Untouched [.sess, .img, .prog, .cad, .dio, .can, .recd] s x := (by
        subst x
        repeat' first
          | with_reducible exact Untouched.refl _ _
          | lift_lets -underBinder
          | (with_reducible apply Untouched.step (k := landChannel_frame ..); case i => decide)
          | (with_reducible apply Untouched.step (k := modDio_frame ..); case i => decide)); clear_value x)
    | (with_reducible apply Untouched.step (k := edgeTasks_frame ..); case i => decide)
    | split

theorem landRest_frame (ch : Nat) (r : ChanRep) (s : State) :
    Untouched [.img, .dio] s (landRest ch r s) := by
  unfold landRest
  repeat' first
    | with_reducible exact Untouched.refl _ _
    | lift_lets -underBinder
    | (intro x; subst x)
    | (with_reducible apply Untouched.step (k := landChannel_frame ..); case i => decide)
    | split

theorem landBank_frame (b : Nat) (chans : List ChanRep) (edges : List EdgeRec) (s : State) :
    Untouched [.sess, .img, .prog, .cad, .dio, .can, .recd] s (landBank b chans edges s) := by
  unfold landBank
  repeat' first
    | with_reducible assumption
    | lift_lets -underBinder
    | (intro x; have hx : Untouched [.sess, .img, .prog, .cad, .dio, .can, .recd] s x := (by
        subst x
        repeat' first
          | with_reducible assumption
          | with_reducible exact Untouched.refl _ _
          | lift_lets -underBinder
          | (with_reducible apply Untouched.step (k := landEdge_frame ..); case i => decide)
          | with_reducible refine Untouched.foldl (fun t x ht => ?_) _ _ ?_); clear_value x)
    | (with_reducible apply Untouched.step (k := landRest_frame ..); case i => decide)
    | with_reducible refine Untouched.foldl (fun t x ht => ?_) _ _ ?_

theorem frameSent_frame (b : Nat) (s : State) :
    Untouched [.dio] s (frameSent b s) := by
  unfold frameSent
  repeat' first
    | with_reducible exact Untouched.refl _ _
    | (with_reducible apply Untouched.step (k := modBank_frame ..); case i => decide)

theorem loseStamps_frame (es : List EdgeRec) (s : State) :
    Untouched [.dio] s (loseStamps es s) := by
  unfold loseStamps
  repeat' first
    | with_reducible assumption
    | with_reducible exact Untouched.refl _ _
    | lift_lets -underBinder
    | (with_reducible apply Untouched.step (k := modDio_frame ..); case i => decide)
    | with_reducible refine Untouched.foldl (fun t x ht => ?_) _ _ ?_

theorem landOwnBank_frame (b : Nat) (chans : List ChanRep) (es : List EdgeRec) (s : State) :
    Untouched [.sess, .img, .prog, .cad, .dio, .can, .pair, .recd] s (landOwnBank b chans es s) := by
  unfold landOwnBank
  repeat' first
    | with_reducible exact Untouched.refl _ _
    | lift_lets -underBinder
    | (with_reducible apply Untouched.step (k := landBank_frame ..); case i => decide)
    | (with_reducible apply Untouched.step (k := noteLanding_frame ..); case i => decide)
    | split

theorem takeMatched_frame (b : Nat) (f : UpFrame) (chans : List ChanRep) (s : State) :
    Untouched [.sess, .img, .prog, .eng, .cad, .dio, .can, .pair, .recd] s (takeMatched b f chans s) := by
  unfold takeMatched
  repeat' first
    | with_reducible assumption
    | lift_lets -underBinder
    | (intro x; have hx : Untouched [.sess, .img, .prog, .eng, .cad, .dio, .can, .pair, .recd] s x := (by
        subst x
        repeat' first
          | with_reducible assumption
          | with_reducible exact Untouched.refl _ _
          | lift_lets -underBinder
          | (with_reducible apply Untouched.step (k := emit_frame ..); case i => decide)
          | (with_reducible apply Untouched.step (k := judgeFcl_frame ..); case i => decide)
          | (with_reducible apply Untouched.step (k := landOwnBank_frame ..); case i => decide)
          | (with_reducible apply Untouched.step (k := modBank_frame ..); case i => decide)
          | (with_reducible apply Untouched.step (k := modDio_frame ..); case i => decide)
          | split
          | with_reducible refine Untouched.foldl (fun t x ht => ?_) _ _ ?_); clear_value x)
    | (with_reducible apply Untouched.step (k := yieldTo_frame ..); case i => decide)
    | split

theorem takeMismatch_frame (b : Nat) (f : UpFrame) (s : State) :
    Untouched [.sess, .img, .prog, .cad, .dio, .can, .pair, .recd] s (takeMismatch b f s) := by
  unfold takeMismatch
  repeat' first
    | with_reducible assumption
    | lift_lets -underBinder
    | (intro x; have hx : Untouched [.sess, .img, .prog, .cad, .dio, .can, .pair, .recd] s x := (by
        subst x
        repeat' first
          | with_reducible assumption
          | with_reducible exact Untouched.refl _ _
          | (with_reducible apply Untouched.step (k := emit_frame ..); case i => decide)
          | (with_reducible apply Untouched.step (k := loseStamps_frame ..); case i => decide)
          | (with_reducible apply Untouched.step (k := modBank_frame ..); case i => decide)
          | split); clear_value x)
    | (intro x; subst x)
    | (with_reducible apply Untouched.step (k := landOwnBank_frame ..); case i => decide)
    | split

theorem upstreamFrameState_frame (b : Nat) (ok : Bool) (mv : Nat) (ma : Nat) (temp : Int) (curMa : Nat) (s : State) :
    Untouched [.sess, .img, .prog, .eng, .cad, .dio, .can, .pair, .recd, .retired] s (upstreamFrameState b ok mv ma temp curMa s) := by
  unfold upstreamFrameState
  repeat' first
    | with_reducible assumption
    | with_reducible exact Untouched.refl _ _
    | lift_lets -underBinder
    | (intro x; have hx : Untouched [.sess, .img, .prog, .eng, .cad, .dio, .can, .pair, .recd, .retired] s x := (by
        subst x
        repeat' first
          | with_reducible assumption
          | with_reducible exact Untouched.refl _ _
          | lift_lets -underBinder
          | (with_reducible apply Untouched.step (k := frameSent_frame ..); case i => decide)
          | (with_reducible apply Untouched.step (k := loseStamps_frame ..); case i => decide)
          | (with_reducible apply Untouched.step (k := modBank_frame ..); case i => decide)
          | (with_reducible apply Untouched.step (k := takeMatched_frame ..); case i => decide)
          | (with_reducible apply Untouched.step (k := takeMismatch_frame ..); case i => decide)
          | split); clear_value x)
    | (intro x; subst x)
    | (with_reducible apply Untouched.step (k := linkFault_frame ..); case i => decide)
    | (with_reducible apply Untouched.step (k := modBank_frame ..); case i => decide)
    | split

theorem queueEdge_frame (ch : Nat) (v : Bool) (s : State) :
    Untouched [.dio] s (queueEdge ch v s) := by
  unfold queueEdge
  repeat' first
    | with_reducible exact Untouched.refl _ _
    | lift_lets -underBinder
    | (intro x; subst x)
    | (with_reducible apply Untouched.step (k := modBank_frame ..); case i => decide)
    | (with_reducible apply Untouched.step (k := modDio_frame ..); case i => decide)
    | split

theorem pinState_frame (ch : Nat) (mv : Nat) (s : State) :
    Untouched [.dio] s (pinState ch mv s) := by
  unfold pinState
  repeat' first
    | with_reducible exact Untouched.refl _ _
    | lift_lets -underBinder
    | (intro x; subst x)
    | (with_reducible apply Untouched.step (k := stampDio_frame ..); case i => decide)
    | split

theorem diEdgeState_frame (ch : Nat) (mv : Nat) (ua : Nat) (s : State) :
    Untouched [.dio] s (diEdgeState ch mv ua s) := by
  unfold diEdgeState
  repeat' first
    | with_reducible assumption
    | with_reducible exact Untouched.refl _ _
    | lift_lets -underBinder
    | (intro x; have hx : Untouched [.dio] s x := (by
        subst x
        repeat' first
          | with_reducible exact Untouched.refl _ _
          | (with_reducible apply Untouched.step (k := stampDio_frame ..); case i => decide)); clear_value x)
    | (intro x; subst x)
    | (with_reducible apply Untouched.step (k := pinState_frame ..); case i => decide)
    | (with_reducible apply Untouched.step (k := queueEdge_frame ..); case i => decide)
    | split

theorem outputTripState_frame (ch : Nat) (thermal : Bool) (s : State) :
    Untouched [.img, .cad, .dio, .recd, .retired] s (outputTripState ch thermal s) := by
  unfold outputTripState
  repeat' first
    | with_reducible assumption
    | with_reducible exact Untouched.refl _ _
    | lift_lets -underBinder
    | (intro x; have hx : Untouched [.img, .cad, .dio, .recd, .retired] s x := (by
        subst x
        repeat' first
          | with_reducible assumption
          | with_reducible exact Untouched.refl _ _
          | lift_lets -underBinder
          | (with_reducible apply Untouched.step (k := emit_frame ..); case i => decide)
          | (with_reducible apply Untouched.step (k := modDio_frame ..); case i => decide)
          | (with_reducible apply Untouched.step (k := setSwitch_frame ..); case i => decide)
          | split); clear_value x)
    | (intro x; subst x)
    | (with_reducible apply Untouched.step (k := retireDio_frame ..); case i => decide)
    | split

theorem bankOff_frame (b : Nat) (s : State) :
    Untouched [.dio, .recd] s (bankOff b s) := by
  unfold bankOff
  repeat' first
    | with_reducible assumption
    | with_reducible exact Untouched.refl _ _
    | lift_lets -underBinder
    | (with_reducible apply Untouched.step (k := modBank_frame ..); case i => decide)
    | (with_reducible apply Untouched.step (k := setSwitch_frame ..); case i => decide)
    | split
    | with_reducible refine Untouched.forAll (fun n t ht => ?_) ?_

theorem startRestore_frame (b : Nat) (s : State) :
    Untouched [.dio, .recd] s (startRestore b s) := by
  unfold startRestore
  repeat' first
    | with_reducible exact Untouched.refl _ _
    | lift_lets -underBinder
    | (with_reducible apply Untouched.step (k := modBank_frame ..); case i => decide)
    | (with_reducible apply Untouched.step (k := settleBank_frame ..); case i => decide)

theorem externalDriveState_frame (ch : Nat) (mv : Nat) (s : State) :
    Untouched [.dio, .pair, .recd] s (externalDriveState ch mv s) := by
  unfold externalDriveState
  repeat' first
    | with_reducible assumption
    | with_reducible exact Untouched.refl _ _
    | lift_lets -underBinder
    | (intro x; have hx : Untouched [.dio, .pair, .recd] s x := (by
        subst x
        repeat' first
          | with_reducible assumption
          | with_reducible exact Untouched.refl _ _
          | (with_reducible apply Untouched.step (k := emit_frame ..); case i => decide)
          | (with_reducible apply Untouched.step (k := modDio_frame ..); case i => decide)
          | (with_reducible apply Untouched.step (k := pinState_frame ..); case i => decide)
          | split); clear_value x)
    | (intro x; subst x)
    | (with_reducible apply Untouched.step (k := endDrive_frame ..); case i => decide)
    | (with_reducible apply Untouched.step (k := selfTestFailed_frame ..); case i => decide)
    | split

theorem bankSupplyLost_frame (b : Nat) (s : State) :
    Untouched [.dio, .recd] s (bankSupplyLost b s) := by
  unfold bankSupplyLost
  repeat' first
    | with_reducible assumption
    | lift_lets -underBinder
    | (intro x; have hx : Untouched [.dio, .recd] s x := (by
        subst x
        repeat' first
          | with_reducible exact Untouched.refl _ _
          | lift_lets -underBinder
          | (with_reducible apply Untouched.step (k := bankOff_frame ..); case i => decide)
          | (with_reducible apply Untouched.step (k := modBank_frame ..); case i => decide)); clear_value x)
    | (intro x; subst x)
    | (with_reducible apply Untouched.step (k := stampDio_frame ..); case i => decide)
    | with_reducible refine Untouched.forAll (fun n t ht => ?_) ?_

theorem bankSupplyBack_frame (b : Nat) (s : State) :
    Untouched [.dio, .recd] s (bankSupplyBack b s) := by
  unfold bankSupplyBack
  repeat' first
    | with_reducible assumption
    | with_reducible exact Untouched.refl _ _
    | lift_lets -underBinder
    | (intro x; have hx : Untouched [.dio, .recd] s x := (by
        subst x
        repeat' first
          | with_reducible exact Untouched.refl _ _
          | lift_lets -underBinder
          | (with_reducible apply Untouched.step (k := modBank_frame ..); case i => decide)
          | (with_reducible apply Untouched.step (k := startRestore_frame ..); case i => decide)); clear_value x)
    | (with_reducible apply Untouched.step (k := modBank_frame ..); case i => decide)
    | split

theorem bicResets_frame (b : Nat) (s : State) :
    Untouched [.freeN, .dio, .recd] s (bicResets b s) := by
  unfold bicResets
  repeat' first
    | with_reducible assumption
    | lift_lets -underBinder
    | (intro x; have hx : Untouched [.freeN, .dio, .recd] s x := (by
        subst x
        repeat' first
          | with_reducible exact Untouched.refl _ _
          | lift_lets -underBinder
          | (with_reducible apply Untouched.step (k := bankOff_frame ..); case i => decide)
          | (with_reducible apply Untouched.step (k := draw_frame ..); case i => decide)
          | (with_reducible apply Untouched.step (k := modBank_frame ..); case i => decide)
          | with_reducible refine Untouched.of_snd ?_ (by assumption)); clear_value x)
    | (with_reducible apply Untouched.step (k := modDio_frame ..); case i => decide)
    | split
    | with_reducible refine Untouched.forAll (fun n t ht => ?_) ?_

theorem applyEdge_frame (e : DioEdge) (s : State) :
    Untouched [.dio, .recd] s (applyEdge e s) := by
  unfold applyEdge
  repeat' first
    | with_reducible exact Untouched.refl _ _
    | lift_lets -underBinder
    | (with_reducible apply Untouched.step (k := commandLevel_frame ..); case i => decide)
    | (with_reducible apply Untouched.step (k := modDio_frame ..); case i => decide)
    | split

theorem timedEdgeState_frame (ch : Nat) (s : State) :
    Untouched [.dio, .recd] s (timedEdgeState ch s) := by
  unfold timedEdgeState
  repeat' first
    | with_reducible assumption
    | lift_lets -underBinder
    | (intro x; have hx : Untouched [.dio, .recd] s x := (by
        subst x
        repeat' first
          | with_reducible exact Untouched.refl _ _
          | (with_reducible apply Untouched.step (k := modBank_frame ..); case i => decide)); clear_value x)
    | (intro x; subst x)
    | (with_reducible apply Untouched.step (k := applyEdge_frame ..); case i => decide)
    | with_reducible refine Untouched.foldl (fun t x ht => ?_) _ _ ?_

theorem startBanks_frame (s : State) :
    Untouched [.dio] s (startBanks s) := by
  unfold startBanks
  repeat' first
    | with_reducible assumption
    | lift_lets -underBinder
    | (intro x; have hx : Untouched [.dio] s x := (by
        subst x
        repeat' first
          | with_reducible assumption
          | with_reducible exact Untouched.refl _ _
          | lift_lets -underBinder
          | (intro x; subst x)
          | (with_reducible apply Untouched.step (k := modBank_frame ..); case i => decide)
          | with_reducible refine Untouched.forAll (fun n t ht => ?_) ?_); clear_value x)
    | (with_reducible apply Untouched.step (k := modDio_frame ..); case i => decide)
    | with_reducible refine Untouched.forAll (fun n t ht => ?_) ?_

end Sys2Proof.Machine
end

