-- ==== Sys2Proof/Laws/FrameAio.lean ====
section
/-! SUPPORT. The frame of every operation of Machine/Aio.lean: the parts of the state it may touch. -/

set_option Elab.async false

namespace Sys2Proof.Machine

theorem landAio_frame (ch : Nat) (v : Real32) (q : Nat) (stamp : Int) (s : State) :
    Untouched [.img, .aio] s (landAio ch v q stamp s) := by
  unfold landAio
  repeat' first
    | with_reducible assumption
    | lift_lets -underBinder
    | (intro x; have hx : Untouched [.img, .aio] s x := (by
        subst x
        repeat' first
          | with_reducible exact Untouched.refl _ _
          | (with_reducible apply Untouched.step (k := modAio_frame ..); case i => decide)); clear_value x)
    | (with_reducible apply Untouched.step (k := produceAllAs_frame ..); case i => decide)

theorem landOwnAio_frame (ch : Nat) (stamp : Int) (s : State) :
    Untouched [.img, .aio, .pair] s (landOwnAio ch stamp s) := by
  unfold landOwnAio
  repeat' first
    | with_reducible exact Untouched.refl _ _
    | lift_lets -underBinder
    | (intro x; subst x)
    | (with_reducible apply Untouched.step (k := landAio_frame ..); case i => decide)
    | (with_reducible apply Untouched.step (k := noteLanding_frame ..); case i => decide)
    | split

theorem settleSource_frame (ch : Nat) (s : State) :
    Untouched [.aio] s (settleSource ch s) := by
  unfold settleSource
  repeat' first
    | with_reducible exact Untouched.refl _ _
    | lift_lets -underBinder
    | (intro x; subst x)
    | (with_reducible apply Untouched.step (k := modAio_frame ..); case i => decide)

theorem requalAio_frame (ch : Nat) (s : State) :
    Untouched [.img] s (requalAio ch s) := by
  unfold requalAio
  repeat' first
    | with_reducible exact Untouched.refl _ _
    | lift_lets -underBinder
    | (intro x; subst x)
    | (with_reducible apply Untouched.step (k := decideQual_frame ..); case i => decide)
    | split

theorem aioConversionState_frame (ch : Nat) (code : Int) (env : ConvEnv) (s : State) :
    Untouched [.img, .aio, .pair] s (aioConversionState ch code env s) := by
  unfold aioConversionState
  repeat' first
    | with_reducible assumption
    | with_reducible exact Untouched.refl _ _
    | lift_lets -underBinder
    | (intro x; have hx : Untouched [.img, .aio, .pair] s x := (by
        subst x
        repeat' first
          | with_reducible assumption
          | with_reducible exact Untouched.refl _ _
          | (with_reducible apply Untouched.step (k := modAio_frame ..); case i => decide)); clear_value x)
    | (intro x; subst x)
    | (with_reducible apply Untouched.step (k := landOwnAio_frame ..); case i => decide)
    | split

theorem retireAio_frame (ch : Nat) (cal : Bool) (s : State) :
    Untouched [.img, .aio, .recd, .retired] s (retireAio ch cal s) := by
  unfold retireAio
  repeat' first
    | with_reducible assumption
    | lift_lets -underBinder
    | (intro x; have hx : Untouched [.img, .aio, .recd, .retired] s x := (by
        subst x
        repeat' first
          | with_reducible exact Untouched.refl _ _
          | (with_reducible apply Untouched.step (k := listRetired_frame ..); case i => decide)); clear_value x)
    | (with_reducible apply Untouched.step (k := modAio_frame ..); case i => decide)
    | (with_reducible apply Untouched.step (k := requalAio_frame ..); case i => decide)
    | (with_reducible apply Untouched.step (k := settleSource_frame ..); case i => decide)
    | split

theorem chipFault_frame (ch : Nat) (variant : Nat) (s : State) :
    Untouched [.img, .aio, .recd, .retired] s (chipFault ch variant s) := by
  unfold chipFault
  repeat' first
    | with_reducible assumption
    | lift_lets -underBinder
    | (intro x; have hx : Untouched [.img, .aio, .recd, .retired] s x := (by
        subst x
        repeat' first
          | with_reducible assumption
          | with_reducible exact Untouched.refl _ _
          | (with_reducible apply Untouched.step (k := emit_frame ..); case i => decide)
          | (with_reducible apply Untouched.step (k := modAio_frame ..); case i => decide)); clear_value x)
    | (intro x; subst x)
    | (with_reducible apply Untouched.step (k := retireAio_frame ..); case i => decide)
    | split

theorem chipTakes_frame (ch : Nat) (s : State) :
    Untouched [.aio] s (chipTakes ch s) := by
  unfold chipTakes
  repeat' first
    | with_reducible exact Untouched.refl _ _
    | lift_lets -underBinder
    | (intro x; subst x)
    | (with_reducible apply Untouched.step (k := modAio_frame ..); case i => decide)
    | (with_reducible apply Untouched.step (k := settleSource_frame ..); case i => decide)

theorem landFlags_frame (ch : Nat) (s : State) :
    Untouched [.img, .aio, .pair] s (landFlags ch s) := by
  unfold landFlags
  repeat' first
    | with_reducible exact Untouched.refl _ _
    | (with_reducible apply Untouched.step (k := landOwnAio_frame ..); case i => decide)
    | split

theorem aioLinkFrameState_frame (ch : Nat) (okDown : Bool) (okUp : Bool) (mv : Int) (temp : Int) (s : State) :
    Untouched [.outbox, .img, .ring, .aio, .pair, .recd, .retired] s (aioLinkFrameState ch okDown okUp mv temp s) := by
  unfold aioLinkFrameState
  repeat' first
    | with_reducible assumption
    | with_reducible exact Untouched.refl _ _
    | lift_lets -underBinder
    | (intro x; have hx : Untouched [.outbox, .img, .ring, .aio, .pair, .recd, .retired] s x := (by
        subst x
        repeat' first
          | with_reducible assumption
          | with_reducible exact Untouched.refl _ _
          | (with_reducible apply Untouched.step (k := chipFault_frame ..); case i => decide)
          | (with_reducible apply Untouched.step (k := chipTakes_frame ..); case i => decide)
          | (with_reducible apply Untouched.step (k := modAio_frame ..); case i => decide)
          | (with_reducible apply Untouched.step (k := send_frame ..); case i => decide)
          | split); clear_value x)
    | (intro x; subst x)
    | (with_reducible apply Untouched.step (k := chipFault_frame ..); case i => decide)
    | (with_reducible apply Untouched.step (k := landFlags_frame ..); case i => decide)
    | (with_reducible apply Untouched.step (k := modAio_frame ..); case i => decide)
    | split

theorem aioSupplyLost_frame (s : State) :
    Untouched [.aio] s (aioSupplyLost s) := by
  unfold aioSupplyLost
  repeat' first
    | with_reducible assumption
    | with_reducible exact Untouched.refl _ _
    | lift_lets -underBinder
    | (with_reducible apply Untouched.step (k := modAio_frame ..); case i => decide)
    | (with_reducible apply Untouched.step (k := settleSource_frame ..); case i => decide)
    | with_reducible refine Untouched.forAll (fun n t ht => ?_) ?_

theorem aioSupplyBack_frame (s : State) :
    Untouched [.aio] s (aioSupplyBack s) := by
  unfold aioSupplyBack
  repeat' first
    | with_reducible assumption
    | with_reducible exact Untouched.refl _ _
    | lift_lets -underBinder
    | (with_reducible apply Untouched.step (k := modAio_frame ..); case i => decide)
    | (with_reducible apply Untouched.step (k := settleSource_frame ..); case i => decide)
    | split
    | with_reducible refine Untouched.forAll (fun n t ht => ?_) ?_

theorem applyAio_frame (old : Tbl (List Byte)) (s : State) :
    Untouched [.img, .aio] s (applyAio old s) := by
  unfold applyAio
  repeat' first
    | with_reducible assumption
    | with_reducible exact Untouched.refl _ _
    | lift_lets -underBinder
    | (with_reducible apply Untouched.step (k := modAio_frame ..); case i => decide)
    | (with_reducible apply Untouched.step (k := requalAio_frame ..); case i => decide)
    | (with_reducible apply Untouched.step (k := settleSource_frame ..); case i => decide)
    | split
    | with_reducible refine Untouched.forAll (fun n t ht => ?_) ?_

theorem startAio_frame (s : State) :
    Untouched [.img, .aio, .recd, .retired] s (startAio s) := by
  unfold startAio
  repeat' first
    | with_reducible assumption
    | with_reducible exact Untouched.refl _ _
    | lift_lets -underBinder
    | (intro x; have hx : Untouched [.img, .aio, .recd, .retired] s x := (by
        subst x
        repeat' first
          | with_reducible assumption
          | (with_reducible apply Untouched.step (k := modAio_frame ..); case i => decide)
          | (with_reducible apply Untouched.step (k := settleSource_frame ..); case i => decide)); clear_value x)
    | (with_reducible apply Untouched.step (k := emit_frame ..); case i => decide)
    | (with_reducible apply Untouched.step (k := retireAio_frame ..); case i => decide)
    | split
    | with_reducible refine Untouched.forAll (fun n t ht => ?_) ?_

end Sys2Proof.Machine
end

