-- ==== Sys2Proof/Laws/FrameMotion.lean ====
section
/-! SUPPORT. The frame of every operation of Machine/Motion.lean: the parts of the state it may touch. -/

set_option Elab.async false

namespace Sys2Proof.Machine

theorem modAxGroup_frame (g : Nat) (f : AxGroup → AxGroup) (s : State) :
    Untouched [.mot] s (modAxGroup g f s) := by
  unfold modAxGroup
  repeat' first
    | with_reducible exact Untouched.refl _ _
    | lift_lets -underBinder
    | (intro x; subst x)
    | with_reducible refine Untouched.put ?_

theorem losePos_frame (n : Nat) (code : Nat) (s : State) :
    Untouched [.mot, .recd] s (losePos n code s) := by
  unfold losePos
  repeat' first
    | with_reducible assumption
    | lift_lets -underBinder
    | (intro x; have hx : Untouched [.mot, .recd] s x := (by
        subst x
        repeat' first
          | with_reducible exact Untouched.refl _ _
          | (with_reducible apply Untouched.step (k := modAxis_frame ..); case i => decide)); clear_value x)
    | (intro x; subst x)
    | (with_reducible apply Untouched.step (k := emit_frame ..); case i => decide)
    | split

theorem endHoming_frame (n : Nat) (result : Nat) (held : Bool) (s : State) :
    Untouched [.mot, .recd] s (endHoming n result held s) := by
  unfold endHoming
  repeat' first
    | with_reducible assumption
    | with_reducible exact Untouched.refl _ _
    | lift_lets -underBinder
    | (intro x; have hx : Untouched [.mot, .recd] s x := (by
        subst x
        repeat' first
          | with_reducible exact Untouched.refl _ _
          | (with_reducible apply Untouched.step (k := modAxis_frame ..); case i => decide)); clear_value x)
    | (intro x; subst x)
    | (with_reducible apply Untouched.step (k := emit_frame ..); case i => decide)
    | split

theorem tellCut_frame (n : Nat) (old : Int) (s : State) :
    Untouched [.outbox, .ring] s (tellCut n old s) := by
  unfold tellCut
  repeat' first
    | with_reducible exact Untouched.refl _ _
    | lift_lets -underBinder
    | (intro x; subst x)
    | (with_reducible apply Untouched.step (k := send_frame ..); case i => decide)
    | split

theorem dropPlan_frame (n : Nat) (s : State) :
    Untouched [.outbox, .ring, .mot] s (dropPlan n s) := by
  unfold dropPlan
  repeat' first
    | with_reducible exact Untouched.refl _ _
    | lift_lets -underBinder
    | (intro x; subst x)
    | (with_reducible apply Untouched.step (k := modAxis_frame ..); case i => decide)
    | (with_reducible apply Untouched.step (k := tellCut_frame ..); case i => decide)

theorem hardStop_frame (n : Nat) (s : State) :
    Untouched [.outbox, .ring, .mot, .recd] s (hardStop n s) := by
  unfold hardStop
  repeat' first
    | with_reducible assumption
    | lift_lets -underBinder
    | (intro x; have hx : Untouched [.outbox, .ring, .mot, .recd] s x := (by
        subst x
        repeat' first
          | with_reducible assumption
          | with_reducible exact Untouched.refl _ _
          | (with_reducible apply Untouched.step (k := dropPlan_frame ..); case i => decide)
          | (with_reducible apply Untouched.step (k := modAxis_frame ..); case i => decide)); clear_value x)
    | (intro x; subst x)
    | (with_reducible apply Untouched.step (k := losePos_frame ..); case i => decide)
    | split

theorem stopGroup_frame (g : Nat) (s : State) :
    Untouched [.mot] s (stopGroup g s) := by
  unfold stopGroup
  repeat' first
    | with_reducible exact Untouched.refl _ _
    | (with_reducible apply Untouched.step (k := modAxGroup_frame ..); case i => decide)

theorem hardStopAll_frame (n : Nat) (s : State) :
    Untouched [.outbox, .ring, .mot, .recd] s (hardStopAll n s) := by
  unfold hardStopAll
  repeat' first
    | with_reducible assumption
    | with_reducible exact Untouched.refl _ _
    | lift_lets -underBinder
    | (intro x; have hx : Untouched [.outbox, .ring, .mot, .recd] s x := (by
        subst x
        repeat' first
          | with_reducible assumption
          | with_reducible exact Untouched.refl _ _
          | lift_lets -underBinder
          | (with_reducible apply Untouched.step (k := hardStop_frame ..); case i => decide)
          | (with_reducible apply Untouched.step (k := modAxis_frame ..); case i => decide)
          | split
          | with_reducible refine Untouched.forAll (fun n t ht => ?_) ?_); clear_value x)
    | (intro x; subst x)
    | (with_reducible apply Untouched.step (k := hardStop_frame ..); case i => decide)
    | (with_reducible apply Untouched.step (k := stopGroup_frame ..); case i => decide)
    | split

theorem energise_frame (n : Nat) (s : State) :
    Untouched [.mot] s (energise n s) := by
  unfold energise
  repeat' first
    | with_reducible exact Untouched.refl _ _
    | (with_reducible apply Untouched.step (k := modAxis_frame ..); case i => decide)

theorem deEnergise_frame (n : Nat) (s : State) :
    Untouched [.mot] s (deEnergise n s) := by
  unfold deEnergise
  repeat' first
    | with_reducible exact Untouched.refl _ _
    | (with_reducible apply Untouched.step (k := modAxis_frame ..); case i => decide)

theorem readTarget_frame (n : Nat) (s : State) :
    Untouched [.mot] s (readTarget n s) := by
  unfold readTarget
  repeat' first
    | with_reducible assumption
    | with_reducible exact Untouched.refl _ _
    | lift_lets -underBinder
    | (intro x; have hx : Untouched [.mot] s x := (by
        subst x
        repeat' first
          | with_reducible exact Untouched.refl _ _
          | (with_reducible apply Untouched.step (k := modAxis_frame ..); case i => decide)); clear_value x)
    | (intro x; subst x)
    | (with_reducible apply Untouched.step (k := modAxis_frame ..); case i => decide)
    | split

theorem startHoming_frame (n : Nat) (s : State) :
    Untouched [.mot, .recd] s (startHoming n s) := by
  unfold startHoming
  repeat' first
    | with_reducible assumption
    | with_reducible exact Untouched.refl _ _
    | lift_lets -underBinder
    | (intro x; have hx : Untouched [.mot, .recd] s x := (by
        subst x
        repeat' first
          | with_reducible exact Untouched.refl _ _
          | (with_reducible apply Untouched.step (k := modAxis_frame ..); case i => decide)); clear_value x)
    | (intro x; subst x)
    | (with_reducible apply Untouched.step (k := endHoming_frame ..); case i => decide)
    | (with_reducible apply Untouched.step (k := modAxis_frame ..); case i => decide)
    | split

theorem readInputs_frame (n : Nat) (s : State) :
    Untouched [.outbox, .ring, .mot, .recd] s (readInputs n s) := by
  unfold readInputs
  repeat' first
    | with_reducible assumption
    | lift_lets -underBinder
    | (intro x; have hx : Untouched [.outbox, .ring, .mot, .recd] s x := (by
        subst x
        repeat' first
          | with_reducible assumption
          | with_reducible exact Untouched.refl _ _
          | lift_lets -underBinder
          | (with_reducible apply Untouched.step (k := endHoming_frame ..); case i => decide)
          | (with_reducible apply Untouched.step (k := hardStopAll_frame ..); case i => decide)
          | (with_reducible apply Untouched.step (k := modAxis_frame ..); case i => decide)
          | (with_reducible apply Untouched.step (k := readTarget_frame ..); case i => decide)
          | (with_reducible apply Untouched.step (k := startHoming_frame ..); case i => decide)
          | split); clear_value x)
    | (intro x; subst x)
    | (with_reducible apply Untouched.step (k := energise_frame ..); case i => decide)
    | split

theorem rampNow_frame (n : Nat) (s : State) :
    Untouched [.outbox, .ring, .mot] s (rampNow n s) := by
  unfold rampNow
  repeat' first
    | with_reducible exact Untouched.refl _ _
    | lift_lets -underBinder
    | (intro x; subst x)
    | (with_reducible apply Untouched.step (k := modAxis_frame ..); case i => decide)
    | (with_reducible apply Untouched.step (k := tellCut_frame ..); case i => decide)

theorem searchBlocked_frame (n : Nat) (s : State) :
    Untouched [.mot, .recd] s (searchBlocked n s) := by
  unfold searchBlocked
  repeat' first
    | with_reducible exact Untouched.refl _ _
    | (with_reducible apply Untouched.step (k := endHoming_frame ..); case i => decide)
    | (with_reducible apply Untouched.step (k := modAxis_frame ..); case i => decide)
    | split

theorem homingAxis_frame (n : Nat) (s : State) :
    Untouched [.mot, .recd] s (homingAxis n s) := by
  unfold homingAxis
  repeat' first
    | with_reducible assumption
    | with_reducible exact Untouched.refl _ _
    | lift_lets -underBinder
    | (intro x; have hx : Untouched [.mot, .recd] s x := (by
        subst x
        repeat' first
          | with_reducible exact Untouched.refl _ _
          | (with_reducible apply Untouched.step (k := modAxis_frame ..); case i => decide)); clear_value x)
    | (intro x; subst x)
    | (with_reducible apply Untouched.step (k := endHoming_frame ..); case i => decide)
    | (with_reducible apply Untouched.step (k := modAxis_frame ..); case i => decide)
    | (with_reducible apply Untouched.step (k := searchBlocked_frame ..); case i => decide)
    | split

theorem restOff_frame (n : Nat) (s : State) :
    Untouched [.mot, .recd] s (restOff n s) := by
  unfold restOff
  repeat' first
    | with_reducible assumption
    | with_reducible exact Untouched.refl _ _
    | lift_lets -underBinder
    | (intro x; have hx : Untouched [.mot, .recd] s x := (by
        subst x
        repeat' first
          | with_reducible exact Untouched.refl _ _
          | (with_reducible apply Untouched.step (k := deEnergise_frame ..); case i => decide)); clear_value x)
    | (intro x; subst x)
    | (with_reducible apply Untouched.step (k := losePos_frame ..); case i => decide)
    | split

theorem planAxis_frame (n : Nat) (s : State) :
    Untouched [.mot, .recd] s (planAxis n s) := by
  unfold planAxis
  repeat' first
    | with_reducible assumption
    | with_reducible exact Untouched.refl _ _
    | lift_lets -underBinder
    | (intro x; have hx : Untouched [.mot, .recd] s x := (by
        subst x
        repeat' first
          | with_reducible exact Untouched.refl _ _
          | (with_reducible apply Untouched.step (k := modAxis_frame ..); case i => decide)); clear_value x)
    | (intro x; subst x)
    | (with_reducible apply Untouched.step (k := homingAxis_frame ..); case i => decide)
    | (with_reducible apply Untouched.step (k := modAxis_frame ..); case i => decide)
    | (with_reducible apply Untouched.step (k := restOff_frame ..); case i => decide)
    | split

theorem placeMembers_frame (m : List Nat) (x_ : AxGroup) (s : State) :
    Untouched [.mot] s (placeMembers m x_ s) := by
  unfold placeMembers
  repeat' first
    | with_reducible assumption
    | with_reducible exact Untouched.refl _ _
    | lift_lets -underBinder
    | (with_reducible apply Untouched.step (k := modAxis_frame ..); case i => decide)
    | with_reducible refine Untouched.foldl (fun t x ht => ?_) _ _ ?_

theorem planGroup_frame (g : Nat) (m : List Nat) (s : State) :
    Untouched [.mot, .recd] s (planGroup g m s) := by
  unfold planGroup
  repeat' first
    | with_reducible assumption
    | with_reducible exact Untouched.refl _ _
    | lift_lets -underBinder
    | (intro x; have hx : Untouched [.mot, .recd] s x := (by
        subst x
        repeat' first
          | with_reducible assumption
          | with_reducible exact Untouched.refl _ _
          | lift_lets -underBinder
          | (with_reducible apply Untouched.step (k := modAxGroup_frame ..); case i => decide)
          | (with_reducible apply Untouched.step (k := modAxis_frame ..); case i => decide)
          | (with_reducible apply Untouched.step (k := placeMembers_frame ..); case i => decide)
          | with_reducible refine Untouched.forAll (fun n t ht => ?_) ?_); clear_value x)
    | (intro x; subst x)
    | (with_reducible apply Untouched.step (k := modAxGroup_frame ..); case i => decide)
    | (with_reducible apply Untouched.step (k := modAxis_frame ..); case i => decide)
    | (with_reducible apply Untouched.step (k := placeMembers_frame ..); case i => decide)
    | (with_reducible apply Untouched.step (k := restOff_frame ..); case i => decide)
    | split
    | with_reducible refine Untouched.forAll (fun n t ht => ?_) ?_

theorem releasePlan_frame (n : Nat) (before : Int) (s : State) :
    Untouched [.outbox, .ring, .mot] s (releasePlan n before s) := by
  unfold releasePlan
  repeat' first
    | with_reducible assumption
    | lift_lets -underBinder
    | (intro x; have hx : Untouched [.outbox, .ring, .mot] s x := (by
        subst x
        repeat' first
          | with_reducible exact Untouched.refl _ _
          | (with_reducible apply Untouched.step (k := modAxis_frame ..); case i => decide)); clear_value x)
    | (intro x; subst x)
    | (with_reducible apply Untouched.step (k := send_frame ..); case i => decide)
    | split

theorem releasePath_frame (g : Nat) (s : State) :
    Untouched [.mot] s (releasePath g s) := by
  unfold releasePath
  repeat' first
    | with_reducible exact Untouched.refl _ _
    | lift_lets -underBinder
    | (intro x; subst x)
    | (with_reducible apply Untouched.step (k := modAxGroup_frame ..); case i => decide)

theorem pauseAxis_frame (n : Nat) (s : State) :
    Untouched [.mot] s (pauseAxis n s) := by
  unfold pauseAxis
  repeat' first
    | with_reducible exact Untouched.refl _ _
    | (with_reducible apply Untouched.step (k := modAxis_frame ..); case i => decide)

theorem produceAxis_frame (n : Nat) (s : State) :
    Untouched [.img] s (produceAxis n s) := by
  unfold produceAxis
  repeat' first
    | with_reducible assumption
    | lift_lets -underBinder
    | (intro x; have hx : Untouched [.img] s x := (by
        subst x
        repeat' first
          | with_reducible exact Untouched.refl _ _
          | (with_reducible apply Untouched.step (k := produceAll_frame ..); case i => decide)); clear_value x)
    | (intro x; subst x)
    | (with_reducible apply Untouched.step (k := produceAll_frame ..); case i => decide)

theorem motionTickState_frame (s : State) :
    Untouched [.outbox, .img, .ring, .mot, .recd] s (motionTickState s) := by
  unfold motionTickState
  repeat' first
    | with_reducible assumption
    | with_reducible exact Untouched.refl _ _
    | lift_lets -underBinder
    | (intro x; have hx : Untouched [.outbox, .img, .ring, .mot, .recd] s x := (by
        subst x
        repeat' first
          | with_reducible assumption
          | with_reducible exact Untouched.refl _ _
          | lift_lets -underBinder
          | (with_reducible apply Untouched.step (k := planAxis_frame ..); case i => decide)
          | (with_reducible apply Untouched.step (k := planGroup_frame ..); case i => decide)
          | (with_reducible apply Untouched.step (k := produceAxis_frame ..); case i => decide)
          | (with_reducible apply Untouched.step (k := readInputs_frame ..); case i => decide)
          | (with_reducible apply Untouched.step (k := releasePath_frame ..); case i => decide)
          | split
          | with_reducible refine Untouched.foldl (fun t x ht => ?_) _ _ ?_
          | with_reducible refine Untouched.forAll (fun n t ht => ?_) ?_
          | with_reducible refine Untouched.put ?_); clear_value x)
    | (intro x; subst x)
    | (with_reducible apply Untouched.step (k := pauseAxis_frame ..); case i => decide)
    | (with_reducible apply Untouched.step (k := releasePlan_frame ..); case i => decide)
    | split
    | with_reducible refine Untouched.foldl (fun t x ht => ?_) _ _ ?_
    | with_reducible refine Untouched.forAll (fun n t ht => ?_) ?_

theorem axCommandNow_frame (n : Nat) (data : List Byte) (u2 : Nat) (s : State) :
    Untouched [.mot] s (axCommandNow n data u2 s).2 := by
  unfold axCommandNow
  repeat' first
    | with_reducible exact Untouched.refl _ _
    | lift_lets -underBinder
    | (intro x; subst x)
    | (with_reducible apply Untouched.step (k := modAxis_frame ..); case i => decide)
    | split

theorem axCommandOp_frame (n : Nat) (data : List Byte) (m : Nat) (s : State) :
    Untouched [.sess, .mot] s (axCommandOp n data m s).2 := by
  unfold axCommandOp
  repeat' first
    | with_reducible exact Untouched.refl _ _
    | (with_reducible apply Untouched.step (k := axCommandNow_frame ..); case i => decide)
    | (with_reducible apply Untouched.step (k := deferred_frame ..); case i => decide)
    | split

theorem switchStop_frame (n : Nat) (positive : Bool) (s : State) :
    Untouched [.outbox, .ring, .mot, .recd] s (switchStop n positive s) := by
  unfold switchStop
  repeat' first
    | with_reducible exact Untouched.refl _ _
    | (with_reducible apply Untouched.step (k := hardStopAll_frame ..); case i => decide)
    | (with_reducible apply Untouched.step (k := rampNow_frame ..); case i => decide)
    | split

theorem homeLatch_frame (n : Nat) (stepsSince : Int) (s : State) :
    Untouched [.mot] s (homeLatch n stepsSince s) := by
  unfold homeLatch
  repeat' first
    | with_reducible exact Untouched.refl _ _
    | lift_lets -underBinder
    | (intro x; subst x)
    | (with_reducible apply Untouched.step (k := modAxis_frame ..); case i => decide)

theorem homingInput_frame (n : Nat) (i : LimitInput) (active : Bool) (stepsSince : Int) (s : State) :
    Untouched [.outbox, .ring, .mot, .recd] s (homingInput n i active stepsSince s) := by
  unfold homingInput
  repeat' first
    | with_reducible exact Untouched.refl _ _
    | lift_lets -underBinder
    | (intro x; subst x)
    | (with_reducible apply Untouched.step (k := endHoming_frame ..); case i => decide)
    | (with_reducible apply Untouched.step (k := homeLatch_frame ..); case i => decide)
    | (with_reducible apply Untouched.step (k := modAxis_frame ..); case i => decide)
    | (with_reducible apply Untouched.step (k := switchStop_frame ..); case i => decide)
    | split

theorem cutPlan_frame (k : Nat) (n : Nat) (s : State) :
    Untouched [.mot] s (cutPlan k n s) := by
  unfold cutPlan
  repeat' first
    | with_reducible exact Untouched.refl _ _
    | (with_reducible apply Untouched.step (k := modAxis_frame ..); case i => decide)

theorem rampMember_frame (n : Nat) (st : Int) (d : Int) (path : Int) (first : Int × Int) (rest : List (Int × Int)) (s : State) :
    Untouched [.outbox, .ring, .mot] s (rampMember n st d path first rest s) := by
  unfold rampMember
  repeat' first
    | with_reducible exact Untouched.refl _ _
    | lift_lets -underBinder
    | (intro x; subst x)
    | (with_reducible apply Untouched.step (k := modAxis_frame ..); case i => decide)
    | (with_reducible apply Untouched.step (k := tellCut_frame ..); case i => decide)

theorem rampGroup_frame (g : Nat) (m : List Nat) (s : State) :
    Untouched [.outbox, .ring, .mot] s (rampGroup g m s) := by
  unfold rampGroup
  repeat' first
    | with_reducible assumption
    | with_reducible exact Untouched.refl _ _
    | lift_lets -underBinder
    | (intro x; have hx : Untouched [.outbox, .ring, .mot] s x := (by
        subst x
        repeat' first
          | with_reducible assumption
          | with_reducible exact Untouched.refl _ _
          | lift_lets -underBinder
          | (with_reducible apply Untouched.step (k := rampMember_frame ..); case i => decide)
          | split
          | with_reducible refine Untouched.foldl (fun t x ht => ?_) _ _ ?_); clear_value x)
    | (intro x; subst x)
    | (with_reducible apply Untouched.step (k := cutPlan_frame ..); case i => decide)
    | (with_reducible apply Untouched.step (k := modAxGroup_frame ..); case i => decide)
    | (with_reducible apply Untouched.step (k := modAxis_frame ..); case i => decide)
    | split
    | with_reducible refine Untouched.forAll (fun n t ht => ?_) ?_

theorem limitReached_frame (n : Nat) (up : Bool) (s : State) :
    Untouched [.outbox, .ring, .mot, .recd] s (limitReached n up s) := by
  unfold limitReached
  repeat' first
    | with_reducible assumption
    | with_reducible exact Untouched.refl _ _
    | lift_lets -underBinder
    | (intro x; have hx : Untouched [.outbox, .ring, .mot, .recd] s x := (by
        subst x
        repeat' first
          | with_reducible exact Untouched.refl _ _
          | (with_reducible apply Untouched.step (k := modAxis_frame ..); case i => decide)); clear_value x)
    | (with_reducible apply Untouched.step (k := hardStopAll_frame ..); case i => decide)
    | (with_reducible apply Untouched.step (k := rampGroup_frame ..); case i => decide)
    | (with_reducible apply Untouched.step (k := switchStop_frame ..); case i => decide)
    | split

theorem limitInputState_frame (k : Nat) (i : LimitInput) (high : Bool) (stepsSince : Int) (s : State) :
    Untouched [.outbox, .ring, .mot, .recd] s (limitInputState k i high stepsSince s) := by
  unfold limitInputState
  repeat' first
    | with_reducible assumption
    | with_reducible exact Untouched.refl _ _
    | lift_lets -underBinder
    | (intro x; have hx : Untouched [.outbox, .ring, .mot, .recd] s x := (by
        subst x
        repeat' first | with_reducible exact Untouched.refl _ _ | with_reducible refine Untouched.put ?_); clear_value x)
    | (intro x; subst x)
    | (with_reducible apply Untouched.step (k := homingInput_frame ..); case i => decide)
    | (with_reducible apply Untouched.step (k := limitReached_frame ..); case i => decide)
    | split
    | with_reducible refine Untouched.foldl (fun t x ht => ?_) _ _ ?_

theorem retireAxis_frame (n : Nat) (s : State) :
    Untouched [.img, .mot, .recd, .retired] s (retireAxis n s) := by
  unfold retireAxis
  repeat' first
    | with_reducible exact Untouched.refl _ _
    | lift_lets -underBinder
    | (with_reducible apply Untouched.step (k := deEnergise_frame ..); case i => decide)
    | (with_reducible apply Untouched.step (k := listRetired_frame ..); case i => decide)
    | (with_reducible apply Untouched.step (k := losePos_frame ..); case i => decide)
    | (with_reducible apply Untouched.step (k := produceAxis_frame ..); case i => decide)

theorem driveFaultState_frame (n : Nat) (k : DriveFaultKind) (s : State) :
    Untouched [.outbox, .img, .ring, .mot, .recd, .retired] s (driveFaultState n k s) := by
  unfold driveFaultState
  repeat' first
    | with_reducible assumption
    | with_reducible exact Untouched.refl _ _
    | lift_lets -underBinder
    | (intro x; have hx : Untouched [.outbox, .img, .ring, .mot, .recd, .retired] s x := (by
        subst x
        repeat' first
          | with_reducible assumption
          | with_reducible exact Untouched.refl _ _
          | lift_lets -underBinder
          | (with_reducible apply Untouched.step (k := emit_frame ..); case i => decide)
          | (with_reducible apply Untouched.step (k := endHoming_frame ..); case i => decide)
          | (with_reducible apply Untouched.step (k := hardStopAll_frame ..); case i => decide)
          | (with_reducible apply Untouched.step (k := losePos_frame ..); case i => decide)
          | (with_reducible apply Untouched.step (k := modAxis_frame ..); case i => decide)); clear_value x)
    | (intro x; subst x)
    | (with_reducible apply Untouched.step (k := retireAxis_frame ..); case i => decide)
    | split

theorem driveSupplyLost_frame (s : State) :
    Untouched [.outbox, .ring, .mot, .recd] s (driveSupplyLost s) := by
  unfold driveSupplyLost
  repeat' first
    | with_reducible assumption
    | with_reducible exact Untouched.refl _ _
    | lift_lets -underBinder
    | (intro x; have hx : Untouched [.outbox, .ring, .mot, .recd] s x := (by
        subst x
        repeat' first
          | with_reducible assumption
          | lift_lets -underBinder
          | (with_reducible apply Untouched.step (k := endHoming_frame ..); case i => decide)
          | (with_reducible apply Untouched.step (k := hardStopAll_frame ..); case i => decide)); clear_value x)
    | (with_reducible apply Untouched.step (k := losePos_frame ..); case i => decide)
    | (with_reducible apply Untouched.step (k := modAxis_frame ..); case i => decide)
    | with_reducible refine Untouched.forAll (fun n t ht => ?_) ?_

theorem driveSupplyBack_frame (s : State) :
    Untouched [.mot] s (driveSupplyBack s) := by
  unfold driveSupplyBack
  repeat' first
    | with_reducible assumption
    | with_reducible exact Untouched.refl _ _
    | lift_lets -underBinder
    | (with_reducible apply Untouched.step (k := modAxis_frame ..); case i => decide)
    | with_reducible refine Untouched.forAll (fun n t ht => ?_) ?_

theorem limitSupplyLost_frame (s : State) :
    Untouched [.mot] s (limitSupplyLost s) := by
  unfold limitSupplyLost
  repeat' first
    | with_reducible exact Untouched.refl _ _
    | lift_lets -underBinder
    | (intro x; subst x)
    | with_reducible refine Untouched.put ?_

theorem motionReset_frame (s : State) :
    Untouched [.outbox, .ring, .mot, .recd] s (motionReset s) := by
  unfold motionReset
  repeat' first
    | with_reducible assumption
    | lift_lets -underBinder
    | (intro x; have hx : Untouched [.outbox, .ring, .mot, .recd] s x := (by
        subst x
        repeat' first
          | with_reducible assumption
          | with_reducible exact Untouched.refl _ _
          | lift_lets -underBinder
          | (intro x; subst x)
          | (with_reducible apply Untouched.step (k := deEnergise_frame ..); case i => decide)
          | (with_reducible apply Untouched.step (k := endHoming_frame ..); case i => decide)
          | (with_reducible apply Untouched.step (k := hardStop_frame ..); case i => decide)
          | (with_reducible apply Untouched.step (k := losePos_frame ..); case i => decide)
          | with_reducible refine Untouched.forAll (fun n t ht => ?_) ?_); clear_value x)
    | (intro x; subst x)
    | with_reducible refine Untouched.put ?_

theorem motionTakeover_frame (s : State) :
    Untouched [.mot, .recd] s (motionTakeover s) := by
  unfold motionTakeover
  repeat' first
    | with_reducible assumption
    | with_reducible exact Untouched.refl _ _
    | lift_lets -underBinder
    | (with_reducible apply Untouched.step (k := losePos_frame ..); case i => decide)
    | split
    | with_reducible refine Untouched.forAll (fun n t ht => ?_) ?_

theorem applyAxes_frame (old : Tbl (List Byte)) (s : State) :
    Untouched [.img, .mot, .recd] s (applyAxes old s) := by
  unfold applyAxes
  repeat' first
    | with_reducible assumption
    | lift_lets -underBinder
    | (intro x; have hx : Untouched [.img, .mot, .recd] s x := (by
        subst x
        repeat' first
          | with_reducible assumption
          | with_reducible exact Untouched.refl _ _
          | lift_lets -underBinder
          | (intro x; subst x)
          | (with_reducible apply Untouched.step (k := decideQual_frame ..); case i => decide)
          | (with_reducible apply Untouched.step (k := losePos_frame ..); case i => decide)
          | split
          | with_reducible refine Untouched.forAll (fun n t ht => ?_) ?_
          | with_reducible refine Untouched.put ?_); clear_value x)
    | (intro x; subst x)
    | with_reducible refine Untouched.put ?_

theorem sealAxes_frame (s : State) :
    Untouched [.mot] s (sealAxes s) := by
  unfold sealAxes
  repeat' first
    | with_reducible exact Untouched.refl _ _
    | lift_lets -underBinder
    | (intro x; subst x)
    | with_reducible refine Untouched.put ?_

theorem startAxes_frame (warm : Bool) (s : State) :
    Untouched [.mot, .recd] s (startAxes warm s) := by
  unfold startAxes
  repeat' first
    | with_reducible assumption
    | lift_lets -underBinder
    | (intro x; have hx : Untouched [.mot, .recd] s x := (by
        subst x
        repeat' first
          | with_reducible assumption
          | with_reducible exact Untouched.refl _ _
          | (with_reducible apply Untouched.step (k := modAxis_frame ..); case i => decide)
          | with_reducible refine Untouched.put ?_); clear_value x)
    | (intro x; subst x)
    | (with_reducible apply Untouched.step (k := losePos_frame ..); case i => decide)
    | (with_reducible apply Untouched.step (k := modAxis_frame ..); case i => decide)
    | split
    | with_reducible refine Untouched.forAll (fun n t ht => ?_) ?_

end Sys2Proof.Machine
end

