-- ==== Sys2Proof/Laws/FrameSafetyComplex.lean ====
section
/-! SUPPORT. The frame of every operation of Machine/SafetyComplex.lean: the parts of the state it may touch. -/

set_option Elab.async false

namespace Sys2Proof.Machine

theorem soFaultEnds_frame (k : Nat) (x_ : SoStage) (s : State) :
    Untouched [.recd] s (soFaultEnds k x_ s) := by
  unfold soFaultEnds
  repeat' first
    | with_reducible assumption
    | with_reducible exact Untouched.refl _ _
    | lift_lets -underBinder
    | (with_reducible apply Untouched.step (k := emit_frame ..); case i => decide)
    | split
    | with_reducible refine Untouched.foldl (fun t x ht => ?_) _ _ ?_

theorem soCommit_frame (k : Nat) (on : Bool) (s : State) :
    Untouched [.sio, .recd] s (soCommit k on s) := by
  unfold soCommit
  repeat' first
    | with_reducible exact Untouched.refl _ _
    | lift_lets -underBinder
    | (intro x; subst x)
    | (with_reducible apply Untouched.step (k := modStage_frame ..); case i => decide)
    | (with_reducible apply Untouched.step (k := soFaultEnds_frame ..); case i => decide)
    | split

theorem soApply_frame (k : Nat) (s : State) :
    Untouched [.sio] s (soApply k s) := by
  unfold soApply
  repeat' first
    | with_reducible exact Untouched.refl _ _
    | lift_lets -underBinder
    | (intro x; subst x)
    | (with_reducible apply Untouched.step (k := modStage_frame ..); case i => decide)

theorem applyVector_frame (s : State) :
    Untouched [.sio] s (applyVector s) := by
  unfold applyVector
  repeat' first
    | with_reducible assumption
    | with_reducible exact Untouched.refl _ _
    | lift_lets -underBinder
    | (with_reducible apply Untouched.step (k := soApply_frame ..); case i => decide)
    | with_reducible refine Untouched.forAll (fun n t ht => ?_) ?_

theorem tokenFault_frame (s : State) :
    Untouched [.freeN, .img, .safe, .sio, .recd] s (tokenFault s) := by
  unfold tokenFault
  repeat' first
    | with_reducible assumption
    | lift_lets -underBinder
    | (intro x; have hx : Untouched [.freeN, .img, .safe, .sio, .recd] s x := (by
        subst x
        repeat' first
          | with_reducible exact Untouched.refl _ _
          | lift_lets -underBinder
          | (with_reducible apply Untouched.step (k := draw_frame ..); case i => decide)
          | (with_reducible apply Untouched.step (k := safetyFault_frame ..); case i => decide)
          | (with_reducible apply Untouched.step (k := stagesOff_frame ..); case i => decide)
          | with_reducible refine Untouched.of_snd ?_ (by assumption)); clear_value x)
    | (intro x; subst x)
    | split
    | with_reducible refine Untouched.put ?_

theorem goodToken_frame (tok : Nat) (s : State) :
    Untouched [.safe, .sio] s (goodToken tok s) := by
  unfold goodToken
  repeat' first
    | with_reducible assumption
    | lift_lets -underBinder
    | (intro x; have hx : Untouched [.safe, .sio] s x := (by
        subst x
        repeat' first | with_reducible exact Untouched.refl _ _ | with_reducible refine Untouched.put ?_); clear_value x)
    | (intro x; subst x)
    | (with_reducible apply Untouched.step (k := applyVector_frame ..); case i => decide)
    | split
    | with_reducible refine Untouched.put ?_

theorem tokenState_frame (tok : Nat) (s : State) :
    Untouched [.freeN, .img, .safe, .sio, .recd] s (tokenState tok s) := by
  unfold tokenState
  repeat' first
    | with_reducible exact Untouched.refl _ _
    | (with_reducible apply Untouched.step (k := goodToken_frame ..); case i => decide)
    | (with_reducible apply Untouched.step (k := tokenFault_frame ..); case i => decide)
    | split

theorem tokenMissingState_frame (s : State) :
    Untouched [.freeN, .img, .safe, .sio, .recd] s (tokenMissingState s) := by
  unfold tokenMissingState
  repeat' first
    | with_reducible assumption
    | with_reducible exact Untouched.refl _ _
    | lift_lets -underBinder
    | (intro x; have hx : Untouched [.freeN, .img, .safe, .sio, .recd] s x := (by
        subst x
        repeat' first
          | with_reducible exact Untouched.refl _ _
          | lift_lets -underBinder
          | (with_reducible apply Untouched.step (k := emit_frame ..); case i => decide)
          | with_reducible refine Untouched.put ?_); clear_value x)
    | (intro x; subst x)
    | (with_reducible apply Untouched.step (k := tokenFault_frame ..); case i => decide)
    | split

theorem latchInputs_frame (s : State) :
    Untouched [.sio] s (latchInputs s) := by
  unfold latchInputs
  repeat' first
    | with_reducible exact Untouched.refl _ _
    | lift_lets -underBinder
    | (intro x; subst x)
    | with_reducible refine Untouched.put ?_

theorem startPassA_frame (s : State) :
    Untouched [.safe] s (startPassA s) := by
  unfold startPassA
  repeat' first
    | with_reducible exact Untouched.refl _ _
    | lift_lets -underBinder
    | (intro x; subst x)
    | (with_reducible apply Untouched.step (k := dropPasses_frame ..); case i => decide)
    | split
    | with_reducible refine Untouched.put ?_

theorem windowStart_frame (s : State) :
    Untouched [.freeN, .safe] s (windowStart s) := by
  unfold windowStart
  repeat' first
    | with_reducible exact Untouched.refl _ _
    | lift_lets -underBinder
    | (intro x; subst x)
    | (with_reducible apply Untouched.step (k := draw_frame ..); case i => decide)
    | split
    | with_reducible refine Untouched.of_snd ?_ (by assumption)
    | with_reducible refine Untouched.put ?_

theorem postMailbox_frame (s : State) :
    Untouched [.safe] s (postMailbox s) := by
  unfold postMailbox
  repeat' first
    | with_reducible exact Untouched.refl _ _
    | lift_lets -underBinder
    | (intro x; subst x)
    | with_reducible refine Untouched.put ?_

theorem cycleStart_frame (mailboxLate : Bool) (s : State) :
    Untouched [.freeN, .img, .safe, .sio, .recd] s (cycleStart mailboxLate s) := by
  unfold cycleStart
  repeat' first
    | with_reducible assumption
    | lift_lets -underBinder
    | (intro x; have hx : Untouched [.freeN, .img, .safe, .sio, .recd] s x := (by
        subst x
        repeat' first
          | with_reducible assumption
          | with_reducible exact Untouched.refl _ _
          | lift_lets -underBinder
          | (with_reducible apply Untouched.step (k := evaluation_frame ..); case i => decide)
          | (with_reducible apply Untouched.step (k := latchInputs_frame ..); case i => decide)
          | (with_reducible apply Untouched.step (k := postMailbox_frame ..); case i => decide)
          | (with_reducible apply Untouched.step (k := startPassA_frame ..); case i => decide)
          | (with_reducible apply Untouched.step (k := windowStart_frame ..); case i => decide)
          | with_reducible refine Untouched.put ?_); clear_value x)
    | (intro x; subst x)
    | (with_reducible apply Untouched.step (k := draw_frame ..); case i => decide)
    | (with_reducible apply Untouched.step (k := safetyFault_frame ..); case i => decide)
    | split

theorem stateAtCommit_frame (s : State) :
    Untouched [.safe, .recd] s (stateAtCommit s) := by
  unfold stateAtCommit
  repeat' first
    | with_reducible exact Untouched.refl _ _
    | (with_reducible apply Untouched.step (k := enterSafety_frame ..); case i => decide)
    | split

theorem stagesCommit_frame (v : Nat) (s : State) :
    Untouched [.sio, .recd] s (stagesCommit v s) := by
  unfold stagesCommit
  repeat' first
    | with_reducible assumption
    | with_reducible exact Untouched.refl _ _
    | lift_lets -underBinder
    | (with_reducible apply Untouched.step (k := soCommit_frame ..); case i => decide)
    | with_reducible refine Untouched.forAll (fun n t ht => ?_) ?_

theorem noteCommit_frame (v : Nat) (s : State) :
    Untouched [.safe] s (noteCommit v s) := by
  unfold noteCommit
  repeat' first
    | with_reducible exact Untouched.refl _ _
    | lift_lets -underBinder
    | (intro x; subst x)
    | split
    | with_reducible refine Untouched.put ?_

theorem commitVector_frame (s : State) :
    Untouched [.outbox, .img, .ring, .safe, .sio, .recd] s (commitVector s) := by
  unfold commitVector
  repeat' first
    | with_reducible exact Untouched.refl _ _
    | lift_lets -underBinder
    | (intro x; subst x)
    | (with_reducible apply Untouched.step (k := noteCommit_frame ..); case i => decide)
    | (with_reducible apply Untouched.step (k := publishStatus_frame ..); case i => decide)
    | (with_reducible apply Untouched.step (k := send_frame ..); case i => decide)
    | (with_reducible apply Untouched.step (k := stagesCommit_frame ..); case i => decide)
    | (with_reducible apply Untouched.step (k := stateAtCommit_frame ..); case i => decide)

theorem registerFault_frame (s : State) :
    Untouched [.freeN, .img, .safe, .sio, .recd] s (registerFault s) := by
  unfold registerFault
  repeat' first
    | with_reducible exact Untouched.refl _ _
    | lift_lets -underBinder
    | (with_reducible apply Untouched.step (k := draw_frame ..); case i => decide)
    | (with_reducible apply Untouched.step (k := safetyFault_frame ..); case i => decide)

theorem safetyCommitState_frame (mailboxLate : Bool) (s : State) :
    Untouched [.freeN, .outbox, .img, .ring, .safe, .sio, .recd] s (safetyCommitState mailboxLate s) := by
  unfold safetyCommitState
  repeat' first
    | with_reducible assumption
    | with_reducible exact Untouched.refl _ _
    | lift_lets -underBinder
    | (intro x; have hx : Untouched [.freeN, .outbox, .img, .ring, .safe, .sio, .recd] s x := (by
        subst x
        repeat' first
          | with_reducible assumption
          | with_reducible exact Untouched.refl _ _
          | lift_lets -underBinder
          | (with_reducible apply Untouched.step (k := commitVector_frame ..); case i => decide)
          | (with_reducible apply Untouched.step (k := showSafety_frame ..); case i => decide)
          | with_reducible refine Untouched.put ?_); clear_value x)
    | (intro x; subst x)
    | (with_reducible apply Untouched.step (k := cycleStart_frame ..); case i => decide)
    | (with_reducible apply Untouched.step (k := registerFault_frame ..); case i => decide)
    | split

theorem startPassB_frame (f : Forme) (s : State) : Untouched [.img, .safe, .sio, .recd] s (startPassB f s) := by
  unfold startPassB evaluateCoded
  split
  · exact (safetyFault_frame _ _ s).mono (by decide)
  · cases codedView s with
    | none => exact (safetyFault_frame _ _ s).mono (by decide)
    | some v =>
      dsimp only [Option.map]
      with_reducible refine Untouched.put ?_
      refine Untouched.step ?_ (codeFunctions_frame _ _ _) (by decide)
      exact Untouched.put (Untouched.refl _ s)

theorem passBStartState_frame (s : State) :
    Untouched [.img, .safe, .sio, .recd] s (passBStartState s) := by
  unfold passBStartState
  repeat' first
    | with_reducible exact Untouched.refl _ _
    | lift_lets -underBinder
    | (intro x; subst x)
    | (with_reducible apply Untouched.step (k := safetyFault_frame ..); case i => decide)
    | (with_reducible apply Untouched.step (k := startPassB_frame ..); case i => decide)
    | split
    | with_reducible refine Untouched.put ?_

theorem passOverrunState_frame (s : State) :
    Untouched [.img, .safe, .sio, .recd] s (passOverrunState s) := by
  unfold passOverrunState
  repeat' first
    | with_reducible exact Untouched.refl _ _
    | (with_reducible apply Untouched.step (k := safetyFault_frame ..); case i => decide)
    | split

theorem selfTest_frame (detected : Bool) (s : State) :
    Untouched [.freeN, .img, .safe, .sio, .recd] s (selfTest detected s) := by
  unfold selfTest
  repeat' first
    | with_reducible exact Untouched.refl _ _
    | lift_lets -underBinder
    | (intro x; subst x)
    | (with_reducible apply Untouched.step (k := draw_frame ..); case i => decide)
    | (with_reducible apply Untouched.step (k := safetyFault_frame ..); case i => decide)
    | split
    | with_reducible refine Untouched.put ?_

theorem judge_frame (s : State) :
    Untouched [.freeN, .img, .safe, .sio, .recd] s (judge s) := by
  unfold judge
  repeat' first
    | with_reducible assumption
    | lift_lets -underBinder
    | (intro x; have hx : Untouched [.freeN, .img, .safe, .sio, .recd] s x := (by
        subst x
        repeat' first | with_reducible exact Untouched.refl _ _ | with_reducible refine Untouched.put ?_); clear_value x)
    | (intro x; subst x)
    | (with_reducible apply Untouched.step (k := draw_frame ..); case i => decide)
    | (with_reducible apply Untouched.step (k := safetyFault_frame ..); case i => decide)
    | split

theorem scuCompareState_frame (upset : Bool) (selfTestDetected : Bool) (s : State) :
    Untouched [.freeN, .img, .safe, .sio, .recd] s (scuCompareState upset selfTestDetected s) := by
  unfold scuCompareState
  repeat' first
    | with_reducible exact Untouched.refl _ _
    | lift_lets -underBinder
    | (intro x; subst x)
    | (with_reducible apply Untouched.step (k := judge_frame ..); case i => decide)
    | (with_reducible apply Untouched.step (k := registerFault_frame ..); case i => decide)
    | (with_reducible apply Untouched.step (k := safetyFault_frame ..); case i => decide)
    | (with_reducible apply Untouched.step (k := selfTest_frame ..); case i => decide)
    | split

theorem startSafety_frame (s : State) :
    Untouched [.freeN, .img, .safe, .sio, .recd] s (startSafety s) := by
  unfold startSafety
  repeat' first
    | with_reducible assumption
    | lift_lets -underBinder
    | (intro x; have hx : Untouched [.freeN, .img, .safe, .sio, .recd] s x := (by
        subst x
        repeat' first
          | with_reducible assumption
          | with_reducible exact Untouched.refl _ _
          | lift_lets -underBinder
          | (with_reducible apply Untouched.step (k := dropPasses_frame ..); case i => decide)
          | (with_reducible apply Untouched.step (k := enterSafety_frame ..); case i => decide)
          | with_reducible refine Untouched.put ?_); clear_value x)
    | (intro x; subst x)
    | (with_reducible apply Untouched.step (k := cycleStart_frame ..); case i => decide)
    | (with_reducible apply Untouched.step (k := publishStatus_frame ..); case i => decide)
    | (with_reducible apply Untouched.step (k := reinitSafety_frame ..); case i => decide)
    | (with_reducible apply Untouched.step (k := startFunctions_frame ..); case i => decide)

theorem safetyConfigStartState_frame (s : State) :
    Untouched [.freeN, .img, .safe, .sio, .recd] s (safetyConfigStartState s) := by
  unfold safetyConfigStartState
  repeat' first
    | with_reducible assumption
    | with_reducible exact Untouched.refl _ _
    | lift_lets -underBinder
    | (intro x; have hx : Untouched [.freeN, .img, .safe, .sio, .recd] s x := (by
        subst x
        repeat' first
          | with_reducible exact Untouched.refl _ _
          | (with_reducible apply Untouched.step (k := startSafety_frame ..); case i => decide)); clear_value x)
    | (with_reducible apply Untouched.step (k := emit_frame ..); case i => decide)
    | split

end Sys2Proof.Machine
end

