-- ==== Sys2Proof/Laws/FrameSafetyIo.lean ====
section
/-! SUPPORT. The frame of every operation of Machine/SafetyIo.lean: the parts of the state it may touch. -/

set_option Elab.async false

namespace Sys2Proof.Machine

theorem siAcceptedState_frame (j : Nat) (second : Bool) (high : Bool) (s : State) :
    Untouched [.img, .safe, .sio, .recd] s (siAcceptedState j second high s) := by
  unfold siAcceptedState
  repeat' first
    | with_reducible exact Untouched.refl _ _
    | (with_reducible apply Untouched.step (k := modTerm_frame ..); case i => decide)
    | split

theorem blankAll_frame (js : List Nat) (s : State) :
    Untouched [.sio] s (blankAll js s) := by
  unfold blankAll
  repeat' first
    | with_reducible assumption
    | with_reducible exact Untouched.refl _ _
    | lift_lets -underBinder
    | (with_reducible apply Untouched.step (k := modTerm_frame ..); case i => decide)
    | with_reducible refine Untouched.forAll (fun n t ht => ?_) ?_

theorem testPulseDarkState_frame (src : Nat) (s : State) :
    Untouched [.sio] s (testPulseDarkState src s) := by
  unfold testPulseDarkState
  repeat' first
    | with_reducible exact Untouched.refl _ _
    | lift_lets -underBinder
    | (with_reducible apply Untouched.step (k := blankAll_frame ..); case i => decide)
    | (with_reducible apply Untouched.step (k := modTp_frame ..); case i => decide)
    | split

theorem testTerminal_frame (j : Nat) (readsOn : Bool) (s : State) :
    Untouched [.sio, .recd] s (testTerminal j readsOn s) := by
  unfold testTerminal
  repeat' first
    | with_reducible assumption
    | lift_lets -underBinder
    | (intro x; have hx : Untouched [.sio, .recd] s x := (by
        subst x
        repeat' first
          | with_reducible assumption
          | with_reducible exact Untouched.refl _ _
          | (with_reducible apply Untouched.step (k := emit_frame ..); case i => decide)
          | (with_reducible apply Untouched.step (k := modTerm_frame ..); case i => decide)
          | split); clear_value x)
    | (intro x; subst x)
    | (with_reducible apply Untouched.step (k := emit_frame ..); case i => decide)
    | split

theorem testPulseCheckState_frame (src : Nat) (onMask : Nat) (s : State) :
    Untouched [.sio, .recd] s (testPulseCheckState src onMask s) := by
  unfold testPulseCheckState
  repeat' first
    | with_reducible assumption
    | with_reducible exact Untouched.refl _ _
    | lift_lets -underBinder
    | (intro x; subst x)
    | (with_reducible apply Untouched.step (k := testTerminal_frame ..); case i => decide)
    | split
    | with_reducible refine Untouched.forAll (fun n t ht => ?_) ?_

theorem blankEndState_frame (src : Nat) (s : State) :
    Untouched [.sio] s (blankEndState src s) := by
  unfold blankEndState
  repeat' first
    | with_reducible assumption
    | with_reducible exact Untouched.refl _ _
    | lift_lets -underBinder
    | (intro x; subst x)
    | (with_reducible apply Untouched.step (k := modTerm_frame ..); case i => decide)
    | (with_reducible apply Untouched.step (k := modTp_frame ..); case i => decide)
    | split
    | with_reducible refine Untouched.forAll (fun n t ht => ?_) ?_

theorem overloadRecord_frame (src : Nat) (s : State) :
    Untouched [.sio, .recd] s (overloadRecord src s) := by
  unfold overloadRecord
  repeat' first
    | with_reducible exact Untouched.refl _ _
    | lift_lets -underBinder
    | (intro x; subst x)
    | (with_reducible apply Untouched.step (k := emit_frame ..); case i => decide)
    | (with_reducible apply Untouched.step (k := modTp_frame ..); case i => decide)
    | split

theorem tpOverloadState_frame (src : Nat) (s : State) :
    Untouched [.sio, .recd] s (tpOverloadState src s) := by
  unfold tpOverloadState
  repeat' first
    | with_reducible exact Untouched.refl _ _
    | lift_lets -underBinder
    | (with_reducible apply Untouched.step (k := modTp_frame ..); case i => decide)
    | (with_reducible apply Untouched.step (k := overloadRecord_frame ..); case i => decide)
    | split

theorem tpRetryState_frame (src : Nat) (overloaded : Bool) (s : State) :
    Untouched [.sio, .recd] s (tpRetryState src overloaded s) := by
  unfold tpRetryState
  repeat' first
    | with_reducible exact Untouched.refl _ _
    | lift_lets -underBinder
    | (intro x; subst x)
    | (with_reducible apply Untouched.step (k := emit_frame ..); case i => decide)
    | (with_reducible apply Untouched.step (k := modTp_frame ..); case i => decide)
    | (with_reducible apply Untouched.step (k := overloadRecord_frame ..); case i => decide)
    | split

theorem darkDemand_frame (j : Nat) (s : State) :
    Untouched [.sio] s (darkDemand j s) := by
  unfold darkDemand
  repeat' first
    | with_reducible exact Untouched.refl _ _
    | (with_reducible apply Untouched.step (k := modTerm_frame ..); case i => decide)

theorem tpTakeoverState_frame (src : Nat) (s : State) :
    Untouched [.sio] s (tpTakeoverState src s) := by
  unfold tpTakeoverState
  repeat' first
    | with_reducible assumption
    | with_reducible exact Untouched.refl _ _
    | lift_lets -underBinder
    | (with_reducible apply Untouched.step (k := darkDemand_frame ..); case i => decide)
    | (with_reducible apply Untouched.step (k := modTp_frame ..); case i => decide)
    | split
    | with_reducible refine Untouched.forAll (fun n t ht => ?_) ?_

theorem latchOutput_frame (k : Nat) (variant : Nat) (f : SoStage → SoStage) (s : State) :
    Untouched [.sio, .recd] s (latchOutput k variant f s) := by
  unfold latchOutput
  repeat' first
    | with_reducible assumption
    | lift_lets -underBinder
    | (intro x; have hx : Untouched [.sio, .recd] s x := (by
        subst x
        repeat' first
          | with_reducible exact Untouched.refl _ _
          | (with_reducible apply Untouched.step (k := modStage_frame ..); case i => decide)); clear_value x)
    | (with_reducible apply Untouched.step (k := emit_frame ..); case i => decide)

theorem offTestState_frame (k : Nat) (high : Bool) (s : State) :
    Untouched [.sio] s (offTestState k high s) := by
  unfold offTestState
  repeat' first
    | with_reducible exact Untouched.refl _ _
    | lift_lets -underBinder
    | (intro x; subst x)
    | (with_reducible apply Untouched.step (k := modStage_frame ..); case i => decide)
    | split

theorem offTestEndState_frame (k : Nat) (reached : Bool) (chainClosed : Bool) (s : State) :
    Untouched [.sio, .recd] s (offTestEndState k reached chainClosed s) := by
  unfold offTestEndState
  repeat' first
    | with_reducible exact Untouched.refl _ _
    | lift_lets -underBinder
    | (intro x; subst x)
    | (with_reducible apply Untouched.step (k := latchOutput_frame ..); case i => decide)
    | (with_reducible apply Untouched.step (k := modStage_frame ..); case i => decide)
    | split

theorem soExternalDriveState_frame (k : Nat) (present : Bool) (s : State) :
    Untouched [.sio, .recd] s (soExternalDriveState k present s) := by
  unfold soExternalDriveState
  repeat' first
    | with_reducible exact Untouched.refl _ _
    | lift_lets -underBinder
    | (intro x; subst x)
    | (with_reducible apply Untouched.step (k := latchOutput_frame ..); case i => decide)
    | (with_reducible apply Untouched.step (k := modStage_frame ..); case i => decide)
    | split

end Sys2Proof.Machine
end

