-- ==== Sys2Proof/Laws/FrameSlots.lean ====
section
/-! SUPPORT. The frame of every operation of Machine/Slots.lean: the parts of the state it may touch. -/

set_option Elab.async false

namespace Sys2Proof.Machine

theorem slotAct_frame (r : SlotRec) (fireAt : Int) (s : State) :
    Untouched [.freeN, .outbox, .sess, .img, .prog, .eng, .cad, .ring, .dio, .aio, .can, .recd] s (slotAct r fireAt s) := by
  unfold slotAct
  repeat' first
    | with_reducible exact Untouched.refl _ _
    | (with_reducible apply Untouched.step (k := cadenceSample_frame ..); case i => decide)
    | (with_reducible apply Untouched.step (k := modDio_frame ..); case i => decide)
    | (with_reducible apply Untouched.step (k := triggerTask_frame ..); case i => decide)
    | split

theorem slotFireState_frame (n : Nat) (s : State) :
    Untouched [.freeN, .outbox, .sess, .img, .prog, .eng, .cad, .ring, .dio, .aio, .can, .recd] s (slotFireState n s) := by
  unfold slotFireState
  repeat' first
    | with_reducible assumption
    | lift_lets -underBinder
    | (intro x; have hx : Untouched [.freeN, .outbox, .sess, .img, .prog, .eng, .cad, .ring, .dio, .aio, .can, .recd] s x := (by
        subst x
        repeat' first
          | with_reducible assumption
          | with_reducible exact Untouched.refl _ _
          | (with_reducible apply Untouched.step (k := modSched_frame ..); case i => decide)
          | (with_reducible apply Untouched.step (k := scanSlot_frame ..); case i => decide)
          | split); clear_value x)
    | (intro x; subst x)
    | (with_reducible apply Untouched.step (k := modSched_frame ..); case i => decide)
    | (with_reducible apply Untouched.step (k := slotAct_frame ..); case i => decide)
    | split

end Sys2Proof.Machine
end

