-- ==== Sys2Proof/Laws/FrameApply.lean ====
section
/-! SUPPORT. The frame of every operation of Machine/Apply.lean: the parts of the state it may touch. -/

set_option Elab.async false

namespace Sys2Proof.Machine

theorem applyTrackers_frame (old : Tbl (List Byte)) (s : State) :
    Untouched [.img, .cad, .recd] s (applyTrackers old s) := by
  unfold applyTrackers
  repeat' first
    | with_reducible assumption
    | with_reducible exact Untouched.refl _ _
    | lift_lets -underBinder
    | (with_reducible apply Untouched.step (k := modTracker_frame ..); case i => decide)
    | (with_reducible apply Untouched.step (k := startTracker_frame ..); case i => decide)
    | split
    | with_reducible refine Untouched.forAll (fun n t ht => ?_) ?_

theorem armStaged_frame (objs : Tbl (List Byte)) (s : State) :
    Untouched [.cad] s (armStaged objs s) := by
  unfold armStaged
  repeat' first
    | with_reducible assumption
    | with_reducible exact Untouched.refl _ _
    | lift_lets -underBinder
    | (with_reducible apply Untouched.step (k := armSlot_frame ..); case i => decide)
    | split
    | with_reducible refine Untouched.forAll (fun n t ht => ?_) ?_

theorem applySlots_frame (old : Tbl (List Byte)) (s : State) :
    Untouched [.cad] s (applySlots old s) := by
  unfold applySlots
  repeat' first
    | with_reducible assumption
    | with_reducible exact Untouched.refl _ _
    | lift_lets -underBinder
    | (intro x; subst x)
    | (with_reducible apply Untouched.step (k := armSlot_frame ..); case i => decide)
    | split
    | with_reducible refine Untouched.forAll (fun n t ht => ?_) ?_

theorem applyBanks_frame (s : State) :
    Untouched [.dio] s (applyBanks s) := by
  unfold applyBanks
  repeat' first
    | with_reducible assumption
    | with_reducible exact Untouched.refl _ _
    | lift_lets -underBinder
    | (intro x; subst x)
    | (with_reducible apply Untouched.step (k := modBank_frame ..); case i => decide)
    | with_reducible refine Untouched.forAll (fun n t ht => ?_) ?_

theorem announceBanks_frame (c : Tbl (List Byte)) (s : State) :
    Untouched [.config, .dio] s (announceBanks c s) := by
  unfold announceBanks
  repeat' first
    | with_reducible assumption
    | with_reducible exact Untouched.refl _ _
    | lift_lets -underBinder
    | (intro x; subst x)
    | (with_reducible apply Untouched.step (k := modBank_frame ..); case i => decide)
    | with_reducible refine Untouched.forAll (fun n t ht => ?_) ?_

theorem applyUnowned_frame (s : State) :
    Untouched [.img] s (applyUnowned s) := by
  unfold applyUnowned
  repeat' first
    | with_reducible assumption
    | with_reducible exact Untouched.refl _ _
    | lift_lets -underBinder
    | (intro x; subst x)
    | (with_reducible apply Untouched.step (k := produce_frame ..); case i => decide)
    | with_reducible refine Untouched.foldl (fun t x ht => ?_) _ _ ?_

theorem applyStatus_frame (s : State) :
    Untouched [.img, .safe, .sio, .recd] s (applyStatus s) := by
  unfold applyStatus
  repeat' first
    | with_reducible exact Untouched.refl _ _
    | (with_reducible apply Untouched.step (k := publishStatus_frame ..); case i => decide)
    | split

theorem adoptConfig_frame (c : Tbl (List Byte)) (s : State) :
    Untouched [.config, .clk, .sess, .img, .prog, .eng, .cad, .ring, .dio, .aio, .mot, .can, .safe, .sio, .recd] s (adoptConfig c s) := by
  unfold adoptConfig
  repeat' first
    | with_reducible assumption
    | lift_lets -underBinder
    | (intro x; have hx : Untouched [.config, .clk, .sess, .img, .prog, .eng, .cad, .ring, .dio, .aio, .mot, .can, .safe, .sio, .recd] s x := (by
        subst x
        repeat' first
          | with_reducible assumption
          | with_reducible exact Untouched.refl _ _
          | lift_lets -underBinder
          | (with_reducible apply Untouched.step (k := applyCan_frame ..); case i => decide)
          | (with_reducible apply Untouched.step (k := applyMapping_frame ..); case i => decide)
          | (with_reducible apply Untouched.step (k := applyNodeTable_frame ..); case i => decide)
          | (with_reducible apply Untouched.step (k := applySlots_frame ..); case i => decide)
          | (with_reducible apply Untouched.step (k := applyTimeRank_frame ..); case i => decide)
          | (with_reducible apply Untouched.step (k := applyTrackers_frame ..); case i => decide)
          | with_reducible refine Untouched.forAll (fun n t ht => ?_) ?_
          | with_reducible refine Untouched.put ?_); clear_value x)
    | (intro x; subst x)
    | (with_reducible apply Untouched.step (k := applyAio_frame ..); case i => decide)
    | (with_reducible apply Untouched.step (k := applyAxes_frame ..); case i => decide)
    | (with_reducible apply Untouched.step (k := applyBanks_frame ..); case i => decide)
    | (with_reducible apply Untouched.step (k := applyLoops_frame ..); case i => decide)
    | (with_reducible apply Untouched.step (k := applyStatus_frame ..); case i => decide)
    | (with_reducible apply Untouched.step (k := applyUnowned_frame ..); case i => decide)

end Sys2Proof.Machine
end

