-- ==== Sys2Proof/Laws/FrameRecorder.lean ====
section
/-! SUPPORT. The frame of every operation of Machine/Recorder.lean: the parts of the state it may touch. -/

set_option Elab.async false

namespace Sys2Proof.Machine

theorem bankFault_frame (b : Nat) (s : State) :
    Untouched [.recd] s (bankFault b s) := by
  unfold bankFault
  repeat' first
    | with_reducible exact Untouched.refl _ _
    | lift_lets -underBinder
    | (intro x; subst x)
    | (with_reducible apply Untouched.step (k := emit_frame ..); case i => decide)
    | with_reducible refine Untouched.put ?_

theorem writeRec_frame (q : QRec) (ok0 : Bool) (ok1 : Bool) (s : State) :
    Untouched [.recd] s (writeRec q ok0 ok1 s) := by
  unfold writeRec
  repeat' first
    | with_reducible assumption
    | lift_lets -underBinder
    | (intro x; have hx : Untouched [.recd] s x := (by
        subst x
        repeat' first
          | with_reducible assumption
          | with_reducible exact Untouched.refl _ _
          | (with_reducible apply Untouched.step (k := bankFault_frame ..); case i => decide)
          | split
          | with_reducible refine Untouched.put ?_); clear_value x)
    | (intro x; subst x)
    | (with_reducible apply Untouched.step (k := bankFault_frame ..); case i => decide)
    | split

theorem recordWriteState_frame (ok0 : Bool) (ok1 : Bool) (s : State) :
    Untouched [.recd] s (recordWriteState ok0 ok1 s) := by
  unfold recordWriteState
  repeat' first
    | with_reducible exact Untouched.refl _ _
    | lift_lets -underBinder
    | (intro x; subst x)
    | (with_reducible apply Untouched.step (k := writeRec_frame ..); case i => decide)
    | split
    | with_reducible refine Untouched.put ?_

theorem resyncCompleteState_frame (s : State) :
    Untouched [.recd] s (resyncCompleteState s) := by
  unfold resyncCompleteState
  repeat' first
    | with_reducible exact Untouched.refl _ _
    | lift_lets -underBinder
    | (intro x; subst x)
    | (with_reducible apply Untouched.step (k := emit_frame ..); case i => decide)
    | split
    | dsimp -zeta only
    | with_reducible refine Untouched.put ?_

theorem snapshotOp_frame (data : List Byte) (n : Nat) (s : State) :
    Untouched [.freeN, .sess] s (snapshotOp data n s).2 := by
  unfold snapshotOp
  repeat' first
    | with_reducible exact Untouched.refl _ _
    | lift_lets -underBinder
    | (with_reducible apply Untouched.step (k := cmdNow_frame ..); case i => decide)
    | (with_reducible apply Untouched.step (k := draw_frame ..); case i => decide)
    | split

theorem mirrorCounters_frame (s : State) :
    Untouched [.pwr, .recd] s (mirrorCounters s) := by
  unfold mirrorCounters
  repeat' first
    | with_reducible exact Untouched.refl _ _
    | lift_lets -underBinder
    | (intro x; subst x)
    | with_reducible refine Untouched.put ?_

theorem takeSupercap_frame (mv : Nat) (s : State) :
    Untouched [.pwr, .recd] s (takeSupercap mv s) := by
  unfold takeSupercap
  repeat' first
    | with_reducible assumption
    | lift_lets -underBinder
    | (intro x; have hx : Untouched [.pwr, .recd] s x := (by
        subst x
        repeat' first
          | with_reducible exact Untouched.refl _ _
          | split
          | with_reducible refine Untouched.put ?_); clear_value x)
    | (intro x; subst x)
    | (with_reducible apply Untouched.step (k := emit_frame ..); case i => decide)
    | split

theorem condRecord_frame (was : Bool) (is : Bool) (code : Nat) (src : Nat) (data : List Byte) (s : State) :
    Untouched [.recd] s (condRecord was is code src data s) := by
  unfold condRecord
  repeat' first
    | with_reducible exact Untouched.refl _ _
    | (with_reducible apply Untouched.step (k := emit_frame ..); case i => decide)
    | split

theorem takeRail_frame (r : Nat) (mv : Nat) (s : State) :
    Untouched [.recd, .mgmt] s (takeRail r mv s) := by
  unfold takeRail
  repeat' first
    | with_reducible exact Untouched.refl _ _
    | lift_lets -underBinder
    | (intro x; subst x)
    | (with_reducible apply Untouched.step (k := emit_frame ..); case i => decide)
    | split
    | dsimp -zeta only
    | with_reducible refine Untouched.put ?_

theorem takeHumidity_frame (h : Nat) (s : State) :
    Untouched [.recd, .mgmt] s (takeHumidity h s) := by
  unfold takeHumidity
  repeat' first
    | with_reducible assumption
    | with_reducible exact Untouched.refl _ _
    | lift_lets -underBinder
    | (intro x; have hx : Untouched [.recd, .mgmt] s x := (by
        subst x
        repeat' first | with_reducible exact Untouched.refl _ _ | with_reducible refine Untouched.put ?_); clear_value x)
    | (intro x; subst x)
    | (with_reducible apply Untouched.step (k := emit_frame ..); case i => decide)
    | split
    | with_reducible refine Untouched.put ?_

theorem takeShock_frame (peaks : List Nat) (s : State) :
    Untouched [.recd, .mgmt] s (takeShock peaks s) := by
  unfold takeShock
  repeat' first
    | with_reducible assumption
    | lift_lets -underBinder
    | (intro x; have hx : Untouched [.recd, .mgmt] s x := (by
        subst x
        repeat' first | with_reducible exact Untouched.refl _ _ | with_reducible refine Untouched.put ?_); clear_value x)
    | (intro x; subst x)
    | (with_reducible apply Untouched.step (k := emit_frame ..); case i => decide)
    | split
    | with_reducible refine Untouched.put ?_

theorem takeTemps_frame (s : State) :
    Untouched [.freeN, .mot, .recd, .mgmt] s (takeTemps s) := by
  unfold takeTemps
  repeat' first
    | with_reducible exact Untouched.refl _ _
    | lift_lets -underBinder
    | (intro x; subst x)
    | (with_reducible apply Untouched.step (k := condRecord_frame ..); case i => decide)
    | (with_reducible apply Untouched.step (k := draw_frame ..); case i => decide)
    | split
    | dsimp -zeta only
    | with_reducible refine Untouched.put ?_

theorem sensorSampleState_frame (raw : Readings) (s : State) :
    Untouched [.freeN, .pwr, .mot, .recd, .mgmt] s (sensorSampleState raw s) := by
  unfold sensorSampleState
  repeat' first
    | with_reducible assumption
    | with_reducible exact Untouched.refl _ _
    | lift_lets -underBinder
    | (intro x; have hx : Untouched [.freeN, .pwr, .mot, .recd, .mgmt] s x := (by
        subst x
        repeat' first
          | with_reducible assumption
          | with_reducible exact Untouched.refl _ _
          | lift_lets -underBinder
          | (with_reducible apply Untouched.step (k := takeRail_frame ..); case i => decide)
          | (with_reducible apply Untouched.step (k := takeTemps_frame ..); case i => decide)
          | with_reducible refine Untouched.forAll (fun n t ht => ?_) ?_
          | with_reducible refine Untouched.put ?_); clear_value x)
    | (intro x; subst x)
    | (with_reducible apply Untouched.step (k := takeHumidity_frame ..); case i => decide)
    | (with_reducible apply Untouched.step (k := takeShock_frame ..); case i => decide)
    | (with_reducible apply Untouched.step (k := takeSupercap_frame ..); case i => decide)
    | split

theorem humidityState_frame (s : State) :
    Untouched [.recd, .mgmt] s (humidityState s) := by
  unfold humidityState
  repeat' first
    | with_reducible exact Untouched.refl _ _
    | lift_lets -underBinder
    | (intro x; subst x)
    | (with_reducible apply Untouched.step (k := emit_frame ..); case i => decide)
    | split
    | with_reducible refine Untouched.put ?_

end Sys2Proof.Machine
end

