-- ==== Sys2Proof/Laws/FrameRestart.lean ====
section
/-! SUPPORT. The frame of every operation of Machine/Restart.lean: the parts of the state it may touch. -/

set_option Elab.async false

namespace Sys2Proof.Machine

theorem storeAll_frame (s : State) :
    Untouched [.img, .prog, .can, .pair] s (storeAll s) := by
  unfold storeAll
  repeat' first
    | with_reducible assumption
    | with_reducible exact Untouched.refl _ _
    | lift_lets -underBinder
    | (with_reducible apply Untouched.step (k := storeRec_frame ..); case i => decide)
    | with_reducible refine Untouched.forAll (fun n t ht => ?_) ?_

theorem storeRetain_frame (s : State) :
    Untouched [.img, .prog, .eng, .mot, .can, .pair] s (storeRetain s) := by
  unfold storeRetain
  repeat' first
    | with_reducible assumption
    | lift_lets -underBinder
    | (intro x; have hx : Untouched [.img, .prog, .eng, .mot, .can, .pair] s x := (by
        subst x
        repeat' first
          | with_reducible exact Untouched.refl _ _
          | (with_reducible apply Untouched.step (k := storeAll_frame ..); case i => decide)); clear_value x)
    | (intro x; subst x)
    | (with_reducible apply Untouched.step (k := sealAxes_frame ..); case i => decide)
    | split
    | with_reducible refine Untouched.put ?_

theorem writeUndecided_frame (s : State) :
    Untouched [.recd] s (writeUndecided s) := by
  unfold writeUndecided
  repeat' first
    | with_reducible exact Untouched.refl _ _
    | lift_lets -underBinder
    | (intro x; subst x)
    | (with_reducible apply Untouched.step (k := writeRec_frame ..); case i => decide)
    | split
    | with_reducible refine Untouched.put ?_

theorem powerFailRecord_frame (s : State) :
    Untouched [.pwr, .recd] s (powerFailRecord s) := by
  unfold powerFailRecord
  repeat' first
    | with_reducible assumption
    | lift_lets -underBinder
    | (intro x; have hx : Untouched [.pwr, .recd] s x := (by
        subst x
        repeat' first
          | with_reducible assumption
          | with_reducible exact Untouched.refl _ _
          | (with_reducible apply Untouched.step (k := writeRec_frame ..); case i => decide)
          | (with_reducible apply Untouched.step (k := writeUndecided_frame ..); case i => decide)
          | with_reducible refine Untouched.put ?_); clear_value x)
    | (intro x; subst x)
    | split
    | with_reducible refine Untouched.put ?_

theorem drainQueue_frame (n : Nat) : ∀ s : State, Untouched [.recd] s (drainQueue n s) := by
  induction n with
  | zero => intro s; exact Untouched.refl _ _
  | succ n ih => intro s; exact (recordWriteState_frame _ _ s).trans (ih _)

theorem relayClose_frame (s : State) :
    Untouched [.pwr] s (relayClose s) := by
  unfold relayClose
  repeat' first
    | with_reducible exact Untouched.refl _ _
    | lift_lets -underBinder
    | (intro x; subst x)
    | split
    | with_reducible refine Untouched.put ?_

theorem drivesOff_frame (s : State) :
    Untouched [.mot] s (drivesOff s) := by
  unfold drivesOff
  repeat' first
    | with_reducible exact Untouched.refl _ _
    | lift_lets -underBinder
    | (intro x; subst x)
    | with_reducible refine Untouched.put ?_

theorem closeAll_frame (cause : Nat) (s : State) :
    Untouched [.sess] s (closeAll cause s) := by
  unfold closeAll
  repeat' first
    | with_reducible assumption
    | with_reducible exact Untouched.refl _ _
    | lift_lets -underBinder
    | (with_reducible apply Untouched.step (k := closeSession_frame ..); case i => decide)
    | split
    | with_reducible refine Untouched.forAll (fun n t ht => ?_) ?_

theorem goDown_frame (p : Phase) (s : State) :
    Untouched [.pwr, .sess, .mot, .safe, .sio] s (goDown p s) := by
  unfold goDown
  repeat' first
    | with_reducible assumption
    | lift_lets -underBinder
    | (intro x; have hx : Untouched [.pwr, .sess, .mot, .safe, .sio] s x := (by
        subst x
        repeat' first
          | with_reducible exact Untouched.refl _ _
          | lift_lets -underBinder
          | (with_reducible apply Untouched.step (k := closeAll_frame ..); case i => decide)
          | (with_reducible apply Untouched.step (k := drivesOff_frame ..); case i => decide)
          | (with_reducible apply Untouched.step (k := relayClose_frame ..); case i => decide)
          | (with_reducible apply Untouched.step (k := stagesOff_frame ..); case i => decide)); clear_value x)
    | (intro x; subst x)
    | with_reducible refine Untouched.put ?_

theorem restartNow_frame (cause : Nat) (s : State) :
    Untouched [.pwr, .sess, .img, .prog, .eng, .mot, .can, .safe, .sio, .pair, .recd] s (restartNow cause s) := by
  unfold restartNow
  repeat' first
    | with_reducible assumption
    | lift_lets -underBinder
    | (intro x; have hx : Untouched [.pwr, .sess, .img, .prog, .eng, .mot, .can, .safe, .sio, .pair, .recd] s x := (by
        subst x
        repeat' first
          | with_reducible exact Untouched.refl _ _
          | lift_lets -underBinder
          | (with_reducible apply Untouched.step (k := powerFailRecord_frame ..); case i => decide)
          | (with_reducible apply Untouched.step (k := storeRetain_frame ..); case i => decide)); clear_value x)
    | (with_reducible apply Untouched.step (k := drainQueue_frame ..); case i => decide)
    | (with_reducible apply Untouched.step (k := goDown_frame ..); case i => decide)
    | (with_reducible apply Untouched.step (k := mirrorCounters_frame ..); case i => decide)
    | (with_reducible apply Untouched.step (k := writeFlashDue_frame ..); case i => decide)

theorem resetNow_frame (cause : Nat) (s : State) :
    Untouched [.pwr, .sess, .img, .prog, .eng, .mot, .can, .safe, .sio, .pair] s (resetNow cause s) := by
  unfold resetNow
  repeat' first
    | with_reducible exact Untouched.refl _ _
    | lift_lets -underBinder
    | (with_reducible apply Untouched.step (k := goDown_frame ..); case i => decide)
    | (with_reducible apply Untouched.step (k := storeRetain_frame ..); case i => decide)
    | split

end Sys2Proof.Machine
end

