-- ==== Sys2Proof/Laws/FramePair.lean ====
section
/-! SUPPORT. The frame of every operation of Machine/Pair.lean: the parts of the state it may touch. -/

set_option Elab.async false

namespace Sys2Proof.Machine

theorem enterConflict_frame (s : State) :
    Untouched [.sess, .prog, .eng, .cad, .dio, .can, .pair, .recd] s (enterConflict s) := by
  unfold enterConflict
  repeat' first
    | with_reducible assumption
    | with_reducible exact Untouched.refl _ _
    | lift_lets -underBinder
    | (intro x; have hx : Untouched [.sess, .prog, .eng, .cad, .dio, .can, .pair, .recd] s x := (by
        subst x
        repeat' first
          | with_reducible assumption
          | with_reducible exact Untouched.refl _ _
          | (with_reducible apply Untouched.step (k := enterStop_frame ..); case i => decide)
          | (with_reducible apply Untouched.step (k := failSwitchover_frame ..); case i => decide)
          | (with_reducible apply Untouched.step (k := loseRole_frame ..); case i => decide)
          | split); clear_value x)
    | (with_reducible apply Untouched.step (k := enterPair_frame ..); case i => decide)
    | split

theorem noteMargin_frame (s : State) :
    Untouched [.pair] s (noteMargin s) := by
  unfold noteMargin
  repeat' first
    | with_reducible exact Untouched.refl _ _
    | lift_lets -underBinder
    | (intro x; subst x)
    | split
    | with_reducible refine Untouched.put ?_

theorem undoRelease_frame (k : Nat) (s : State) :
    Untouched [.prog, .pair] s (undoRelease k s) := by
  unfold undoRelease
  repeat' first
    | with_reducible assumption
    | lift_lets -underBinder
    | (intro x; have hx : Untouched [.prog, .pair] s x := (by
        subst x
        repeat' first | with_reducible exact Untouched.refl _ _ | with_reducible refine Untouched.put ?_); clear_value x)
    | (intro x; subst x)
    | (with_reducible apply Untouched.step (k := modTask_frame ..); case i => decide)

theorem slotsTakeover_frame (gap : Int) (s : State) :
    Untouched [.prog, .cad, .dio, .pair] s (slotsTakeover gap s) := by
  unfold slotsTakeover
  repeat' first
    | with_reducible assumption
    | with_reducible exact Untouched.refl _ _
    | lift_lets -underBinder
    | (intro x; have hx : Untouched [.prog, .cad, .dio, .pair] s x := (by
        subst x
        repeat' first
          | with_reducible assumption
          | (with_reducible apply Untouched.step (k := modSched_frame ..); case i => decide)
          | (with_reducible apply Untouched.step (k := undoRelease_frame ..); case i => decide)
          | split); clear_value x)
    | (intro x; subst x)
    | (with_reducible apply Untouched.step (k := modDio_frame ..); case i => decide)
    | (with_reducible apply Untouched.step (k := modSched_frame ..); case i => decide)
    | split
    | with_reducible refine Untouched.forAll (fun n t ht => ?_) ?_

theorem noteSwitchover_frame (trigger : Nat) (kind : Nat) (pauseUs : Nat) (s : State) :
    Untouched [.pair, .recd] s (noteSwitchover trigger kind pauseUs s) := by
  unfold noteSwitchover
  repeat' first
    | with_reducible assumption
    | lift_lets -underBinder
    | (intro x; have hx : Untouched [.pair, .recd] s x := (by
        subst x
        repeat' first | with_reducible exact Untouched.refl _ _ | with_reducible refine Untouched.put ?_); clear_value x)
    | (intro x; subst x)
    | (with_reducible apply Untouched.step (k := emit_frame ..); case i => decide)

theorem storeRecs_frame (s : State) :
    Untouched [.img, .prog, .can, .pair] s (storeRecs s) := by
  unfold storeRecs
  repeat' first
    | with_reducible assumption
    | with_reducible exact Untouched.refl _ _
    | lift_lets -underBinder
    | (with_reducible apply Untouched.step (k := storeRec_frame ..); case i => decide)
    | split
    | with_reducible refine Untouched.forAll (fun n t ht => ?_) ?_

theorem dropGapUpdates_frame (s : State) :
    Untouched [.eng] s (dropGapUpdates s) := by
  unfold dropGapUpdates
  repeat' first
    | with_reducible assumption
    | with_reducible exact Untouched.refl _ _
    | lift_lets -underBinder
    | (with_reducible apply Untouched.step (k := modLoop_frame ..); case i => decide)
    | with_reducible refine Untouched.forAll (fun n t ht => ?_) ?_

theorem dropOwn_frame (s : State) :
    Untouched [.prog, .pair] s (dropOwn s) := by
  unfold dropOwn
  repeat' first
    | with_reducible assumption
    | lift_lets -underBinder
    | (intro x; have hx : Untouched [.prog, .pair] s x := (by
        subst x
        repeat' first
          | with_reducible assumption
          | with_reducible exact Untouched.refl _ _
          | lift_lets -underBinder
          | (with_reducible apply Untouched.step (k := abandonCycle_frame ..); case i => decide)
          | with_reducible refine Untouched.forAll (fun n t ht => ?_) ?_); clear_value x)
    | (intro x; subst x)
    | with_reducible refine Untouched.put ?_

theorem becomeActive_frame (st : PairState) (trigger : Nat) (kind : Nat) (held : Int) (s : State) :
    Untouched [.img, .prog, .eng, .cad, .dio, .mot, .can, .pair, .recd] s (becomeActive st trigger kind held s) := by
  unfold becomeActive
  repeat' first
    | with_reducible assumption
    | lift_lets -underBinder
    | (intro x; have hx : Untouched [.img, .prog, .eng, .cad, .dio, .mot, .can, .pair, .recd] s x := (by
        subst x
        repeat' first
          | with_reducible assumption
          | with_reducible exact Untouched.refl _ _
          | lift_lets -underBinder
          | (with_reducible apply Untouched.step (k := dropGapUpdates_frame ..); case i => decide)
          | (with_reducible apply Untouched.step (k := enterPair_frame ..); case i => decide)
          | (with_reducible apply Untouched.step (k := noteSwitchover_frame ..); case i => decide)
          | (with_reducible apply Untouched.step (k := storeRecs_frame ..); case i => decide)
          | split
          | dsimp -zeta only
          | with_reducible refine Untouched.put ?_); clear_value x)
    | (intro x; subst x)
    | (with_reducible apply Untouched.step (k := motionTakeover_frame ..); case i => decide)
    | (with_reducible apply Untouched.step (k := scAbortArmed_frame ..); case i => decide)
    | (with_reducible apply Untouched.step (k := scResume_frame ..); case i => decide)
    | (with_reducible apply Untouched.step (k := slotsTakeover_frame ..); case i => decide)

theorem handedOver_frame (h : Handing) (s : State) :
    Untouched [.pwr, .sess, .img, .prog, .eng, .cad, .dio, .mot, .can, .safe, .sio, .pair, .recd] s (handedOver h s) := by
  unfold handedOver
  repeat' first
    | with_reducible assumption
    | lift_lets -underBinder
    | (intro x; have hx : Untouched [.pwr, .sess, .img, .prog, .eng, .cad, .dio, .mot, .can, .safe, .sio, .pair, .recd] s x := (by
        subst x
        repeat' first
          | with_reducible assumption
          | with_reducible exact Untouched.refl _ _
          | lift_lets -underBinder
          | (with_reducible apply Untouched.step (k := canStandby_frame ..); case i => decide)
          | (with_reducible apply Untouched.step (k := cmdDone_frame ..); case i => decide)
          | (with_reducible apply Untouched.step (k := enterPair_frame ..); case i => decide)
          | (with_reducible apply Untouched.step (k := loseRole_frame ..); case i => decide)
          | (with_reducible apply Untouched.step (k := noteSwitchover_frame ..); case i => decide)
          | (with_reducible apply Untouched.step (k := scAbortArmed_frame ..); case i => decide)
          | split
          | with_reducible refine Untouched.put ?_); clear_value x)
    | (intro x; subst x)
    | (with_reducible apply Untouched.step (k := restartNow_frame ..); case i => decide)
    | split

theorem startHanding_frame (trigger : Nat) (session : Nat) (s : State) :
    Untouched [.pair] s (startHanding trigger session s) := by
  unfold startHanding
  repeat' first
    | with_reducible exact Untouched.refl _ _
    | lift_lets -underBinder
    | (intro x; subst x)
    | with_reducible refine Untouched.put ?_

theorem hbSendState_frame (s : State) :
    Untouched [.outbox, .ring, .pair] s (hbSendState s) := by
  unfold hbSendState
  repeat' first
    | with_reducible exact Untouched.refl _ _
    | lift_lets -underBinder
    | (intro x; subst x)
    | (with_reducible apply Untouched.step (k := send_frame ..); case i => decide)
    | split
    | with_reducible refine Untouched.put ?_

theorem goOnAlone_frame (s : State) :
    Untouched [.freeN, .outbox, .config, .pwr, .sess, .img, .prog, .eng, .cad, .ring, .dio, .aio, .mot, .can, .safe, .sio, .pair, .recd] s (goOnAlone s) := by
  unfold goOnAlone
  repeat' first
    | with_reducible assumption
    | lift_lets -underBinder
    | (intro x; have hx : Untouched [.freeN, .outbox, .config, .pwr, .sess, .img, .prog, .eng, .cad, .ring, .dio, .aio, .mot, .can, .safe, .sio, .pair, .recd] s x := (by
        subst x
        repeat' first
          | with_reducible exact Untouched.refl _ _
          | (with_reducible apply Untouched.step (k := continueAlone_frame ..); case i => decide)); clear_value x)
    | (with_reducible apply Untouched.step (k := restartNow_frame ..); case i => decide)
    | split

theorem hbPulseState_frame (s : State) :
    Untouched [.freeN, .outbox, .config, .pwr, .sess, .img, .prog, .eng, .cad, .ring, .dio, .aio, .mot, .can, .safe, .sio, .pair, .recd] s (hbPulseState s) := by
  unfold hbPulseState
  repeat' first
    | with_reducible exact Untouched.refl _ _
    | lift_lets -underBinder
    | (intro x; have hx : Untouched [.freeN, .outbox, .config, .pwr, .sess, .img, .prog, .eng, .cad, .ring, .dio, .aio, .mot, .can, .safe, .sio, .pair, .recd] s x := (by
        subst x
        repeat' first | with_reducible exact Untouched.refl _ _ | with_reducible refine Untouched.put ?_); clear_value x)
    | (intro x; subst x)
    | (with_reducible apply Untouched.step (k := enterUnsynced_frame ..); case i => decide)
    | (with_reducible apply Untouched.step (k := goOnAlone_frame ..); case i => decide)
    | split
    | with_reducible refine Untouched.put ?_

theorem arbitrate_frame (s : State) :
    Untouched [.outbox, .ring, .pair] s (arbitrate s) := by
  unfold arbitrate
  repeat' first
    | with_reducible assumption
    | lift_lets -underBinder
    | (intro x; have hx : Untouched [.outbox, .ring, .pair] s x := (by
        subst x
        repeat' first
          | with_reducible exact Untouched.refl _ _
          | (with_reducible apply Untouched.step (k := send_frame ..); case i => decide)); clear_value x)
    | (intro x; subst x)
    | split
    | with_reducible refine Untouched.put ?_

theorem heartbeatLossState_frame (s : State) :
    Untouched [.outbox, .ring, .pair] s (heartbeatLossState s) := by
  unfold heartbeatLossState
  repeat' first
    | with_reducible assumption
    | with_reducible exact Untouched.refl _ _
    | lift_lets -underBinder
    | (intro x; have hx : Untouched [.outbox, .ring, .pair] s x := (by
        subst x
        repeat' first | with_reducible exact Untouched.refl _ _ | with_reducible refine Untouched.put ?_); clear_value x)
    | (intro x; subst x)
    | (with_reducible apply Untouched.step (k := arbitrate_frame ..); case i => decide)
    | split

theorem arbitrationLost_frame (claim : Nat) (s : State) :
    Untouched [.sess, .prog, .eng, .cad, .dio, .can, .pair, .recd] s (arbitrationLost claim s) := by
  unfold arbitrationLost
  repeat' first
    | with_reducible assumption
    | lift_lets -underBinder
    | (intro x; have hx : Untouched [.sess, .prog, .eng, .cad, .dio, .can, .pair, .recd] s x := (by
        subst x
        repeat' first | with_reducible exact Untouched.refl _ _ | with_reducible refine Untouched.put ?_); clear_value x)
    | (intro x; subst x)
    | (with_reducible apply Untouched.step (k := enterPair_frame ..); case i => decide)
    | (with_reducible apply Untouched.step (k := enterUnsynced_frame ..); case i => decide)
    | (with_reducible apply Untouched.step (k := yieldTo_frame ..); case i => decide)
    | split
    | with_reducible refine Untouched.put ?_

theorem precFrameState_frame (claim : Nat) (s : State) :
    Untouched [.outbox, .sess, .prog, .eng, .cad, .ring, .dio, .can, .pair, .recd] s (precFrameState claim s) := by
  unfold precFrameState
  repeat' first
    | with_reducible assumption
    | with_reducible exact Untouched.refl _ _
    | lift_lets -underBinder
    | (intro x; have hx : Untouched [.outbox, .sess, .prog, .eng, .cad, .ring, .dio, .can, .pair, .recd] s x := (by
        subst x
        repeat' first | with_reducible exact Untouched.refl _ _ | with_reducible refine Untouched.put ?_); clear_value x)
    | (intro x; subst x)
    | (with_reducible apply Untouched.step (k := arbitrate_frame ..); case i => decide)
    | (with_reducible apply Untouched.step (k := arbitrationLost_frame ..); case i => decide)
    | (with_reducible apply Untouched.step (k := enterConflict_frame ..); case i => decide)
    | split

theorem arbitrationWonState_frame (s : State) :
    Untouched [.freeN, .outbox, .img, .prog, .eng, .cad, .ring, .dio, .mot, .can, .pair, .recd] s (arbitrationWonState s) := by
  unfold arbitrationWonState
  repeat' first
    | with_reducible assumption
    | with_reducible exact Untouched.refl _ _
    | lift_lets -underBinder
    | (intro x; have hx : Untouched [.freeN, .outbox, .img, .prog, .eng, .cad, .ring, .dio, .mot, .can, .pair, .recd] s x := (by
        subst x
        repeat' first
          | with_reducible assumption
          | with_reducible exact Untouched.refl _ _
          | (with_reducible apply Untouched.step (k := dropOwn_frame ..); case i => decide)
          | with_reducible refine Untouched.put ?_); clear_value x)
    | (intro x; subst x)
    | (with_reducible apply Untouched.step (k := becomeActive_frame ..); case i => decide)
    | (with_reducible apply Untouched.step (k := canTakeover_frame ..); case i => decide)
    | (with_reducible apply Untouched.step (k := enterPair_frame ..); case i => decide)
    | split
    | with_reducible refine Untouched.put ?_

theorem fclCheckEndState_frame (s : State) :
    Untouched [.freeN, .outbox, .config, .pwr, .sess, .img, .prog, .eng, .cad, .ring, .dio, .aio, .mot, .can, .safe, .sio, .pair, .recd] s (fclCheckEndState s) := by
  unfold fclCheckEndState
  repeat' first
    | with_reducible exact Untouched.refl _ _
    | lift_lets -underBinder
    | (intro x; subst x)
    | (with_reducible apply Untouched.step (k := goOnAlone_frame ..); case i => decide)
    | (with_reducible apply Untouched.step (k := yieldTo_frame ..); case i => decide)
    | split
    | with_reducible refine Untouched.put ?_

theorem sendPieces_frame (l : List Piece) : ∀ s : State, Untouched [.outbox, .ring, .pair] s (sendPieces l s) := by
  induction l with
  | nil => intro s; exact Untouched.refl _ _
  | cons p r ih =>
    intro s
    refine Untouched.trans (Untouched.step ?_ (send_frame _ _) (by decide)) (ih _)
    have h := (countRecord_frame false s).mono (qs := [.outbox, .ring, .pair]) (by decide)
    split
    · exact Untouched.put h
    · exact h

theorem sendCopy_frame (s : State) :
    Untouched [.freeN, .outbox, .config, .pwr, .sess, .img, .prog, .eng, .cad, .ring, .dio, .aio, .mot, .can, .safe, .sio, .pair, .recd] s (sendCopy s) := by
  unfold sendCopy
  repeat' first
    | with_reducible assumption
    | with_reducible exact Untouched.refl _ _
    | lift_lets -underBinder
    | (intro x; have hx : Untouched [.freeN, .outbox, .config, .pwr, .sess, .img, .prog, .eng, .cad, .ring, .dio, .aio, .mot, .can, .safe, .sio, .pair, .recd] s x := (by
        subst x
        repeat' first
          | with_reducible exact Untouched.refl _ _
          | (with_reducible apply Untouched.step (k := goOnAlone_frame ..); case i => decide)); clear_value x)
    | (intro x; subst x)
    | (with_reducible apply Untouched.step (k := sendPieces_frame ..); case i => decide)
    | split
    | with_reducible refine Untouched.put ?_

theorem notePartner_frame (m : HelloMsg) (s : State) :
    Untouched [.safe, .pair] s (notePartner m s) := by
  unfold notePartner
  repeat' first
    | with_reducible exact Untouched.refl _ _
    | lift_lets -underBinder
    | (intro x; subst x)
    | split
    | with_reducible refine Untouched.put ?_

theorem helloState_frame (m : HelloMsg) (s : State) :
    Untouched [.freeN, .outbox, .config, .pwr, .sess, .img, .prog, .eng, .cad, .ring, .dio, .aio, .mot, .can, .safe, .sio, .pair, .recd] s (helloState m s) := by
  unfold helloState
  repeat' first
    | with_reducible assumption
    | with_reducible exact Untouched.refl _ _
    | lift_lets -underBinder
    | (intro x; have hx : Untouched [.freeN, .outbox, .config, .pwr, .sess, .img, .prog, .eng, .cad, .ring, .dio, .aio, .mot, .can, .safe, .sio, .pair, .recd] s x := (by
        subst x
        repeat' first
          | with_reducible assumption
          | with_reducible exact Untouched.refl _ _
          | lift_lets -underBinder
          | (with_reducible apply Untouched.step (k := noteMargin_frame ..); case i => decide)
          | (with_reducible apply Untouched.step (k := notePartner_frame ..); case i => decide)
          | (with_reducible apply Untouched.step (k := startHanding_frame ..); case i => decide)
          | split); clear_value x)
    | (with_reducible apply Untouched.step (k := enterConflict_frame ..); case i => decide)
    | (with_reducible apply Untouched.step (k := sendCopy_frame ..); case i => decide)
    | split

theorem takeRecord_frame (seq : Nat) (s : State) :
    Untouched [.sess, .pair, .recd] s (takeRecord seq s).2 := by
  unfold takeRecord
  repeat' first
    | with_reducible exact Untouched.refl _ _
    | lift_lets -underBinder
    | (intro x; have hx : Untouched [.sess, .pair, .recd] s x := (by
        subst x
        repeat' first
          | with_reducible exact Untouched.refl _ _
          | split
          | with_reducible refine Untouched.put ?_); clear_value x)
    | (intro x; subst x)
    | (with_reducible apply Untouched.step (k := enterUnsynced_frame ..); case i => decide)
    | split
    | dsimp -zeta only
    | with_reducible refine Untouched.put ?_

theorem ackIf_frame (seq : Nat) (result : Nat) (s : State) :
    Untouched [.outbox, .ring, .pair] s (ackIf seq result s) := by
  unfold ackIf
  repeat' first
    | with_reducible exact Untouched.refl _ _
    | (with_reducible apply Untouched.step (k := sendAck_frame ..); case i => decide)
    | split

theorem judgeInputs_frame (s : State) :
    Untouched [.pair] s (judgeInputs s) := by
  unfold judgeInputs
  repeat' first
    | with_reducible assumption
    | lift_lets -underBinder
    | (intro x; have hx : Untouched [.pair] s x := (by
        subst x
        repeat' first
          | with_reducible exact Untouched.refl _ _
          | (with_reducible apply Untouched.step (k := selfTestFailed_frame ..); case i => decide)
          | split); clear_value x)
    | (intro x; subst x)
    | dsimp -zeta only
    | with_reducible refine Untouched.put ?_

theorem compareBank_frame (b : Nat) (chans : List ChanRep) (s : State) :
    Untouched [.dio] s (compareBank b chans s) := by
  unfold compareBank
  repeat' first
    | with_reducible assumption
    | with_reducible exact Untouched.refl _ _
    | lift_lets -underBinder
    | (intro x; subst x)
    | (with_reducible apply Untouched.step (k := modDio_frame ..); case i => decide)
    | split
    | with_reducible refine Untouched.foldl (fun t x ht => ?_) _ _ ?_

theorem landRemote_frame (rec : Nat) (node : Nat) (cls : Nat) (seq : Nat) (vs : Option (Int × List (BitVec 32 × Byte))) (s : State) :
    Untouched [.img, .ring, .pair, .recd] s (landRemote rec node cls seq vs s) := by
  unfold landRemote
  repeat' first
    | with_reducible exact Untouched.refl _ _
    | lift_lets -underBinder
    | (intro x; subst x)
    | (with_reducible apply Untouched.step (k := landSet_frame ..); case i => decide)
    | split
    | with_reducible refine Untouched.put ?_

theorem landCanFrame_frame (p : Nat) (rx : CanRx) (s : State) :
    Untouched [.img, .can, .pair] s (landCanFrame p rx s) := by
  unfold landCanFrame
  repeat' first
    | with_reducible assumption
    | lift_lets -underBinder
    | (intro x; have hx : Untouched [.img, .can, .pair] s x := (by
        subst x
        repeat' first
          | with_reducible exact Untouched.refl _ _
          | lift_lets -underBinder
          | (intro x; subst x)
          | (with_reducible apply Untouched.step (k := selfTestFailed_frame ..); case i => decide)
          | split
          | with_reducible refine Untouched.put ?_); clear_value x)
    | (with_reducible apply Untouched.step (k := canDeliver_frame ..); case i => decide)

theorem judgeCan_frame (s : State) :
    Untouched [.pair] s (judgeCan s) := by
  unfold judgeCan
  repeat' first
    | with_reducible assumption
    | lift_lets -underBinder
    | (intro x; have hx : Untouched [.pair] s x := (by
        subst x
        repeat' first
          | with_reducible exact Untouched.refl _ _
          | (with_reducible apply Untouched.step (k := selfTestFailed_frame ..); case i => decide)
          | split); clear_value x)
    | (intro x; subst x)
    | with_reducible refine Untouched.put ?_

theorem landTracker_frame (n : Nat) (st : TrkState) (angle : BitVec 32) (speed : Real32) (ts : Int) (slew : Bool) (s : State) :
    Untouched [.img] s (landTracker n st angle speed ts slew s) := by
  unfold landTracker
  repeat' first
    | with_reducible assumption
    | lift_lets -underBinder
    | (intro x; have hx : Untouched [.img] s x := (by
        subst x
        repeat' first
          | with_reducible assumption
          | with_reducible exact Untouched.refl _ _
          | (with_reducible apply Untouched.step (k := produceAllAs_frame ..); case i => decide)); clear_value x)
    | (intro x; subst x)
    | (with_reducible apply Untouched.step (k := produceAllAs_frame ..); case i => decide)

theorem landOne_frame (rec : Nat) (l : Landing) (s : State) :
    Untouched [.sess, .img, .prog, .cad, .ring, .dio, .aio, .can, .pair, .recd] s (landOne rec l s) := by
  unfold landOne
  repeat' first
    | with_reducible assumption
    | with_reducible exact Untouched.refl _ _
    | lift_lets -underBinder
    | (intro x; have hx : Untouched [.sess, .img, .prog, .cad, .ring, .dio, .aio, .can, .pair, .recd] s x := (by
        subst x
        repeat' first
          | with_reducible exact Untouched.refl _ _
          | (with_reducible apply Untouched.step (k := modAio_frame ..); case i => decide)
          | split); clear_value x)
    | (with_reducible apply Untouched.step (k := compareBank_frame ..); case i => decide)
    | (with_reducible apply Untouched.step (k := landAio_frame ..); case i => decide)
    | (with_reducible apply Untouched.step (k := landBank_frame ..); case i => decide)
    | (with_reducible apply Untouched.step (k := landCanFrame_frame ..); case i => decide)
    | (with_reducible apply Untouched.step (k := landRemote_frame ..); case i => decide)
    | (with_reducible apply Untouched.step (k := landTracker_frame ..); case i => decide)
    | split

theorem inputState_frame (seq : Nat) (ls : List Landing) (s : State) :
    Untouched [.outbox, .sess, .img, .prog, .cad, .ring, .dio, .aio, .can, .pair, .recd] s (inputState seq ls s) := by
  unfold inputState
  repeat' first
    | with_reducible assumption
    | with_reducible exact Untouched.refl _ _
    | lift_lets -underBinder
    | (intro x; have hx : Untouched [.outbox, .sess, .img, .prog, .cad, .ring, .dio, .aio, .can, .pair, .recd] s x := (by
        subst x
        repeat' first
          | with_reducible assumption
          | with_reducible exact Untouched.refl _ _
          | lift_lets -underBinder
          | (with_reducible apply Untouched.step (k := judgeCan_frame ..); case i => decide)
          | (with_reducible apply Untouched.step (k := judgeInputs_frame ..); case i => decide)
          | (with_reducible apply Untouched.step (k := landOne_frame ..); case i => decide)
          | (with_reducible apply Untouched.step (k := takeRecord_frame ..); case i => decide)
          | with_reducible refine Untouched.of_snd ?_ (by assumption)
          | with_reducible refine Untouched.foldl (fun t x ht => ?_) _ _ ?_); clear_value x)
    | (with_reducible apply Untouched.step (k := ackIf_frame ..); case i => decide)
    | (with_reducible apply Untouched.step (k := takeRecord_frame ..); case i => decide)
    | split
    | with_reducible refine Untouched.of_snd ?_ (by assumption)

theorem standbyTick_frame (points : List SampledPt) (s : State) :
    Untouched [.freeN, .outbox, .img, .prog, .eng, .ring, .dio, .aio, .can] s (standbyTick points s) := by
  unfold standbyTick
  repeat' first
    | with_reducible assumption
    | lift_lets -underBinder
    | (intro x; have hx : Untouched [.freeN, .outbox, .img, .prog, .eng, .ring, .dio, .aio, .can] s x := (by
        subst x
        repeat' first
          | with_reducible assumption
          | with_reducible exact Untouched.refl _ _
          | lift_lets -underBinder
          | (with_reducible apply Untouched.step (k := cadenceUpdate_frame ..); case i => decide)
          | (with_reducible apply Untouched.step (k := releaseDue_frame ..); case i => decide)
          | with_reducible refine Untouched.foldl (fun t x ht => ?_) _ _ ?_
          | with_reducible refine Untouched.forAll (fun n t ht => ?_) ?_
          | with_reducible refine Untouched.put ?_); clear_value x)
    | (intro x; subst x)
    | (with_reducible apply Untouched.step (k := sampleTick_frame ..); case i => decide)

theorem takeMode_frame (m : Mode) (leftNs : Nat) (s : State) :
    Untouched [.freeN, .outbox, .sess, .prog, .cad, .ring, .can, .recd] s (takeMode m leftNs s) := by
  unfold takeMode
  repeat' first
    | with_reducible exact Untouched.refl _ _
    | lift_lets -underBinder
    | (intro x; subst x)
    | (with_reducible apply Untouched.step (k := enterHold_frame ..); case i => decide)
    | (with_reducible apply Untouched.step (k := enterRun_frame ..); case i => decide)
    | (with_reducible apply Untouched.step (k := enterStop_frame ..); case i => decide)
    | (with_reducible apply Untouched.step (k := resumeRun_frame ..); case i => decide)
    | split
    | with_reducible refine Untouched.put ?_

theorem takeSwap_frame (formeGen : Nat) (s : State) :
    Untouched [.sess, .prog, .cad, .can, .pair, .recd] s (takeSwap formeGen s) := by
  unfold takeSwap
  repeat' first
    | with_reducible exact Untouched.refl _ _
    | lift_lets -underBinder
    | (intro x; subst x)
    | (with_reducible apply Untouched.step (k := swapStandby_frame ..); case i => decide)
    | split
    | with_reducible refine Untouched.put ?_

theorem takeWaits_frame (b : Bool) (s : State) :
    Untouched [.prog] s (takeWaits b s) := by
  unfold takeWaits
  repeat' first
    | with_reducible exact Untouched.refl _ _
    | lift_lets -underBinder
    | (intro x; subst x)
    | split
    | with_reducible refine Untouched.put ?_

theorem takeNode_frame (n : Nat) (x_ : Node) (s : State) :
    Untouched [.img, .ring] s (takeNode n x_ s) := by
  unfold takeNode
  repeat' first
    | with_reducible assumption
    | lift_lets -underBinder
    | (intro x; have hx : Untouched [.img, .ring] s x := (by
        subst x
        repeat' first
          | with_reducible exact Untouched.refl _ _
          | (with_reducible apply Untouched.step (k := modNode_frame ..); case i => decide)); clear_value x)
    | (intro x; subst x)
    | (with_reducible apply Untouched.step (k := decideQual_frame ..); case i => decide)
    | split

theorem takeConfig_frame (cfg : Tbl (List Byte)) (s : State) :
    Untouched [.config, .clk, .sess, .img, .prog, .eng, .cad, .ring, .dio, .aio, .mot, .can, .safe, .sio, .recd] s (takeConfig cfg s) := by
  unfold takeConfig
  repeat' first
    | with_reducible assumption
    | lift_lets -underBinder
    | (intro x; have hx : Untouched [.config, .clk, .sess, .img, .prog, .eng, .cad, .ring, .dio, .aio, .mot, .can, .safe, .sio, .recd] s x := (by
        subst x
        repeat' first
          | with_reducible exact Untouched.refl _ _
          | (with_reducible apply Untouched.step (k := adoptConfig_frame ..); case i => decide)); clear_value x)
    | (intro x; subst x)
    | (with_reducible apply Untouched.step (k := owe_frame ..); case i => decide)
    | with_reducible refine Untouched.foldl (fun t x ht => ?_) _ _ ?_

theorem applyPiece_frame (copying : Bool) (p : Piece) (s : State) :
    Untouched [.freeN, .outbox, .config, .clk, .sess, .img, .prog, .eng, .cad, .ring, .dio, .aio, .mot, .can, .safe, .sio, .pair, .recd] s (applyPiece copying p s) := by
  unfold applyPiece
  repeat' first
    | with_reducible assumption
    | with_reducible exact Untouched.refl _ _
    | lift_lets -underBinder
    | (intro x; have hx : Untouched [.freeN, .outbox, .config, .clk, .sess, .img, .prog, .eng, .cad, .ring, .dio, .aio, .mot, .can, .safe, .sio, .pair, .recd] s x := (by
        subst x
        repeat' first
          | with_reducible exact Untouched.refl _ _
          | (with_reducible apply Untouched.step (k := takeConfig_frame ..); case i => decide)); clear_value x)
    | (intro x; subst x)
    | (with_reducible apply Untouched.step (k := directEffect_frame ..); case i => decide)
    | (with_reducible apply Untouched.step (k := modAxis_frame ..); case i => decide)
    | (with_reducible apply Untouched.step (k := modBuf_frame ..); case i => decide)
    | (with_reducible apply Untouched.step (k := modLoop_frame ..); case i => decide)
    | (with_reducible apply Untouched.step (k := modSc_frame ..); case i => decide)
    | (with_reducible apply Untouched.step (k := modSched_frame ..); case i => decide)
    | (with_reducible apply Untouched.step (k := modSlot_frame ..); case i => decide)
    | (with_reducible apply Untouched.step (k := owe_frame ..); case i => decide)
    | (with_reducible apply Untouched.step (k := releasePoint_frame ..); case i => decide)
    | (with_reducible apply Untouched.step (k := setCfg_frame ..); case i => decide)
    | (with_reducible apply Untouched.step (k := takeMode_frame ..); case i => decide)
    | (with_reducible apply Untouched.step (k := takeNode_frame ..); case i => decide)
    | (with_reducible apply Untouched.step (k := takeSwap_frame ..); case i => decide)
    | (with_reducible apply Untouched.step (k := takeWaits_frame ..); case i => decide)
    | split
    | with_reducible refine Untouched.put ?_

theorem noteCommitRec_frame (s : State) :
    Untouched [.pair] s (noteCommitRec s) := by
  unfold noteCommitRec
  repeat' first
    | with_reducible exact Untouched.refl _ _
    | lift_lets -underBinder
    | (intro x; subst x)
    | with_reducible refine Untouched.put ?_

theorem applyMore_frame (more : List Piece) (s : State) :
    Untouched [.freeN, .outbox, .config, .clk, .sess, .img, .prog, .eng, .cad, .ring, .dio, .aio, .mot, .can, .safe, .sio, .pair, .recd] s (applyMore more s) := by
  unfold applyMore
  repeat' first
    | with_reducible assumption
    | with_reducible exact Untouched.refl _ _
    | lift_lets -underBinder
    | (with_reducible apply Untouched.step (k := applyPiece_frame ..); case i => decide)
    | with_reducible refine Untouched.foldl (fun t x ht => ?_) _ _ ?_

theorem tickState_frame (seq : Nat) (points : List SampledPt) (digest : Nat) (more : List Piece) (s : State) :
    Untouched [.freeN, .outbox, .config, .clk, .sess, .img, .prog, .eng, .cad, .ring, .dio, .aio, .mot, .can, .safe, .sio, .pair, .recd] s (tickState seq points digest more s) := by
  unfold tickState
  repeat' first
    | with_reducible assumption
    | with_reducible exact Untouched.refl _ _
    | lift_lets -underBinder
    | (intro x; have hx : Untouched [.freeN, .outbox, .config, .clk, .sess, .img, .prog, .eng, .cad, .ring, .dio, .aio, .mot, .can, .safe, .sio, .pair, .recd] s x := (by
        subst x
        repeat' first
          | with_reducible assumption
          | with_reducible exact Untouched.refl _ _
          | lift_lets -underBinder
          | (with_reducible apply Untouched.step (k := applyMore_frame ..); case i => decide)
          | (with_reducible apply Untouched.step (k := noteCommitRec_frame ..); case i => decide)
          | (with_reducible apply Untouched.step (k := selfTestFailed_frame ..); case i => decide)
          | (with_reducible apply Untouched.step (k := standbyTick_frame ..); case i => decide)
          | (with_reducible apply Untouched.step (k := takeRecord_frame ..); case i => decide)
          | with_reducible refine Untouched.of_snd ?_ (by assumption)
          | with_reducible refine Untouched.put ?_); clear_value x)
    | (intro x; subst x)
    | (with_reducible apply Untouched.step (k := ackIf_frame ..); case i => decide)
    | (with_reducible apply Untouched.step (k := applyMore_frame ..); case i => decide)
    | (with_reducible apply Untouched.step (k := enterUnsynced_frame ..); case i => decide)
    | (with_reducible apply Untouched.step (k := noteCommitRec_frame ..); case i => decide)
    | (with_reducible apply Untouched.step (k := sealLoops_frame ..); case i => decide)
    | (with_reducible apply Untouched.step (k := takeRecord_frame ..); case i => decide)
    | split
    | with_reducible refine Untouched.of_snd ?_ (by assumption)

theorem taskState_frame (seq : Nat) (r : TaskRec) (s : State) :
    Untouched [.freeN, .outbox, .config, .clk, .sess, .img, .prog, .eng, .cad, .ring, .dio, .aio, .mot, .can, .safe, .sio, .pair, .recd] s (taskState seq r s) := by
  unfold taskState
  repeat' first
    | with_reducible assumption
    | with_reducible exact Untouched.refl _ _
    | lift_lets -underBinder
    | (intro x; have hx : Untouched [.freeN, .outbox, .config, .clk, .sess, .img, .prog, .eng, .cad, .ring, .dio, .aio, .mot, .can, .safe, .sio, .pair, .recd] s x := (by
        subst x
        repeat' first
          | with_reducible exact Untouched.refl _ _
          | lift_lets -underBinder
          | (with_reducible apply Untouched.step (k := applyMore_frame ..); case i => decide)
          | (with_reducible apply Untouched.step (k := noteCommitRec_frame ..); case i => decide)
          | (with_reducible apply Untouched.step (k := storeRec_frame ..); case i => decide)
          | (with_reducible apply Untouched.step (k := takeRecord_frame ..); case i => decide)
          | with_reducible refine Untouched.of_snd ?_ (by assumption)); clear_value x)
    | (intro x; subst x)
    | (with_reducible apply Untouched.step (k := ackIf_frame ..); case i => decide)
    | (with_reducible apply Untouched.step (k := pairTask_frame ..); case i => decide)
    | (with_reducible apply Untouched.step (k := storeDirty_frame ..); case i => decide)
    | (with_reducible apply Untouched.step (k := takeRecord_frame ..); case i => decide)
    | split
    | with_reducible refine Untouched.of_snd ?_ (by assumption)
    | with_reducible refine Untouched.put ?_

theorem noteLatency_frame (h : HeldRec) (s : State) :
    Untouched [.pair] s (noteLatency h s) := by
  unfold noteLatency
  repeat' first
    | with_reducible exact Untouched.refl _ _
    | lift_lets -underBinder
    | (intro x; subst x)
    | split
    | with_reducible refine Untouched.put ?_

theorem ackSent_frame (seq : Nat) (s : State) :
    Untouched [.freeN, .outbox, .prog, .ring, .dio, .aio, .can, .pair] s (ackSent seq s) := by
  unfold ackSent
  repeat' first
    | with_reducible assumption
    | lift_lets -underBinder
    | (intro x; have hx : Untouched [.freeN, .outbox, .prog, .ring, .dio, .aio, .can, .pair] s x := (by
        subst x
        repeat' first | with_reducible exact Untouched.refl _ _ | with_reducible refine Untouched.put ?_); clear_value x)
    | (intro x; subst x)
    | (with_reducible apply Untouched.step (k := firstReleases_frame ..); case i => decide)
    | with_reducible refine Untouched.put ?_

theorem ackStored_frame (seq : Nat) (s : State) :
    Untouched [.freeN, .outbox, .config, .sess, .img, .prog, .eng, .cad, .ring, .dio, .aio, .mot, .can, .pair, .recd] s (ackStored seq s) := by
  unfold ackStored
  repeat' first
    | with_reducible assumption
    | lift_lets -underBinder
    | (intro x; have hx : Untouched [.freeN, .outbox, .config, .sess, .img, .prog, .eng, .cad, .ring, .dio, .aio, .mot, .can, .pair, .recd] s x := (by
        subst x
        repeat' first
          | with_reducible assumption
          | with_reducible exact Untouched.refl _ _
          | lift_lets -underBinder
          | (with_reducible apply Untouched.step (k := commitHeld_frame ..); case i => decide)
          | (with_reducible apply Untouched.step (k := noteLatency_frame ..); case i => decide)
          | split
          | with_reducible refine Untouched.put ?_); clear_value x)
    | (intro x; subst x)
    | (with_reducible apply Untouched.step (k := ackSent_frame ..); case i => decide)
    | (with_reducible apply Untouched.step (k := tryHandover_frame ..); case i => decide)

theorem resendSets_frame (seq : Nat) (s : State) :
    Untouched [.outbox, .ring, .pair] s (resendSets seq s) := by
  unfold resendSets
  repeat' first
    | with_reducible assumption
    | with_reducible exact Untouched.refl _ _
    | lift_lets -underBinder
    | (intro x; have hx : Untouched [.outbox, .ring, .pair] s x := (by
        subst x
        repeat' first
          | with_reducible exact Untouched.refl _ _
          | (with_reducible apply Untouched.step (k := sendSync_frame ..); case i => decide)); clear_value x)
    | (intro x; subst x)
    | split
    | with_reducible refine Untouched.put ?_

theorem partnerRefused_frame (seq : Nat) (row : Nat) (s : State) :
    Untouched [.freeN, .outbox, .prog, .ring, .dio, .aio, .can, .pair] s (partnerRefused seq row s) := by
  unfold partnerRefused
  repeat' first
    | with_reducible assumption
    | lift_lets -underBinder
    | (intro x; have hx : Untouched [.freeN, .outbox, .prog, .ring, .dio, .aio, .can, .pair] s x := (by
        subst x
        repeat' first
          | with_reducible exact Untouched.refl _ _
          | (with_reducible apply Untouched.step (k := ackSent_frame ..); case i => decide)); clear_value x)
    | (intro x; subst x)
    | split
    | with_reducible refine Untouched.put ?_

theorem ackState_frame (seq : Nat) (result : Nat) (s : State) :
    Untouched [.freeN, .outbox, .config, .pwr, .sess, .img, .prog, .eng, .cad, .ring, .dio, .aio, .mot, .can, .safe, .sio, .pair, .recd] s (ackState seq result s) := by
  unfold ackState
  repeat' first
    | with_reducible assumption
    | with_reducible exact Untouched.refl _ _
    | lift_lets -underBinder
    | (intro x; have hx : Untouched [.freeN, .outbox, .config, .pwr, .sess, .img, .prog, .eng, .cad, .ring, .dio, .aio, .mot, .can, .safe, .sio, .pair, .recd] s x := (by
        subst x
        repeat' first | with_reducible exact Untouched.refl _ _ | with_reducible refine Untouched.put ?_); clear_value x)
    | (intro x; subst x)
    | (with_reducible apply Untouched.step (k := ackSent_frame ..); case i => decide)
    | (with_reducible apply Untouched.step (k := ackStored_frame ..); case i => decide)
    | (with_reducible apply Untouched.step (k := enterPair_frame ..); case i => decide)
    | (with_reducible apply Untouched.step (k := goOnAlone_frame ..); case i => decide)
    | (with_reducible apply Untouched.step (k := handedOver_frame ..); case i => decide)
    | (with_reducible apply Untouched.step (k := partnerRefused_frame ..); case i => decide)
    | (with_reducible apply Untouched.step (k := resendSets_frame ..); case i => decide)
    | split
    | with_reducible refine Untouched.put ?_

theorem ackTimeoutState_frame (seq : Nat) (s : State) :
    Untouched [.freeN, .outbox, .config, .pwr, .sess, .img, .prog, .eng, .cad, .ring, .dio, .aio, .mot, .can, .safe, .sio, .pair, .recd] s (ackTimeoutState seq s) := by
  unfold ackTimeoutState
  repeat' first
    | with_reducible assumption
    | with_reducible exact Untouched.refl _ _
    | lift_lets -underBinder
    | (intro x; have hx : Untouched [.freeN, .outbox, .config, .pwr, .sess, .img, .prog, .eng, .cad, .ring, .dio, .aio, .mot, .can, .safe, .sio, .pair, .recd] s x := (by
        subst x
        repeat' first | with_reducible exact Untouched.refl _ _ | with_reducible refine Untouched.put ?_); clear_value x)
    | (intro x; subst x)
    | (with_reducible apply Untouched.step (k := goOnAlone_frame ..); case i => decide)
    | split

theorem copyBegins_frame (s : State) :
    Untouched [.img, .prog, .pair, .recd] s (copyBegins s) := by
  unfold copyBegins
  repeat' first
    | with_reducible assumption
    | lift_lets -underBinder
    | (intro x; have hx : Untouched [.img, .prog, .pair, .recd] s x := (by
        subst x
        repeat' first
          | with_reducible exact Untouched.refl _ _
          | (with_reducible apply Untouched.step (k := enterPair_frame ..); case i => decide)
          | split); clear_value x)
    | (intro x; subst x)
    | with_reducible refine Untouched.put ?_

theorem copyEnds_frame (s : State) :
    Untouched [.pwr, .sess, .prog, .pair, .recd] s (copyEnds s) := by
  unfold copyEnds
  repeat' first
    | with_reducible assumption
    | lift_lets -underBinder
    | (intro x; have hx : Untouched [.pwr, .sess, .prog, .pair, .recd] s x := (by
        subst x
        repeat' first
          | with_reducible assumption
          | with_reducible exact Untouched.refl _ _
          | lift_lets -underBinder
          | (with_reducible apply Untouched.step (k := abandonAll_frame ..); case i => decide)
          | (with_reducible apply Untouched.step (k := writeFlashDue_frame ..); case i => decide)
          | split
          | with_reducible refine Untouched.put ?_); clear_value x)
    | (intro x; subst x)
    | (with_reducible apply Untouched.step (k := enterPair_frame ..); case i => decide)

theorem copyState_frame (seq : Nat) (p : Piece) (last : Bool) (s : State) :
    Untouched [.freeN, .outbox, .config, .clk, .pwr, .sess, .img, .prog, .eng, .cad, .ring, .dio, .aio, .mot, .can, .safe, .sio, .pair, .recd] s (copyState seq p last s) := by
  unfold copyState
  repeat' first
    | with_reducible assumption
    | with_reducible exact Untouched.refl _ _
    | lift_lets -underBinder
    | (intro x; have hx : Untouched [.freeN, .outbox, .config, .clk, .pwr, .sess, .img, .prog, .eng, .cad, .ring, .dio, .aio, .mot, .can, .safe, .sio, .pair, .recd] s x := (by
        subst x
        repeat' first
          | with_reducible exact Untouched.refl _ _
          | lift_lets -underBinder
          | (with_reducible apply Untouched.step (k := applyPiece_frame ..); case i => decide)
          | (with_reducible apply Untouched.step (k := copyBegins_frame ..); case i => decide)
          | split
          | with_reducible refine Untouched.put ?_); clear_value x)
    | (intro x; subst x)
    | (with_reducible apply Untouched.step (k := copyBegins_frame ..); case i => decide)
    | (with_reducible apply Untouched.step (k := copyEnds_frame ..); case i => decide)
    | split
    | with_reducible refine Untouched.put ?_

theorem handoverState_frame (seq : Nat) (_lastSeq : Nat) (trigger : Nat) (s : State) :
    Untouched [.freeN, .outbox, .sess, .img, .prog, .eng, .cad, .ring, .dio, .aio, .mot, .can, .pair, .recd] s (handoverState seq _lastSeq trigger s) := by
  unfold handoverState
  repeat' first
    | with_reducible assumption
    | with_reducible exact Untouched.refl _ _
    | lift_lets -underBinder
    | (intro x; have hx : Untouched [.freeN, .outbox, .sess, .img, .prog, .eng, .cad, .ring, .dio, .aio, .mot, .can, .pair, .recd] s x := (by
        subst x
        repeat' first
          | with_reducible assumption
          | with_reducible exact Untouched.refl _ _
          | lift_lets -underBinder
          | (with_reducible apply Untouched.step (k := becomeActive_frame ..); case i => decide)
          | (with_reducible apply Untouched.step (k := cmdDone_frame ..); case i => decide)
          | (with_reducible apply Untouched.step (k := sendAck_frame ..); case i => decide)
          | (with_reducible apply Untouched.step (k := takeRecord_frame ..); case i => decide)
          | split
          | with_reducible refine Untouched.of_snd ?_ (by assumption)
          | with_reducible refine Untouched.put ?_); clear_value x)
    | (intro x; subst x)
    | (with_reducible apply Untouched.step (k := finishCycle_frame ..); case i => decide)
    | (with_reducible apply Untouched.step (k := takeRecord_frame ..); case i => decide)
    | split
    | with_reducible refine Untouched.of_snd ?_ (by assumption)
    | with_reducible refine Untouched.foldl (fun t x ht => ?_) _ _ ?_

theorem switchoverOp_frame (data : List Byte) (n : Nat) (s : State) :
    Untouched [.sess, .pair] s (switchoverOp data n s).2 := by
  unfold switchoverOp
  repeat' first
    | with_reducible exact Untouched.refl _ _
    | lift_lets -underBinder
    | (intro x; subst x)
    | (with_reducible apply Untouched.step (k := cmdAccept_frame ..); case i => decide)
    | (with_reducible apply Untouched.step (k := startHanding_frame ..); case i => decide)
    | split

theorem autoSwitchoverState_frame (s : State) :
    Untouched [.pair] s (autoSwitchoverState s) := by
  unfold autoSwitchoverState
  repeat' first
    | with_reducible exact Untouched.refl _ _
    | (with_reducible apply Untouched.step (k := startHanding_frame ..); case i => decide)
    | split

theorem takeSafety_frame (objs : List (Nat × List Byte)) (forme : Memory) (s : State) :
    Untouched [.config, .sess, .safe] s (takeSafety objs forme s) := by
  unfold takeSafety
  repeat' first
    | with_reducible exact Untouched.refl _ _
    | lift_lets -underBinder
    | (intro x; subst x)
    | (with_reducible apply Untouched.step (k := dropPasses_frame ..); case i => decide)
    | split
    | with_reducible refine Untouched.put ?_

theorem changeState_frame (seq : Nat) (c : Change) (s : State) :
    Untouched [.outbox, .config, .clk, .sess, .img, .prog, .eng, .cad, .ring, .dio, .aio, .mot, .can, .safe, .sio, .pair, .recd] s (changeState seq c s) := by
  unfold changeState
  repeat' first
    | with_reducible assumption
    | with_reducible exact Untouched.refl _ _
    | lift_lets -underBinder
    | (intro x; have hx : Untouched [.outbox, .config, .clk, .sess, .img, .prog, .eng, .cad, .ring, .dio, .aio, .mot, .can, .safe, .sio, .pair, .recd] s x := (by
        subst x
        repeat' first
          | with_reducible exact Untouched.refl _ _
          | lift_lets -underBinder
          | (with_reducible apply Untouched.step (k := adoptConfig_frame ..); case i => decide)
          | (with_reducible apply Untouched.step (k := armStaged_frame ..); case i => decide)
          | (with_reducible apply Untouched.step (k := takeRecord_frame ..); case i => decide)
          | with_reducible refine Untouched.of_snd ?_ (by assumption)); clear_value x)
    | (intro x; subst x)
    | (with_reducible apply Untouched.step (k := ackIf_frame ..); case i => decide)
    | (with_reducible apply Untouched.step (k := emit_frame ..); case i => decide)
    | (with_reducible apply Untouched.step (k := takeRecord_frame ..); case i => decide)
    | (with_reducible apply Untouched.step (k := takeSafety_frame ..); case i => decide)
    | split
    | with_reducible refine Untouched.of_snd ?_ (by assumption)
    | with_reducible refine Untouched.put ?_

theorem fclFrameState_frame (chip : Nat) (claim : Nat) (s : State) :
    Untouched [.sess, .prog, .eng, .cad, .dio, .aio, .can, .pair, .recd] s (fclFrameState chip claim s) := by
  unfold fclFrameState
  repeat' first
    | with_reducible assumption
    | with_reducible exact Untouched.refl _ _
    | lift_lets -underBinder
    | (intro x; have hx : Untouched [.sess, .prog, .eng, .cad, .dio, .aio, .can, .pair, .recd] s x := (by
        subst x
        repeat' first
          | with_reducible assumption
          | with_reducible exact Untouched.refl _ _
          | (with_reducible apply Untouched.step (k := enterConflict_frame ..); case i => decide)
          | (with_reducible apply Untouched.step (k := modBank_frame ..); case i => decide)
          | split); clear_value x)
    | (with_reducible apply Untouched.step (k := claimSettles_frame ..); case i => decide)
    | (with_reducible apply Untouched.step (k := modAio_frame ..); case i => decide)
    | (with_reducible apply Untouched.step (k := settleSource_frame ..); case i => decide)
    | split

end Sys2Proof.Machine
end

