-- ==== Sys2Proof/Laws/FrameMgmt.lean ====
section
/-! SUPPORT. The frame of every operation of Machine/Mgmt.lean: the parts of the state it may touch. -/

set_option Elab.async false

namespace Sys2Proof.Machine

theorem retirePage_frame (page : Nat) (s : State) :
    Untouched [.sess, .prog, .cad, .can, .recd, .sram] s (retirePage page s) := by
  unfold retirePage
  repeat' first
    | with_reducible exact Untouched.refl _ _
    | lift_lets -underBinder
    | (intro x; subst x)
    | (with_reducible apply Untouched.step (k := enterStop_frame ..); case i => decide)
    | split
    | with_reducible refine Untouched.put ?_

theorem scrubFailed_frame (s : State) :
    Untouched [.pair] s (scrubFailed s) := by
  unfold scrubFailed
  repeat' first
    | with_reducible exact Untouched.refl _ _
    | (with_reducible apply Untouched.step (k := selfTestFailed_frame ..); case i => decide)
    | split

theorem sramCorrectedState_frame (addr : Nat) (s : State) :
    Untouched [.sess, .prog, .cad, .can, .pair, .recd, .sram] s (sramCorrectedState addr s) := by
  unfold sramCorrectedState
  repeat' first
    | with_reducible assumption
    | with_reducible exact Untouched.refl _ _
    | lift_lets -underBinder
    | (intro x; have hx : Untouched [.sess, .prog, .cad, .can, .pair, .recd, .sram] s x := (by
        subst x
        repeat' first | with_reducible exact Untouched.refl _ _ | with_reducible refine Untouched.put ?_); clear_value x)
    | (intro x; subst x)
    | (with_reducible apply Untouched.step (k := retirePage_frame ..); case i => decide)
    | (with_reducible apply Untouched.step (k := scrubFailed_frame ..); case i => decide)
    | split

theorem sramHandOver_frame (s : State) :
    Untouched [.pwr, .sess, .img, .prog, .eng, .mot, .can, .safe, .sio, .pair, .recd] s (sramHandOver s) := by
  unfold sramHandOver
  repeat' first
    | with_reducible exact Untouched.refl _ _
    | lift_lets -underBinder
    | (intro x; subst x)
    | (with_reducible apply Untouched.step (k := restartNow_frame ..); case i => decide)
    | (with_reducible apply Untouched.step (k := startHanding_frame ..); case i => decide)
    | split
    | with_reducible refine Untouched.put ?_

theorem sramUncorrectableState_frame (addr : Nat) (safetyArea : Bool) (s : State) :
    Untouched [.freeN, .pwr, .sess, .img, .prog, .eng, .cad, .mot, .can, .safe, .sio, .pair, .recd, .sram] s (sramUncorrectableState addr safetyArea s) := by
  unfold sramUncorrectableState
  repeat' first
    | with_reducible assumption
    | with_reducible exact Untouched.refl _ _
    | lift_lets -underBinder
    | (intro x; have hx : Untouched [.freeN, .pwr, .sess, .img, .prog, .eng, .cad, .mot, .can, .safe, .sio, .pair, .recd, .sram] s x := (by
        subst x
        repeat' first
          | with_reducible assumption
          | with_reducible exact Untouched.refl _ _
          | lift_lets -underBinder
          | (with_reducible apply Untouched.step (k := draw_frame ..); case i => decide)
          | (with_reducible apply Untouched.step (k := retirePage_frame ..); case i => decide)
          | (with_reducible apply Untouched.step (k := safetyFault_frame ..); case i => decide)
          | (with_reducible apply Untouched.step (k := scrubFailed_frame ..); case i => decide)
          | split
          | with_reducible refine Untouched.put ?_); clear_value x)
    | (intro x; subst x)
    | (with_reducible apply Untouched.step (k := sramHandOver_frame ..); case i => decide)
    | split

theorem unvalued_frame (ch : Nat) (s : State) :
    Untouched [.dio] s (unvalued ch s) := by
  unfold unvalued
  repeat' first
    | with_reducible exact Untouched.refl _ _
    | (with_reducible apply Untouched.step (k := modDio_frame ..); case i => decide)

theorem readmitted_frame (kind : Nat) (n : Nat) (s : State) :
    Untouched [.img, .dio, .aio, .mot, .recd] s (readmitted kind n s) := by
  unfold readmitted
  repeat' first
    | with_reducible assumption
    | with_reducible exact Untouched.refl _ _
    | lift_lets -underBinder
    | (intro x; have hx : Untouched [.img, .dio, .aio, .mot, .recd] s x := (by
        subst x
        repeat' first
          | with_reducible assumption
          | with_reducible exact Untouched.refl _ _
          | lift_lets -underBinder
          | (with_reducible apply Untouched.step (k := modBank_frame ..); case i => decide)
          | (with_reducible apply Untouched.step (k := modDio_frame ..); case i => decide)
          | (with_reducible apply Untouched.step (k := unvalued_frame ..); case i => decide)); clear_value x)
    | (intro x; subst x)
    | (with_reducible apply Untouched.step (k := decideQual_frame ..); case i => decide)
    | (with_reducible apply Untouched.step (k := losePos_frame ..); case i => decide)
    | (with_reducible apply Untouched.step (k := modAio_frame ..); case i => decide)
    | (with_reducible apply Untouched.step (k := modAxis_frame ..); case i => decide)
    | (with_reducible apply Untouched.step (k := produceAxis_frame ..); case i => decide)
    | (with_reducible apply Untouched.step (k := requalAio_frame ..); case i => decide)
    | (with_reducible apply Untouched.step (k := settleSource_frame ..); case i => decide)
    | split
    | with_reducible refine Untouched.forAll (fun n t ht => ?_) ?_

theorem readmitOp_frame (data : List Byte) (n : Nat) (s : State) :
    Untouched [.sess, .img, .dio, .aio, .mot, .recd, .retired] s (readmitOp data n s).2 := by
  unfold readmitOp
  repeat' first
    | with_reducible assumption
    | with_reducible exact Untouched.refl _ _
    | lift_lets -underBinder
    | (intro x; have hx : Untouched [.sess, .img, .dio, .aio, .mot, .recd, .retired] s x := (by
        subst x
        repeat' first
          | with_reducible assumption
          | with_reducible exact Untouched.refl _ _
          | (with_reducible apply Untouched.step (k := emit_frame ..); case i => decide)
          | with_reducible refine Untouched.put ?_); clear_value x)
    | (intro x; subst x)
    | (with_reducible apply Untouched.step (k := cmdNow_frame ..); case i => decide)
    | (with_reducible apply Untouched.step (k := readmitted_frame ..); case i => decide)
    | split

theorem installPatch_frame (flashFull : Bool) (n : Nat) (s : State) :
    Untouched [.sess, .recd, .mgmt] s (installPatch flashFull n s).2 := by
  unfold installPatch
  repeat' first
    | with_reducible assumption
    | with_reducible exact Untouched.refl _ _
    | lift_lets -underBinder
    | (intro x; have hx : Untouched [.sess, .recd, .mgmt] s x := (by
        subst x
        repeat' first
          | with_reducible assumption
          | with_reducible exact Untouched.refl _ _
          | lift_lets -underBinder
          | (with_reducible apply Untouched.step (k := cmdStart_frame ..); case i => decide)
          | (with_reducible apply Untouched.step (k := emit_frame ..); case i => decide)
          | (with_reducible apply Untouched.step (k := keepLeases_frame ..); case i => decide)
          | with_reducible refine Untouched.put ?_); clear_value x)
    | (intro x; subst x)
    | split

theorem removePatch_frame (n : Nat) (s : State) :
    Untouched [.sess, .recd, .mgmt] s (removePatch n s).2 := by
  unfold removePatch
  repeat' first
    | with_reducible assumption
    | with_reducible exact Untouched.refl _ _
    | lift_lets -underBinder
    | (intro x; have hx : Untouched [.sess, .recd, .mgmt] s x := (by
        subst x
        repeat' first
          | with_reducible exact Untouched.refl _ _
          | (with_reducible apply Untouched.step (k := emit_frame ..); case i => decide)
          | split); clear_value x)
    | (intro x; subst x)
    | (with_reducible apply Untouched.step (k := cmdNow_frame ..); case i => decide)
    | split
    | with_reducible refine Untouched.put ?_

theorem patchOp_frame (flashFull : Bool) (data : List Byte) (n : Nat) (s : State) :
    Untouched [.sess, .recd, .mgmt] s (patchOp flashFull data n s).2 := by
  unfold patchOp
  repeat' first
    | with_reducible exact Untouched.refl _ _
    | (with_reducible apply Untouched.step (k := installPatch_frame ..); case i => decide)
    | (with_reducible apply Untouched.step (k := removePatch_frame ..); case i => decide)
    | split

theorem patchRestart_frame (s : State) :
    Untouched [.pwr, .sess, .img, .prog, .eng, .mot, .can, .safe, .sio, .pair, .recd] s (patchRestart s) := by
  unfold patchRestart
  repeat' first
    | with_reducible exact Untouched.refl _ _
    | (with_reducible apply Untouched.step (k := restartNow_frame ..); case i => decide)
    | split

end Sys2Proof.Machine
end

