-- ==== Sys2Proof/Laws/FrameSupply.lean ====
section
/-! SUPPORT. The frame of every operation of Machine/Supply.lean: the parts of the state it may touch. -/

set_option Elab.async false

namespace Sys2Proof.Machine

theorem fuseTripState_frame (p : Port) (mv : Nat) (s : State) :
    Untouched [.pwr, .recd] s (fuseTripState p mv s) := by
  unfold fuseTripState
  repeat' first
    | with_reducible exact Untouched.refl _ _
    | lift_lets -underBinder
    | (intro x; subst x)
    | (with_reducible apply Untouched.step (k := emit_frame ..); case i => decide)
    | split
    | with_reducible refine Untouched.put ?_

theorem supplyRecord_frame (variant : Nat) (x_ : Supply) (mv : Nat) (s : State) :
    Untouched [.recd] s (supplyRecord variant x_ mv s) := by
  unfold supplyRecord
  repeat' first
    | with_reducible exact Untouched.refl _ _
    | (with_reducible apply Untouched.step (k := emit_frame ..); case i => decide)
    | split

theorem noteMv_frame (x_ : Supply) (mv : Nat) (s : State) :
    Untouched [.pwr] s (noteMv x_ mv s) := by
  unfold noteMv
  repeat' first
    | with_reducible exact Untouched.refl _ _
    | lift_lets -underBinder
    | (intro x; subst x)
    | split
    | with_reducible refine Untouched.put ?_

theorem supplyWarningState_frame (x_ : Supply) (mv : Nat) (s : State) :
    Untouched [.pwr, .recd] s (supplyWarningState x_ mv s) := by
  unfold supplyWarningState
  repeat' first
    | with_reducible assumption
    | lift_lets -underBinder
    | (intro x; have hx : Untouched [.pwr, .recd] s x := (by
        subst x
        repeat' first
          | with_reducible exact Untouched.refl _ _
          | (with_reducible apply Untouched.step (k := noteMv_frame ..); case i => decide)); clear_value x)
    | (with_reducible apply Untouched.step (k := supplyRecord_frame ..); case i => decide)
    | split
    | with_reducible refine Untouched.put ?_

theorem supplyWarningClearState_frame (x_ : Supply) (mv : Nat) (s : State) :
    Untouched [.pwr, .recd] s (supplyWarningClearState x_ mv s) := by
  unfold supplyWarningClearState
  repeat' first
    | with_reducible assumption
    | lift_lets -underBinder
    | (intro x; have hx : Untouched [.pwr, .recd] s x := (by
        subst x
        repeat' first
          | with_reducible exact Untouched.refl _ _
          | (with_reducible apply Untouched.step (k := noteMv_frame ..); case i => decide)); clear_value x)
    | (with_reducible apply Untouched.step (k := supplyRecord_frame ..); case i => decide)
    | split
    | with_reducible refine Untouched.put ?_

theorem aioFeed_frame (s : State) :
    Untouched [.pwr, .aio] s (aioFeed s) := by
  unfold aioFeed
  repeat' first
    | with_reducible exact Untouched.refl _ _
    | lift_lets -underBinder
    | (intro x; subst x)
    | (with_reducible apply Untouched.step (k := aioSupplyLost_frame ..); case i => decide)
    | split
    | with_reducible refine Untouched.put ?_

theorem aioFeedBack_frame (x_ : Supply) (mv : Nat) (s : State) :
    Untouched [.pwr, .aio] s (aioFeedBack x_ mv s) := by
  unfold aioFeedBack
  repeat' first
    | with_reducible exact Untouched.refl _ _
    | lift_lets -underBinder
    | (intro x; subst x)
    | (with_reducible apply Untouched.step (k := aioSupplyBack_frame ..); case i => decide)
    | split
    | with_reducible refine Untouched.put ?_

theorem banksLost_frame (first : Nat) (s : State) :
    Untouched [.dio, .recd] s (banksLost first s) := by
  unfold banksLost
  repeat' first
    | with_reducible assumption
    | with_reducible exact Untouched.refl _ _
    | lift_lets -underBinder
    | (with_reducible apply Untouched.step (k := bankSupplyLost_frame ..); case i => decide)
    | split
    | with_reducible refine Untouched.forAll (fun n t ht => ?_) ?_

theorem banksBack_frame (first : Nat) (s : State) :
    Untouched [.dio, .recd] s (banksBack first s) := by
  unfold banksBack
  repeat' first
    | with_reducible assumption
    | with_reducible exact Untouched.refl _ _
    | lift_lets -underBinder
    | (with_reducible apply Untouched.step (k := bankSupplyBack_frame ..); case i => decide)
    | with_reducible refine Untouched.forAll (fun n t ht => ?_) ?_

theorem msChange_frame (low : Bool) (high : Bool) (s : State) :
    Untouched [.outbox, .pwr, .ring, .mot, .recd] s (msChange low high s) := by
  unfold msChange
  repeat' first
    | with_reducible assumption
    | lift_lets -underBinder
    | (intro x; have hx : Untouched [.outbox, .pwr, .ring, .mot, .recd] s x := (by
        subst x
        repeat' first | with_reducible exact Untouched.refl _ _ | with_reducible refine Untouched.put ?_); clear_value x)
    | (intro x; subst x)
    | (with_reducible apply Untouched.step (k := driveSupplyBack_frame ..); case i => decide)
    | (with_reducible apply Untouched.step (k := driveSupplyLost_frame ..); case i => decide)
    | split

theorem supplyLatch_frame (x_ : Supply) (mv : Nat) (s : State) :
    Untouched [.outbox, .pwr, .ring, .dio, .mot, .safe, .sio, .recd] s (supplyLatch x_ mv s) := by
  unfold supplyLatch
  repeat' first
    | with_reducible exact Untouched.refl _ _
    | lift_lets -underBinder
    | (intro x; subst x)
    | (with_reducible apply Untouched.step (k := banksLost_frame ..); case i => decide)
    | (with_reducible apply Untouched.step (k := limitSupplyLost_frame ..); case i => decide)
    | (with_reducible apply Untouched.step (k := msChange_frame ..); case i => decide)
    | (with_reducible apply Untouched.step (k := stagesOff_frame ..); case i => decide)
    | (with_reducible apply Untouched.step (k := supplyRecord_frame ..); case i => decide)
    | split
    | with_reducible refine Untouched.put ?_

theorem supplyOffState_frame (x_ : Supply) (mv : Nat) (s : State) :
    Untouched [.outbox, .pwr, .ring, .dio, .aio, .mot, .safe, .sio, .recd] s (supplyOffState x_ mv s) := by
  unfold supplyOffState
  repeat' first
    | with_reducible exact Untouched.refl _ _
    | lift_lets -underBinder
    | (with_reducible apply Untouched.step (k := aioFeed_frame ..); case i => decide)
    | (with_reducible apply Untouched.step (k := noteMv_frame ..); case i => decide)
    | (with_reducible apply Untouched.step (k := supplyLatch_frame ..); case i => decide)

theorem supplyUnlatch_frame (x_ : Supply) (mv : Nat) (s : State) :
    Untouched [.outbox, .pwr, .ring, .dio, .mot, .recd] s (supplyUnlatch x_ mv s) := by
  unfold supplyUnlatch
  repeat' first
    | with_reducible exact Untouched.refl _ _
    | lift_lets -underBinder
    | (intro x; subst x)
    | (with_reducible apply Untouched.step (k := banksBack_frame ..); case i => decide)
    | (with_reducible apply Untouched.step (k := msChange_frame ..); case i => decide)
    | (with_reducible apply Untouched.step (k := supplyRecord_frame ..); case i => decide)
    | split
    | with_reducible refine Untouched.put ?_

theorem supplyRecoveryState_frame (x_ : Supply) (mv : Nat) (s : State) :
    Untouched [.outbox, .pwr, .ring, .dio, .aio, .mot, .recd] s (supplyRecoveryState x_ mv s) := by
  unfold supplyRecoveryState
  repeat' first
    | with_reducible exact Untouched.refl _ _
    | lift_lets -underBinder
    | (with_reducible apply Untouched.step (k := aioFeedBack_frame ..); case i => decide)
    | (with_reducible apply Untouched.step (k := noteMv_frame ..); case i => decide)
    | (with_reducible apply Untouched.step (k := supplyUnlatch_frame ..); case i => decide)

theorem canOffState_frame (s : State) :
    Untouched [.can] s (canOffState s) := by
  unfold canOffState
  repeat' first | with_reducible exact Untouched.refl _ _ | with_reducible refine Untouched.put ?_

theorem diolOffState_frame (s : State) :
    Untouched [.dio, .recd] s (diolOffState s) := by
  unfold diolOffState
  repeat' first
    | with_reducible assumption
    | with_reducible exact Untouched.refl _ _
    | lift_lets -underBinder
    | (intro x; have hx : Untouched [.dio, .recd] s x := (by
        subst x
        repeat' first
          | with_reducible assumption
          | lift_lets -underBinder
          | (with_reducible apply Untouched.step (k := modBank_frame ..); case i => decide)
          | (with_reducible apply Untouched.step (k := silenceOutputs_frame ..); case i => decide)); clear_value x)
    | (with_reducible apply Untouched.step (k := modDio_frame ..); case i => decide)
    | split
    | with_reducible refine Untouched.forAll (fun n t ht => ?_) ?_

theorem aiolOffState_frame (s : State) :
    Untouched [.aio] s (aiolOffState s) := by
  unfold aiolOffState
  repeat' first
    | with_reducible assumption
    | with_reducible exact Untouched.refl _ _
    | lift_lets -underBinder
    | (intro x; have hx : Untouched [.aio] s x := (by
        subst x
        repeat' first
          | with_reducible assumption
          | (with_reducible apply Untouched.step (k := modAio_frame ..); case i => decide)); clear_value x)
    | (with_reducible apply Untouched.step (k := aoApply_frame ..); case i => decide)
    | (with_reducible apply Untouched.step (k := modAio_frame ..); case i => decide)
    | split
    | with_reducible refine Untouched.forAll (fun n t ht => ?_) ?_

theorem netOffState_frame (s : State) :
    Untouched [.clk, .pwr, .sess, .ring] s (netOffState s) := by
  unfold netOffState
  repeat' first
    | with_reducible assumption
    | lift_lets -underBinder
    | (intro x; have hx : Untouched [.clk, .pwr, .sess, .ring] s x := (by
        subst x
        repeat' first
          | with_reducible assumption
          | with_reducible exact Untouched.refl _ _
          | lift_lets -underBinder
          | (with_reducible apply Untouched.step (k := closeSession_frame ..); case i => decide)
          | (with_reducible apply Untouched.step (k := relayClose_frame ..); case i => decide)
          | split
          | with_reducible refine Untouched.forAll (fun n t ht => ?_) ?_); clear_value x)
    | (intro x; subst x)
    | with_reducible refine Untouched.put ?_

theorem domainOff_frame (target : Nat) (s : State) :
    Untouched [.outbox, .clk, .pwr, .sess, .ring, .dio, .aio, .mot, .can, .recd] s (domainOff target s) := by
  unfold domainOff
  repeat' first
    | with_reducible assumption
    | lift_lets -underBinder
    | (intro x; have hx : Untouched [.outbox, .clk, .pwr, .sess, .ring, .dio, .aio, .mot, .can, .recd] s x := (by
        subst x
        repeat' first
          | with_reducible exact Untouched.refl _ _
          | (with_reducible apply Untouched.step (k := aiolOffState_frame ..); case i => decide)
          | (with_reducible apply Untouched.step (k := canOffState_frame ..); case i => decide)
          | (with_reducible apply Untouched.step (k := diolOffState_frame ..); case i => decide)
          | (with_reducible apply Untouched.step (k := motionReset_frame ..); case i => decide)
          | (with_reducible apply Untouched.step (k := netOffState_frame ..); case i => decide)
          | split); clear_value x)
    | (intro x; subst x)
    | with_reducible refine Untouched.put ?_

theorem domainRecord_frame (target : Nat) (n : Nat) (s : State) :
    Untouched [.recd] s (domainRecord target n s) := by
  unfold domainRecord
  repeat' first
    | with_reducible exact Untouched.refl _ _
    | (with_reducible apply Untouched.step (k := emit_frame ..); case i => decide)

theorem domainResetOp_frame (data : List Byte) (n : Nat) (s : State) :
    Untouched [.outbox, .clk, .pwr, .sess, .ring, .dio, .aio, .mot, .can, .recd] s (domainResetOp data n s).2 := by
  unfold domainResetOp
  repeat' first
    | with_reducible exact Untouched.refl _ _
    | lift_lets -underBinder
    | (intro x; subst x)
    | (with_reducible apply Untouched.step (k := cmdAccept_frame ..); case i => decide)
    | (with_reducible apply Untouched.step (k := domainOff_frame ..); case i => decide)
    | (with_reducible apply Untouched.step (k := domainRecord_frame ..); case i => decide)
    | split

theorem wholeRestart_frame (s : State) :
    Untouched [.pwr, .sess, .img, .prog, .eng, .mot, .can, .safe, .sio, .pair, .recd] s (wholeRestart s) := by
  unfold wholeRestart
  repeat' first
    | with_reducible exact Untouched.refl _ _
    | (with_reducible apply Untouched.step (k := restartNow_frame ..); case i => decide)
    | split

theorem netOnState_frame (off : Nat) (s : State) :
    Untouched [.freeN, .clk, .ring] s (netOnState off s) := by
  unfold netOnState
  repeat' first
    | with_reducible exact Untouched.refl _ _
    | lift_lets -underBinder
    | (intro x; subst x)
    | (with_reducible apply Untouched.step (k := draw_frame ..); case i => decide)
    | split
    | with_reducible refine Untouched.of_snd ?_ (by assumption)
    | with_reducible refine Untouched.put ?_

theorem canOnState_frame (s : State) :
    Untouched [.can, .recd] s (canOnState s) := by
  unfold canOnState
  repeat' first
    | with_reducible assumption
    | with_reducible exact Untouched.refl _ _
    | lift_lets -underBinder
    | (with_reducible apply Untouched.step (k := applyCan_frame ..); case i => decide)
    | with_reducible refine Untouched.forAll (fun n t ht => ?_) ?_

theorem domainCompleteState_frame (s : State) :
    Untouched [.freeN, .clk, .pwr, .sess, .ring, .can, .recd] s (domainCompleteState s) := by
  unfold domainCompleteState
  repeat' first
    | with_reducible assumption
    | with_reducible exact Untouched.refl _ _
    | lift_lets -underBinder
    | (intro x; have hx : Untouched [.freeN, .clk, .pwr, .sess, .ring, .can, .recd] s x := (by
        subst x
        repeat' first
          | with_reducible assumption
          | with_reducible exact Untouched.refl _ _
          | (with_reducible apply Untouched.step (k := canOnState_frame ..); case i => decide)
          | (with_reducible apply Untouched.step (k := netOnState_frame ..); case i => decide)
          | split
          | with_reducible refine Untouched.put ?_); clear_value x)
    | (intro x; subst x)
    | (with_reducible apply Untouched.step (k := cmdDone_frame ..); case i => decide)
    | split

end Sys2Proof.Machine
end

