-- ==== Sys2Proof/Laws/FramePower.lean ====
section
/-! SUPPORT. The frame of every operation of Machine/Power.lean: the parts of the state it may touch. -/

set_option Elab.async false

namespace Sys2Proof.Machine

theorem powerFailSequence_frame (margin : Nat) (s : State) :
    Untouched [.freeN, .pwr, .sess, .img, .prog, .eng, .mot, .can, .pair, .recd] s (powerFailSequence margin s) := by
  unfold powerFailSequence
  repeat' first
    | with_reducible assumption
    | lift_lets -underBinder
    | (intro x; have hx : Untouched [.freeN, .pwr, .sess, .img, .prog, .eng, .mot, .can, .pair, .recd] s x := (by
        subst x
        repeat' first
          | with_reducible assumption
          | with_reducible exact Untouched.refl _ _
          | lift_lets -underBinder
          | (with_reducible apply Untouched.step (k := drainQueue_frame ..); case i => decide)
          | (with_reducible apply Untouched.step (k := draw_frame ..); case i => decide)
          | (with_reducible apply Untouched.step (k := mirrorCounters_frame ..); case i => decide)
          | (with_reducible apply Untouched.step (k := powerFailRecord_frame ..); case i => decide)
          | (with_reducible apply Untouched.step (k := storeRetain_frame ..); case i => decide)
          | (with_reducible apply Untouched.step (k := writeFlashDue_frame ..); case i => decide)
          | with_reducible refine Untouched.of_snd ?_ (by assumption)); clear_value x)
    | (intro x; subst x)
    | split
    | with_reducible refine Untouched.put ?_

theorem powerFailState_frame (margin : Nat) (trunkBack : Bool) (s : State) :
    Untouched [.freeN, .pwr, .sess, .img, .prog, .eng, .mot, .can, .safe, .sio, .pair, .recd] s (powerFailState margin trunkBack s) := by
  unfold powerFailState
  repeat' first
    | with_reducible exact Untouched.refl _ _
    | lift_lets -underBinder
    | (intro x; subst x)
    | (with_reducible apply Untouched.step (k := goDown_frame ..); case i => decide)
    | (with_reducible apply Untouched.step (k := powerFailSequence_frame ..); case i => decide)
    | split
    | with_reducible refine Untouched.put ?_

theorem startAon_frame (env : StartEnv) (s : State) :
    Untouched [.pwr, .recd] s (startAon env s) := by
  unfold startAon
  repeat' first
    | with_reducible exact Untouched.refl _ _
    | lift_lets -underBinder
    | (intro x; subst x)
    | split
    | with_reducible refine Untouched.put ?_

theorem startMgt_frame (env : StartEnv) (s : State) :
    Untouched [.pwr, .cad] s (startMgt env s) := by
  unfold startMgt
  repeat' first
    | with_reducible exact Untouched.refl _ _
    | lift_lets -underBinder
    | (intro x; subst x)
    | with_reducible refine Untouched.put ?_

theorem startRecorder_frame (env : StartEnv) (s : State) :
    Untouched [.recd] s (startRecorder env s) := by
  unfold startRecorder
  repeat' first
    | with_reducible exact Untouched.refl _ _
    | lift_lets -underBinder
    | (intro x; subst x)
    | split
    | with_reducible refine Untouched.put ?_

theorem startFresh_frame (env : StartEnv) (s : State) :
    Untouched [.config, .clk, .sess, .img, .prog, .eng, .cad, .ring, .can, .safe, .sio, .pair, .mgmt, .sram] s (startFresh env s) := by
  unfold startFresh
  repeat' first | with_reducible exact Untouched.refl _ _ | split | with_reducible refine Untouched.put ?_

theorem refusedAtStart_frame (variant : Nat) (code : Nat) (s : State) :
    Untouched [.recd] s (refusedAtStart variant code s) := by
  unfold refusedAtStart
  repeat' first
    | with_reducible exact Untouched.refl _ _
    | (with_reducible apply Untouched.step (k := emit_frame ..); case i => decide)

theorem startPatch_frame (env : StartEnv) (s : State) :
    Untouched [.recd, .mgmt] s (startPatch env s) := by
  unfold startPatch
  repeat' first
    | with_reducible exact Untouched.refl _ _
    | lift_lets -underBinder
    | (intro x; subst x)
    | (with_reducible apply Untouched.step (k := emit_frame ..); case i => decide)
    | (with_reducible apply Untouched.step (k := refusedAtStart_frame ..); case i => decide)
    | split
    | with_reducible refine Untouched.put ?_

theorem startForme_frame (env : StartEnv) (s : State) :
    Untouched [.prog, .recd] s (startForme env s) := by
  unfold startForme
  repeat' first
    | with_reducible exact Untouched.refl _ _
    | lift_lets -underBinder
    | (intro x; subst x)
    | (with_reducible apply Untouched.step (k := refusedAtStart_frame ..); case i => decide)
    | split
    | with_reducible refine Untouched.put ?_

theorem startTime_frame (s : State) :
    Untouched [.clk, .ring] s (startTime s) := by
  unfold startTime
  repeat' first
    | with_reducible exact Untouched.refl _ _
    | lift_lets -underBinder
    | (intro x; subst x)
    | split
    | with_reducible refine Untouched.put ?_

theorem startSafe_frame (env : StartEnv) (s : State) :
    Untouched [.freeN, .img, .safe, .sio, .recd] s (startSafe env s) := by
  unfold startSafe
  repeat' first
    | with_reducible exact Untouched.refl _ _
    | lift_lets -underBinder
    | (with_reducible apply Untouched.step (k := draw_frame ..); case i => decide)
    | (with_reducible apply Untouched.step (k := enterSafety_frame ..); case i => decide)
    | (with_reducible apply Untouched.step (k := publishStatus_frame ..); case i => decide)
    | (with_reducible apply Untouched.step (k := safetyFault_frame ..); case i => decide)
    | (with_reducible apply Untouched.step (k := startSafety_frame ..); case i => decide)
    | split

theorem startResources_frame (warm : Bool) (s : State) :
    Untouched [.img, .eng, .cad, .ring, .dio, .aio, .mot, .can, .recd, .retired] s (startResources warm s) := by
  unfold startResources
  repeat' first
    | with_reducible assumption
    | lift_lets -underBinder
    | (intro x; have hx : Untouched [.img, .eng, .cad, .ring, .dio, .aio, .mot, .can, .recd, .retired] s x := (by
        subst x
        repeat' first
          | with_reducible assumption
          | with_reducible exact Untouched.refl _ _
          | lift_lets -underBinder
          | (with_reducible apply Untouched.step (k := applyCan_frame ..); case i => decide)
          | (with_reducible apply Untouched.step (k := applySlots_frame ..); case i => decide)
          | (with_reducible apply Untouched.step (k := modNode_frame ..); case i => decide)
          | (with_reducible apply Untouched.step (k := startTracker_frame ..); case i => decide)
          | split
          | with_reducible refine Untouched.foldl (fun t x ht => ?_) _ _ ?_
          | with_reducible refine Untouched.forAll (fun n t ht => ?_) ?_); clear_value x)
    | (with_reducible apply Untouched.step (k := applyUnowned_frame ..); case i => decide)
    | (with_reducible apply Untouched.step (k := startAio_frame ..); case i => decide)
    | (with_reducible apply Untouched.step (k := startAxes_frame ..); case i => decide)
    | (with_reducible apply Untouched.step (k := startBanks_frame ..); case i => decide)
    | (with_reducible apply Untouched.step (k := startLoops_frame ..); case i => decide)

theorem startData_frame (warm : Bool) (s : State) :
    Untouched [.prog] s (startData warm s) := by
  unfold startData
  repeat' first
    | with_reducible exact Untouched.refl _ _
    | lift_lets -underBinder
    | (intro x; subst x)
    | split
    | with_reducible refine Untouched.put ?_

theorem startDecide_frame (env : StartEnv) (s : State) :
    Untouched [.pwr, .img, .prog, .eng, .cad, .ring, .dio, .aio, .mot, .can, .recd, .retired] s (startDecide env s) := by
  unfold startDecide
  repeat' first
    | with_reducible assumption
    | lift_lets -underBinder
    | (intro x; have hx : Untouched [.pwr, .img, .prog, .eng, .cad, .ring, .dio, .aio, .mot, .can, .recd, .retired] s x := (by
        subst x
        repeat' first
          | with_reducible assumption
          | with_reducible exact Untouched.refl _ _
          | (with_reducible apply Untouched.step (k := emit_frame ..); case i => decide)
          | split
          | with_reducible refine Untouched.put ?_); clear_value x)
    | (intro x; subst x)
    | (with_reducible apply Untouched.step (k := startData_frame ..); case i => decide)
    | (with_reducible apply Untouched.step (k := startResources_frame ..); case i => decide)

theorem joinRing_frame (env : StartEnv) (s : State) :
    Untouched [.ring] s (joinRing env s) := by
  unfold joinRing
  repeat' first
    | with_reducible exact Untouched.refl _ _
    | lift_lets -underBinder
    | (intro x; subst x)
    | with_reducible refine Untouched.put ?_

theorem startPair_frame (env : StartEnv) (s : State) :
    Untouched [.outbox, .ring, .pair, .recd] s (startPair env s) := by
  unfold startPair
  repeat' first
    | with_reducible assumption
    | with_reducible exact Untouched.refl _ _
    | lift_lets -underBinder
    | (intro x; have hx : Untouched [.outbox, .ring, .pair, .recd] s x := (by
        subst x
        repeat' first
          | with_reducible assumption
          | with_reducible exact Untouched.refl _ _
          | (with_reducible apply Untouched.step (k := emit_frame ..); case i => decide)
          | split
          | with_reducible refine Untouched.put ?_); clear_value x)
    | (intro x; subst x)
    | (with_reducible apply Untouched.step (k := arbitrate_frame ..); case i => decide)
    | (with_reducible apply Untouched.step (k := enterPair_frame ..); case i => decide)
    | split
    | with_reducible refine Untouched.put ?_

theorem startMode_frame (s : State) :
    Untouched [.prog, .recd] s (startMode s) := by
  unfold startMode
  repeat' first
    | with_reducible assumption
    | lift_lets -underBinder
    | (intro x; have hx : Untouched [.prog, .recd] s x := (by
        subst x
        repeat' first
          | with_reducible exact Untouched.refl _ _
          | (with_reducible apply Untouched.step (k := emit_frame ..); case i => decide)); clear_value x)
    | (intro x; subst x)
    | with_reducible refine Untouched.put ?_

theorem startTrunk_frame (env : StartEnv) (s : State) :
    Untouched [.pwr, .recd] s (startTrunk env s) := by
  unfold startTrunk
  repeat' first
    | with_reducible exact Untouched.refl _ _
    | lift_lets -underBinder
    | (intro x; subst x)
    | (with_reducible apply Untouched.step (k := supplyWarningState_frame ..); case i => decide)
    | with_reducible refine Untouched.put ?_

theorem startRecords_frame (env : StartEnv) (s : State) :
    Untouched [.pwr, .recd] s (startRecords env s) := by
  unfold startRecords
  repeat' first
    | with_reducible assumption
    | lift_lets -underBinder
    | (intro x; have hx : Untouched [.pwr, .recd] s x := (by
        subst x
        repeat' first
          | with_reducible assumption
          | with_reducible exact Untouched.refl _ _
          | (with_reducible apply Untouched.step (k := emit_frame ..); case i => decide)
          | (with_reducible apply Untouched.step (k := takeSupercap_frame ..); case i => decide)
          | split); clear_value x)
    | (intro x; subst x)
    | with_reducible refine Untouched.put ?_

theorem startForces_frame (forces : List Force) (s : State) :
    Untouched [.recd] s (startForces forces s) := by
  unfold startForces
  repeat' first
    | with_reducible assumption
    | with_reducible exact Untouched.refl _ _
    | lift_lets -underBinder
    | (with_reducible apply Untouched.step (k := emit_frame ..); case i => decide)
    | with_reducible refine Untouched.foldl (fun t x ht => ?_) _ _ ?_

theorem startRecord_frame (gasp : List Gasp) (s : State) :
    Untouched [.recd] s (startRecord gasp s) := by
  unfold startRecord
  repeat' first
    | with_reducible assumption
    | lift_lets -underBinder
    | (intro x; have hx : Untouched [.recd] s x := (by
        subst x
        repeat' first
          | with_reducible assumption
          | with_reducible exact Untouched.refl _ _
          | (with_reducible apply Untouched.step (k := emit_frame ..); case i => decide)
          | with_reducible refine Untouched.put ?_); clear_value x)
    | (intro x; subst x)
    | with_reducible refine Untouched.put ?_

theorem startUp_frame (env : StartEnv) (s : State) :
    Untouched [.freeN, .outbox, .config, .clk, .pwr, .sess, .img, .prog, .eng, .cad, .ring, .dio, .aio, .mot, .can, .safe, .sio, .pair, .recd, .mgmt, .retired, .sram] s (startUp env s) := by
  unfold startUp
  repeat' first
    | with_reducible assumption
    | lift_lets -underBinder
    | (intro x; have hx : Untouched [.freeN, .outbox, .config, .clk, .pwr, .sess, .img, .prog, .eng, .cad, .ring, .dio, .aio, .mot, .can, .safe, .sio, .pair, .recd, .mgmt, .retired, .sram] s x := (by
        subst x
        repeat' first
          | with_reducible assumption
          | with_reducible exact Untouched.refl _ _
          | lift_lets -underBinder
          | (with_reducible apply Untouched.step (k := refusedAtStart_frame ..); case i => decide)
          | (with_reducible apply Untouched.step (k := startAon_frame ..); case i => decide)
          | (with_reducible apply Untouched.step (k := startForces_frame ..); case i => decide)
          | (with_reducible apply Untouched.step (k := startForme_frame ..); case i => decide)
          | (with_reducible apply Untouched.step (k := startFresh_frame ..); case i => decide)
          | (with_reducible apply Untouched.step (k := startMgt_frame ..); case i => decide)
          | (with_reducible apply Untouched.step (k := startPatch_frame ..); case i => decide)
          | (with_reducible apply Untouched.step (k := startRecorder_frame ..); case i => decide)
          | (with_reducible apply Untouched.step (k := startRecords_frame ..); case i => decide)
          | (with_reducible apply Untouched.step (k := startSafe_frame ..); case i => decide)
          | (with_reducible apply Untouched.step (k := startTime_frame ..); case i => decide)
          | (with_reducible apply Untouched.step (k := startTrunk_frame ..); case i => decide)
          | split
          | with_reducible refine Untouched.put ?_); clear_value x)
    | (intro x; subst x)
    | (with_reducible apply Untouched.step (k := joinRing_frame ..); case i => decide)
    | (with_reducible apply Untouched.step (k := startDecide_frame ..); case i => decide)
    | (with_reducible apply Untouched.step (k := startMode_frame ..); case i => decide)
    | (with_reducible apply Untouched.step (k := startPair_frame ..); case i => decide)
    | (with_reducible apply Untouched.step (k := startRecord_frame ..); case i => decide)

theorem startupState_frame (env : StartEnv) (s : State) :
    Untouched [.freeN, .outbox, .config, .clk, .pwr, .sess, .img, .prog, .eng, .cad, .ring, .dio, .aio, .mot, .can, .safe, .sio, .pair, .recd, .mgmt, .retired, .sram] s (startupState env s) := by
  unfold startupState
  repeat' first
    | with_reducible exact Untouched.refl _ _
    | (with_reducible apply Untouched.step (k := startUp_frame ..); case i => decide)
    | split

end Sys2Proof.Machine
end

