-- ==== Sys2Proof/Laws/FrameCommit.lean ====
section
/-! SUPPORT. The frame of every operation of Machine/Commit.lean: the parts of the state it may touch. -/

set_option Elab.async false

namespace Sys2Proof.Machine

theorem directNow_frame (idx : Nat) (sub : Nat) (data : List Byte) (n : Nat) (s : State) :
    Untouched [.config, .sess, .cad, .mot, .can, .recd] s (directNow idx sub data n s) := by
  unfold directNow
  repeat' first
    | with_reducible exact Untouched.refl _ _
    | (with_reducible apply Untouched.step (k := axCommandOp_frame ..); case i => decide)
    | (with_reducible apply Untouched.step (k := directEffect_frame ..); case i => decide)
    | split

theorem directOp_frame (idx : Nat) (sub : Nat) (off : Nat) (data : List Byte) (n : Nat) (s : State) :
    Untouched [.config, .sess, .mot, .recd] s (directOp idx sub off data n s).2 := by
  unfold directOp
  repeat' first
    | with_reducible exact Untouched.refl _ _
    | (with_reducible apply Untouched.step (k := axCommandOp_frame ..); case i => decide)
    | (with_reducible apply Untouched.step (k := bulkDataOp_frame ..); case i => decide)
    | (with_reducible apply Untouched.step (k := bulkLengthOp_frame ..); case i => decide)
    | (with_reducible apply Untouched.step (k := canRecoverOp_frame ..); case i => decide)
    | (with_reducible apply Untouched.step (k := deferred_frame ..); case i => decide)
    | (with_reducible apply Untouched.step (k := keepDirect_frame ..); case i => decide)
    | (with_reducible apply Untouched.step (k := loopModeOp_frame ..); case i => decide)
    | (with_reducible apply Untouched.step (k := scArmOp_frame ..); case i => decide)
    | (with_reducible apply Untouched.step (k := signerKeyOp_frame ..); case i => decide)
    | (with_reducible apply Untouched.step (k := slotKeyOp_frame ..); case i => decide)
    | split

theorem commitFails_frame (a : Abort) (n : Nat) (s : State) :
    Untouched [.sess] s (commitFails a n s).2 := by
  unfold commitFails
  repeat' first
    | with_reducible exact Untouched.refl _ _
    | lift_lets -underBinder
    | (with_reducible apply Untouched.step (k := cmdFail_frame ..); case i => decide)
    | (with_reducible apply Untouched.step (k := cmdStart_frame ..); case i => decide)
    | (with_reducible apply Untouched.step (k := modSession_frame ..); case i => decide)

theorem commitAccepted_frame (n : Nat) (s : State) :
    Untouched [.config, .sess, .dio] s (commitAccepted n s).2 := by
  unfold commitAccepted
  repeat' first
    | with_reducible assumption
    | lift_lets -underBinder
    | (intro x; have hx : Untouched [.config, .sess, .dio] s x := (by
        subst x
        repeat' first
          | with_reducible assumption
          | with_reducible exact Untouched.refl _ _
          | lift_lets -underBinder
          | (with_reducible apply Untouched.step (k := announceBanks_frame ..); case i => decide)
          | (with_reducible apply Untouched.step (k := keepLeases_frame ..); case i => decide)
          | (with_reducible apply Untouched.step (k := modSession_frame ..); case i => decide)
          | with_reducible refine Untouched.put ?_); clear_value x)
    | (intro x; subst x)
    | (with_reducible apply Untouched.step (k := cmdAccept_frame ..); case i => decide)

theorem commitNow_frame (n : Nat) (s : State) :
    Untouched [.config, .sess, .dio] s (commitNow n s).2 := by
  unfold commitNow
  repeat' first
    | with_reducible exact Untouched.refl _ _
    | (with_reducible apply Untouched.step (k := commitAccepted_frame ..); case i => decide)
    | (with_reducible apply Untouched.step (k := commitFails_frame ..); case i => decide)
    | split

theorem commitPrepare_frame (n : Nat) (s : State) :
    Untouched [.sess] s (commitPrepare n s).2 := by
  unfold commitPrepare
  repeat' first
    | with_reducible exact Untouched.refl _ _
    | lift_lets -underBinder
    | (intro x; subst x)
    | (with_reducible apply Untouched.step (k := cmdNow_frame ..); case i => decide)
    | (with_reducible apply Untouched.step (k := commitFails_frame ..); case i => decide)
    | (with_reducible apply Untouched.step (k := modSession_frame ..); case i => decide)
    | split

theorem confirmSafety_frame (ws : List Staged) (s : State) :
    Untouched [.outbox, .config, .sess, .ring, .safe, .pair] s (confirmSafety ws s) := by
  unfold confirmSafety
  repeat' first
    | with_reducible exact Untouched.refl _ _
    | lift_lets -underBinder
    | (with_reducible apply Untouched.step (k := passChange_frame ..); case i => decide)
    | (with_reducible apply Untouched.step (k := takeSafety_frame ..); case i => decide)
    | split

theorem commitConfirm_frame (sealNo : Nat) (n : Nat) (s : State) :
    Untouched [.outbox, .config, .sess, .ring, .dio, .safe, .pair] s (commitConfirm sealNo n s).2 := by
  unfold commitConfirm
  repeat' first
    | with_reducible exact Untouched.refl _ _
    | lift_lets -underBinder
    | (intro x; subst x)
    | (with_reducible apply Untouched.step (k := commitAccepted_frame ..); case i => decide)
    | (with_reducible apply Untouched.step (k := commitFails_frame ..); case i => decide)
    | (with_reducible apply Untouched.step (k := confirmSafety_frame ..); case i => decide)
    | (with_reducible apply Untouched.step (k := modSession_frame ..); case i => decide)
    | split

theorem commitOp_frame (data : List Byte) (n : Nat) (s : State) :
    Untouched [.outbox, .config, .sess, .ring, .dio, .safe, .pair] s (commitOp data n s).2 := by
  unfold commitOp
  repeat' first
    | with_reducible exact Untouched.refl _ _
    | (with_reducible apply Untouched.step (k := commitConfirm_frame ..); case i => decide)
    | (with_reducible apply Untouched.step (k := commitNow_frame ..); case i => decide)
    | (with_reducible apply Untouched.step (k := commitPrepare_frame ..); case i => decide)
    | split

theorem applyDirect_frame (n : Nat) (objs : Tbl (List Byte)) (s : State) :
    Untouched [.config, .sess, .cad, .mot, .can, .recd] s (applyDirect n objs s) := by
  unfold applyDirect
  repeat' first
    | with_reducible assumption
    | with_reducible exact Untouched.refl _ _
    | lift_lets -underBinder
    | (with_reducible apply Untouched.step (k := directNow_frame ..); case i => decide)
    | split
    | with_reducible refine Untouched.foldl (fun t x ht => ?_) _ _ ?_

theorem dropDirect_frame (objs : Tbl (List Byte)) (s : State) :
    Untouched [.sess] s (dropDirect objs s) := by
  unfold dropDirect
  repeat' first
    | with_reducible exact Untouched.refl _ _
    | lift_lets -underBinder
    | (intro x; subst x)
    | dsimp -zeta only
    | with_reducible refine Untouched.put ?_

theorem countCommit_frame (s : State) :
    Untouched [.sess, .recd] s (countCommit s) := by
  unfold countCommit
  repeat' first
    | with_reducible exact Untouched.refl _ _
    | lift_lets -underBinder
    | (intro x; subst x)
    | (with_reducible apply Untouched.step (k := emit_frame ..); case i => decide)
    | with_reducible refine Untouched.put ?_

theorem applyPending_frame (p : PendingCommit) (s : State) :
    Untouched [.outbox, .config, .clk, .sess, .img, .prog, .eng, .cad, .ring, .dio, .aio, .mot, .can, .safe, .sio, .pair, .recd] s (applyPending p s) := by
  unfold applyPending
  repeat' first
    | with_reducible assumption
    | lift_lets -underBinder
    | (intro x; have hx : Untouched [.outbox, .config, .clk, .sess, .img, .prog, .eng, .cad, .ring, .dio, .aio, .mot, .can, .safe, .sio, .pair, .recd] s x := (by
        subst x
        repeat' first
          | with_reducible assumption
          | with_reducible exact Untouched.refl _ _
          | lift_lets -underBinder
          | (with_reducible apply Untouched.step (k := adoptConfig_frame ..); case i => decide)
          | (with_reducible apply Untouched.step (k := applyDirect_frame ..); case i => decide)
          | (with_reducible apply Untouched.step (k := armStaged_frame ..); case i => decide)
          | (with_reducible apply Untouched.step (k := countCommit_frame ..); case i => decide)
          | (with_reducible apply Untouched.step (k := dropDirect_frame ..); case i => decide)
          | with_reducible refine Untouched.put ?_); clear_value x)
    | (intro x; subst x)
    | (with_reducible apply Untouched.step (k := cmdDone_frame ..); case i => decide)
    | (with_reducible apply Untouched.step (k := passChange_frame ..); case i => decide)
    | (with_reducible apply Untouched.step (k := releaseKept_frame ..); case i => decide)

theorem configApplyState_frame (s : State) :
    Untouched [.outbox, .config, .clk, .sess, .img, .prog, .eng, .cad, .ring, .dio, .aio, .mot, .can, .safe, .sio, .pair, .recd] s (configApplyState s) := by
  unfold configApplyState
  repeat' first
    | with_reducible exact Untouched.refl _ _
    | (with_reducible apply Untouched.step (k := applyPending_frame ..); case i => decide)
    | split

theorem applyFirst_frame (s : State) :
    Untouched [.outbox, .config, .clk, .sess, .img, .prog, .eng, .cad, .ring, .dio, .aio, .mot, .can, .safe, .sio, .pair, .recd] s (applyFirst s) := by
  unfold applyFirst
  repeat' first
    | with_reducible exact Untouched.refl _ _
    | (with_reducible apply Untouched.step (k := configApplyState_frame ..); case i => decide)
    | split

end Sys2Proof.Machine
end

