-- ==== Sys2Proof/Laws/FrameAccess.lean ====
section
/-! SUPPORT. The frame of every operation of Machine/Access.lean: the parts of the state it may touch. -/

set_option Elab.async false

namespace Sys2Proof.Machine

theorem objectOp_frame (idx : Nat) (sub : Nat) (off : Nat) (data : List Byte) (n : Nat) (s : State) :
    Untouched [.freeN, .outbox, .config, .clk, .pwr, .sess, .img, .prog, .eng, .cad, .ring, .dio, .aio, .mot, .can, .safe, .pair, .recd, .mgmt, .retired] s (objectOp idx sub off data n s).2 := by
  unfold objectOp
  repeat' first
    | with_reducible exact Untouched.refl _ _
    | (with_reducible apply Untouched.step (k := commitOp_frame ..); case i => decide)
    | (with_reducible apply Untouched.step (k := directOp_frame ..); case i => decide)
    | (with_reducible apply Untouched.step (k := domainResetOp_frame ..); case i => decide)
    | (with_reducible apply Untouched.step (k := forceOp_frame ..); case i => decide)
    | (with_reducible apply Untouched.step (k := leaseOp_frame ..); case i => decide)
    | (with_reducible apply Untouched.step (k := modeSetOp_frame ..); case i => decide)
    | (with_reducible apply Untouched.step (k := onlineChangeOp_frame ..); case i => decide)
    | (with_reducible apply Untouched.step (k := patchOp_frame ..); case i => decide)
    | (with_reducible apply Untouched.step (k := readmitOp_frame ..); case i => decide)
    | (with_reducible apply Untouched.step (k := snapshotOp_frame ..); case i => decide)
    | (with_reducible apply Untouched.step (k := switchoverOp_frame ..); case i => decide)
    | (with_reducible apply Untouched.step (k := timeRestepOp_frame ..); case i => decide)
    | split

theorem restartsAfter_frame (idx : Nat) (s : State) :
    Untouched [.pwr, .sess, .img, .prog, .eng, .mot, .can, .safe, .sio, .pair, .recd] s (restartsAfter idx s) := by
  unfold restartsAfter
  repeat' first
    | with_reducible exact Untouched.refl _ _
    | (with_reducible apply Untouched.step (k := patchRestart_frame ..); case i => decide)
    | (with_reducible apply Untouched.step (k := wholeRestart_frame ..); case i => decide)
    | split

theorem writeObjectState_frame (h : Hdr) (idx : Nat) (sub : Nat) (ty : Nat) (off : Nat) (data : List Byte) (s : State) :
    Untouched [.freeN, .outbox, .config, .clk, .pwr, .sess, .img, .prog, .eng, .cad, .ring, .dio, .aio, .mot, .can, .safe, .sio, .pair, .recd, .mgmt, .retired] s (writeObjectState h idx sub ty off data s) := by
  unfold writeObjectState
  repeat' first
    | with_reducible assumption
    | with_reducible exact Untouched.refl _ _
    | lift_lets -underBinder
    | (with_reducible apply Untouched.step (k := closeDue_frame ..); case i => decide)
    | (with_reducible apply Untouched.step (k := objectOp_frame ..); case i => decide)
    | (with_reducible apply Untouched.step (k := restartsAfter_frame ..); case i => decide)
    | with_reducible refine writeReq_frame _ _ _ _ _ _ (by decide) (fun n t ht => ?_) ?_

end Sys2Proof.Machine
end

