-- ==== Sys2Proof/Laws/FrameRead.lean ====
section
/-! SUPPORT. The frame of every operation of Machine/Read.lean: the parts of the state it may touch. -/

set_option Elab.async false

namespace Sys2Proof.Machine

theorem scRead_frame (idx : Nat) (sub : Nat) (s : State) :
    Untouched [.cad] s (scRead idx sub s) := by
  unfold scRead
  repeat' first
    | with_reducible exact Untouched.refl _ _
    | (with_reducible apply Untouched.step (k := modSc_frame ..); case i => decide)
    | split

theorem readOp_frame (idx : Nat) (sub : Nat) (ty : Nat) (off : Nat) (max : Nat) (_n : Nat) (s : State) :
    Untouched [.cad] s (readOp idx sub ty off max _n s).2 := by
  unfold readOp
  repeat' first
    | with_reducible exact Untouched.refl _ _
    | lift_lets -underBinder
    | (intro x; subst x)
    | (with_reducible apply Untouched.step (k := scRead_frame ..); case i => decide)
    | split

theorem readState_frame (h : Hdr) (idx : Nat) (sub : Nat) (ty : Nat) (off : Nat) (max : Nat) (s : State) :
    Untouched [.outbox, .sess, .cad, .ring, .recd] s (readState h idx sub ty off max s) := by
  unfold readState
  repeat' first
    | with_reducible assumption
    | with_reducible exact Untouched.refl _ _
    | lift_lets -underBinder
    | (with_reducible apply Untouched.step (k := readOp_frame ..); case i => decide)
    | with_reducible refine request_frame _ _ _ (by decide) (fun n t ht => ?_) ?_

end Sys2Proof.Machine
end

