-- ==== Sys2Proof/Laws/FrameMessages.lean ====
section
/-! SUPPORT. The frame of every operation of Machine/Messages.lean: the parts of the state it may touch. -/

set_option Elab.async false

namespace Sys2Proof.Machine

theorem serveObject_frame (h : Hdr) (write : Bool) (b : List Byte) (s : State) :
    Untouched [.freeN, .outbox, .config, .clk, .pwr, .sess, .img, .prog, .eng, .cad, .ring, .dio, .aio, .mot, .can, .safe, .sio, .pair, .recd, .mgmt, .retired] s (serveObject h write b s) := by
  unfold serveObject
  repeat' first
    | with_reducible exact Untouched.refl _ _
    | (with_reducible apply Untouched.step (k := readState_frame ..); case i => decide)
    | (with_reducible apply Untouched.step (k := writeObjectState_frame ..); case i => decide)
    | split

theorem serveMsg_frame (m : Msg) (s : State) :
    Untouched [.freeN, .outbox, .config, .clk, .pwr, .sess, .img, .prog, .eng, .cad, .ring, .dio, .aio, .mot, .can, .safe, .sio, .pair, .recd, .mgmt, .retired] s (serveMsg m s) := by
  unfold serveMsg
  repeat' first
    | with_reducible exact Untouched.refl _ _
    | (with_reducible apply Untouched.step (k := authState_frame ..); case i => decide)
    | (with_reducible apply Untouched.step (k := closeState_frame ..); case i => decide)
    | (with_reducible apply Untouched.step (k := keepaliveState_frame ..); case i => decide)
    | (with_reducible apply Untouched.step (k := openReqState_frame ..); case i => decide)
    | (with_reducible apply Untouched.step (k := serveObject_frame ..); case i => decide)
    | (with_reducible apply Untouched.step (k := txnAbortState_frame ..); case i => decide)
    | (with_reducible apply Untouched.step (k := txnBeginState_frame ..); case i => decide)
    | split

theorem serveWaiting_frame (s : State) :
    Untouched [.freeN, .outbox, .config, .clk, .pwr, .sess, .img, .prog, .eng, .cad, .ring, .dio, .aio, .mot, .can, .safe, .sio, .pair, .recd, .mgmt, .retired] s (serveWaiting s) := by
  unfold serveWaiting
  repeat' first
    | with_reducible assumption
    | with_reducible exact Untouched.refl _ _
    | lift_lets -underBinder
    | (intro x; subst x)
    | (with_reducible apply Untouched.step (k := serveMsg_frame ..); case i => decide)
    | split
    | with_reducible refine Untouched.foldl (fun t x ht => ?_) _ _ ?_
    | with_reducible refine Untouched.put ?_

end Sys2Proof.Machine
end

