-- ==== Sys2Proof/Laws/Stores.lean ====
section
/-! SUPPORT. The stores of the module stay within their bounds, and its byte stores in their canonical form. -/

set_option Elab.async false

namespace Sys2Proof.Machine

theorem nil_length {α : Type} (n : Nat) : ([] : List α).length ≤ n := Nat.zero_le _

theorem gaspLast_length (l : List Gasp) : (gaspLast l).length ≤ 16 := by
  simp only [gaspLast, List.length_drop]; omega

theorem gaspPush_length (g : Gasp) (l : List Gasp) : (gaspPush g l).length ≤ 16 := gaspLast_length _

theorem refused_none_wf : Memory.wf (((none : Option (Tbl (List Byte) × Memory)).map Prod.snd).getD []) = true := rfl

theorem initMemory_wf (f : Forme) (r : Bool) : Memory.wf (initMemory f r) = true :=
  Memory.wf_foldl _ (fun m v h => by split <;> first | exact Memory.wf_writeN _ _ _ h | exact h) _ _ Memory.wf_nil

theorem writeAll_wf {m : Memory} (w : Tbl Byte) (h : Memory.wf m = true) : Memory.wf (writeAll m w) = true :=
  Memory.wf_foldl _ (fun _ _ h => Memory.wf_write _ _ _ h) _ _ h

theorem retainedInsts_wf (f : Forme) (m : Memory) : Memory.wf (retainedInsts f m) = true :=
  Memory.wf_foldl _ (fun m v h => by split <;> first | exact Memory.wf_writeN _ _ _ h | exact h) _ _ Memory.wf_nil

theorem initInsts_wf (f : Forme) : Memory.wf (f.insts.foldl (fun m i => Memory.writeN m i.offset i.init) []) = true :=
  Memory.wf_foldl _ (fun _ _ h => Memory.wf_writeN _ _ _ h) _ _ Memory.wf_nil

theorem initPlain_wf (f : Forme) : Memory.wf (initPlain f) = true :=
  Memory.wf_foldl _ (fun _ _ h => Memory.wf_writeN _ _ _ h) _ _ (initInsts_wf f)

/-- The byte stores of a migration are in their canonical form. -/
def Migrated.wf (m : Migrated) : Prop := Memory.wf m.inst = true ∧ Memory.wf m.glob = true ∧ Memory.wf m.ret = true

theorem Migrated.wf_foldl {α : Type} (f : Migrated → α → Migrated) (hf : ∀ m x, m.wf → (f m x).wf) (l : List α) :
    ∀ m : Migrated, m.wf → (l.foldl f m).wf := by
  induction l with
  | nil => intro m h; exact h
  | cons x r ih => intro m h; exact ih _ (hf m x h)

theorem migrateInst_wf (old new : Forme) (p : Prog) (i : InstRec) (m : Migrated) (h : m.wf) : (migrateInst old new p i m).wf := by
  unfold migrateInst
  split
  · exact ⟨Memory.wf_writeN _ _ _ h.1, h.2⟩
  · dsimp only
    split <;> exact ⟨Memory.wf_writeN _ _ _ h.1, h.2⟩

theorem migrateVar_wf (old : Forme) (p : Prog) (v : VarRec) (m : Migrated) (h : m.wf) : (migrateVar old p v m).wf := by
  unfold migrateVar Migrated.note
  dsimp only
  split
  · split <;> split <;> first | exact ⟨h.1, h.2.1, Memory.wf_writeN _ _ _ h.2.2⟩ | exact ⟨h.1, Memory.wf_writeN _ _ _ h.2.1, h.2.2⟩
  · split <;> first | exact ⟨h.1, h.2.1, Memory.wf_writeN _ _ _ h.2.2⟩ | exact ⟨h.1, Memory.wf_writeN _ _ _ h.2.1, h.2.2⟩

theorem migrateChart_wf (old : Forme) (p : Prog) (r : ChartRec) (m : Migrated) (h : m.wf) : (migrateChart old p r m).wf := by
  unfold migrateChart Migrated.note
  dsimp only
  split
  · split <;> exact h
  · exact h

theorem migrate_wf (old new : Forme) (p : Prog) : (migrate old new p).wf := by
  unfold migrate Migrated.note
  dsimp only
  refine Migrated.wf_foldl _ (fun m x h => by split <;> exact ⟨h.1, h.2.1, h.2.2⟩) _ _ ?_
  refine Migrated.wf_foldl _ (fun m x h => by split <;> exact ⟨h.1, h.2.1, h.2.2⟩) _ _ ?_
  refine Migrated.wf_foldl _ (fun m x h => by split <;> exact ⟨h.1, h.2.1, h.2.2⟩) _ _ ?_
  refine Migrated.wf_foldl _ (fun m x h => migrateChart_wf _ _ _ _ h) _ _ ?_
  refine Migrated.wf_foldl _ (fun m x h => migrateVar_wf _ _ _ _ h) _ _ ?_
  exact Migrated.wf_foldl _ (fun m x h => migrateInst_wf _ _ _ _ _ h) _ _ ⟨Memory.wf_nil, Memory.wf_nil, Memory.wf_nil⟩

theorem migrate_inst_wf (old new : Forme) (p : Prog) : Memory.wf (migrate old new p).inst = true := (migrate_wf old new p).1

theorem migrate_glob_wf (old new : Forme) (p : Prog) : Memory.wf (migrate old new p).glob = true := (migrate_wf old new p).2.1

theorem migrate_ret_wf (old new : Forme) (p : Prog) : Memory.wf (migrate old new p).ret = true := (migrate_wf old new p).2.2

end Sys2Proof.Machine
end

