-- ==== Sys2Proof/Laws/Kept.lean ====
section
/-! SUPPORT. What no operation undoes, in one relation: the bounds of `Sound` are kept and what `Lasting` names stands.
One lemma for each way an operation is built. -/

set_option Elab.async false

namespace Sys2Proof.Machine

/-- From `s` to `t` nothing of `Lasting` is undone, and bounds that held still hold. -/
structure Kept (a : Allow) (s t : State) : Prop where
  lasting : Lasting a s t
  sound : Sound s → Sound t

theorem Lasting.refl (a : Allow) (s : State) : Lasting a s s :=
  ⟨rfl, rfl, List.suffix_refl _, List.suffix_refl _, Nat.le_refl _, fun _ _ h => h, fun _ => rfl, fun _ => rfl, fun _ => rfl⟩

theorem Lasting.trans {a : Allow} {s t u : State} (h : Lasting a s t) (k : Lasting a t u) : Lasting a s u :=
  ⟨k.now.trans h.now, k.pending.trans h.pending, h.outbox.trans k.outbox, h.remapped.trans k.remapped, Nat.le_trans h.used k.used,
    fun e r m => k.retired e r (h.retired e r m), fun e => (k.boot e).trans (h.boot e),
    fun e => (k.posB e).trans (h.posB e), fun e => (k.pres e).trans (h.pres e)⟩

theorem Kept.refl (a : Allow) (s : State) : Kept a s s := ⟨Lasting.refl a s, id⟩

theorem Kept.trans {a : Allow} {s t u : State} (h : Kept a s t) (k : Kept a t u) : Kept a s u :=
  ⟨h.lasting.trans k.lasting, fun x => k.sound (h.sound x)⟩

theorem Kept.of_snd {a : Allow} {α : Type} {s t : State} {p : α × State} {y : α} (h : Kept a s p.2) (e : p = (y, t)) :
    Kept a s t := by
  subst e; exact h

/-- An operation that changes none of the things spoken of. -/
theorem Kept.upd {a : Allow} {s t u : State} (h : Kept a s t) (e1 : u.now = t.now) (e2 : u.pending = t.pending)
    (e3 : u.outbox = t.outbox) (e4 : u.sram = t.sram) (e5 : u.retired = t.retired) (e6 : u.pwr.boot = t.pwr.boot)
    (e7 : u.pwr.posB = t.pwr.posB) (e8 : u.pwr.presLow = t.pwr.presLow) (e9 : u.recd.queue = t.recd.queue)
    (e10 : u.recd.gasp = t.recd.gasp) (e11 : u.sess.leases = t.sess.leases) (e12 : u.ring.hsrSeq = t.ring.hsrSeq)
    (e13 : u.prog.inst = t.prog.inst) (e14 : u.prog.glob = t.prog.glob) (e15 : u.prog.ret = t.prog.ret)
    (e16 : u.prog.store = t.prog.store) (e17 : u.prog.storeInst = t.prog.storeInst) (e18 : u.sess.bulk = t.sess.bulk)
    (e19 : u.safe.formeBytes = t.safe.formeBytes) (e20 : u.safe.plain = t.safe.plain)
    (e21 : u.sess.refused = t.sess.refused) : Kept a s u := by
  refine h.trans ⟨⟨e1, e2, ?_, ?_, e4 ▸ Nat.le_refl _, ?_, fun _ => e6, fun _ => e7, fun _ => e8⟩, fun k => ?_⟩
  · exact e3 ▸ List.suffix_refl _
  · exact e4 ▸ List.suffix_refl _
  · intro _ r hr; rw [e5]; exact hr
  · exact ⟨e9 ▸ k.queue, e10 ▸ k.gasp, e11 ▸ k.leases, e12 ▸ k.hsr, e4 ▸ k.spare, by simpa [retiredNames, e5] using k.retiredOnce,
      e13 ▸ k.inst, e14 ▸ k.glob, e15 ▸ k.ret, e16 ▸ k.store, e17 ▸ k.storeInst, e18 ▸ k.bulk, e21 ▸ k.refused, e19 ▸ k.formeBytes,
      e20 ▸ k.plain⟩

/-- An operation that writes a record of the state and changes none of the things spoken of. -/
theorem Kept.put {a : Allow} {s t : State} (h : Kept a s t) {p n fn o c ck pw se im pr en cd ri di ai mo cn sa si pa re mg rt sr}
    (e1 : n = t.now := by rfl) (e2 : p = t.pending := by rfl) (e3 : o = t.outbox := by rfl) (e4 : sr = t.sram := by rfl) (e5 : rt = t.retired := by rfl)
    (e6 : pw.boot = t.pwr.boot := by rfl) (e7 : pw.posB = t.pwr.posB := by rfl) (e8 : pw.presLow = t.pwr.presLow := by rfl)
    (e9 : re.queue = t.recd.queue := by rfl) (e10 : re.gasp = t.recd.gasp := by rfl) (e11 : se.leases = t.sess.leases := by rfl)
    (e12 : ri.hsrSeq = t.ring.hsrSeq := by rfl) (e13 : pr.inst = t.prog.inst := by rfl) (e14 : pr.glob = t.prog.glob := by rfl)
    (e15 : pr.ret = t.prog.ret := by rfl) (e16 : pr.store = t.prog.store := by rfl) (e17 : pr.storeInst = t.prog.storeInst := by rfl)
    (e18 : se.bulk = t.sess.bulk := by rfl) (e19 : sa.formeBytes = t.safe.formeBytes := by rfl) (e20 : sa.plain = t.safe.plain := by rfl)
    (e21 : se.refused = t.sess.refused := by rfl) :
    Kept a s (State.mk p n fn o c ck pw se im pr en cd ri di ai mo cn sa si pa re mg rt sr) :=
  h.upd e1 e2 e3 e4 e5 e6 e7 e8 e9 e10 e11 e12 e13 e14 e15 e16 e17 e18 e19 e20 e21

/-- An operation that writes a record of the state and keeps each bound in its own way. -/
theorem Kept.putW {a : Allow} {s t : State} (h : Kept a s t) {p n fn o c ck pw se im pr en cd ri di ai mo cn sa si pa re mg rt sr}
    (e1 : n = t.now := by rfl)
    (e2 : p = t.pending := by rfl)
    (e3 : o = t.outbox := by rfl)
    (e4 : sr = t.sram := by rfl)
    (e5 : rt = t.retired := by rfl)
    (e6 : pw.boot = t.pwr.boot := by rfl)
    (e7 : pw.posB = t.pwr.posB := by rfl)
    (e8 : pw.presLow = t.pwr.presLow := by rfl)
    (e9 : t.recd.queue.length ≤ 256 → re.queue.length ≤ 256 := by
      first
        | exact id
        | exact (fun _ => nil_length _)
        | exact (fun _ => List.length_take_le _ _)
        | exact fun _ => gaspPush_length _ _
        | exact fun _ => gaspLast_length _)
    (e10 : t.recd.gasp.length ≤ 16 → re.gasp.length ≤ 16 := by
      first
        | exact id
        | exact (fun _ => nil_length _)
        | exact (fun _ => List.length_take_le _ _)
        | exact fun _ => gaspPush_length _ _
        | exact fun _ => gaspLast_length _)
    (e11 : t.sess.leases.length ≤ 16 → se.leases.length ≤ 16 := by
      first
        | exact id
        | exact (fun _ => nil_length _)
        | exact (fun _ => List.length_take_le _ _)
        | exact fun _ => gaspPush_length _ _
        | exact fun _ => gaspLast_length _)
    (e12 : t.ring.hsrSeq < 2 ^ 16 → ri.hsrSeq < 2 ^ 16 := by
      first
        | exact id
        | exact (fun _ => Nat.mod_lt _ (by decide)))
    (e13 : Memory.wf t.prog.inst = true → Memory.wf pr.inst = true := by
      first
        | exact id
        | exact (fun _ => Memory.wf_nil)
        | exact (fun _ => Memory.wf_norm _)
        | exact Memory.wf_writeN _ _ _
        | exact writeAll_wf _
        | exact (fun _ => initPlain_wf _)
        | exact (fun _ => initMemory_wf _ _)
        | exact (fun _ => migrate_inst_wf _ _ _)
        | exact (fun _ => migrate_glob_wf _ _ _)
        | exact (fun _ => migrate_ret_wf _ _ _))
    (e14 : Memory.wf t.prog.glob = true → Memory.wf pr.glob = true := by
      first
        | exact id
        | exact (fun _ => Memory.wf_nil)
        | exact (fun _ => Memory.wf_norm _)
        | exact Memory.wf_writeN _ _ _
        | exact writeAll_wf _
        | exact (fun _ => initPlain_wf _)
        | exact (fun _ => initMemory_wf _ _)
        | exact (fun _ => migrate_inst_wf _ _ _)
        | exact (fun _ => migrate_glob_wf _ _ _)
        | exact (fun _ => migrate_ret_wf _ _ _))
    (e15 : Memory.wf t.prog.ret = true → Memory.wf pr.ret = true := by
      first
        | exact id
        | exact (fun _ => Memory.wf_nil)
        | exact (fun _ => Memory.wf_norm _)
        | exact Memory.wf_writeN _ _ _
        | exact writeAll_wf _
        | exact (fun _ => initPlain_wf _)
        | exact (fun _ => initMemory_wf _ _)
        | exact (fun _ => migrate_inst_wf _ _ _)
        | exact (fun _ => migrate_glob_wf _ _ _)
        | exact (fun _ => migrate_ret_wf _ _ _))
    (e16 : Sound t → Memory.wf pr.store = true := by
      first
        | exact Sound.store
        | exact Sound.storeInst
        | exact Sound.ret
        | exact fun _ => retainedInsts_wf _ _
        | exact fun _ => Memory.wf_norm _)
    (e17 : Sound t → Memory.wf pr.storeInst = true := by
      first
        | exact Sound.store
        | exact Sound.storeInst
        | exact Sound.ret
        | exact fun _ => retainedInsts_wf _ _
        | exact fun _ => Memory.wf_norm _)
    (e18 : Memory.wf t.sess.bulk = true → Memory.wf se.bulk = true := by
      first
        | exact id
        | exact (fun _ => Memory.wf_nil)
        | exact (fun _ => Memory.wf_norm _)
        | exact Memory.wf_writeN _ _ _
        | exact writeAll_wf _
        | exact (fun _ => initPlain_wf _)
        | exact (fun _ => initMemory_wf _ _)
        | exact (fun _ => migrate_inst_wf _ _ _)
        | exact (fun _ => migrate_glob_wf _ _ _)
        | exact (fun _ => migrate_ret_wf _ _ _))
    (e19 : Memory.wf t.safe.formeBytes = true → Memory.wf sa.formeBytes = true := by
      first
        | exact id
        | exact (fun _ => Memory.wf_nil)
        | exact (fun _ => Memory.wf_norm _)
        | exact Memory.wf_writeN _ _ _
        | exact writeAll_wf _
        | exact (fun _ => initPlain_wf _)
        | exact (fun _ => initMemory_wf _ _)
        | exact (fun _ => migrate_inst_wf _ _ _)
        | exact (fun _ => migrate_glob_wf _ _ _)
        | exact (fun _ => migrate_ret_wf _ _ _))
    (e20 : Memory.wf t.safe.plain = true → Memory.wf sa.plain = true := by
      first
        | exact id
        | exact (fun _ => Memory.wf_nil)
        | exact (fun _ => Memory.wf_norm _)
        | exact Memory.wf_writeN _ _ _
        | exact writeAll_wf _
        | exact (fun _ => initPlain_wf _)
        | exact (fun _ => initMemory_wf _ _)
        | exact (fun _ => migrate_inst_wf _ _ _)
        | exact (fun _ => migrate_glob_wf _ _ _)
        | exact (fun _ => migrate_ret_wf _ _ _))
    (e21 : Sound t → Memory.wf ((se.refused.map Prod.snd).getD []) = true := by
      first
        | exact Sound.refused
        | exact fun _ => refused_none_wf) :
    Kept a s (State.mk p n fn o c ck pw se im pr en cd ri di ai mo cn sa si pa re mg rt sr) := by
  subst e1 e2 e3 e4 e5
  refine h.trans ⟨⟨rfl, rfl, List.suffix_refl _, List.suffix_refl _, Nat.le_refl _, fun _ _ m => m, fun _ => e6, fun _ => e7, fun _ => e8⟩,
    fun k => ⟨e9 k.queue, e10 k.gasp, e11 k.leases, e12 k.hsr, k.spare, k.retiredOnce, e13 k.inst, e14 k.glob, e15 k.ret,
      e16 k, e17 k, e18 k.bulk, e21 k, e19 k.formeBytes, e20 k.plain⟩⟩

theorem Kept.foldl {a : Allow} {s : State} {α : Type} {f : State → α → State} (hf : ∀ t x, Kept a s t → Kept a s (f t x)) :
    ∀ (l : List α) (t : State), Kept a s t → Kept a s (l.foldl f t)
  | [], _, h => h
  | x :: l, t, h => Kept.foldl hf l (f t x) (hf t x h)

theorem forAll_kept {a : Allow} {s : State} {l : List Nat} {f : Nat → State → State} {t : State}
    (hf : ∀ n t, Kept a s t → Kept a s (f n t)) (h : Kept a s t) : Kept a s (forAll l f t) :=
  Kept.foldl (fun t n => hf n t) l t h

end Sys2Proof.Machine
end

