-- ==== Sys2Proof/Laws/KeptOps.lean ====
section
/-! SUPPORT. Every operation of Machine/Ops.lean keeps what `Kept` names. -/

set_option Elab.async false

namespace Sys2Proof.Machine

theorem countSeq_hsrSeq (x : Sent) (r : Ring) : (countSeq x r).hsrSeq = r.hsrSeq := by
  unfold countSeq; split <;> rfl

theorem setRate_kept {al : Allow} {s0 : State} (rate : Int) {s : State} (hk : Kept al s0 s) :
    Kept al s0 (setRate rate s) := by
  unfold setRate
  repeat' first
    | with_reducible assumption
    | lift_lets -underBinder
    | (intro x; subst x)
    | with_reducible refine Kept.put ?_

theorem stepTime_kept {al : Allow} {s0 : State} (d : Int) {s : State} (hk : Kept al s0 s) :
    Kept al s0 (stepTime d s) := by
  unfold stepTime
  repeat' first
    | with_reducible assumption
    | lift_lets -underBinder
    | (intro x; subst x)
    | with_reducible refine Kept.put ?_

theorem setCfg_kept {al : Allow} {s0 : State} (idx : Nat) (sub : Nat) (v : List Byte) {s : State} (hk : Kept al s0 s) :
    Kept al s0 (setCfg idx sub v s) := by
  unfold setCfg
  repeat' first | with_reducible assumption | with_reducible refine Kept.put ?_

theorem draw_kept {al : Allow} {s0 : State} {s : State} (hk : Kept al s0 s) :
    Kept al s0 (draw s).2 := by
  unfold draw
  repeat' first | with_reducible assumption | dsimp -zeta only | with_reducible refine Kept.put ?_

theorem send_kept {a : Allow} {s0 : State} (x : Sent) {s : State} (h : Kept a s0 s) : Kept a s0 (send x s) := by
  refine h.trans ⟨⟨rfl, rfl, ⟨[framed s x], rfl⟩, List.suffix_refl _, Nat.le_refl _, fun _ _ m => m, fun _ => rfl, fun _ => rfl, fun _ => rfl⟩,
    fun k => ⟨k.queue, k.gasp, k.leases, ?_, k.spare, k.retiredOnce, k.inst, k.glob, k.ret, k.store, k.storeInst, k.bulk,
      k.refused, k.formeBytes, k.plain⟩⟩
  show (if onRing x then _ else _ : Ring).hsrSeq < 2 ^ 16
  split
  · exact Nat.mod_lt _ (by decide)
  · rw [countSeq_hsrSeq]; exact k.hsr

theorem enqueue_kept {a : Allow} {s0 : State} (q : QRec) {s : State} (h : Kept a s0 s) : Kept a s0 (enqueue q s) := by
  unfold enqueue
  split
  · rename_i hl
    refine h.trans ⟨⟨rfl, rfl, List.suffix_refl _, List.suffix_refl _, Nat.le_refl _, fun _ _ m => m, fun _ => rfl, fun _ => rfl, fun _ => rfl⟩,
      fun k => ⟨?_, k.gasp, k.leases, k.hsr, k.spare, k.retiredOnce, k.inst, k.glob, k.ret, k.store, k.storeInst, k.bulk, k.refused,
        k.formeBytes, k.plain⟩⟩
    simp only [List.length_append, List.length_cons, List.length_nil]; omega
  · exact Kept.put h

theorem emit_kept {a : Allow} {s0 : State} (code src : Nat) (data : List Byte) {s : State} (h : Kept a s0 s) :
    Kept a s0 (emit code src data s) := by
  simp only [emit]
  split
  · refine h.trans ⟨⟨rfl, rfl, List.suffix_refl _, List.suffix_refl _, Nat.le_refl _, fun _ _ m => m, fun _ => rfl, fun _ => rfl, fun _ => rfl⟩,
      fun k => ⟨k.queue, gaspPush_length _ _, k.leases, k.hsr, k.spare, k.retiredOnce, k.inst, k.glob, k.ret, k.store,
        k.storeInst, k.bulk, k.refused, k.formeBytes, k.plain⟩⟩
  · split
    · refine enqueue_kept _ ?_
      split
      · refine enqueue_kept _ ?_
        exact Kept.put h
      · exact Kept.put h
    · exact Kept.put h

theorem countRecord_kept {al : Allow} {s0 : State} (acked : Bool) {s : State} (hk : Kept al s0 s) :
    Kept al s0 (countRecord acked s) := by
  unfold countRecord
  repeat' first
    | with_reducible assumption
    | lift_lets -underBinder
    | (intro x; subst x)
    | split
    | with_reducible refine Kept.put ?_

theorem sendSync_kept {al : Allow} {s0 : State} (kind : Nat) (content : List Nat) {s : State} (hk : Kept al s0 s) :
    Kept al s0 (sendSync kind content s) := by
  unfold sendSync
  repeat' first
    | with_reducible assumption
    | lift_lets -underBinder
    | (intro x; have hx : Kept al s0 x := (by
        subst x
        repeat' first | with_reducible assumption | with_reducible apply countRecord_kept); clear_value x)
    | with_reducible apply send_kept

theorem passChange_kept {al : Allow} {s0 : State} (c : Change) {s : State} (hk : Kept al s0 s) :
    Kept al s0 (passChange c s) := by
  unfold passChange
  repeat' first
    | with_reducible assumption
    | lift_lets -underBinder
    | (intro x; have hx : Kept al s0 x := (by
        subst x
        repeat' first | with_reducible assumption | with_reducible apply countRecord_kept); clear_value x)
    | with_reducible apply send_kept
    | split

theorem sendAck_kept {al : Allow} {s0 : State} (seq : Nat) (result : Nat) {s : State} (hk : Kept al s0 s) :
    Kept al s0 (sendAck seq result s) := by
  unfold sendAck
  repeat' first | with_reducible assumption | with_reducible apply sendSync_kept

theorem enterPair_kept {al : Allow} {s0 : State} (st : PairState) {s : State} (hk : Kept al s0 s) :
    Kept al s0 (enterPair st s) := by
  unfold enterPair
  repeat' first
    | with_reducible assumption
    | lift_lets -underBinder
    | (intro x; have hx : Kept al s0 x := (by
        subst x
        repeat' first | with_reducible assumption | with_reducible refine Kept.put ?_); clear_value x)
    | (intro x; subst x)
    | with_reducible apply emit_kept
    | split

theorem listRetired_kept {a : Allow} {s0 : State} (kind n : Nat) (cal : Bool) {s : State} (h : Kept a s0 s) :
    Kept a s0 (listRetired kind n cal s) := by
  unfold listRetired
  split
  · exact h
  · rename_i hn
    refine emit_kept _ _ _ (h.trans ⟨⟨rfl, rfl, List.suffix_refl _, List.suffix_refl _, Nat.le_refl _,
      fun _ r m => List.mem_append_left _ m, fun _ => rfl, fun _ => rfl, fun _ => rfl⟩,
      fun k => ⟨k.queue, k.gasp, k.leases, k.hsr, k.spare, ?_, k.inst, k.glob, k.ret, k.store, k.storeInst, k.bulk, k.refused,
        k.formeBytes, k.plain⟩⟩)
    simp only [retiredNames, List.map_append, List.map_cons, List.map_nil, List.nodup_append]
    refine ⟨k.retiredOnce, by simp, ?_⟩
    intro x hx y hy e
    simp only [List.mem_cons, List.not_mem_nil, or_false] at hy
    subst hy; subst e
    obtain ⟨r, hr, e⟩ := List.mem_map.1 hx
    refine hn (List.any_eq_true.2 ⟨r, hr, ?_⟩)
    simp only [Prod.mk.injEq] at e
    simp [e.1, e.2]

theorem modDio_kept {al : Allow} {s0 : State} (ch : Nat) (f : Dio → Dio) {s : State} (hk : Kept al s0 s) :
    Kept al s0 (modDio ch f s) := by
  unfold modDio
  repeat' first
    | with_reducible assumption
    | lift_lets -underBinder
    | (intro x; subst x)
    | with_reducible refine Kept.put ?_

theorem modBank_kept {al : Allow} {s0 : State} (b : Nat) (f : Bank → Bank) {s : State} (hk : Kept al s0 s) :
    Kept al s0 (modBank b f s) := by
  unfold modBank
  repeat' first
    | with_reducible assumption
    | lift_lets -underBinder
    | (intro x; subst x)
    | with_reducible refine Kept.put ?_

theorem modAio_kept {al : Allow} {s0 : State} (ch : Nat) (f : Aio → Aio) {s : State} (hk : Kept al s0 s) :
    Kept al s0 (modAio ch f s) := by
  unfold modAio
  repeat' first | with_reducible assumption | with_reducible refine Kept.put ?_

theorem modAxis_kept {al : Allow} {s0 : State} (n : Nat) (f : Axis → Axis) {s : State} (hk : Kept al s0 s) :
    Kept al s0 (modAxis n f s) := by
  unfold modAxis
  repeat' first
    | with_reducible assumption
    | lift_lets -underBinder
    | (intro x; subst x)
    | with_reducible refine Kept.put ?_

theorem modPort_kept {al : Allow} {s0 : State} (p : Nat) (f : CanPort → CanPort) {s : State} (hk : Kept al s0 s) :
    Kept al s0 (modPort p f s) := by
  unfold modPort
  repeat' first
    | with_reducible assumption
    | lift_lets -underBinder
    | (intro x; subst x)
    | with_reducible refine Kept.put ?_

theorem modBuf_kept {al : Allow} {s0 : State} (p : Nat) (b : Nat) (f : CanBuf → CanBuf) {s : State} (hk : Kept al s0 s) :
    Kept al s0 (modBuf p b f s) := by
  unfold modBuf
  repeat' first
    | with_reducible assumption
    | lift_lets -underBinder
    | (intro x; subst x)
    | with_reducible refine Kept.put ?_

theorem modSession_kept {al : Allow} {s0 : State} (n : Nat) (f : Session → Session) {s : State} (hk : Kept al s0 s) :
    Kept al s0 (modSession n f s) := by
  unfold modSession
  repeat' first
    | with_reducible assumption
    | lift_lets -underBinder
    | (intro x; subst x)
    | with_reducible refine Kept.put ?_

theorem modSlot_kept {al : Allow} {s0 : State} (k : Nat) (f : Slot → Slot) {s : State} (hk : Kept al s0 s) :
    Kept al s0 (modSlot k f s) := by
  unfold modSlot
  repeat' first
    | with_reducible assumption
    | lift_lets -underBinder
    | (intro x; subst x)
    | with_reducible refine Kept.put ?_

theorem modCmd_kept {al : Allow} {s0 : State} (c : Nat) (f : CmdObj → CmdObj) {s : State} (hk : Kept al s0 s) :
    Kept al s0 (modCmd c f s) := by
  unfold modCmd
  repeat' first
    | with_reducible assumption
    | lift_lets -underBinder
    | (intro x; subst x)
    | with_reducible refine Kept.put ?_

theorem modTask_kept {al : Allow} {s0 : State} (k : Nat) (f : Task → Task) {s : State} (hk : Kept al s0 s) :
    Kept al s0 (modTask k f s) := by
  unfold modTask
  repeat' first
    | with_reducible assumption
    | lift_lets -underBinder
    | (intro x; subst x)
    | with_reducible refine Kept.put ?_

theorem modLoop_kept {al : Allow} {s0 : State} (n : Nat) (f : Loop → Loop) {s : State} (hk : Kept al s0 s) :
    Kept al s0 (modLoop n f s) := by
  unfold modLoop
  repeat' first
    | with_reducible assumption
    | lift_lets -underBinder
    | (intro x; subst x)
    | with_reducible refine Kept.put ?_

theorem modTracker_kept {al : Allow} {s0 : State} (n : Nat) (f : Tracker → Tracker) {s : State} (hk : Kept al s0 s) :
    Kept al s0 (modTracker n f s) := by
  unfold modTracker
  repeat' first
    | with_reducible assumption
    | lift_lets -underBinder
    | (intro x; subst x)
    | with_reducible refine Kept.put ?_

theorem modSched_kept {al : Allow} {s0 : State} (n : Nat) (f : SlotSt → SlotSt) {s : State} (hk : Kept al s0 s) :
    Kept al s0 (modSched n f s) := by
  unfold modSched
  repeat' first
    | with_reducible assumption
    | lift_lets -underBinder
    | (intro x; subst x)
    | with_reducible refine Kept.put ?_

theorem modSc_kept {al : Allow} {s0 : State} (n : Nat) (f : Sc → Sc) {s : State} (hk : Kept al s0 s) :
    Kept al s0 (modSc n f s) := by
  unfold modSc
  repeat' first
    | with_reducible assumption
    | lift_lets -underBinder
    | (intro x; subst x)
    | with_reducible refine Kept.put ?_

theorem modNode_kept {al : Allow} {s0 : State} (n : Nat) (f : Node → Node) {s : State} (hk : Kept al s0 s) :
    Kept al s0 (modNode n f s) := by
  unfold modNode
  repeat' first
    | with_reducible assumption
    | lift_lets -underBinder
    | (intro x; subst x)
    | with_reducible refine Kept.put ?_

theorem modTerm_kept {al : Allow} {s0 : State} (n : Nat) (f : Terminal → Terminal) {s : State} (hk : Kept al s0 s) :
    Kept al s0 (modTerm n f s) := by
  unfold modTerm
  repeat' first
    | with_reducible assumption
    | lift_lets -underBinder
    | (intro x; subst x)
    | with_reducible refine Kept.put ?_

theorem modSf_kept {al : Allow} {s0 : State} (n : Nat) (f : SfInst → SfInst) {s : State} (hk : Kept al s0 s) :
    Kept al s0 (modSf n f s) := by
  unfold modSf
  repeat' first
    | with_reducible assumption
    | lift_lets -underBinder
    | (intro x; subst x)
    | with_reducible refine Kept.put ?_

theorem modTp_kept {al : Allow} {s0 : State} (n : Nat) (f : TpSource → TpSource) {s : State} (hk : Kept al s0 s) :
    Kept al s0 (modTp n f s) := by
  unfold modTp
  repeat' first
    | with_reducible assumption
    | lift_lets -underBinder
    | (intro x; subst x)
    | with_reducible refine Kept.put ?_

theorem modStage_kept {al : Allow} {s0 : State} (n : Nat) (f : SoStage → SoStage) {s : State} (hk : Kept al s0 s) :
    Kept al s0 (modStage n f s) := by
  unfold modStage
  repeat' first
    | with_reducible assumption
    | lift_lets -underBinder
    | (intro x; subst x)
    | with_reducible refine Kept.put ?_

end Sys2Proof.Machine
end

