-- ==== Sys2Proof/Laws/KeptImage.lean ====
section
/-! SUPPORT. Every operation of Machine/Image.lean keeps what `Kept` names. -/

set_option Elab.async false

namespace Sys2Proof.Machine

theorem landPoint_kept {al : Allow} {s0 : State} (p : Nat) (x : Pt) {s : State} (hk : Kept al s0 s) :
    Kept al s0 (landPoint p x s) := by
  unfold landPoint
  repeat' first
    | with_reducible assumption
    | lift_lets -underBinder
    | (intro x; subst x)
    | with_reducible refine Kept.put ?_

theorem produceAs_kept {al : Allow} {s0 : State} (p : Nat) (v : BitVec 32) (q : Nat) (ts : Int) {s : State} (hk : Kept al s0 s) :
    Kept al s0 (produceAs p v q ts s) := by
  unfold produceAs
  repeat' first | with_reducible assumption | with_reducible apply landPoint_kept | split

theorem produce_kept {al : Allow} {s0 : State} (p : Nat) (v : BitVec 32) (q : Nat) (ts : Int) {s : State} (hk : Kept al s0 s) :
    Kept al s0 (produce p v q ts s) := by
  unfold produce
  repeat' first | with_reducible assumption | with_reducible apply produceAs_kept

theorem produceForme_kept {al : Allow} {s0 : State} (p : Nat) (v : BitVec 32) (ts : Int) {s : State} (hk : Kept al s0 s) :
    Kept al s0 (produceForme p v ts s) := by
  unfold produceForme
  repeat' first
    | with_reducible assumption
    | with_reducible apply produce_kept
    | with_reducible apply produceAs_kept
    | split

theorem produceAllAs_kept {al : Allow} {s0 : State} (ps : List Nat) (v : BitVec 32) (q : Nat) (ts : Int) {s : State} (hk : Kept al s0 s) :
    Kept al s0 (produceAllAs ps v q ts s) := by
  unfold produceAllAs
  repeat' first
    | with_reducible assumption
    | lift_lets -underBinder
    | with_reducible apply produceAs_kept
    | with_reducible refine Kept.foldl (fun t x ht => ?_) _ _ ?_

theorem produceAll_kept {al : Allow} {s0 : State} (ps : List Nat) (v : BitVec 32) (q : Nat) (ts : Int) {s : State} (hk : Kept al s0 s) :
    Kept al s0 (produceAll ps v q ts s) := by
  unfold produceAll
  repeat' first
    | with_reducible assumption
    | lift_lets -underBinder
    | with_reducible apply produce_kept
    | with_reducible refine Kept.foldl (fun t x ht => ?_) _ _ ?_

theorem decideQual_kept {al : Allow} {s0 : State} (ps : List Nat) (q : Nat) {s : State} (hk : Kept al s0 s) :
    Kept al s0 (decideQual ps q s) := by
  unfold decideQual
  repeat' first
    | with_reducible assumption
    | lift_lets -underBinder
    | with_reducible apply produce_kept
    | with_reducible refine Kept.foldl (fun t x ht => ?_) _ _ ?_

theorem releasePoint_kept {al : Allow} {s0 : State} (p : Nat) (v : BitVec 32) {s : State} (hk : Kept al s0 s) :
    Kept al s0 (releasePoint p v s) := by
  unfold releasePoint
  repeat' first
    | with_reducible assumption
    | lift_lets -underBinder
    | (intro x; subst x)
    | with_reducible refine Kept.put ?_

theorem dropForce_kept {al : Allow} {s0 : State} (p : Nat) (variant : Nat) {s : State} (hk : Kept al s0 s) :
    Kept al s0 (dropForce p variant s) := by
  unfold dropForce
  repeat' first
    | with_reducible assumption
    | lift_lets -underBinder
    | (intro x; subst x)
    | with_reducible apply emit_kept
    | split
    | with_reducible refine Kept.put ?_

theorem applyMapping_kept {al : Allow} {s0 : State} (old : List (Nat × MapRec)) {s : State} (hk : Kept al s0 s) :
    Kept al s0 (applyMapping old s) := by
  unfold applyMapping
  repeat' first
    | with_reducible assumption
    | lift_lets -underBinder
    | (intro x; have hx : Kept al s0 x := (by
        subst x
        repeat' first
          | with_reducible assumption
          | lift_lets -underBinder
          | (intro x; subst x)
          | with_reducible apply dropForce_kept
          | with_reducible apply landPoint_kept
          | split
          | with_reducible refine Kept.foldl (fun t x ht => ?_) _ _ ?_
          | with_reducible refine Kept.put ?_); clear_value x)
    | (intro x; subst x)

theorem noteLanding_kept {al : Allow} {s0 : State} (l : Landing) {s : State} (hk : Kept al s0 s) :
    Kept al s0 (noteLanding l s) := by
  unfold noteLanding
  repeat' first
    | with_reducible assumption
    | lift_lets -underBinder
    | (intro x; subst x)
    | split
    | with_reducible refine Kept.put ?_

end Sys2Proof.Machine
end

