-- ==== Sys2Proof/Laws/KeptOperands.lean ====
section
/-! SUPPORT. Every operation of Machine/Operands.lean keeps what `Kept` names. -/

set_option Elab.async false

namespace Sys2Proof.Machine

theorem setLeases_kept {a : Allow} {s0 s : State} (h : Kept a s0 s) (l : List Lease) (hl : l.length ≤ s.sess.leases.length) :
    Kept a s0 { s with sess := { s.sess with leases := l } } :=
  h.trans ⟨⟨rfl, rfl, List.suffix_refl _, List.suffix_refl _, Nat.le_refl _, fun _ _ m => m, fun _ => rfl, fun _ => rfl, fun _ => rfl⟩,
    fun k => ⟨k.queue, k.gasp, Nat.le_trans hl k.leases, k.hsr, k.spare, k.retiredOnce, k.inst, k.glob, k.ret, k.store, k.storeInst, k.bulk, k.refused, k.formeBytes, k.plain⟩⟩

theorem endLease_kept {a : Allow} {s0 : State} (area : Nat) {s : State} (h : Kept a s0 s) :
    Kept a s0 (endLease area s) := by
  unfold endLease
  split
  · exact h
  · exact setLeases_kept (modSession_kept _ _ h) _ (List.length_filter_le _ _)

theorem pruneLeases_kept {al : Allow} {s0 : State} {s : State} (hk : Kept al s0 s) :
    Kept al s0 (pruneLeases s) := by
  unfold pruneLeases
  repeat' first
    | with_reducible assumption
    | lift_lets -underBinder
    | (intro _ t ht; try dsimp -zeta only)
    | with_reducible apply endLease_kept
    | with_reducible apply forAll_kept

theorem releaseKept_kept {al : Allow} {s0 : State} {s : State} (hk : Kept al s0 s) :
    Kept al s0 (releaseKept s) := by
  unfold releaseKept
  repeat' first
    | with_reducible assumption
    | lift_lets -underBinder
    | (intro x; subst x)
    | with_reducible apply pruneLeases_kept
    | with_reducible refine Kept.put ?_

theorem closeSession_kept {a : Allow} {s0 : State} (n cause : Nat) {s : State} (h : Kept a s0 s) :
    Kept a s0 (closeSession n cause s) := by
  unfold closeSession
  lift_lets
  intro areas keep s1 src s2
  have h1 : Kept a s0 s1 := forAll_kept (fun n t => endLease_kept n) h
  have h2 : Kept a s0 s2 := by
    refine h1.trans ⟨⟨rfl, rfl, List.suffix_refl _, List.suffix_refl _, Nat.le_refl _, fun _ _ m => m, fun _ => rfl, fun _ => rfl, fun _ => rfl⟩,
      fun k => ⟨k.queue, k.gasp, by
        show (List.map _ _).length ≤ 16
        rw [List.length_map]; exact k.leases, k.hsr, k.spare, k.retiredOnce, k.inst, k.glob, k.ret, k.store, k.storeInst, k.bulk, k.refused, k.formeBytes, k.plain⟩⟩
  clear_value s2
  exact Kept.put h2

theorem await_kept {al : Allow} {s0 : State} (m : Msg) {s : State} (hk : Kept al s0 s) :
    Kept al s0 (await m s) := by
  unfold await
  repeat' first
    | with_reducible assumption
    | lift_lets -underBinder
    | (intro x; subst x)
    | with_reducible refine Kept.put ?_

theorem answerDone_kept {al : Allow} {s0 : State} (ses : Session) (h : Hdr) (service : Nat) (a : Answer) {s : State} (hk : Kept al s0 s) :
    Kept al s0 (answerDone ses h service a s) := by
  unfold answerDone
  repeat' first
    | with_reducible assumption
    | lift_lets -underBinder
    | (intro x; subst x)
    | with_reducible apply modSession_kept
    | with_reducible apply send_kept
    | split

theorem answerOrWait_kept {al : Allow} {s0 : State} (ses : Session) (h : Hdr) (service : Nat) (a : Answer) {s : State} (hk : Kept al s0 s) :
    Kept al s0 (answerOrWait ses h service a s) := by
  unfold answerOrWait
  repeat' first
    | with_reducible assumption
    | lift_lets -underBinder
    | (intro x; subst x)
    | with_reducible apply answerDone_kept
    | split
    | with_reducible refine Kept.put ?_

theorem serve_kept {a : Allow} {s0 : State} (h : Hdr) (service : Nat) (body : List Byte) {f : Nat → State → Answer × State}
    (hf : ∀ n t, Kept a s0 t → Kept a s0 (f n t).2) {s : State} (k : Kept a s0 s) :
    Kept a s0 (serve h service body f s) := by
  unfold serve
  lift_lets
  intro n ses s1 s2
  have h1 : Kept a s0 s1 := modSession_kept _ _ k
  have h2 : Kept a s0 s2 := modSession_kept _ _ k
  clear_value s1 s2
  split
  · exact k
  split
  · exact await_kept _ k
  split
  · exact send_kept _ k
  split
  · exact send_kept _ k
  split
  · split
    · exact emit_kept _ _ _ (closeSession_kept _ _ h1)
    · exact h1
  split
  · split
    · exact send_kept _ h2
    · exact h2
  split
  · exact send_kept _ h2
  · exact answerOrWait_kept _ _ _ _ (hf _ _ h2)

theorem stage_kept {al : Allow} {s0 : State} (n : Nat) (idx : Nat) (sub : Nat) (off : Nat) (data : List Byte) {s : State} (hk : Kept al s0 s) :
    Kept al s0 (stage n idx sub off data s).2 := by
  unfold stage
  repeat' first | with_reducible assumption | with_reducible apply modSession_kept | split

theorem writeReq_kept {a : Allow} {s0 : State} (h : Hdr) (idx sub ty off : Nat) (data : List Byte)
    {act : Nat → State → Answer × State} (hf : ∀ n t, Kept a s0 t → Kept a s0 (act n t).2) {s : State} (k : Kept a s0 s) :
    Kept a s0 (writeReq h idx sub ty off data act s) := by
  unfold writeReq
  refine serve_kept _ _ _ (fun n t ht => ?_) k
  lift_lets
  intro t1
  have h1 : Kept a s0 t1 := pruneLeases_kept ht
  clear_value t1
  split
  · exact h1
  · split
    · exact stage_kept _ _ _ _ _ h1
    · exact hf _ _ h1

theorem cmdReq_kept {a : Allow} {s0 : State} (c : Cmd) (idx sub : Nat) (fixed : List Byte)
    {act : List Byte → Nat → State → Answer × State} (hf : ∀ d n t, Kept a s0 t → Kept a s0 (act d n t).2) {s : State}
    (k : Kept a s0 s) : Kept a s0 (cmdReq c idx sub fixed act s) :=
  writeReq_kept _ _ _ _ _ _ (hf _) k

end Sys2Proof.Machine
end

