-- ==== Sys2Proof/Laws/KeptSession.lean ====
section
/-! SUPPORT. Every operation of Machine/Session.lean keeps what `Kept` names. -/

set_option Elab.async false

namespace Sys2Proof.Machine

theorem closeDue_kept {al : Allow} {s0 : State} {s : State} (hk : Kept al s0 s) :
    Kept al s0 (closeDue s) := by
  unfold closeDue
  repeat' first
    | with_reducible assumption
    | lift_lets -underBinder
    | (intro _ t ht; try dsimp -zeta only)
    | with_reducible apply closeSession_kept
    | with_reducible apply forAll_kept
    | split

theorem request_kept {a : Allow} {s0 : State} (h : Hdr) (service : Nat) (body : List Byte) {f : Nat → State → Answer × State}
    (hf : ∀ n t, Kept a s0 t → Kept a s0 (f n t).2) {s : State} (k : Kept a s0 s) : Kept a s0 (request h service body f s) :=
  serve_kept _ _ _ hf (closeDue_kept k)

theorem openReqState_kept {al : Allow} {s0 : State} (path : Path) (peer : Nat) (slot : Nat) (role : Nat) (nonceH : List Byte) {s : State} (hk : Kept al s0 s) :
    Kept al s0 (openReqState path peer slot role nonceH s) := by
  unfold openReqState
  repeat' first
    | with_reducible assumption
    | lift_lets -underBinder
    | (intro x; have hx : Kept al s0 x := (by
        subst x
        repeat' first | with_reducible assumption | with_reducible apply closeDue_kept); clear_value x)
    | (intro x; subst x)
    | with_reducible apply await_kept
    | with_reducible apply draw_kept
    | with_reducible apply send_kept
    | split
    | with_reducible refine Kept.put ?_

theorem authFailed_kept {al : Allow} {s0 : State} (n : Nat) (ses : Session) (path : Path) (peer : Nat) {s : State} (hk : Kept al s0 s) :
    Kept al s0 (authFailed n ses path peer s) := by
  unfold authFailed
  repeat' first
    | with_reducible assumption
    | lift_lets -underBinder
    | (intro x; have hx : Kept al s0 x := (by
        subst x
        repeat' first
          | with_reducible assumption
          | lift_lets -underBinder
          | with_reducible apply closeSession_kept
          | with_reducible apply emit_kept
          | with_reducible apply modSlot_kept
          | split); clear_value x)
    | (intro x; subst x)
    | with_reducible apply send_kept

theorem authState_kept {al : Allow} {s0 : State} (path : Path) (peer : Nat) (n : Nat) (proof : List Byte) {s : State} (hk : Kept al s0 s) :
    Kept al s0 (authState path peer n proof s) := by
  unfold authState
  repeat' first
    | with_reducible assumption
    | lift_lets -underBinder
    | (intro x; have hx : Kept al s0 x := (by
        subst x
        repeat' first
          | with_reducible assumption
          | with_reducible apply closeDue_kept
          | with_reducible apply modSession_kept); clear_value x)
    | (intro x; subst x)
    | with_reducible apply authFailed_kept
    | with_reducible apply await_kept
    | with_reducible apply send_kept
    | split

theorem closeState_kept {al : Allow} {s0 : State} (h : Hdr) {s : State} (hk : Kept al s0 s) :
    Kept al s0 (closeState h s) := by
  unfold closeState
  repeat' first
    | with_reducible assumption
    | lift_lets -underBinder
    | (intro _ t ht; try dsimp -zeta only)
    | with_reducible apply closeSession_kept
    | with_reducible apply request_kept
    | split

theorem txnBeginState_kept {al : Allow} {s0 : State} (h : Hdr) {s : State} (hk : Kept al s0 s) :
    Kept al s0 (txnBeginState h s) := by
  unfold txnBeginState
  repeat' first
    | with_reducible assumption
    | lift_lets -underBinder
    | (intro _ t ht; try dsimp -zeta only)
    | with_reducible apply modSession_kept
    | with_reducible apply request_kept
    | split

theorem txnAbortState_kept {al : Allow} {s0 : State} (h : Hdr) {s : State} (hk : Kept al s0 s) :
    Kept al s0 (txnAbortState h s) := by
  unfold txnAbortState
  repeat' first
    | with_reducible assumption
    | lift_lets -underBinder
    | (intro _ t ht; try dsimp -zeta only)
    | with_reducible apply modSession_kept
    | with_reducible apply request_kept
    | split

theorem keepaliveState_kept {al : Allow} {s0 : State} (h : Hdr) {s : State} (hk : Kept al s0 s) :
    Kept al s0 (keepaliveState h s) := by
  unfold keepaliveState
  repeat' first
    | with_reducible assumption
    | lift_lets -underBinder
    | (intro _ t ht; try dsimp -zeta only)
    | with_reducible apply request_kept
    | split

theorem cmdStart_kept {al : Allow} {s0 : State} (c : Nat) (n : Nat) {s : State} (hk : Kept al s0 s) :
    Kept al s0 (cmdStart c n s) := by
  unfold cmdStart
  repeat' first | with_reducible assumption | with_reducible apply modCmd_kept

theorem cmdDone_kept {al : Allow} {s0 : State} (c : Nat) (result : List Byte) {s : State} (hk : Kept al s0 s) :
    Kept al s0 (cmdDone c result s) := by
  unfold cmdDone
  repeat' first | with_reducible assumption | with_reducible apply modCmd_kept

theorem cmdFail_kept {al : Allow} {s0 : State} (c : Nat) (a : Abort) {s : State} (hk : Kept al s0 s) :
    Kept al s0 (cmdFail c a s) := by
  unfold cmdFail
  repeat' first | with_reducible assumption | with_reducible apply modCmd_kept

theorem cmdNow_kept {al : Allow} {s0 : State} (c : Nat) (n : Nat) (result : List Byte) {s : State} (hk : Kept al s0 s) :
    Kept al s0 (cmdNow c n result s).2 := by
  unfold cmdNow
  repeat' first
    | with_reducible assumption
    | lift_lets -underBinder
    | with_reducible apply cmdDone_kept
    | with_reducible apply cmdStart_kept

theorem leaseOp_kept {al : Allow} {s0 : State} (data : List Byte) (n : Nat) {s : State} (hk : Kept al s0 s) :
    Kept al s0 (leaseOp data n s).2 := by
  unfold leaseOp cmdNow
  dsimp only
  repeat' first
    | exact hk
    | split
    | dsimp only
    | exact cmdDone_kept _ _ (cmdStart_kept _ _ (endLease_kept _ hk))
    | (refine cmdDone_kept _ _ (cmdStart_kept _ _ ?_))
    | exact setLeases_kept hk (List.map _ _) (Nat.le_of_eq (List.length_map _))
  refine Kept.putW hk (e11 := fun _ => ?_)
  rename_i h1
  simp only [List.length_append, List.length_cons, List.length_nil]; omega

theorem rowReq_kept {a : Allow} {s0 : State} (c : Cmd) (idx sub : Nat) (fixed : List Byte)
    {act : List Byte → Nat → State → Answer × State} (hf : ∀ d n t, Kept a s0 t → Kept a s0 (act d n t).2) {s : State}
    (k : Kept a s0 s) : Kept a s0 (rowReq c idx sub fixed act s) :=
  cmdReq_kept _ _ _ _ hf (closeDue_kept k)

theorem deferred_kept {al : Allow} {s0 : State} (idx sub : Nat) (op : List Byte → Nat → State → Answer × State)
    (data : List Byte) (n : Nat) {s : State} (hk : Kept al s0 s) : Kept al s0 (deferred idx sub op data n s).2 := by
  unfold deferred
  split
  · exact hk
  · exact Kept.put hk

theorem passOn_kept {al : Allow} {s0 : State} (key : Nat) {s : State} (hk : Kept al s0 s) :
    Kept al s0 (passOn key s) := by
  unfold passOn
  repeat' first
    | with_reducible assumption
    | lift_lets -underBinder
    | (intro x; subst x)
    | with_reducible refine Kept.put ?_

theorem bulkLengthNow_kept {al : Allow} {s0 : State} (data : List Byte) (u1 : Nat) {s : State} (hk : Kept al s0 s) :
    Kept al s0 (bulkLengthNow data u1 s).2 := by
  unfold bulkLengthNow
  repeat' first
    | with_reducible assumption
    | lift_lets -underBinder
    | (intro x; subst x)
    | with_reducible apply passOn_kept
    | with_reducible refine Kept.putW ?_

theorem bulkLengthOp_kept {al : Allow} {s0 : State} (data : List Byte) (u1 : Nat) {s : State} (hk : Kept al s0 s) :
    Kept al s0 (bulkLengthOp data u1 s).2 :=
  Kept.putW hk

theorem bulkDataOp_kept {al : Allow} {s0 : State} (off : Nat) (data : List Byte) (u2 : Nat) {s : State} (hk : Kept al s0 s) :
    Kept al s0 (bulkDataOp off data u2 s).2 :=
  Kept.putW hk

theorem owe_kept {al : Allow} {s0 : State} (key : Nat) {s : State} (hk : Kept al s0 s) :
    Kept al s0 (owe key s) := by
  unfold owe
  repeat' first
    | with_reducible assumption
    | lift_lets -underBinder
    | (intro x; subst x)
    | with_reducible apply passOn_kept
    | with_reducible refine Kept.put ?_

theorem slotKeyOp_kept {al : Allow} {s0 : State} (k : Nat) (data : List Byte) (n : Nat) {s : State} (hk : Kept al s0 s) :
    Kept al s0 (slotKeyOp k data n s).2 := by
  unfold slotKeyOp
  repeat' first
    | with_reducible assumption
    | lift_lets -underBinder
    | (intro x; have hx : Kept al s0 x := (by
        subst x
        repeat' first
          | with_reducible assumption
          | lift_lets -underBinder
          | (intro _ t ht; try dsimp -zeta only)
          | with_reducible apply closeSession_kept
          | with_reducible apply emit_kept
          | with_reducible apply forAll_kept
          | with_reducible apply modSlot_kept
          | with_reducible apply owe_kept
          | split); clear_value x)
    | (intro x; subst x)
    | with_reducible apply closeSession_kept
    | split

theorem keepDirect_kept {al : Allow} {s0 : State} (idx : Nat) (sub : Nat) (data : List Byte) {s : State} (hk : Kept al s0 s) :
    Kept al s0 (keepDirect idx sub data s) := by
  unfold keepDirect
  repeat' first
    | with_reducible assumption
    | lift_lets -underBinder
    | with_reducible apply owe_kept
    | with_reducible apply setCfg_kept

theorem signerKeyNow_kept {al : Allow} {s0 : State} (i : Nat) (data : List Byte) (u2 : Nat) {s : State} (hk : Kept al s0 s) :
    Kept al s0 (signerKeyNow i data u2 s).2 := by
  unfold signerKeyNow
  repeat' first
    | with_reducible assumption
    | lift_lets -underBinder
    | with_reducible apply emit_kept
    | with_reducible apply keepDirect_kept

theorem signerKeyOp_kept {al : Allow} {s0 : State} (i : Nat) (data : List Byte) (n : Nat) {s : State} (hk : Kept al s0 s) :
    Kept al s0 (signerKeyOp i data n s).2 := by
  unfold signerKeyOp
  repeat' first | with_reducible assumption | with_reducible apply deferred_kept

theorem writeFlashDue_kept {al : Allow} {s0 : State} {s : State} (hk : Kept al s0 s) :
    Kept al s0 (writeFlashDue s) := by
  unfold writeFlashDue
  repeat' first
    | with_reducible assumption
    | lift_lets -underBinder
    | (intro x; subst x)
    | with_reducible refine Kept.put ?_

end Sys2Proof.Machine
end

