-- ==== Sys2Proof/Laws/KeptRing.lean ====
section
/-! SUPPORT. Every operation of Machine/Ring.lean keeps what `Kept` names. -/

set_option Elab.async false

namespace Sys2Proof.Machine

theorem noteDup_kept {al : Allow} {s0 : State} (src : Nat) (seq : Nat) (port : Port) {s : State} (hk : Kept al s0 s) :
    Kept al s0 (noteDup src seq port s) := by
  unfold noteDup
  repeat' first
    | with_reducible assumption
    | lift_lets -underBinder
    | (intro x; subst x)
    | with_reducible refine Kept.put ?_

theorem setVerdict_kept {al : Allow} {s0 : State} (v : Verdict) {s : State} (hk : Kept al s0 s) :
    Kept al s0 (setVerdict v s) := by
  unfold setVerdict
  repeat' first
    | with_reducible assumption
    | lift_lets -underBinder
    | (intro x; subst x)
    | with_reducible refine Kept.put ?_

theorem countFcs_kept {al : Allow} {s0 : State} (port : Port) {s : State} (hk : Kept al s0 s) :
    Kept al s0 (countFcs port s) := by
  unfold countFcs
  repeat' first
    | with_reducible assumption
    | lift_lets -underBinder
    | (intro x; subst x)
    | split
    | with_reducible refine Kept.put ?_

theorem frameReceivedState_kept {al : Allow} {s0 : State} (port : Port) (f : Frame) {s : State} (hk : Kept al s0 s) :
    Kept al s0 (frameReceivedState port f s) := by
  unfold frameReceivedState
  repeat' first
    | with_reducible assumption
    | lift_lets -underBinder
    | (intro x; have hx : Kept al s0 x := (by
        subst x
        repeat' first
          | with_reducible assumption
          | with_reducible apply countFcs_kept
          | with_reducible apply send_kept
          | split); clear_value x)
    | (intro x; subst x)
    | with_reducible apply countFcs_kept
    | with_reducible apply noteDup_kept
    | with_reducible apply send_kept
    | with_reducible apply setVerdict_kept
    | split
    | with_reducible refine Kept.put ?_

theorem declareLost_kept {al : Allow} {s0 : State} (k : Nat) {s : State} (hk : Kept al s0 s) :
    Kept al s0 (declareLost k s) := by
  unfold declareLost
  repeat' first
    | with_reducible assumption
    | lift_lets -underBinder
    | (intro x; have hx : Kept al s0 x := (by
        subst x
        repeat' first
          | with_reducible assumption
          | with_reducible apply decideQual_kept
          | with_reducible apply modNode_kept); clear_value x)
    | (intro x; subst x)
    | with_reducible apply emit_kept

theorem countMissing_kept {al : Allow} {s0 : State} (k : Nat) {s : State} (hk : Kept al s0 s) :
    Kept al s0 (countMissing k s) := by
  unfold countMissing
  repeat' first
    | with_reducible assumption
    | lift_lets -underBinder
    | (intro x; have hx : Kept al s0 x := (by
        subst x
        repeat' first | with_reducible assumption | with_reducible apply modNode_kept); clear_value x)
    | with_reducible apply declareLost_kept
    | split

theorem landEntries_kept {al : Allow} {s0 : State} (ps : List Nat) (entries : List (BitVec 32 × Byte)) (ts : Int) {s : State} (hk : Kept al s0 s) :
    Kept al s0 (landEntries ps entries ts s) := by
  unfold landEntries
  repeat' first
    | with_reducible assumption
    | lift_lets -underBinder
    | with_reducible apply produceAs_kept
    | with_reducible refine Kept.foldl (fun t x ht => ?_) _ _ ?_

theorem setLanded_kept {al : Allow} {s0 : State} (k : Nat) (f : PdInput) {s : State} (hk : Kept al s0 s) :
    Kept al s0 (setLanded k f s) := by
  unfold setLanded
  repeat' first
    | with_reducible assumption
    | lift_lets -underBinder
    | (intro x; have hx : Kept al s0 x := (by
        subst x
        repeat' first | with_reducible assumption | with_reducible apply modNode_kept); clear_value x)
    | (intro x; subst x)
    | with_reducible apply emit_kept
    | with_reducible apply modNode_kept
    | split

theorem landSet_kept {al : Allow} {s0 : State} (k : Nat) (f : PdInput) {s : State} (hk : Kept al s0 s) :
    Kept al s0 (landSet k f s) := by
  unfold landSet
  repeat' first
    | with_reducible assumption
    | lift_lets -underBinder
    | with_reducible apply landEntries_kept
    | with_reducible apply setLanded_kept

theorem landWanted_kept {al : Allow} {s0 : State} (k : Nat) (f : PdInput) {s : State} (hk : Kept al s0 s) :
    Kept al s0 (landWanted k f s) := by
  unfold landWanted
  repeat' first
    | with_reducible assumption
    | lift_lets -underBinder
    | (intro x; have hx : Kept al s0 x := (by
        subst x
        repeat' first
          | with_reducible assumption
          | lift_lets -underBinder
          | with_reducible apply landSet_kept
          | with_reducible refine Kept.put ?_); clear_value x)
    | (intro x; subst x)
    | with_reducible apply sendAck_kept
    | split

theorem setIncomplete_kept {al : Allow} {s0 : State} (k : Nat) (cls : Nat) {s : State} (hk : Kept al s0 s) :
    Kept al s0 (setIncomplete k cls s) := by
  unfold setIncomplete
  repeat' first
    | with_reducible assumption
    | lift_lets -underBinder
    | (intro x; subst x)
    | with_reducible apply countMissing_kept
    | split

theorem pdInputFrameState_kept {al : Allow} {s0 : State} (f : PdInput) {s : State} (hk : Kept al s0 s) :
    Kept al s0 (pdInputFrameState f s) := by
  unfold pdInputFrameState
  repeat' first
    | with_reducible assumption
    | lift_lets -underBinder
    | (intro x; have hx : Kept al s0 x := (by
        subst x
        repeat' first
          | with_reducible assumption
          | with_reducible apply modNode_kept
          | with_reducible apply setIncomplete_kept
          | split); clear_value x)
    | (intro x; subst x)
    | with_reducible apply landSet_kept
    | with_reducible apply landWanted_kept
    | with_reducible apply modNode_kept
    | with_reducible apply noteLanding_kept
    | split

theorem sendSet_kept {al : Allow} {s0 : State} (cls : Nat) (k : Nat) {s : State} (hk : Kept al s0 s) :
    Kept al s0 (sendSet cls k s) := by
  unfold sendSet
  repeat' first
    | with_reducible assumption
    | lift_lets -underBinder
    | (intro x; have hx : Kept al s0 x := (by
        subst x
        repeat' first
          | with_reducible assumption
          | lift_lets -underBinder
          | with_reducible apply send_kept
          | split
          | with_reducible refine Kept.foldl (fun t x ht => ?_) _ _ ?_); clear_value x)
    | (intro x; subst x)
    | with_reducible apply modNode_kept
    | split

theorem pdOutputSetSendState_kept {al : Allow} {s0 : State} (cls : Nat) {s : State} (hk : Kept al s0 s) :
    Kept al s0 (pdOutputSetSendState cls s) := by
  unfold pdOutputSetSendState
  repeat' first
    | with_reducible assumption
    | lift_lets -underBinder
    | (intro x; subst x)
    | (intro _ t ht; try dsimp -zeta only)
    | with_reducible apply forAll_kept
    | with_reducible apply sendSet_kept
    | split
    | with_reducible refine Kept.put ?_

theorem loseUnreachable_kept {al : Allow} {s0 : State} (k : Nat) {s : State} (hk : Kept al s0 s) :
    Kept al s0 (loseUnreachable k s) := by
  unfold loseUnreachable
  repeat' first
    | with_reducible assumption
    | lift_lets -underBinder
    | (intro x; subst x)
    | with_reducible apply declareLost_kept
    | with_reducible apply modNode_kept
    | split

theorem periodEndState_kept {al : Allow} {s0 : State} (k : Nat) (cls : Nat) (g : Int) {s : State} (hk : Kept al s0 s) :
    Kept al s0 (periodEndState k cls g s) := by
  unfold periodEndState
  repeat' first
    | with_reducible assumption
    | lift_lets -underBinder
    | (intro x; have hx : Kept al s0 x := (by
        subst x
        repeat' first | with_reducible assumption | with_reducible apply modNode_kept); clear_value x)
    | (intro x; subst x)
    | with_reducible apply countMissing_kept
    | with_reducible apply loseUnreachable_kept
    | with_reducible apply modNode_kept
    | split

theorem sendRm_kept {al : Allow} {s0 : State} (op : Nat) (port : Nat) (link : Nat) {s : State} (hk : Kept al s0 s) :
    Kept al s0 (sendRm op port link s) := by
  unfold sendRm
  repeat' first | with_reducible assumption | with_reducible apply send_kept

theorem checkReturned_kept {al : Allow} {s0 : State} (seq : Nat) {s : State} (hk : Kept al s0 s) :
    Kept al s0 (checkReturned seq s) := by
  unfold checkReturned
  repeat' first
    | with_reducible assumption
    | lift_lets -underBinder
    | (intro x; have hx : Kept al s0 x := (by
        subst x
        repeat' first | with_reducible assumption | with_reducible refine Kept.put ?_); clear_value x)
    | (intro x; subst x)
    | with_reducible apply emit_kept
    | split

theorem keepBreak_kept {al : Allow} {s0 : State} (node : Nat) (op : Nat) (portNo : Nat) (link : Nat) (serial : Nat) {s : State} (hk : Kept al s0 s) :
    Kept al s0 (keepBreak node op portNo link serial s) := by
  unfold keepBreak
  repeat' first
    | with_reducible assumption
    | lift_lets -underBinder
    | (intro x; subst x)
    | split
    | with_reducible refine Kept.put ?_

theorem rmFrameState_kept {al : Allow} {s0 : State} (node : Nat) (seq : Nat) (op : Nat) (portNo : Nat) (link : Nat) (serial : Nat) {s : State} (hk : Kept al s0 s) :
    Kept al s0 (rmFrameState node seq op portNo link serial s) := by
  unfold rmFrameState
  repeat' first
    | with_reducible assumption
    | lift_lets -underBinder
    | (intro x; have hx : Kept al s0 x := (by
        subst x
        repeat' first
          | with_reducible assumption
          | lift_lets -underBinder
          | with_reducible apply decideQual_kept
          | with_reducible apply keepBreak_kept
          | with_reducible refine Kept.put ?_); clear_value x)
    | (intro x; subst x)
    | with_reducible apply checkReturned_kept
    | with_reducible apply emit_kept
    | with_reducible apply keepBreak_kept
    | split

theorem setLink_kept {al : Allow} {s0 : State} (port : Port) (up : Bool) {s : State} (hk : Kept al s0 s) :
    Kept al s0 (setLink port up s) := by
  unfold setLink
  repeat' first
    | with_reducible assumption
    | lift_lets -underBinder
    | (intro x; subst x)
    | split
    | with_reducible refine Kept.put ?_

theorem linkChangeState_kept {al : Allow} {s0 : State} (port : Port) (link : Bool) {s : State} (hk : Kept al s0 s) :
    Kept al s0 (linkChangeState port link s) := by
  unfold linkChangeState
  repeat' first
    | with_reducible assumption
    | lift_lets -underBinder
    | (intro x; have hx : Kept al s0 x := (by
        subst x
        repeat' first
          | with_reducible assumption
          | with_reducible apply sendRm_kept
          | with_reducible apply setLink_kept
          | split
          | with_reducible refine Kept.put ?_); clear_value x)
    | (intro x; subst x)
    | with_reducible apply emit_kept
    | split

theorem applyNodeTable_kept {al : Allow} {s0 : State} (old : List (Nat × NodeRec)) {s : State} (hk : Kept al s0 s) :
    Kept al s0 (applyNodeTable old s) := by
  unfold applyNodeTable
  repeat' first
    | with_reducible assumption
    | lift_lets -underBinder
    | (intro x; subst x)
    | with_reducible apply decideQual_kept
    | with_reducible apply modNode_kept
    | split
    | with_reducible refine Kept.foldl (fun t x ht => ?_) _ _ ?_
    | with_reducible refine Kept.put ?_

end Sys2Proof.Machine
end

