-- ==== Sys2Proof/Laws/KeptTime.lean ====
section
/-! SUPPORT. Every operation of Machine/Time.lean keeps what `Kept` names. -/

set_option Elab.async false

namespace Sys2Proof.Machine

theorem enterDisc_kept {al : Allow} {s0 : State} (d : Disc) {s : State} (hk : Kept al s0 s) :
    Kept al s0 (enterDisc d s) := by
  unfold enterDisc
  repeat' first
    | with_reducible assumption
    | lift_lets -underBinder
    | (intro x; subst x)
    | with_reducible apply emit_kept
    | split
    | with_reducible refine Kept.put ?_

theorem enterByTheta_kept {al : Allow} {s0 : State} {s : State} (hk : Kept al s0 s) :
    Kept al s0 (enterByTheta s) := by
  unfold enterByTheta
  repeat' first | with_reducible assumption | with_reducible apply enterDisc_kept

theorem shiftInstants_kept {al : Allow} {s0 : State} (d : Int) {s : State} (hk : Kept al s0 s) :
    Kept al s0 (shiftInstants d s) := by
  unfold shiftInstants
  repeat' first
    | with_reducible assumption
    | lift_lets -underBinder
    | (intro x; have hx : Kept al s0 x := (by
        subst x
        repeat' first
          | with_reducible assumption
          | lift_lets -underBinder
          | (intro _ t ht; try dsimp -zeta only)
          | with_reducible apply forAll_kept
          | with_reducible apply modBank_kept
          | with_reducible apply modNode_kept
          | with_reducible apply modSc_kept
          | with_reducible apply modSched_kept
          | with_reducible apply modTask_kept
          | with_reducible apply modTracker_kept
          | dsimp -zeta only
          | with_reducible refine Kept.put ?_); clear_value x)
    | (intro x; subst x)
    | (intro _ t ht; try dsimp -zeta only)
    | with_reducible apply forAll_kept
    | with_reducible apply modLoop_kept

theorem stepBy_kept {al : Allow} {s0 : State} (variant : Nat) (th : Int) {s : State} (hk : Kept al s0 s) :
    Kept al s0 (stepBy variant th s) := by
  unfold stepBy
  repeat' first
    | with_reducible assumption
    | lift_lets -underBinder
    | (intro x; have hx : Kept al s0 x := (by
        subst x
        repeat' first
          | with_reducible assumption
          | lift_lets -underBinder
          | with_reducible apply shiftInstants_kept
          | with_reducible apply stepTime_kept); clear_value x)
    | (intro x; subst x)
    | with_reducible apply emit_kept
    | with_reducible refine Kept.put ?_

theorem flushCopy_kept {al : Allow} {s0 : State} {s : State} (hk : Kept al s0 s) :
    Kept al s0 (flushCopy s) := by
  unfold flushCopy
  repeat' first
    | with_reducible assumption
    | lift_lets -underBinder
    | (intro x; subst x)
    | split
    | with_reducible refine Kept.put ?_

theorem pairCopies_kept {al : Allow} {s0 : State} (t1 : Int) (t2 : Int) (origin : Int) {s : State} (hk : Kept al s0 s) :
    Kept al s0 (pairCopies t1 t2 origin s) := by
  unfold pairCopies
  repeat' first
    | with_reducible assumption
    | lift_lets -underBinder
    | (intro x; subst x)
    | split
    | with_reducible refine Kept.put ?_

theorem followMaster_kept {al : Allow} {s0 : State} (master : Nat) (rank : Nat) {s : State} (hk : Kept al s0 s) :
    Kept al s0 (followMaster master rank s) := by
  unfold followMaster
  repeat' first
    | with_reducible assumption
    | lift_lets -underBinder
    | (intro x; subst x)
    | with_reducible apply emit_kept
    | split
    | with_reducible refine Kept.put ?_

theorem takeBeacon_kept {al : Allow} {s0 : State} (port : Port) (seq : Nat) (origin : Int) {s : State} (hk : Kept al s0 s) :
    Kept al s0 (takeBeacon port seq origin s) := by
  unfold takeBeacon
  repeat' first
    | with_reducible assumption
    | lift_lets -underBinder
    | (intro x; have hx : Kept al s0 x := (by
        subst x
        repeat' first | with_reducible assumption | with_reducible apply flushCopy_kept); clear_value x)
    | (intro x; subst x)
    | with_reducible apply pairCopies_kept
    | split
    | with_reducible refine Kept.put ?_

theorem tbFrameState_kept {al : Allow} {s0 : State} (port : Port) (seq : Nat) (origin : Int) (master : Nat) (rank : Nat) {s : State} (hk : Kept al s0 s) :
    Kept al s0 (tbFrameState port seq origin master rank s) := by
  unfold tbFrameState
  repeat' first
    | with_reducible assumption
    | lift_lets -underBinder
    | (intro x; have hx : Kept al s0 x := (by
        subst x
        repeat' first
          | with_reducible assumption
          | lift_lets -underBinder
          | with_reducible apply followMaster_kept
          | with_reducible apply takeBeacon_kept
          | split
          | with_reducible refine Kept.put ?_); clear_value x)
    | (intro x; subst x)
    | with_reducible apply enterByTheta_kept
    | with_reducible apply enterDisc_kept
    | split
    | with_reducible refine Kept.put ?_

theorem servoAct_kept {al : Allow} {s0 : State} (th : Int) {s : State} (hk : Kept al s0 s) :
    Kept al s0 (servoAct th s) := by
  unfold servoAct
  repeat' first
    | with_reducible assumption
    | lift_lets -underBinder
    | (intro x; have hx : Kept al s0 x := (by
        subst x
        repeat' first
          | with_reducible assumption
          | with_reducible apply enterDisc_kept
          | split
          | with_reducible refine Kept.put ?_); clear_value x)
    | (intro x; subst x)
    | with_reducible apply setRate_kept
    | split
    | with_reducible refine Kept.put ?_

theorem acceptSamples_kept {al : Allow} {s0 : State} {s : State} (hk : Kept al s0 s) :
    Kept al s0 (acceptSamples s).2 := by
  unfold acceptSamples
  repeat' first
    | with_reducible assumption
    | lift_lets -underBinder
    | (intro x; subst x)
    | split
    | dsimp -zeta only
    | with_reducible refine Kept.put ?_

theorem acquirePeriod_kept {al : Allow} {s0 : State} {s : State} (hk : Kept al s0 s) :
    Kept al s0 (acquirePeriod s) := by
  unfold acquirePeriod
  repeat' first
    | with_reducible assumption
    | lift_lets -underBinder
    | (intro x; have hx : Kept al s0 x := (by
        subst x
        repeat' first
          | with_reducible assumption
          | with_reducible apply stepBy_kept
          | with_reducible refine Kept.put ?_); clear_value x)
    | (intro x; subst x)
    | with_reducible apply enterByTheta_kept
    | split
    | with_reducible refine Kept.put ?_

theorem servoPeriodState_kept {al : Allow} {s0 : State} {s : State} (hk : Kept al s0 s) :
    Kept al s0 (servoPeriodState s) := by
  unfold servoPeriodState
  repeat' first
    | with_reducible assumption
    | lift_lets -underBinder
    | (intro x; have hx : Kept al s0 x := (by
        subst x
        repeat' first | with_reducible assumption | with_reducible apply flushCopy_kept); clear_value x)
    | (intro x; subst x)
    | with_reducible apply acceptSamples_kept
    | with_reducible apply acquirePeriod_kept
    | with_reducible apply enterByTheta_kept
    | with_reducible apply servoAct_kept
    | split
    | with_reducible refine Kept.of_snd ?_ (by assumption)
    | with_reducible refine Kept.put ?_

theorem sendLd_kept {al : Allow} {s0 : State} (port : Port) (op : Nat) (a : Int) (b : Int) (c : Int) {s : State} (hk : Kept al s0 s) :
    Kept al s0 (sendLd port op a b c s) := by
  unfold sendLd
  repeat' first | with_reducible assumption | with_reducible apply send_kept

theorem ldFrameState_kept {al : Allow} {s0 : State} (port : Port) (op : Nat) (a : Int) (b : Int) (c : Int) {s : State} (hk : Kept al s0 s) :
    Kept al s0 (ldFrameState port op a b c s) := by
  unfold ldFrameState
  repeat' first
    | with_reducible assumption
    | lift_lets -underBinder
    | (intro x; subst x)
    | with_reducible apply sendLd_kept
    | split
    | with_reducible refine Kept.put ?_

theorem timeRestepOp_kept {al : Allow} {s0 : State} (data : List Byte) (n : Nat) {s : State} (hk : Kept al s0 s) :
    Kept al s0 (timeRestepOp data n s).2 := by
  unfold timeRestepOp
  repeat' first
    | with_reducible assumption
    | lift_lets -underBinder
    | (intro x; have hx : Kept al s0 x := (by
        subst x
        repeat' first
          | with_reducible assumption
          | lift_lets -underBinder
          | with_reducible apply enterByTheta_kept
          | with_reducible apply setRate_kept
          | with_reducible apply stepBy_kept
          | split
          | with_reducible refine Kept.put ?_); clear_value x)
    | (intro x; subst x)
    | with_reducible apply cmdNow_kept
    | split

theorem applyTimeRank_kept {al : Allow} {s0 : State} {s : State} (hk : Kept al s0 s) :
    Kept al s0 (applyTimeRank s) := by
  unfold applyTimeRank
  repeat' first
    | with_reducible assumption
    | lift_lets -underBinder
    | (intro x; subst x)
    | with_reducible apply enterDisc_kept
    | split
    | with_reducible refine Kept.put ?_

end Sys2Proof.Machine
end

