-- ==== Sys2Proof/Laws/KeptCadence.lean ====
section
/-! SUPPORT. Every operation of Machine/Cadence.lean keeps what `Kept` names. -/

set_option Elab.async false

namespace Sys2Proof.Machine

theorem produceTracker_kept {al : Allow} {s0 : State} (n : Nat) {s : State} (hk : Kept al s0 s) :
    Kept al s0 (produceTracker n s) := by
  unfold produceTracker
  repeat' first
    | with_reducible assumption
    | lift_lets -underBinder
    | (intro x; have hx : Kept al s0 x := (by
        subst x
        repeat' first | with_reducible assumption | with_reducible apply produceAll_kept); clear_value x)
    | (intro x; subst x)
    | with_reducible apply produceAll_kept
    | split

theorem scEnd_kept {al : Allow} {s0 : State} (i : Nat) (st : ScState) {s : State} (hk : Kept al s0 s) :
    Kept al s0 (scEnd i st s) := by
  unfold scEnd
  repeat' first
    | with_reducible assumption
    | lift_lets -underBinder
    | (intro x; subst x)
    | with_reducible apply emit_kept
    | with_reducible apply modSc_kept

theorem scTrackerLeft_kept {al : Allow} {s0 : State} (n : Nat) {s : State} (hk : Kept al s0 s) :
    Kept al s0 (scTrackerLeft n s) := by
  unfold scTrackerLeft
  repeat' first
    | with_reducible assumption
    | lift_lets -underBinder
    | (intro _ t ht; try dsimp -zeta only)
    | with_reducible apply forAll_kept
    | with_reducible apply scEnd_kept
    | split

theorem scAbortArmed_kept {al : Allow} {s0 : State} {s : State} (hk : Kept al s0 s) :
    Kept al s0 (scAbortArmed s) := by
  unfold scAbortArmed
  repeat' first
    | with_reducible assumption
    | lift_lets -underBinder
    | (intro _ t ht; try dsimp -zeta only)
    | with_reducible apply forAll_kept
    | with_reducible apply scEnd_kept
    | split

theorem scRetired_kept {al : Allow} {s0 : State} (ch : Nat) {s : State} (hk : Kept al s0 s) :
    Kept al s0 (scRetired ch s) := by
  unfold scRetired
  repeat' first
    | with_reducible assumption
    | lift_lets -underBinder
    | (intro _ t ht; try dsimp -zeta only)
    | with_reducible apply forAll_kept
    | with_reducible apply scEnd_kept
    | split

theorem enterTrk_kept {al : Allow} {s0 : State} (n : Nat) (st : TrkState) {s : State} (hk : Kept al s0 s) :
    Kept al s0 (enterTrk n st s) := by
  unfold enterTrk
  repeat' first
    | with_reducible assumption
    | lift_lets -underBinder
    | (intro x; have hx : Kept al s0 x := (by
        subst x
        repeat' first
          | with_reducible assumption
          | with_reducible apply emit_kept
          | with_reducible apply modTracker_kept
          | with_reducible apply scTrackerLeft_kept
          | split); clear_value x)
    | (intro x; subst x)
    | with_reducible apply produceTracker_kept
    | split

theorem loseTracker_kept {al : Allow} {s0 : State} (n : Nat) {s : State} (hk : Kept al s0 s) :
    Kept al s0 (loseTracker n s) := by
  unfold loseTracker
  repeat' first
    | with_reducible assumption
    | lift_lets -underBinder
    | (intro x; subst x)
    | with_reducible apply enterTrk_kept
    | with_reducible apply modTracker_kept
    | split

theorem startTracker_kept {al : Allow} {s0 : State} (n : Nat) {s : State} (hk : Kept al s0 s) :
    Kept al s0 (startTracker n s) := by
  unfold startTracker
  repeat' first
    | with_reducible assumption
    | lift_lets -underBinder
    | (intro x; have hx : Kept al s0 x := (by
        subst x
        repeat' first
          | with_reducible assumption
          | with_reducible apply scTrackerLeft_kept
          | split
          | with_reducible refine Kept.put ?_); clear_value x)
    | (intro x; subst x)
    | with_reducible apply enterTrk_kept
    | with_reducible apply modTracker_kept

theorem waitEdge_kept {al : Allow} {s0 : State} (ch : Nat) (action : Nat) (fireAt : Int) (width : Nat) (slot : Nat) {s : State} (hk : Kept al s0 s) :
    Kept al s0 (waitEdge ch action fireAt width slot s) := by
  unfold waitEdge
  repeat' first | with_reducible assumption | with_reducible apply modBank_kept | split

theorem restSlot_kept {al : Allow} {s0 : State} (n : Nat) {s : State} (hk : Kept al s0 s) :
    Kept al s0 (restSlot n s) := by
  unfold restSlot
  repeat' first
    | with_reducible assumption
    | lift_lets -underBinder
    | (intro x; subst x)
    | with_reducible apply modSched_kept

theorem scanSlot_kept {al : Allow} {s0 : State} (n : Nat) {s : State} (hk : Kept al s0 s) :
    Kept al s0 (scanSlot n s) := by
  unfold scanSlot
  repeat' first
    | with_reducible assumption
    | lift_lets -underBinder
    | (intro x; have hx : Kept al s0 x := (by
        subst x
        repeat' first | with_reducible assumption | with_reducible apply modSched_kept); clear_value x)
    | (intro x; subst x)
    | with_reducible apply modSched_kept
    | with_reducible apply restSlot_kept
    | with_reducible apply waitEdge_kept
    | split

theorem scanSlots_kept {al : Allow} {s0 : State} {s : State} (hk : Kept al s0 s) :
    Kept al s0 (scanSlots s) := by
  unfold scanSlots
  repeat' first
    | with_reducible assumption
    | lift_lets -underBinder
    | (intro _ t ht; try dsimp -zeta only)
    | with_reducible apply forAll_kept
    | with_reducible apply scanSlot_kept
    | split

theorem armSlot_kept {al : Allow} {s0 : State} (n : Nat) {s : State} (hk : Kept al s0 s) :
    Kept al s0 (armSlot n s) := by
  unfold armSlot
  repeat' first
    | with_reducible assumption
    | lift_lets -underBinder
    | (intro x; subst x)
    | with_reducible apply modSched_kept
    | split
    | with_reducible refine Kept.put ?_

theorem returnUnref_kept {al : Allow} {s0 : State} (n : Nat) {s : State} (hk : Kept al s0 s) :
    Kept al s0 (returnUnref n s) := by
  unfold returnUnref
  repeat' first
    | with_reducible assumption
    | lift_lets -underBinder
    | (intro x; subst x)
    | with_reducible apply enterTrk_kept
    | with_reducible apply modTracker_kept

theorem encoderStep_kept {al : Allow} {s0 : State} (n : Nat) (fwd : Bool) {s : State} (hk : Kept al s0 s) :
    Kept al s0 (encoderStep n fwd s) := by
  unfold encoderStep
  repeat' first
    | with_reducible assumption
    | lift_lets -underBinder
    | (intro x; have hx : Kept al s0 x := (by
        subst x
        repeat' first | with_reducible assumption | with_reducible apply modTracker_kept); clear_value x)
    | (intro x; subst x)
    | with_reducible apply enterTrk_kept
    | with_reducible apply produceTracker_kept
    | with_reducible apply returnUnref_kept
    | split

theorem encoderZ_kept {al : Allow} {s0 : State} (n : Nat) {s : State} (hk : Kept al s0 s) :
    Kept al s0 (encoderZ n s) := by
  unfold encoderZ
  repeat' first
    | with_reducible assumption
    | lift_lets -underBinder
    | (intro x; have hx : Kept al s0 x := (by
        subst x
        repeat' first | with_reducible assumption | with_reducible apply modTracker_kept); clear_value x)
    | (intro x; subst x)
    | with_reducible apply enterTrk_kept
    | with_reducible apply produceTracker_kept
    | split

theorem encoderEdgeState_kept {al : Allow} {s0 : State} (e : Nat) (ev : EncEvent) {s : State} (hk : Kept al s0 s) :
    Kept al s0 (encoderEdgeState e ev s) := by
  unfold encoderEdgeState
  repeat' first
    | with_reducible assumption
    | lift_lets -underBinder
    | (intro _ t ht; try dsimp -zeta only)
    | with_reducible apply encoderStep_kept
    | with_reducible apply encoderZ_kept
    | with_reducible apply forAll_kept
    | with_reducible apply loseTracker_kept
    | with_reducible apply modTracker_kept
    | with_reducible apply scanSlots_kept
    | split

theorem scBusCycle_kept {al : Allow} {s0 : State} (n : Nat) {s : State} (hk : Kept al s0 s) :
    Kept al s0 (scBusCycle n s) := by
  unfold scBusCycle
  repeat' first
    | with_reducible assumption
    | lift_lets -underBinder
    | (intro x; subst x)
    | (intro _ t ht; try dsimp -zeta only)
    | with_reducible apply forAll_kept
    | with_reducible apply modSc_kept
    | split

theorem mainsState_kept {al : Allow} {s0 : State} (m : Nat) (tz : Int) (codes : List Int) (temp : Int) {s : State} (hk : Kept al s0 s) :
    Kept al s0 (mainsState m tz codes temp s) := by
  unfold mainsState
  repeat' first
    | with_reducible assumption
    | lift_lets -underBinder
    | (intro x; have hx : Kept al s0 x := (by
        subst x
        repeat' first
          | with_reducible assumption
          | with_reducible apply enterTrk_kept
          | with_reducible apply modTracker_kept
          | with_reducible apply produceTracker_kept
          | split); clear_value x)
    | (intro x; subst x)
    | (intro _ t ht; try dsimp -zeta only)
    | with_reducible apply forAll_kept
    | with_reducible apply loseTracker_kept
    | with_reducible apply scBusCycle_kept
    | with_reducible apply scanSlots_kept
    | split

theorem pointUpdate_kept {al : Allow} {s0 : State} (n : Nat) (p : Pt) {s : State} (hk : Kept al s0 s) :
    Kept al s0 (pointUpdate n p s) := by
  unfold pointUpdate
  repeat' first
    | with_reducible assumption
    | lift_lets -underBinder
    | (intro x; have hx : Kept al s0 x := (by
        subst x
        repeat' first | with_reducible assumption | with_reducible apply modTracker_kept); clear_value x)
    | (intro x; subst x)
    | with_reducible apply enterTrk_kept
    | split

theorem pointTracker_kept {al : Allow} {s0 : State} (n : Nat) {s : State} (hk : Kept al s0 s) :
    Kept al s0 (pointTracker n s) := by
  unfold pointTracker
  repeat' first
    | with_reducible assumption
    | lift_lets -underBinder
    | with_reducible apply pointUpdate_kept
    | with_reducible refine Kept.foldl (fun t x ht => ?_) _ _ ?_

theorem waveUpdate_kept {al : Allow} {s0 : State} (n : Nat) (a : Pt) (r : Pt) {s : State} (hk : Kept al s0 s) :
    Kept al s0 (waveUpdate n a r s) := by
  unfold waveUpdate
  repeat' first
    | with_reducible assumption
    | lift_lets -underBinder
    | (intro x; have hx : Kept al s0 x := (by
        subst x
        repeat' first | with_reducible assumption | with_reducible apply modTracker_kept); clear_value x)
    | (intro x; subst x)
    | with_reducible apply enterTrk_kept
    | split

theorem waveTracker_kept {al : Allow} {s0 : State} (n : Nat) {s : State} (hk : Kept al s0 s) :
    Kept al s0 (waveTracker n s) := by
  unfold waveTracker
  repeat' first
    | with_reducible assumption
    | lift_lets -underBinder
    | with_reducible apply waveUpdate_kept
    | with_reducible refine Kept.foldl (fun t x ht => ?_) _ _ ?_

theorem tickTrackers_kept {al : Allow} {s0 : State} {s : State} (hk : Kept al s0 s) :
    Kept al s0 (tickTrackers s) := by
  unfold tickTrackers
  repeat' first
    | with_reducible assumption
    | lift_lets -underBinder
    | (intro _ t ht; try dsimp -zeta only)
    | with_reducible apply forAll_kept
    | with_reducible apply pointTracker_kept
    | with_reducible apply produceTracker_kept
    | with_reducible apply waveTracker_kept
    | split

theorem coastEnd_kept {al : Allow} {s0 : State} (n : Nat) {s : State} (hk : Kept al s0 s) :
    Kept al s0 (coastEnd n s) := by
  unfold coastEnd
  repeat' first
    | with_reducible assumption
    | lift_lets -underBinder
    | (intro x; have hx : Kept al s0 x := (by
        subst x
        repeat' first | with_reducible assumption | with_reducible apply enterTrk_kept); clear_value x)
    | with_reducible apply returnUnref_kept
    | split

theorem scArmNow_kept {al : Allow} {s0 : State} (i : Nat) (data : List Byte) (u2 : Nat) {s : State} (hk : Kept al s0 s) :
    Kept al s0 (scArmNow i data u2 s).2 := by
  unfold scArmNow
  repeat' first
    | with_reducible assumption
    | lift_lets -underBinder
    | (intro x; subst x)
    | with_reducible apply modSc_kept
    | with_reducible apply scEnd_kept
    | split

theorem scArmOp_kept {al : Allow} {s0 : State} (i : Nat) (data : List Byte) (n : Nat) {s : State} (hk : Kept al s0 s) :
    Kept al s0 (scArmOp i data n s).2 := by
  unfold scArmOp
  repeat' first | with_reducible assumption | with_reducible apply deferred_kept

theorem scCommandState_kept {al : Allow} {s0 : State} (i : Nat) {s : State} (hk : Kept al s0 s) :
    Kept al s0 (scCommandState i s) := by
  unfold scCommandState
  repeat' first
    | with_reducible assumption
    | lift_lets -underBinder
    | (intro x; have hx : Kept al s0 x := (by
        subst x
        repeat' first | with_reducible assumption | with_reducible apply modSc_kept); clear_value x)
    | (intro x; subst x)
    | with_reducible apply waitEdge_kept
    | split

theorem scResume_kept {al : Allow} {s0 : State} {s : State} (hk : Kept al s0 s) :
    Kept al s0 (scResume s) := by
  unfold scResume
  repeat' first
    | with_reducible assumption
    | lift_lets -underBinder
    | (intro x; subst x)
    | (intro _ t ht; try dsimp -zeta only)
    | with_reducible apply forAll_kept
    | with_reducible apply waitEdge_kept
    | split

end Sys2Proof.Machine
end

