-- ==== Sys2Proof/Laws/KeptCan.lean ====
section
/-! SUPPORT. Every operation of Machine/Can.lean keeps what `Kept` names. -/

set_option Elab.async false

namespace Sys2Proof.Machine

theorem landCan_kept {al : Allow} {s0 : State} (p : Nat) (b : Nat) (rx : CanRx) {s : State} (hk : Kept al s0 s) :
    Kept al s0 (landCan p b rx s) := by
  unfold landCan
  repeat' first
    | with_reducible assumption
    | lift_lets -underBinder
    | with_reducible apply modBuf_kept
    | with_reducible apply produceAs_kept
    | split
    | with_reducible refine Kept.foldl (fun t x ht => ?_) _ _ ?_

theorem bufTake_kept {al : Allow} {s0 : State} (p : Nat) (b : Nat) (rx : CanRx) {s : State} (hk : Kept al s0 s) :
    Kept al s0 (bufTake p b rx s) := by
  unfold bufTake
  repeat' first
    | with_reducible assumption
    | lift_lets -underBinder
    | (intro x; subst x)
    | with_reducible apply landCan_kept
    | with_reducible apply modBuf_kept
    | split

theorem canDeliver_kept {al : Allow} {s0 : State} (p : Nat) (rx : CanRx) {s : State} (hk : Kept al s0 s) :
    Kept al s0 (canDeliver p rx s) := by
  unfold canDeliver
  repeat' first
    | with_reducible assumption
    | with_reducible apply bufTake_kept
    | with_reducible apply modPort_kept
    | split

theorem canLevels_kept {al : Allow} {s0 : State} (p : Nat) {s : State} (hk : Kept al s0 s) :
    Kept al s0 (canLevels p s) := by
  unfold canLevels
  repeat' first
    | with_reducible assumption
    | lift_lets -underBinder
    | (intro x; have hx : Kept al s0 x := (by
        subst x
        repeat' first
          | with_reducible assumption
          | with_reducible apply emit_kept
          | with_reducible apply modPort_kept
          | split); clear_value x)
    | (intro x; subst x)
    | with_reducible apply emit_kept
    | split

theorem canGoodRx_kept {al : Allow} {s0 : State} (p : Nat) {s : State} (hk : Kept al s0 s) :
    Kept al s0 (canGoodRx p s) := by
  unfold canGoodRx
  repeat' first
    | with_reducible assumption
    | lift_lets -underBinder
    | (intro x; subst x)
    | with_reducible apply canLevels_kept
    | with_reducible apply draw_kept
    | with_reducible apply modPort_kept
    | split

theorem autobaudGood_kept {al : Allow} {s0 : State} (p : Nat) {s : State} (hk : Kept al s0 s) :
    Kept al s0 (autobaudGood p s) := by
  unfold autobaudGood
  repeat' first
    | with_reducible assumption
    | lift_lets -underBinder
    | (intro x; subst x)
    | with_reducible apply modPort_kept
    | split

theorem canSeenBy_kept {al : Allow} {s0 : State} (p : Nat) (f : CanFrame) {s : State} (hk : Kept al s0 s) :
    Kept al s0 (canSeenBy p f s) := by
  unfold canSeenBy
  repeat' first
    | with_reducible assumption
    | lift_lets -underBinder
    | (intro x; have hx : Kept al s0 x := (by
        subst x
        repeat' first
          | with_reducible assumption
          | lift_lets -underBinder
          | (intro _ t ht; try dsimp -zeta only)
          | with_reducible apply forAll_kept
          | with_reducible apply modBuf_kept); clear_value x)
    | (intro x; subst x)
    | with_reducible refine Kept.put ?_

theorem placeSsp_kept {al : Allow} {s0 : State} (p : Nat) (b : Nat) {s : State} (hk : Kept al s0 s) :
    Kept al s0 (placeSsp p b s) := by
  unfold placeSsp
  repeat' first
    | with_reducible assumption
    | lift_lets -underBinder
    | (intro x; subst x)
    | with_reducible apply draw_kept
    | with_reducible apply modPort_kept
    | split

theorem canOffer_kept {al : Allow} {s0 : State} (p : Nat) {s : State} (hk : Kept al s0 s) :
    Kept al s0 (canOffer p s) := by
  unfold canOffer
  repeat' first
    | with_reducible assumption
    | lift_lets -underBinder
    | (intro x; subst x)
    | with_reducible apply modBuf_kept
    | with_reducible apply placeSsp_kept
    | with_reducible apply send_kept
    | split

theorem canTrigger_kept {al : Allow} {s0 : State} (p : Nat) (b : Nat) {s : State} (hk : Kept al s0 s) :
    Kept al s0 (canTrigger p b s) := by
  unfold canTrigger
  repeat' first
    | with_reducible assumption
    | lift_lets -underBinder
    | (intro x; subst x)
    | with_reducible apply canOffer_kept
    | with_reducible apply modBuf_kept
    | with_reducible apply modPort_kept
    | split

theorem canReleased_kept {al : Allow} {s0 : State} {s : State} (hk : Kept al s0 s) :
    Kept al s0 (canReleased s) := by
  unfold canReleased
  repeat' first
    | with_reducible assumption
    | lift_lets -underBinder
    | (intro x; have hx : Kept al s0 x := (by
        subst x
        repeat' first | with_reducible assumption | with_reducible apply modBuf_kept); clear_value x)
    | (intro x; subst x)
    | (intro _ t ht; try dsimp -zeta only)
    | with_reducible apply canTrigger_kept
    | with_reducible apply forAll_kept
    | split

theorem canRequested_kept {al : Allow} {s0 : State} (l : List (Nat × Nat × Nat × List Byte)) {s : State} (hk : Kept al s0 s) :
    Kept al s0 (canRequested l s) := by
  unfold canRequested
  repeat' first
    | with_reducible assumption
    | lift_lets -underBinder
    | with_reducible apply canTrigger_kept
    | with_reducible apply modBuf_kept
    | with_reducible refine Kept.foldl (fun t x ht => ?_) _ _ ?_

theorem canWithdraw_kept {al : Allow} {s0 : State} {s : State} (hk : Kept al s0 s) :
    Kept al s0 (canWithdraw s) := by
  unfold canWithdraw
  repeat' first
    | with_reducible assumption
    | lift_lets -underBinder
    | (intro _ t ht; try dsimp -zeta only)
    | with_reducible apply forAll_kept
    | with_reducible apply modBuf_kept
    | split

theorem canFrameSentState_kept {al : Allow} {s0 : State} (p : Nat) {s : State} (hk : Kept al s0 s) :
    Kept al s0 (canFrameSentState p s) := by
  unfold canFrameSentState
  repeat' first
    | with_reducible assumption
    | lift_lets -underBinder
    | (intro x; have hx : Kept al s0 x := (by
        subst x
        repeat' first
          | with_reducible assumption
          | lift_lets -underBinder
          | with_reducible apply canLevels_kept
          | with_reducible apply modBuf_kept
          | with_reducible apply modPort_kept); clear_value x)
    | (intro x; subst x)
    | with_reducible apply canOffer_kept
    | split

theorem busOffEnter_kept {al : Allow} {s0 : State} (p : Nat) {s : State} (hk : Kept al s0 s) :
    Kept al s0 (busOffEnter p s) := by
  unfold busOffEnter
  repeat' first
    | with_reducible assumption
    | lift_lets -underBinder
    | (intro x; have hx : Kept al s0 x := (by
        subst x
        repeat' first
          | with_reducible assumption
          | lift_lets -underBinder
          | (intro x; subst x)
          | (intro _ t ht; try dsimp -zeta only)
          | with_reducible apply forAll_kept
          | with_reducible apply modBuf_kept
          | with_reducible apply modPort_kept
          | split); clear_value x)
    | (intro x; subst x)
    | with_reducible apply emit_kept

theorem bitErrorCounted_kept {al : Allow} {s0 : State} (p : Nat) (b : Nat) {s : State} (hk : Kept al s0 s) :
    Kept al s0 (bitErrorCounted p b s) := by
  unfold bitErrorCounted
  repeat' first
    | with_reducible assumption
    | lift_lets -underBinder
    | (intro x; have hx : Kept al s0 x := (by
        subst x
        repeat' first
          | with_reducible assumption
          | with_reducible apply modBuf_kept
          | with_reducible apply modPort_kept); clear_value x)
    | (intro x; subst x)
    | with_reducible apply emit_kept
    | split

theorem canRetry_kept {al : Allow} {s0 : State} (p : Nat) (b : Nat) {s : State} (hk : Kept al s0 s) :
    Kept al s0 (canRetry p b s) := by
  unfold canRetry
  repeat' first | with_reducible assumption | with_reducible apply modBuf_kept | split

theorem canLost_kept {al : Allow} {s0 : State} (p : Nat) {s : State} (hk : Kept al s0 s) :
    Kept al s0 (canLost p s) := by
  unfold canLost
  repeat' first | with_reducible assumption | with_reducible apply canRetry_kept | split

theorem canFrameReceivedState_kept {al : Allow} {s0 : State} (p : Nat) (f : CanFrame) {s : State} (hk : Kept al s0 s) :
    Kept al s0 (canFrameReceivedState p f s) := by
  unfold canFrameReceivedState
  repeat' first
    | with_reducible assumption
    | lift_lets -underBinder
    | (intro x; have hx : Kept al s0 x := (by
        subst x
        repeat' first
          | with_reducible assumption
          | with_reducible apply autobaudGood_kept
          | with_reducible apply canGoodRx_kept
          | with_reducible apply canLost_kept
          | with_reducible apply modPort_kept
          | split); clear_value x)
    | (intro x; subst x)
    | with_reducible apply autobaudGood_kept
    | with_reducible apply canDeliver_kept
    | with_reducible apply canLost_kept
    | with_reducible apply canOffer_kept
    | with_reducible apply canSeenBy_kept
    | with_reducible apply modPort_kept
    | with_reducible apply noteLanding_kept
    | split

theorem autobaudBad_kept {al : Allow} {s0 : State} (p : Nat) {s : State} (hk : Kept al s0 s) :
    Kept al s0 (autobaudBad p s) := by
  unfold autobaudBad
  repeat' first | with_reducible assumption | with_reducible apply modPort_kept

theorem canErrorState_kept {al : Allow} {s0 : State} (p : Nat) (kind : CanErr) (tx : Bool) (spot : CanSpot) {s : State} (hk : Kept al s0 s) :
    Kept al s0 (canErrorState p kind tx spot s) := by
  unfold canErrorState
  repeat' first
    | with_reducible assumption
    | lift_lets -underBinder
    | (intro x; have hx : Kept al s0 x := (by
        subst x
        repeat' first
          | with_reducible assumption
          | with_reducible apply bitErrorCounted_kept
          | with_reducible apply canLevels_kept
          | with_reducible apply canLost_kept
          | with_reducible apply modPort_kept
          | split); clear_value x)
    | (intro x; subst x)
    | with_reducible apply autobaudBad_kept
    | with_reducible apply busOffEnter_kept
    | with_reducible apply canOffer_kept
    | with_reducible apply modPort_kept
    | split

theorem startRecovery_kept {al : Allow} {s0 : State} (p : Nat) {s : State} (hk : Kept al s0 s) :
    Kept al s0 (startRecovery p s) := by
  unfold startRecovery
  repeat' first | with_reducible assumption | with_reducible apply modPort_kept

theorem reenable_kept {al : Allow} {s0 : State} (p : Nat) {s : State} (hk : Kept al s0 s) :
    Kept al s0 (reenable p s) := by
  unfold reenable
  repeat' first
    | with_reducible assumption
    | lift_lets -underBinder
    | (intro _ t ht; try dsimp -zeta only)
    | with_reducible apply forAll_kept
    | with_reducible apply modBuf_kept
    | split

theorem canRecoverNow_kept {al : Allow} {s0 : State} (p : Nat) (data : List Byte) (u2 : Nat) {s : State} (hk : Kept al s0 s) :
    Kept al s0 (canRecoverNow p data u2 s).2 := by
  unfold canRecoverNow
  repeat' first
    | with_reducible assumption
    | with_reducible apply reenable_kept
    | with_reducible apply startRecovery_kept
    | split

theorem canRecoverOp_kept {al : Allow} {s0 : State} (p : Nat) (data : List Byte) (n : Nat) {s : State} (hk : Kept al s0 s) :
    Kept al s0 (canRecoverOp p data n s).2 := by
  unfold canRecoverOp
  repeat' first | with_reducible assumption | with_reducible apply deferred_kept

theorem busOffRecoveryState_kept {al : Allow} {s0 : State} (p : Nat) {s : State} (hk : Kept al s0 s) :
    Kept al s0 (busOffRecoveryState p s) := by
  unfold busOffRecoveryState
  repeat' first
    | with_reducible assumption
    | lift_lets -underBinder
    | (intro x; have hx : Kept al s0 x := (by
        subst x
        repeat' first
          | with_reducible assumption
          | lift_lets -underBinder
          | (intro _ t ht; try dsimp -zeta only)
          | with_reducible apply canLevels_kept
          | with_reducible apply emit_kept
          | with_reducible apply forAll_kept
          | with_reducible apply modBuf_kept
          | with_reducible apply modPort_kept
          | split); clear_value x)
    | (intro x; subst x)
    | with_reducible apply canOffer_kept
    | split

theorem modeChanged_kept {al : Allow} {s0 : State} (p : Nat) {s : State} (hk : Kept al s0 s) :
    Kept al s0 (modeChanged p s) := by
  unfold modeChanged
  repeat' first
    | with_reducible assumption
    | lift_lets -underBinder
    | (intro x; have hx : Kept al s0 x := (by
        subst x
        repeat' first | with_reducible assumption | with_reducible apply modPort_kept); clear_value x)
    | (intro _ t ht; try dsimp -zeta only)
    | with_reducible apply forAll_kept
    | with_reducible apply modBuf_kept
    | with_reducible apply modPort_kept
    | split

theorem applyCan_kept {al : Allow} {s0 : State} (old : Tbl (List Byte)) (p : Nat) {s : State} (hk : Kept al s0 s) :
    Kept al s0 (applyCan old p s) := by
  unfold applyCan
  repeat' first
    | with_reducible assumption
    | lift_lets -underBinder
    | (intro x; have hx : Kept al s0 x := (by
        subst x
        repeat' first
          | with_reducible assumption
          | with_reducible apply canLevels_kept
          | with_reducible apply modPort_kept
          | with_reducible apply modeChanged_kept
          | split); clear_value x)
    | (intro x; subst x)
    | (intro _ t ht; try dsimp -zeta only)
    | with_reducible apply forAll_kept
    | split
    | dsimp -zeta only
    | with_reducible refine Kept.put ?_

theorem canTakeover_kept {al : Allow} {s0 : State} {s : State} (hk : Kept al s0 s) :
    Kept al s0 (canTakeover s) := by
  unfold canTakeover
  repeat' first
    | with_reducible assumption
    | lift_lets -underBinder
    | (intro _ t ht; try dsimp -zeta only)
    | with_reducible apply canOffer_kept
    | with_reducible apply forAll_kept
    | with_reducible apply modPort_kept
    | split

theorem canStandby_kept {al : Allow} {s0 : State} {s : State} (hk : Kept al s0 s) :
    Kept al s0 (canStandby s) := by
  unfold canStandby
  repeat' first
    | with_reducible assumption
    | lift_lets -underBinder
    | (intro _ t ht; try dsimp -zeta only)
    | with_reducible apply forAll_kept
    | with_reducible apply modBuf_kept
    | with_reducible apply modPort_kept
    | split

end Sys2Proof.Machine
end

