-- ==== Sys2Proof/Laws/KeptSafetyOps.lean ====
section
/-! SUPPORT. Every operation of Machine/SafetyOps.lean keeps what `Kept` names. -/

set_option Elab.async false

namespace Sys2Proof.Machine

theorem publishStatus_kept {al : Allow} {s0 : State} {s : State} (hk : Kept al s0 s) :
    Kept al s0 (publishStatus s) := by
  unfold publishStatus
  repeat' first
    | with_reducible assumption
    | lift_lets -underBinder
    | (intro x; subst x)
    | with_reducible apply produce_kept
    | split
    | with_reducible refine Kept.foldl (fun t x ht => ?_) _ _ ?_

theorem codeFunctions_kept {al : Allow} {s0 : State} (used : List Nat) (x : Sio) {s : State} (hk : Kept al s0 s) :
    Kept al s0 (codeFunctions used x s) := by
  unfold codeFunctions
  repeat' first
    | with_reducible assumption
    | lift_lets -underBinder
    | (intro x; subst x)
    | with_reducible refine Kept.put ?_

theorem reinitSafety_kept {al : Allow} {s0 : State} {s : State} (hk : Kept al s0 s) :
    Kept al s0 (reinitSafety s) := by
  unfold reinitSafety
  repeat' first
    | with_reducible assumption
    | lift_lets -underBinder
    | (intro x; subst x)
    | with_reducible refine Kept.putW ?_

theorem sfStart_kept {al : Allow} {s0 : State} {s : State} (hk : Kept al s0 s) :
    Kept al s0 (sfStart s) := by
  unfold sfStart
  repeat' first
    | with_reducible assumption
    | lift_lets -underBinder
    | (intro x; have hx : Kept al s0 x := (by
        subst x
        repeat' first | with_reducible assumption | with_reducible refine Kept.put ?_); clear_value x)
    | (intro x; subst x)
    | (intro _ t ht; try dsimp -zeta only)
    | with_reducible apply forAll_kept
    | with_reducible apply modSf_kept

theorem startFunctions_kept {al : Allow} {s0 : State} {s : State} (hk : Kept al s0 s) :
    Kept al s0 (startFunctions s) := by
  unfold startFunctions
  repeat' first
    | with_reducible assumption
    | lift_lets -underBinder
    | (intro x; have hx : Kept al s0 x := (by
        subst x
        repeat' first | with_reducible assumption | with_reducible apply sfStart_kept); clear_value x)
    | with_reducible apply codeFunctions_kept

theorem enterSafety_kept {al : Allow} {s0 : State} (st : SafetyState) {s : State} (hk : Kept al s0 s) :
    Kept al s0 (enterSafety st s) := by
  unfold enterSafety
  repeat' first
    | with_reducible assumption
    | lift_lets -underBinder
    | (intro x; subst x)
    | with_reducible apply emit_kept
    | split
    | with_reducible refine Kept.put ?_

theorem stagesOff_kept {al : Allow} {s0 : State} {s : State} (hk : Kept al s0 s) :
    Kept al s0 (stagesOff s) := by
  unfold stagesOff
  repeat' first
    | with_reducible assumption
    | lift_lets -underBinder
    | (intro x; subst x)
    | with_reducible refine Kept.put ?_

theorem dropPasses_kept {al : Allow} {s0 : State} {s : State} (hk : Kept al s0 s) :
    Kept al s0 (dropPasses s) := by
  unfold dropPasses
  repeat' first
    | with_reducible assumption
    | lift_lets -underBinder
    | (intro x; subst x)
    | with_reducible refine Kept.put ?_

theorem safeHalt_kept {al : Allow} {s0 : State} {s : State} (hk : Kept al s0 s) :
    Kept al s0 (safeHalt s) := by
  unfold safeHalt
  repeat' first
    | with_reducible assumption
    | lift_lets -underBinder
    | with_reducible apply dropPasses_kept
    | with_reducible apply enterSafety_kept
    | with_reducible apply publishStatus_kept
    | with_reducible apply stagesOff_kept

theorem safeStop_kept {al : Allow} {s0 : State} {s : State} (hk : Kept al s0 s) :
    Kept al s0 (safeStop s) := by
  unfold safeStop
  repeat' first
    | with_reducible assumption
    | lift_lets -underBinder
    | with_reducible apply dropPasses_kept
    | with_reducible apply enterSafety_kept
    | with_reducible apply reinitSafety_kept
    | with_reducible apply startFunctions_kept

theorem noteSafetyFault_kept {al : Allow} {s0 : State} (cause : Nat) (core : Nat) {s : State} (hk : Kept al s0 s) :
    Kept al s0 (noteSafetyFault cause core s) := by
  unfold noteSafetyFault
  repeat' first
    | with_reducible assumption
    | lift_lets -underBinder
    | (intro x; subst x)
    | with_reducible apply emit_kept
    | with_reducible refine Kept.put ?_

theorem safetyFault_kept {al : Allow} {s0 : State} (cause : Nat) (core : Nat) {s : State} (hk : Kept al s0 s) :
    Kept al s0 (safetyFault cause core s) := by
  unfold safetyFault
  repeat' first
    | with_reducible assumption
    | lift_lets -underBinder
    | (intro x; have hx : Kept al s0 x := (by
        subst x
        repeat' first
          | with_reducible assumption
          | with_reducible apply noteSafetyFault_kept
          | with_reducible refine Kept.put ?_); clear_value x)
    | (intro x; subst x)
    | with_reducible apply noteSafetyFault_kept
    | with_reducible apply safeHalt_kept
    | with_reducible apply safeStop_kept
    | split

theorem endPassA_kept {al : Allow} {s0 : State} {s : State} (hk : Kept al s0 s) :
    Kept al s0 (endPassA s) := by
  unfold endPassA
  repeat' first
    | with_reducible assumption
    | lift_lets -underBinder
    | (intro x; subst x)
    | with_reducible refine Kept.put ?_

theorem endPassB_kept {al : Allow} {s0 : State} {s : State} (hk : Kept al s0 s) :
    Kept al s0 (endPassB s) := by
  unfold endPassB
  repeat' first
    | with_reducible assumption
    | lift_lets -underBinder
    | (intro x; subst x)
    | with_reducible refine Kept.put ?_

theorem captureCounts_kept {al : Allow} {s0 : State} {s : State} (hk : Kept al s0 s) :
    Kept al s0 (captureCounts s) := by
  unfold captureCounts
  repeat' first
    | with_reducible assumption
    | lift_lets -underBinder
    | (intro x; have hx : Kept al s0 x := (by
        subst x
        repeat' first | with_reducible assumption | with_reducible apply modTerm_kept); clear_value x)
    | (intro x; subst x)
    | (intro _ t ht; try dsimp -zeta only)
    | with_reducible apply emit_kept
    | with_reducible apply forAll_kept
    | with_reducible apply noteSafetyFault_kept
    | split

theorem dualCounts_kept {al : Allow} {s0 : State} {s : State} (hk : Kept al s0 s) :
    Kept al s0 (dualCounts s) := by
  unfold dualCounts
  repeat' first
    | with_reducible assumption
    | lift_lets -underBinder
    | (intro x; subst x)
    | (intro _ t ht; try dsimp -zeta only)
    | with_reducible apply forAll_kept
    | split
    | with_reducible refine Kept.put ?_

theorem evalSafe_kept {al : Allow} {s0 : State} (f : Nat) {s : State} (hk : Kept al s0 s) :
    Kept al s0 (evalSafe f s) := by
  unfold evalSafe
  repeat' first
    | with_reducible assumption
    | lift_lets -underBinder
    | (intro x; have hx : Kept al s0 x := (by
        subst x
        repeat' first
          | with_reducible assumption
          | with_reducible apply emit_kept
          | with_reducible apply modSf_kept
          | split); clear_value x)
    | (intro x; subst x)
    | with_reducible apply emit_kept
    | split

theorem evalHands_kept {al : Allow} {s0 : State} (f : Nat) {s : State} (hk : Kept al s0 s) :
    Kept al s0 (evalHands f s) := by
  unfold evalHands
  repeat' first
    | with_reducible assumption
    | lift_lets -underBinder
    | (intro x; have hx : Kept al s0 x := (by
        subst x
        repeat' first | with_reducible assumption | with_reducible apply modSf_kept); clear_value x)
    | (intro x; subst x)
    | with_reducible apply emit_kept
    | with_reducible apply modSf_kept
    | split

theorem evaluate_kept {al : Allow} {s0 : State} {s : State} (hk : Kept al s0 s) :
    Kept al s0 (evaluate s) := by
  unfold evaluate
  repeat' first
    | with_reducible assumption
    | lift_lets -underBinder
    | (intro _ t ht; try dsimp -zeta only)
    | with_reducible apply evalHands_kept
    | with_reducible apply evalSafe_kept
    | with_reducible apply forAll_kept
    | split

theorem evaluation_kept {al : Allow} {s0 : State} {s : State} (hk : Kept al s0 s) :
    Kept al s0 (evaluation s) := by
  unfold evaluation
  repeat' first
    | with_reducible assumption
    | lift_lets -underBinder
    | (intro x; have hx : Kept al s0 x := (by
        subst x
        repeat' first | with_reducible assumption | with_reducible apply captureCounts_kept); clear_value x)
    | (intro x; subst x)
    | with_reducible apply dualCounts_kept
    | with_reducible apply evaluate_kept
    | with_reducible refine Kept.put ?_

theorem showSafety_kept {al : Allow} {s0 : State} {s : State} (hk : Kept al s0 s) :
    Kept al s0 (showSafety s) := by
  unfold showSafety
  repeat' first
    | with_reducible assumption
    | lift_lets -underBinder
    | (intro x; subst x)
    | with_reducible refine Kept.put ?_

end Sys2Proof.Machine
end

