-- ==== Sys2Proof/Laws/KeptProgram.lean ====
section
/-! SUPPORT. Every operation of Machine/Program.lean keeps what `Kept` names. -/

set_option Elab.async false

namespace Sys2Proof.Machine

theorem settleClock_kept {al : Allow} {s0 : State} {s : State} (hk : Kept al s0 s) :
    Kept al s0 (settleClock s) := by
  unfold settleClock
  repeat' first
    | with_reducible assumption
    | lift_lets -underBinder
    | (intro x; subst x)
    | with_reducible refine Kept.put ?_

theorem dropPops_kept {al : Allow} {s0 : State} (pops : Tbl Nat) {s : State} (hk : Kept al s0 s) :
    Kept al s0 (dropPops pops s) := by
  unfold dropPops
  repeat' first
    | with_reducible assumption
    | lift_lets -underBinder
    | with_reducible apply modBuf_kept
    | with_reducible refine Kept.foldl (fun t x ht => ?_) _ _ ?_

theorem settleSwap_kept {al : Allow} {s0 : State} {s : State} (hk : Kept al s0 s) :
    Kept al s0 (settleSwap s) := by
  unfold settleSwap
  repeat' first
    | with_reducible assumption
    | lift_lets -underBinder
    | (intro x; subst x)
    | split
    | with_reducible refine Kept.put ?_

theorem commitCycle_kept {al : Allow} {s0 : State} (c : Cycle) {s : State} (hk : Kept al s0 s) :
    Kept al s0 (commitCycle c s) := by
  unfold commitCycle
  repeat' first
    | with_reducible assumption
    | lift_lets -underBinder
    | (intro x; have hx : Kept al s0 x := (by
        subst x
        repeat' first
          | with_reducible assumption
          | with_reducible apply settleSwap_kept
          | with_reducible refine Kept.putW ?_); clear_value x)
    | (intro x; subst x)
    | with_reducible apply dropPops_kept
    | with_reducible apply produceForme_kept
    | with_reducible refine Kept.foldl (fun t x ht => ?_) _ _ ?_

theorem aoApply_kept {al : Allow} {s0 : State} (ch : Nat) {s : State} (hk : Kept al s0 s) :
    Kept al s0 (aoApply ch s) := by
  unfold aoApply
  repeat' first
    | with_reducible assumption
    | lift_lets -underBinder
    | (intro x; subst x)
    | with_reducible apply modAio_kept

theorem afterRelease_kept {al : Allow} {s0 : State} (old : State) {s : State} (hk : Kept al s0 s) :
    Kept al s0 (afterRelease old s) := by
  unfold afterRelease
  repeat' first
    | with_reducible assumption
    | lift_lets -underBinder
    | (intro x; have hx : Kept al s0 x := (by
        subst x
        repeat' first
          | with_reducible assumption
          | lift_lets -underBinder
          | with_reducible apply modDio_kept
          | split
          | with_reducible refine Kept.foldl (fun t x ht => ?_) _ _ ?_); clear_value x)
    | with_reducible apply canReleased_kept
    | with_reducible apply canTakeover_kept
    | split

theorem endAwaiting_kept {al : Allow} {s0 : State} (vs : List (Nat × BitVec 32)) {s : State} (hk : Kept al s0 s) :
    Kept al s0 (endAwaiting vs s) := by
  unfold endAwaiting
  repeat' first
    | with_reducible assumption
    | lift_lets -underBinder
    | (intro x; have hx : Kept al s0 x := (by
        subst x
        repeat' first
          | with_reducible assumption
          | lift_lets -underBinder
          | with_reducible apply modDio_kept
          | split
          | with_reducible refine Kept.foldl (fun t x ht => ?_) _ _ ?_); clear_value x)
    | with_reducible apply modAio_kept
    | split
    | with_reducible refine Kept.foldl (fun t x ht => ?_) _ _ ?_

theorem aoReapply_kept {al : Allow} {s0 : State} (vs : List (Nat × BitVec 32)) {s : State} (hk : Kept al s0 s) :
    Kept al s0 (aoReapply vs s) := by
  unfold aoReapply
  repeat' first
    | with_reducible assumption
    | lift_lets -underBinder
    | with_reducible apply aoApply_kept
    | split
    | with_reducible refine Kept.foldl (fun t x ht => ?_) _ _ ?_

theorem releaseValues_kept {al : Allow} {s0 : State} (vs : List (Nat × BitVec 32)) {s : State} (hk : Kept al s0 s) :
    Kept al s0 (releaseValues vs s) := by
  unfold releaseValues
  repeat' first
    | with_reducible assumption
    | lift_lets -underBinder
    | with_reducible apply afterRelease_kept
    | with_reducible apply aoReapply_kept
    | with_reducible apply endAwaiting_kept
    | with_reducible apply releasePoint_kept
    | with_reducible refine Kept.foldl (fun t x ht => ?_) _ _ ?_

theorem releaseCycle_kept {al : Allow} {s0 : State} (c : Cycle) {s : State} (hk : Kept al s0 s) :
    Kept al s0 (releaseCycle c s) := by
  unfold releaseCycle
  repeat' first
    | with_reducible assumption
    | lift_lets -underBinder
    | (intro x; have hx : Kept al s0 x := (by
        subst x
        repeat' first
          | with_reducible assumption
          | lift_lets -underBinder
          | with_reducible apply canRequested_kept
          | with_reducible apply releaseValues_kept
          | with_reducible refine Kept.put ?_); clear_value x)
    | (intro x; subst x)
    | with_reducible apply reenable_kept
    | with_reducible apply startRecovery_kept
    | split
    | with_reducible refine Kept.foldl (fun t x ht => ?_) _ _ ?_

theorem releaseCommitted_kept {al : Allow} {s0 : State} (c : Cycle) {s : State} (hk : Kept al s0 s) :
    Kept al s0 (releaseCommitted c s) := by
  unfold releaseCommitted
  repeat' first
    | with_reducible assumption
    | lift_lets -underBinder
    | (intro x; subst x)
    | with_reducible apply releaseCycle_kept
    | split
    | with_reducible refine Kept.put ?_

theorem firstReleases_kept {al : Allow} {s0 : State} {s : State} (hk : Kept al s0 s) :
    Kept al s0 (firstReleases s) := by
  unfold firstReleases
  repeat' first
    | with_reducible assumption
    | lift_lets -underBinder
    | (intro x; subst x)
    | with_reducible apply releaseCycle_kept
    | split
    | with_reducible refine Kept.foldl (fun t x ht => ?_) _ _ ?_
    | with_reducible refine Kept.put ?_

theorem noteCarried_kept {al : Allow} {s0 : State} {s : State} (hk : Kept al s0 s) :
    Kept al s0 (noteCarried s) := by
  unfold noteCarried
  repeat' first
    | with_reducible assumption
    | lift_lets -underBinder
    | (intro x; subst x)
    | with_reducible refine Kept.put ?_

theorem sendCommit_kept {al : Allow} {s0 : State} (kind : Nat) (content : List Nat) {s : State} (hk : Kept al s0 s) :
    Kept al s0 (sendCommit kind content s) := by
  unfold sendCommit
  repeat' first
    | with_reducible assumption
    | lift_lets -underBinder
    | with_reducible apply noteCarried_kept
    | with_reducible apply sendSync_kept

theorem forceAcked_kept {al : Allow} {s0 : State} (q : Nat) {s : State} (hk : Kept al s0 s) :
    Kept al s0 (forceAcked q s) := by
  unfold forceAcked
  repeat' first
    | with_reducible assumption
    | lift_lets -underBinder
    | (intro x; subst x)
    | with_reducible refine Kept.put ?_

theorem tryHandover_kept {al : Allow} {s0 : State} {s : State} (hk : Kept al s0 s) :
    Kept al s0 (tryHandover s) := by
  unfold tryHandover
  repeat' first
    | with_reducible assumption
    | lift_lets -underBinder
    | (intro x; have hx : Kept al s0 x := (by
        subst x
        repeat' first | with_reducible assumption | with_reducible apply sendSync_kept); clear_value x)
    | (intro x; subst x)
    | split
    | with_reducible refine Kept.put ?_

theorem storeDirty_kept {al : Allow} {s0 : State} (r : TaskRec) {s : State} (hk : Kept al s0 s) :
    Kept al s0 (storeDirty r s) := by
  unfold storeDirty
  repeat' first | with_reducible assumption | with_reducible apply commitCycle_kept

theorem storeRec_kept {al : Allow} {s0 : State} (k : Nat) {s : State} (hk : Kept al s0 s) :
    Kept al s0 (storeRec k s) := by
  unfold storeRec
  repeat' first
    | with_reducible assumption
    | lift_lets -underBinder
    | (intro x; subst x)
    | with_reducible apply storeDirty_kept
    | split
    | with_reducible refine Kept.put ?_

theorem finishStored_kept {al : Allow} {s0 : State} (k : Nat) (c : Cycle) (r : TaskRec) {s : State} (hk : Kept al s0 s) :
    Kept al s0 (finishStored k c r s) := by
  unfold finishStored
  repeat' first
    | with_reducible assumption
    | lift_lets -underBinder
    | (intro x; have hx : Kept al s0 x := (by
        subst x
        repeat' first
          | with_reducible assumption
          | lift_lets -underBinder
          | with_reducible apply storeDirty_kept
          | with_reducible refine Kept.put ?_); clear_value x)
    | (intro x; subst x)
    | with_reducible apply commitCycle_kept
    | with_reducible apply releaseCommitted_kept

theorem failSwitchover_kept {al : Allow} {s0 : State} {s : State} (hk : Kept al s0 s) :
    Kept al s0 (failSwitchover s) := by
  unfold failSwitchover
  repeat' first | with_reducible assumption | with_reducible apply cmdFail_kept | split

theorem enterUnsynced_kept {al : Allow} {s0 : State} {s : State} (hk : Kept al s0 s) :
    Kept al s0 (enterUnsynced s) := by
  unfold enterUnsynced
  repeat' first
    | with_reducible assumption
    | lift_lets -underBinder
    | (intro x; have hx : Kept al s0 x := (by
        subst x
        repeat' first | with_reducible assumption | with_reducible apply failSwitchover_kept); clear_value x)
    | (intro x; subst x)
    | with_reducible apply enterPair_kept
    | with_reducible refine Kept.put ?_

theorem pairTask_kept {al : Allow} {s0 : State} (k : Nat) (c : Cycle) (r : TaskRec) {s : State} (hk : Kept al s0 s) :
    Kept al s0 (pairTask k c r s) := by
  unfold pairTask
  repeat' first
    | with_reducible assumption
    | lift_lets -underBinder
    | (intro x; have hx : Kept al s0 x := (by
        subst x
        repeat' first
          | with_reducible assumption
          | lift_lets -underBinder
          | with_reducible apply storeDirty_kept
          | with_reducible refine Kept.put ?_); clear_value x)
    | (intro x; subst x)
    | with_reducible apply enterUnsynced_kept
    | with_reducible apply finishStored_kept
    | split

theorem finishCycle_kept {al : Allow} {s0 : State} (k : Nat) (c : Cycle) {s : State} (hk : Kept al s0 s) :
    Kept al s0 (finishCycle k c s) := by
  unfold finishCycle
  repeat' first
    | with_reducible assumption
    | lift_lets -underBinder
    | (intro x; have hx : Kept al s0 x := (by
        subst x
        repeat' first | with_reducible assumption | with_reducible apply sendCommit_kept | split); clear_value x)
    | (intro x; subst x)
    | with_reducible apply commitCycle_kept
    | with_reducible apply pairTask_kept
    | with_reducible apply releaseCommitted_kept
    | split
    | with_reducible refine Kept.put ?_

theorem endCycle_kept {al : Allow} {s0 : State} (k : Nat) {s : State} (hk : Kept al s0 s) :
    Kept al s0 (endCycle k s) := by
  unfold endCycle
  repeat' first
    | with_reducible assumption
    | lift_lets -underBinder
    | (intro x; subst x)
    | with_reducible apply finishCycle_kept
    | with_reducible apply modTask_kept
    | split

theorem abandonCycle_kept {al : Allow} {s0 : State} (k : Nat) {s : State} (hk : Kept al s0 s) :
    Kept al s0 (abandonCycle k s) := by
  unfold abandonCycle
  repeat' first | with_reducible assumption | with_reducible apply modTask_kept | split

theorem abandonAll_kept {al : Allow} {s0 : State} {s : State} (hk : Kept al s0 s) :
    Kept al s0 (abandonAll s) := by
  unfold abandonAll
  repeat' first
    | with_reducible assumption
    | lift_lets -underBinder
    | (intro _ t ht; try dsimp -zeta only)
    | with_reducible apply abandonCycle_kept
    | with_reducible apply forAll_kept

theorem changeOver_kept {al : Allow} {s0 : State} {s : State} (hk : Kept al s0 s) :
    Kept al s0 (changeOver s) := by
  unfold changeOver
  repeat' first | with_reducible assumption | with_reducible apply releaseKept_kept

theorem swapIn_kept {al : Allow} {s0 : State} (new : Forme) {m : Migrated} (hm : m.wf) (g : Nat) {s : State} (hk : Kept al s0 s) :
    Kept al s0 (swapIn new m g s) :=
  hk.trans ⟨⟨rfl, rfl, List.suffix_refl _, List.suffix_refl _, Nat.le_refl _, fun _ _ m => m, fun _ => rfl, fun _ => rfl, fun _ => rfl⟩,
    fun k => ⟨k.queue, k.gasp, k.leases, k.hsr, k.spare, k.retiredOnce, hm.1, hm.2.1, hm.2.2, k.store, k.storeInst, k.bulk,
      k.refused, k.formeBytes, k.plain⟩⟩

theorem swapNow_kept {al : Allow} {s0 : State} (pauseUs : Nat) {s : State} (hk : Kept al s0 s) :
    Kept al s0 (swapNow pauseUs s) := by
  unfold swapNow
  split
  · exact hk
  · lift_lets
    intro s1 m g r s2 s3 s4
    have h2 : Kept al s0 s2 := swapIn_kept _ (migrate_wf _ _ _) _ (abandonAll_kept (settleClock_kept hk))
    clear_value s2
    have h3 : Kept al s0 s3 := by
      subst s3
      split
      · exact settleSwap_kept h2
      · exact h2
    clear_value s3
    have h4 : Kept al s0 s4 := emit_kept _ _ _ h3
    clear_value s4
    refine changeOver_kept ?_
    split
    · exact cmdDone_kept _ _ h4
    · exact h4

theorem abandonChange_kept {al : Allow} {s0 : State} (a : Abort) {s : State} (hk : Kept al s0 s) :
    Kept al s0 (abandonChange a s) := by
  unfold abandonChange
  repeat' first
    | with_reducible assumption
    | lift_lets -underBinder
    | (intro x; have hx : Kept al s0 x := (by
        subst x
        repeat' first
          | with_reducible assumption
          | with_reducible apply emit_kept
          | with_reducible refine Kept.put ?_); clear_value x)
    | (intro x; subst x)
    | with_reducible apply changeOver_kept
    | with_reducible apply cmdFail_kept

theorem enterStop_kept {al : Allow} {s0 : State} (cause : Nat) {s : State} (hk : Kept al s0 s) :
    Kept al s0 (enterStop cause s) := by
  unfold enterStop
  repeat' first
    | with_reducible assumption
    | lift_lets -underBinder
    | (intro x; have hx : Kept al s0 x := (by
        subst x
        repeat' first
          | with_reducible assumption
          | lift_lets -underBinder
          | with_reducible apply abandonAll_kept
          | with_reducible apply canWithdraw_kept
          | with_reducible apply emit_kept
          | with_reducible apply scAbortArmed_kept
          | with_reducible apply settleClock_kept
          | with_reducible refine Kept.put ?_); clear_value x)
    | (intro x; subst x)
    | with_reducible apply swapNow_kept
    | split

theorem enterHold_kept {al : Allow} {s0 : State} (until_ : Nat) {s : State} (hk : Kept al s0 s) :
    Kept al s0 (enterHold until_ s) := by
  unfold enterHold
  repeat' first
    | with_reducible assumption
    | lift_lets -underBinder
    | (intro x; have hx : Kept al s0 x := (by
        subst x
        repeat' first
          | with_reducible assumption
          | with_reducible apply settleClock_kept
          | with_reducible refine Kept.put ?_); clear_value x)
    | (intro x; subst x)
    | with_reducible apply emit_kept
    | with_reducible apply scAbortArmed_kept

theorem taskFault_kept {al : Allow} {s0 : State} (k : Nat) (kind : Nat) (off : Nat) {s : State} (hk : Kept al s0 s) :
    Kept al s0 (taskFault k kind off s) := by
  unfold taskFault
  repeat' first
    | with_reducible assumption
    | lift_lets -underBinder
    | (intro x; have hx : Kept al s0 x := (by
        subst x
        repeat' first
          | with_reducible assumption
          | with_reducible apply abandonCycle_kept
          | with_reducible apply emit_kept
          | with_reducible apply modTask_kept); clear_value x)
    | with_reducible apply enterStop_kept
    | split

theorem missRelease_kept {al : Allow} {s0 : State} (k : Nat) {s : State} (hk : Kept al s0 s) :
    Kept al s0 (missRelease k s) := by
  unfold missRelease
  repeat' first
    | with_reducible assumption
    | lift_lets -underBinder
    | (intro x; have hx : Kept al s0 x := (by
        subst x
        repeat' first | with_reducible assumption | with_reducible apply modTask_kept); clear_value x)
    | (intro x; subst x)
    | with_reducible apply taskFault_kept
    | split

theorem releaseTask_kept {al : Allow} {s0 : State} (k : Nat) (clock : Int) (step : Bool) {s : State} (hk : Kept al s0 s) :
    Kept al s0 (releaseTask k clock step s) := by
  unfold releaseTask
  repeat' first
    | with_reducible assumption
    | lift_lets -underBinder
    | (intro x; subst x)
    | with_reducible apply modTask_kept

theorem releaseOrMiss_kept {al : Allow} {s0 : State} (k : Nat) (clock : Int) {s : State} (hk : Kept al s0 s) :
    Kept al s0 (releaseOrMiss k clock s) := by
  unfold releaseOrMiss
  repeat' first
    | with_reducible assumption
    | with_reducible apply missRelease_kept
    | with_reducible apply releaseTask_kept
    | split

theorem gridRelease_kept {al : Allow} {s0 : State} (k : Nat) {s : State} (hk : Kept al s0 s) :
    Kept al s0 (gridRelease k s) := by
  unfold gridRelease
  repeat' first
    | with_reducible assumption
    | lift_lets -underBinder
    | (intro x; subst x)
    | with_reducible apply modTask_kept
    | with_reducible apply releaseOrMiss_kept
    | split

theorem releaseAllCyclic_kept {al : Allow} {s0 : State} {s : State} (hk : Kept al s0 s) :
    Kept al s0 (releaseAllCyclic s) := by
  unfold releaseAllCyclic
  repeat' first
    | with_reducible assumption
    | lift_lets -underBinder
    | (intro _ t ht; try dsimp -zeta only)
    | with_reducible apply forAll_kept
    | with_reducible apply gridRelease_kept

theorem triggerTask_kept {al : Allow} {s0 : State} (k : Nat) (at_ : Int) {s : State} (hk : Kept al s0 s) :
    Kept al s0 (triggerTask k at_ s) := by
  unfold triggerTask
  repeat' first
    | with_reducible assumption
    | lift_lets -underBinder
    | (intro x; subst x)
    | with_reducible apply modTask_kept
    | with_reducible apply releaseOrMiss_kept
    | split

theorem enterRun_kept {al : Allow} {s0 : State} {s : State} (hk : Kept al s0 s) :
    Kept al s0 (enterRun s) := by
  unfold enterRun
  repeat' first
    | with_reducible assumption
    | lift_lets -underBinder
    | (intro x; have hx : Kept al s0 x := (by
        subst x
        repeat' first | with_reducible assumption | with_reducible refine Kept.put ?_); clear_value x)
    | (intro x; subst x)
    | with_reducible apply emit_kept
    | with_reducible apply releaseAllCyclic_kept

theorem resumeRun_kept {al : Allow} {s0 : State} {s : State} (hk : Kept al s0 s) :
    Kept al s0 (resumeRun s) := by
  unfold resumeRun
  repeat' first
    | with_reducible assumption
    | lift_lets -underBinder
    | (intro x; have hx : Kept al s0 x := (by
        subst x
        repeat' first
          | with_reducible assumption
          | lift_lets -underBinder
          | (intro _ t ht; try dsimp -zeta only)
          | with_reducible apply forAll_kept
          | with_reducible apply modTask_kept
          | split
          | with_reducible refine Kept.put ?_); clear_value x)
    | (intro x; subst x)
    | (intro _ t ht; try dsimp -zeta only)
    | with_reducible apply canOffer_kept
    | with_reducible apply emit_kept
    | with_reducible apply forAll_kept

end Sys2Proof.Machine
end

