-- ==== Sys2Proof/Laws/KeptExecutor.lean ====
section
/-! SUPPORT. Every operation of Machine/Executor.lean keeps what `Kept` names. -/

set_option Elab.async false

namespace Sys2Proof.Machine

theorem setCycle_kept {al : Allow} {s0 : State} (x : Ctx) (c : Cycle) {s : State} (hk : Kept al s0 s) :
    Kept al s0 (setCycle x c s) := by
  unfold setCycle
  repeat' first
    | with_reducible assumption
    | lift_lets -underBinder
    | (intro x; subst x)
    | with_reducible apply modTask_kept
    | split
    | with_reducible refine Kept.put ?_

theorem noteStart_kept {al : Allow} {s0 : State} (x : Ctx) {s : State} (hk : Kept al s0 s) :
    Kept al s0 (noteStart x s) := by
  unfold noteStart
  repeat' first | with_reducible assumption | with_reducible apply modTask_kept | split

theorem onWord_kept {al : Allow} {s0 : State} (x : Ctx) (f : Cycle → State → State) (hf : ∀ c t, Kept al s0 t → Kept al s0 (f c t)) {s : State} (hk : Kept al s0 s) :
    Kept al s0 (onWord x f s) := by
  unfold onWord
  repeat' first
    | with_reducible assumption
    | with_reducible apply hf
    | lift_lets -underBinder
    | (intro x; have hx : Kept al s0 x := (by
        subst x
        repeat' first | with_reducible assumption | with_reducible apply noteStart_kept); clear_value x)
    | split

theorem onCode_kept {al : Allow} {s0 : State} (x : Ctx) (w : BitVec 32) (f : Cycle → State → State) (hf : ∀ c t, Kept al s0 t → Kept al s0 (f c t)) {s : State} (hk : Kept al s0 s) :
    Kept al s0 (onCode x w f s) := by
  unfold onCode
  repeat' first | with_reducible assumption | with_reducible apply onWord_kept | split

theorem wordFault_kept {al : Allow} {s0 : State} (x : Ctx) (kind : Nat) (c : Cycle) {s : State} (hk : Kept al s0 s) :
    Kept al s0 (wordFault x kind c s) := by
  unfold wordFault
  repeat' first
    | with_reducible assumption
    | with_reducible apply safetyFault_kept
    | with_reducible apply taskFault_kept
    | split

theorem withReg_kept {al : Allow} {s0 : State} (x : Ctx) (w : Nat) (c : Cycle) (f : Word64 → State → State) (hf : ∀ c t, Kept al s0 t → Kept al s0 (f c t)) {s : State} (hk : Kept al s0 s) :
    Kept al s0 (withReg x w c f s) := by
  unfold withReg
  repeat' first
    | with_reducible assumption
    | with_reducible apply hf
    | with_reducible apply safetyFault_kept
    | split

theorem noteArith_kept {al : Allow} {s0 : State} (x : Ctx) (b : Bool) {s : State} (hk : Kept al s0 s) :
    Kept al s0 (noteArith x b s) := by
  unfold noteArith
  repeat' first | with_reducible assumption | with_reducible apply modTask_kept | split

theorem regState_kept {al : Allow} {s0 : State} (x : Ctx) (op : Nat) (dst : Nat) (a : Nat) (b : Nat) (ty : Nat) {s : State} (hk : Kept al s0 s) :
    Kept al s0 (regState x op dst a b ty s) := by
  unfold regState
  repeat' first
    | with_reducible assumption
    | lift_lets -underBinder
    | (intro x; subst x)
    | (intro _ t ht; try dsimp -zeta only)
    | with_reducible apply noteArith_kept
    | with_reducible apply onCode_kept
    | with_reducible apply safetyFault_kept
    | with_reducible apply setCycle_kept
    | with_reducible apply withReg_kept
    | with_reducible apply wordFault_kept
    | split

theorem immState_kept {al : Allow} {s0 : State} (x : Ctx) (op : Nat) (dst : Nat) (imm : Nat) {s : State} (hk : Kept al s0 s) :
    Kept al s0 (immState x op dst imm s) := by
  unfold immState
  repeat' first
    | with_reducible assumption
    | lift_lets -underBinder
    | (intro x; subst x)
    | (intro _ t ht; try dsimp -zeta only)
    | with_reducible apply noteArith_kept
    | with_reducible apply onCode_kept
    | with_reducible apply setCycle_kept
    | with_reducible apply withReg_kept

theorem frameLoadState_kept {al : Allow} {s0 : State} (x : Ctx) (w : Nat) (base : Nat) (off : Nat) {s : State} (hk : Kept al s0 s) :
    Kept al s0 (frameLoadState x w base off s) := by
  unfold frameLoadState
  repeat' first
    | with_reducible assumption
    | lift_lets -underBinder
    | (intro x; subst x)
    | (intro _ t ht; try dsimp -zeta only)
    | with_reducible apply onCode_kept
    | with_reducible apply safetyFault_kept
    | with_reducible apply setCycle_kept
    | with_reducible apply wordFault_kept
    | split

theorem dirtyChecked_kept {al : Allow} {s0 : State} (x : Ctx) (c : Cycle) {s : State} (hk : Kept al s0 s) :
    Kept al s0 (dirtyChecked x c s) := by
  unfold dirtyChecked
  repeat' first
    | with_reducible assumption
    | lift_lets -underBinder
    | with_reducible apply setCycle_kept
    | with_reducible apply wordFault_kept
    | split

theorem passStore_kept {al : Allow} {s0 : State} (x : Ctx) (a : Nat) (v : Word64) {s : State} (hk : Kept al s0 s) :
    Kept al s0 (passStore x a v s) := by
  unfold passStore
  repeat' first
    | with_reducible assumption
    | lift_lets -underBinder
    | (intro x; subst x)
    | split
    | with_reducible refine Kept.put ?_
    | with_reducible refine Kept.putW ?_

theorem frameStoreState_kept {al : Allow} {s0 : State} (x : Ctx) (w : Nat) (base : Nat) (off : Nat) {s : State} (hk : Kept al s0 s) :
    Kept al s0 (frameStoreState x w base off s) := by
  unfold frameStoreState
  repeat' first
    | with_reducible assumption
    | lift_lets -underBinder
    | (intro x; have hx : Kept al s0 x := (by
        subst x
        repeat' first | with_reducible assumption | with_reducible apply setCycle_kept); clear_value x)
    | (intro x; subst x)
    | (intro _ t ht; try dsimp -zeta only)
    | with_reducible apply dirtyChecked_kept
    | with_reducible apply onCode_kept
    | with_reducible apply passStore_kept
    | with_reducible apply withReg_kept
    | with_reducible apply wordFault_kept
    | split

theorem freeRead_kept {al : Allow} {s0 : State} (x : Ctx) (w : Nat) (c : Cycle) {s : State} (hk : Kept al s0 s) :
    Kept al s0 (freeRead x w c s) := by
  unfold freeRead
  repeat' first
    | with_reducible assumption
    | lift_lets -underBinder
    | with_reducible apply draw_kept
    | with_reducible apply setCycle_kept

theorem pointRead_kept {al : Allow} {s0 : State} (x : Ctx) (op : Nat) (w : Nat) (point : Nat) (f : Pt → Word64) {s : State} (hk : Kept al s0 s) :
    Kept al s0 (pointRead x op w point f s) := by
  unfold pointRead
  repeat' first
    | with_reducible assumption
    | lift_lets -underBinder
    | (intro x; subst x)
    | (intro _ t ht; try dsimp -zeta only)
    | with_reducible apply freeRead_kept
    | with_reducible apply onCode_kept
    | with_reducible apply safetyFault_kept
    | with_reducible apply setCycle_kept
    | with_reducible apply wordFault_kept
    | split

theorem pointWriteState_kept {al : Allow} {s0 : State} (x : Ctx) (w : Nat) (point : Nat) {s : State} (hk : Kept al s0 s) :
    Kept al s0 (pointWriteState x w point s) := by
  unfold pointWriteState
  repeat' first
    | with_reducible assumption
    | lift_lets -underBinder
    | (intro x; have hx : Kept al s0 x := (by
        subst x
        repeat' first | with_reducible assumption | with_reducible apply setCycle_kept); clear_value x)
    | (intro x; subst x)
    | (intro _ t ht; try dsimp -zeta only)
    | with_reducible apply dirtyChecked_kept
    | with_reducible apply onCode_kept
    | with_reducible apply withReg_kept
    | with_reducible apply wordFault_kept
    | split
    | with_reducible refine Kept.put ?_

theorem callUserState_kept {al : Allow} {s0 : State} (x : Ctx) (d : Nat) {s : State} (hk : Kept al s0 s) :
    Kept al s0 (callUserState x d s) := by
  unfold callUserState
  repeat' first
    | with_reducible assumption
    | lift_lets -underBinder
    | (intro x; subst x)
    | (intro _ t ht; try dsimp -zeta only)
    | with_reducible apply onCode_kept
    | with_reducible apply setCycle_kept
    | with_reducible apply wordFault_kept
    | split

theorem callRomState_kept {al : Allow} {s0 : State} (x : Ctx) (d : Nat) {s : State} (hk : Kept al s0 s) :
    Kept al s0 (callRomState x d s) := by
  unfold callRomState
  repeat' first
    | with_reducible assumption
    | lift_lets -underBinder
    | (intro x; subst x)
    | (intro _ t ht; try dsimp -zeta only)
    | with_reducible apply onCode_kept
    | with_reducible apply setCycle_kept

theorem endOfCycle_kept {al : Allow} {s0 : State} (x : Ctx) (arg : Nat) {s : State} (hk : Kept al s0 s) :
    Kept al s0 (endOfCycle x arg s) := by
  unfold endOfCycle
  repeat' first
    | with_reducible assumption
    | lift_lets -underBinder
    | (intro _ t ht; try dsimp -zeta only)
    | with_reducible apply endCycle_kept
    | with_reducible apply endPassA_kept
    | with_reducible apply endPassB_kept
    | with_reducible apply onCode_kept
    | split

end Sys2Proof.Machine
end

