-- ==== Sys2Proof/Laws/KeptBlocks.lean ====
section
/-! SUPPORT. Every operation of Machine/Blocks.lean keeps what `Kept` names. -/

set_option Elab.async false

namespace Sys2Proof.Machine

theorem putBlock_kept {al : Allow} {s0 : State} (x : Ctx) (number : Nat) (bytes : Nat) (i : Nat) (b : BlockInst) (res : List Nat) (c : Cycle) {s : State} (hk : Kept al s0 s) :
    Kept al s0 (putBlock x number bytes i b res c s) := by
  unfold putBlock
  repeat' first
    | with_reducible assumption
    | lift_lets -underBinder
    | (intro x; have hx : Kept al s0 x := (by
        subst x
        repeat' first | with_reducible assumption | with_reducible apply setCycle_kept); clear_value x)
    | (intro x; subst x)
    | with_reducible apply setCycle_kept
    | with_reducible apply wordFault_kept
    | split
    | with_reducible refine Kept.put ?_

theorem runBlock_kept {al : Allow} {s0 : State} (x : Ctx) (number : Nat) (bytes : Nat) (inst : Nat) (f : BlockInst → BlockInst × List Nat) {s : State} (hk : Kept al s0 s) :
    Kept al s0 (runBlock x number bytes inst f s) := by
  unfold runBlock
  repeat' first
    | with_reducible assumption
    | lift_lets -underBinder
    | (intro x; subst x)
    | (intro _ t ht; try dsimp -zeta only)
    | with_reducible apply onWord_kept
    | with_reducible apply putBlock_kept
    | with_reducible apply safetyFault_kept
    | split

theorem onFunction_kept {al : Allow} {s0 : State} (k : Fin 48) (number : Nat) (f : Cycle → State → State) (hf : ∀ c t, Kept al s0 t → Kept al s0 (f c t)) {s : State} (hk : Kept al s0 s) :
    Kept al s0 (onFunction k number f s) := by
  unfold onFunction
  repeat' first
    | with_reducible assumption
    | with_reducible apply hf
    | lift_lets -underBinder
    | (intro _ t ht; try dsimp -zeta only)
    | with_reducible apply onWord_kept
    | split

theorem canRecvState_kept {al : Allow} {s0 : State} (k : Fin 48) (p : Nat) (b : Nat) {s : State} (hk : Kept al s0 s) :
    Kept al s0 (canRecvState k p b s) := by
  unfold canRecvState
  repeat' first
    | with_reducible assumption
    | lift_lets -underBinder
    | (intro x; subst x)
    | (intro _ t ht; try dsimp -zeta only)
    | with_reducible apply onFunction_kept
    | with_reducible apply setCycle_kept
    | split

theorem canSendState_kept {al : Allow} {s0 : State} (k : Fin 48) (p : Nat) (b : Nat) (id : Nat) (data : List Byte) {s : State} (hk : Kept al s0 s) :
    Kept al s0 (canSendState k p b id data s) := by
  unfold canSendState
  repeat' first
    | with_reducible assumption
    | lift_lets -underBinder
    | (intro x; subst x)
    | (intro _ t ht; try dsimp -zeta only)
    | with_reducible apply onFunction_kept
    | with_reducible apply setCycle_kept

theorem canStateOp_kept {al : Allow} {s0 : State} (k : Fin 48) (p : Nat) (op : Nat) {s : State} (hk : Kept al s0 s) :
    Kept al s0 (canStateOp k p op s) := by
  unfold canStateOp
  repeat' first
    | with_reducible assumption
    | lift_lets -underBinder
    | (intro x; subst x)
    | (intro _ t ht; try dsimp -zeta only)
    | with_reducible apply onFunction_kept
    | with_reducible apply setCycle_kept

theorem sfBlock_kept {al : Allow} {s0 : State} (x : Ctx) (kind : Nat) (f : Nat) {s : State} (hk : Kept al s0 s) :
    Kept al s0 (sfBlock x kind f s) := by
  unfold sfBlock
  repeat' first
    | with_reducible assumption
    | lift_lets -underBinder
    | (intro x; subst x)
    | (intro _ t ht; try dsimp -zeta only)
    | with_reducible apply onWord_kept
    | with_reducible apply safetyFault_kept
    | with_reducible apply setCycle_kept
    | with_reducible apply wordFault_kept
    | split

end Sys2Proof.Machine
end

