-- ==== Sys2Proof/Laws/KeptModes.lean ====
section
/-! SUPPORT. Every operation of Machine/Modes.lean keeps what `Kept` names. -/

set_option Elab.async false

namespace Sys2Proof.Machine

theorem cmdAccept_kept {al : Allow} {s0 : State} (c : Nat) (n : Nat) {s : State} (hk : Kept al s0 s) :
    Kept al s0 (cmdAccept c n s).2 := by
  unfold cmdAccept
  repeat' first | with_reducible assumption | with_reducible apply cmdStart_kept

theorem keepLeases_kept {al : Allow} {s0 : State} (cmd : Nat) (n : Nat) (areas : List Nat) {s : State} (hk : Kept al s0 s) :
    Kept al s0 (keepLeases cmd n areas s) := by
  unfold keepLeases
  repeat' first
    | with_reducible assumption
    | lift_lets -underBinder
    | (intro x; subst x)
    | with_reducible refine Kept.put ?_

theorem setStop_kept {al : Allow} {s0 : State} (n : Nat) {s : State} (hk : Kept al s0 s) :
    Kept al s0 (setStop n s).2 := by
  unfold setStop
  repeat' first
    | with_reducible assumption
    | lift_lets -underBinder
    | (intro x; have hx : Kept al s0 x := (by
        subst x
        repeat' first
          | with_reducible assumption
          | with_reducible apply cmdFail_kept
          | split
          | with_reducible refine Kept.put ?_); clear_value x)
    | (intro x; subst x)
    | with_reducible apply cmdDone_kept
    | with_reducible apply cmdStart_kept
    | with_reducible apply enterStop_kept

theorem setRun_kept {al : Allow} {s0 : State} (n : Nat) {s : State} (hk : Kept al s0 s) :
    Kept al s0 (setRun n s).2 := by
  unfold setRun
  repeat' first
    | with_reducible assumption
    | lift_lets -underBinder
    | (intro x; subst x)
    | with_reducible apply cmdDone_kept
    | with_reducible apply cmdStart_kept
    | with_reducible apply resumeRun_kept
    | split
    | with_reducible refine Kept.put ?_

theorem setHold_kept {al : Allow} {s0 : State} (dur : Nat) (n : Nat) {s : State} (hk : Kept al s0 s) :
    Kept al s0 (setHold dur n s).2 := by
  unfold setHold
  repeat' first
    | with_reducible assumption
    | lift_lets -underBinder
    | (intro x; subst x)
    | with_reducible apply cmdDone_kept
    | with_reducible apply cmdStart_kept
    | with_reducible apply enterHold_kept
    | split
    | with_reducible refine Kept.put ?_

theorem setStep_kept {al : Allow} {s0 : State} (k : Nat) (n : Nat) {s : State} (hk : Kept al s0 s) :
    Kept al s0 (setStep k n s).2 := by
  unfold setStep
  repeat' first
    | with_reducible assumption
    | lift_lets -underBinder
    | (intro x; have hx : Kept al s0 x := (by
        subst x
        repeat' first
          | with_reducible assumption
          | with_reducible apply cmdStart_kept
          | split
          | with_reducible refine Kept.put ?_); clear_value x)
    | (intro x; subst x)
    | with_reducible apply cmdDone_kept
    | with_reducible apply releaseTask_kept
    | split

theorem modeSetOp_kept {al : Allow} {s0 : State} (data : List Byte) (n : Nat) {s : State} (hk : Kept al s0 s) :
    Kept al s0 (modeSetOp data n s).2 := by
  unfold modeSetOp
  repeat' first
    | with_reducible assumption
    | lift_lets -underBinder
    | (intro x; subst x)
    | with_reducible apply setHold_kept
    | with_reducible apply setRun_kept
    | with_reducible apply setStep_kept
    | with_reducible apply setStop_kept
    | split

theorem runEntryState_kept {al : Allow} {s0 : State} {s : State} (hk : Kept al s0 s) :
    Kept al s0 (runEntryState s) := by
  unfold runEntryState
  repeat' first
    | with_reducible assumption
    | lift_lets -underBinder
    | (intro x; have hx : Kept al s0 x := (by
        subst x
        repeat' first | with_reducible assumption | with_reducible apply enterRun_kept); clear_value x)
    | (intro x; subst x)
    | with_reducible apply cmdDone_kept
    | split

theorem taskReleaseState_kept {al : Allow} {s0 : State} (k : Nat) {s : State} (hk : Kept al s0 s) :
    Kept al s0 (taskReleaseState k s) := by
  unfold taskReleaseState
  repeat' first | with_reducible assumption | with_reducible apply gridRelease_kept | split

theorem ocStart_kept {al : Allow} {s0 : State} (op : Nat) (n : Nat) {s : State} (hk : Kept al s0 s) :
    Kept al s0 (ocStart op n s).2 := by
  unfold ocStart
  repeat' first
    | with_reducible assumption
    | lift_lets -underBinder
    | (intro x; have hx : Kept al s0 x := (by
        subst x
        repeat' first
          | with_reducible assumption
          | lift_lets -underBinder
          | with_reducible apply keepLeases_kept
          | with_reducible apply passChange_kept
          | split
          | with_reducible refine Kept.put ?_); clear_value x)
    | (intro x; subst x)
    | with_reducible apply abandonChange_kept
    | with_reducible apply cmdAccept_kept
    | with_reducible apply cmdStart_kept
    | split

theorem ocCancel_kept {al : Allow} {s0 : State} (n : Nat) {s : State} (hk : Kept al s0 s) :
    Kept al s0 (ocCancel n s).2 := by
  unfold ocCancel
  repeat' first
    | with_reducible assumption
    | lift_lets -underBinder
    | (intro x; subst x)
    | with_reducible apply abandonChange_kept
    | with_reducible apply modCmd_kept
    | split

theorem onlineChangeOp_kept {al : Allow} {s0 : State} (data : List Byte) (n : Nat) {s : State} (hk : Kept al s0 s) :
    Kept al s0 (onlineChangeOp data n s).2 := by
  unfold onlineChangeOp
  repeat' first
    | with_reducible assumption
    | with_reducible apply ocCancel_kept
    | with_reducible apply ocStart_kept
    | split

theorem preparationEndState_kept {al : Allow} {s0 : State} (flashFull : Bool) {s : State} (hk : Kept al s0 s) :
    Kept al s0 (preparationEndState flashFull s) := by
  unfold preparationEndState
  repeat' first
    | with_reducible assumption
    | lift_lets -underBinder
    | (intro x; have hx : Kept al s0 x := (by
        subst x
        repeat' first | with_reducible assumption | dsimp -zeta only | with_reducible refine Kept.put ?_); clear_value x)
    | (intro x; subst x)
    | with_reducible apply abandonChange_kept
    | with_reducible apply changeOver_kept
    | with_reducible apply cmdDone_kept
    | with_reducible apply swapNow_kept
    | split
    | dsimp -zeta only
    | with_reducible refine Kept.put ?_

theorem lateReleases_kept {al : Allow} {s0 : State} {s : State} (hk : Kept al s0 s) :
    Kept al s0 (lateReleases s) := by
  unfold lateReleases
  repeat' first | with_reducible assumption | with_reducible apply releaseAllCyclic_kept | split

theorem releaseSwapped_kept {al : Allow} {s0 : State} {s : State} (hk : Kept al s0 s) :
    Kept al s0 (releaseSwapped s) := by
  unfold releaseSwapped
  repeat' first
    | with_reducible assumption
    | lift_lets -underBinder
    | (intro _ t ht; try dsimp -zeta only)
    | with_reducible apply forAll_kept
    | with_reducible apply lateReleases_kept
    | with_reducible apply modTask_kept

theorem swapStandby_kept {al : Allow} {s0 : State} (pauseUs : Nat) {s : State} (hk : Kept al s0 s) :
    Kept al s0 (swapStandby pauseUs s) := by
  unfold swapStandby
  repeat' first
    | with_reducible assumption
    | lift_lets -underBinder
    | (intro x; have hx : Kept al s0 x := (by
        subst x
        repeat' first
          | with_reducible assumption
          | lift_lets -underBinder
          | (intro _ t ht; try dsimp -zeta only)
          | with_reducible apply forAll_kept
          | with_reducible apply modTask_kept
          | with_reducible refine Kept.put ?_); clear_value x)
    | (intro x; subst x)
    | with_reducible apply releaseSwapped_kept
    | with_reducible apply swapNow_kept

theorem swapState_kept {al : Allow} {s0 : State} (pauseUs : Nat) {s : State} (hk : Kept al s0 s) :
    Kept al s0 (swapState pauseUs s) := by
  unfold swapState
  repeat' first
    | with_reducible assumption
    | lift_lets -underBinder
    | (intro x; have hx : Kept al s0 x := (by
        subst x
        repeat' first | with_reducible assumption | with_reducible refine Kept.put ?_); clear_value x)
    | (intro x; subst x)
    | with_reducible apply abandonChange_kept
    | with_reducible apply lateReleases_kept
    | with_reducible apply releaseSwapped_kept
    | with_reducible apply swapNow_kept
    | with_reducible apply swapStandby_kept
    | split

end Sys2Proof.Machine
end

