-- ==== Sys2Proof/Laws/KeptForce.lean ====
section
/-! SUPPORT. Every operation of Machine/Force.lean keeps what `Kept` names. -/

set_option Elab.async false

namespace Sys2Proof.Machine

theorem putForce_kept {al : Allow} {s0 : State} (p : Nat) (v : BitVec 32) (g : Int) {s : State} (hk : Kept al s0 s) :
    Kept al s0 (putForce p v g s) := by
  unfold putForce
  repeat' first
    | with_reducible assumption
    | lift_lets -underBinder
    | (intro x; subst x)
    | with_reducible apply afterRelease_kept
    | with_reducible apply emit_kept
    | split
    | with_reducible refine Kept.put ?_

theorem liftForce_kept {al : Allow} {s0 : State} (p : Nat) {s : State} (hk : Kept al s0 s) :
    Kept al s0 (liftForce p s) := by
  unfold liftForce
  repeat' first
    | with_reducible assumption
    | lift_lets -underBinder
    | with_reducible apply afterRelease_kept
    | with_reducible apply dropForce_kept

theorem forceTake_kept {al : Allow} {s0 : State} (op : Nat) (p : Nat) (v : BitVec 32) {s : State} (hk : Kept al s0 s) :
    Kept al s0 (forceTake op p v s).2 := by
  unfold forceTake
  repeat' first
    | with_reducible assumption
    | lift_lets -underBinder
    | (intro x; subst x)
    | split
    | dsimp -zeta only
    | with_reducible refine Kept.put ?_

theorem forceAct_kept {al : Allow} {s0 : State} (r : ForceReq) (g : Int) {s : State} (hk : Kept al s0 s) :
    Kept al s0 (forceAct r g s) := by
  unfold forceAct
  repeat' first
    | with_reducible assumption
    | lift_lets -underBinder
    | with_reducible apply liftForce_kept
    | with_reducible apply putForce_kept
    | split
    | with_reducible refine Kept.foldl (fun t x ht => ?_) _ _ ?_

theorem forceAnswer_kept {al : Allow} {s0 : State} (r : ForceReq) (g : Int) {s : State} (hk : Kept al s0 s) :
    Kept al s0 (forceAnswer r g s).2 := by
  unfold forceAnswer
  repeat' first
    | with_reducible assumption
    | lift_lets -underBinder
    | (intro x; have hx : Kept al s0 x := (by
        subst x
        repeat' first | with_reducible assumption | with_reducible apply forceAct_kept); clear_value x)
    | with_reducible apply cmdNow_kept
    | split

theorem forceTick_kept {al : Allow} {s0 : State} (g : Int) {s : State} (hk : Kept al s0 s) :
    Kept al s0 (forceTick g s) := by
  unfold forceTick
  repeat' first
    | with_reducible assumption
    | lift_lets -underBinder
    | (intro x; subst x)
    | with_reducible apply answerDone_kept
    | with_reducible apply forceAnswer_kept
    | split
    | with_reducible refine Kept.of_snd ?_ (by assumption)
    | with_reducible refine Kept.put ?_

theorem forceOp_kept {al : Allow} {s0 : State} (data : List Byte) (u1 : Nat) {s : State} (hk : Kept al s0 s) :
    Kept al s0 (forceOp data u1 s).2 := by
  unfold forceOp
  repeat' first
    | with_reducible assumption
    | lift_lets -underBinder
    | (intro x; subst x)
    | with_reducible apply forceTake_kept
    | split

end Sys2Proof.Machine
end

