-- ==== Sys2Proof/Laws/KeptEngine.lean ====
section
/-! SUPPORT. Every operation of Machine/Engine.lean keeps what `Kept` names. -/

set_option Elab.async false

namespace Sys2Proof.Machine

theorem modGroup_kept {al : Allow} {s0 : State} (g : Nat) (f : Group → Group) {s : State} (hk : Kept al s0 s) :
    Kept al s0 (modGroup g f s) := by
  unfold modGroup
  repeat' first
    | with_reducible assumption
    | lift_lets -underBinder
    | (intro x; subst x)
    | with_reducible refine Kept.put ?_

theorem followUnit_kept {al : Allow} {s0 : State} (n : Nat) (winner : Nat) (win : Nat) (out : Real32) (limited : Bool) (safe : Bool) (safeOut : Option Real32) (at_ : Option Int) {s : State} (hk : Kept al s0 s) :
    Kept al s0 (followUnit n winner win out limited safe safeOut at_ s) := by
  unfold followUnit
  repeat' first
    | with_reducible assumption
    | lift_lets -underBinder
    | (intro x; subst x)
    | with_reducible apply modLoop_kept
    | split

theorem sampleUnit_kept {al : Allow} {s0 : State} (rd : Nat → Sample) (members : List Nat) (now : List Nat) (h : Real32) (at_ : Option Int) {s : State} (hk : Kept al s0 s) :
    Kept al s0 (sampleUnit rd members now h at_ s) := by
  unfold sampleUnit
  repeat' first
    | with_reducible assumption
    | lift_lets -underBinder
    | (intro x; have hx : Kept al s0 x := (by
        subst x
        repeat' first
          | with_reducible assumption
          | lift_lets -underBinder
          | (intro _ t ht; try dsimp -zeta only)
          | with_reducible apply followUnit_kept
          | with_reducible apply forAll_kept); clear_value x)
    | (intro x; subst x)
    | with_reducible apply modLoop_kept
    | split
    | with_reducible refine Kept.foldl (fun t x ht => ?_) _ _ ?_

theorem releaseGroup_kept {al : Allow} {s0 : State} (n : Nat) (r : LoopRel) {s : State} (hk : Kept al s0 s) :
    Kept al s0 (releaseGroup n r s) := by
  unfold releaseGroup
  repeat' first | with_reducible assumption | with_reducible apply modGroup_kept | split

theorem landUpdate_kept {al : Allow} {s0 : State} (n : Nat) (t : Int) (r : LoopRel) {s : State} (hk : Kept al s0 s) :
    Kept al s0 (landUpdate n t r s) := by
  unfold landUpdate
  repeat' first
    | with_reducible assumption
    | lift_lets -underBinder
    | (intro x; have hx : Kept al s0 x := (by
        subst x
        repeat' first | with_reducible assumption | with_reducible apply produceAll_kept); clear_value x)
    | with_reducible apply produceAll_kept

theorem releaseOne_kept {al : Allow} {s0 : State} (n : Nat) (at_ : Int) (r : LoopRel) {s : State} (hk : Kept al s0 s) :
    Kept al s0 (releaseOne n at_ r s) := by
  unfold releaseOne
  repeat' first
    | with_reducible assumption
    | lift_lets -underBinder
    | (intro x; have hx : Kept al s0 x := (by
        subst x
        repeat' first
          | with_reducible assumption
          | lift_lets -underBinder
          | with_reducible apply landUpdate_kept
          | with_reducible apply modLoop_kept
          | with_reducible apply releaseGroup_kept
          | split
          | with_reducible refine Kept.put ?_); clear_value x)
    | (intro x; subst x)
    | with_reducible apply modLoop_kept
    | with_reducible apply produceAll_kept
    | with_reducible apply releaseValues_kept
    | split

theorem releaseDue_kept {al : Allow} {s0 : State} (n : Nat) (due : LoopRel → Bool) (t : Int) {s : State} (hk : Kept al s0 s) :
    Kept al s0 (releaseDue n due t s) := by
  unfold releaseDue
  repeat' first
    | with_reducible assumption
    | lift_lets -underBinder
    | (intro x; have hx : Kept al s0 x := (by
        subst x
        repeat' first | with_reducible assumption | with_reducible apply modLoop_kept); clear_value x)
    | (intro x; subst x)
    | with_reducible apply releaseOne_kept
    | split
    | with_reducible refine Kept.foldl (fun t x ht => ?_) _ _ ?_

theorem landDue_kept {al : Allow} {s0 : State} (n : Nat) {s : State} (hk : Kept al s0 s) :
    Kept al s0 (landDue n s) := by
  unfold landDue
  repeat' first
    | with_reducible assumption
    | lift_lets -underBinder
    | (intro x; have hx : Kept al s0 x := (by
        subst x
        repeat' first | with_reducible assumption | with_reducible apply modLoop_kept); clear_value x)
    | (intro x; subst x)
    | with_reducible apply landUpdate_kept
    | split
    | with_reducible refine Kept.foldl (fun t x ht => ?_) _ _ ?_

theorem loopReleaseState_kept {al : Allow} {s0 : State} (n : Nat) {s : State} (hk : Kept al s0 s) :
    Kept al s0 (loopReleaseState n s) := by
  unfold loopReleaseState
  repeat' first
    | with_reducible assumption
    | with_reducible apply landDue_kept
    | with_reducible apply releaseDue_kept
    | split

theorem loopsRelease_kept {al : Allow} {s0 : State} {s : State} (hk : Kept al s0 s) :
    Kept al s0 (loopsRelease s) := by
  unfold loopsRelease
  repeat' first
    | with_reducible assumption
    | lift_lets -underBinder
    | (intro _ t ht; try dsimp -zeta only)
    | with_reducible apply forAll_kept
    | with_reducible apply loopReleaseState_kept

theorem sampleSet_kept {al : Allow} {s0 : State} (rd : Nat → Sample) (now : List Nat) (t : Int) (at_ : Nat → Option Int) {s : State} (hk : Kept al s0 s) :
    Kept al s0 (sampleSet rd now t at_ s) := by
  unfold sampleSet
  repeat' first
    | with_reducible assumption
    | lift_lets -underBinder
    | (intro x; have hx : Kept al s0 x := (by
        subst x
        repeat' first | with_reducible assumption | with_reducible apply sampleUnit_kept); clear_value x)
    | (intro x; subst x)
    | (intro _ t ht; try dsimp -zeta only)
    | with_reducible apply forAll_kept
    | with_reducible apply modLoop_kept
    | with_reducible refine Kept.foldl (fun t x ht => ?_) _ _ ?_

theorem sampleTick_kept {al : Allow} {s0 : State} (rd : Nat → Sample) (g : Int) {s : State} (hk : Kept al s0 s) :
    Kept al s0 (sampleTick rd g s) := by
  unfold sampleTick
  repeat' first
    | with_reducible assumption
    | lift_lets -underBinder
    | (intro x; have hx : Kept al s0 x := (by
        subst x
        repeat' first
          | with_reducible assumption
          | lift_lets -underBinder
          | (intro _ t ht; try dsimp -zeta only)
          | with_reducible apply forAll_kept
          | with_reducible apply releaseDue_kept); clear_value x)
    | (intro x; subst x)
    | with_reducible apply sampleSet_kept

theorem sealLoops_kept {al : Allow} {s0 : State} {s : State} (hk : Kept al s0 s) :
    Kept al s0 (sealLoops s) := by
  unfold sealLoops
  repeat' first
    | with_reducible assumption
    | lift_lets -underBinder
    | (intro x; subst x)
    | with_reducible refine Kept.put ?_

theorem sendInput_kept {al : Allow} {s0 : State} {s : State} (hk : Kept al s0 s) :
    Kept al s0 (sendInput s) := by
  unfold sendInput
  repeat' first
    | with_reducible assumption
    | lift_lets -underBinder
    | (intro x; have hx : Kept al s0 x := (by
        subst x
        repeat' first | with_reducible assumption | with_reducible apply sendSync_kept); clear_value x)
    | (intro x; subst x)
    | split
    | with_reducible refine Kept.put ?_

theorem loopModeNow_kept {al : Allow} {s0 : State} (n : Nat) (data : List Byte) (u2 : Nat) {s : State} (hk : Kept al s0 s) :
    Kept al s0 (loopModeNow n data u2 s).2 := by
  unfold loopModeNow
  repeat' first
    | with_reducible assumption
    | lift_lets -underBinder
    | (intro x; subst x)
    | with_reducible apply keepDirect_kept
    | split

theorem directEffect_kept {al : Allow} {s0 : State} (key : Nat) (data : List Byte) (n : Nat) {s : State} (hk : Kept al s0 s) :
    Kept al s0 (directEffect key data n s) := by
  unfold directEffect
  repeat' first
    | with_reducible assumption
    | lift_lets -underBinder
    | (intro x; subst x)
    | with_reducible apply bulkLengthNow_kept
    | with_reducible apply canRecoverNow_kept
    | with_reducible apply keepDirect_kept
    | with_reducible apply loopModeNow_kept
    | with_reducible apply modAxis_kept
    | with_reducible apply scArmNow_kept
    | with_reducible apply signerKeyNow_kept
    | split

theorem commitDirect_kept {al : Allow} {s0 : State} (q : Option Nat) {s : State} (hk : Kept al s0 s) :
    Kept al s0 (commitDirect q s) := by
  unfold commitDirect
  repeat' first
    | with_reducible assumption
    | lift_lets -underBinder
    | (intro x; subst x)
    | with_reducible apply directEffect_kept
    | with_reducible refine Kept.foldl (fun t x ht => ?_) _ _ ?_
    | with_reducible refine Kept.put ?_

theorem recordCommitted_kept {al : Allow} {s0 : State} (q : Nat) {s : State} (hk : Kept al s0 s) :
    Kept al s0 (recordCommitted q s) := by
  unfold recordCommitted
  repeat' first
    | with_reducible assumption
    | lift_lets -underBinder
    | with_reducible apply commitDirect_kept
    | with_reducible apply forceAcked_kept

theorem commitTick_kept {al : Allow} {s0 : State} (points : List Nat) (rd : Nat → Sample) {s : State} (hk : Kept al s0 s) :
    Kept al s0 (commitTick points rd s) := by
  unfold commitTick
  repeat' first
    | with_reducible assumption
    | lift_lets -underBinder
    | (intro x; have hx : Kept al s0 x := (by
        subst x
        repeat' first
          | with_reducible assumption
          | with_reducible apply sendCommit_kept
          | with_reducible refine Kept.put ?_); clear_value x)
    | (intro x; subst x)
    | (intro _ t ht; try dsimp -zeta only)
    | with_reducible apply commitDirect_kept
    | with_reducible apply forAll_kept
    | with_reducible apply modLoop_kept
    | with_reducible apply sealLoops_kept
    | with_reducible apply sendCommit_kept
    | split

theorem closeTick_kept {al : Allow} {s0 : State} {s : State} (hk : Kept al s0 s) :
    Kept al s0 (closeTick s) := by
  unfold closeTick
  repeat' first
    | with_reducible assumption
    | lift_lets -underBinder
    | (intro x; subst x)
    | with_reducible refine Kept.put ?_

theorem engineTickState_kept {al : Allow} {s0 : State} {s : State} (hk : Kept al s0 s) :
    Kept al s0 (engineTickState s) := by
  unfold engineTickState
  repeat' first
    | with_reducible assumption
    | lift_lets -underBinder
    | (intro x; have hx : Kept al s0 x := (by
        subst x
        repeat' first
          | with_reducible assumption
          | lift_lets -underBinder
          | with_reducible apply commitTick_kept
          | with_reducible apply firstReleases_kept
          | with_reducible apply forceTick_kept
          | with_reducible apply sampleTick_kept
          | with_reducible apply sendInput_kept
          | with_reducible refine Kept.put ?_); clear_value x)
    | (intro x; subst x)
    | with_reducible apply closeTick_kept
    | with_reducible apply commitDirect_kept
    | with_reducible apply scanSlots_kept
    | with_reducible apply tickTrackers_kept
    | with_reducible apply tryHandover_kept
    | split
    | with_reducible refine Kept.put ?_

theorem cadenceUpdate_kept {al : Allow} {s0 : State} (rd : Nat → Sample) (n : Nat) (fireAt : Int) {s : State} (hk : Kept al s0 s) :
    Kept al s0 (cadenceUpdate rd n fireAt s) := by
  unfold cadenceUpdate
  repeat' first
    | with_reducible assumption
    | lift_lets -underBinder
    | (intro x; have hx : Kept al s0 x := (by
        subst x
        repeat' first
          | with_reducible assumption
          | lift_lets -underBinder
          | (intro _ t ht; try dsimp -zeta only)
          | with_reducible apply forAll_kept
          | with_reducible apply releaseDue_kept); clear_value x)
    | with_reducible apply modLoop_kept
    | with_reducible apply sampleSet_kept

theorem cadenceSample_kept {al : Allow} {s0 : State} (n : Nat) (fireAt : Int) {s : State} (hk : Kept al s0 s) :
    Kept al s0 (cadenceSample n fireAt s) := by
  unfold cadenceSample
  repeat' first
    | with_reducible assumption
    | lift_lets -underBinder
    | (intro x; subst x)
    | with_reducible apply cadenceUpdate_kept
    | with_reducible apply modLoop_kept
    | split
    | with_reducible refine Kept.put ?_

theorem cadTimeoutState_kept {al : Allow} {s0 : State} (n : Nat) {s : State} (hk : Kept al s0 s) :
    Kept al s0 (cadTimeoutState n s) := by
  unfold cadTimeoutState
  repeat' first
    | with_reducible assumption
    | lift_lets -underBinder
    | (intro x; have hx : Kept al s0 x := (by
        subst x
        repeat' first
          | with_reducible assumption
          | lift_lets -underBinder
          | (intro _ t ht; try dsimp -zeta only)
          | with_reducible apply forAll_kept
          | with_reducible apply modLoop_kept); clear_value x)
    | (intro x; subst x)
    | (intro _ t ht; try dsimp -zeta only)
    | with_reducible apply forAll_kept
    | with_reducible apply loopReleaseState_kept
    | split

theorem loopModeOp_kept {al : Allow} {s0 : State} (n : Nat) (data : List Byte) (m : Nat) {s : State} (hk : Kept al s0 s) :
    Kept al s0 (loopModeOp n data m s).2 := by
  unfold loopModeOp
  repeat' first | with_reducible assumption | with_reducible apply deferred_kept

theorem applyLoops_kept {al : Allow} {s0 : State} (old : Tbl (List Byte)) {s : State} (hk : Kept al s0 s) :
    Kept al s0 (applyLoops old s) := by
  unfold applyLoops
  repeat' first
    | with_reducible assumption
    | lift_lets -underBinder
    | (intro x; have hx : Kept al s0 x := (by
        subst x
        repeat' first
          | with_reducible assumption
          | lift_lets -underBinder
          | (intro x; subst x)
          | (intro _ t ht; try dsimp -zeta only)
          | with_reducible apply decideQual_kept
          | with_reducible apply forAll_kept
          | with_reducible apply modLoop_kept
          | split
          | with_reducible refine Kept.put ?_); clear_value x)
    | (intro x; subst x)
    | with_reducible refine Kept.put ?_

theorem startLoops_kept {al : Allow} {s0 : State} (warm : Bool) {s : State} (hk : Kept al s0 s) :
    Kept al s0 (startLoops warm s) := by
  unfold startLoops
  repeat' first
    | with_reducible assumption
    | lift_lets -underBinder
    | (intro x; subst x)
    | split
    | with_reducible refine Kept.put ?_

end Sys2Proof.Machine
end

