-- ==== Sys2Proof/Laws/KeptPairOps.lean ====
section
/-! SUPPORT. Every operation of Machine/PairOps.lean keeps what `Kept` names. -/

set_option Elab.async false

namespace Sys2Proof.Machine

theorem failRunning_kept {al : Allow} {s0 : State} {s : State} (hk : Kept al s0 s) :
    Kept al s0 (failRunning s) := by
  unfold failRunning
  repeat' first
    | with_reducible assumption
    | lift_lets -underBinder
    | with_reducible apply cmdFail_kept
    | split
    | with_reducible refine Kept.foldl (fun t x ht => ?_) _ _ ?_

theorem dropUnacked_kept {al : Allow} {s0 : State} {s : State} (hk : Kept al s0 s) :
    Kept al s0 (dropUnacked s) := by
  unfold dropUnacked
  repeat' first
    | with_reducible assumption
    | lift_lets -underBinder
    | (intro _ t ht; try dsimp -zeta only)
    | with_reducible apply forAll_kept
    | with_reducible apply modLoop_kept

theorem loseRole_kept {al : Allow} {s0 : State} {s : State} (hk : Kept al s0 s) :
    Kept al s0 (loseRole s) := by
  unfold loseRole
  repeat' first
    | with_reducible assumption
    | lift_lets -underBinder
    | (intro x; have hx : Kept al s0 x := (by
        subst x
        repeat' first
          | with_reducible assumption
          | lift_lets -underBinder
          | (intro _ t ht; try dsimp -zeta only)
          | with_reducible apply closeSession_kept
          | with_reducible apply dropUnacked_kept
          | with_reducible apply failRunning_kept
          | with_reducible apply forAll_kept
          | with_reducible apply releaseKept_kept
          | split
          | with_reducible refine Kept.put ?_); clear_value x)
    | (intro x; subst x)
    | with_reducible refine Kept.put ?_

theorem yieldTo_kept {al : Allow} {s0 : State} (claim : Nat) {s : State} (hk : Kept al s0 s) :
    Kept al s0 (yieldTo claim s) := by
  unfold yieldTo
  repeat' first
    | with_reducible assumption
    | lift_lets -underBinder
    | (intro x; have hx : Kept al s0 x := (by
        subst x
        repeat' first
          | with_reducible assumption
          | lift_lets -underBinder
          | with_reducible apply canStandby_kept
          | with_reducible apply loseRole_kept
          | with_reducible apply scAbortArmed_kept); clear_value x)
    | (intro x; subst x)
    | with_reducible apply emit_kept
    | with_reducible apply enterPair_kept
    | split
    | with_reducible refine Kept.put ?_

theorem commitHeld_kept {al : Allow} {s0 : State} (h : HeldRec) {s : State} (hk : Kept al s0 s) :
    Kept al s0 (commitHeld h s) := by
  unfold commitHeld
  repeat' first
    | with_reducible assumption
    | lift_lets -underBinder
    | (intro x; have hx : Kept al s0 x := (by
        subst x
        repeat' first
          | with_reducible assumption
          | lift_lets -underBinder
          | with_reducible apply recordCommitted_kept
          | with_reducible refine Kept.put ?_); clear_value x)
    | (intro x; subst x)
    | with_reducible apply commitCycle_kept
    | with_reducible apply releaseCommitted_kept
    | with_reducible apply sealLoops_kept
    | split

theorem commitAllHeld_kept {al : Allow} {s0 : State} {s : State} (hk : Kept al s0 s) :
    Kept al s0 (commitAllHeld s) := by
  unfold commitAllHeld
  repeat' first
    | with_reducible assumption
    | lift_lets -underBinder
    | with_reducible apply commitHeld_kept
    | with_reducible refine Kept.foldl (fun t x ht => ?_) _ _ ?_

theorem endHanding_kept {al : Allow} {s0 : State} {s : State} (hk : Kept al s0 s) :
    Kept al s0 (endHanding s) := by
  unfold endHanding
  repeat' first
    | with_reducible assumption
    | lift_lets -underBinder
    | (intro x; have hx : Kept al s0 x := (by
        subst x
        repeat' first | with_reducible assumption | with_reducible apply failSwitchover_kept | split); clear_value x)
    | (intro x; subst x)
    | with_reducible refine Kept.put ?_

theorem continueAlone_kept {al : Allow} {s0 : State} {s : State} (hk : Kept al s0 s) :
    Kept al s0 (continueAlone s) := by
  unfold continueAlone
  repeat' first
    | with_reducible assumption
    | lift_lets -underBinder
    | (intro x; have hx : Kept al s0 x := (by
        subst x
        repeat' first
          | with_reducible assumption
          | lift_lets -underBinder
          | with_reducible apply commitAllHeld_kept
          | with_reducible apply endHanding_kept
          | with_reducible refine Kept.put ?_); clear_value x)
    | (intro x; subst x)
    | with_reducible apply enterPair_kept
    | with_reducible apply firstReleases_kept
    | split

theorem selfTestFailed_kept {al : Allow} {s0 : State} (row : Nat) {s : State} (hk : Kept al s0 s) :
    Kept al s0 (selfTestFailed row s) := by
  unfold selfTestFailed
  repeat' first
    | with_reducible assumption
    | lift_lets -underBinder
    | (intro x; subst x)
    | with_reducible refine Kept.put ?_

theorem judgeFcl_kept {al : Allow} {s0 : State} {s : State} (hk : Kept al s0 s) :
    Kept al s0 (judgeFcl s) := by
  unfold judgeFcl
  repeat' first
    | with_reducible assumption
    | lift_lets -underBinder
    | (intro x; have hx : Kept al s0 x := (by
        subst x
        repeat' first | with_reducible assumption | with_reducible apply selfTestFailed_kept | split); clear_value x)
    | (intro x; subst x)
    | split
    | with_reducible refine Kept.put ?_

end Sys2Proof.Machine
end

