-- ==== Sys2Proof/Laws/KeptDio.lean ====
section
/-! SUPPORT. Every operation of Machine/Dio.lean keeps what `Kept` names. -/

set_option Elab.async false

namespace Sys2Proof.Machine

theorem requalDio_kept {al : Allow} {s0 : State} (ch : Nat) {s : State} (hk : Kept al s0 s) :
    Kept al s0 (requalDio ch s) := by
  unfold requalDio
  repeat' first
    | with_reducible assumption
    | lift_lets -underBinder
    | (intro x; subst x)
    | with_reducible apply decideQual_kept
    | split

theorem requalBank_kept {al : Allow} {s0 : State} (b : Nat) {s : State} (hk : Kept al s0 s) :
    Kept al s0 (requalBank b s) := by
  unfold requalBank
  repeat' first
    | with_reducible assumption
    | lift_lets -underBinder
    | (intro _ t ht; try dsimp -zeta only)
    | with_reducible apply forAll_kept
    | with_reducible apply requalDio_kept

theorem endDrive_kept {al : Allow} {s0 : State} (ch : Nat) {s : State} (hk : Kept al s0 s) :
    Kept al s0 (endDrive ch s) := by
  unfold endDrive
  repeat' first
    | with_reducible assumption
    | lift_lets -underBinder
    | (intro x; have hx : Kept al s0 x := (by
        subst x
        repeat' first | with_reducible assumption | with_reducible apply modDio_kept); clear_value x)
    | with_reducible apply emit_kept
    | split

theorem endOpenLoad_kept {al : Allow} {s0 : State} (ch : Nat) {s : State} (hk : Kept al s0 s) :
    Kept al s0 (endOpenLoad ch s) := by
  unfold endOpenLoad
  repeat' first
    | with_reducible assumption
    | lift_lets -underBinder
    | (intro x; have hx : Kept al s0 x := (by
        subst x
        repeat' first | with_reducible assumption | with_reducible apply modDio_kept); clear_value x)
    | with_reducible apply emit_kept
    | split

theorem stampDio_kept {al : Allow} {s0 : State} (ch : Nat) (changed : Dio → Dio → Bool) (f : Dio → Dio) {s : State} (hk : Kept al s0 s) :
    Kept al s0 (stampDio ch changed f s) := by
  unfold stampDio
  repeat' first
    | with_reducible assumption
    | lift_lets -underBinder
    | (intro x; subst x)
    | with_reducible apply modDio_kept

theorem setSwitch_kept {al : Allow} {s0 : State} (ch : Nat) (v : Bool) {s : State} (hk : Kept al s0 s) :
    Kept al s0 (setSwitch ch v s) := by
  unfold setSwitch
  repeat' first
    | with_reducible assumption
    | lift_lets -underBinder
    | (intro x; have hx : Kept al s0 x := (by
        subst x
        repeat' first | with_reducible assumption | with_reducible apply stampDio_kept); clear_value x)
    | with_reducible apply endDrive_kept
    | split

theorem settleSwitch_kept {al : Allow} {s0 : State} (ch : Nat) {s : State} (hk : Kept al s0 s) :
    Kept al s0 (settleSwitch ch s) := by
  unfold settleSwitch
  repeat' first
    | with_reducible assumption
    | lift_lets -underBinder
    | (intro x; have hx : Kept al s0 x := (by
        subst x
        repeat' first | with_reducible assumption | with_reducible apply modBank_kept | split); clear_value x)
    | (intro x; subst x)
    | with_reducible apply modBank_kept
    | with_reducible apply setSwitch_kept
    | split

theorem settleBank_kept {al : Allow} {s0 : State} (b : Nat) {s : State} (hk : Kept al s0 s) :
    Kept al s0 (settleBank b s) := by
  unfold settleBank
  repeat' first
    | with_reducible assumption
    | lift_lets -underBinder
    | (intro _ t ht; try dsimp -zeta only)
    | with_reducible apply forAll_kept
    | with_reducible apply settleSwitch_kept

theorem commandLevel_kept {al : Allow} {s0 : State} (ch : Nat) (v : Bool) {s : State} (hk : Kept al s0 s) :
    Kept al s0 (commandLevel ch v s) := by
  unfold commandLevel
  repeat' first
    | with_reducible assumption
    | lift_lets -underBinder
    | (intro x; have hx : Kept al s0 x := (by
        subst x
        repeat' first
          | with_reducible assumption
          | lift_lets -underBinder
          | with_reducible apply modDio_kept
          | with_reducible apply settleSwitch_kept); clear_value x)
    | with_reducible apply endOpenLoad_kept
    | split

theorem dropEdges_kept {al : Allow} {s0 : State} (b : Nat) (own : Nat → Bool) {s : State} (hk : Kept al s0 s) :
    Kept al s0 (dropEdges b own s) := by
  unfold dropEdges
  repeat' first
    | with_reducible assumption
    | lift_lets -underBinder
    | (intro _ t ht; try dsimp -zeta only)
    | with_reducible apply forAll_kept
    | with_reducible apply modBank_kept
    | with_reducible apply modDio_kept
    | split

theorem retireDio_kept {al : Allow} {s0 : State} (ch : Nat) {s : State} (hk : Kept al s0 s) :
    Kept al s0 (retireDio ch s) := by
  unfold retireDio
  repeat' first
    | with_reducible assumption
    | lift_lets -underBinder
    | (intro x; have hx : Kept al s0 x := (by
        subst x
        repeat' first
          | with_reducible assumption
          | lift_lets -underBinder
          | with_reducible apply listRetired_kept
          | with_reducible apply modDio_kept
          | with_reducible apply setSwitch_kept); clear_value x)
    | with_reducible apply dropEdges_kept
    | with_reducible apply requalDio_kept
    | with_reducible apply scRetired_kept

theorem safeLevel_kept {al : Allow} {s0 : State} (ch : Nat) (v : Bool) {s : State} (hk : Kept al s0 s) :
    Kept al s0 (safeLevel ch v s) := by
  unfold safeLevel
  repeat' first
    | with_reducible assumption
    | lift_lets -underBinder
    | with_reducible apply commandLevel_kept
    | with_reducible apply modDio_kept

theorem silenceOutputs_kept {al : Allow} {s0 : State} (b : Nat) {s : State} (hk : Kept al s0 s) :
    Kept al s0 (silenceOutputs b s) := by
  unfold silenceOutputs
  repeat' first
    | with_reducible assumption
    | lift_lets -underBinder
    | (intro x; subst x)
    | (intro _ t ht; try dsimp -zeta only)
    | with_reducible apply forAll_kept
    | with_reducible apply safeLevel_kept
    | with_reducible apply setSwitch_kept
    | with_reducible apply settleSwitch_kept
    | split

theorem claimSettles_kept {al : Allow} {s0 : State} (b : Nat) {s : State} (hk : Kept al s0 s) :
    Kept al s0 (claimSettles b s) := by
  unfold claimSettles
  repeat' first
    | with_reducible assumption
    | with_reducible apply settleBank_kept
    | with_reducible apply silenceOutputs_kept
    | split

theorem retireLink_kept {al : Allow} {s0 : State} (b : Nat) {s : State} (hk : Kept al s0 s) :
    Kept al s0 (retireLink b s) := by
  unfold retireLink
  repeat' first
    | with_reducible assumption
    | lift_lets -underBinder
    | (intro x; have hx : Kept al s0 x := (by
        subst x
        repeat' first
          | with_reducible assumption
          | lift_lets -underBinder
          | with_reducible apply dropEdges_kept
          | with_reducible apply listRetired_kept
          | with_reducible apply modBank_kept); clear_value x)
    | (intro _ t ht; try dsimp -zeta only)
    | with_reducible apply forAll_kept
    | with_reducible apply requalBank_kept
    | with_reducible apply scRetired_kept
    | with_reducible apply silenceOutputs_kept

theorem linkFault_kept {al : Allow} {s0 : State} (b : Nat) {s : State} (hk : Kept al s0 s) :
    Kept al s0 (linkFault b s) := by
  unfold linkFault
  repeat' first
    | with_reducible assumption
    | lift_lets -underBinder
    | (intro x; have hx : Kept al s0 x := (by
        subst x
        repeat' first
          | with_reducible assumption
          | with_reducible apply emit_kept
          | with_reducible apply modBank_kept); clear_value x)
    | (intro x; subst x)
    | with_reducible apply retireLink_kept
    | split

theorem activateBank_kept {al : Allow} {s0 : State} (b : Nat) {s : State} (hk : Kept al s0 s) :
    Kept al s0 (activateBank b s) := by
  unfold activateBank
  repeat' first
    | with_reducible assumption
    | lift_lets -underBinder
    | (intro x; have hx : Kept al s0 x := (by
        subst x
        repeat' first | with_reducible assumption | with_reducible apply modBank_kept); clear_value x)
    | (intro x; subst x)
    | (intro _ t ht; try dsimp -zeta only)
    | with_reducible apply forAll_kept
    | with_reducible apply modDio_kept
    | split

theorem takeWord_kept {al : Allow} {s0 : State} (b : Nat) (w : Nat × Nat) {s : State} (hk : Kept al s0 s) :
    Kept al s0 (takeWord b w s) := by
  unfold takeWord
  repeat' first
    | with_reducible assumption
    | lift_lets -underBinder
    | with_reducible apply activateBank_kept
    | with_reducible apply modBank_kept
    | split

theorem takeCommand_kept {al : Allow} {s0 : State} (leaving : Bool) (ch : Nat) (cmd : Bool) (en : Bool) {s : State} (hk : Kept al s0 s) :
    Kept al s0 (takeCommand leaving ch cmd en s) := by
  unfold takeCommand
  repeat' first
    | with_reducible assumption
    | lift_lets -underBinder
    | (intro x; have hx : Kept al s0 x := (by
        subst x
        repeat' first
          | with_reducible assumption
          | with_reducible apply endDrive_kept
          | with_reducible apply modDio_kept
          | split); clear_value x)
    | (intro x; subst x)
    | with_reducible apply commandLevel_kept
    | with_reducible apply modDio_kept
    | with_reducible apply settleSwitch_kept
    | split

theorem markLate_kept {al : Allow} {s0 : State} (g : Int) (es : List DioEdge) {s : State} (hk : Kept al s0 s) :
    Kept al s0 (markLate g es s) := by
  unfold markLate
  repeat' first
    | with_reducible assumption
    | lift_lets -underBinder
    | with_reducible apply modSched_kept
    | split
    | with_reducible refine Kept.foldl (fun t x ht => ?_) _ _ ?_

theorem bicTakes_kept {al : Allow} {s0 : State} (b : Nat) (g : Int) (cmds : Nat) (ens : Nat) (es : List DioEdge) (w : Nat × Nat) {s : State} (hk : Kept al s0 s) :
    Kept al s0 (bicTakes b g cmds ens es w s) := by
  unfold bicTakes
  repeat' first
    | with_reducible assumption
    | lift_lets -underBinder
    | (intro x; have hx : Kept al s0 x := (by
        subst x
        repeat' first
          | with_reducible assumption
          | with_reducible apply modBank_kept
          | with_reducible apply takeWord_kept); clear_value x)
    | (intro x; subst x)
    | with_reducible apply takeCommand_kept
    | with_reducible refine Kept.foldl (fun t x ht => ?_) _ _ ?_

theorem downstreamFrameState_kept {al : Allow} {s0 : State} (b : Nat) (ok : Bool) {s : State} (hk : Kept al s0 s) :
    Kept al s0 (downstreamFrameState b ok s) := by
  unfold downstreamFrameState
  repeat' first
    | with_reducible assumption
    | lift_lets -underBinder
    | (intro x; have hx : Kept al s0 x := (by
        subst x
        repeat' first
          | with_reducible assumption
          | lift_lets -underBinder
          | with_reducible apply loopsRelease_kept
          | with_reducible apply markLate_kept
          | with_reducible apply modBank_kept
          | with_reducible apply modDio_kept
          | with_reducible apply send_kept
          | with_reducible refine Kept.foldl (fun t x ht => ?_) _ _ ?_); clear_value x)
    | (intro x; subst x)
    | with_reducible apply bicTakes_kept
    | with_reducible apply linkFault_kept
    | split

theorem edgeTasks_kept {al : Allow} {s0 : State} (ch : Nat) (rising : Bool) {s : State} (hk : Kept al s0 s) :
    Kept al s0 (edgeTasks ch rising s) := by
  unfold edgeTasks
  repeat' first
    | with_reducible assumption
    | lift_lets -underBinder
    | (intro x; subst x)
    | (intro _ t ht; try dsimp -zeta only)
    | with_reducible apply forAll_kept
    | with_reducible apply triggerTask_kept
    | split

theorem landChannel_kept {al : Allow} {s0 : State} (ch : Nat) (r : ChanRep) {s : State} (hk : Kept al s0 s) :
    Kept al s0 (landChannel ch r s) := by
  unfold landChannel
  repeat' first
    | with_reducible assumption
    | lift_lets -underBinder
    | (intro x; have hx : Kept al s0 x := (by
        subst x
        repeat' first | with_reducible assumption | with_reducible apply modDio_kept); clear_value x)
    | with_reducible apply produceAllAs_kept

theorem landEdge_kept {al : Allow} {s0 : State} (r : ChanRep) (e : EdgeRec) {s : State} (hk : Kept al s0 s) :
    Kept al s0 (landEdge r e s) := by
  unfold landEdge
  repeat' first
    | with_reducible assumption
    | lift_lets -underBinder
    | (intro x; have hx : Kept al s0 x := (by
        subst x
        repeat' first
          | with_reducible assumption
          | lift_lets -underBinder
          | with_reducible apply landChannel_kept
          | with_reducible apply modDio_kept); clear_value x)
    | with_reducible apply edgeTasks_kept
    | split

theorem landRest_kept {al : Allow} {s0 : State} (ch : Nat) (r : ChanRep) {s : State} (hk : Kept al s0 s) :
    Kept al s0 (landRest ch r s) := by
  unfold landRest
  repeat' first
    | with_reducible assumption
    | lift_lets -underBinder
    | (intro x; subst x)
    | with_reducible apply landChannel_kept
    | split

theorem landBank_kept {al : Allow} {s0 : State} (b : Nat) (chans : List ChanRep) (edges : List EdgeRec) {s : State} (hk : Kept al s0 s) :
    Kept al s0 (landBank b chans edges s) := by
  unfold landBank
  repeat' first
    | with_reducible assumption
    | lift_lets -underBinder
    | (intro x; have hx : Kept al s0 x := (by
        subst x
        repeat' first
          | with_reducible assumption
          | lift_lets -underBinder
          | with_reducible apply landEdge_kept
          | with_reducible refine Kept.foldl (fun t x ht => ?_) _ _ ?_); clear_value x)
    | with_reducible apply landRest_kept
    | with_reducible refine Kept.foldl (fun t x ht => ?_) _ _ ?_

theorem frameSent_kept {al : Allow} {s0 : State} (b : Nat) {s : State} (hk : Kept al s0 s) :
    Kept al s0 (frameSent b s) := by
  unfold frameSent
  repeat' first | with_reducible assumption | with_reducible apply modBank_kept

theorem loseStamps_kept {al : Allow} {s0 : State} (es : List EdgeRec) {s : State} (hk : Kept al s0 s) :
    Kept al s0 (loseStamps es s) := by
  unfold loseStamps
  repeat' first
    | with_reducible assumption
    | lift_lets -underBinder
    | with_reducible apply modDio_kept
    | with_reducible refine Kept.foldl (fun t x ht => ?_) _ _ ?_

theorem landOwnBank_kept {al : Allow} {s0 : State} (b : Nat) (chans : List ChanRep) (es : List EdgeRec) {s : State} (hk : Kept al s0 s) :
    Kept al s0 (landOwnBank b chans es s) := by
  unfold landOwnBank
  repeat' first
    | with_reducible assumption
    | lift_lets -underBinder
    | with_reducible apply landBank_kept
    | with_reducible apply noteLanding_kept
    | split

theorem takeMatched_kept {al : Allow} {s0 : State} (b : Nat) (f : UpFrame) (chans : List ChanRep) {s : State} (hk : Kept al s0 s) :
    Kept al s0 (takeMatched b f chans s) := by
  unfold takeMatched
  repeat' first
    | with_reducible assumption
    | lift_lets -underBinder
    | (intro x; have hx : Kept al s0 x := (by
        subst x
        repeat' first
          | with_reducible assumption
          | lift_lets -underBinder
          | with_reducible apply emit_kept
          | with_reducible apply judgeFcl_kept
          | with_reducible apply landOwnBank_kept
          | with_reducible apply modBank_kept
          | with_reducible apply modDio_kept
          | split
          | with_reducible refine Kept.foldl (fun t x ht => ?_) _ _ ?_); clear_value x)
    | with_reducible apply yieldTo_kept
    | split

theorem takeMismatch_kept {al : Allow} {s0 : State} (b : Nat) (f : UpFrame) {s : State} (hk : Kept al s0 s) :
    Kept al s0 (takeMismatch b f s) := by
  unfold takeMismatch
  repeat' first
    | with_reducible assumption
    | lift_lets -underBinder
    | (intro x; have hx : Kept al s0 x := (by
        subst x
        repeat' first
          | with_reducible assumption
          | with_reducible apply emit_kept
          | with_reducible apply loseStamps_kept
          | with_reducible apply modBank_kept
          | split); clear_value x)
    | (intro x; subst x)
    | with_reducible apply landOwnBank_kept
    | split

theorem upstreamFrameState_kept {al : Allow} {s0 : State} (b : Nat) (ok : Bool) (mv : Nat) (ma : Nat) (temp : Int) (curMa : Nat) {s : State} (hk : Kept al s0 s) :
    Kept al s0 (upstreamFrameState b ok mv ma temp curMa s) := by
  unfold upstreamFrameState
  repeat' first
    | with_reducible assumption
    | lift_lets -underBinder
    | (intro x; have hx : Kept al s0 x := (by
        subst x
        repeat' first
          | with_reducible assumption
          | lift_lets -underBinder
          | with_reducible apply frameSent_kept
          | with_reducible apply loseStamps_kept
          | with_reducible apply modBank_kept
          | with_reducible apply takeMatched_kept
          | with_reducible apply takeMismatch_kept
          | split); clear_value x)
    | (intro x; subst x)
    | with_reducible apply linkFault_kept
    | with_reducible apply modBank_kept
    | split

theorem queueEdge_kept {al : Allow} {s0 : State} (ch : Nat) (v : Bool) {s : State} (hk : Kept al s0 s) :
    Kept al s0 (queueEdge ch v s) := by
  unfold queueEdge
  repeat' first
    | with_reducible assumption
    | lift_lets -underBinder
    | (intro x; subst x)
    | with_reducible apply modBank_kept
    | with_reducible apply modDio_kept
    | split

theorem pinState_kept {al : Allow} {s0 : State} (ch : Nat) (mv : Nat) {s : State} (hk : Kept al s0 s) :
    Kept al s0 (pinState ch mv s) := by
  unfold pinState
  repeat' first
    | with_reducible assumption
    | lift_lets -underBinder
    | (intro x; subst x)
    | with_reducible apply stampDio_kept
    | split

theorem diEdgeState_kept {al : Allow} {s0 : State} (ch : Nat) (mv : Nat) (ua : Nat) {s : State} (hk : Kept al s0 s) :
    Kept al s0 (diEdgeState ch mv ua s) := by
  unfold diEdgeState
  repeat' first
    | with_reducible assumption
    | lift_lets -underBinder
    | (intro x; have hx : Kept al s0 x := (by
        subst x
        repeat' first | with_reducible assumption | with_reducible apply stampDio_kept); clear_value x)
    | (intro x; subst x)
    | with_reducible apply pinState_kept
    | with_reducible apply queueEdge_kept
    | split

theorem outputTripState_kept {al : Allow} {s0 : State} (ch : Nat) (thermal : Bool) {s : State} (hk : Kept al s0 s) :
    Kept al s0 (outputTripState ch thermal s) := by
  unfold outputTripState
  repeat' first
    | with_reducible assumption
    | lift_lets -underBinder
    | (intro x; have hx : Kept al s0 x := (by
        subst x
        repeat' first
          | with_reducible assumption
          | lift_lets -underBinder
          | with_reducible apply emit_kept
          | with_reducible apply modDio_kept
          | with_reducible apply setSwitch_kept
          | split); clear_value x)
    | (intro x; subst x)
    | with_reducible apply retireDio_kept
    | split

theorem bankOff_kept {al : Allow} {s0 : State} (b : Nat) {s : State} (hk : Kept al s0 s) :
    Kept al s0 (bankOff b s) := by
  unfold bankOff
  repeat' first
    | with_reducible assumption
    | lift_lets -underBinder
    | (intro _ t ht; try dsimp -zeta only)
    | with_reducible apply forAll_kept
    | with_reducible apply modBank_kept
    | with_reducible apply setSwitch_kept
    | split

theorem startRestore_kept {al : Allow} {s0 : State} (b : Nat) {s : State} (hk : Kept al s0 s) :
    Kept al s0 (startRestore b s) := by
  unfold startRestore
  repeat' first
    | with_reducible assumption
    | lift_lets -underBinder
    | with_reducible apply modBank_kept
    | with_reducible apply settleBank_kept

theorem externalDriveState_kept {al : Allow} {s0 : State} (ch : Nat) (mv : Nat) {s : State} (hk : Kept al s0 s) :
    Kept al s0 (externalDriveState ch mv s) := by
  unfold externalDriveState
  repeat' first
    | with_reducible assumption
    | lift_lets -underBinder
    | (intro x; have hx : Kept al s0 x := (by
        subst x
        repeat' first
          | with_reducible assumption
          | with_reducible apply emit_kept
          | with_reducible apply modDio_kept
          | with_reducible apply pinState_kept
          | split); clear_value x)
    | (intro x; subst x)
    | with_reducible apply endDrive_kept
    | with_reducible apply selfTestFailed_kept
    | split

theorem bankSupplyLost_kept {al : Allow} {s0 : State} (b : Nat) {s : State} (hk : Kept al s0 s) :
    Kept al s0 (bankSupplyLost b s) := by
  unfold bankSupplyLost
  repeat' first
    | with_reducible assumption
    | lift_lets -underBinder
    | (intro x; have hx : Kept al s0 x := (by
        subst x
        repeat' first
          | with_reducible assumption
          | lift_lets -underBinder
          | with_reducible apply bankOff_kept
          | with_reducible apply modBank_kept); clear_value x)
    | (intro x; subst x)
    | (intro _ t ht; try dsimp -zeta only)
    | with_reducible apply forAll_kept
    | with_reducible apply stampDio_kept

theorem bankSupplyBack_kept {al : Allow} {s0 : State} (b : Nat) {s : State} (hk : Kept al s0 s) :
    Kept al s0 (bankSupplyBack b s) := by
  unfold bankSupplyBack
  repeat' first
    | with_reducible assumption
    | lift_lets -underBinder
    | (intro x; have hx : Kept al s0 x := (by
        subst x
        repeat' first
          | with_reducible assumption
          | lift_lets -underBinder
          | with_reducible apply modBank_kept
          | with_reducible apply startRestore_kept); clear_value x)
    | with_reducible apply modBank_kept
    | split

theorem bicResets_kept {al : Allow} {s0 : State} (b : Nat) {s : State} (hk : Kept al s0 s) :
    Kept al s0 (bicResets b s) := by
  unfold bicResets
  repeat' first
    | with_reducible assumption
    | lift_lets -underBinder
    | (intro _ t ht; try dsimp -zeta only)
    | with_reducible apply bankOff_kept
    | with_reducible apply draw_kept
    | with_reducible apply forAll_kept
    | with_reducible apply modBank_kept
    | with_reducible apply modDio_kept

theorem applyEdge_kept {al : Allow} {s0 : State} (e : DioEdge) {s : State} (hk : Kept al s0 s) :
    Kept al s0 (applyEdge e s) := by
  unfold applyEdge
  repeat' first
    | with_reducible assumption
    | lift_lets -underBinder
    | with_reducible apply commandLevel_kept
    | with_reducible apply modDio_kept
    | split

theorem timedEdgeState_kept {al : Allow} {s0 : State} (ch : Nat) {s : State} (hk : Kept al s0 s) :
    Kept al s0 (timedEdgeState ch s) := by
  unfold timedEdgeState
  repeat' first
    | with_reducible assumption
    | lift_lets -underBinder
    | (intro x; have hx : Kept al s0 x := (by
        subst x
        repeat' first | with_reducible assumption | with_reducible apply modBank_kept); clear_value x)
    | (intro x; subst x)
    | with_reducible apply applyEdge_kept
    | with_reducible refine Kept.foldl (fun t x ht => ?_) _ _ ?_

theorem startBanks_kept {al : Allow} {s0 : State} {s : State} (hk : Kept al s0 s) :
    Kept al s0 (startBanks s) := by
  unfold startBanks
  repeat' first
    | with_reducible assumption
    | lift_lets -underBinder
    | (intro x; have hx : Kept al s0 x := (by
        subst x
        repeat' first
          | with_reducible assumption
          | lift_lets -underBinder
          | (intro x; subst x)
          | (intro _ t ht; try dsimp -zeta only)
          | with_reducible apply forAll_kept
          | with_reducible apply modBank_kept); clear_value x)
    | (intro _ t ht; try dsimp -zeta only)
    | with_reducible apply forAll_kept
    | with_reducible apply modDio_kept

end Sys2Proof.Machine
end

