-- ==== Sys2Proof/Laws/KeptAio.lean ====
section
/-! SUPPORT. Every operation of Machine/Aio.lean keeps what `Kept` names. -/

set_option Elab.async false

namespace Sys2Proof.Machine

theorem landAio_kept {al : Allow} {s0 : State} (ch : Nat) (v : Real32) (q : Nat) (stamp : Int) {s : State} (hk : Kept al s0 s) :
    Kept al s0 (landAio ch v q stamp s) := by
  unfold landAio
  repeat' first
    | with_reducible assumption
    | lift_lets -underBinder
    | (intro x; have hx : Kept al s0 x := (by
        subst x
        repeat' first | with_reducible assumption | with_reducible apply modAio_kept); clear_value x)
    | with_reducible apply produceAllAs_kept

theorem landOwnAio_kept {al : Allow} {s0 : State} (ch : Nat) (stamp : Int) {s : State} (hk : Kept al s0 s) :
    Kept al s0 (landOwnAio ch stamp s) := by
  unfold landOwnAio
  repeat' first
    | with_reducible assumption
    | lift_lets -underBinder
    | (intro x; subst x)
    | with_reducible apply landAio_kept
    | with_reducible apply noteLanding_kept
    | split

theorem settleSource_kept {al : Allow} {s0 : State} (ch : Nat) {s : State} (hk : Kept al s0 s) :
    Kept al s0 (settleSource ch s) := by
  unfold settleSource
  repeat' first
    | with_reducible assumption
    | lift_lets -underBinder
    | (intro x; subst x)
    | with_reducible apply modAio_kept

theorem requalAio_kept {al : Allow} {s0 : State} (ch : Nat) {s : State} (hk : Kept al s0 s) :
    Kept al s0 (requalAio ch s) := by
  unfold requalAio
  repeat' first
    | with_reducible assumption
    | lift_lets -underBinder
    | (intro x; subst x)
    | with_reducible apply decideQual_kept
    | split

theorem aioConversionState_kept {al : Allow} {s0 : State} (ch : Nat) (code : Int) (env : ConvEnv) {s : State} (hk : Kept al s0 s) :
    Kept al s0 (aioConversionState ch code env s) := by
  unfold aioConversionState
  repeat' first
    | with_reducible assumption
    | lift_lets -underBinder
    | (intro x; have hx : Kept al s0 x := (by
        subst x
        repeat' first | with_reducible assumption | with_reducible apply modAio_kept); clear_value x)
    | (intro x; subst x)
    | with_reducible apply landOwnAio_kept
    | split

theorem retireAio_kept {al : Allow} {s0 : State} (ch : Nat) (cal : Bool) {s : State} (hk : Kept al s0 s) :
    Kept al s0 (retireAio ch cal s) := by
  unfold retireAio
  repeat' first
    | with_reducible assumption
    | lift_lets -underBinder
    | (intro x; have hx : Kept al s0 x := (by
        subst x
        repeat' first | with_reducible assumption | with_reducible apply listRetired_kept); clear_value x)
    | with_reducible apply modAio_kept
    | with_reducible apply requalAio_kept
    | with_reducible apply settleSource_kept
    | split

theorem chipFault_kept {al : Allow} {s0 : State} (ch : Nat) (variant : Nat) {s : State} (hk : Kept al s0 s) :
    Kept al s0 (chipFault ch variant s) := by
  unfold chipFault
  repeat' first
    | with_reducible assumption
    | lift_lets -underBinder
    | (intro x; have hx : Kept al s0 x := (by
        subst x
        repeat' first
          | with_reducible assumption
          | with_reducible apply emit_kept
          | with_reducible apply modAio_kept); clear_value x)
    | (intro x; subst x)
    | with_reducible apply retireAio_kept
    | split

theorem chipTakes_kept {al : Allow} {s0 : State} (ch : Nat) {s : State} (hk : Kept al s0 s) :
    Kept al s0 (chipTakes ch s) := by
  unfold chipTakes
  repeat' first
    | with_reducible assumption
    | lift_lets -underBinder
    | (intro x; subst x)
    | with_reducible apply modAio_kept
    | with_reducible apply settleSource_kept

theorem landFlags_kept {al : Allow} {s0 : State} (ch : Nat) {s : State} (hk : Kept al s0 s) :
    Kept al s0 (landFlags ch s) := by
  unfold landFlags
  repeat' first | with_reducible assumption | with_reducible apply landOwnAio_kept | split

theorem aioLinkFrameState_kept {al : Allow} {s0 : State} (ch : Nat) (okDown : Bool) (okUp : Bool) (mv : Int) (temp : Int) {s : State} (hk : Kept al s0 s) :
    Kept al s0 (aioLinkFrameState ch okDown okUp mv temp s) := by
  unfold aioLinkFrameState
  repeat' first
    | with_reducible assumption
    | lift_lets -underBinder
    | (intro x; have hx : Kept al s0 x := (by
        subst x
        repeat' first
          | with_reducible assumption
          | with_reducible apply chipFault_kept
          | with_reducible apply chipTakes_kept
          | with_reducible apply modAio_kept
          | with_reducible apply send_kept
          | split); clear_value x)
    | (intro x; subst x)
    | with_reducible apply chipFault_kept
    | with_reducible apply landFlags_kept
    | with_reducible apply modAio_kept
    | split

theorem aioSupplyLost_kept {al : Allow} {s0 : State} {s : State} (hk : Kept al s0 s) :
    Kept al s0 (aioSupplyLost s) := by
  unfold aioSupplyLost
  repeat' first
    | with_reducible assumption
    | lift_lets -underBinder
    | (intro _ t ht; try dsimp -zeta only)
    | with_reducible apply forAll_kept
    | with_reducible apply modAio_kept
    | with_reducible apply settleSource_kept

theorem aioSupplyBack_kept {al : Allow} {s0 : State} {s : State} (hk : Kept al s0 s) :
    Kept al s0 (aioSupplyBack s) := by
  unfold aioSupplyBack
  repeat' first
    | with_reducible assumption
    | lift_lets -underBinder
    | (intro _ t ht; try dsimp -zeta only)
    | with_reducible apply forAll_kept
    | with_reducible apply modAio_kept
    | with_reducible apply settleSource_kept
    | split

theorem applyAio_kept {al : Allow} {s0 : State} (old : Tbl (List Byte)) {s : State} (hk : Kept al s0 s) :
    Kept al s0 (applyAio old s) := by
  unfold applyAio
  repeat' first
    | with_reducible assumption
    | lift_lets -underBinder
    | (intro _ t ht; try dsimp -zeta only)
    | with_reducible apply forAll_kept
    | with_reducible apply modAio_kept
    | with_reducible apply requalAio_kept
    | with_reducible apply settleSource_kept
    | split

theorem startAio_kept {al : Allow} {s0 : State} {s : State} (hk : Kept al s0 s) :
    Kept al s0 (startAio s) := by
  unfold startAio
  repeat' first
    | with_reducible assumption
    | lift_lets -underBinder
    | (intro x; have hx : Kept al s0 x := (by
        subst x
        repeat' first
          | with_reducible assumption
          | with_reducible apply modAio_kept
          | with_reducible apply settleSource_kept); clear_value x)
    | (intro _ t ht; try dsimp -zeta only)
    | with_reducible apply emit_kept
    | with_reducible apply forAll_kept
    | with_reducible apply retireAio_kept
    | split

end Sys2Proof.Machine
end

