-- ==== Sys2Proof/Laws/KeptMotion.lean ====
section
/-! SUPPORT. Every operation of Machine/Motion.lean keeps what `Kept` names. -/

set_option Elab.async false

namespace Sys2Proof.Machine

theorem modAxGroup_kept {al : Allow} {s0 : State} (g : Nat) (f : AxGroup → AxGroup) {s : State} (hk : Kept al s0 s) :
    Kept al s0 (modAxGroup g f s) := by
  unfold modAxGroup
  repeat' first
    | with_reducible assumption
    | lift_lets -underBinder
    | (intro x; subst x)
    | with_reducible refine Kept.put ?_

theorem losePos_kept {al : Allow} {s0 : State} (n : Nat) (code : Nat) {s : State} (hk : Kept al s0 s) :
    Kept al s0 (losePos n code s) := by
  unfold losePos
  repeat' first
    | with_reducible assumption
    | lift_lets -underBinder
    | (intro x; have hx : Kept al s0 x := (by
        subst x
        repeat' first | with_reducible assumption | with_reducible apply modAxis_kept); clear_value x)
    | (intro x; subst x)
    | with_reducible apply emit_kept
    | split

theorem endHoming_kept {al : Allow} {s0 : State} (n : Nat) (result : Nat) (held : Bool) {s : State} (hk : Kept al s0 s) :
    Kept al s0 (endHoming n result held s) := by
  unfold endHoming
  repeat' first
    | with_reducible assumption
    | lift_lets -underBinder
    | (intro x; have hx : Kept al s0 x := (by
        subst x
        repeat' first | with_reducible assumption | with_reducible apply modAxis_kept); clear_value x)
    | (intro x; subst x)
    | with_reducible apply emit_kept
    | split

theorem tellCut_kept {al : Allow} {s0 : State} (n : Nat) (old : Int) {s : State} (hk : Kept al s0 s) :
    Kept al s0 (tellCut n old s) := by
  unfold tellCut
  repeat' first
    | with_reducible assumption
    | lift_lets -underBinder
    | (intro x; subst x)
    | with_reducible apply send_kept
    | split

theorem dropPlan_kept {al : Allow} {s0 : State} (n : Nat) {s : State} (hk : Kept al s0 s) :
    Kept al s0 (dropPlan n s) := by
  unfold dropPlan
  repeat' first
    | with_reducible assumption
    | lift_lets -underBinder
    | (intro x; subst x)
    | with_reducible apply modAxis_kept
    | with_reducible apply tellCut_kept

theorem hardStop_kept {al : Allow} {s0 : State} (n : Nat) {s : State} (hk : Kept al s0 s) :
    Kept al s0 (hardStop n s) := by
  unfold hardStop
  repeat' first
    | with_reducible assumption
    | lift_lets -underBinder
    | (intro x; have hx : Kept al s0 x := (by
        subst x
        repeat' first
          | with_reducible assumption
          | with_reducible apply dropPlan_kept
          | with_reducible apply modAxis_kept); clear_value x)
    | (intro x; subst x)
    | with_reducible apply losePos_kept
    | split

theorem stopGroup_kept {al : Allow} {s0 : State} (g : Nat) {s : State} (hk : Kept al s0 s) :
    Kept al s0 (stopGroup g s) := by
  unfold stopGroup
  repeat' first | with_reducible assumption | with_reducible apply modAxGroup_kept

theorem hardStopAll_kept {al : Allow} {s0 : State} (n : Nat) {s : State} (hk : Kept al s0 s) :
    Kept al s0 (hardStopAll n s) := by
  unfold hardStopAll
  repeat' first
    | with_reducible assumption
    | lift_lets -underBinder
    | (intro x; have hx : Kept al s0 x := (by
        subst x
        repeat' first
          | with_reducible assumption
          | lift_lets -underBinder
          | (intro _ t ht; try dsimp -zeta only)
          | with_reducible apply forAll_kept
          | with_reducible apply hardStop_kept
          | with_reducible apply modAxis_kept
          | split); clear_value x)
    | (intro x; subst x)
    | with_reducible apply hardStop_kept
    | with_reducible apply stopGroup_kept
    | split

theorem energise_kept {al : Allow} {s0 : State} (n : Nat) {s : State} (hk : Kept al s0 s) :
    Kept al s0 (energise n s) := by
  unfold energise
  repeat' first | with_reducible assumption | with_reducible apply modAxis_kept

theorem deEnergise_kept {al : Allow} {s0 : State} (n : Nat) {s : State} (hk : Kept al s0 s) :
    Kept al s0 (deEnergise n s) := by
  unfold deEnergise
  repeat' first | with_reducible assumption | with_reducible apply modAxis_kept

theorem readTarget_kept {al : Allow} {s0 : State} (n : Nat) {s : State} (hk : Kept al s0 s) :
    Kept al s0 (readTarget n s) := by
  unfold readTarget
  repeat' first
    | with_reducible assumption
    | lift_lets -underBinder
    | (intro x; have hx : Kept al s0 x := (by
        subst x
        repeat' first | with_reducible assumption | with_reducible apply modAxis_kept); clear_value x)
    | (intro x; subst x)
    | with_reducible apply modAxis_kept
    | split

theorem startHoming_kept {al : Allow} {s0 : State} (n : Nat) {s : State} (hk : Kept al s0 s) :
    Kept al s0 (startHoming n s) := by
  unfold startHoming
  repeat' first
    | with_reducible assumption
    | lift_lets -underBinder
    | (intro x; have hx : Kept al s0 x := (by
        subst x
        repeat' first | with_reducible assumption | with_reducible apply modAxis_kept); clear_value x)
    | (intro x; subst x)
    | with_reducible apply endHoming_kept
    | with_reducible apply modAxis_kept
    | split

theorem readInputs_kept {al : Allow} {s0 : State} (n : Nat) {s : State} (hk : Kept al s0 s) :
    Kept al s0 (readInputs n s) := by
  unfold readInputs
  repeat' first
    | with_reducible assumption
    | lift_lets -underBinder
    | (intro x; have hx : Kept al s0 x := (by
        subst x
        repeat' first
          | with_reducible assumption
          | lift_lets -underBinder
          | with_reducible apply endHoming_kept
          | with_reducible apply hardStopAll_kept
          | with_reducible apply modAxis_kept
          | with_reducible apply readTarget_kept
          | with_reducible apply startHoming_kept
          | split); clear_value x)
    | (intro x; subst x)
    | with_reducible apply energise_kept
    | split

theorem rampNow_kept {al : Allow} {s0 : State} (n : Nat) {s : State} (hk : Kept al s0 s) :
    Kept al s0 (rampNow n s) := by
  unfold rampNow
  repeat' first
    | with_reducible assumption
    | lift_lets -underBinder
    | (intro x; subst x)
    | with_reducible apply modAxis_kept
    | with_reducible apply tellCut_kept

theorem searchBlocked_kept {al : Allow} {s0 : State} (n : Nat) {s : State} (hk : Kept al s0 s) :
    Kept al s0 (searchBlocked n s) := by
  unfold searchBlocked
  repeat' first
    | with_reducible assumption
    | with_reducible apply endHoming_kept
    | with_reducible apply modAxis_kept
    | split

theorem homingAxis_kept {al : Allow} {s0 : State} (n : Nat) {s : State} (hk : Kept al s0 s) :
    Kept al s0 (homingAxis n s) := by
  unfold homingAxis
  repeat' first
    | with_reducible assumption
    | lift_lets -underBinder
    | (intro x; have hx : Kept al s0 x := (by
        subst x
        repeat' first | with_reducible assumption | with_reducible apply modAxis_kept); clear_value x)
    | (intro x; subst x)
    | with_reducible apply endHoming_kept
    | with_reducible apply modAxis_kept
    | with_reducible apply searchBlocked_kept
    | split

theorem restOff_kept {al : Allow} {s0 : State} (n : Nat) {s : State} (hk : Kept al s0 s) :
    Kept al s0 (restOff n s) := by
  unfold restOff
  repeat' first
    | with_reducible assumption
    | lift_lets -underBinder
    | (intro x; have hx : Kept al s0 x := (by
        subst x
        repeat' first | with_reducible assumption | with_reducible apply deEnergise_kept); clear_value x)
    | (intro x; subst x)
    | with_reducible apply losePos_kept
    | split

theorem planAxis_kept {al : Allow} {s0 : State} (n : Nat) {s : State} (hk : Kept al s0 s) :
    Kept al s0 (planAxis n s) := by
  unfold planAxis
  repeat' first
    | with_reducible assumption
    | lift_lets -underBinder
    | (intro x; have hx : Kept al s0 x := (by
        subst x
        repeat' first | with_reducible assumption | with_reducible apply modAxis_kept); clear_value x)
    | (intro x; subst x)
    | with_reducible apply homingAxis_kept
    | with_reducible apply modAxis_kept
    | with_reducible apply restOff_kept
    | split

theorem placeMembers_kept {al : Allow} {s0 : State} (m : List Nat) (x : AxGroup) {s : State} (hk : Kept al s0 s) :
    Kept al s0 (placeMembers m x s) := by
  unfold placeMembers
  repeat' first
    | with_reducible assumption
    | lift_lets -underBinder
    | with_reducible apply modAxis_kept
    | with_reducible refine Kept.foldl (fun t x ht => ?_) _ _ ?_

theorem planGroup_kept {al : Allow} {s0 : State} (g : Nat) (m : List Nat) {s : State} (hk : Kept al s0 s) :
    Kept al s0 (planGroup g m s) := by
  unfold planGroup
  repeat' first
    | with_reducible assumption
    | lift_lets -underBinder
    | (intro x; have hx : Kept al s0 x := (by
        subst x
        repeat' first
          | with_reducible assumption
          | lift_lets -underBinder
          | (intro _ t ht; try dsimp -zeta only)
          | with_reducible apply forAll_kept
          | with_reducible apply modAxGroup_kept
          | with_reducible apply modAxis_kept
          | with_reducible apply placeMembers_kept); clear_value x)
    | (intro x; subst x)
    | (intro _ t ht; try dsimp -zeta only)
    | with_reducible apply forAll_kept
    | with_reducible apply modAxGroup_kept
    | with_reducible apply modAxis_kept
    | with_reducible apply placeMembers_kept
    | with_reducible apply restOff_kept
    | split

theorem releasePlan_kept {al : Allow} {s0 : State} (n : Nat) (before : Int) {s : State} (hk : Kept al s0 s) :
    Kept al s0 (releasePlan n before s) := by
  unfold releasePlan
  repeat' first
    | with_reducible assumption
    | lift_lets -underBinder
    | (intro x; have hx : Kept al s0 x := (by
        subst x
        repeat' first | with_reducible assumption | with_reducible apply modAxis_kept); clear_value x)
    | (intro x; subst x)
    | with_reducible apply send_kept
    | split

theorem releasePath_kept {al : Allow} {s0 : State} (g : Nat) {s : State} (hk : Kept al s0 s) :
    Kept al s0 (releasePath g s) := by
  unfold releasePath
  repeat' first
    | with_reducible assumption
    | lift_lets -underBinder
    | (intro x; subst x)
    | with_reducible apply modAxGroup_kept

theorem pauseAxis_kept {al : Allow} {s0 : State} (n : Nat) {s : State} (hk : Kept al s0 s) :
    Kept al s0 (pauseAxis n s) := by
  unfold pauseAxis
  repeat' first | with_reducible assumption | with_reducible apply modAxis_kept

theorem produceAxis_kept {al : Allow} {s0 : State} (n : Nat) {s : State} (hk : Kept al s0 s) :
    Kept al s0 (produceAxis n s) := by
  unfold produceAxis
  repeat' first
    | with_reducible assumption
    | lift_lets -underBinder
    | (intro x; have hx : Kept al s0 x := (by
        subst x
        repeat' first | with_reducible assumption | with_reducible apply produceAll_kept); clear_value x)
    | (intro x; subst x)
    | with_reducible apply produceAll_kept

theorem motionTickState_kept {al : Allow} {s0 : State} {s : State} (hk : Kept al s0 s) :
    Kept al s0 (motionTickState s) := by
  unfold motionTickState
  repeat' first
    | with_reducible assumption
    | lift_lets -underBinder
    | (intro x; have hx : Kept al s0 x := (by
        subst x
        repeat' first
          | with_reducible assumption
          | lift_lets -underBinder
          | (intro _ t ht; try dsimp -zeta only)
          | with_reducible apply forAll_kept
          | with_reducible apply planAxis_kept
          | with_reducible apply planGroup_kept
          | with_reducible apply produceAxis_kept
          | with_reducible apply readInputs_kept
          | with_reducible apply releasePath_kept
          | split
          | with_reducible refine Kept.foldl (fun t x ht => ?_) _ _ ?_
          | with_reducible refine Kept.put ?_); clear_value x)
    | (intro x; subst x)
    | (intro _ t ht; try dsimp -zeta only)
    | with_reducible apply forAll_kept
    | with_reducible apply pauseAxis_kept
    | with_reducible apply releasePlan_kept
    | split
    | with_reducible refine Kept.foldl (fun t x ht => ?_) _ _ ?_

theorem axCommandNow_kept {al : Allow} {s0 : State} (n : Nat) (data : List Byte) (u2 : Nat) {s : State} (hk : Kept al s0 s) :
    Kept al s0 (axCommandNow n data u2 s).2 := by
  unfold axCommandNow
  repeat' first
    | with_reducible assumption
    | lift_lets -underBinder
    | (intro x; subst x)
    | with_reducible apply modAxis_kept
    | split

theorem axCommandOp_kept {al : Allow} {s0 : State} (n : Nat) (data : List Byte) (m : Nat) {s : State} (hk : Kept al s0 s) :
    Kept al s0 (axCommandOp n data m s).2 := by
  unfold axCommandOp
  repeat' first
    | with_reducible assumption
    | with_reducible apply axCommandNow_kept
    | with_reducible apply deferred_kept
    | split

theorem switchStop_kept {al : Allow} {s0 : State} (n : Nat) (positive : Bool) {s : State} (hk : Kept al s0 s) :
    Kept al s0 (switchStop n positive s) := by
  unfold switchStop
  repeat' first
    | with_reducible assumption
    | with_reducible apply hardStopAll_kept
    | with_reducible apply rampNow_kept
    | split

theorem homeLatch_kept {al : Allow} {s0 : State} (n : Nat) (stepsSince : Int) {s : State} (hk : Kept al s0 s) :
    Kept al s0 (homeLatch n stepsSince s) := by
  unfold homeLatch
  repeat' first
    | with_reducible assumption
    | lift_lets -underBinder
    | (intro x; subst x)
    | with_reducible apply modAxis_kept

theorem homingInput_kept {al : Allow} {s0 : State} (n : Nat) (i : LimitInput) (active : Bool) (stepsSince : Int) {s : State} (hk : Kept al s0 s) :
    Kept al s0 (homingInput n i active stepsSince s) := by
  unfold homingInput
  repeat' first
    | with_reducible assumption
    | lift_lets -underBinder
    | (intro x; subst x)
    | with_reducible apply endHoming_kept
    | with_reducible apply homeLatch_kept
    | with_reducible apply modAxis_kept
    | with_reducible apply switchStop_kept
    | split

theorem cutPlan_kept {al : Allow} {s0 : State} (k : Nat) (n : Nat) {s : State} (hk : Kept al s0 s) :
    Kept al s0 (cutPlan k n s) := by
  unfold cutPlan
  repeat' first | with_reducible assumption | with_reducible apply modAxis_kept

theorem rampMember_kept {al : Allow} {s0 : State} (n : Nat) (st : Int) (d : Int) (path : Int) (first : Int × Int) (rest : List (Int × Int)) {s : State} (hk : Kept al s0 s) :
    Kept al s0 (rampMember n st d path first rest s) := by
  unfold rampMember
  repeat' first
    | with_reducible assumption
    | lift_lets -underBinder
    | (intro x; subst x)
    | with_reducible apply modAxis_kept
    | with_reducible apply tellCut_kept

theorem rampGroup_kept {al : Allow} {s0 : State} (g : Nat) (m : List Nat) {s : State} (hk : Kept al s0 s) :
    Kept al s0 (rampGroup g m s) := by
  unfold rampGroup
  repeat' first
    | with_reducible assumption
    | lift_lets -underBinder
    | (intro x; have hx : Kept al s0 x := (by
        subst x
        repeat' first
          | with_reducible assumption
          | lift_lets -underBinder
          | with_reducible apply rampMember_kept
          | split
          | with_reducible refine Kept.foldl (fun t x ht => ?_) _ _ ?_); clear_value x)
    | (intro x; subst x)
    | (intro _ t ht; try dsimp -zeta only)
    | with_reducible apply cutPlan_kept
    | with_reducible apply forAll_kept
    | with_reducible apply modAxGroup_kept
    | with_reducible apply modAxis_kept
    | split

theorem limitReached_kept {al : Allow} {s0 : State} (n : Nat) (up : Bool) {s : State} (hk : Kept al s0 s) :
    Kept al s0 (limitReached n up s) := by
  unfold limitReached
  repeat' first
    | with_reducible assumption
    | lift_lets -underBinder
    | (intro x; have hx : Kept al s0 x := (by
        subst x
        repeat' first | with_reducible assumption | with_reducible apply modAxis_kept); clear_value x)
    | with_reducible apply hardStopAll_kept
    | with_reducible apply rampGroup_kept
    | with_reducible apply switchStop_kept
    | split

theorem limitInputState_kept {al : Allow} {s0 : State} (k : Nat) (i : LimitInput) (high : Bool) (stepsSince : Int) {s : State} (hk : Kept al s0 s) :
    Kept al s0 (limitInputState k i high stepsSince s) := by
  unfold limitInputState
  repeat' first
    | with_reducible assumption
    | lift_lets -underBinder
    | (intro x; have hx : Kept al s0 x := (by
        subst x
        repeat' first | with_reducible assumption | with_reducible refine Kept.put ?_); clear_value x)
    | (intro x; subst x)
    | with_reducible apply homingInput_kept
    | with_reducible apply limitReached_kept
    | split
    | with_reducible refine Kept.foldl (fun t x ht => ?_) _ _ ?_

theorem retireAxis_kept {al : Allow} {s0 : State} (n : Nat) {s : State} (hk : Kept al s0 s) :
    Kept al s0 (retireAxis n s) := by
  unfold retireAxis
  repeat' first
    | with_reducible assumption
    | lift_lets -underBinder
    | with_reducible apply deEnergise_kept
    | with_reducible apply listRetired_kept
    | with_reducible apply losePos_kept
    | with_reducible apply produceAxis_kept

theorem driveFaultState_kept {al : Allow} {s0 : State} (n : Nat) (k : DriveFaultKind) {s : State} (hk : Kept al s0 s) :
    Kept al s0 (driveFaultState n k s) := by
  unfold driveFaultState
  repeat' first
    | with_reducible assumption
    | lift_lets -underBinder
    | (intro x; have hx : Kept al s0 x := (by
        subst x
        repeat' first
          | with_reducible assumption
          | lift_lets -underBinder
          | with_reducible apply emit_kept
          | with_reducible apply endHoming_kept
          | with_reducible apply hardStopAll_kept
          | with_reducible apply losePos_kept
          | with_reducible apply modAxis_kept); clear_value x)
    | (intro x; subst x)
    | with_reducible apply retireAxis_kept
    | split

theorem driveSupplyLost_kept {al : Allow} {s0 : State} {s : State} (hk : Kept al s0 s) :
    Kept al s0 (driveSupplyLost s) := by
  unfold driveSupplyLost
  repeat' first
    | with_reducible assumption
    | lift_lets -underBinder
    | (intro x; have hx : Kept al s0 x := (by
        subst x
        repeat' first
          | with_reducible assumption
          | lift_lets -underBinder
          | with_reducible apply endHoming_kept
          | with_reducible apply hardStopAll_kept); clear_value x)
    | (intro _ t ht; try dsimp -zeta only)
    | with_reducible apply forAll_kept
    | with_reducible apply losePos_kept
    | with_reducible apply modAxis_kept

theorem driveSupplyBack_kept {al : Allow} {s0 : State} {s : State} (hk : Kept al s0 s) :
    Kept al s0 (driveSupplyBack s) := by
  unfold driveSupplyBack
  repeat' first
    | with_reducible assumption
    | lift_lets -underBinder
    | (intro _ t ht; try dsimp -zeta only)
    | with_reducible apply forAll_kept
    | with_reducible apply modAxis_kept

theorem limitSupplyLost_kept {al : Allow} {s0 : State} {s : State} (hk : Kept al s0 s) :
    Kept al s0 (limitSupplyLost s) := by
  unfold limitSupplyLost
  repeat' first
    | with_reducible assumption
    | lift_lets -underBinder
    | (intro x; subst x)
    | with_reducible refine Kept.put ?_

theorem motionReset_kept {al : Allow} {s0 : State} {s : State} (hk : Kept al s0 s) :
    Kept al s0 (motionReset s) := by
  unfold motionReset
  repeat' first
    | with_reducible assumption
    | lift_lets -underBinder
    | (intro x; have hx : Kept al s0 x := (by
        subst x
        repeat' first
          | with_reducible assumption
          | lift_lets -underBinder
          | (intro x; subst x)
          | (intro _ t ht; try dsimp -zeta only)
          | with_reducible apply deEnergise_kept
          | with_reducible apply endHoming_kept
          | with_reducible apply forAll_kept
          | with_reducible apply hardStop_kept
          | with_reducible apply losePos_kept); clear_value x)
    | (intro x; subst x)
    | with_reducible refine Kept.put ?_

theorem motionTakeover_kept {al : Allow} {s0 : State} {s : State} (hk : Kept al s0 s) :
    Kept al s0 (motionTakeover s) := by
  unfold motionTakeover
  repeat' first
    | with_reducible assumption
    | lift_lets -underBinder
    | (intro _ t ht; try dsimp -zeta only)
    | with_reducible apply forAll_kept
    | with_reducible apply losePos_kept
    | split

theorem applyAxes_kept {al : Allow} {s0 : State} (old : Tbl (List Byte)) {s : State} (hk : Kept al s0 s) :
    Kept al s0 (applyAxes old s) := by
  unfold applyAxes
  repeat' first
    | with_reducible assumption
    | lift_lets -underBinder
    | (intro x; have hx : Kept al s0 x := (by
        subst x
        repeat' first
          | with_reducible assumption
          | lift_lets -underBinder
          | (intro x; subst x)
          | (intro _ t ht; try dsimp -zeta only)
          | with_reducible apply decideQual_kept
          | with_reducible apply forAll_kept
          | with_reducible apply losePos_kept
          | split
          | with_reducible refine Kept.put ?_); clear_value x)
    | (intro x; subst x)
    | with_reducible refine Kept.put ?_

theorem sealAxes_kept {al : Allow} {s0 : State} {s : State} (hk : Kept al s0 s) :
    Kept al s0 (sealAxes s) := by
  unfold sealAxes
  repeat' first
    | with_reducible assumption
    | lift_lets -underBinder
    | (intro x; subst x)
    | with_reducible refine Kept.put ?_

theorem startAxes_kept {al : Allow} {s0 : State} (warm : Bool) {s : State} (hk : Kept al s0 s) :
    Kept al s0 (startAxes warm s) := by
  unfold startAxes
  repeat' first
    | with_reducible assumption
    | lift_lets -underBinder
    | (intro x; have hx : Kept al s0 x := (by
        subst x
        repeat' first
          | with_reducible assumption
          | with_reducible apply modAxis_kept
          | with_reducible refine Kept.put ?_); clear_value x)
    | (intro x; subst x)
    | (intro _ t ht; try dsimp -zeta only)
    | with_reducible apply forAll_kept
    | with_reducible apply losePos_kept
    | with_reducible apply modAxis_kept
    | split

end Sys2Proof.Machine
end

