-- ==== Sys2Proof/Laws/KeptSafetyComplex.lean ====
section
/-! SUPPORT. Every operation of Machine/SafetyComplex.lean keeps what `Kept` names. -/

set_option Elab.async false

namespace Sys2Proof.Machine

theorem soFaultEnds_kept {al : Allow} {s0 : State} (k : Nat) (x : SoStage) {s : State} (hk : Kept al s0 s) :
    Kept al s0 (soFaultEnds k x s) := by
  unfold soFaultEnds
  repeat' first
    | with_reducible assumption
    | lift_lets -underBinder
    | with_reducible apply emit_kept
    | split
    | with_reducible refine Kept.foldl (fun t x ht => ?_) _ _ ?_

theorem soCommit_kept {al : Allow} {s0 : State} (k : Nat) (on : Bool) {s : State} (hk : Kept al s0 s) :
    Kept al s0 (soCommit k on s) := by
  unfold soCommit
  repeat' first
    | with_reducible assumption
    | lift_lets -underBinder
    | (intro x; subst x)
    | with_reducible apply modStage_kept
    | with_reducible apply soFaultEnds_kept
    | split

theorem soApply_kept {al : Allow} {s0 : State} (k : Nat) {s : State} (hk : Kept al s0 s) :
    Kept al s0 (soApply k s) := by
  unfold soApply
  repeat' first
    | with_reducible assumption
    | lift_lets -underBinder
    | (intro x; subst x)
    | with_reducible apply modStage_kept

theorem applyVector_kept {al : Allow} {s0 : State} {s : State} (hk : Kept al s0 s) :
    Kept al s0 (applyVector s) := by
  unfold applyVector
  repeat' first
    | with_reducible assumption
    | lift_lets -underBinder
    | (intro _ t ht; try dsimp -zeta only)
    | with_reducible apply forAll_kept
    | with_reducible apply soApply_kept

theorem tokenFault_kept {al : Allow} {s0 : State} {s : State} (hk : Kept al s0 s) :
    Kept al s0 (tokenFault s) := by
  unfold tokenFault
  repeat' first
    | with_reducible assumption
    | lift_lets -underBinder
    | (intro x; have hx : Kept al s0 x := (by
        subst x
        repeat' first
          | with_reducible assumption
          | lift_lets -underBinder
          | with_reducible apply draw_kept
          | with_reducible apply safetyFault_kept
          | with_reducible apply stagesOff_kept
          | with_reducible refine Kept.of_snd ?_ (by assumption)); clear_value x)
    | (intro x; subst x)
    | split
    | with_reducible refine Kept.put ?_

theorem goodToken_kept {al : Allow} {s0 : State} (tok : Nat) {s : State} (hk : Kept al s0 s) :
    Kept al s0 (goodToken tok s) := by
  unfold goodToken
  repeat' first
    | with_reducible assumption
    | lift_lets -underBinder
    | (intro x; have hx : Kept al s0 x := (by
        subst x
        repeat' first | with_reducible assumption | with_reducible refine Kept.put ?_); clear_value x)
    | (intro x; subst x)
    | with_reducible apply applyVector_kept
    | split
    | with_reducible refine Kept.put ?_

theorem tokenState_kept {al : Allow} {s0 : State} (tok : Nat) {s : State} (hk : Kept al s0 s) :
    Kept al s0 (tokenState tok s) := by
  unfold tokenState
  repeat' first
    | with_reducible assumption
    | with_reducible apply goodToken_kept
    | with_reducible apply tokenFault_kept
    | split

theorem tokenMissingState_kept {al : Allow} {s0 : State} {s : State} (hk : Kept al s0 s) :
    Kept al s0 (tokenMissingState s) := by
  unfold tokenMissingState
  repeat' first
    | with_reducible assumption
    | lift_lets -underBinder
    | (intro x; have hx : Kept al s0 x := (by
        subst x
        repeat' first
          | with_reducible assumption
          | lift_lets -underBinder
          | with_reducible apply emit_kept
          | with_reducible refine Kept.put ?_); clear_value x)
    | (intro x; subst x)
    | with_reducible apply tokenFault_kept
    | split

theorem latchInputs_kept {al : Allow} {s0 : State} {s : State} (hk : Kept al s0 s) :
    Kept al s0 (latchInputs s) := by
  unfold latchInputs
  repeat' first
    | with_reducible assumption
    | lift_lets -underBinder
    | (intro x; subst x)
    | with_reducible refine Kept.put ?_

theorem startPassA_kept {al : Allow} {s0 : State} {s : State} (hk : Kept al s0 s) :
    Kept al s0 (startPassA s) := by
  unfold startPassA
  repeat' first
    | with_reducible assumption
    | lift_lets -underBinder
    | (intro x; subst x)
    | with_reducible apply dropPasses_kept
    | split
    | with_reducible refine Kept.put ?_

theorem windowStart_kept {al : Allow} {s0 : State} {s : State} (hk : Kept al s0 s) :
    Kept al s0 (windowStart s) := by
  unfold windowStart
  repeat' first
    | with_reducible assumption
    | lift_lets -underBinder
    | (intro x; subst x)
    | with_reducible apply draw_kept
    | split
    | with_reducible refine Kept.of_snd ?_ (by assumption)
    | with_reducible refine Kept.put ?_

theorem postMailbox_kept {al : Allow} {s0 : State} {s : State} (hk : Kept al s0 s) :
    Kept al s0 (postMailbox s) := by
  unfold postMailbox
  repeat' first
    | with_reducible assumption
    | lift_lets -underBinder
    | (intro x; subst x)
    | with_reducible refine Kept.put ?_

theorem cycleStart_kept {al : Allow} {s0 : State} (mailboxLate : Bool) {s : State} (hk : Kept al s0 s) :
    Kept al s0 (cycleStart mailboxLate s) := by
  unfold cycleStart
  repeat' first
    | with_reducible assumption
    | lift_lets -underBinder
    | (intro x; have hx : Kept al s0 x := (by
        subst x
        repeat' first
          | with_reducible assumption
          | lift_lets -underBinder
          | with_reducible apply evaluation_kept
          | with_reducible apply latchInputs_kept
          | with_reducible apply postMailbox_kept
          | with_reducible apply startPassA_kept
          | with_reducible apply windowStart_kept
          | with_reducible refine Kept.put ?_); clear_value x)
    | (intro x; subst x)
    | with_reducible apply draw_kept
    | with_reducible apply safetyFault_kept
    | split

theorem stateAtCommit_kept {al : Allow} {s0 : State} {s : State} (hk : Kept al s0 s) :
    Kept al s0 (stateAtCommit s) := by
  unfold stateAtCommit
  repeat' first | with_reducible assumption | with_reducible apply enterSafety_kept | split

theorem stagesCommit_kept {al : Allow} {s0 : State} (v : Nat) {s : State} (hk : Kept al s0 s) :
    Kept al s0 (stagesCommit v s) := by
  unfold stagesCommit
  repeat' first
    | with_reducible assumption
    | lift_lets -underBinder
    | (intro _ t ht; try dsimp -zeta only)
    | with_reducible apply forAll_kept
    | with_reducible apply soCommit_kept

theorem noteCommit_kept {al : Allow} {s0 : State} (v : Nat) {s : State} (hk : Kept al s0 s) :
    Kept al s0 (noteCommit v s) := by
  unfold noteCommit
  repeat' first
    | with_reducible assumption
    | lift_lets -underBinder
    | (intro x; subst x)
    | split
    | with_reducible refine Kept.put ?_

theorem commitVector_kept {al : Allow} {s0 : State} {s : State} (hk : Kept al s0 s) :
    Kept al s0 (commitVector s) := by
  unfold commitVector
  repeat' first
    | with_reducible assumption
    | lift_lets -underBinder
    | (intro x; subst x)
    | with_reducible apply noteCommit_kept
    | with_reducible apply publishStatus_kept
    | with_reducible apply send_kept
    | with_reducible apply stagesCommit_kept
    | with_reducible apply stateAtCommit_kept

theorem registerFault_kept {al : Allow} {s0 : State} {s : State} (hk : Kept al s0 s) :
    Kept al s0 (registerFault s) := by
  unfold registerFault
  repeat' first
    | with_reducible assumption
    | lift_lets -underBinder
    | with_reducible apply draw_kept
    | with_reducible apply safetyFault_kept

theorem safetyCommitState_kept {al : Allow} {s0 : State} (mailboxLate : Bool) {s : State} (hk : Kept al s0 s) :
    Kept al s0 (safetyCommitState mailboxLate s) := by
  unfold safetyCommitState
  repeat' first
    | with_reducible assumption
    | lift_lets -underBinder
    | (intro x; have hx : Kept al s0 x := (by
        subst x
        repeat' first
          | with_reducible assumption
          | lift_lets -underBinder
          | with_reducible apply commitVector_kept
          | with_reducible apply showSafety_kept
          | with_reducible refine Kept.put ?_); clear_value x)
    | (intro x; subst x)
    | with_reducible apply cycleStart_kept
    | with_reducible apply registerFault_kept
    | split

theorem startPassB_kept {al : Allow} {s0 : State} (f : Forme) {s : State} (hk : Kept al s0 s) :
    Kept al s0 (startPassB f s) := by
  unfold startPassB evaluateCoded
  split
  · exact safetyFault_kept _ _ hk
  · cases codedView s with
    | none => exact safetyFault_kept _ _ hk
    | some v =>
      dsimp only [Option.map]
      with_reducible refine Kept.put ?_
      refine codeFunctions_kept _ _ ?_
      exact Kept.put hk

theorem passBStartState_kept {al : Allow} {s0 : State} {s : State} (hk : Kept al s0 s) :
    Kept al s0 (passBStartState s) := by
  unfold passBStartState
  repeat' first
    | with_reducible assumption
    | lift_lets -underBinder
    | (intro x; subst x)
    | with_reducible apply safetyFault_kept
    | with_reducible apply startPassB_kept
    | split
    | with_reducible refine Kept.put ?_

theorem passOverrunState_kept {al : Allow} {s0 : State} {s : State} (hk : Kept al s0 s) :
    Kept al s0 (passOverrunState s) := by
  unfold passOverrunState
  repeat' first | with_reducible assumption | with_reducible apply safetyFault_kept | split

theorem selfTest_kept {al : Allow} {s0 : State} (detected : Bool) {s : State} (hk : Kept al s0 s) :
    Kept al s0 (selfTest detected s) := by
  unfold selfTest
  repeat' first
    | with_reducible assumption
    | lift_lets -underBinder
    | (intro x; subst x)
    | with_reducible apply draw_kept
    | with_reducible apply safetyFault_kept
    | split
    | with_reducible refine Kept.put ?_

theorem judge_kept {al : Allow} {s0 : State} {s : State} (hk : Kept al s0 s) :
    Kept al s0 (judge s) := by
  unfold judge
  repeat' first
    | with_reducible assumption
    | lift_lets -underBinder
    | (intro x; have hx : Kept al s0 x := (by
        subst x
        repeat' first | with_reducible assumption | with_reducible refine Kept.put ?_); clear_value x)
    | (intro x; subst x)
    | with_reducible apply draw_kept
    | with_reducible apply safetyFault_kept
    | split

theorem scuCompareState_kept {al : Allow} {s0 : State} (upset : Bool) (selfTestDetected : Bool) {s : State} (hk : Kept al s0 s) :
    Kept al s0 (scuCompareState upset selfTestDetected s) := by
  unfold scuCompareState
  repeat' first
    | with_reducible assumption
    | lift_lets -underBinder
    | (intro x; subst x)
    | with_reducible apply judge_kept
    | with_reducible apply registerFault_kept
    | with_reducible apply safetyFault_kept
    | with_reducible apply selfTest_kept
    | split

theorem startSafety_kept {al : Allow} {s0 : State} {s : State} (hk : Kept al s0 s) :
    Kept al s0 (startSafety s) := by
  unfold startSafety
  repeat' first
    | with_reducible assumption
    | lift_lets -underBinder
    | (intro x; have hx : Kept al s0 x := (by
        subst x
        repeat' first
          | with_reducible assumption
          | lift_lets -underBinder
          | with_reducible apply dropPasses_kept
          | with_reducible apply enterSafety_kept
          | with_reducible refine Kept.put ?_); clear_value x)
    | (intro x; subst x)
    | with_reducible apply cycleStart_kept
    | with_reducible apply publishStatus_kept
    | with_reducible apply reinitSafety_kept
    | with_reducible apply startFunctions_kept

theorem safetyConfigStartState_kept {al : Allow} {s0 : State} {s : State} (hk : Kept al s0 s) :
    Kept al s0 (safetyConfigStartState s) := by
  unfold safetyConfigStartState
  repeat' first
    | with_reducible assumption
    | lift_lets -underBinder
    | (intro x; have hx : Kept al s0 x := (by
        subst x
        repeat' first | with_reducible assumption | with_reducible apply startSafety_kept); clear_value x)
    | with_reducible apply emit_kept
    | split

end Sys2Proof.Machine
end

