-- ==== Sys2Proof/Laws/KeptSafetyIo.lean ====
section
/-! SUPPORT. Every operation of Machine/SafetyIo.lean keeps what `Kept` names. -/

set_option Elab.async false

namespace Sys2Proof.Machine

theorem siAcceptedState_kept {al : Allow} {s0 : State} (j : Nat) (second : Bool) (high : Bool) {s : State} (hk : Kept al s0 s) :
    Kept al s0 (siAcceptedState j second high s) := by
  unfold siAcceptedState
  repeat' first | with_reducible assumption | with_reducible apply modTerm_kept | split

theorem blankAll_kept {al : Allow} {s0 : State} (js : List Nat) {s : State} (hk : Kept al s0 s) :
    Kept al s0 (blankAll js s) := by
  unfold blankAll
  repeat' first
    | with_reducible assumption
    | lift_lets -underBinder
    | (intro _ t ht; try dsimp -zeta only)
    | with_reducible apply forAll_kept
    | with_reducible apply modTerm_kept

theorem testPulseDarkState_kept {al : Allow} {s0 : State} (src : Nat) {s : State} (hk : Kept al s0 s) :
    Kept al s0 (testPulseDarkState src s) := by
  unfold testPulseDarkState
  repeat' first
    | with_reducible assumption
    | lift_lets -underBinder
    | with_reducible apply blankAll_kept
    | with_reducible apply modTp_kept
    | split

theorem testTerminal_kept {al : Allow} {s0 : State} (j : Nat) (readsOn : Bool) {s : State} (hk : Kept al s0 s) :
    Kept al s0 (testTerminal j readsOn s) := by
  unfold testTerminal
  repeat' first
    | with_reducible assumption
    | lift_lets -underBinder
    | (intro x; have hx : Kept al s0 x := (by
        subst x
        repeat' first
          | with_reducible assumption
          | with_reducible apply emit_kept
          | with_reducible apply modTerm_kept
          | split); clear_value x)
    | (intro x; subst x)
    | with_reducible apply emit_kept
    | split

theorem testPulseCheckState_kept {al : Allow} {s0 : State} (src : Nat) (onMask : Nat) {s : State} (hk : Kept al s0 s) :
    Kept al s0 (testPulseCheckState src onMask s) := by
  unfold testPulseCheckState
  repeat' first
    | with_reducible assumption
    | lift_lets -underBinder
    | (intro x; subst x)
    | (intro _ t ht; try dsimp -zeta only)
    | with_reducible apply forAll_kept
    | with_reducible apply testTerminal_kept
    | split

theorem blankEndState_kept {al : Allow} {s0 : State} (src : Nat) {s : State} (hk : Kept al s0 s) :
    Kept al s0 (blankEndState src s) := by
  unfold blankEndState
  repeat' first
    | with_reducible assumption
    | lift_lets -underBinder
    | (intro x; subst x)
    | (intro _ t ht; try dsimp -zeta only)
    | with_reducible apply forAll_kept
    | with_reducible apply modTerm_kept
    | with_reducible apply modTp_kept
    | split

theorem overloadRecord_kept {al : Allow} {s0 : State} (src : Nat) {s : State} (hk : Kept al s0 s) :
    Kept al s0 (overloadRecord src s) := by
  unfold overloadRecord
  repeat' first
    | with_reducible assumption
    | lift_lets -underBinder
    | (intro x; subst x)
    | with_reducible apply emit_kept
    | with_reducible apply modTp_kept
    | split

theorem tpOverloadState_kept {al : Allow} {s0 : State} (src : Nat) {s : State} (hk : Kept al s0 s) :
    Kept al s0 (tpOverloadState src s) := by
  unfold tpOverloadState
  repeat' first
    | with_reducible assumption
    | lift_lets -underBinder
    | with_reducible apply modTp_kept
    | with_reducible apply overloadRecord_kept
    | split

theorem tpRetryState_kept {al : Allow} {s0 : State} (src : Nat) (overloaded : Bool) {s : State} (hk : Kept al s0 s) :
    Kept al s0 (tpRetryState src overloaded s) := by
  unfold tpRetryState
  repeat' first
    | with_reducible assumption
    | lift_lets -underBinder
    | (intro x; subst x)
    | with_reducible apply emit_kept
    | with_reducible apply modTp_kept
    | with_reducible apply overloadRecord_kept
    | split

theorem darkDemand_kept {al : Allow} {s0 : State} (j : Nat) {s : State} (hk : Kept al s0 s) :
    Kept al s0 (darkDemand j s) := by
  unfold darkDemand
  repeat' first | with_reducible assumption | with_reducible apply modTerm_kept

theorem tpTakeoverState_kept {al : Allow} {s0 : State} (src : Nat) {s : State} (hk : Kept al s0 s) :
    Kept al s0 (tpTakeoverState src s) := by
  unfold tpTakeoverState
  repeat' first
    | with_reducible assumption
    | lift_lets -underBinder
    | (intro _ t ht; try dsimp -zeta only)
    | with_reducible apply darkDemand_kept
    | with_reducible apply forAll_kept
    | with_reducible apply modTp_kept
    | split

theorem latchOutput_kept {al : Allow} {s0 : State} (k : Nat) (variant : Nat) (f : SoStage → SoStage) {s : State} (hk : Kept al s0 s) :
    Kept al s0 (latchOutput k variant f s) := by
  unfold latchOutput
  repeat' first
    | with_reducible assumption
    | lift_lets -underBinder
    | (intro x; have hx : Kept al s0 x := (by
        subst x
        repeat' first | with_reducible assumption | with_reducible apply modStage_kept); clear_value x)
    | with_reducible apply emit_kept

theorem offTestState_kept {al : Allow} {s0 : State} (k : Nat) (high : Bool) {s : State} (hk : Kept al s0 s) :
    Kept al s0 (offTestState k high s) := by
  unfold offTestState
  repeat' first
    | with_reducible assumption
    | lift_lets -underBinder
    | (intro x; subst x)
    | with_reducible apply modStage_kept
    | split

theorem offTestEndState_kept {al : Allow} {s0 : State} (k : Nat) (reached : Bool) (chainClosed : Bool) {s : State} (hk : Kept al s0 s) :
    Kept al s0 (offTestEndState k reached chainClosed s) := by
  unfold offTestEndState
  repeat' first
    | with_reducible assumption
    | lift_lets -underBinder
    | (intro x; subst x)
    | with_reducible apply latchOutput_kept
    | with_reducible apply modStage_kept
    | split

theorem soExternalDriveState_kept {al : Allow} {s0 : State} (k : Nat) (present : Bool) {s : State} (hk : Kept al s0 s) :
    Kept al s0 (soExternalDriveState k present s) := by
  unfold soExternalDriveState
  repeat' first
    | with_reducible assumption
    | lift_lets -underBinder
    | (intro x; subst x)
    | with_reducible apply latchOutput_kept
    | with_reducible apply modStage_kept
    | split

end Sys2Proof.Machine
end

