-- ==== Sys2Proof/Laws/KeptSlots.lean ====
section
/-! SUPPORT. Every operation of Machine/Slots.lean keeps what `Kept` names. -/

set_option Elab.async false

namespace Sys2Proof.Machine

theorem slotAct_kept {al : Allow} {s0 : State} (r : SlotRec) (fireAt : Int) {s : State} (hk : Kept al s0 s) :
    Kept al s0 (slotAct r fireAt s) := by
  unfold slotAct
  repeat' first
    | with_reducible assumption
    | with_reducible apply cadenceSample_kept
    | with_reducible apply modDio_kept
    | with_reducible apply triggerTask_kept
    | split

theorem slotFireState_kept {al : Allow} {s0 : State} (n : Nat) {s : State} (hk : Kept al s0 s) :
    Kept al s0 (slotFireState n s) := by
  unfold slotFireState
  repeat' first
    | with_reducible assumption
    | lift_lets -underBinder
    | (intro x; have hx : Kept al s0 x := (by
        subst x
        repeat' first
          | with_reducible assumption
          | with_reducible apply modSched_kept
          | with_reducible apply scanSlot_kept
          | split); clear_value x)
    | (intro x; subst x)
    | with_reducible apply modSched_kept
    | with_reducible apply slotAct_kept
    | split

end Sys2Proof.Machine
end

