-- ==== Sys2Proof/Laws/KeptApply.lean ====
section
/-! SUPPORT. Every operation of Machine/Apply.lean keeps what `Kept` names. -/

set_option Elab.async false

namespace Sys2Proof.Machine

theorem applyTrackers_kept {al : Allow} {s0 : State} (old : Tbl (List Byte)) {s : State} (hk : Kept al s0 s) :
    Kept al s0 (applyTrackers old s) := by
  unfold applyTrackers
  repeat' first
    | with_reducible assumption
    | lift_lets -underBinder
    | (intro _ t ht; try dsimp -zeta only)
    | with_reducible apply forAll_kept
    | with_reducible apply modTracker_kept
    | with_reducible apply startTracker_kept
    | split

theorem armStaged_kept {al : Allow} {s0 : State} (objs : Tbl (List Byte)) {s : State} (hk : Kept al s0 s) :
    Kept al s0 (armStaged objs s) := by
  unfold armStaged
  repeat' first
    | with_reducible assumption
    | lift_lets -underBinder
    | (intro _ t ht; try dsimp -zeta only)
    | with_reducible apply armSlot_kept
    | with_reducible apply forAll_kept
    | split

theorem applySlots_kept {al : Allow} {s0 : State} (old : Tbl (List Byte)) {s : State} (hk : Kept al s0 s) :
    Kept al s0 (applySlots old s) := by
  unfold applySlots
  repeat' first
    | with_reducible assumption
    | lift_lets -underBinder
    | (intro x; subst x)
    | (intro _ t ht; try dsimp -zeta only)
    | with_reducible apply armSlot_kept
    | with_reducible apply forAll_kept
    | split

theorem applyBanks_kept {al : Allow} {s0 : State} {s : State} (hk : Kept al s0 s) :
    Kept al s0 (applyBanks s) := by
  unfold applyBanks
  repeat' first
    | with_reducible assumption
    | lift_lets -underBinder
    | (intro x; subst x)
    | (intro _ t ht; try dsimp -zeta only)
    | with_reducible apply forAll_kept
    | with_reducible apply modBank_kept

theorem announceBanks_kept {al : Allow} {s0 : State} (c : Tbl (List Byte)) {s : State} (hk : Kept al s0 s) :
    Kept al s0 (announceBanks c s) := by
  unfold announceBanks
  repeat' first
    | with_reducible assumption
    | lift_lets -underBinder
    | (intro x; subst x)
    | (intro _ t ht; try dsimp -zeta only)
    | with_reducible apply forAll_kept
    | with_reducible apply modBank_kept

theorem applyUnowned_kept {al : Allow} {s0 : State} {s : State} (hk : Kept al s0 s) :
    Kept al s0 (applyUnowned s) := by
  unfold applyUnowned
  repeat' first
    | with_reducible assumption
    | lift_lets -underBinder
    | (intro x; subst x)
    | with_reducible apply produce_kept
    | with_reducible refine Kept.foldl (fun t x ht => ?_) _ _ ?_

theorem applyStatus_kept {al : Allow} {s0 : State} {s : State} (hk : Kept al s0 s) :
    Kept al s0 (applyStatus s) := by
  unfold applyStatus
  repeat' first | with_reducible assumption | with_reducible apply publishStatus_kept | split

theorem adoptConfig_kept {al : Allow} {s0 : State} (c : Tbl (List Byte)) {s : State} (hk : Kept al s0 s) :
    Kept al s0 (adoptConfig c s) := by
  unfold adoptConfig
  repeat' first
    | with_reducible assumption
    | lift_lets -underBinder
    | (intro x; have hx : Kept al s0 x := (by
        subst x
        repeat' first
          | with_reducible assumption
          | lift_lets -underBinder
          | (intro _ t ht; try dsimp -zeta only)
          | with_reducible apply applyCan_kept
          | with_reducible apply applyMapping_kept
          | with_reducible apply applyNodeTable_kept
          | with_reducible apply applySlots_kept
          | with_reducible apply applyTimeRank_kept
          | with_reducible apply applyTrackers_kept
          | with_reducible apply forAll_kept
          | with_reducible refine Kept.putW ?_); clear_value x)
    | (intro x; subst x)
    | with_reducible apply applyAio_kept
    | with_reducible apply applyAxes_kept
    | with_reducible apply applyBanks_kept
    | with_reducible apply applyLoops_kept
    | with_reducible apply applyStatus_kept
    | with_reducible apply applyUnowned_kept

end Sys2Proof.Machine
end

