-- ==== Sys2Proof/Laws/KeptRecorder.lean ====
section
/-! SUPPORT. Every operation of Machine/Recorder.lean keeps what `Kept` names. -/

set_option Elab.async false

namespace Sys2Proof.Machine

theorem bankFault_kept {al : Allow} {s0 : State} (b : Nat) {s : State} (hk : Kept al s0 s) :
    Kept al s0 (bankFault b s) := by
  unfold bankFault
  repeat' first
    | with_reducible assumption
    | lift_lets -underBinder
    | (intro x; subst x)
    | with_reducible apply emit_kept
    | with_reducible refine Kept.put ?_

theorem writeRec_kept {al : Allow} {s0 : State} (q : QRec) (ok0 : Bool) (ok1 : Bool) {s : State} (hk : Kept al s0 s) :
    Kept al s0 (writeRec q ok0 ok1 s) := by
  unfold writeRec
  repeat' first
    | with_reducible assumption
    | lift_lets -underBinder
    | (intro x; have hx : Kept al s0 x := (by
        subst x
        repeat' first
          | with_reducible assumption
          | with_reducible apply bankFault_kept
          | split
          | with_reducible refine Kept.put ?_
          | with_reducible refine Kept.putW ?_); clear_value x)
    | (intro x; subst x)
    | with_reducible apply bankFault_kept
    | split

theorem recordWriteState_kept {al : Allow} {s0 : State} (ok0 ok1 : Bool) {s : State} (hk : Kept al s0 s) :
    Kept al s0 (recordWriteState ok0 ok1 s) := by
  unfold recordWriteState
  split
  · exact hk
  split
  · exact hk
  rename_i q rest e
  split
  · exact hk
  refine writeRec_kept _ _ _ (Kept.putW hk (e9 := fun h => ?_))
  rw [e] at h
  exact Nat.le_of_succ_le h

theorem resyncCompleteState_kept {al : Allow} {s0 : State} {s : State} (hk : Kept al s0 s) :
    Kept al s0 (resyncCompleteState s) := by
  unfold resyncCompleteState
  repeat' first
    | with_reducible assumption
    | lift_lets -underBinder
    | (intro x; subst x)
    | with_reducible apply emit_kept
    | split
    | dsimp -zeta only
    | with_reducible refine Kept.put ?_

theorem snapshotOp_kept {al : Allow} {s0 : State} (data : List Byte) (n : Nat) {s : State} (hk : Kept al s0 s) :
    Kept al s0 (snapshotOp data n s).2 := by
  unfold snapshotOp
  repeat' first
    | with_reducible assumption
    | lift_lets -underBinder
    | with_reducible apply cmdNow_kept
    | with_reducible apply draw_kept
    | split

theorem mirrorCounters_kept {al : Allow} {s0 : State} {s : State} (hk : Kept al s0 s) :
    Kept al s0 (mirrorCounters s) := by
  unfold mirrorCounters
  repeat' first
    | with_reducible assumption
    | lift_lets -underBinder
    | (intro x; subst x)
    | with_reducible refine Kept.put ?_

theorem takeSupercap_kept {al : Allow} {s0 : State} (mv : Nat) {s : State} (hk : Kept al s0 s) :
    Kept al s0 (takeSupercap mv s) := by
  unfold takeSupercap
  repeat' first
    | with_reducible assumption
    | lift_lets -underBinder
    | (intro x; have hx : Kept al s0 x := (by
        subst x
        repeat' first | with_reducible assumption | split | with_reducible refine Kept.put ?_); clear_value x)
    | (intro x; subst x)
    | with_reducible apply emit_kept
    | split

theorem condRecord_kept {al : Allow} {s0 : State} (was : Bool) (is : Bool) (code : Nat) (src : Nat) (data : List Byte) {s : State} (hk : Kept al s0 s) :
    Kept al s0 (condRecord was is code src data s) := by
  unfold condRecord
  repeat' first | with_reducible assumption | with_reducible apply emit_kept | split

theorem takeRail_kept {al : Allow} {s0 : State} (r : Nat) (mv : Nat) {s : State} (hk : Kept al s0 s) :
    Kept al s0 (takeRail r mv s) := by
  unfold takeRail
  repeat' first
    | with_reducible assumption
    | lift_lets -underBinder
    | (intro x; subst x)
    | with_reducible apply emit_kept
    | split
    | dsimp -zeta only
    | with_reducible refine Kept.put ?_

theorem takeHumidity_kept {al : Allow} {s0 : State} (h : Nat) {s : State} (hk : Kept al s0 s) :
    Kept al s0 (takeHumidity h s) := by
  unfold takeHumidity
  repeat' first
    | with_reducible assumption
    | lift_lets -underBinder
    | (intro x; have hx : Kept al s0 x := (by
        subst x
        repeat' first | with_reducible assumption | with_reducible refine Kept.put ?_); clear_value x)
    | (intro x; subst x)
    | with_reducible apply emit_kept
    | split
    | with_reducible refine Kept.put ?_

theorem takeShock_kept {al : Allow} {s0 : State} (peaks : List Nat) {s : State} (hk : Kept al s0 s) :
    Kept al s0 (takeShock peaks s) := by
  unfold takeShock
  repeat' first
    | with_reducible assumption
    | lift_lets -underBinder
    | (intro x; have hx : Kept al s0 x := (by
        subst x
        repeat' first | with_reducible assumption | with_reducible refine Kept.put ?_); clear_value x)
    | (intro x; subst x)
    | with_reducible apply emit_kept
    | split
    | with_reducible refine Kept.put ?_

theorem takeTemps_kept {al : Allow} {s0 : State} {s : State} (hk : Kept al s0 s) :
    Kept al s0 (takeTemps s) := by
  unfold takeTemps
  repeat' first
    | with_reducible assumption
    | lift_lets -underBinder
    | (intro x; subst x)
    | with_reducible apply condRecord_kept
    | with_reducible apply draw_kept
    | split
    | dsimp -zeta only
    | with_reducible refine Kept.put ?_

theorem sensorSampleState_kept {al : Allow} {s0 : State} (raw : Readings) {s : State} (hk : Kept al s0 s) :
    Kept al s0 (sensorSampleState raw s) := by
  unfold sensorSampleState
  repeat' first
    | with_reducible assumption
    | lift_lets -underBinder
    | (intro x; have hx : Kept al s0 x := (by
        subst x
        repeat' first
          | with_reducible assumption
          | lift_lets -underBinder
          | (intro _ t ht; try dsimp -zeta only)
          | with_reducible apply forAll_kept
          | with_reducible apply takeRail_kept
          | with_reducible apply takeTemps_kept
          | with_reducible refine Kept.put ?_); clear_value x)
    | (intro x; subst x)
    | with_reducible apply takeHumidity_kept
    | with_reducible apply takeShock_kept
    | with_reducible apply takeSupercap_kept
    | split

theorem humidityState_kept {al : Allow} {s0 : State} {s : State} (hk : Kept al s0 s) :
    Kept al s0 (humidityState s) := by
  unfold humidityState
  repeat' first
    | with_reducible assumption
    | lift_lets -underBinder
    | (intro x; subst x)
    | with_reducible apply emit_kept
    | split
    | with_reducible refine Kept.put ?_

end Sys2Proof.Machine
end

