-- ==== Sys2Proof/Laws/KeptRestart.lean ====
section
/-! SUPPORT. Every operation of Machine/Restart.lean keeps what `Kept` names. -/

set_option Elab.async false

namespace Sys2Proof.Machine

theorem storeAll_kept {al : Allow} {s0 : State} {s : State} (hk : Kept al s0 s) :
    Kept al s0 (storeAll s) := by
  unfold storeAll
  repeat' first
    | with_reducible assumption
    | lift_lets -underBinder
    | (intro _ t ht; try dsimp -zeta only)
    | with_reducible apply forAll_kept
    | with_reducible apply storeRec_kept

theorem storeRetain_kept {al : Allow} {s0 : State} {s : State} (hk : Kept al s0 s) :
    Kept al s0 (storeRetain s) := by
  unfold storeRetain
  repeat' first
    | with_reducible assumption
    | lift_lets -underBinder
    | (intro x; have hx : Kept al s0 x := (by
        subst x
        repeat' first | with_reducible assumption | with_reducible apply storeAll_kept); clear_value x)
    | (intro x; subst x)
    | with_reducible apply sealAxes_kept
    | split
    | with_reducible refine Kept.putW ?_

theorem writeUndecided_kept {al : Allow} {s0 : State} {s : State} (hk : Kept al s0 s) : Kept al s0 (writeUndecided s) := by
  unfold writeUndecided
  split
  · rename_i q rest e
    split
    · refine writeRec_kept _ _ _ (Kept.putW hk (e9 := fun h => ?_))
      rw [e] at h
      exact Nat.le_of_succ_le h
    · exact hk
  · exact hk

theorem powerFailRecord_kept {al : Allow} {s0 : State} {s : State} (hk : Kept al s0 s) :
    Kept al s0 (powerFailRecord s) := by
  unfold powerFailRecord
  repeat' first
    | with_reducible assumption
    | lift_lets -underBinder
    | (intro x; have hx : Kept al s0 x := (by
        subst x
        repeat' first
          | with_reducible assumption
          | with_reducible apply writeRec_kept
          | with_reducible apply writeUndecided_kept
          | with_reducible refine Kept.put ?_); clear_value x)
    | (intro x; subst x)
    | split
    | with_reducible refine Kept.put ?_

theorem drainQueue_kept {al : Allow} {s0 : State} (n : Nat) : ∀ {s : State}, Kept al s0 s → Kept al s0 (drainQueue n s) := by
  induction n with
  | zero => intro s hk; exact hk
  | succ n ih => intro s hk; exact ih (recordWriteState_kept _ _ hk)

theorem relayClose_kept {al : Allow} {s0 : State} {s : State} (hk : Kept al s0 s) :
    Kept al s0 (relayClose s) := by
  unfold relayClose
  repeat' first
    | with_reducible assumption
    | lift_lets -underBinder
    | (intro x; subst x)
    | split
    | with_reducible refine Kept.put ?_

theorem drivesOff_kept {al : Allow} {s0 : State} {s : State} (hk : Kept al s0 s) :
    Kept al s0 (drivesOff s) := by
  unfold drivesOff
  repeat' first
    | with_reducible assumption
    | lift_lets -underBinder
    | (intro x; subst x)
    | with_reducible refine Kept.put ?_

theorem closeAll_kept {al : Allow} {s0 : State} (cause : Nat) {s : State} (hk : Kept al s0 s) :
    Kept al s0 (closeAll cause s) := by
  unfold closeAll
  repeat' first
    | with_reducible assumption
    | lift_lets -underBinder
    | (intro _ t ht; try dsimp -zeta only)
    | with_reducible apply closeSession_kept
    | with_reducible apply forAll_kept
    | split

theorem goDown_kept {al : Allow} {s0 : State} (p : Phase) {s : State} (hk : Kept al s0 s) :
    Kept al s0 (goDown p s) := by
  unfold goDown
  repeat' first
    | with_reducible assumption
    | lift_lets -underBinder
    | (intro x; have hx : Kept al s0 x := (by
        subst x
        repeat' first
          | with_reducible assumption
          | lift_lets -underBinder
          | with_reducible apply closeAll_kept
          | with_reducible apply drivesOff_kept
          | with_reducible apply relayClose_kept
          | with_reducible apply stagesOff_kept); clear_value x)
    | (intro x; subst x)
    | with_reducible refine Kept.put ?_

theorem restartNow_kept {al : Allow} {s0 : State} (cause : Nat) {s : State} (hk : Kept al s0 s) :
    Kept al s0 (restartNow cause s) := by
  unfold restartNow
  repeat' first
    | with_reducible assumption
    | lift_lets -underBinder
    | (intro x; have hx : Kept al s0 x := (by
        subst x
        repeat' first
          | with_reducible assumption
          | lift_lets -underBinder
          | with_reducible apply powerFailRecord_kept
          | with_reducible apply storeRetain_kept); clear_value x)
    | with_reducible apply drainQueue_kept
    | with_reducible apply goDown_kept
    | with_reducible apply mirrorCounters_kept
    | with_reducible apply writeFlashDue_kept

theorem resetNow_kept {al : Allow} {s0 : State} (cause : Nat) {s : State} (hk : Kept al s0 s) :
    Kept al s0 (resetNow cause s) := by
  unfold resetNow
  repeat' first
    | with_reducible assumption
    | lift_lets -underBinder
    | with_reducible apply goDown_kept
    | with_reducible apply storeRetain_kept
    | split

end Sys2Proof.Machine
end

