-- ==== Sys2Proof/Laws/KeptPair.lean ====
section
/-! SUPPORT. Every operation of Machine/Pair.lean keeps what `Kept` names. -/

set_option Elab.async false

namespace Sys2Proof.Machine

theorem enterConflict_kept {al : Allow} {s0 : State} {s : State} (hk : Kept al s0 s) :
    Kept al s0 (enterConflict s) := by
  unfold enterConflict
  repeat' first
    | with_reducible assumption
    | lift_lets -underBinder
    | (intro x; have hx : Kept al s0 x := (by
        subst x
        repeat' first
          | with_reducible assumption
          | with_reducible apply enterStop_kept
          | with_reducible apply failSwitchover_kept
          | with_reducible apply loseRole_kept
          | split); clear_value x)
    | with_reducible apply enterPair_kept
    | split

theorem noteMargin_kept {al : Allow} {s0 : State} {s : State} (hk : Kept al s0 s) :
    Kept al s0 (noteMargin s) := by
  unfold noteMargin
  repeat' first
    | with_reducible assumption
    | lift_lets -underBinder
    | (intro x; subst x)
    | split
    | with_reducible refine Kept.put ?_

theorem undoRelease_kept {al : Allow} {s0 : State} (k : Nat) {s : State} (hk : Kept al s0 s) :
    Kept al s0 (undoRelease k s) := by
  unfold undoRelease
  repeat' first
    | with_reducible assumption
    | lift_lets -underBinder
    | (intro x; have hx : Kept al s0 x := (by
        subst x
        repeat' first | with_reducible assumption | with_reducible refine Kept.put ?_); clear_value x)
    | (intro x; subst x)
    | with_reducible apply modTask_kept

theorem slotsTakeover_kept {al : Allow} {s0 : State} (gap : Int) {s : State} (hk : Kept al s0 s) :
    Kept al s0 (slotsTakeover gap s) := by
  unfold slotsTakeover
  repeat' first
    | with_reducible assumption
    | lift_lets -underBinder
    | (intro x; have hx : Kept al s0 x := (by
        subst x
        repeat' first
          | with_reducible assumption
          | with_reducible apply modSched_kept
          | with_reducible apply undoRelease_kept
          | split); clear_value x)
    | (intro x; subst x)
    | (intro _ t ht; try dsimp -zeta only)
    | with_reducible apply forAll_kept
    | with_reducible apply modDio_kept
    | with_reducible apply modSched_kept
    | split

theorem noteSwitchover_kept {al : Allow} {s0 : State} (trigger : Nat) (kind : Nat) (pauseUs : Nat) {s : State} (hk : Kept al s0 s) :
    Kept al s0 (noteSwitchover trigger kind pauseUs s) := by
  unfold noteSwitchover
  repeat' first
    | with_reducible assumption
    | lift_lets -underBinder
    | (intro x; have hx : Kept al s0 x := (by
        subst x
        repeat' first | with_reducible assumption | with_reducible refine Kept.put ?_); clear_value x)
    | (intro x; subst x)
    | with_reducible apply emit_kept

theorem storeRecs_kept {al : Allow} {s0 : State} {s : State} (hk : Kept al s0 s) :
    Kept al s0 (storeRecs s) := by
  unfold storeRecs
  repeat' first
    | with_reducible assumption
    | lift_lets -underBinder
    | (intro _ t ht; try dsimp -zeta only)
    | with_reducible apply forAll_kept
    | with_reducible apply storeRec_kept
    | split

theorem dropGapUpdates_kept {al : Allow} {s0 : State} {s : State} (hk : Kept al s0 s) :
    Kept al s0 (dropGapUpdates s) := by
  unfold dropGapUpdates
  repeat' first
    | with_reducible assumption
    | lift_lets -underBinder
    | (intro _ t ht; try dsimp -zeta only)
    | with_reducible apply forAll_kept
    | with_reducible apply modLoop_kept

theorem dropOwn_kept {al : Allow} {s0 : State} {s : State} (hk : Kept al s0 s) :
    Kept al s0 (dropOwn s) := by
  unfold dropOwn
  repeat' first
    | with_reducible assumption
    | lift_lets -underBinder
    | (intro x; have hx : Kept al s0 x := (by
        subst x
        repeat' first
          | with_reducible assumption
          | lift_lets -underBinder
          | (intro _ t ht; try dsimp -zeta only)
          | with_reducible apply abandonCycle_kept
          | with_reducible apply forAll_kept); clear_value x)
    | (intro x; subst x)
    | with_reducible refine Kept.put ?_

theorem becomeActive_kept {al : Allow} {s0 : State} (st : PairState) (trigger : Nat) (kind : Nat) (held : Int) {s : State} (hk : Kept al s0 s) :
    Kept al s0 (becomeActive st trigger kind held s) := by
  unfold becomeActive
  repeat' first
    | with_reducible assumption
    | lift_lets -underBinder
    | (intro x; have hx : Kept al s0 x := (by
        subst x
        repeat' first
          | with_reducible assumption
          | lift_lets -underBinder
          | with_reducible apply dropGapUpdates_kept
          | with_reducible apply enterPair_kept
          | with_reducible apply noteSwitchover_kept
          | with_reducible apply storeRecs_kept
          | split
          | dsimp -zeta only
          | with_reducible refine Kept.put ?_); clear_value x)
    | (intro x; subst x)
    | with_reducible apply motionTakeover_kept
    | with_reducible apply scAbortArmed_kept
    | with_reducible apply scResume_kept
    | with_reducible apply slotsTakeover_kept

theorem handedOver_kept {al : Allow} {s0 : State} (h : Handing) {s : State} (hk : Kept al s0 s) :
    Kept al s0 (handedOver h s) := by
  unfold handedOver
  repeat' first
    | with_reducible assumption
    | lift_lets -underBinder
    | (intro x; have hx : Kept al s0 x := (by
        subst x
        repeat' first
          | with_reducible assumption
          | lift_lets -underBinder
          | with_reducible apply canStandby_kept
          | with_reducible apply cmdDone_kept
          | with_reducible apply enterPair_kept
          | with_reducible apply loseRole_kept
          | with_reducible apply noteSwitchover_kept
          | with_reducible apply scAbortArmed_kept
          | split
          | with_reducible refine Kept.put ?_); clear_value x)
    | (intro x; subst x)
    | with_reducible apply restartNow_kept
    | split

theorem startHanding_kept {al : Allow} {s0 : State} (trigger : Nat) (session : Nat) {s : State} (hk : Kept al s0 s) :
    Kept al s0 (startHanding trigger session s) := by
  unfold startHanding
  repeat' first
    | with_reducible assumption
    | lift_lets -underBinder
    | (intro x; subst x)
    | with_reducible refine Kept.put ?_

theorem hbSendState_kept {al : Allow} {s0 : State} {s : State} (hk : Kept al s0 s) :
    Kept al s0 (hbSendState s) := by
  unfold hbSendState
  repeat' first
    | with_reducible assumption
    | lift_lets -underBinder
    | (intro x; subst x)
    | with_reducible apply send_kept
    | split
    | with_reducible refine Kept.put ?_

theorem goOnAlone_kept {al : Allow} {s0 : State} {s : State} (hk : Kept al s0 s) :
    Kept al s0 (goOnAlone s) := by
  unfold goOnAlone
  repeat' first
    | with_reducible assumption
    | lift_lets -underBinder
    | (intro x; have hx : Kept al s0 x := (by
        subst x
        repeat' first | with_reducible assumption | with_reducible apply continueAlone_kept); clear_value x)
    | with_reducible apply restartNow_kept
    | split

theorem hbPulseState_kept {al : Allow} {s0 : State} {s : State} (hk : Kept al s0 s) :
    Kept al s0 (hbPulseState s) := by
  unfold hbPulseState
  repeat' first
    | with_reducible assumption
    | lift_lets -underBinder
    | (intro x; have hx : Kept al s0 x := (by
        subst x
        repeat' first | with_reducible assumption | with_reducible refine Kept.put ?_); clear_value x)
    | (intro x; subst x)
    | with_reducible apply enterUnsynced_kept
    | with_reducible apply goOnAlone_kept
    | split
    | with_reducible refine Kept.put ?_

theorem arbitrate_kept {al : Allow} {s0 : State} {s : State} (hk : Kept al s0 s) :
    Kept al s0 (arbitrate s) := by
  unfold arbitrate
  repeat' first
    | with_reducible assumption
    | lift_lets -underBinder
    | (intro x; have hx : Kept al s0 x := (by
        subst x
        repeat' first | with_reducible assumption | with_reducible apply send_kept); clear_value x)
    | (intro x; subst x)
    | split
    | with_reducible refine Kept.put ?_

theorem heartbeatLossState_kept {al : Allow} {s0 : State} {s : State} (hk : Kept al s0 s) :
    Kept al s0 (heartbeatLossState s) := by
  unfold heartbeatLossState
  repeat' first
    | with_reducible assumption
    | lift_lets -underBinder
    | (intro x; have hx : Kept al s0 x := (by
        subst x
        repeat' first | with_reducible assumption | with_reducible refine Kept.put ?_); clear_value x)
    | (intro x; subst x)
    | with_reducible apply arbitrate_kept
    | split

theorem arbitrationLost_kept {al : Allow} {s0 : State} (claim : Nat) {s : State} (hk : Kept al s0 s) :
    Kept al s0 (arbitrationLost claim s) := by
  unfold arbitrationLost
  repeat' first
    | with_reducible assumption
    | lift_lets -underBinder
    | (intro x; have hx : Kept al s0 x := (by
        subst x
        repeat' first | with_reducible assumption | with_reducible refine Kept.put ?_); clear_value x)
    | (intro x; subst x)
    | with_reducible apply enterPair_kept
    | with_reducible apply enterUnsynced_kept
    | with_reducible apply yieldTo_kept
    | split
    | with_reducible refine Kept.put ?_

theorem precFrameState_kept {al : Allow} {s0 : State} (claim : Nat) {s : State} (hk : Kept al s0 s) :
    Kept al s0 (precFrameState claim s) := by
  unfold precFrameState
  repeat' first
    | with_reducible assumption
    | lift_lets -underBinder
    | (intro x; have hx : Kept al s0 x := (by
        subst x
        repeat' first | with_reducible assumption | with_reducible refine Kept.put ?_); clear_value x)
    | (intro x; subst x)
    | with_reducible apply arbitrate_kept
    | with_reducible apply arbitrationLost_kept
    | with_reducible apply enterConflict_kept
    | split

theorem arbitrationWonState_kept {al : Allow} {s0 : State} {s : State} (hk : Kept al s0 s) :
    Kept al s0 (arbitrationWonState s) := by
  unfold arbitrationWonState
  repeat' first
    | with_reducible assumption
    | lift_lets -underBinder
    | (intro x; have hx : Kept al s0 x := (by
        subst x
        repeat' first
          | with_reducible assumption
          | with_reducible apply dropOwn_kept
          | with_reducible refine Kept.put ?_); clear_value x)
    | (intro x; subst x)
    | with_reducible apply becomeActive_kept
    | with_reducible apply canTakeover_kept
    | with_reducible apply enterPair_kept
    | split
    | with_reducible refine Kept.put ?_

theorem fclCheckEndState_kept {al : Allow} {s0 : State} {s : State} (hk : Kept al s0 s) :
    Kept al s0 (fclCheckEndState s) := by
  unfold fclCheckEndState
  repeat' first
    | with_reducible assumption
    | lift_lets -underBinder
    | (intro x; subst x)
    | with_reducible apply goOnAlone_kept
    | with_reducible apply yieldTo_kept
    | split
    | with_reducible refine Kept.put ?_

theorem sendPieces_kept {al : Allow} {s0 : State} (l : List Piece) : ∀ {s : State}, Kept al s0 s → Kept al s0 (sendPieces l s) := by
  induction l with
  | nil => intro s hk; exact hk
  | cons p r ih =>
    intro s hk
    refine ih (send_kept _ ?_)
    split
    · exact Kept.put (countRecord_kept _ hk)
    · exact countRecord_kept _ hk

theorem sendCopy_kept {al : Allow} {s0 : State} {s : State} (hk : Kept al s0 s) :
    Kept al s0 (sendCopy s) := by
  unfold sendCopy
  repeat' first
    | with_reducible assumption
    | lift_lets -underBinder
    | (intro x; have hx : Kept al s0 x := (by
        subst x
        repeat' first | with_reducible assumption | with_reducible apply goOnAlone_kept); clear_value x)
    | (intro x; subst x)
    | with_reducible apply sendPieces_kept
    | split
    | with_reducible refine Kept.put ?_

theorem notePartner_kept {al : Allow} {s0 : State} (m : HelloMsg) {s : State} (hk : Kept al s0 s) :
    Kept al s0 (notePartner m s) := by
  unfold notePartner
  repeat' first
    | with_reducible assumption
    | lift_lets -underBinder
    | (intro x; subst x)
    | split
    | with_reducible refine Kept.put ?_

theorem helloState_kept {al : Allow} {s0 : State} (m : HelloMsg) {s : State} (hk : Kept al s0 s) :
    Kept al s0 (helloState m s) := by
  unfold helloState
  repeat' first
    | with_reducible assumption
    | lift_lets -underBinder
    | (intro x; have hx : Kept al s0 x := (by
        subst x
        repeat' first
          | with_reducible assumption
          | lift_lets -underBinder
          | with_reducible apply noteMargin_kept
          | with_reducible apply notePartner_kept
          | with_reducible apply startHanding_kept
          | split); clear_value x)
    | with_reducible apply enterConflict_kept
    | with_reducible apply sendCopy_kept
    | split

theorem takeRecord_kept {al : Allow} {s0 : State} (seq : Nat) {s : State} (hk : Kept al s0 s) :
    Kept al s0 (takeRecord seq s).2 := by
  unfold takeRecord
  repeat' first
    | with_reducible assumption
    | lift_lets -underBinder
    | (intro x; have hx : Kept al s0 x := (by
        subst x
        repeat' first | with_reducible assumption | split | with_reducible refine Kept.put ?_); clear_value x)
    | (intro x; subst x)
    | with_reducible apply enterUnsynced_kept
    | split
    | dsimp -zeta only
    | with_reducible refine Kept.put ?_

theorem ackIf_kept {al : Allow} {s0 : State} (seq : Nat) (result : Nat) {s : State} (hk : Kept al s0 s) :
    Kept al s0 (ackIf seq result s) := by
  unfold ackIf
  repeat' first | with_reducible assumption | with_reducible apply sendAck_kept | split

theorem judgeInputs_kept {al : Allow} {s0 : State} {s : State} (hk : Kept al s0 s) :
    Kept al s0 (judgeInputs s) := by
  unfold judgeInputs
  repeat' first
    | with_reducible assumption
    | lift_lets -underBinder
    | (intro x; have hx : Kept al s0 x := (by
        subst x
        repeat' first | with_reducible assumption | with_reducible apply selfTestFailed_kept | split); clear_value x)
    | (intro x; subst x)
    | dsimp -zeta only
    | with_reducible refine Kept.put ?_

theorem compareBank_kept {al : Allow} {s0 : State} (b : Nat) (chans : List ChanRep) {s : State} (hk : Kept al s0 s) :
    Kept al s0 (compareBank b chans s) := by
  unfold compareBank
  repeat' first
    | with_reducible assumption
    | lift_lets -underBinder
    | (intro x; subst x)
    | with_reducible apply modDio_kept
    | split
    | with_reducible refine Kept.foldl (fun t x ht => ?_) _ _ ?_

theorem landRemote_kept {al : Allow} {s0 : State} (rec : Nat) (node : Nat) (cls : Nat) (seq : Nat) (vs : Option (Int × List (BitVec 32 × Byte))) {s : State} (hk : Kept al s0 s) :
    Kept al s0 (landRemote rec node cls seq vs s) := by
  unfold landRemote
  repeat' first
    | with_reducible assumption
    | lift_lets -underBinder
    | (intro x; subst x)
    | with_reducible apply landSet_kept
    | split
    | with_reducible refine Kept.put ?_

theorem landCanFrame_kept {al : Allow} {s0 : State} (p : Nat) (rx : CanRx) {s : State} (hk : Kept al s0 s) :
    Kept al s0 (landCanFrame p rx s) := by
  unfold landCanFrame
  repeat' first
    | with_reducible assumption
    | lift_lets -underBinder
    | (intro x; have hx : Kept al s0 x := (by
        subst x
        repeat' first
          | with_reducible assumption
          | lift_lets -underBinder
          | (intro x; subst x)
          | with_reducible apply selfTestFailed_kept
          | split
          | with_reducible refine Kept.put ?_); clear_value x)
    | with_reducible apply canDeliver_kept

theorem judgeCan_kept {al : Allow} {s0 : State} {s : State} (hk : Kept al s0 s) :
    Kept al s0 (judgeCan s) := by
  unfold judgeCan
  repeat' first
    | with_reducible assumption
    | lift_lets -underBinder
    | (intro x; have hx : Kept al s0 x := (by
        subst x
        repeat' first | with_reducible assumption | with_reducible apply selfTestFailed_kept | split); clear_value x)
    | (intro x; subst x)
    | with_reducible refine Kept.put ?_

theorem landTracker_kept {al : Allow} {s0 : State} (n : Nat) (st : TrkState) (angle : BitVec 32) (speed : Real32) (ts : Int) (slew : Bool) {s : State} (hk : Kept al s0 s) :
    Kept al s0 (landTracker n st angle speed ts slew s) := by
  unfold landTracker
  repeat' first
    | with_reducible assumption
    | lift_lets -underBinder
    | (intro x; have hx : Kept al s0 x := (by
        subst x
        repeat' first | with_reducible assumption | with_reducible apply produceAllAs_kept); clear_value x)
    | (intro x; subst x)
    | with_reducible apply produceAllAs_kept

theorem landOne_kept {al : Allow} {s0 : State} (rec : Nat) (l : Landing) {s : State} (hk : Kept al s0 s) :
    Kept al s0 (landOne rec l s) := by
  unfold landOne
  repeat' first
    | with_reducible assumption
    | lift_lets -underBinder
    | (intro x; have hx : Kept al s0 x := (by
        subst x
        repeat' first | with_reducible assumption | with_reducible apply modAio_kept | split); clear_value x)
    | with_reducible apply compareBank_kept
    | with_reducible apply landAio_kept
    | with_reducible apply landBank_kept
    | with_reducible apply landCanFrame_kept
    | with_reducible apply landRemote_kept
    | with_reducible apply landTracker_kept
    | split

theorem inputState_kept {al : Allow} {s0 : State} (seq : Nat) (ls : List Landing) {s : State} (hk : Kept al s0 s) :
    Kept al s0 (inputState seq ls s) := by
  unfold inputState
  repeat' first
    | with_reducible assumption
    | lift_lets -underBinder
    | (intro x; have hx : Kept al s0 x := (by
        subst x
        repeat' first
          | with_reducible assumption
          | lift_lets -underBinder
          | with_reducible apply judgeCan_kept
          | with_reducible apply judgeInputs_kept
          | with_reducible apply landOne_kept
          | with_reducible apply takeRecord_kept
          | with_reducible refine Kept.of_snd ?_ (by assumption)
          | with_reducible refine Kept.foldl (fun t x ht => ?_) _ _ ?_); clear_value x)
    | with_reducible apply ackIf_kept
    | with_reducible apply takeRecord_kept
    | split
    | with_reducible refine Kept.of_snd ?_ (by assumption)

theorem standbyTick_kept {al : Allow} {s0 : State} (points : List SampledPt) {s : State} (hk : Kept al s0 s) :
    Kept al s0 (standbyTick points s) := by
  unfold standbyTick
  repeat' first
    | with_reducible assumption
    | lift_lets -underBinder
    | (intro x; have hx : Kept al s0 x := (by
        subst x
        repeat' first
          | with_reducible assumption
          | lift_lets -underBinder
          | (intro _ t ht; try dsimp -zeta only)
          | with_reducible apply cadenceUpdate_kept
          | with_reducible apply forAll_kept
          | with_reducible apply releaseDue_kept
          | with_reducible refine Kept.foldl (fun t x ht => ?_) _ _ ?_
          | with_reducible refine Kept.put ?_); clear_value x)
    | (intro x; subst x)
    | with_reducible apply sampleTick_kept

theorem takeMode_kept {al : Allow} {s0 : State} (m : Mode) (leftNs : Nat) {s : State} (hk : Kept al s0 s) :
    Kept al s0 (takeMode m leftNs s) := by
  unfold takeMode
  repeat' first
    | with_reducible assumption
    | lift_lets -underBinder
    | (intro x; subst x)
    | with_reducible apply enterHold_kept
    | with_reducible apply enterRun_kept
    | with_reducible apply enterStop_kept
    | with_reducible apply resumeRun_kept
    | split
    | with_reducible refine Kept.put ?_

theorem takeSwap_kept {al : Allow} {s0 : State} (formeGen : Nat) {s : State} (hk : Kept al s0 s) :
    Kept al s0 (takeSwap formeGen s) := by
  unfold takeSwap
  repeat' first
    | with_reducible assumption
    | lift_lets -underBinder
    | (intro x; subst x)
    | with_reducible apply swapStandby_kept
    | split
    | with_reducible refine Kept.put ?_

theorem takeWaits_kept {al : Allow} {s0 : State} (b : Bool) {s : State} (hk : Kept al s0 s) :
    Kept al s0 (takeWaits b s) := by
  unfold takeWaits
  repeat' first
    | with_reducible assumption
    | lift_lets -underBinder
    | (intro x; subst x)
    | split
    | with_reducible refine Kept.put ?_

theorem takeNode_kept {al : Allow} {s0 : State} (n : Nat) (x : Node) {s : State} (hk : Kept al s0 s) :
    Kept al s0 (takeNode n x s) := by
  unfold takeNode
  repeat' first
    | with_reducible assumption
    | lift_lets -underBinder
    | (intro x; have hx : Kept al s0 x := (by
        subst x
        repeat' first | with_reducible assumption | with_reducible apply modNode_kept); clear_value x)
    | (intro x; subst x)
    | with_reducible apply decideQual_kept
    | split

theorem takeConfig_kept {al : Allow} {s0 : State} (cfg : Tbl (List Byte)) {s : State} (hk : Kept al s0 s) :
    Kept al s0 (takeConfig cfg s) := by
  unfold takeConfig
  repeat' first
    | with_reducible assumption
    | lift_lets -underBinder
    | (intro x; have hx : Kept al s0 x := (by
        subst x
        repeat' first | with_reducible assumption | with_reducible apply adoptConfig_kept); clear_value x)
    | (intro x; subst x)
    | with_reducible apply owe_kept
    | with_reducible refine Kept.foldl (fun t x ht => ?_) _ _ ?_

theorem applyPiece_kept {al : Allow} {s0 : State} (copying : Bool) (p : Piece) {s : State} (hk : Kept al s0 s) :
    Kept al s0 (applyPiece copying p s) := by
  unfold applyPiece
  repeat' first
    | with_reducible assumption
    | lift_lets -underBinder
    | (intro x; have hx : Kept al s0 x := (by
        subst x
        repeat' first | with_reducible assumption | with_reducible apply takeConfig_kept); clear_value x)
    | (intro x; subst x)
    | with_reducible apply directEffect_kept
    | with_reducible apply modAxis_kept
    | with_reducible apply modBuf_kept
    | with_reducible apply modLoop_kept
    | with_reducible apply modSc_kept
    | with_reducible apply modSched_kept
    | with_reducible apply modSlot_kept
    | with_reducible apply owe_kept
    | with_reducible apply releasePoint_kept
    | with_reducible apply setCfg_kept
    | with_reducible apply takeMode_kept
    | with_reducible apply takeNode_kept
    | with_reducible apply takeSwap_kept
    | with_reducible apply takeWaits_kept
    | split
    | with_reducible refine Kept.put ?_
    | with_reducible refine Kept.putW ?_

theorem noteCommitRec_kept {al : Allow} {s0 : State} {s : State} (hk : Kept al s0 s) :
    Kept al s0 (noteCommitRec s) := by
  unfold noteCommitRec
  repeat' first
    | with_reducible assumption
    | lift_lets -underBinder
    | (intro x; subst x)
    | with_reducible refine Kept.put ?_

theorem applyMore_kept {al : Allow} {s0 : State} (more : List Piece) {s : State} (hk : Kept al s0 s) :
    Kept al s0 (applyMore more s) := by
  unfold applyMore
  repeat' first
    | with_reducible assumption
    | lift_lets -underBinder
    | with_reducible apply applyPiece_kept
    | with_reducible refine Kept.foldl (fun t x ht => ?_) _ _ ?_

theorem tickState_kept {al : Allow} {s0 : State} (seq : Nat) (points : List SampledPt) (digest : Nat) (more : List Piece) {s : State} (hk : Kept al s0 s) :
    Kept al s0 (tickState seq points digest more s) := by
  unfold tickState
  repeat' first
    | with_reducible assumption
    | lift_lets -underBinder
    | (intro x; have hx : Kept al s0 x := (by
        subst x
        repeat' first
          | with_reducible assumption
          | lift_lets -underBinder
          | with_reducible apply applyMore_kept
          | with_reducible apply noteCommitRec_kept
          | with_reducible apply selfTestFailed_kept
          | with_reducible apply standbyTick_kept
          | with_reducible apply takeRecord_kept
          | with_reducible refine Kept.of_snd ?_ (by assumption)
          | with_reducible refine Kept.put ?_); clear_value x)
    | (intro x; subst x)
    | with_reducible apply ackIf_kept
    | with_reducible apply applyMore_kept
    | with_reducible apply enterUnsynced_kept
    | with_reducible apply noteCommitRec_kept
    | with_reducible apply sealLoops_kept
    | with_reducible apply takeRecord_kept
    | split
    | with_reducible refine Kept.of_snd ?_ (by assumption)

theorem taskState_kept {al : Allow} {s0 : State} (seq : Nat) (r : TaskRec) {s : State} (hk : Kept al s0 s) :
    Kept al s0 (taskState seq r s) := by
  unfold taskState
  repeat' first
    | with_reducible assumption
    | lift_lets -underBinder
    | (intro x; have hx : Kept al s0 x := (by
        subst x
        repeat' first
          | with_reducible assumption
          | lift_lets -underBinder
          | with_reducible apply applyMore_kept
          | with_reducible apply noteCommitRec_kept
          | with_reducible apply storeRec_kept
          | with_reducible apply takeRecord_kept
          | with_reducible refine Kept.of_snd ?_ (by assumption)); clear_value x)
    | (intro x; subst x)
    | with_reducible apply ackIf_kept
    | with_reducible apply pairTask_kept
    | with_reducible apply storeDirty_kept
    | with_reducible apply takeRecord_kept
    | split
    | with_reducible refine Kept.of_snd ?_ (by assumption)
    | with_reducible refine Kept.put ?_

theorem noteLatency_kept {al : Allow} {s0 : State} (h : HeldRec) {s : State} (hk : Kept al s0 s) :
    Kept al s0 (noteLatency h s) := by
  unfold noteLatency
  repeat' first
    | with_reducible assumption
    | lift_lets -underBinder
    | (intro x; subst x)
    | split
    | with_reducible refine Kept.put ?_

theorem ackSent_kept {al : Allow} {s0 : State} (seq : Nat) {s : State} (hk : Kept al s0 s) :
    Kept al s0 (ackSent seq s) := by
  unfold ackSent
  repeat' first
    | with_reducible assumption
    | lift_lets -underBinder
    | (intro x; have hx : Kept al s0 x := (by
        subst x
        repeat' first | with_reducible assumption | with_reducible refine Kept.put ?_); clear_value x)
    | (intro x; subst x)
    | with_reducible apply firstReleases_kept
    | with_reducible refine Kept.put ?_

theorem ackStored_kept {al : Allow} {s0 : State} (seq : Nat) {s : State} (hk : Kept al s0 s) :
    Kept al s0 (ackStored seq s) := by
  unfold ackStored
  repeat' first
    | with_reducible assumption
    | lift_lets -underBinder
    | (intro x; have hx : Kept al s0 x := (by
        subst x
        repeat' first
          | with_reducible assumption
          | lift_lets -underBinder
          | with_reducible apply commitHeld_kept
          | with_reducible apply noteLatency_kept
          | split
          | with_reducible refine Kept.put ?_); clear_value x)
    | (intro x; subst x)
    | with_reducible apply ackSent_kept
    | with_reducible apply tryHandover_kept

theorem resendSets_kept {al : Allow} {s0 : State} (seq : Nat) {s : State} (hk : Kept al s0 s) :
    Kept al s0 (resendSets seq s) := by
  unfold resendSets
  repeat' first
    | with_reducible assumption
    | lift_lets -underBinder
    | (intro x; have hx : Kept al s0 x := (by
        subst x
        repeat' first | with_reducible assumption | with_reducible apply sendSync_kept); clear_value x)
    | (intro x; subst x)
    | split
    | with_reducible refine Kept.put ?_

theorem partnerRefused_kept {al : Allow} {s0 : State} (seq : Nat) (row : Nat) {s : State} (hk : Kept al s0 s) :
    Kept al s0 (partnerRefused seq row s) := by
  unfold partnerRefused
  repeat' first
    | with_reducible assumption
    | lift_lets -underBinder
    | (intro x; have hx : Kept al s0 x := (by
        subst x
        repeat' first | with_reducible assumption | with_reducible apply ackSent_kept); clear_value x)
    | (intro x; subst x)
    | split
    | with_reducible refine Kept.put ?_

theorem ackState_kept {al : Allow} {s0 : State} (seq : Nat) (result : Nat) {s : State} (hk : Kept al s0 s) :
    Kept al s0 (ackState seq result s) := by
  unfold ackState
  repeat' first
    | with_reducible assumption
    | lift_lets -underBinder
    | (intro x; have hx : Kept al s0 x := (by
        subst x
        repeat' first | with_reducible assumption | with_reducible refine Kept.put ?_); clear_value x)
    | (intro x; subst x)
    | with_reducible apply ackSent_kept
    | with_reducible apply ackStored_kept
    | with_reducible apply enterPair_kept
    | with_reducible apply goOnAlone_kept
    | with_reducible apply handedOver_kept
    | with_reducible apply partnerRefused_kept
    | with_reducible apply resendSets_kept
    | split
    | with_reducible refine Kept.put ?_

theorem ackTimeoutState_kept {al : Allow} {s0 : State} (seq : Nat) {s : State} (hk : Kept al s0 s) :
    Kept al s0 (ackTimeoutState seq s) := by
  unfold ackTimeoutState
  repeat' first
    | with_reducible assumption
    | lift_lets -underBinder
    | (intro x; have hx : Kept al s0 x := (by
        subst x
        repeat' first | with_reducible assumption | with_reducible refine Kept.put ?_); clear_value x)
    | (intro x; subst x)
    | with_reducible apply goOnAlone_kept
    | split

theorem copyBegins_kept {al : Allow} {s0 : State} {s : State} (hk : Kept al s0 s) :
    Kept al s0 (copyBegins s) := by
  unfold copyBegins
  repeat' first
    | with_reducible assumption
    | lift_lets -underBinder
    | (intro x; have hx : Kept al s0 x := (by
        subst x
        repeat' first | with_reducible assumption | with_reducible apply enterPair_kept | split); clear_value x)
    | (intro x; subst x)
    | with_reducible refine Kept.putW ?_

theorem copyEnds_kept {al : Allow} {s0 : State} {s : State} (hk : Kept al s0 s) :
    Kept al s0 (copyEnds s) := by
  unfold copyEnds
  repeat' first
    | with_reducible assumption
    | lift_lets -underBinder
    | (intro x; have hx : Kept al s0 x := (by
        subst x
        repeat' first
          | with_reducible assumption
          | lift_lets -underBinder
          | with_reducible apply abandonAll_kept
          | with_reducible apply writeFlashDue_kept
          | split
          | with_reducible refine Kept.put ?_); clear_value x)
    | (intro x; subst x)
    | with_reducible apply enterPair_kept

theorem copyState_kept {al : Allow} {s0 : State} (seq : Nat) (p : Piece) (last : Bool) {s : State} (hk : Kept al s0 s) :
    Kept al s0 (copyState seq p last s) := by
  unfold copyState
  repeat' first
    | with_reducible assumption
    | lift_lets -underBinder
    | (intro x; have hx : Kept al s0 x := (by
        subst x
        repeat' first
          | with_reducible assumption
          | lift_lets -underBinder
          | with_reducible apply applyPiece_kept
          | with_reducible apply copyBegins_kept
          | split
          | with_reducible refine Kept.put ?_); clear_value x)
    | (intro x; subst x)
    | with_reducible apply copyBegins_kept
    | with_reducible apply copyEnds_kept
    | split
    | with_reducible refine Kept.put ?_

theorem handoverState_kept {al : Allow} {s0 : State} (seq : Nat) (_lastSeq : Nat) (trigger : Nat) {s : State} (hk : Kept al s0 s) :
    Kept al s0 (handoverState seq _lastSeq trigger s) := by
  unfold handoverState
  repeat' first
    | with_reducible assumption
    | lift_lets -underBinder
    | (intro x; have hx : Kept al s0 x := (by
        subst x
        repeat' first
          | with_reducible assumption
          | lift_lets -underBinder
          | with_reducible apply becomeActive_kept
          | with_reducible apply cmdDone_kept
          | with_reducible apply sendAck_kept
          | with_reducible apply takeRecord_kept
          | split
          | with_reducible refine Kept.of_snd ?_ (by assumption)
          | with_reducible refine Kept.put ?_); clear_value x)
    | (intro x; subst x)
    | with_reducible apply finishCycle_kept
    | with_reducible apply takeRecord_kept
    | split
    | with_reducible refine Kept.of_snd ?_ (by assumption)
    | with_reducible refine Kept.foldl (fun t x ht => ?_) _ _ ?_

theorem switchoverOp_kept {al : Allow} {s0 : State} (data : List Byte) (n : Nat) {s : State} (hk : Kept al s0 s) :
    Kept al s0 (switchoverOp data n s).2 := by
  unfold switchoverOp
  repeat' first
    | with_reducible assumption
    | lift_lets -underBinder
    | (intro x; subst x)
    | with_reducible apply cmdAccept_kept
    | with_reducible apply startHanding_kept
    | split

theorem autoSwitchoverState_kept {al : Allow} {s0 : State} {s : State} (hk : Kept al s0 s) :
    Kept al s0 (autoSwitchoverState s) := by
  unfold autoSwitchoverState
  repeat' first | with_reducible assumption | with_reducible apply startHanding_kept | split

theorem takeSafety_kept {al : Allow} {s0 : State} (objs : List (Nat × List Byte)) (forme : Memory) {s : State} (hk : Kept al s0 s) :
    Kept al s0 (takeSafety objs forme s) := by
  unfold takeSafety
  repeat' first
    | with_reducible assumption
    | lift_lets -underBinder
    | (intro x; subst x)
    | with_reducible apply dropPasses_kept
    | split
    | with_reducible refine Kept.putW ?_

theorem changeState_kept {al : Allow} {s0 : State} (seq : Nat) (c : Change) {s : State} (hk : Kept al s0 s) :
    Kept al s0 (changeState seq c s) := by
  unfold changeState
  repeat' first
    | with_reducible assumption
    | lift_lets -underBinder
    | (intro x; have hx : Kept al s0 x := (by
        subst x
        repeat' first
          | with_reducible assumption
          | lift_lets -underBinder
          | with_reducible apply adoptConfig_kept
          | with_reducible apply armStaged_kept
          | with_reducible apply takeRecord_kept
          | with_reducible refine Kept.of_snd ?_ (by assumption)); clear_value x)
    | (intro x; subst x)
    | with_reducible apply ackIf_kept
    | with_reducible apply emit_kept
    | with_reducible apply takeRecord_kept
    | with_reducible apply takeSafety_kept
    | split
    | with_reducible refine Kept.of_snd ?_ (by assumption)
    | with_reducible refine Kept.put ?_

theorem fclFrameState_kept {al : Allow} {s0 : State} (chip : Nat) (claim : Nat) {s : State} (hk : Kept al s0 s) :
    Kept al s0 (fclFrameState chip claim s) := by
  unfold fclFrameState
  repeat' first
    | with_reducible assumption
    | lift_lets -underBinder
    | (intro x; have hx : Kept al s0 x := (by
        subst x
        repeat' first
          | with_reducible assumption
          | with_reducible apply enterConflict_kept
          | with_reducible apply modBank_kept
          | split); clear_value x)
    | with_reducible apply claimSettles_kept
    | with_reducible apply modAio_kept
    | with_reducible apply settleSource_kept
    | split

end Sys2Proof.Machine
end

