-- ==== Sys2Proof/Laws/KeptMgmt.lean ====
section
/-! SUPPORT. Every operation of Machine/Mgmt.lean keeps what `Kept` names. -/

set_option Elab.async false

namespace Sys2Proof.Machine

theorem Kept.sram {a : Allow} {s t : State} (h : Kept a s t) {x : Sram} (e : t.sram.remapped <:+ x.remapped)
    (l : t.sram.used ≤ x.used) (u : t.sram.used ≤ 16 → x.used ≤ 16) : Kept a s { t with sram := x } :=
  h.trans ⟨⟨rfl, rfl, List.suffix_refl _, e, l, fun _ _ m => m, fun _ => rfl, fun _ => rfl, fun _ => rfl⟩,
    fun k => ⟨k.queue, k.gasp, k.leases, k.hsr, u k.spare, k.retiredOnce, k.inst, k.glob, k.ret, k.store, k.storeInst, k.bulk, k.refused,
      k.formeBytes, k.plain⟩⟩

theorem readmit_kept {a : Allow} {s t : State} (hr : a.readmit = true) (h : Kept a s t) (p : Retired → Bool) :
    Kept a s { t with retired := t.retired.filter p } :=
  h.trans ⟨⟨rfl, rfl, List.suffix_refl _, List.suffix_refl _, Nat.le_refl _, fun e => (by simp [hr] at e), fun _ => rfl, fun _ => rfl, fun _ => rfl⟩,
    fun k => ⟨k.queue, k.gasp, k.leases, k.hsr, k.spare, (List.filter_sublist.map _).nodup k.retiredOnce, k.inst, k.glob, k.ret,
      k.store, k.storeInst, k.bulk, k.refused, k.formeBytes, k.plain⟩⟩

theorem retirePage_kept {al : Allow} {s0 : State} (page : Nat) {s : State} (hk : Kept al s0 s) :
    Kept al s0 (retirePage page s) := by
  unfold retirePage
  split
  · exact hk.sram (List.suffix_cons _ _) (Nat.le_succ _) (fun _ => by assumption)
  · exact enterStop_kept _ (hk.sram (List.suffix_refl _) (Nat.le_refl _) id)

theorem scrubFailed_kept {al : Allow} {s0 : State} {s : State} (hk : Kept al s0 s) :
    Kept al s0 (scrubFailed s) := by
  unfold scrubFailed
  repeat' first | with_reducible assumption | with_reducible apply selfTestFailed_kept | split

theorem sramCorrectedState_kept {al : Allow} {s0 : State} (addr : Nat) {s : State} (hk : Kept al s0 s) :
    Kept al s0 (sramCorrectedState addr s) := by
  unfold sramCorrectedState
  repeat' first
    | with_reducible assumption
    | lift_lets -underBinder
    | (intro x; have hx : Kept al s0 x := (by
        subst x
        repeat' first
          | with_reducible assumption
          | with_reducible refine Kept.sram ?_ (List.suffix_refl _) (Nat.le_refl _) id); clear_value x)
    | (intro x; subst x)
    | with_reducible apply retirePage_kept
    | with_reducible apply scrubFailed_kept
    | split

theorem sramHandOver_kept {al : Allow} {s0 : State} {s : State} (hk : Kept al s0 s) :
    Kept al s0 (sramHandOver s) := by
  unfold sramHandOver
  repeat' first
    | with_reducible assumption
    | lift_lets -underBinder
    | (intro x; subst x)
    | with_reducible apply restartNow_kept
    | with_reducible apply startHanding_kept
    | split
    | with_reducible refine Kept.put ?_

theorem sramUncorrectableState_kept {al : Allow} {s0 : State} (addr : Nat) (safetyArea : Bool) {s : State} (hk : Kept al s0 s) :
    Kept al s0 (sramUncorrectableState addr safetyArea s) := by
  unfold sramUncorrectableState
  repeat' first
    | with_reducible assumption
    | lift_lets -underBinder
    | (intro x; have hx : Kept al s0 x := (by
        subst x
        repeat' first
          | with_reducible assumption
          | lift_lets -underBinder
          | with_reducible apply draw_kept
          | with_reducible apply retirePage_kept
          | with_reducible apply safetyFault_kept
          | with_reducible apply scrubFailed_kept
          | split
          | with_reducible refine Kept.sram ?_ (List.suffix_refl _) (Nat.le_refl _) id); clear_value x)
    | (intro x; subst x)
    | with_reducible apply sramHandOver_kept
    | split

theorem unvalued_kept {al : Allow} {s0 : State} (ch : Nat) {s : State} (hk : Kept al s0 s) :
    Kept al s0 (unvalued ch s) := by
  unfold unvalued
  repeat' first | with_reducible assumption | with_reducible apply modDio_kept

theorem readmitted_kept {al : Allow} {s0 : State} (kind : Nat) (n : Nat) {s : State} (hk : Kept al s0 s) :
    Kept al s0 (readmitted kind n s) := by
  unfold readmitted
  repeat' first
    | with_reducible assumption
    | lift_lets -underBinder
    | (intro x; have hx : Kept al s0 x := (by
        subst x
        repeat' first
          | with_reducible assumption
          | lift_lets -underBinder
          | with_reducible apply modBank_kept
          | with_reducible apply modDio_kept
          | with_reducible apply unvalued_kept); clear_value x)
    | (intro x; subst x)
    | (intro _ t ht; try dsimp -zeta only)
    | with_reducible apply decideQual_kept
    | with_reducible apply forAll_kept
    | with_reducible apply losePos_kept
    | with_reducible apply modAio_kept
    | with_reducible apply modAxis_kept
    | with_reducible apply produceAxis_kept
    | with_reducible apply requalAio_kept
    | with_reducible apply settleSource_kept
    | split

theorem readmitOp_kept {al : Allow} {s0 : State} (hr : al.readmit = true) (data : List Byte) (n : Nat) {s : State} (hk : Kept al s0 s) :
    Kept al s0 (readmitOp data n s).2 := by
  unfold readmitOp
  repeat' first
    | with_reducible assumption
    | lift_lets -underBinder
    | (intro x; have hx : Kept al s0 x := (by
        subst x
        repeat' first
          | with_reducible assumption
          | with_reducible apply emit_kept
          | with_reducible refine readmit_kept (by assumption) ?_ _); clear_value x)
    | (intro x; subst x)
    | with_reducible apply cmdNow_kept
    | with_reducible apply readmitted_kept
    | split

theorem installPatch_kept {al : Allow} {s0 : State} (flashFull : Bool) (n : Nat) {s : State} (hk : Kept al s0 s) :
    Kept al s0 (installPatch flashFull n s).2 := by
  unfold installPatch
  repeat' first
    | with_reducible assumption
    | lift_lets -underBinder
    | (intro x; have hx : Kept al s0 x := (by
        subst x
        repeat' first
          | with_reducible assumption
          | lift_lets -underBinder
          | with_reducible apply cmdStart_kept
          | with_reducible apply emit_kept
          | with_reducible apply keepLeases_kept
          | with_reducible refine Kept.put ?_); clear_value x)
    | (intro x; subst x)
    | split

theorem removePatch_kept {al : Allow} {s0 : State} (n : Nat) {s : State} (hk : Kept al s0 s) :
    Kept al s0 (removePatch n s).2 := by
  unfold removePatch
  repeat' first
    | with_reducible assumption
    | lift_lets -underBinder
    | (intro x; have hx : Kept al s0 x := (by
        subst x
        repeat' first | with_reducible assumption | with_reducible apply emit_kept | split); clear_value x)
    | (intro x; subst x)
    | with_reducible apply cmdNow_kept
    | split
    | with_reducible refine Kept.put ?_

theorem patchOp_kept {al : Allow} {s0 : State} (flashFull : Bool) (data : List Byte) (n : Nat) {s : State} (hk : Kept al s0 s) :
    Kept al s0 (patchOp flashFull data n s).2 := by
  unfold patchOp
  repeat' first
    | with_reducible assumption
    | with_reducible apply installPatch_kept
    | with_reducible apply removePatch_kept
    | split

theorem patchRestart_kept {al : Allow} {s0 : State} {s : State} (hk : Kept al s0 s) :
    Kept al s0 (patchRestart s) := by
  unfold patchRestart
  repeat' first | with_reducible assumption | with_reducible apply restartNow_kept | split

end Sys2Proof.Machine
end

