-- ==== Sys2Proof/Laws/KeptSupply.lean ====
section
/-! SUPPORT. Every operation of Machine/Supply.lean keeps what `Kept` names. -/

set_option Elab.async false

namespace Sys2Proof.Machine

theorem Kept.warned {a : Allow} {s t : State} (h : Kept a s t) (b : Bool) (x : Supply) :
    Kept a s { t with pwr := setWarned b t.pwr x } := by
  cases x <;> exact Kept.put h

theorem fuseTripState_kept {al : Allow} {s0 : State} (p : Port) (mv : Nat) {s : State} (hk : Kept al s0 s) :
    Kept al s0 (fuseTripState p mv s) := by
  unfold fuseTripState
  repeat' first
    | with_reducible assumption
    | lift_lets -underBinder
    | (intro x; subst x)
    | with_reducible apply emit_kept
    | split
    | with_reducible refine Kept.put ?_

theorem supplyRecord_kept {al : Allow} {s0 : State} (variant : Nat) (x : Supply) (mv : Nat) {s : State} (hk : Kept al s0 s) :
    Kept al s0 (supplyRecord variant x mv s) := by
  unfold supplyRecord
  repeat' first | with_reducible assumption | with_reducible apply emit_kept | split

theorem noteMv_kept {al : Allow} {s0 : State} (x : Supply) (mv : Nat) {s : State} (hk : Kept al s0 s) :
    Kept al s0 (noteMv x mv s) := by
  unfold noteMv
  repeat' first
    | with_reducible assumption
    | lift_lets -underBinder
    | (intro x; subst x)
    | split
    | with_reducible refine Kept.put ?_

theorem supplyWarningState_kept {al : Allow} {s0 : State} (x : Supply) (mv : Nat) {s : State} (hk : Kept al s0 s) :
    Kept al s0 (supplyWarningState x mv s) := by
  unfold supplyWarningState
  repeat' first
    | with_reducible assumption
    | lift_lets -underBinder
    | (intro x; have hx : Kept al s0 x := (by
        subst x
        repeat' first | with_reducible assumption | with_reducible apply noteMv_kept); clear_value x)
    | with_reducible apply supplyRecord_kept
    | split
    | with_reducible refine Kept.warned ?_ _ _

theorem supplyWarningClearState_kept {al : Allow} {s0 : State} (x : Supply) (mv : Nat) {s : State} (hk : Kept al s0 s) :
    Kept al s0 (supplyWarningClearState x mv s) := by
  unfold supplyWarningClearState
  repeat' first
    | with_reducible assumption
    | lift_lets -underBinder
    | (intro x; have hx : Kept al s0 x := (by
        subst x
        repeat' first | with_reducible assumption | with_reducible apply noteMv_kept); clear_value x)
    | with_reducible apply supplyRecord_kept
    | split
    | with_reducible refine Kept.warned ?_ _ _

theorem aioFeed_kept {al : Allow} {s0 : State} {s : State} (hk : Kept al s0 s) :
    Kept al s0 (aioFeed s) := by
  unfold aioFeed
  repeat' first
    | with_reducible assumption
    | lift_lets -underBinder
    | (intro x; subst x)
    | with_reducible apply aioSupplyLost_kept
    | split
    | with_reducible refine Kept.put ?_

theorem aioFeedBack_kept {al : Allow} {s0 : State} (x : Supply) (mv : Nat) {s : State} (hk : Kept al s0 s) :
    Kept al s0 (aioFeedBack x mv s) := by
  unfold aioFeedBack
  repeat' first
    | with_reducible assumption
    | lift_lets -underBinder
    | (intro x; subst x)
    | with_reducible apply aioSupplyBack_kept
    | split
    | with_reducible refine Kept.put ?_

theorem banksLost_kept {al : Allow} {s0 : State} (first : Nat) {s : State} (hk : Kept al s0 s) :
    Kept al s0 (banksLost first s) := by
  unfold banksLost
  repeat' first
    | with_reducible assumption
    | lift_lets -underBinder
    | (intro _ t ht; try dsimp -zeta only)
    | with_reducible apply bankSupplyLost_kept
    | with_reducible apply forAll_kept
    | split

theorem banksBack_kept {al : Allow} {s0 : State} (first : Nat) {s : State} (hk : Kept al s0 s) :
    Kept al s0 (banksBack first s) := by
  unfold banksBack
  repeat' first
    | with_reducible assumption
    | lift_lets -underBinder
    | (intro _ t ht; try dsimp -zeta only)
    | with_reducible apply bankSupplyBack_kept
    | with_reducible apply forAll_kept

theorem msChange_kept {al : Allow} {s0 : State} (low : Bool) (high : Bool) {s : State} (hk : Kept al s0 s) :
    Kept al s0 (msChange low high s) := by
  unfold msChange
  repeat' first
    | with_reducible assumption
    | lift_lets -underBinder
    | (intro x; have hx : Kept al s0 x := (by
        subst x
        repeat' first | with_reducible assumption | with_reducible refine Kept.put ?_); clear_value x)
    | (intro x; subst x)
    | with_reducible apply driveSupplyBack_kept
    | with_reducible apply driveSupplyLost_kept
    | split

theorem supplyLatch_kept {al : Allow} {s0 : State} (x : Supply) (mv : Nat) {s : State} (hk : Kept al s0 s) :
    Kept al s0 (supplyLatch x mv s) := by
  unfold supplyLatch
  repeat' first
    | with_reducible assumption
    | lift_lets -underBinder
    | (intro x; subst x)
    | with_reducible apply banksLost_kept
    | with_reducible apply limitSupplyLost_kept
    | with_reducible apply msChange_kept
    | with_reducible apply stagesOff_kept
    | with_reducible apply supplyRecord_kept
    | split
    | with_reducible refine Kept.put ?_

theorem supplyOffState_kept {al : Allow} {s0 : State} (x : Supply) (mv : Nat) {s : State} (hk : Kept al s0 s) :
    Kept al s0 (supplyOffState x mv s) := by
  unfold supplyOffState
  repeat' first
    | with_reducible assumption
    | lift_lets -underBinder
    | with_reducible apply aioFeed_kept
    | with_reducible apply noteMv_kept
    | with_reducible apply supplyLatch_kept

theorem supplyUnlatch_kept {al : Allow} {s0 : State} (x : Supply) (mv : Nat) {s : State} (hk : Kept al s0 s) :
    Kept al s0 (supplyUnlatch x mv s) := by
  unfold supplyUnlatch
  repeat' first
    | with_reducible assumption
    | lift_lets -underBinder
    | (intro x; subst x)
    | with_reducible apply banksBack_kept
    | with_reducible apply msChange_kept
    | with_reducible apply supplyRecord_kept
    | split
    | with_reducible refine Kept.put ?_

theorem supplyRecoveryState_kept {al : Allow} {s0 : State} (x : Supply) (mv : Nat) {s : State} (hk : Kept al s0 s) :
    Kept al s0 (supplyRecoveryState x mv s) := by
  unfold supplyRecoveryState
  repeat' first
    | with_reducible assumption
    | lift_lets -underBinder
    | with_reducible apply aioFeedBack_kept
    | with_reducible apply noteMv_kept
    | with_reducible apply supplyUnlatch_kept

theorem canOffState_kept {al : Allow} {s0 : State} {s : State} (hk : Kept al s0 s) :
    Kept al s0 (canOffState s) := by
  unfold canOffState
  repeat' first | with_reducible assumption | with_reducible refine Kept.put ?_

theorem diolOffState_kept {al : Allow} {s0 : State} {s : State} (hk : Kept al s0 s) :
    Kept al s0 (diolOffState s) := by
  unfold diolOffState
  repeat' first
    | with_reducible assumption
    | lift_lets -underBinder
    | (intro x; have hx : Kept al s0 x := (by
        subst x
        repeat' first
          | with_reducible assumption
          | lift_lets -underBinder
          | with_reducible apply modBank_kept
          | with_reducible apply silenceOutputs_kept); clear_value x)
    | (intro _ t ht; try dsimp -zeta only)
    | with_reducible apply forAll_kept
    | with_reducible apply modDio_kept
    | split

theorem aiolOffState_kept {al : Allow} {s0 : State} {s : State} (hk : Kept al s0 s) :
    Kept al s0 (aiolOffState s) := by
  unfold aiolOffState
  repeat' first
    | with_reducible assumption
    | lift_lets -underBinder
    | (intro x; have hx : Kept al s0 x := (by
        subst x
        repeat' first | with_reducible assumption | with_reducible apply modAio_kept); clear_value x)
    | (intro _ t ht; try dsimp -zeta only)
    | with_reducible apply aoApply_kept
    | with_reducible apply forAll_kept
    | with_reducible apply modAio_kept
    | split

theorem netOffState_kept {al : Allow} {s0 : State} {s : State} (hk : Kept al s0 s) :
    Kept al s0 (netOffState s) := by
  unfold netOffState
  repeat' first
    | with_reducible assumption
    | lift_lets -underBinder
    | (intro x; have hx : Kept al s0 x := (by
        subst x
        repeat' first
          | with_reducible assumption
          | lift_lets -underBinder
          | (intro _ t ht; try dsimp -zeta only)
          | with_reducible apply closeSession_kept
          | with_reducible apply forAll_kept
          | with_reducible apply relayClose_kept
          | split); clear_value x)
    | (intro x; subst x)
    | with_reducible refine Kept.put ?_

theorem domainOff_kept {al : Allow} {s0 : State} (target : Nat) {s : State} (hk : Kept al s0 s) :
    Kept al s0 (domainOff target s) := by
  unfold domainOff
  repeat' first
    | with_reducible assumption
    | lift_lets -underBinder
    | (intro x; have hx : Kept al s0 x := (by
        subst x
        repeat' first
          | with_reducible assumption
          | with_reducible apply aiolOffState_kept
          | with_reducible apply canOffState_kept
          | with_reducible apply diolOffState_kept
          | with_reducible apply motionReset_kept
          | with_reducible apply netOffState_kept
          | split); clear_value x)
    | (intro x; subst x)
    | with_reducible refine Kept.put ?_

theorem domainRecord_kept {al : Allow} {s0 : State} (target : Nat) (n : Nat) {s : State} (hk : Kept al s0 s) :
    Kept al s0 (domainRecord target n s) := by
  unfold domainRecord
  repeat' first | with_reducible assumption | with_reducible apply emit_kept

theorem domainResetOp_kept {al : Allow} {s0 : State} (data : List Byte) (n : Nat) {s : State} (hk : Kept al s0 s) :
    Kept al s0 (domainResetOp data n s).2 := by
  unfold domainResetOp
  repeat' first
    | with_reducible assumption
    | lift_lets -underBinder
    | (intro x; subst x)
    | with_reducible apply cmdAccept_kept
    | with_reducible apply domainOff_kept
    | with_reducible apply domainRecord_kept
    | split

theorem wholeRestart_kept {al : Allow} {s0 : State} {s : State} (hk : Kept al s0 s) :
    Kept al s0 (wholeRestart s) := by
  unfold wholeRestart
  repeat' first | with_reducible assumption | with_reducible apply restartNow_kept | split

theorem netOnState_kept {al : Allow} {s0 : State} (off : Nat) {s : State} (hk : Kept al s0 s) :
    Kept al s0 (netOnState off s) := by
  unfold netOnState
  repeat' first
    | with_reducible assumption
    | lift_lets -underBinder
    | (intro x; subst x)
    | with_reducible apply draw_kept
    | split
    | with_reducible refine Kept.of_snd ?_ (by assumption)
    | with_reducible refine Kept.put ?_

theorem canOnState_kept {al : Allow} {s0 : State} {s : State} (hk : Kept al s0 s) :
    Kept al s0 (canOnState s) := by
  unfold canOnState
  repeat' first
    | with_reducible assumption
    | lift_lets -underBinder
    | (intro _ t ht; try dsimp -zeta only)
    | with_reducible apply applyCan_kept
    | with_reducible apply forAll_kept

theorem domainCompleteState_kept {al : Allow} {s0 : State} {s : State} (hk : Kept al s0 s) :
    Kept al s0 (domainCompleteState s) := by
  unfold domainCompleteState
  repeat' first
    | with_reducible assumption
    | lift_lets -underBinder
    | (intro x; have hx : Kept al s0 x := (by
        subst x
        repeat' first
          | with_reducible assumption
          | with_reducible apply canOnState_kept
          | with_reducible apply netOnState_kept
          | split
          | with_reducible refine Kept.put ?_); clear_value x)
    | (intro x; subst x)
    | with_reducible apply cmdDone_kept
    | split

end Sys2Proof.Machine
end

