-- ==== Sys2Proof/Laws/KeptPower.lean ====
section
/-! SUPPORT. Every operation of Machine/Power.lean keeps what `Kept` names. -/

set_option Elab.async false

namespace Sys2Proof.Machine

theorem flashRecord_wf {s : State} (k : Sound s) : Memory.wf (flashRecord s).2 = true := by
  have := k.refused
  unfold flashRecord
  cases e : s.sess.refused with
  | none => exact k.formeBytes
  | some r => simpa [e] using this

theorem powerFailSequence_kept {al : Allow} {s0 : State} (margin : Nat) {s : State} (hk : Kept al s0 s) :
    Kept al s0 (powerFailSequence margin s) := by
  unfold powerFailSequence
  repeat' first
    | with_reducible assumption
    | lift_lets -underBinder
    | (intro x; have hx : Kept al s0 x := (by
        subst x
        repeat' first
          | with_reducible assumption
          | lift_lets -underBinder
          | with_reducible apply drainQueue_kept
          | with_reducible apply draw_kept
          | with_reducible apply mirrorCounters_kept
          | with_reducible apply powerFailRecord_kept
          | with_reducible apply storeRetain_kept
          | with_reducible apply writeFlashDue_kept
          | with_reducible refine Kept.of_snd ?_ (by assumption)); clear_value x)
    | (intro x; subst x)
    | split
    | with_reducible refine Kept.put ?_

theorem powerFailState_kept {al : Allow} {s0 : State} (margin : Nat) (trunkBack : Bool) {s : State} (hk : Kept al s0 s) :
    Kept al s0 (powerFailState margin trunkBack s) := by
  unfold powerFailState
  repeat' first
    | with_reducible assumption
    | lift_lets -underBinder
    | (intro x; subst x)
    | with_reducible apply goDown_kept
    | with_reducible apply powerFailSequence_kept
    | split
    | with_reducible refine Kept.put ?_

theorem startAon_kept {al : Allow} {s0 : State} (env : StartEnv) {s : State} (hk : Kept al s0 s) :
    Kept al s0 (startAon env s) := by
  unfold startAon
  repeat' first
    | with_reducible assumption
    | lift_lets -underBinder
    | (intro x; subst x)
    | split
    | with_reducible refine Kept.put ?_
    | with_reducible refine Kept.putW ?_

theorem startMgt_kept {al : Allow} {s0 : State} (ha : al.start = true) (env : StartEnv) {s : State} (hk : Kept al s0 s) :
    Kept al s0 (startMgt env s) :=
  hk.trans ⟨⟨rfl, rfl, List.suffix_refl _, List.suffix_refl _, Nat.le_refl _, fun _ _ m => m, fun e => by simp [ha] at e,
    fun e => by simp [ha] at e, fun e => by simp [ha] at e⟩,
    fun k => ⟨k.queue, k.gasp, k.leases, k.hsr, k.spare, k.retiredOnce, k.inst, k.glob, k.ret, k.store, k.storeInst, k.bulk, k.refused,
      k.formeBytes, k.plain⟩⟩

theorem startRecorder_kept {al : Allow} {s0 : State} (env : StartEnv) {s : State} (hk : Kept al s0 s) :
    Kept al s0 (startRecorder env s) := by
  unfold startRecorder
  repeat' first
    | with_reducible assumption
    | lift_lets -underBinder
    | (intro x; subst x)
    | split
    | with_reducible refine Kept.putW ?_

theorem startFresh_kept {al : Allow} {s0 : State} (env : StartEnv) {s : State} (hk : Kept al s0 s) :
    Kept al s0 (startFresh env s) := by
  refine hk.trans ⟨⟨rfl, rfl, List.suffix_refl _, List.suffix_refl _, Nat.le_refl _, fun _ _ m => m, fun _ => rfl, fun _ => rfl, fun _ => rfl⟩,
    fun k => ⟨k.queue, k.gasp, Nat.zero_le _, Nat.two_pow_pos 16, k.spare, k.retiredOnce, rfl, rfl, rfl, k.store, k.storeInst, rfl, ?_, ?_, rfl⟩⟩
  · show Memory.wf (((if env.configSigOk then none else some (flashRecord s)).map Prod.snd).getD []) = true
    split
    · rfl
    · exact flashRecord_wf k
  · show Memory.wf (if _ then _ else _) = true
    split
    · exact flashRecord_wf k
    · rfl

theorem refusedAtStart_kept {al : Allow} {s0 : State} (variant : Nat) (code : Nat) {s : State} (hk : Kept al s0 s) :
    Kept al s0 (refusedAtStart variant code s) := by
  unfold refusedAtStart
  repeat' first | with_reducible assumption | with_reducible apply emit_kept

theorem startPatch_kept {al : Allow} {s0 : State} (env : StartEnv) {s : State} (hk : Kept al s0 s) :
    Kept al s0 (startPatch env s) := by
  unfold startPatch
  repeat' first
    | with_reducible assumption
    | lift_lets -underBinder
    | (intro x; subst x)
    | with_reducible apply emit_kept
    | with_reducible apply refusedAtStart_kept
    | split
    | with_reducible refine Kept.put ?_

theorem startForme_kept {al : Allow} {s0 : State} (env : StartEnv) {s : State} (hk : Kept al s0 s) :
    Kept al s0 (startForme env s) := by
  unfold startForme
  repeat' first
    | with_reducible assumption
    | lift_lets -underBinder
    | (intro x; subst x)
    | with_reducible apply refusedAtStart_kept
    | split
    | with_reducible refine Kept.put ?_

theorem startTime_kept {al : Allow} {s0 : State} {s : State} (hk : Kept al s0 s) :
    Kept al s0 (startTime s) := by
  unfold startTime
  repeat' first
    | with_reducible assumption
    | lift_lets -underBinder
    | (intro x; subst x)
    | split
    | with_reducible refine Kept.put ?_

theorem startSafe_kept {al : Allow} {s0 : State} (env : StartEnv) {s : State} (hk : Kept al s0 s) :
    Kept al s0 (startSafe env s) := by
  unfold startSafe
  repeat' first
    | with_reducible assumption
    | lift_lets -underBinder
    | with_reducible apply draw_kept
    | with_reducible apply enterSafety_kept
    | with_reducible apply publishStatus_kept
    | with_reducible apply safetyFault_kept
    | with_reducible apply startSafety_kept
    | split

theorem startResources_kept {al : Allow} {s0 : State} (warm : Bool) {s : State} (hk : Kept al s0 s) :
    Kept al s0 (startResources warm s) := by
  unfold startResources
  repeat' first
    | with_reducible assumption
    | lift_lets -underBinder
    | (intro x; have hx : Kept al s0 x := (by
        subst x
        repeat' first
          | with_reducible assumption
          | lift_lets -underBinder
          | (intro _ t ht; try dsimp -zeta only)
          | with_reducible apply applyCan_kept
          | with_reducible apply applySlots_kept
          | with_reducible apply forAll_kept
          | with_reducible apply modNode_kept
          | with_reducible apply startTracker_kept
          | split
          | with_reducible refine Kept.foldl (fun t x ht => ?_) _ _ ?_); clear_value x)
    | with_reducible apply applyUnowned_kept
    | with_reducible apply startAio_kept
    | with_reducible apply startAxes_kept
    | with_reducible apply startBanks_kept
    | with_reducible apply startLoops_kept

theorem startData_kept {al : Allow} {s0 : State} (warm : Bool) {s : State} (hk : Kept al s0 s) :
    Kept al s0 (startData warm s) := by
  refine hk.trans ⟨⟨rfl, rfl, List.suffix_refl _, List.suffix_refl _, Nat.le_refl _, fun _ _ m => m, fun _ => rfl, fun _ => rfl, fun _ => rfl⟩,
    fun k => ⟨k.queue, k.gasp, k.leases, k.hsr, k.spare, k.retiredOnce, ?_, initMemory_wf _ _, ?_, k.store, k.storeInst, k.bulk, k.refused,
      k.formeBytes, k.plain⟩⟩
  · cases warm
    · exact initInsts_wf _
    · exact Memory.wf_foldl _ (fun m v h => by split <;> first | exact Memory.wf_writeN _ _ _ h | exact h) _ _ (initInsts_wf _)
  · cases warm
    · exact initMemory_wf _ _
    · exact k.store

theorem startDecide_kept {al : Allow} {s0 : State} (env : StartEnv) {s : State} (hk : Kept al s0 s) :
    Kept al s0 (startDecide env s) := by
  unfold startDecide
  repeat' first
    | with_reducible assumption
    | lift_lets -underBinder
    | (intro x; have hx : Kept al s0 x := (by
        subst x
        repeat' first
          | with_reducible assumption
          | with_reducible apply emit_kept
          | split
          | with_reducible refine Kept.put ?_); clear_value x)
    | (intro x; subst x)
    | with_reducible apply startData_kept
    | with_reducible apply startResources_kept

theorem joinRing_kept {al : Allow} {s0 : State} (env : StartEnv) {s : State} (hk : Kept al s0 s) :
    Kept al s0 (joinRing env s) := by
  unfold joinRing
  repeat' first
    | with_reducible assumption
    | lift_lets -underBinder
    | (intro x; subst x)
    | with_reducible refine Kept.put ?_

theorem startPair_kept {al : Allow} {s0 : State} (env : StartEnv) {s : State} (hk : Kept al s0 s) :
    Kept al s0 (startPair env s) := by
  unfold startPair
  repeat' first
    | with_reducible assumption
    | lift_lets -underBinder
    | (intro x; have hx : Kept al s0 x := (by
        subst x
        repeat' first
          | with_reducible assumption
          | with_reducible apply emit_kept
          | split
          | with_reducible refine Kept.put ?_); clear_value x)
    | (intro x; subst x)
    | with_reducible apply arbitrate_kept
    | with_reducible apply enterPair_kept
    | split
    | with_reducible refine Kept.put ?_

theorem startMode_kept {al : Allow} {s0 : State} {s : State} (hk : Kept al s0 s) :
    Kept al s0 (startMode s) := by
  unfold startMode
  repeat' first
    | with_reducible assumption
    | lift_lets -underBinder
    | (intro x; have hx : Kept al s0 x := (by
        subst x
        repeat' first | with_reducible assumption | with_reducible apply emit_kept); clear_value x)
    | (intro x; subst x)
    | with_reducible refine Kept.put ?_

theorem startTrunk_kept {al : Allow} {s0 : State} (env : StartEnv) {s : State} (hk : Kept al s0 s) :
    Kept al s0 (startTrunk env s) := by
  unfold startTrunk
  repeat' first
    | with_reducible assumption
    | lift_lets -underBinder
    | (intro x; subst x)
    | with_reducible apply supplyWarningState_kept
    | with_reducible refine Kept.put ?_

theorem startRecords_kept {al : Allow} {s0 : State} (env : StartEnv) {s : State} (hk : Kept al s0 s) :
    Kept al s0 (startRecords env s) := by
  unfold startRecords
  repeat' first
    | with_reducible assumption
    | lift_lets -underBinder
    | (intro x; have hx : Kept al s0 x := (by
        subst x
        repeat' first
          | with_reducible assumption
          | with_reducible apply emit_kept
          | with_reducible apply takeSupercap_kept
          | split); clear_value x)
    | (intro x; subst x)
    | with_reducible refine Kept.put ?_

theorem startForces_kept {al : Allow} {s0 : State} (forces : List Force) {s : State} (hk : Kept al s0 s) :
    Kept al s0 (startForces forces s) := by
  unfold startForces
  repeat' first
    | with_reducible assumption
    | lift_lets -underBinder
    | with_reducible apply emit_kept
    | with_reducible refine Kept.foldl (fun t x ht => ?_) _ _ ?_

theorem startRecord_kept {al : Allow} {s0 : State} (gasp : List Gasp) {s : State} (hk : Kept al s0 s) :
    Kept al s0 (startRecord gasp s) := by
  unfold startRecord
  repeat' first
    | with_reducible assumption
    | lift_lets -underBinder
    | (intro x; have hx : Kept al s0 x := (by
        subst x
        repeat' first
          | with_reducible assumption
          | with_reducible apply emit_kept
          | with_reducible refine Kept.putW ?_); clear_value x)
    | (intro x; subst x)
    | with_reducible refine Kept.putW ?_

theorem startUp_kept {al : Allow} {s0 : State} (ha : al.start = true) (env : StartEnv) {s : State} (hk : Kept al s0 s) :
    Kept al s0 (startUp env s) := by
  unfold startUp
  repeat' first
    | with_reducible assumption
    | lift_lets -underBinder
    | (intro x; have hx : Kept al s0 x := (by
        subst x
        repeat' first
          | with_reducible assumption
          | lift_lets -underBinder
          | with_reducible apply refusedAtStart_kept
          | with_reducible apply startAon_kept
          | with_reducible apply startForces_kept
          | with_reducible apply startForme_kept
          | with_reducible apply startFresh_kept
          | with_reducible apply startMgt_kept
          | with_reducible apply startPatch_kept
          | with_reducible apply startRecorder_kept
          | with_reducible apply startRecords_kept
          | with_reducible apply startSafe_kept
          | with_reducible apply startTime_kept
          | with_reducible apply startTrunk_kept
          | split
          | with_reducible refine Kept.putW ?_); clear_value x)
    | (intro x; subst x)
    | with_reducible apply joinRing_kept
    | with_reducible apply startDecide_kept
    | with_reducible apply startMode_kept
    | with_reducible apply startPair_kept
    | with_reducible apply startRecord_kept

theorem startupState_kept {al : Allow} {s0 : State} (ha : al.start = true) (env : StartEnv) {s : State} (hk : Kept al s0 s) :
    Kept al s0 (startupState env s) := by
  unfold startupState
  repeat' first | with_reducible assumption | with_reducible apply startUp_kept | split

end Sys2Proof.Machine
end

