-- ==== Sys2Proof/Laws/KeptCommit.lean ====
section
/-! SUPPORT. Every operation of Machine/Commit.lean keeps what `Kept` names. -/

set_option Elab.async false

namespace Sys2Proof.Machine

theorem directNow_kept {al : Allow} {s0 : State} (idx : Nat) (sub : Nat) (data : List Byte) (n : Nat) {s : State} (hk : Kept al s0 s) :
    Kept al s0 (directNow idx sub data n s) := by
  unfold directNow
  repeat' first
    | with_reducible assumption
    | with_reducible apply axCommandOp_kept
    | with_reducible apply directEffect_kept
    | split

theorem directOp_kept {al : Allow} {s0 : State} (idx : Nat) (sub : Nat) (off : Nat) (data : List Byte) (n : Nat) {s : State} (hk : Kept al s0 s) :
    Kept al s0 (directOp idx sub off data n s).2 := by
  unfold directOp
  repeat' first
    | with_reducible assumption
    | with_reducible apply axCommandOp_kept
    | with_reducible apply bulkDataOp_kept
    | with_reducible apply bulkLengthOp_kept
    | with_reducible apply canRecoverOp_kept
    | with_reducible apply deferred_kept
    | with_reducible apply keepDirect_kept
    | with_reducible apply loopModeOp_kept
    | with_reducible apply scArmOp_kept
    | with_reducible apply signerKeyOp_kept
    | with_reducible apply slotKeyOp_kept
    | split

theorem commitFails_kept {al : Allow} {s0 : State} (a : Abort) (n : Nat) {s : State} (hk : Kept al s0 s) :
    Kept al s0 (commitFails a n s).2 := by
  unfold commitFails
  repeat' first
    | with_reducible assumption
    | lift_lets -underBinder
    | with_reducible apply cmdFail_kept
    | with_reducible apply cmdStart_kept
    | with_reducible apply modSession_kept

theorem commitAccepted_kept {al : Allow} {s0 : State} (n : Nat) {s : State} (hk : Kept al s0 s) :
    Kept al s0 (commitAccepted n s).2 := by
  unfold commitAccepted
  repeat' first
    | with_reducible assumption
    | lift_lets -underBinder
    | (intro x; have hx : Kept al s0 x := (by
        subst x
        repeat' first
          | with_reducible assumption
          | lift_lets -underBinder
          | with_reducible apply announceBanks_kept
          | with_reducible apply keepLeases_kept
          | with_reducible apply modSession_kept
          | with_reducible refine Kept.put ?_); clear_value x)
    | (intro x; subst x)
    | with_reducible apply cmdAccept_kept

theorem commitNow_kept {al : Allow} {s0 : State} (n : Nat) {s : State} (hk : Kept al s0 s) :
    Kept al s0 (commitNow n s).2 := by
  unfold commitNow
  repeat' first
    | with_reducible assumption
    | with_reducible apply commitAccepted_kept
    | with_reducible apply commitFails_kept
    | split

theorem commitPrepare_kept {al : Allow} {s0 : State} (n : Nat) {s : State} (hk : Kept al s0 s) :
    Kept al s0 (commitPrepare n s).2 := by
  unfold commitPrepare
  repeat' first
    | with_reducible assumption
    | lift_lets -underBinder
    | (intro x; subst x)
    | with_reducible apply cmdNow_kept
    | with_reducible apply commitFails_kept
    | with_reducible apply modSession_kept
    | split

theorem confirmSafety_kept {al : Allow} {s0 : State} (ws : List Staged) {s : State} (hk : Kept al s0 s) :
    Kept al s0 (confirmSafety ws s) := by
  unfold confirmSafety
  repeat' first
    | with_reducible assumption
    | lift_lets -underBinder
    | with_reducible apply passChange_kept
    | with_reducible apply takeSafety_kept
    | split

theorem commitConfirm_kept {al : Allow} {s0 : State} (sealNo : Nat) (n : Nat) {s : State} (hk : Kept al s0 s) :
    Kept al s0 (commitConfirm sealNo n s).2 := by
  unfold commitConfirm
  repeat' first
    | with_reducible assumption
    | lift_lets -underBinder
    | (intro x; subst x)
    | with_reducible apply commitAccepted_kept
    | with_reducible apply commitFails_kept
    | with_reducible apply confirmSafety_kept
    | with_reducible apply modSession_kept
    | split

theorem commitOp_kept {al : Allow} {s0 : State} (data : List Byte) (n : Nat) {s : State} (hk : Kept al s0 s) :
    Kept al s0 (commitOp data n s).2 := by
  unfold commitOp
  repeat' first
    | with_reducible assumption
    | with_reducible apply commitConfirm_kept
    | with_reducible apply commitNow_kept
    | with_reducible apply commitPrepare_kept
    | split

theorem applyDirect_kept {al : Allow} {s0 : State} (n : Nat) (objs : Tbl (List Byte)) {s : State} (hk : Kept al s0 s) :
    Kept al s0 (applyDirect n objs s) := by
  unfold applyDirect
  repeat' first
    | with_reducible assumption
    | lift_lets -underBinder
    | with_reducible apply directNow_kept
    | split
    | with_reducible refine Kept.foldl (fun t x ht => ?_) _ _ ?_

theorem dropDirect_kept {al : Allow} {s0 : State} (objs : Tbl (List Byte)) {s : State} (hk : Kept al s0 s) :
    Kept al s0 (dropDirect objs s) := by
  unfold dropDirect
  repeat' first
    | with_reducible assumption
    | lift_lets -underBinder
    | (intro x; subst x)
    | dsimp -zeta only
    | with_reducible refine Kept.put ?_

theorem countCommit_kept {al : Allow} {s0 : State} {s : State} (hk : Kept al s0 s) :
    Kept al s0 (countCommit s) := by
  unfold countCommit
  repeat' first
    | with_reducible assumption
    | lift_lets -underBinder
    | (intro x; subst x)
    | with_reducible apply emit_kept
    | with_reducible refine Kept.put ?_

theorem applyPending_kept {al : Allow} {s0 : State} (p : PendingCommit) {s : State} (hk : Kept al s0 s) :
    Kept al s0 (applyPending p s) := by
  unfold applyPending
  repeat' first
    | with_reducible assumption
    | lift_lets -underBinder
    | (intro x; have hx : Kept al s0 x := (by
        subst x
        repeat' first
          | with_reducible assumption
          | lift_lets -underBinder
          | with_reducible apply adoptConfig_kept
          | with_reducible apply applyDirect_kept
          | with_reducible apply armStaged_kept
          | with_reducible apply countCommit_kept
          | with_reducible apply dropDirect_kept
          | with_reducible refine Kept.put ?_); clear_value x)
    | (intro x; subst x)
    | with_reducible apply cmdDone_kept
    | with_reducible apply passChange_kept
    | with_reducible apply releaseKept_kept

theorem configApplyState_kept {al : Allow} {s0 : State} {s : State} (hk : Kept al s0 s) :
    Kept al s0 (configApplyState s) := by
  unfold configApplyState
  repeat' first | with_reducible assumption | with_reducible apply applyPending_kept | split

theorem applyFirst_kept {al : Allow} {s0 : State} {s : State} (hk : Kept al s0 s) :
    Kept al s0 (applyFirst s) := by
  unfold applyFirst
  repeat' first | with_reducible assumption | with_reducible apply configApplyState_kept | split

end Sys2Proof.Machine
end

