-- ==== Sys2Proof/Laws/KeptAccess.lean ====
section
/-! SUPPORT. Every operation of Machine/Access.lean keeps what `Kept` names. -/

set_option Elab.async false

namespace Sys2Proof.Machine

theorem objectOp_kept {al : Allow} {s0 : State} (hr : al.readmit = true) (idx : Nat) (sub : Nat) (off : Nat) (data : List Byte) (n : Nat) {s : State} (hk : Kept al s0 s) :
    Kept al s0 (objectOp idx sub off data n s).2 := by
  unfold objectOp
  repeat' first
    | with_reducible assumption
    | with_reducible apply commitOp_kept
    | with_reducible apply directOp_kept
    | with_reducible apply domainResetOp_kept
    | with_reducible apply forceOp_kept
    | with_reducible apply leaseOp_kept
    | with_reducible apply modeSetOp_kept
    | with_reducible apply onlineChangeOp_kept
    | with_reducible apply patchOp_kept
    | with_reducible apply readmitOp_kept
    | with_reducible apply snapshotOp_kept
    | with_reducible apply switchoverOp_kept
    | with_reducible apply timeRestepOp_kept
    | split

theorem restartsAfter_kept {al : Allow} {s0 : State} (idx : Nat) {s : State} (hk : Kept al s0 s) :
    Kept al s0 (restartsAfter idx s) := by
  unfold restartsAfter
  repeat' first
    | with_reducible assumption
    | with_reducible apply patchRestart_kept
    | with_reducible apply wholeRestart_kept
    | split

theorem writeObjectState_kept {al : Allow} {s0 : State} (hr : al.readmit = true) (h : Hdr) (idx : Nat) (sub : Nat) (ty : Nat) (off : Nat) (data : List Byte) {s : State} (hk : Kept al s0 s) :
    Kept al s0 (writeObjectState h idx sub ty off data s) := by
  unfold writeObjectState
  repeat' first
    | with_reducible assumption
    | lift_lets -underBinder
    | (intro _ t ht; try dsimp -zeta only)
    | with_reducible apply closeDue_kept
    | with_reducible apply objectOp_kept
    | with_reducible apply restartsAfter_kept
    | with_reducible apply writeReq_kept

end Sys2Proof.Machine
end

