-- ==== Sys2Proof/Laws/KeptRead.lean ====
section
/-! SUPPORT. Every operation of Machine/Read.lean keeps what `Kept` names. -/

set_option Elab.async false

namespace Sys2Proof.Machine

theorem scRead_kept {al : Allow} {s0 : State} (idx : Nat) (sub : Nat) {s : State} (hk : Kept al s0 s) :
    Kept al s0 (scRead idx sub s) := by
  unfold scRead
  repeat' first | with_reducible assumption | with_reducible apply modSc_kept | split

theorem readOp_kept {al : Allow} {s0 : State} (idx : Nat) (sub : Nat) (ty : Nat) (off : Nat) (max : Nat) (_n : Nat) {s : State} (hk : Kept al s0 s) :
    Kept al s0 (readOp idx sub ty off max _n s).2 := by
  unfold readOp
  repeat' first
    | with_reducible assumption
    | lift_lets -underBinder
    | (intro x; subst x)
    | with_reducible apply scRead_kept
    | split

theorem readState_kept {al : Allow} {s0 : State} (h : Hdr) (idx : Nat) (sub : Nat) (ty : Nat) (off : Nat) (max : Nat) {s : State} (hk : Kept al s0 s) :
    Kept al s0 (readState h idx sub ty off max s) := by
  unfold readState
  repeat' first
    | with_reducible assumption
    | lift_lets -underBinder
    | (intro _ t ht; try dsimp -zeta only)
    | with_reducible apply readOp_kept
    | with_reducible apply request_kept

end Sys2Proof.Machine
end

