-- ==== Sys2Proof/Laws/KeptMessages.lean ====
section
/-! SUPPORT. Every operation of Machine/Messages.lean keeps what `Kept` names. -/

set_option Elab.async false

namespace Sys2Proof.Machine

theorem serveObject_kept {al : Allow} {s0 : State} (hr : al.readmit = true) (h : Hdr) (write : Bool) (b : List Byte) {s : State} (hk : Kept al s0 s) :
    Kept al s0 (serveObject h write b s) := by
  unfold serveObject
  repeat' first
    | with_reducible assumption
    | with_reducible apply readState_kept
    | with_reducible apply writeObjectState_kept
    | split

theorem serveMsg_kept {al : Allow} {s0 : State} (hr : al.readmit = true) (m : Msg) {s : State} (hk : Kept al s0 s) :
    Kept al s0 (serveMsg m s) := by
  unfold serveMsg
  repeat' first
    | with_reducible assumption
    | with_reducible apply authState_kept
    | with_reducible apply closeState_kept
    | with_reducible apply keepaliveState_kept
    | with_reducible apply openReqState_kept
    | with_reducible apply serveObject_kept
    | with_reducible apply txnAbortState_kept
    | with_reducible apply txnBeginState_kept
    | split

theorem serveWaiting_kept {al : Allow} {s0 : State} (hr : al.readmit = true) {s : State} (hk : Kept al s0 s) :
    Kept al s0 (serveWaiting s) := by
  unfold serveWaiting
  repeat' first
    | with_reducible assumption
    | lift_lets -underBinder
    | (intro x; subst x)
    | with_reducible apply serveMsg_kept
    | split
    | with_reducible refine Kept.foldl (fun t x ht => ?_) _ _ ?_
    | with_reducible refine Kept.put ?_

end Sys2Proof.Machine
end

