-- ==== Sys2Proof/Laws/Requests.lean ====
section
/-! SUPPORT. A request that is heard, and a row's WRITE that passes its checks, in one equation each. -/

set_option Elab.async false

namespace Sys2Proof.Machine

/-- A property every step of a loop keeps holds after the loop. -/
theorem forAll_induct {P : State → Prop} (l : List Nat) (f : Nat → State → State) (hf : ∀ n s, P s → P (f n s)) :
    ∀ s, P s → P (forAll l f s) := by
  unfold forAll
  induction l with
  | nil => intro s h; exact h
  | cons a r ih => intro s h; exact ih _ (hf a s h)

theorem endLease_sess (n : Nat) (s : State) : endLease n s = { s with sess := (endLease n s).sess } := by
  unfold endLease; split <;> rfl

theorem endLeases_sess (l : List Nat) (s : State) : forAll l endLease s = { s with sess := (forAll l endLease s).sess } := by
  refine forAll_induct (P := fun x => x = { s with sess := x.sess }) l _ ?_ s rfl
  intro n x hx
  rw [endLease_sess, hx]

theorem pruneLeases_sess (s : State) : pruneLeases s = { s with sess := (pruneLeases s).sess } := endLeases_sess _ _

/-- The end of a session changes nothing but the sessions part. -/
theorem closeSession_sess (n c : Nat) (s : State) : closeSession n c s = { s with sess := (closeSession n c s).sess } := by
  unfold closeSession
  dsimp only
  rw [endLeases_sess]

/-- A closed session keeps its close cause and nothing else. -/
theorem closeSession_get (n c : Nat) (s : State) : getSession (closeSession n c s) n = { closeCause := c } := by
  simp only [closeSession, getSession, Tbl.get_put, if_true]

theorem found_sess (t : Nat) (s : State) : found t s = { advance t s with sess := (found t s).sess } := by
  unfold found closeDue
  generalize advance t s = v
  refine forAll_induct (P := fun x => x = { v with sess := x.sess }) _ _ ?_ v rfl
  intro n x hx
  split
  · rw [closeSession_sess, hx]
  · exact hx

theorem served_sess (s : State) (n : Nat) : served s n = { s with sess := (served s n).sess } := by
  unfold served taken; rw [pruneLeases_sess]; rfl

/-- What a request finds differs from the state before it in the clock and the sessions alone. -/
@[simp] theorem found_fields (t : Nat) (s : State) : 
    (found t s).pending = s.pending ∧ (found t s).freeN = s.freeN ∧ (found t s).outbox = s.outbox ∧
    (found t s).config = s.config ∧ (found t s).clk = s.clk ∧ (found t s).pwr = s.pwr ∧ (found t s).img = s.img ∧
    (found t s).prog = s.prog ∧ (found t s).eng = s.eng ∧ (found t s).cad = s.cad ∧ (found t s).ring = s.ring ∧
    (found t s).dio = s.dio ∧ (found t s).aio = s.aio ∧ (found t s).mot = s.mot ∧ (found t s).can = s.can ∧
    (found t s).safe = s.safe ∧ (found t s).sio = s.sio ∧ (found t s).recd = s.recd ∧ (found t s).mgmt = s.mgmt ∧
    (found t s).retired = s.retired ∧ (found t s).sram = s.sram ∧ (found t s).now = max s.now t ∧
    (found t s).pair = (advance t s).pair := by
  rw [found_sess]; exact ⟨rfl, rfl, rfl, rfl, rfl, rfl, rfl, rfl, rfl, rfl, rfl, rfl, rfl, rfl, rfl, rfl, rfl, rfl, rfl, rfl, rfl, rfl, rfl⟩

@[simp] theorem served_fields (n : Nat) (s : State) : 
    (served s n).pending = s.pending ∧ (served s n).now = s.now ∧ (served s n).freeN = s.freeN ∧
    (served s n).outbox = s.outbox ∧ (served s n).config = s.config ∧ (served s n).clk = s.clk ∧
    (served s n).pwr = s.pwr ∧ (served s n).img = s.img ∧ (served s n).prog = s.prog ∧ (served s n).eng = s.eng ∧
    (served s n).cad = s.cad ∧ (served s n).ring = s.ring ∧ (served s n).dio = s.dio ∧ (served s n).aio = s.aio ∧
    (served s n).mot = s.mot ∧ (served s n).can = s.can ∧ (served s n).safe = s.safe ∧ (served s n).sio = s.sio ∧
    (served s n).pair = s.pair ∧ (served s n).recd = s.recd ∧ (served s n).mgmt = s.mgmt ∧
    (served s n).retired = s.retired ∧ (served s n).sram = s.sram := by
  rw [served_sess]; exact ⟨rfl, rfl, rfl, rfl, rfl, rfl, rfl, rfl, rfl, rfl, rfl, rfl, rfl, rfl, rfl, rfl, rfl, rfl, rfl, rfl, rfl, rfl, rfl⟩

theorem answers_found (t : Nat) (s : State) (p : Path) : answers (found t s) p = answers (advance t s) p := by
  rw [found_sess]; generalize (found t s).sess = x; rfl

theorem untouched_sess {v u : State} (h : u = { v with sess := u.sess }) : Untouched [.sess] v u := by
  refine ⟨fun p hp => ?_⟩
  rw [h]
  cases p <;> first | rfl | simp at hp

theorem serve_heard {s : State} {h : Hdr} {service : Nat} {body : List Byte} (f : Nat → State → Answer × State)
    (k : heard s h service body = true) :
    serve h service body f s = respond s h service (f h.session (taken s h.session)).1 (f h.session (taken s h.session)).2 := by
  simp only [heard, Bool.and_eq_true, decide_eq_true_eq, beq_iff_eq] at k
  obtain ⟨⟨⟨⟨⟨⟨k1, kf⟩, kh⟩, k2⟩, k3⟩, k4⟩, k5⟩ := k
  have k6 : ¬ (h.seq = (getSession s h.session).lastSeq) := by omega
  have kf' : s.sess.force.isSome = false := by cases e : s.sess.force <;> simp_all
  have kh' : h.service.isSome = false := by cases e : h.service <;> simp_all
  simp only [serve, k1, kf', kh', k2, k3, k4, ← k5, k6, Bool.not_true, Bool.false_eq_true, if_false, decide_true, ne_eq,
    not_true_eq_false, decide_false, Bool.or_self, false_and]
  rfl

theorem request_heard {s : State} {h : Hdr} {service : Nat} {body : List Byte} (f : Nat → State → Answer × State) (t : Nat)
    (k : heard (found t s) h service body = true) :
    request h service body f (advance t s) = respond (found t s) h service (f h.session (taken (found t s) h.session)).1
      (f h.session (taken (found t s) h.session)).2 := serve_heard f k

theorem rowReq_heard {s : State} {c : Cmd} {idx sub : Nat} {fixed : List Byte}
    (act : List Byte → Nat → State → Answer × State) (t : Nat) (k : writeHeard (found t s) c idx sub fixed = true) :
    rowReq c idx sub fixed act (advance t s) =
      respond (found t s) c.hdr svcWrite (act (fixed ++ c.rest) c.hdr.session (served (found t s) c.hdr.session)).1
        (act (fixed ++ c.rest) c.hdr.session (served (found t s) c.hdr.session)).2 := by
  simp only [writeHeard, Bool.and_eq_true] at k
  obtain ⟨⟨k1, k2⟩, k3⟩ := k
  simp only [rowReq, cmdReq, writeReq]
  have hf : closeDue (advance t s) = found t s := rfl
  rw [hf, serve_heard _ k1]
  simp only [served] at k2 k3 ⊢
  split at k2
  · rename_i e
    rw [e]
    dsimp only
    rw [if_neg]
    intro q
    simp only [Bool.and_eq_true, Bool.not_eq_true'] at q
    simp only [q.1.2, q.2, Bool.or_false, Option.isNone_iff_eq_none] at k3
    simp [k3] at q
  · exact absurd k2 (by simp)

end Sys2Proof.Machine
end

