-- ==== Sys2Proof/WellFormed.lean ====
section
/-! DEFINITION. What a command of the table can carry: every number within the width of the field that spells it, every
byte string within its message. A command outside these bounds has a meaning all the same. -/

namespace Sys2Proof

/-- Header of a request (04 Table 4.4; 05 R102). -/
def Hdr.wf (h : Hdr) : Bool :=
  decide (h.peer < 2 ^ 14) && decide (h.session < 2 ^ 8) && decide (h.seq < 2 ^ 32)
    && (match h.service with
      | some c => decide (c < 2 ^ 8) && !([0x01, 0x02, 0x03, 0x10, 0x11, 0x20, 0x21, 0x3F].contains c)
      | none => true)
    && decide (h.flags < 2 ^ 8) && decide (h.rsv3 < 2 ^ 8) && decide (h.rsv10 < 2 ^ 16)

/-- A WRITE of a command row (04 Table 4.5, R76). -/
def Cmd.wf (c : Cmd) : Bool :=
  c.hdr.wf && decide (c.ty < 2 ^ 8) && decide (c.off < 2 ^ 32) && decide (c.rest.length ≤ 1024)

/-- The bounds of every command's operands. -/
def Instr.wf : Instr → Bool
  | .openReq _ _ peer slot role nonceH =>
    decide (peer < 2 ^ 14) && decide (slot < 2 ^ 8) && decide (role < 2 ^ 8) && decide (nonceH.length ≤ 1036)
  | .auth _ _ peer session proof => decide (peer < 2 ^ 14) && decide (session < 2 ^ 8) && decide (proof.length ≤ 1036)
  | .close _ h => h.wf
  | .read _ h idx sub ty off max =>
    h.wf && decide (idx < 2 ^ 16) && decide (sub < 2 ^ 8) && decide (ty < 2 ^ 8) && decide (off < 2 ^ 32)
      && decide (max < 2 ^ 16)
  | .writeObject _ h idx sub ty off data =>
    h.wf && decide (idx < 2 ^ 16) && decide (sub < 2 ^ 8) && decide (ty < 2 ^ 8) && decide (off < 2 ^ 32)
      && decide (data.length ≤ 1024)
  | .txnBegin _ h => h.wf
  | .txnAbort _ h => h.wf
  | .keepalive _ h => h.wf
  | .sessionTimeout _ _ => true
  | .authTimeout _ _ => true
  | .slotLockExpiry _ _ => true
  | .modeSetStop _ c => c.wf
  | .modeSetRun _ c => c.wf
  | .modeSetHold _ c => c.wf
  | .modeSetStep _ c => c.wf
  | .runEntry _ => true
  | .holdLapse _ => true
  | .stepCycleTimeout _ _ => true
  | .onlineChangePrepareAndSwap _ c => c.wf
  | .onlineChangePrepareOnly _ c => c.wf
  | .onlineChangeCancel _ c => c.wf
  | .preparationEnd _ _ => true
  | .swap _ _ => true
  | .readmit _ c => c.wf
  | .timeRestepFollower _ c => c.wf
  | .timeRestepMaster _ c => c.wf
  | .recorderSnapshot _ c => c.wf
  | .switchoverRequest _ c => c.wf
  | .configCommit _ c => c.wf
  | .configCommitPrepare _ c => c.wf
  | .configCommitConfirm _ c => c.wf
  | .preparedTransactionLapse _ _ => true
  | .configApply _ => true
  | .leaseAcquire _ c => c.wf
  | .leaseRenew _ c => c.wf
  | .leaseRelease _ c => c.wf
  | .leaseExpiry _ area => decide (area < 2 ^ 16)
  | .forcePoint _ c => c.wf
  | .forceRelease _ c => c.wf
  | .forceReleaseAll _ c => c.wf
  | .domainReset _ c => c.wf
  | .domainResetComplete _ => true
  | .patchInstall _ c _ => c.wf
  | .patchRemove _ c => c.wf
  | .bulkLength _ c => c.wf
  | .bulkData _ c => c.wf
  | .slotKey _ _ c => c.wf
  | .signerKey _ _ c => c.wf
  | .scArmTrue _ _ c => c.wf
  | .scArmFalse _ _ c => c.wf
  | .loopMode _ _ c => c.wf
  | .axCommandHome _ _ c => c.wf
  | .axCommandStopRamp _ _ c => c.wf
  | .axCommandStopHard _ _ c => c.wf
  | .canRecoverBusOff _ _ c => c.wf
  | .canRecoverCollision _ _ c => c.wf
  | .presenceKey _ _ => true
  | .presenceWindowExpiry _ => true
  | .startup _ _ => true
  | .powerFail _ margin _ => decide (margin < 2 ^ 16)
  | .fuseTrip _ _ mv => decide (mv < 2 ^ 16)
  | .fuseReclose _ _ => true
  | .supplyWarning _ _ mv => decide (mv < 2 ^ 16)
  | .supplyWarningClear _ _ mv => decide (mv < 2 ^ 16)
  | .supplyOff _ _ mv => decide (mv < 2 ^ 16)
  | .supplyRecovery _ _ mv => decide (mv < 2 ^ 16)
  | .thermalShutdown _ _ => true
  | .railFault _ _ => true
  | .mgtWatchdog _ => true
  | .counterMirror _ => true
  | .directValueFlashWrite _ => true
  | .sensorSample _ _ => true
  | .humidityLimitExceeded _ => true
  | .phyReadyLost _ => true
  | .bypassRelayOpen _ => true
  | .frameReceived _ _ _ => true
  | .duplicateEntryExpiry _ src hsrSeq => decide (src < 2 ^ 48) && decide (hsrSeq < 2 ^ 16)
  | .supervisionSend _ => true
  | .supervisionFrame _ src => decide (src < 2 ^ 48)
  | .pdInputFrame _ _ => true
  | .pdOutputFrameForwarded _ dst src => decide (dst < 2 ^ 48) && decide (src < 2 ^ 48)
  | .pdOutputSetSend _ _ => true
  | .exchangePeriodEnd _ _ => true
  | .ringCheckSend _ => true
  | .ringCheckTimeout _ => true
  | .rmFrame _ _ node seq op portNo link serial =>
    decide (node < 2 ^ 14) && decide (seq < 2 ^ 24) && decide (op < 2 ^ 8) && decide (portNo < 2 ^ 8)
      && decide (link < 2 ^ 8) && decide (serial < 2 ^ 32)
  | .addressConflictEnd _ => true
  | .linkChange _ _ _ => true
  | .tbSend _ => true
  | .tbFrame _ _ seq _ master rank st =>
    decide (seq < 2 ^ 24) && decide (master < 2 ^ 14) && decide (rank < 2 ^ 8) && decide (st < 2 ^ 8)
  | .servoPeriod _ => true
  | .mastership _ => true
  | .beaconTimeout _ => true
  | .ldSend _ => true
  | .ldFrame _ _ op _ _ _ => decide (op < 2 ^ 8)
  | .engineTick _ => true
  | .loopRelease _ _ => true
  | .cadTimeout _ _ => true
  | .taskRelease _ _ => true
  | .reg _ _ op dst a b ty =>
    decide (op < 2 ^ 8) && decide (dst < 32) && decide (a < 32) && decide (b < 32) && decide (1 ≤ ty)
      && decide (ty ≤ 13)
  | .imm _ _ op dst x => decide (op < 2 ^ 8) && decide (dst < 32) && decide (x < 2 ^ 15)
  | .frameLoad _ _ w base off => decide (w < 2 ^ 5) && decide (base < 2 ^ 2) && decide (off < 2 ^ 17)
  | .frameStore _ _ w base off => decide (w < 2 ^ 5) && decide (base < 2 ^ 2) && decide (off < 2 ^ 17)
  | .frameLoadAddress _ _ w base off => decide (w < 2 ^ 5) && decide (base < 2 ^ 2) && decide (off < 2 ^ 17)
  | .pointReadValue _ _ w point => decide (w < 2 ^ 5) && decide (point < 2 ^ 18)
  | .pointReadQuality _ _ w point => decide (w < 2 ^ 5) && decide (point < 2 ^ 18)
  | .pointReadTimestamp _ _ w point => decide (w < 2 ^ 5) && decide (point < 2 ^ 18)
  | .pointWriteValue _ _ w point => decide (w < 2 ^ 5) && decide (point < 2 ^ 18)
  | .branch _ _ cond w disp => decide (cond < 2 ^ 4) && decide (w < 2 ^ 5) && decide (disp < 2 ^ 19)
  | .callUserBlock _ _ desc => decide (desc < 2 ^ 26)
  | .callRomBlock _ _ desc => decide (desc < 2 ^ 26)
  | .callFunction _ _ desc => decide (desc < 2 ^ 26)
  | .ext _ _ bits => decide (bits < 2 ^ 28)
  | .sysReturn _ _ arg => decide (arg < 2 ^ 20)
  | .sysEndOfCycle _ _ arg => decide (arg < 2 ^ 20)
  | .sysTrap _ _ arg => decide (arg < 2 ^ 20)
  | .ton _ _ inst _ _ => decide (inst < 2 ^ 22)
  | .tof _ _ inst _ _ => decide (inst < 2 ^ 22)
  | .tp _ _ inst _ _ => decide (inst < 2 ^ 22)
  | .rTrig _ _ inst _ => decide (inst < 2 ^ 22)
  | .fTrig _ _ inst _ => decide (inst < 2 ^ 22)
  | .ctu _ _ inst _ _ _ => decide (inst < 2 ^ 22)
  | .ctd _ _ inst _ _ _ => decide (inst < 2 ^ 22)
  | .ctud _ _ inst _ _ _ _ _ => decide (inst < 2 ^ 22)
  | .sr _ _ inst _ _ => decide (inst < 2 ^ 22)
  | .rs _ _ inst _ _ => decide (inst < 2 ^ 22)
  | .canRecv _ _ port buf => decide (port < 8) && decide (buf < 128)
  | .canSend _ _ port buf id data =>
    decide (port < 8) && decide (buf < 128) && decide (id < 2 ^ 29) && decide (data.length ≤ 64)
  | .canStateRecover _ _ port => decide (port < 8)
  | .canStateReenable _ _ port => decide (port < 8)
  | .emergencyStopBlock _ _ f => decide (f < 44)
  | .guardInterlockBlock _ _ f => decide (f < 44)
  | .twoHandControlBlock _ _ f => decide (f < 44)
  | .lightCurtainBlock _ _ f => decide (f < 44)
  | .soStatusBlock _ _ k => decide (k < 8)
  | .downstreamFrame _ _ _ => true
  | .upstreamFrame _ _ _ _ supplyMv currentMa _ curMa =>
    decide (supplyMv < 2 ^ 16) && decide (currentMa < 2 ^ 16) && decide (curMa < 2 ^ 16)
  | .linkResync _ _ => true
  | .linkSilence _ _ => true
  | .diEdgeAccepted _ _ mv _ => decide (mv < 2 ^ 16)
  | .outputTrip _ _ _ => true
  | .outputRetry _ _ _ => true
  | .bankOverload _ _ ma => decide (ma < 2 ^ 16)
  | .bankOverloadRestore _ _ => true
  | .restoreGroup _ _ => true
  | .openLoad _ _ ma => decide (ma < 2 ^ 16)
  | .externalDrive _ _ mv => decide (mv < 2 ^ 16)
  | .bankSupplyOff _ _ mv => decide (mv < 2 ^ 16)
  | .bankRestore _ _ mv => decide (mv < 2 ^ 16)
  | .bicReset _ _ mv => decide (mv < 2 ^ 16)
  | .timedEdge _ _ => true
  | .pulseEnd _ _ => true
  | .aioConversion _ _ _ _ => true
  | .aoUpdate _ _ => true
  | .aioLinkFrame _ _ _ _ _ _ => true
  | .aioLinkSilence _ _ => true
  | .aoCondition _ _ _ _ => true
  | .readbackMismatch _ _ => true
  | .partnerMismatch _ _ _ => true
  | .motionTick _ => true
  | .limitInputQualified _ _ _ _ _ => true
  | .homeTimeout _ _ => true
  | .holdDelay _ _ => true
  | .driveFault _ _ _ => true
  | .driveRetry _ _ _ => true
  | .driveLinkSilence _ _ => true
  | .canFrameReceived _ _ _ => true
  | .canFrameSent _ _ => true
  | .canError _ _ _ _ _ => true
  | .busOffRecoveryComplete _ _ => true
  | .canCyclicTrigger _ _ _ => true
  | .canRxTimeout _ _ _ => true
  | .autobaudDwell _ _ => true
  | .encoderEdge _ _ _ => true
  | .mainsZeroCrossing _ _ _ codes _ => codes.all (fun n => decide (-32768 ≤ n) && decide (n < 32768))
  | .encoderStill _ _ => true
  | .trackerSourceLoss _ _ => true
  | .coastExpiry _ _ => true
  | .slotFire _ _ => true
  | .scCommand _ _ => true
  | .scPulseEnd _ _ => true
  | .scArmTimeout _ _ => true
  | .safetyCommit _ _ => true
  | .passBStart _ => true
  | .passOverrun _ => true
  | .scuCompare _ _ _ => true
  | .token _ tok => decide (tok < 2 ^ 64)
  | .tokenMissing _ => true
  | .safetyConfigStart _ => true
  | .siAccepted _ _ _ _ => true
  | .testPulseDark _ _ => true
  | .testPulseCheck _ _ _ => true
  | .blankEnd _ _ => true
  | .tpOverload _ _ => true
  | .tpRetry _ _ _ => true
  | .tpTakeover _ _ => true
  | .offTest _ _ _ => true
  | .offTestEnd _ _ _ _ => true
  | .soOvercurrent _ _ => true
  | .soExternalDrive _ _ _ => true
  | .feedbackTimeout _ _ => true
  | .hbPulseSend _ => true
  | .hbPulse _ => true
  | .heartbeatLoss _ => true
  | .precFrame _ claim => decide (claim < 2 ^ 16)
  | .arbitrationWon _ => true
  | .standbyRecordTimeout _ => true
  | .helloSend _ => true
  | .hello _ _ => true
  | .input _ seq _ => decide (seq < 2 ^ 32)
  | .tick _ seq _ digest => decide (seq < 2 ^ 32) && decide (digest < 2 ^ 64)
  | .task _ seq _ => decide (seq < 2 ^ 32)
  | .ack _ seq result => decide (seq < 2 ^ 32) && decide (result < 2 ^ 8)
  | .ackTimeout _ seq => decide (seq < 2 ^ 32)
  | .remoteSetMissing _ seq => decide (seq < 2 ^ 32)
  | .copy _ seq _ _ => decide (seq < 2 ^ 32)
  | .copyTimeout _ => true
  | .copyRetry _ => true
  | .handover _ seq lastSeq trigger => decide (seq < 2 ^ 32) && decide (lastSeq < 2 ^ 32) && decide (trigger < 2 ^ 8)
  | .change _ seq _ => decide (seq < 2 ^ 32)
  | .autoSwitchover _ => true
  | .fclFrameSend _ => true
  | .fclFrame _ chip claim => decide (chip < 40) && decide (claim < 2 ^ 16)
  | .presChanged _ _ => true
  | .sramCorrectedError _ _ => true
  | .sramUncorrectableError _ _ _ => true
  | .sramScrub _ => true
  | .recordWrite _ _ _ => true
  | .bankResyncComplete _ => true
  | .busIntegrated _ _ => true
  | .channelChipReinitialised _ _ => true
  | .masterSlewEnd _ => true
  | .arbitrationFclCheckEnd _ => true

end Sys2Proof
end

