-- ==== Sys2Proof/Tests/Slice0.lean ====
section
/-! SUPPORT. The model's own tests: values worked out from the manual, ill-formed commands for each check, and for every
statement with hypotheses states and operands that meet them together. -/

set_option Elab.async false

namespace Sys2Proof.Tests

open Sys2Proof.Machine

/-- The module runs: every domain is on. -/
def live : State := { State.reset with pwr := { State.reset.pwr with phase := .up, domains := 0xFFF } }

/-- Session 0 ACTIVE on SVC in a role, without tags, its next SEQUENCE 1. -/
def inRole (r : Nat) (s : State) : State :=
  { s with sess := { s.sess with sessions := [(0, { state := 2, role := r, path := 2 })] } }

/-- Session 0 holds the leases of some areas for 50 s. -/
def leased (areas : List Nat) (s : State) : State :=
  { s with sess := { s.sess with leases := areas.map (fun a => ⟨a, 0, 50000000000⟩) } }

/-- The header of session 0's first request. -/
def hdr1 : Hdr := { seq := 1 }

/-- A WRITE of session 0 with the data a row leaves to its operands. -/
def cmd1 (rest : List Byte) : Cmd := { hdr := hdr1, rest := rest }

/-- A forme without tasks. -/
def emptyForme : Forme := {}

/-- The module as node 5 of the ring, in a discipline state. -/
def asNode (d : Disc) : State :=
  { live with config := [(objKey 0x1800 1, [5, 0])], clk := { live.clk with state := d },
              ring := { live.ring with t1Up := true, t2Up := true } }

/-- A forme with one cyclic task of 10 ms at word 0. -/
def smallForme : Forme := { id := 7, tasks := [{ kind := 1, priority := 1, periodUs := 10000 }], code := [0] }

/-- A mode of the module, with `smallForme` loaded. -/
def inMode (m : Mode) (s : State) : State := { s with prog := { s.prog with mode := m, forme := some smallForme } }

/-- A project signer key, and an image of the one byte 0 signed under it: both factors of the verification are 1. -/
def testKey : List Byte :=
  (leBytes 32 0x82ac2eec7a72ac40bc4bbd8b885530620755e3ac4e15d121c491ab4e9257f108).reverse ++
  (leBytes 32 0x2158d1a997b199ebfdcb727bb977b8be8f9f27f7e5c7c60c61fbbea43f0e7de9).reverse
def testSig : List Byte :=
  (leBytes 32 0x6e340b9cffb37a989ca544e6bb780a2c78901d3fb33738768511a30617afa01d).reverse ++
  (leBytes 32 0x6e340b9cffb37a989ca544e6bb780a2c78901d3fb33738768511a30617afa01d).reverse
def bulked (s : State) : State :=
  { s with config := [(objKey 0xB000 0x20, testKey)]
           sess := { s.sess with bulkLen := 65, bulk := Memory.norm ((List.range 65).zip (0 :: testSig)) } }

abbrev modeData : List Byte := [0xFF, 0, 0, 0, 0, 0, 0]

theorem witness_completes : ∃ u, exec (.hbPulseSend 5) live = .next u := ⟨_, rfl⟩

theorem witness_sound : Sound { live with pending := [.hbPulseSend 5] } ∧ ∃ u, step { live with pending := [.hbPulseSend 5] } = .next u :=
  ⟨by constructor <;> decide +kernel, _, rfl⟩

theorem witness_retired :
    ((∀ n c, Instr.hbPulseSend 5 ≠ .readmit n c) ∧ (∀ n h idx sub ty off d, Instr.hbPulseSend 5 ≠ .writeObject n h idx sub ty off d) ∧
      ∀ n env, Instr.hbPulseSend 5 ≠ .startup n env) ∧
    ∃ u, exec (.hbPulseSend 5) { live with retired := [⟨1, 3, 0, false⟩], sram := { live.sram with remapped := [7] } } = .next u :=
  ⟨⟨fun _ _ => nofun, fun _ _ _ _ _ _ _ => nofun, fun _ _ => nofun⟩, _, rfl⟩

theorem witness_open :
    (let s := { live with config := [(objKey 0x1000 8, [1])] }
     answers (advance 5 s) .svc = true ∧ s.sess.force = none ∧ (List.replicate 16 (0 : Byte)).length = 16 ∧ freeSession (found 5 s) = some 0 ∧
       cfgBool (found 5 s) 0x1000 8 = true) ∧
    (let s := { live with
       config := [(objKey 0x1203 1, [0x3E]), (objKey 0x1203 2, [3])]
       sess := { live.sess with slots := [(3, { key := some (List.replicate 32 1) })] } }
     let v := found 5 s
     answers (advance 5 s) .svc = true ∧ s.sess.force = none ∧ freeSession v = some 0 ∧ slotLocked v 3 = false ∧ (getSlot v 3).key.isSome = true ∧
       bitOf (cfgNat v (0x1200 + 3) 1) 3 = true ∧ bitOf (cfgNat v (0x1200 + 3) 2) (2 - 1) = true) := by decide +kernel

theorem witness_auth :
    let s := { live with sess := { live.sess with sessions := [(0, { state := 1, role := 3, path := 2, slot := 3 })] } }
    let v := found 5 s
    answers (advance 5 s) .svc = true ∧ s.sess.force = none ∧ (getSession v 0).state = 1 ∧ [] ≠ hostProof (sessionKey v (getSession v 0)) (getSession v 0) := by
  decide +kernel

theorem witness_session :
    (let v := found 5 (inRole 3 live)
     (getSession v 0).enrol = false ∧ heard v hdr1 svcKeepalive [] = true ∧ heard v hdr1 svcClose [] = true ∧
       heard v hdr1 svcTxnBegin [] = true ∧ (getSession v 0).role ≠ roleObserver ∧ (getSession v 0).txn = none) ∧
    (let v := found 5 (modSession 0 (fun x => { x with txn := some {} }) (inRole 3 live))
     heard v hdr1 svcTxnAbort [] = true ∧ (getSession v 0).role ≠ roleObserver ∧ (getSession v 0).txn.isSome = true ∧
       (getSession v 0).enrol = false) := by decide +kernel

theorem witness_timeouts :
    (let s := inRole 3 live
     (getSession s 0).state = 2 ∧ (getSession s 0).lastValid + 60000000000 ≤ (advance 60000000000 s).now) ∧
    (let s := modSession 0 (fun x => { x with state := 1 }) (inRole 3 live)
     (getSession s 0).state = 1 ∧ (getSession s 0).openedAt + 10000000000 ≤ (advance 10000000000 s).now) ∧
    (let s := modSlot 2 (fun x => { x with lockedUntil := some 4 }) live
     (getSlot s 2).lockedUntil = some 4 ∧ 4 ≤ (advance 5 s).now) ∧
    (let s := leased [0x3000] live
     ⟨0x3000, 0, 50000000000⟩ ∈ s.sess.leases ∧ 50000000000 ≤ (advance 50000000000 s).now ∧
       s.sess.kept.contains (0x3000, 0) = false) ∧
    (let s := modSession 0 (fun x => { x with txn := some { prepared := some (1, 4) } }) (inRole 3 live)
     (getSession s 0).txn = some { prepared := some (1, 4) } ∧ 4 ≤ (advance 5 s).now) ∧
    (let s := { live with sess := { live.sess with presence := some 4 } }
     s.sess.presence = some 4 ∧ 4 ≤ (advance 5 s).now) := by decide +kernel

theorem witness_lease :
    (let s := inRole 3 live
     let d : List Byte := [0, 0x00, 0x30, 0xE8, 3, 0, 0]
     let v := served (found 5 s) 0
     writeHeard (found 5 s) (cmd1 d) 0xF008 1 [1] = true ∧ fieldAt (1 :: d) 2 2 = 0x3000 ∧
       areaMap.any (fun r => r.1 == fieldAt (1 :: d) 2 2) = true ∧ fieldAt (1 :: d) 4 4 = 1000 ∧ leaseOf v 0x3000 = none ∧
       v.sess.leases.length < 16) ∧
    (let s := leased [0x3000] (inRole 3 live)
     let d : List Byte := [0, 0x00, 0x30, 0x60, 0xEA, 0, 0]
     let v := served (found 5 s) 0
     writeHeard (found 5 s) (cmd1 d) 0xF008 1 [2] = true ∧ writeHeard (found 5 s) (cmd1 d) 0xF008 1 [3] = true ∧
       fieldAt (2 :: d) 2 2 = 0x3000 ∧ fieldAt (2 :: d) 4 4 = 60000 ∧ areaMap.any (fun r => r.1 == 0x3000) = true ∧
       (leaseOf v 0x3000).map Lease.holder = some 0 ∧ (getSession v 0).txn = none) := by decide +kernel

theorem witness_bulk :
    (let s := leased [0xF000] (inRole 3 live)
     writeHeard (found 5 s) (cmd1 [16, 0, 0, 0]) 0xF000 2 [] = true) ∧
    (let s0 := leased [0xF000] (inRole 3 live)
     let s := { s0 with sess := { s0.sess with bulkLen := 16 } }
     writeHeard (found 5 s) { cmd1 [1, 2] with off := 14 } 0xF000 1 [] = true ∧
       14 ≤ 15 ∧ 15 < 14 + ([1, 2] : List Byte).length) := by decide +kernel

/-- The presence window is open, and session 0 a Maintainer's. -/
def present : State :=
  let s := leased [0x1000, 0xB000] (inRole 4 live)
  { s with sess := { s.sess with presence := some 99 } }

theorem witness_keys :
    writeHeard (found 5 present) (cmd1 (List.replicate 32 1)) 0x1203 5 [] = true ∧
    writeHeard (found 5 present) (cmd1 (List.replicate 64 1)) 0xB000 0x21 [] = true ∧ up live = true := by decide +kernel

theorem witness_readWrite :
    (let v := found 5 (inRole 1 live)
     heard v hdr1 svcRead (objFields 0x1000 3 0 0 4) = true ∧
       (checkRead (taken v 0) 0x1000 3 0 0 4 matches .ok _) = true) ∧
    (let s := leased [0x4000] (inRole 3 live)
     writeHeard (found 5 s) (cmd1 [0, 0, 0, 0]) 0x4005 0x1B [] = true ∧
       writeHeard (found 5 s) (cmd1 [0, 0, 0, 0]) 0x4005 0x1C [] = true ∧
       writeHeard (found 5 s) (cmd1 [1]) 0x4005 0x1A [] = true ∧ leVal ([1] : List Byte) ≠ 2) ∧
    (let s := leased [0x4000] (modSession 0 (fun x => { x with txn := some {} }) (inRole 3 live))
     let v := served (found 5 s) 0
     heard (found 5 s) hdr1 svcWrite (objFields 0x4005 0x12 0 0 4 ++ [0, 0, 0, 0]) = true ∧
       (checkWrite v 0 0x4005 0x12 0 0 [0, 0, 0, 0] matches .ok _) = true ∧ alwaysDirect 0x4005 0x12 = false ∧
       (getSession v 0).enrol = false ∧ (getSession v 0).txn = some {} ∧ stagingFull v 0 4 = false) := by decide +kernel

theorem witness_modeSet :
    (let s := inMode .run (inRole 3 live)
     writeHeard (found 5 s) (cmd1 modeData) 0xF001 1 [0] = true ∧ modeArgs (0 :: modeData) = none ∧
       isStandby (served (found 5 s) 0) = false) ∧
    (let s := leased [0x2400] (inMode .stop (inRole 3 live))
     writeHeard (found 5 s) (cmd1 modeData) 0xF001 1 [1] = true ∧ modeArgs (1 :: modeData) = none ∧
       isStandby (served (found 5 s) 0) = false ∧ (getCmd (served (found 5 s) 0) 1).status ≠ 1 ∧
       (served (found 5 s) 0).pair.state ≠ .conflict ∧ (served (found 5 s) 0).prog.mode = .stop ∧ (served (found 5 s) 0).prog.forme.isSome = true) ∧
    (let s := leased [0x2400] (inMode .run (inRole 3 live))
     let d : List Byte := [0xFF, 0, 0, 0xC0, 0x27, 9, 0]
     writeHeard (found 5 s) (cmd1 d) 0xF001 1 [2] = true ∧ modeArgs (2 :: d) = none ∧
       isStandby (served (found 5 s) 0) = false ∧ (getCmd (served (found 5 s) 0) 1).status ≠ 1 ∧
       (served (found 5 s) 0).pair.state ≠ .conflict ∧ (served (found 5 s) 0).prog.mode = .run) ∧
    (let s := leased [0x2400] (inMode .hold (inRole 3 live))
     let d : List Byte := [0, 0, 0, 0, 0, 0, 0]
     writeHeard (found 5 s) (cmd1 d) 0xF001 1 [3] = true ∧ modeArgs (3 :: d) = none ∧
       isStandby (served (found 5 s) 0) = false ∧ (getCmd (served (found 5 s) 0) 1).status ≠ 1 ∧
       (served (found 5 s) 0).pair.state ≠ .conflict ∧ (served (found 5 s) 0).prog.mode = .hold ∧ taskUsed (served (found 5 s) 0) (fieldAt (3 :: d) 1 1) = true ∧
       (getTask (served (found 5 s) 0) (fieldAt (3 :: d) 1 1)).cycle = none) := by decide +kernel

theorem witness_modesChange :
    (let s := { inMode .stop live with prog := { (inMode .stop live).prog with runDue := true } }
     appUp s = true ∧ s.pair.state ≠ .conflict ∧ s.prog.runDue = true ∧ s.prog.mode = .stop ∧ s.prog.forme.isSome = true ∧
       boundarySince (advance 1000000000 s) s.prog.runSince = true) ∧
    (let s := inMode .hold live
     s.prog.mode = .hold ∧ s.prog.holdUntil ≤ (advance 0 s).now) ∧
    (let s := modTask 47 (fun x => { x with cycle := some { step := true } }) live
     (getTask s (47 : Fin 48)).cycle = some { step := true } ∧ 0 + 1000000000 ≤ (advance 1000000000 s).now) ∧
    (let s0 := inMode .run live
     let s := { s0 with sess := { s0.sess with pending := some ⟨0, [], 0⟩ } }
     boundarySince (advance 10000000 s) 0 = false ∧
     appUp s = true ∧ s.prog.mode = .run ∧ swapHeld (advance 10000000 s) = false ∧ (taskDef s 0).kind = 1 ∧ (getTask s 0).cycle = none ∧
       (getTask s 0).lastGrid ≠ some (gridAt (advance 10000000 s) (taskPeriod s 0))) := by decide +kernel

theorem witness_onlineChange :
    (let s := leased [0x2400, 0xF000] (bulked (inMode .run (inRole 3 live)))
     writeHeard (found 5 s) (cmd1 (List.replicate 7 0)) 0xF002 1 [1] = true ∧ writeHeard (found 5 s) (cmd1 (List.replicate 7 0)) 0xF002 1 [2] = true ∧
       isStandby (served (found 5 s) 0) = false ∧ (getCmd (served (found 5 s) 0) 2).status ≠ 1 ∧
       (served (found 5 s) 0).sess.pending = none ∧ (served (found 5 s) 0).sess.change = none ∧
       bulkSigned (served (found 5 s) 0) = true) ∧
    (let s0 := leased [0x2400, 0xF000] (inMode .run (inRole 3 live))
     let s := { s0 with prog := { s0.prog with oc := { state := .waiting } } }
     writeHeard (found 5 s) (cmd1 (List.replicate 7 0)) 0xF002 1 [3] = true ∧ isStandby (served (found 5 s) 0) = false ∧
       (served (found 5 s) 0).prog.oc.state = .waiting) ∧
    (let s0 := inMode .run live
     let s := { s0 with prog := { s0.prog with oc := { state := .preparing, op := 1, forme := some emptyForme } } }
     verifyForme (advance 5 s) emptyForme = none ∧ isPairUnit s = false ∧ s.prog.oc.partnerAbort = none ∧
       s.prog.mode = .run) ∧
    (∀ m ∈ [Mode.run, .stop], let s0 := inMode m live
     let s := { s0 with prog := { s0.prog with oc := { state := .waiting, op := 1, forme := some emptyForme } } }
     boundarySince (advance 1000000000 s) s.prog.oc.since = true ∧ quiet s = true ∧ isStandby s = false ∧ s.prog.mode = m) := by decide +kernel

theorem witness_timeRestep :
    (let s := leased [0x2200] (inRole 3 { live with clk := { live.clk with state := .slewing } })
     writeHeard (found 5 s) (cmd1 (List.replicate 15 0)) 0xF004 1 [1] = true ∧
       fieldAt (1 :: List.replicate 15 0) 8 8 = 0 ∧
       (served (found 5 s) 0).clk.state = .slewing) ∧
    (let s := leased [0x2200] (inRole 3 { live with clk := { live.clk with state := .master } })
     writeHeard (found 5 s) (cmd1 (List.replicate 15 0)) 0xF004 1 [2] = true ∧
       (served (found 5 s) 0).clk.state = .master) := by decide +kernel

theorem witness_timeUnit :
    (let s := asNode .free
     up s = true ∧ domainOn s 7 = true ∧ nodeAddress s ≠ 2 ∧ s.clk.state = .free) ∧
    (let s := asNode .master
     originatesAll s = true ∧ s.clk.state = .master) ∧
    (let s := { asNode .locked with clk := { (asNode .locked).clk with samples := [1000000] } }
     up s = true ∧ domainOn s 7 = true ∧ s.clk.state = .locked ∧ s.clk.copy = none ∧
       (acceptSamples (advance 5 s)).1 ≠ [] ∧ meanInt (acceptSamples (advance 5 s)).1 = 1000000) ∧
    (let s := { asNode .free with config := [(objKey 0x1800 1, [5, 0]), (objKey 0x2200 1, [100])] }
     originatesAll s = true ∧ timeRank s ≠ 255 ∧ s.clk.state ≠ .master ∧
       s.clk.lastBetter + 250000000 ≤ (advance 250000000 s).now) ∧
    (let s := { asNode .locked with clk := { (asNode .locked).clk with lastBeacon := some 0 } }
     s.clk.lastBeacon = some 0 ∧ up s = true ∧ s.clk.state = .locked ∧ 0 + 500000000 ≤ (advance 500000000 s).now) ∧
    (originatesAll (asNode .free) = true ∧ (asNode .free).ring.t1Up = true ∧ (asNode .free).ring.t2Up = true) ∧
    (let s := { asNode .master with clk := { (asNode .master).clk with slewLeft := 1, slewUntil := 5 } }
     s.clk.state = .master ∧ s.clk.slewLeft ≠ 0 ∧ s.clk.slewUntil ≤ (advance 5 s).now) := by decide +kernel

/-- Session 0 holds a transaction. -/
def staging (tx : Txn) (s : State) : State := modSession 0 (fun x => { x with txn := some tx }) s

/-- A transaction that stages `START_MODE`. -/
def startModeTo (m : Byte) : Txn := { writes := [⟨objKey 0x2000 2, 0, [m]⟩] }

/-- A transaction that stages a mapping record no rule allows. -/
def badRecord : Txn := { writes := [⟨objKey 0x2900 1, 0, List.replicate 16 1⟩] }

theorem witness_configCommit :
    (let s := staging (startModeTo 2) (leased [0x2000] (inRole 3 live))
     writeHeard (found 5 s) (cmd1 (List.replicate 7 0)) 0xF007 1 [1] = true ∧
       commitRefused (1 :: List.replicate 7 0) 0 (served (found 5 s) 0) = none ∧
       checkTxn (served (found 5 s) 0) 0 (txnOf (served (found 5 s) 0) 0).writes = none) ∧
    (let s := staging (badRecord) (leased [0x2800] (inRole 3 live))
     writeHeard (found 5 s) (cmd1 (List.replicate 7 0)) 0xF007 1 [1] = true ∧
       commitRefused (1 :: List.replicate 7 0) 0 (served (found 5 s) 0) = none ∧
       (checkTxn (served (found 5 s) 0) 0 (txnOf (served (found 5 s) 0) 0).writes).isSome = true) ∧
    (let s := staging (startModeTo 2) (leased [0x2000] (inRole 5 live))
     writeHeard (found 5 s) (cmd1 (List.replicate 7 0)) 0xF007 1 [2] = true ∧
       commitRefused (2 :: List.replicate 7 0) 0 (served (found 5 s) 0) = none ∧
       checkTxn (served (found 5 s) 0) 0 (txnOf (served (found 5 s) 0) 0).writes = none ∧
       checkSafety (resultOf (served (found 5 s) 0) (txnOf (served (found 5 s) 0) 0).writes) = none) ∧
    (let s := staging { startModeTo 2 with prepared := some (9, 5) } (leased [0x2000] (inRole 5 live))
     let d : List Byte := [0, 0, 0, 9, 0, 0, 0]
     writeHeard (found 5 s) (cmd1 d) 0xF007 1 [3] = true ∧ commitRefused (3 :: d) 0 (served (found 5 s) 0) = none ∧
       checkTxn (served (found 5 s) 0) 0 (txnOf (served (found 5 s) 0) 0).writes = none ∧
       checkSafety (resultOf (served (found 5 s) 0) (txnOf (served (found 5 s) 0) 0).writes) = none ∧
       outputsOn (served (found 5 s) 0) = 0 ∧ fieldAt (3 :: d) 4 4 = 9 ∧ (served (found 5 s) 0).now ≤ 5 ∧
       (txnOf (served (found 5 s) 0) 0).prepared = some (9, 5)) := by decide +kernel

theorem witness_configApply :
    (let s := { live with sess := { live.sess with pending := some ⟨0, (startModeTo 2).writes, 0⟩ } }
     s.sess.pending = some ⟨0, (startModeTo 2).writes, 0⟩ ∧ up s = true ∧ s.prog.mode = .stop ∧
       (∀ e ∈ (stagedObjs (startModeTo 2).writes).filter (fun e => decide (keyAcc e.1 ≠ .rws)), directKey e.1 = false)) ∧
    (let s := inMode .run { live with sess := { live.sess with pending := some ⟨0, [], 0⟩ } }
     s.sess.pending = some ⟨0, [], 0⟩ ∧ up s = true ∧ s.prog.mode ≠ .stop ∧
       boundarySince (advance 999999999 s) 0 = false ∧ boundarySince (advance 1000000000 s) 0 = true) ∧
    live.sess.pending = none := by decide +kernel

/-- A FORME record for the BOOL points 16 and 17 of the image. -/
def mapped (s : State) : State :=
  { s with config := [(objKey 0x2900 1, [7, 1, 0, 0, 16, 0, 0, 0, 2, 0, 0, 0, 0, 0, 0, 0])] }

theorem witness_forces :
    (let s := mapped (leased [0x2800] (inRole 3 live))
     let d : List Byte := [0, 0, 0, 17, 0, 0, 0, 1, 0, 0, 0, 0, 0, 0, 0]
     writeHeard (found 5 s) (cmd1 d) 0xF009 1 [1] = true ∧ fieldAt (1 :: d) 4 4 < 2 ^ 18 ∧
       unforceable (served (found 5 s) 0) (fieldAt (1 :: d) 4 4) = false ∧ fieldAt (1 :: d) 8 4 ≤ 1 ∧
       (served (found 5 s) 0).img.forces.length < 256) ∧
    (let s := mapped (leased [0x2800] (inRole 3 { live with img := { forces := [⟨17, 1, 0⟩] } }))
     let d : List Byte := [0, 0, 0, 17, 0, 0, 0, 0, 0, 0, 0, 0, 0, 0, 0]
     writeHeard (found 5 s) (cmd1 d) 0xF009 1 [2] = true ∧ fieldAt (2 :: d) 4 4 < 2 ^ 18 ∧
       writeHeard (found 5 s) (cmd1 d) 0xF009 1 [3] = true) ∧
    (let r : ForceReq := { op := 1, point := 17, value := 1, ready := some 4 }
     let s := mapped (inRole 3 { live with sess := { live.sess with force := some r } })
     s.sess.force = some r ∧ unforceable s r.point = false ∧ unforceable { s with config := [] } r.point = true ∧
       up (advance 125000 s) = true ∧ (advance 125000 s).eng.lastTick ≠ gridAt (advance 125000 s) 125000 ∧
       (advance 125000 s).prog.mode = .stop ∧ s.sess.waiting = [] ∧
       forceReady (advance 125000 s) r (gridAt (advance 125000 s) 125000) = true ∧
       forceReady s r 5 = true ∧ forceReady s r 4 = false ∧
       forceReady s { r with op := 2 } 5 = true ∧ forceReady s { r with op := 3 } 5 = true ∧ (17 : Nat) ≠ 16 ∧
       (getSession (inRole 3 { live with sess := { live.sess with force := some r } }) r.hdr.session).state = 2) := by
  decide +kernel

theorem witness_readmitSnapshot :
    (let s := leased [0x3000] (inRole 4 { live with retired := [⟨1, 95, 0, false⟩] })
     let d : List Byte := [1, 0, 95, 0, 0, 0, 0, 0]
     writeHeard (found 5 s) (cmd1 d) 0xF003 1 [] = true ∧ readmitKind (fieldAt d 0 1) = some (0x30, 95) ∧
       fieldAt d 2 2 ≤ 95 ∧
       ((served (found 5 s) 0).retired.find? (fun r => r.kind == 1 && r.number == 95)) = some ⟨1, 95, 0, false⟩) ∧
    (let s := inRole 4 { live with recd := { live.recd with newest := 1 } }
     writeHeard (found 5 s) (cmd1 [1, 0, 0, 0, 0, 0, 0, 0]) 0xF005 1 [] = true ∧ fieldAt [1, 0, 0, 0, 0, 0, 0, 0] 0 1 = 1 ∧
       (served (found 5 s) 0).recd.newest ≠ 0) := by decide +kernel

theorem witness_domainReset :
    (let s := leased [0x2000] (inRole 4 live)
     writeHeard (found 5 s) (cmd1 [8, 0, 0, 0, 0, 0, 0, 0]) 0xF00A 1 [] = true ∧ (getCmd (served (found 5 s) 0) 0xA).status ≠ 1 ∧
       writeHeard (found 5 s) (cmd1 [11, 0, 0, 0, 0, 0, 0, 0]) 0xF00A 1 [] = true ∧
       writeHeard (found 5 s) (cmd1 [7, 0, 0, 0, 0, 0, 0, 0]) 0xF00A 1 [] = true ∧ isPairUnit (served (found 5 s) 0) = false ∧
       (served (found 5 s) 0).prog.mode = .stop ∧
       writeHeard (found 5 s) (cmd1 [0xFF, 0, 0, 0, 0, 0, 0, 0]) 0xF00A 1 [] = true ∧ fieldAt [0xFF, 0, 0, 0, 0, 0, 0, 0] 0 1 = 0xFF ∧
       (served (found 5 s) 0).pwr.domReset = none) ∧
    (let s := { live with pwr := { live.pwr with domReset := some (7, 0), domains := 0xF7F } }
     s.pwr.domReset = some (7, 0) ∧ up s = true ∧ 0 + 10000000 ≤ (advance 10000000 s).now ∧
       (advance 9999999 s).now < 0 + 10000000) := by decide +kernel

/-- A bundle of no patches, identity 1, and a key under which both factors of its verification are 1. -/
def patchDigest : List Byte := (leBytes 32 0xa6f54cce2e710f2d6e4b94b0768a0893f6ac01272abb84b37a242f0b9c4bbcb7).reverse
def patchImage : List Byte :=
  [0x50, 0x58, 0x50, 0x53, 1, 0, 0x42, 0, 1] ++ List.replicate 23 0 ++ patchDigest ++ patchDigest
def patchKeyBytes : List Byte :=
  (leBytes 32 0x82ffe83bf2b7fd1a560b1351097d8e68f8e310ddf68c40ec2910b40f7351bc).reverse ++
  (leBytes 32 0xa22bbebda4dbb2e35be1eb156eb3f2603ce1588dcdefd17bdebb74c5d1ff0d9c).reverse
def patching : State :=
  let s := leased [0xB000, 0xF000] (inRole 4 live)
  { s with sess := { s.sess with bulkLen := 96, bulk := Memory.norm ((List.range 96).zip patchImage) },
           mgmt := { s.mgmt with patchKey := leVal patchKeyBytes } }

theorem witness_patchSets :
    writeHeard (found 5 patching) (cmd1 (List.replicate 7 0)) 0xF00B 1 [2] = true ∧
      writeHeard (found 5 patching) (cmd1 (List.replicate 7 0)) 0xF00B 1 [1] = true ∧
      patchRefused (served (found 5 patching) 0) = none ∧
      patchCheck (served (found 5 patching) 0).mgmt.patchKey (bulkBytes (served (found 5 patching) 0)) false = none := by
  decide +kernel

/-- The module without logic power. -/
def noPower : State := { State.reset with pwr := { State.reset.pwr with phase := .off } }

theorem witness_powerFailsStarts :
    startDue {} (advance 0 State.reset) = true ∧
      (let hot := { State.reset with pwr := { State.reset.pwr with phase := .restart 5 } }
       startDue { dieTenths := 1099 } (advance 0 hot) = true ∧ startDue { dieTenths := 1100 } (advance 0 hot) = false) ∧ startDue { t1Mv := 38001, t2Mv := 0 } (advance 0 noPower) = true ∧
      startDue { t1Mv := 38000, t2Mv := 38000 } (advance 0 noPower) = false ∧ live.pwr.phase = .up ∧
      ((1251 : Int) > 1250) := by decide +kernel

theorem witness_supplies :
    up live = true ∧ live.pwr.t1Fuse = false ∧ live.pwr.t2Fuse = false ∧
    (let s := { live with pwr := { live.pwr with t1Fuse := true, t2Fuse := true } }
     up s = true ∧ s.pwr.t1Fuse = true ∧ s.pwr.t2Fuse = true ∧ s.pwr.fuseAtT1 + 1000000000 ≤ (advance 1000000000 s).now ∧
       s.pwr.fuseAtT2 + 1000000000 ≤ (advance 1000000000 s).now) ∧
    (warns .t1 35999 = true ∧ warned live.pwr .t1 = false ∧ warns .fsb 19199 = true ∧ warns .msHigh 52001 = true) ∧
    (let s := { live with pwr := { live.pwr with t2Low := true } }
     up s = true ∧ unwarns .t2 36501 = true ∧ warned s.pwr .t2 = true) ∧
    (15999 < 16000 ∧ live.pwr.fsaOff = false ∧ live.pwr.fsbOff = false ∧ live.pwr.msOffLow = false ∧
      live.pwr.msOffHigh = false) ∧
    (let s := { live with pwr := { live.pwr with fsaOff := true, fsbOff := true, msOffLow := true, msOffHigh := true, relayOpen := true } }
     up s = true ∧ 18000 < 18001 ∧ s.pwr.fsaOff = true ∧ s.pwr.fsbOff = true ∧ s.pwr.msOffLow = true ∧
       s.pwr.msOffHigh = true ∧ s.pwr.relayOpen = true) ∧
    (domainOn live 7 = true ∧ live.pwr.relayOpen = false ∧ relayRested (advance 5 live) = true) := by decide +kernel

theorem witness_management :
    up live = true ∧
    (let s := { live with mgmt := { live.mgmt with humidSince := some 0 } }
     up s = true ∧ s.mgmt.humidSince = some 0 ∧ s.mgmt.humidDone = false ∧ 0 + 60000000000 ≤ (advance 60000000000 s).now) ∧
    (let s := { live with sess := { live.sess with flashDue := [(objKey 0xB000 7, 0)] } }
     up s = true ∧ (s.sess.flashDue.any (fun e => e.1 == objKey 0xB000 7)) = true) := by decide +kernel

/-- The module as node 5 with its relay open. -/
def onRingNow : State := { asNode .free with pwr := { live.pwr with relayOpen := true } }

/-- A good process-data frame to all stations. -/
def goodFrame : Frame := { dst := macPdIn, src := macOf 9, hsrSeq := 3, fcsOk := true, hornpipe := true, version := 1, kind := 5 }

theorem witness_switch :
    (up onRingNow = true ∧ domainOn onRingNow 7 = true ∧ onRingNow.pwr.relayOpen = true ∧ nodeAddress onRingNow = 5) ∧
    (let f : Frame := { goodFrame with fcsOk := false }
     f.fcsOk = false ∧ ownFrame onRingNow f = false ∧ f.dst ≠ macLd) ∧
    ({ goodFrame with src := macOf 5 } : Frame).src = 0x02E960000000 + nodeAddress onRingNow ∧
    (goodFrame.fcsOk = true ∧ ownFrame onRingNow goodFrame = false ∧ goodFrame.hornpipe = true ∧ goodFrame.version = 1 ∧
      1 ≤ goodFrame.kind ∧ goodFrame.kind ≤ 5 ∧ toModule onRingNow goodFrame.dst = true ∧ goodFrame.dst ≠ macLd ∧
      dupOf (advance 5 onRingNow) goodFrame.src goodFrame.hsrSeq = none) ∧
    (let e : DupEntry := ⟨macOf 9, 3, 0, .t2⟩
     let s := { onRingNow with ring := { onRingNow.ring with dups := [e] } }
     dupOf (advance 399999999 s) (macOf 9) 3 = some e ∧ dupOf (advance 400000000 s) (macOf 9) 3 = none ∧
       sameEdge (advance 3 s) .t1 e = true ∧ sameEdge (advance 4 s) .t1 e = false ∧ sameEdge (advance 3 s) .t2 e = false) ∧
    originatesAll onRingNow = true := by decide +kernel

theorem witness_ringChecks :
    (originates onRingNow = true ∧ onRingNow.ring.open_ = false ∧
      onRingNow.ring.lastReturn + 300000000 ≤ (advance 300000000 onRingNow).now) ∧
    (let s := { onRingNow with ring := { onRingNow.ring with checks := [(7, 0)] } }
     up s = true ∧ domainOn s 7 = true ∧ nodeAddress s = 5 ∧ nodeAddress s ≠ 0 ∧
       s.ring.checks.find? (fun c => c.1 == 7 && decide (localNow (advance 300000000 s) ≤ c.2 + 300000000)) = some (7, 0) ∧
       s.ring.checks.find? (fun c => c.1 == 7 && decide (localNow (advance 300001000 s) ≤ c.2 + 300000000)) = none) ∧
    (let s := { onRingNow with ring := { onRingNow.ring with conflict := some 0 } }
     s.ring.conflict = some 0 ∧ 0 + 3000000000 ≤ (advance 3000000000 s).now) := by decide +kernel

/-- A serial number other than the module's exists. -/
theorem witness_otherSerial : ∃ serial, serial ≠ serialNumber := ⟨serialNumber + 1, by omega⟩

/-- Node 9 in class F, one point in from it at 16 and one out to it at 17. -/
def withNode (n : Node) (s : State) : State :=
  { s with
    config := [(objKey 0x1800 1, [5, 0]), (objKey 0x1900 1, [9, 0, 1, 0, 1, 0, 1, 0, 0, 0, 0, 0, 0, 0, 0, 0]),
      (objKey 0x2900 1, [5, 1, 0, 0, 16, 0, 0, 0, 1, 0, 9, 0, 1, 0, 0, 0]),
      (objKey 0x2900 2, [5, 1, 1, 0, 17, 0, 0, 0, 1, 0, 9, 0, 1, 0, 0, 0])]
    ring := { s.ring with nodes := [(0, n)] }, pair := { s.pair with state := .single } }

theorem witness_nodes :
    (let s := withNode { state := .joining } live
     up s = true ∧ domainOn s 7 = true ∧ ringConflict s = false ∧ nodeAddress s ≠ 0 ∧ isStandby s = false ∧
       (nodeRecs s).find? (fun e => e.2.node == 9 && e.2.has 1) = some (0, nodeRec s 0) ∧
       Tbl.get (getNode s 0).partialSets {} 1 = {} ∧ (remotePoints s (nodeRec s 0).node 1 false) = [16] ∧ [16].Nodup ∧
       (getNode s 0).state = .joining ∧
       ((getNode s 0).fresh ||| 2 ^ (1 - 1)) &&& (nodeRec s 0).classes = (nodeRec s 0).classes) ∧
    (let s := withNode { state := .exchanging } { live with ring := { live.ring with t1Up := true } }
     isActive s = true ∧ Tbl.find s.ring.sentAt (1 : Fin 4) ≠ some (gridAt (advance 5 s) (periodOf (1 : Fin 4))) ∧
       ((nodeRecs s).map Prod.fst).Nodup ∧ 0 ∈ (nodeRecs s).map Prod.fst ∧ (nodeRec s 0).has (1 : Fin 4) = true ∧
       (getNode s 0).state = .exchanging) ∧
    (let s := withNode { state := .exchanging, acked := true } { live with ring := { live.ring with t1Up := true } }
     (nodeRec s (0 : Fin 2048)).fastest = some 1 ∧ isActive s = true ∧
       (getNode s 0).ended ≠ some (gridAt (advance 5 s) (periodOf 1)) ∧ (getNode s 0).state = .exchanging ∧
       (s.ring.t1Up || s.ring.t2Up) = true ∧ (getNode s 0).acked = true) ∧
    (let s0 := withNode { state := .exchanging, consecutive := 1, firstSet := some 0 }
       { live with ring := { live.ring with t2Up := true } }
     let s := { s0 with config := (objKey 0x1800 2, [3]) :: s0.config }
     let at_ (s : State) (t : Nat) := setBefore (getNode s 0) 1 (gridAt (advance t s) (periodOf 1))
     (getNode s 0).acked = false ∧ (s.ring.t1Up || s.ring.t2Up) = true ∧ (nodeRec s 0).fastest = some 1 ∧
       at_ s (2 * periodOf 1 - 1) = false ∧ at_ s (2 * periodOf 1) = true ∧
       (getNode s 0).consecutive + 1 < cfgNat s 0x1800 2 ∧
       (let u := { s0 with config := (objKey 0x1800 2, [2]) :: s0.config }
        at_ u (2 * periodOf 1) = true ∧ cfgNat u 0x1800 2 ≤ (getNode u 0).consecutive + 1)) ∧
    (∀ st ∈ [NodeState.exchanging, .rejoining, .joining],
      (let s := withNode { state := st } live
       (nodeRec s 0).fastest = some 1 ∧ (getNode s 0).ended = none ∧ (s.ring.t1Up || s.ring.t2Up) = false)) ∧
    (let s := withNode { state := .exchanging } live
     (nodeRecs s).find? (fun e => 0x02E960000000 + e.2.node == macOf 9) = some (0, nodeRec s 0) ∧ isPairUnit s = false ∧
       macOf 2 ≠ 0x02E960000000 + nodeAddress s) := by decide +kernel

/-- Bank 0 linked with its claim, channel 0 an output whose open load is checked, channel 1 a 24 V input. -/
def banked (k : Bank) (ch : Tbl Dio) : State :=
  let ws := [0x13, 1] ++ List.replicate 10 0 ++ [10]
  { live with dio := { ch := ch, banks := [(0, { k with linked := true, claim := true, active := ws, expected := ws, sending := ws })] } }

theorem witness_bankFrames :
    (let s := banked {} []
     dioUp s = true ∧ isRetired s kindLink 0 = false ∧ (getBank s 0).resyncing = false ∧ (getBank s 0).badDown + 1 < 16 ∧
       bankMatched (getBank s 0) = true ∧ landsOwn s = true ∧ (getBank s 0).edges = [] ∧ expMode s (12 * 0 + 1) ≠ 0 ∧
       (getBank s 0).badUp + 1 < 16 ∧ (getBank s 0).silent = false ∧
       (getBank s 0).lastGood + wordWd (getBank s 0).active * 1000000 < (advance 10000001 s).now ∧
       0 ∈ bankChans 0 ∧ bicMode s 0 = 3 ∧ wordSafe (getBank s 0).active (0 % 12) = 0) ∧
    (let s := banked { badDown := 14, badUp := 14 } []
     (getBank s 0).badDown + 1 < 16 ∧ (getBank s 0).badUp + 1 < 16) ∧
    (let s0 := banked {} []
     let s := modBank 0 (fun x => { x with active := [] }) s0
     dioUp s = true ∧ isRetired s kindLink 0 = false ∧ (getBank s 0).resyncing = false ∧ bankMatched (getBank s 0) = false) ∧
    (let s := banked {} [(0, { on := true, command := true })]
     (getBank s 0).claim = true ∧ isRetired s kindDio 0 = false) := by decide +kernel

theorem witness_outputs :
    (let s := banked {} [(0, { on := true, enabled := true, command := true })]
     (getDio s (0 : Fin 96)).on = true ∧ 1 < 2 ∧ (getDio s 0).openLoad = false ∧
       wordOpen (getBank s 0).active (0 % 12) = true ∧ 6601 > 6600 ∧ (getBank s 0).overload = false) ∧
    (let s := banked {} [(0, { retry := true, trip := true, enabled := true, command := true, openLoad := true })]
     (getDio s 0).retry = true ∧ (getDio s 0).tripAt + 100000000 ≤ (advance 100000000 s).now ∧ (134 : Int) < 135 ∧
       isRetired s kindDio 0 = false ∧ driveAllowed s 0 = true ∧ (getDio s 0).command = true ∧ (getBank s 0).supplyOff = false ∧
       (getBank s 0).overload = false ∧ (getBank s 0).restoring = false ∧ (getDio s 0).openLoad = true ∧ bicMode s 0 = 3 ∧
       (getDio s 0).on = false ∧ (getDio s 0).external = false ∧ (getBank s 0).claim = true) ∧
    (let e : DioEdge := ⟨0, 1, 4, 0, 0⟩
     let s := banked { placed := [e] } [(0, { enabled := true, pulseEnd := some 5 })]
     (getBank s 0).placed = [e] ∧ e.ch = 0 ∧ e.fireAt ≤ localNow (advance 5 s) ∧ driveAllowed s 0 = true ∧
       (driveAllowed s 0 && !dioRetired s 0 && !(decide (e.slot < 256) && doForced s 0)) = true ∧
       (let r := modDio 0 (fun x => { x with enabled := false }) s
        (getBank r 0).placed = [e] ∧ (driveAllowed r 0 && !dioRetired r 0 && !(decide (e.slot < 256) && doForced r 0)) = false) ∧
       (getDio s 0).pulseEnd = some 5 ∧ 5 ≤ (advance 5 s).now) ∧
    (let s := banked { overload := true, restoring := true, group := [0, 2, 3, 4, 5] } []
     (getBank s 0).overload = true ∧ (getBank s 0).overloadAt + 1000000000 ≤ (advance 1000000000 s).now ∧
       (getBank s 0).restoring = true ∧ (getBank s 0).supplyOff = false) := by decide +kernel

theorem witness_inputs :
    (let s := banked {} [(1, { seen := true })]
     readInput (bicMode s 1) 11000 0 = some (some true, 0) ∧ (getBank s (1 / 12)).supplyOff = false ∧
       (getDio s 1).seen = true ∧ (getDio s 1).state ≠ true) ∧
    readInput 1 5000 0 = some (some false, 0) ∧ readInput 2 0 600 = some (some false, 0) ∧
    (getBank (banked {} []) 0).supplyOff = false ∧ (getBank (banked { supplyOff := true } []) 0).supplyOff = true ∧
    (15999 < 16000 ∧ 18000 < 18001 ∧ 11999 < 12000) := by decide +kernel

/-- Channel 0 an input landing in point 16, channel 1 an output driven from the FORME point 17. -/
def loops : State :=
  { live with
    config := [(objKey 0x2900 1, [2, 4, 0, 0, 16, 0, 0, 0, 1, 0, 0, 0, 0, 0, 0, 0]),
      (objKey 0x2900 2, [2, 4, 1, 0, 17, 0, 0, 0, 1, 0, 1, 0, 0, 0, 0, 0]),
      (objKey 0x2900 3, [7, 4, 0, 0, 17, 0, 0, 0, 1, 0, 0, 0, 0, 0, 0, 0]),
      (objKey 0x3200 1, [1]), (objKey 0x3201 1, [3])]
    img := { points := [(17, ⟨0x41200000, 0, 0⟩)] }
    prog := { live.prog with mode := .run, released := [(17, 0x41200000)] }
    aio := [(1, { claim := true, atMin := false, mismatchAt := some 0 })], pair := { live.pair with state := .single } }

theorem witness_analogue :
    aioUp loops = true ∧
    (aioMode loops 0 ≠ 0 ∧ isAo loops 0 = false ∧ cfgNat loops (0x3200 + 0) 3 = 0 ∧ landsOwn loops = true ∧
      (getAio loops 0).convAt ≠ some (gridAt (advance 5 loops) 1000000) ∧
      aioPoints loops 0 = [16]) ∧
    (let w := loopsRelease (advance 5 loops)
     isAo loops 1 = true ∧ (getAio w 1).updAt ≠ some (gridAt (advance 5 loops) 1000000) ∧
      (outPointFor loops 2 1 0).map Prod.fst = some 17 ∧ isRetired w kindAio 1 = false ∧
      (getAio w 1).reinit = false ∧ (getAio w 1).supplyOff = false ∧ (getAio w 1).silent = false ∧
      (getAio w 1).parked = false ∧ outHeldSafe w {} 17 = false ∧ aioOwner loops 1 ≠ .none ∧
      isBad (readPoint w 17).qual = false ∧ releasedOf w 17 = some 0x41200000 ∧ f32Finite 0x41200000 = true) ∧
    ((getAio loops 1).silent = false ∧ (outPointFor loops 2 1 0).isSome = true ∧ (getAio loops 1).lastGood + cfgNat loops (0x3200 + 1) 6 * 1000000 ≤ (advance 10000000000 loops).now) := by
  decide +kernel

theorem witness_analogueFaults :
    ((getAio loops 1).mismatchAt = some 0 ∧ regulating loops 1 = true ∧ 0 + 50000000 ≤ (advance 50000000 loops).now) ∧
    (let s := { loops with aio := [(1, { condAt := [(.openLoop, 0)] })] }
     condApplies s 1 .openLoop = true ∧ (true && aioPass s 1) = false ∧ condFlag (getAio s 1) .openLoop ≠ true ∧
      condDue (advance 20000000 s) (getAio s 1) .openLoop = true ∧
      condDue (advance 19999999 s) (getAio s 1) .openLoop = false) ∧
    (let s := { loops with aio := [(1, { reinit := true, partnerAt := some 0 })], pwr := { loops.pwr with presLow := true } }
     (getAio s 1).reinit = true ∧ isAo s 1 = true ∧ aioPass s 1 = true ∧ (getAio s 1).partnerMismatch = false ∧
      (getAio s 1).partnerAt = some 0 ∧ 0 + 50000000 ≤ (advance 50000000 s).now) ∧
    (getAio loops 1).partnerAt = none := by
  decide +kernel

/-- Axis 8 in use with its target from the FORME point 17, and the axis as given. -/
def axis (x : Axis) (more : Tbl (List Byte)) : State :=
  { live with
    config := [(objKey 0x2900 1, [7, 4, 0, 0, 17, 0, 0, 0, 1, 0, 0, 0, 0, 0, 0, 0]),
      (objKey 0x2900 2, [3, 4, 1, 0, 17, 0, 0, 0, 1, 0, 8, 0, 0, 0, 0, 0]), (objKey 0x3408 1, [1])] ++ more
    img := { points := [(17, ⟨1000, 0, 0⟩)] }
    prog := { live.prog with mode := .run, released := [(17, 1000)] }
    mot := { live.mot with axes := [(8, x)] }, pair := { live.pair with state := .single } }

theorem witness_axCommands :
    (let s := leased [0x3400] (inRole 3 (axis {} []))
     writeHeard (found 5 s) (cmd1 []) (0x3400 + 8) 0x22 [1] = true ∧
       writeHeard (found 5 s) (cmd1 []) (0x3400 + 8) 0x22 [2] = true ∧
       writeHeard (found 5 s) (cmd1 []) (0x3400 + 8) 0x22 [3] = true ∧ (served (found 5 s) 0).prog.mode ≠ .stop ∧
       axRetired (served (found 5 s) 0) 8 = false ∧ groupOfAxis (served (found 5 s) 0) 8 = none ∧
       (served (found 5 s) 0).pair.state ≠ .active) ∧
    (let s0 := axis {} []
     let s := leased [0x3400] (inRole 3 { s0 with pair := { s0.pair with state := .active } })
     writeHeard (found 5 s) (cmd1 []) (0x3400 + 8) 0x22 [1] = true ∧
       writeHeard (found 5 s) (cmd1 []) (0x3400 + 8) 0x22 [2] = true ∧
       writeHeard (found 5 s) (cmd1 []) (0x3400 + 8) 0x22 [3] = true ∧ (served (found 5 s) 0).prog.mode ≠ .stop ∧
       axRetired (served (found 5 s) 0) 8 = false ∧ groupOfAxis (served (found 5 s) 0) 8 = none ∧
       (served (found 5 s) 0).pair.state = .active) := by decide +kernel

theorem witness_motionTick :
    (let x : Axis := { target := 1000, lastTarget := some 1000, enabled := true }
     let s := axis x []
     motionUp s = true ∧ relsHeld s = false ∧ beforeFirst (advance 125000 s) = false ∧ turnReady s 8 true = true ∧
       s.mot.lastTick ≠ gridAt (advance 125000 s) 125000 ∧ (List.range 24).filter (axUsed s) = [8] ∧
       axGroups s = [] ∧ s.prog.mode = .run ∧ isPairUnit s = false ∧ axFlag s 8 0 = false ∧ axFlag s 8 5 = false ∧
       axSet s 8 = none ∧ axRetired s 8 = false ∧ (targetPoint s 8).map Prod.fst = some 17 ∧ pointType s 17 ≠ 0x0A ∧
       isBad (readPoint s 17).qual = false ∧ 17 ∉ inPoints s 3 8 1 ++ inPoints s 3 8 2 ∧ releasedOf s 17 = some 1000 ∧
       (getAxis s 8).lastTarget = some 1000 ∧ (getAxis s 8).target = (1000 : BitVec 32).toInt ∧ (getAxis s 8).homing = 0 ∧
       (getAxis s 8).enabled = true ∧ (getAxis s 8).cmd = 0 ∧ (getAxis s 8).heldStop = false ∧ (getAxis s 8).v = 0 ∧
       (getAxis s 8).plan = [] ∧
       0 < 1000 * fxUnit - x.pos ∧
       (towardStep (axProf s 8) (1000 * fxUnit - x.pos) (axProf s 8).vStart
         (decide (1000 * fxUnit - x.pos < brakeFx (axProf s 8) (axProf s 8).vStart))).2 ≠ 0) := by decide +kernel

theorem witness_limitInput :
    (let s := axis { v := 5 } [(objKey 0x3408 0x0C, [7]), (objKey 0x3408 0x0E, [5])]
     motionUp s = true ∧ s.pwr.fsaOff = false ∧
       (List.range 24).filter (fun n => axUsed s n && axSet s n == some 7) = [8] ∧ groupOfAxis s 8 = none ∧
       (getAxis s 8).homing = 0 ∧ movesToward (getAxis s 8) true = true ∧ limActive s 8 .limp = false ∧
       bitOf (axNat s 8 0x0E) 0 = true) := by decide +kernel

theorem witness_drives :
    (let s := axis { homing := 2 } []
     motionUp s = true ∧ (getAxis s 8).homing ≠ 0 ∧
       (getAxis s 8).homeStart + axNat s 8 0x13 * 1000000000 ≤ (advance 60000000000 s).now) ∧
    (let s := { axis {} [(objKey 0x3400 1, [1])] with mot := { live.mot with axes := [(0, { enabled := true })] } }
     axIntegrated 0 = true ∧ axUsed s 0 = true ∧ (getAxis s 0).enabled = true ∧ axStill (getAxis s 0) = true ∧
       (getAxis s 0).holding = false ∧
       (getAxis s 0).stillSince + axNat s 0 0x19 * 1000000 ≤ (advance 200000000 s).now ∧ axNat s 0 0x18 ≠ 0 ∧
       axLive s 0 = true) ∧
    (let s := { axis {} [(objKey 0x3400 1, [1]), (objKey 0x3400 0x18, [0, 0])] with mot := { live.mot with axes := [(0, { enabled := true })] } }
     axNat s 0 0x18 = 0 ∧ axFlag s 0 3 = false ∧ axIntegrated 0 = true ∧ axUsed s 0 = true ∧ (getAxis s 0).enabled = true ∧
       axStill (getAxis s 0) = true ∧ (getAxis s 0).holding = false ∧
       (getAxis s 0).stillSince + axNat s 0 0x19 * 1000000 ≤ (advance 200000000 s).now) ∧
    (let s := axis { enabled := true, curV := 100 * 2 ^ 32 + 1 } []
     motionUp s = true ∧ axUsed s 8 = true ∧ axLive s 8 = true ∧ (axIntegrated 8 = true ↔ DriveFaultKind.pulseFault ≠ .pulseFault) ∧
       (axProf s 8).vStop < axSpeed s 8) ∧
    (let s := axis { driveFault := true } []
     motionUp s = true ∧ (134 : Int) < 135 ∧ (getAxis s 8).driveFault = true ∧ (getAxis s 8).faultAt + 100000000 ≤ (advance 100000000 s).now ∧
       bitOf (ctrlWord s 8).1 0 = true ∧ axRetired s 8 = false ∧ (getAxis s 8).supplyOff = false) := by decide +kernel

/-- A running module with tracker 0 on encoder 0, tracker 1 and 2 on mains 0 and 1, as given. -/
def cadence (x : List (Nat × Tracker)) (more : Tbl (List Byte)) : State :=
  { live with
    config := [(objKey 0x3800 1, [1]), (objKey 0x3801 1, [2]), (objKey 0x3802 1, [2]), (objKey 0x3802 2, [1])] ++ more
    cad := { live.cad with trackers := x } }

theorem witness_encoderEdge :
    (let v := advance 8 (cadence [(0, { state := .valid, count := 5 })] [])
     cadenceUp v = true ∧ 0 ∈ trackersOn v 1 0 ∧ (getTracker v 0).state = .valid ∧ cfgBool v 0x3800 4 = true ∧
       2 < (getTracker v 0).count % (trkQuanta v 0 : Int) ∧
       (getTracker v 0).count % (trkQuanta v 0 : Int) < (trkQuanta v 0 : Int) - 2) ∧
    (let v := advance 8 (cadence [(0, { state := .lost })] [])
     (getTracker v 0).state = .lost ∧ 0 ∈ trackersOn v 1 0 ∧ cfgBool v 0x3800 4 = true) ∧
    (let v := advance 8 (cadence [(0, { state := .still })] [])
     cadenceUp v = true ∧ (getTracker v 0).state = .still ∧ 0 ∈ trackersOn v 1 0) := by decide +kernel

theorem witness_trackerLoss :
    (let v := advance 100000000 (cadence [(0, { state := .valid })] [])
     cadenceUp v = true ∧ trkMode v 0 = 1 ∧ (getTracker v 0).state = .valid ∧
       (getTracker v 0).at_ + 100000000 ≤ localNow v) ∧
    (let v := advance 100000000 (cadence [(0, { state := .coasting })] [])
     cadenceUp v = true ∧ (getTracker v 0).state = .coasting ∧ (getTracker v 0).lostAt + trkCoast v 0 ≤ v.now ∧
       ¬ (trkMode v 0 = 1 ∧ cfgBool v (0x3800 + 0) 4 = false)) ∧
    (let v := advance 100000000 (cadence [(0, { state := .coasting })] [(objKey 0x3800 4, [0])])
     (getTracker v 0).state = .coasting ∧ (getTracker v 0).lostAt + trkCoast v 0 ≤ v.now ∧
       trkMode v 0 = 1 ∧ cfgBool v (0x3800 + 0) 4 = false) ∧
    (let v := advance 100000000 (cadence [(1, { state := .still })] [])
     trkMode v 1 = 2 ∧ (getTracker v 1).state = .still ∧ 1 ∈ trackersOn v 2 0) := by decide +kernel

/-- Whether the factory record of a mains input passes its CRC, and what it corrects, is left open (log entry 3): either way a
tracker on the input has a first crossing, and a second one a cycle later that the state holds. -/
theorem witness_mainsCrossing (z : Int) :
    (let v := advance 8 (cadence [(1, { state := .valid })] [])
     cadenceUp v = true ∧ 1 ∈ trackersOn v 2 (0 : Fin 2) ∧ ((z :: (getTracker v 1).crossings).take 5).length - 1 = 0) ∧
    (let v := advance 8 (cadence [(1, { state := .valid, crossings := [z - 20000000] })] [])
     1 ∈ trackersOn v 2 (0 : Fin 2) ∧ ((z :: (getTracker v 1).crossings).take 5).length - 1 ≠ 0 ∧
       ((getTracker v 1).state = .valid ∨ (getTracker v 1).state = .still)) ∧
    (let f := f32OfRat (1 * 1000000000) 20000000
     f32Lt f (f32OfInt 40) = false ∧ f32Lt (f32OfInt 70) f = false ∧ f32Lt (f32OfInt 230) (f32OfInt 8) = false) ∧
    f32Lt (f32OfRat 7999 1000) (f32OfInt 8) = true :=
  ⟨⟨by decide +kernel, by decide +kernel, rfl⟩, ⟨(by decide +kernel : 1 ∈ trackersOn (advance 8 (cadence [(1, { state := .valid })] [])) 2 (0 : Fin 2)),
      Nat.one_ne_zero, .inl rfl⟩, by decide +kernel, by decide +kernel⟩

/-- Two mains trackers of 50 and 50.05 Hz at 230 V, in phase, and synchro-check 0 armed on them with DO 3. -/
def synchro (x : Sc) : State :=
  cadence [(1, { state := .valid, speed := 0x42480000, level := 0x43660000 }),
    (2, { state := .valid, speed := 0x42483333, level := 0x43660000 })]
    [(objKey 0x38C0 1, [1]), (objKey 0x38C0 2, [2]), (objKey 0x38C0 3, [3])] |> fun s =>
    { s with cad := { s.cad with sc := [(0, x)] }, pair := { s.pair with state := .single } }

theorem witness_slotFire :
    (let s := { synchro {} with
       config := [(objKey 0x3000 1, [3]), (objKey 0x3800 1, [1]), (objKey 0x3880 1, [1, 0, 2, 0, 0, 0, 0, 0, 0, 0, 0, 0, 0, 0, 0, 0])]
       prog := { live.prog with mode := .run }, cad := { live.cad with slots := [(0, { state := 2, forward := true })] } }
     let v := advance 8 s
     cadenceUp v = true ∧ (getSched v 0).state = 2 ∧ (getSched v 0).fireAt ≤ localNow v ∧ v.prog.mode ≠ .stop ∧
       slotWithheld v (slotRec v 0) = false ∧ slotDoOpen v (slotRec v 0).target = true ∧ (slotRec v 0).kind = 1 ∧
       slotWithheld { v with prog := { v.prog with mode := .hold } } (slotRec v 0) = true) ∧
    (let s := { synchro {} with
       config := [(objKey 0x3000 1, [3]), (objKey 0x3800 1, [1]), (objKey 0x3880 1, [2, 0, 2, 0, 0, 0, 0, 0, 0, 0, 0, 0, 0, 0, 0, 0])]
       prog := { live.prog with mode := .run }, cad := { live.cad with slots := [(0, { state := 2, forward := true })] } }
     let v := advance 8 s
     slotWithheld v (slotRec v 0) = false ∧ slotDoOpen v (slotRec v 0).target = true ∧ (slotRec v 0).kind = 2) ∧
    (let s := { synchro {} with
       config := [(objKey 0x3800 1, [1]), (objKey 0x3880 1, [5, 0, 2, 0, 0, 0, 0, 0, 0, 0, 0, 0, 0, 0, 0, 0])]
       prog := { live.prog with mode := .run }
       cad := { live.cad with trackers := [(0, { state := .valid })], slots := [(0, { state := 1, due := some 8 })] } }
     let v := advance 8 s
     v.prog.mode ≠ .stop ∧ (getSched v 0).due = some 8 ∧ 8 ≤ localNow v ∧ slotLive v (slotRec v 0) = true ∧
       (if slotForward v 0 then bitOf (slotRec v 0).flags 1 else bitOf (slotRec v 0).flags 2) = true) ∧
    (let s := { synchro {} with
       config := [(objKey 0x3800 1, [1]), (objKey 0x3880 1, [4, 0, 2, 0, 0, 0, 0, 0, 0, 0, 0, 0, 0, 0, 0, 0])]
       cad := { live.cad with slots := [(0, { state := 2 })] } }
     let v := advance 8 s
     v.prog.mode = .stop ∧ (slotRec v 0).kind = 4 ∧ (getSched v 0).state = 2 ∧ (getSched v 0).fireAt ≤ localNow v) := by
  decide +kernel

theorem witness_scArm :
    (let s := leased [0x38C0] (inRole 2 (synchro {}))
     writeHeard (found 5 s) (cmd1 []) 0x38C0 0x0B [1] = true ∧ writeHeard (found 5 s) (cmd1 []) 0x38C0 0x0B [0] = true ∧
       (getSc (served (found 5 s) 0) 1).state ≠ .armed ∧
       dioRetired (served (found 5 s) 0) (cfgNat (served (found 5 s) 0) 0x38C0 3) = false ∧
       (getSc (served (found 5 s) 0) 0).state = .idle) ∧
    (let s := leased [0x38C0] (inRole 2 (synchro { state := .armed }))
     writeHeard (found 5 s) (cmd1 []) 0x38C1 0x0B [1] = true ∧ (getSc (served (found 5 s) 0) (1 - 1)).state = .armed) ∧
    (let s := leased [0x38C0] (inRole 2 { synchro {} with retired := [⟨1, 3, 0, false⟩] })
     writeHeard (found 5 s) (cmd1 []) 0x38C0 0x0B [1] = true ∧ (getSc (served (found 5 s) 0) (1 - 0)).state ≠ .armed ∧
       dioRetired (served (found 5 s) 0) (cfgNat (served (found 5 s) 0) 0x38C0 3) = true) := by
  decide +kernel

theorem witness_scArmEffect :
    leVal [(0 : Byte)] = 0 ∧ leVal [(1 : Byte)] ≠ 0 ∧
    (getSc (synchro { state := .armed }) 0).state = .armed ∧
    dioRetired { synchro {} with retired := [⟨1, 3, 0, false⟩] } (cfgNat (synchro {}) (0x38C0 + 0) 3) = true ∧
    (let s := synchro { state := .closed }
     ¬ ((getSc s (1 - 0)).state = .armed ∨ dioRetired s (cfgNat s (0x38C0 + 0) 3) = true) ∧
       (getSc s 0).state ≠ .armed ∧ (getSc s 0).state ≠ .closing) := by decide +kernel

theorem witness_scCommand :
    (let s := synchro { state := .armed, held := 3, lastDfAt := 8 }
     let v := advance 8 s
     cadenceUp v = true ∧ (getSc v 0).state = .armed ∧ 3 ≤ (getSc v 0).held ∧ scConditions v 0 = true ∧
       (scCommandAt v 0).isSome = true ∧ cfgNat v 0x38C0 3 ≠ 0xFF ∧ isActive v = true) ∧
    (let v := advance 200000000 (synchro { state := .closing })
     (getSc v 0).state = .closing ∧ (getSc v 0).pulseEnd ≤ localNow v) ∧
    (let v := advance 60000000000 (synchro { state := .armed })
     (getSc v 0).state = .armed ∧ (getSc v 0).armedAt + cfgNat v 0x38C0 10 * secNs ≤ v.now) := by decide +kernel

/-- A running module with loop 5 configured: a period of 8 ticks, phase 0. -/
def looped (more : Tbl (List Byte)) (x : Loop) : State :=
  { live with config := [(objKey 0x4005 1, [8, 0])] ++ more, eng := { live.eng with loops := [(5, x)] }
              pair := { live.pair with state := .single } }

theorem witness_engineTick :
    (let v := advance 1000000 { looped [] {} with eng := { live.eng with lastTick := gridAt (advance 1000000 live) tickNs } }
     engineUp v = true ∧ v.prog.mode = .stop ∧ v.eng.lastTick = gridAt v tickNs) ∧
    (let v := advance 1000000 (looped [] {})
     engineUp v = true ∧ v.eng.lastTick ≠ gridAt v tickNs ∧ isStandby v = false ∧ (needsAck v && handingHeld v) = false ∧
       v.prog.mode = .stop ∧ 5 ∈ loopsUsed v ∧ groupOfLoop v 5 = none ∧ clockDue v (gridAt v tickNs) 5 = true) ∧
    (let v := advance 1000000 { looped [] {} with prog := { live.prog with mode := .run } }
     v.prog.mode ≠ .stop ∧ engineUp v = true ∧ v.sess.pending = none) := by
  decide +kernel

theorem witness_loopRelease :
    let r : LoopRel := { out := 1, ws := 2, lag := 3, status := 4, winner := 0xFFFF, at_ := some 8 }
    let v := advance 2000000000 (looped [] { pending := [r] })
    engineUp v = true ∧ (getLoop v 5).pending.filter (fun r => relDue (localNow v) r && (unacked v r || !relsHeld v)) = [r] ∧
      unacked v r = false ∧ beforeFirst v = false ∧ engineReleases v = true ∧
      isStandby v = false := by
  decide +kernel

theorem witness_cadTimeout :
    let v := advance 1000000000 (looped [(objKey 0x4005 3, [1])] { lastSample := some 0 })
    engineUp v = true ∧ loopNat v 5 1 ≠ 0 ∧ loopNat v 5 3 = 1 ∧ (getLoop v 5).fallback = false ∧
      (getLoop v 5).lastSample = some 0 ∧ (0 : Int) + (loopNat v 5 0x19 * msNs : Nat) ≤ localNow v := by decide +kernel

/-- Loops 5 and 6 in override group 0, led by 5. -/
def grouped : State := leased [0x4000] (inRole 3 (looped [(objKey 0x4006 1, [8, 0]),
  (objKey 0x4400 1, [5, 0, 6, 0, 0xFF, 0xFF, 0xFF, 0xFF, 0xFF, 0xFF, 0xFF, 0xFF, 0xFF, 0xFF, 0xFF, 0xFF])] {}))

theorem witness_loopMode :
    (let v := served (found 5 grouped) 0
     writeHeard (found 5 grouped) (cmd1 [2]) 0x4006 0x1A [] = true ∧ leVal [(2 : Byte)] = 2 ∧
       groupOfLoop v 6 = some (0, [5, 6]) ∧ [5, 6].headD 6 ≠ 6) ∧
    (let v := served (found 5 grouped) 0
     writeHeard (found 5 grouped) (cmd1 [2]) 0x4005 0x1A [] = true ∧ groupOfLoop v 5 = some (0, [5, 6]) ∧ [5, 6].headD 5 = 5) ∧
    (let v := served (found 5 grouped) 0
     writeHeard (found 5 grouped) (cmd1 [1]) 0x4006 0x1A [] = true ∧ leVal [(1 : Byte)] ≠ 2 ∧
       groupOfLoop grouped 5 = some (0, [5, 6]) ∧ groupOfLoop v 7 = none) := by decide +kernel

/-- A forme with a word at word 3, 64 bytes of each area, one instance at 8 and one call descriptor. -/
def wordForme (w : BitVec 32) : Forme :=
  { smallForme with
    code := [0, 0, 0, w], dataSize := 64, retainSize := 64, vars := [⟨1, 4, 64, 0, false, 0, []⟩]
    calls := [⟨0, 7, 0⟩], insts := [⟨1, 1, 0, false, 8, []⟩] }

/-- A cycle in execution at word 3, its registers W1 and W2 set, coded as pass B keeps them where `b`. -/
def wordCycle (b : Bool) : Cycle :=
  { pc := 3, startedAt := some 0, releasedAt := 0
    regs := if b then [(1, BitVec.ofInt 64 (encodeWord 4 6)), (2, BitVec.ofInt 64 (encodeWord 4 1))] else [(1, 6), (2, 1)]
    stack := [(9, 0)] }

/-- Task 0 and both passes in execution, a word at their program counters. -/
def wordedAt (w : BitVec 32) : State :=
  { live with
    prog := { live.prog with mode := .run, forme := some (wordForme w), tasks := [(0, { cycle := some (wordCycle false) })] }
    safe := { live.safe with
      state := .running, k := 4, forme := some (wordForme w)
      passA := { running := true, cyc := wordCycle false }, passB := { running := true, cyc := wordCycle true } }
    pair := { live.pair with state := .single } }

/-- The three in execution over a word none of them runs here. -/
def worded : State := wordedAt 0

/-- Every word of the two statements stands at the program counter of every context. -/
theorem witness_atWord :
    ∀ x ∈ [Ctx.task 0, .passA, .passB],
      [regWord 3 1 1 2 4, immWord 2 1 9, frameWord32 2 1 0 1, frameWord32 0 1 0 1, frameWord32 1 1 0 1,
        pointWord 0 1 0x105, pointWord 1 1 0x105, pointWord 2 1 0x105, pointWord 3 1 0x2FF, pointWord 3 1 0x307,
        branchWord 1 1 2, callWord 0 0, callWord 1 0, callWord 2 0, extWord 5, sysWord 1 0, sysWord 2 0, sysWord 3 0].all
        (fun w => ctxCycle (noteStart x (advance 8 (wordedAt w))) x == some (wordCycle (x == .passB)) &&
          atWord (advance 8 (wordedAt w)) x w) = true := by decide +kernel

theorem witness_words :
    ∀ x ∈ [Ctx.task 0, .passA, .passB],
      let v := noteStart x (advance 8 worded)
      let c := wordCycle (x == .passB)
      ctxCycle v x = some c ∧ readReg v x c 1 = some 6 ∧ readReg v x c 2 = some 1 ∧
        (∀ ty ∈ [(4 : Nat), 6], typeValid x ty 6 = true ∧ typeValid x ty 1 = true) ∧ codedValue 6 = 6 ∧
        frameFault v x 0 (frameAddr c 0 1) = false ∧ (loadWord v x c 0 (frameAddr c 0 1)).isSome = true ∧
        (∀ k, x = .task k → dirtyBytes c + 4 ≤ 131072) ∧ c.stack.length < 32 ∧ c.stack = [(9, 0)] ∧
        (x = .task 0 → v.pair.state = .single) := by decide +kernel

theorem witness_points :
    (let v := noteStart .passA (advance 8 worded)
     safetyField (0x105 % 2 ^ 18) = true ∧ (safetyRead v .passA (0x105 % 2 ^ 18)).isSome = true ∧ (safetyRead v .passB (0x105 % 2 ^ 18)).isSome = true ∧
       requestBad v (0x105 % 2 ^ 18) = false ∧
       requestBad { v with safe := { v.safe with requests := [(5, { word := 1, comp := 1 })] } } (0x105 % 2 ^ 18) = true ∧ 0x210 ≤ 0x2FF % 2 ^ 18 ∧
       0x2FF % 2 ^ 18 < 0x300 ∧ 0x300 ≤ 0x307 % 2 ^ 18 ∧ 0x307 % 2 ^ 18 < 0x308 ∧ v.safe.state = .running ∧
       v.safe.counted = []) ∧
    (let c := wordCycle false
     dirtyBytes { c with out := c.out ++ [(9 % 2 ^ 18, (6 : BitVec 64).truncate 32)] } ≤ 131072) ∧
    (let v := noteStart (.task 0) (advance 8 { worded with pair := { worded.pair with state := .active } })
     ctxCycle v (.task 0) = some (wordCycle false) ∧ v.pair.state = .active ∧ handingHeld v = false ∧
       Tbl.find v.pair.recs 0 = none) ∧
    (let v := noteStart (.task 0) (advance 8 worded)
     v.pair.state = .single ∧ Tbl.find v.pair.recs 0 = none ∧ v.pair.firstAt = none ∧ relsHeld v = false) := by decide +kernel

theorem witness_blocks :
    ∀ x ∈ [Ctx.task 0, .passA, .passB],
      let v := noteStart x (advance 8 worded)
      let c := wordCycle (x == .passB)
      ctxCycle v x = some c ∧ (getBlock v x c (blockInst c 1 8)).isSome = true ∧
        ∀ k, x = .task k → dirtyBytes c + 40 ≤ 131072 := by decide +kernel

/-- A word of pass B's data under another cycle's tag is not valid. -/
theorem witness_invalidWord :
    let s0 := { worded with config := [(objKey 0x6000 0x40, [0])] }
    let s := { s0 with safe := { s0.safe with
      coded := [(blockBase + 8 * blockInst (wordCycle true) 1 8, encodeWord 3 9), (instBase, encodeWord 3 9)] } }
    let v := noteStart .passB (advance 8 s)
    ctxCycle v .passB = some (wordCycle true) ∧ getBlock v .passB (wordCycle true) (blockInst (wordCycle true) 1 8) = none ∧
      sfInput v 0 < 16 ∧ sfIn v .passB 0 = none := by decide +kernel

/-- A task's cycle over CAN buffers of port 0: 0 compact, 1 deep of task 0, 2 a transmit buffer on request. -/
def canWorded (called : Option (Nat × Nat)) : State :=
  let rx : CanRx := { frame := { id := 5, data := [7] }, stamp := 40 }
  { worded with
    config := [(objKey 0x3600 0x21, [1, 0, 0, 0xFF, 0, 0, 0, 0, 0, 0, 0, 0, 0, 0, 0, 0, 2, 0, 4, 0, 0, 0, 0, 0, 0, 0, 0, 0, 0, 0, 0, 0]),
      (objKey 0x3600 0x22, [3, 0, 0, 0xFF, 0, 0, 0, 0, 0, 0, 0, 0, 3, 1, 0, 0])]
    prog := { worded.prog with
      tasks := [(0, { cycle := some { wordCycle false with
        called := called, snapCan := [(0, [rx]), (1, [rx])], snapCount := [(0, 1), (1, 1)], snapPorts := [(2, 3, 4)] } })] } }

theorem witness_can :
    ∀ n ∈ [(0x40 : Nat), 0x41, 0x42],
    let x := Ctx.task 0
    let v := noteStart x (advance 8 (canWorded (some (n, 0))))
    ∃ c, ctxCycle v x = some c ∧ c.called.map Prod.fst = some n ∧ (bufRec v 0 0).kind = 1 ∧ Tbl.get c.snapCan [] 0 = [{ frame := { id := 5, data := [7] }, stamp := 40 }] ∧
      (bufRec v 0 1).kind = 2 ∧ (bufRec v 0 1).task = 0 ∧
      (Tbl.get c.snapCan [] 1)[Tbl.get c.pops 0 1]? = some { frame := { id := 5, data := [7] }, stamp := 40 } ∧
      (bufRec v 0 2).kind = 3 ∧ (bufRec v 0 2).trigger = 3 ∧ 2 ∉ c.snapQueued ∧
      ((bufRec v 0 2).kind = 1 → Tbl.get c.snapCan [] 2 = []) ∧ (bufRec v 0 0).kind ≠ 3 ∧
      c.snapPorts.getD 0 (0, 0, 0) = (2, 3, 4) := by
  intro n hn
  simp only [List.mem_cons, List.not_mem_nil, or_false] at hn
  obtain rfl | rfl | rfl := hn <;> exact ⟨_, rfl, by decide +kernel⟩

theorem witness_canUnnamed :
    let v := noteStart (.task 0) (advance 8 (canWorded none))
    ∃ c, ctxCycle v (.task 0) = some c ∧ ∀ n ∈ [(0x40 : Nat), 0x41, 0x42], ¬ c.called.map Prod.fst = some n :=
  ⟨_, rfl, by decide +kernel⟩

theorem witness_safetyBlocks :
    let v := noteStart .passA (advance 8 { worded with config := [0, 16, 32, 36].map (fun f => (objKey 0x6000 (0x40 + f), [0])) })
    ctxCycle v .passA = some (wordCycle false) ∧ (sfIn v .passA 0).isSome = true ∧ (sfIn v .passB 0).isSome = true ∧ sfInput v 0 < 16 ∧ sfInput v 16 < 16 ∧ sfInput v 32 < 16 ∧ sfInput v 36 < 16 := by
  decide +kernel

/-- The safety complex in a state, with a forme, the results of pass A held, and all else as given. -/
def complex (x : Safe) : State := { live with safe := { x with forme := some (wordForme 0) } }

/-- Both passes of cycle `k` have ended with nothing written. -/
def bothEnded (k : Nat) : State :=
  let s := complex { state := .running, k := k, lfsr := 3, passA := { ended := true }, passB := { ended := true } }
  { s with safe := { s.safe with delay := delayRegs s } }

theorem witness_safetyCommit :
    (let v := advance 8 (complex { state := .starting })
     safetyRuns v = true ∧ v.safe.state = .starting ∧ v.safe.newConfig = none ∧ v.safe.forme.isSome = true) ∧
    (let v := advance 8 (complex { state := .running })
     safetyRuns v = true ∧ v.safe.state = .running ∧ v.safe.counted = [] ∧ v.safe.forme.isSome = true) := by decide +kernel

/-- A commit's vector register that lost its complement, and one that holds. -/
theorem witness_delayRegister :
    (let v := advance 8 (complex { state := .running, compared := true, equal := true, delay := [(0, 0)] })
     safetyRuns v = true ∧ v.safe.state = .running ∧ (liveVector v && (delayWord v 0).isNone) = true) ∧
    (let v := advance 8 (complex { state := .running, compared := true, equal := true, delay := [(3, ~~~3)] })
     liveVector v = true ∧ (liveVector v && (delayWord v 0).isNone) = false ∧ vectorDue v = 3) := by decide +kernel

theorem witness_passBStart :
    (let s := complex { state := .running, passA := { ended := true } }
     safetyRuns (advance 8 s) = true ∧ (advance 8 s).safe.forme = some (wordForme 0) ∧ (advance 8 s).safe.passA.ended = true ∧
       (advance 8 s).safe.passB.running = false ∧ (advance 8 s).safe.passB.ended = false ∧ halfPassed (advance 8 s) = false ∧
       halfPassed (advance (tSafe s / 2) s) = true ∧ halfPassed (advance (tSafe s / 2 - tSafe s / 1000) s) = false ∧
       (advance 8 s).safe.counted = [] ∧ (advance 8 s).safe.passA.running = false) ∧
    (let v := advance 10000000 (complex { state := .running, passA := { running := true } })
     halfPassed v = true ∧ v.safe.passA.running = true ∧ v.safe.counted = []) ∧
    (let x : Safe := { state := .running, k := 4, passA := { ended := true }, coded := [(8, encodeWord 3 9)] }
     let v := advance 10000000 (complex x)
     halfPassed v = true ∧ (∀ e ∈ v.safe.coded, decodeInt (v.safe.k - 1) e.2 ≠ none) ∧ mailOk v = true ∧
       mailOk (advance 10000000 (complex { x with mail2 := { word := 1, comp := 1 } })) = false) ∧
    (let v := advance 10000000 (complex
       { state := .running, k := 4, passA := { ended := true }, coded := [(8, encodeWord 4 9)] })
     halfPassed v = true ∧ ∃ e ∈ v.safe.coded, decodeInt (v.safe.k - 1) e.2 = none) := by
  refine ⟨by decide +kernel, by decide +kernel, by decide +kernel, by decide +kernel, _, List.mem_singleton.2 rfl, by decide +kernel⟩

theorem delayWord_held (s : State) (i : Nat) (w : BitVec 64) (h : s.safe.delay[i]? = some (w, ~~~w)) :
    delayWord s i = some w := by
  have hx : w ^^^ ~~~w = ~~~0 := by
    apply BitVec.eq_of_getLsbD_eq; intro k hk
    rw [BitVec.getLsbD_xor, BitVec.getLsbD_not, BitVec.getLsbD_not]; simp [hk]
  unfold delayWord; rw [h]; exact if_pos hx

theorem outVector_eq (s t : State) (n a : Nat) (hc : s.config = t.config) (hv : s.safe.vector = t.safe.vector) :
    outVector s n a = outVector t n a := by
  unfold outVector soField cfgBytes
  rw [hc, hv]

/-- Pass B that wrote what pass A wrote, on the same agreed vector, agrees with it. -/
theorem resultsEqual_of (s t : State) (h : t.safe.delay = delayRegs s) (ho : t.safe.passB.outs = s.safe.passA.outs)
    (hs : t.safe.passB.status = s.safe.passA.status) (ha : t.safe.agreedB = s.safe.agreed)
    (hv : outVector t s.safe.agreed s.safe.passA.outs = outVector s s.safe.agreed s.safe.passA.outs) :
    resultsEqual t = true := by
  have hd : statusDigest t.safe.passB = statusDigest s.safe.passA := by unfold statusDigest; rw [hs]
  have h0 := delayWord_held t 0 (BitVec.ofNat 64 (outVector s s.safe.agreed s.safe.passA.outs)) (by rw [h]; rfl)
  have h1 := delayWord_held t 1 (statusDigest s.safe.passA) (by rw [h]; rfl)
  unfold resultsEqual
  rw [h0, h1, ha, ho, hd, hv]
  simp

/-- Registers that hold a pass's results pass their checks. -/
theorem registersGood_of (s t : State) (h : t.safe.delay = delayRegs s) : registersBad t = false := by
  unfold registersBad
  rw [delayWord_held t 0 (BitVec.ofNat 64 (outVector s s.safe.agreed s.safe.passA.outs)) (by rw [h]; rfl),
    delayWord_held t 1 (statusDigest s.safe.passA) (by rw [h]; rfl), delayWord_held t 3 s.safe.passA.window (by rw [h]; rfl)]
  simp

/-- Both passes of a cycle ended equal. -/
abbrev endedOnly (k : Nat) : State :=
  complex { state := .running, k := k, lfsr := 3, passA := { ended := true }, passB := { ended := true } }

theorem bothEnded_equal (k : Nat) :
    resultsEqual (advance 8 (bothEnded k)) = true ∧ registersBad (advance 8 (bothEnded k)) = false :=
  ⟨resultsEqual_of (endedOnly k) (advance 8 (bothEnded k)) rfl rfl rfl rfl (outVector_eq _ _ _ _ rfl rfl),
    registersGood_of (endedOnly k) _ rfl⟩

theorem bothEnded_windows (k : Nat) : windowsEqual (advance 8 (bothEnded k)) = true := by
  unfold windowsEqual
  rw [delayWord_held (advance 8 (bothEnded k)) 3 (endedOnly k).safe.passA.window rfl]
  show (k % 16 != 15 || (some (0 : BitVec 64) == some 0)) = true
  simp

theorem witness_windowOnly :
    let v := advance 8 { bothEnded 15 with safe := { (bothEnded 15).safe with passB := { ended := true, window := 1 } } }
    resultsEqual v = true ∧ windowsEqual v = false ∧ registersBad v = false ∧ v.safe.k % 16 ≠ v.safe.lfsr % 16 :=
  ⟨resultsEqual_of (endedOnly 15) _ rfl rfl rfl rfl (outVector_eq _ _ _ _ rfl rfl), by decide +kernel,
    registersGood_of (endedOnly 15) _ rfl, by decide +kernel⟩

theorem witness_scuCompare :
    (let v := advance 8 (bothEnded 3)
     safetyRuns v = true ∧ v.safe.forme.isSome = true ∧ v.safe.compared = false ∧ v.safe.passA.running = false ∧
       v.safe.passB.running = false ∧ v.safe.passA.ended = true ∧ v.safe.passB.ended = true ∧
       v.safe.state ≠ .safeHalt ∧ v.safe.k % 16 = v.safe.lfsr % 16 ∧ v.safe.counted = []) ∧
    (let v := advance 8 (bothEnded 4)
     v.safe.k % 16 ≠ v.safe.lfsr % 16) ∧
    (let v := advance 8 (complex { (endedOnly 4).safe with delay := [(1, ~~~1), (0, ~~~0)] })
     registersBad v = false ∧ resultsEqual v = false ∧ v.safe.k % 16 ≠ v.safe.lfsr % 16) ∧
    (let v := advance 8 (complex { (endedOnly 15).safe with delay := [(0, ~~~0), (0, ~~~0), (0, ~~~0), (0, 0)] })
     registersBad v = true ∧ v.safe.state = .running) ∧
    (let v := advance 8 (complex { state := .running, passB := { running := true } })
     v.safe.forme.isSome = true ∧ v.safe.compared = false ∧ v.safe.passB.running = true ∧ v.safe.counted = []) ∧
    (let v := advance 8 (complex { state := .running, newConfig := some 0 })
     safetyRuns v = true ∧ v.safe.newConfig.isSome = true) := by decide +kernel

/-- Dual input 0 in test-pulse mode on sources 0 and 1, output 0 in use with feedback terminal 3. -/
def fielded (x : Sio) : State :=
  { live with
    config := [(objKey 0x6000 0x20, [1, 0, 1, 0, 0, 0]), (objKey 0x6000 0x30, [1, 3, 0, 1])]
    safe := { live.safe with state := .running, vector := 3, lastToken := 0xA5 }, sio := x }

theorem witness_terminals :
    (let v := advance 8 (fielded { terms := [(1, { blankedUntil := some 9 })] })
     up v = true ∧ domainOn v 5 = true ∧ safetyRuns v = true ∧ blanked v 1 = true ∧ blanked v 0 = false) ∧
    (let v := advance 8 (fielded {})
     tpDriven v 0 = true ∧ 0 ∈ assigned v 0 ∧ (tpDriven v 0 && darkDue v 0) = false ∧
       (up v && domainOn v 5 && !isSplit v && tpHeld v 0 && !(assigned v 0).isEmpty) = false) ∧
    (let v := advance 0 (fielded {})
     (tpDriven v 0 && darkDue v 0) = true) ∧
    (let v := advance 8 (fielded { tps := [(0, { dark := true })] })
     (getTp v 0).dark = true ∧ v.now < (getTp v 0).darkAt + 600000 ∧ 0 ∈ assigned v 0) ∧
    (let v := advance 600000 (fielded { tps := [(0, { dark := true })] })
     (getTp v 0).dark = true ∧ (getTp v 0).darkAt + 600000 ≤ v.now) ∧
    (let v := advance 1000000000 (fielded { tps := [(0, { overload := true })] })
     (getTp v 0).overload = true ∧ (getTp v 0).triedAt + 1000000000 ≤ v.now) ∧
    (let v := advance 8 { fielded {} with pwr := { live.pwr with presLow := true, posB := true } }
     up v = true ∧ domainOn v 5 = true ∧ isSplit v = false ∧ tpHeld v 0 = true ∧ assigned v 0 ≠ [] ∧
       (up v && domainOn v 5 && !isSplit v && tpHeld v 0 && !(assigned v 0).isEmpty) = true ∧
       (∀ j ∈ assigned v 0, blanked v j = false) ∧
       longDark { v with now := 2600000 } 0 = false ∧ longDark { v with now := 2600001 } 0 = true) := by decide +kernel

theorem witness_tokens :
    (let v := advance 8 (fielded {})
     safetyRuns v = true ∧ 0x5A ≠ v.safe.lastToken ∧ v.safe.lastToken = 0xA5 ∧ v.safe.stageOff = false ∧ v.safe.missed = 0 ∧
       bitOf v.safe.vector 0 = true ∧ bitOf v.safe.vector 1 = true ∧ bitOf v.safe.vector 2 = false ∧
       (getStage v 0).latched = false ∧ v.pwr.fsbOff = false ∧ soField v 0 0 1 ≠ 0 ∧ (getStage v 0).testing = 0) ∧
    (let s := fielded {}
     let v := advance 8 { s with safe := { s.safe with stageOff := true, goodTokens := 14, missed := 1 } }
     safetyRuns v = true ∧ v.safe.stageOff = true ∧ v.safe.goodTokens < 15 ∧ 1 ≤ v.safe.missed) ∧
    (let s := fielded {}
     let v := advance 8 { s with safe := { s.safe with stageOff := true, goodTokens := 15 } }
     safetyRuns v = true ∧ v.safe.stageOff = true ∧ v.safe.goodTokens = 15) := by decide +kernel

theorem witness_stages :
    (let v := advance 8 (fielded { stages := [(0, { hOn := true, lOn := true, committed := true })] })
     let x := getStage v 0
     stagesUp v = true ∧ x.hOn = true ∧ x.lOn = true ∧ x.committed = true ∧ x.testing = 0 ∧ v.safe.missed = 0 ∧
       x.overcurrent = false ∧ v.pwr.presLow = false) ∧
    (∀ n ∈ [1, 2], ∀ p ∈ [false, true],
      let s := fielded { stages := [(0, { testing := n })] }
      let v := advance 8 { s with pwr := { s.pwr with presLow := p } }
      stagesUp v = true ∧ (getStage v 0).testing ≠ 0 ∧ v.pwr.presLow = p) ∧
    (let v := advance 1000000000 (fielded { stages := [(0, { changedAt := some 0 })] })
     let x := getStage v 0
     stagesUp v = true ∧ x.hOn = false ∧ x.testing = 0 ∧ x.external = false ∧ soField v 0 0 1 ≠ 0 ∧
       feedbackWrong v 0 = true ∧ x.feedback = false ∧ v.pwr.presLow = false) := by decide +kernel

/-- Port 0 in a mode, FD off, buffers 0 compact on 5, 1 deep on 6, 2 cyclic, 3 on request, as given. -/
def canned (mode : Nat) (x : CanPort) (b : Tbl CanBuf) : State :=
  { live with
    config := [(objKey 0x3600 1, [BitVec.ofNat 8 mode]),
      (objKey 0x3600 0x21, [1, 0, 0, 0xFF, 5, 0, 0, 0, 0xFF, 7, 0, 0, 0, 0, 10, 0, 2, 0, 2, 0, 6, 0, 0, 0, 0xFF, 7, 0, 0, 0, 0, 0, 0]),
      (objKey 0x3600 0x22, [3, 0x20, 0, 0xFF, 9, 0, 0, 0, 0, 0, 0, 0, 1, 1, 10, 0, 3, 0, 0, 0xFF, 8, 0, 0, 0, 0, 0, 0, 0, 3, 1, 0, 0])]
    prog := { live.prog with mode := .run }, pair := { live.pair with state := .single }
    can := { ports := [(0, { x with synchronised := true })], bufs := b } }

theorem witness_canReceived :
    (let v := advance 8 (canned 1 { rec_ := 5 } [])
     canOn v 0 = true ∧ (getPort v 0).synchronised = true ∧ (getPort v 0).busOff = false ∧ (getPort v 0).fdEnabled = false ∧
       canSends v 0 = true ∧ (getPort v 0).rec_ ≤ 127 ∧ landsOwn v = true ∧ canMode v 0 ≠ 4 ∧
       (∀ b ∈ canBufs v 0, bufMatches (bufRec v 0 b) { id := 4 } = false) ∧
       (canBufs v 0).find? (fun b => bufMatches (bufRec v 0 b) { id := 5 }) = some 0 ∧ (bufRec v 0 0).kind = 1 ∧
       (canBufs v 0).find? (fun b => bufMatches (bufRec v 0 b) { id := 6 }) = some 1 ∧ (bufRec v 0 1).kind ≠ 1 ∧
       (getBuf v 0 1).rx.length < (bufRec v 0 1).depth ∧ (getBuf v 0 0).onBus = none ∧ (getBuf v 0 1).onBus = none ∧
       ({ id := 4, fd := true } : CanFrame).fd = true) ∧
    (let v := advance 8 (canned 1 {} [(1, { rx := [{ frame := {}, stamp := 0 }, { frame := {}, stamp := 0 }] })])
     (canBufs v 0).find? (fun b => bufMatches (bufRec v 0 b) { id := 6 }) = some 1 ∧
       (bufRec v 0 1).depth ≤ (getBuf v 0 1).rx.length) := by decide +kernel

theorem witness_canSent :
    (let v := advance 8 (canned 1 {} [])
     (bufRec v 0 2).kind = 3 ∧ (bufRec v 0 2).trigger = 1 ∧ canOn v 0 = true ∧ v.prog.mode ≠ .stop ∧ v.prog.mode ≠ .hold ∧
       canSends v 0 = true ∧ fdSends v 0 2 = true ∧ canOnBus v 0 = none ∧
       (getBuf v 0 2).state < 2 ∧ (getPort v 0).busOff = false ∧ (getBuf v 0 2).onBus = none ∧
       (getBuf v 0 2).cycleAt ≠ some (gridAt v ((bufRec v 0 2).param * 1000000)) ∧ bufHoldUnsafe v 0 2 = false) ∧
    (let v := advance 8 (canned 1 {} [(2, { cycleAt := some 0, state := 2 })])
     (getBuf v 0 2).cycleAt = some (gridAt v ((bufRec v 0 2).param * 1000000)) ∧ (getBuf v 0 2).state = 2) ∧
    (let v := advance 8 (canned 1 { busOff := true } [])
     (getBuf v 0 2).state < 2 ∧ (getPort v 0).busOff = true) ∧
    (let v := advance 8 (canned 2 {} [])
     canOn v 0 = true ∧ canSends v 0 = false) ∧
    (let s := canned 1 {} []
     let v := advance 8 { s with config := (objKey 0x3600 0x22, [3, 0x22, 0, 0xFF, 9, 0, 0, 0, 0, 0, 0, 0, 1, 1, 10, 0]) :: s.config }
     (bufRec v 0 2).kind = 3 ∧ (bufRec v 0 2).trigger = 1 ∧ canSends v 0 = true ∧ fdSends v 0 2 = false) ∧
    (let v := advance 8 (canned 1 { busOff := true } [(2, { state := 3 })])
     canSends v 0 = true ∧ (getBuf v 0 2).state = 3 ∧ (getPort v 0).busOff = true) ∧
    (let v := advance 8 (canned 1 {} [(2, { onBus := some [1] })])
     canOnBus v 0 = some 2) ∧
    (let v := advance 10000000 (canned 1 {} [])
     canOn v 0 = true ∧ (bufRec v 0 0).kind = 1 ∧ (bufRec v 0 0).param ≠ 0 ∧
       (getBuf v 0 0).lastRx + (bufRec v 0 0).param * 1000000 ≤ v.now) := by decide +kernel

theorem witness_canErrors :
    (let v := advance 8 (canned 1 { tec := 250, passive := true } [(2, { onBus := some [1], bitErrors := [1, 2] })])
     let x := getPort v 0
     canSends v 0 = true ∧ canMode v 0 = 1 ∧ x.synchronised = true ∧ x.busOff = false ∧ x.passive = true ∧ 255 < x.tec + 8 ∧
       canOnBus v 0 = some 2 ∧ 2 ≤ ((getBuf v 0 2).bitErrors.filter (fun i => v.now - i < 1000000000)).length ∧
       bitOf (bufRec v 0 2).flags 5 = true) ∧
    (let v := advance 8 (canned 1 { busOff := true, recovering := true } [(2, { state := 3 })])
     canOn v 0 = true ∧ (getPort v 0).busOff = true ∧ (getPort v 0).recovering = true ∧ 2 ∈ canBufs v 0) ∧
    (let v := advance 1000000000 (canned 4 {} [])
     canOn v 0 = true ∧ canMode v 0 = 4 ∧ (getPort v 0).locked = false ∧
       (getPort v 0).rateAt + cfgNat v (0x3600 + 0) 6 * 1000000 ≤ v.now) ∧
    CanSpot.dataCrc ≠ .flag := by decide +kernel

theorem witness_canRecover :
    (let s := leased [0x3600] (inRole 3 (canned 1 { busOff := true } [(2, { state := 4 })]))
     writeHeard (found 5 s) (cmd1 []) 0x3600 7 [1] = true ∧ writeHeard (found 5 s) (cmd1 []) 0x3600 7 [2] = true ∧
       (getPort (served (found 5 s) 0) 0).busOff = true ∧ 2 ∈ canBufs (served (found 5 s) 0) 0 ∧
       (getBuf (served (found 5 s) 0) 0 2).state = 4) ∧
    (let s := canned 1 { busOff := true } [(2, { state := 4 })]
     (getPort s 0).busOff = true ∧ 2 ∈ canBufs s 0 ∧ (getBuf s 0 2).state = 4) := by decide +kernel

/-- A pair unit at position A in a pair state. -/
def paired (st : PairState) (x : Pair) : State :=
  { live with
    pwr := { live.pwr with presLow := true }, ring := { live.ring with t1Up := true, t2Up := true }
    pair := { x with state := st } }

theorem ownClaim_lt (s : State) : ownClaim s < (gradeField s + 1) * 4096 := by
  have h11 : ∀ b, flagBit 11 b ≤ 2048 := by decide
  have h10 : ∀ b, flagBit 10 b ≤ 1024 := by decide
  have := h11 (isActive s)
  have := h10 (!s.pwr.posB)
  unfold ownClaim
  omega

theorem witness_heartbeatLine :
    (let v := advance 8 (paired .active {})
     domainOn v 7 = true ∧ v.pair.state ≠ .conflict ∧ hbDue v = true ∧ drivesHb v = false) ∧
    (let v := advance 8 (paired .active { hbGrid := some 0, hbAt := some 0 })
     hbDue v = false ∧ v.pair.presChanged = false ∧ drivesHb v = true ∧ drivesHb (advance 20000 v) = false) ∧
    (let s0 := paired .tracking { hbAt := some 0, lastPulse := 1 }
     let s := { s0 with pwr := { s0.pwr with posB := true } }
     hbDue (advance 500000 s) = false ∧ hbDue (advance 500001 s) = true) ∧
    (helloDue (advance 8 (paired .active {})) = true ∧ helloDue (advance 9999999 (paired .active { helloAt := some 0 })) = false ∧
      helloDue (advance 10000000 (paired .active { helloAt := some 0 })) = true) := by decide +kernel

theorem witness_heartbeat :
    (let v := advance 3000000 (paired .active { holding := true, held := [⟨1, 5, none⟩] })
     up v = true ∧ isPairUnit v = true ∧ domainOn v 7 = true ∧ v.pair.state = .active ∧ v.pair.presChanged = false ∧
       v.pair.holding = true ∧ v.pair.held = [⟨1, 5, none⟩] ∧ 5 < v.now ∧ isActive v = true ∧ v.pair.lossAt = none ∧
       5 ∈ unackedAt v ∧ ¬ v.pair.handing.map Handing.trigger = some 5 ∧
       v.pair.lastPulse + 3000000 ≤ v.now) ∧
    (let v := advance 3000000 (paired .tracking {})
     v.pair.state = .tracking ∧ v.pair.lastRecord + 2000000 < v.now) ∧
    (let v := advance 3000000 (paired .tracking { lastRecord := 2000000 })
     v.pair.state = .tracking ∧ v.now ≤ v.pair.lastRecord + 2000000) ∧
    (let v := advance 3000000 { paired .tracking {} with sram := { live.sram with empty := true } }
     isStandby v = true ∧ isActive v = false ∧ healthGrade v < 8) := by decide +kernel

theorem witness_precFrame :
    (let v := advance 8 (paired .active {})
     up v = true ∧ isPairUnit v = true ∧ v.pair.presChanged = false ∧ v.pair.state ≠ .conflict ∧
       samePosition v 0x0C00 = true ∧ samePosition v 0xFB01 = false ∧ v.pair.state = .active ∧ ownClaim v < 0xFB01 ∧
       isStandby v = false ∧ samePosition v 0 = false ∧ 0 ≤ ownClaim v) ∧
    (let v := advance 8 (paired .starting {})
     v.pair.state = .starting ∧ samePosition v 0xFB01 = false ∧ ownClaim v < 0xFB01) := by
  refine ⟨⟨by decide +kernel, by decide +kernel, by decide +kernel, by decide +kernel, by decide +kernel,
    by decide +kernel, by decide +kernel, ?_, by decide +kernel, by decide +kernel, Nat.zero_le _⟩,
    by decide +kernel, by decide +kernel, ?_⟩
  · exact Nat.lt_of_lt_of_le (ownClaim_lt _) (by decide +kernel)
  · exact Nat.lt_of_lt_of_le (ownClaim_lt _) (by decide +kernel)

theorem witness_arbitration :
    (∀ st ∈ [PairState.starting, .tracking, .active],
      let v := advance 1000000 (paired st { arbAt := some 0, lossAt := some 0 })
      v.pair.arbAt = some 0 ∧ v.pair.arbLost = false ∧ 0 + 1000000 ≤ v.now ∧ v.pair.lossAt.isSome = true ∧
        (st = .tracking → 8 ≤ healthGrade v)) ∧
    (let v := advance 1000000 (paired .active { wonAt := some 0 })
     v.pair.wonAt = some 0 ∧ 0 + 1000000 ≤ v.now ∧ v.pair.state = .active ∧
       (v.dio.banks.map (fun e => e.2.fclSeen)).foldl max 0 ≤ ownClaim v) ∧
    (let v := advance 1000000
        { paired .active { wonAt := some 0 } with dio := { live.dio with banks := [(0, { fclSeen := 0xFB01 })] } }
     ownClaim v < (v.dio.banks.map (fun e => e.2.fclSeen)).foldl max 0) ∧
    (let v := advance 3000000 { paired .tracking { lossAt := some 0 } with sram := { live.sram with empty := true } }
     v.pair.lossAt = some 0 ∧ isStandby v = true ∧ healthGrade v < 8 ∧ 0 + 1000000 ≤ v.now ∧ v.pair.lastCommit ≤ 0) ∧
    (let v := advance 8 (paired .active {})
     foreignTwin v 0 = false ∧ isActive v = true ∧ fclStarts v = true ∧
       fclStarts (advance 8 (paired .active { firstAt := some 1000000 })) = false) := by
  refine ⟨by decide +kernel, ⟨by decide +kernel, by decide +kernel, by decide +kernel, Nat.zero_le _⟩, ?_,
    by decide +kernel, by decide +kernel⟩
  exact Nat.lt_of_lt_of_le (ownClaim_lt _) (by decide +kernel)

theorem witness_standbyRecords :
    (let v := advance 8 (paired .tracking { seqIn := some 6, wanted := [⟨7, 1, 1, 1, 0, none⟩] })
     synced v = true ∧ v.pair.state = .tracking ∧ v.pair.seqIn = some 6 ∧ 9 ≠ (6 + 1) % 2 ^ 32 ∧ 7 = (6 + 1) % 2 ^ 32 ∧
       v.pair.wanted.any (fun r => r.record == 7 && decide (r.at_ + 2000000 ≤ (advance 2000000 v).now)) = true ∧
       v.pair.wanted.any (fun r => r.record == 7 && decide (r.at_ + 2000000 ≤ v.now)) = false ∧ engineUp v = true ∧ isSplit v = false) ∧
    (let v := advance 8 { paired .tracking { own := [(0, wordCycle false)] } with
        config := [(objKey 0x2900 1, [2, 10, 0, 0, 0, 0, 0, 0, 1, 0, 3, 0, 0, 0, 0, 0])] }
     synced v = true ∧ v.pair.seqIn = none ∧ v.pair.wanted = [] ∧ aioPoints v 3 = [0]) ∧
    (∀ run ∈ [none, some (wordCycle false)], ∀ own ∈ [([] : Tbl Cycle), [(0, wordCycle false)]],
      let s := paired .tracking { own := own }
      let v := advance 8 { s with prog := { s.prog with tasks := [(0, { cycle := run })] } }
      let z := applyMore [] (storeRec 0 { v with pair := { v.pair with seqIn := some 1, lastRecord := v.now, lastCommit := v.now } })
      synced v = true ∧ v.pair.seqIn = none ∧ z.pair.state = .tracking ∧ Tbl.find z.pair.own 0 = own.head?.map Prod.snd ∧
        (getTask z 0).cycle = run ∧ outputCrc (wordCycle false) = 0 ∧ outputCrc (wordCycle false) ≠ 1) ∧
    (∀ st ∈ [PairState.active, .activeAlone],
      let v := advance 8 (paired st {})
      synced v = true ∧ isActive v = true ∧ v.pair.state ≠ .single ∧ v.pair.copyAt = none ∧ v.pwr.posB = false ∧ samePosition v 0 = false ∧ samePosition v 0x0400 = true) := by
  decide +kernel

theorem witness_standbyDigest :
    let w (v : State) : State := { v with pair := { v.pair with seqIn := some 7, lastRecord := v.now, lastCommit := v.now } }
    let v := advance 8 (paired .tracking { seqIn := some 6 })
    loopDigest (standbyTick [] (w v)) = 0 ∧ loopDigest (standbyTick [] (w v)) ≠ 1 := by decide +kernel

/-- The image of an online change: unsigned, or signed (what its header then says is open, log entry 80); a safety
configuration that fits, and one whose first record breaks its table. -/
theorem witness_partnerChange :
    let v := advance 8 (paired .tracking { seqIn := some 6 })
    imageRow v [] = some 1 ∧ imageSigned (bulked v) (0 :: testSig) = true ∧ isSplit v = false ∧
      safetyFits [(objKey 0x6000 0x20, [0, 0, 0, 0, 0, 0])] [] v = true ∧
      safetyFits [(objKey 0x6000 0x20, [9, 0, 0, 0, 0, 0])] [] v = false := by decide +kernel

theorem witness_copy :
    (let v := advance 8 (paired .syncing {})
     synced v = true ∧ v.pair.state = .syncing ∧ v.pair.copyBroken = false ∧ ∀ q, v.pair.seqIn = some q → 3 = (q + 1) % 2 ^ 32) ∧
    (let v := advance 8 (paired .syncing { copyBroken := true, copyCfg := [(objKey 0x2000 1, [1])] })
     v.pair.state = .syncing ∧ v.pair.copyBroken = true ∧ v.pair.copyCfg ≠ []) ∧
    (let v := advance 3000000000 (paired .syncing { copyAt := some 0 })
     synced v = true ∧ v.pair.state = .syncing ∧ v.pair.copyAt = some 0 ∧ 0 + 3000000000 ≤ v.now) ∧
    (let v := advance 8 (paired .unsynced { retryAt := some 7 })
     synced v = true ∧ v.pair.state = .unsynced ∧ v.pair.retryAt = some 7 ∧ 7 ≤ v.now) := by decide +kernel

theorem witness_ack :
    (let v := advance 8 (paired .active { held := [⟨4, 0, some (0, wordCycle false)⟩], sets := [⟨4, 1, 1, 1, 0, none⟩] })
     synced v = true ∧ isActive v = true ∧ v.pair.state = .active ∧ v.pair.handing = none ∧
       v.pair.held = [⟨4, 0, some (0, wordCycle false)⟩] ∧ v.pair.firstAt = none ∧
       v.pair.sentRecs.filter (fun e => e.1 != 4) = [] ∧ (∃ r ∈ v.pair.sets, r.record = 4)) ∧
    (let v := advance 8 (paired .activeAlone { partnerState := .tracking })
     synced v = true ∧ isActive v = true ∧ v.pair.state = .activeAlone ∧ v.pair.handing = none ∧
       copyTaken 4 v = true) ∧
    (let v := advance 8 (paired .active { handing := some { trigger := 2, session := 0, at_ := 0, seq := some 4 } })
     synced v = true ∧ isActive v = true ∧
       v.pair.handing = some { trigger := 2, session := 0, at_ := 0, seq := some 4 }) ∧
    (∀ p ∈ [0, 9],
      let v := advance 1000000 (paired .active { held := [⟨4, 0, none⟩], lastPulse := p })
      v.pair.state = .active ∧ (4, 0) ∈ v.pair.held.map (fun h => (h.seq, h.sentAt)) ++ v.pair.sentRecs ∧
        0 + 1000000 ≤ v.now ∧ pulseSince v = decide (p = 9) ∧ ¬ v.pair.handing.map Handing.trigger = some 5) := by
  refine ⟨⟨by decide +kernel, by decide +kernel, by decide +kernel, by decide +kernel, by decide +kernel, by decide +kernel,
    by decide +kernel, ⟨_, List.mem_singleton.2 rfl, by decide +kernel⟩⟩, by decide +kernel, by decide +kernel, by decide +kernel⟩

/-- A partner that qualifies to take over, or not. -/
def partnered (st : PairState) (grade : Nat) (x : Pair) : State :=
  paired st { x with partnerState := .tracking, partnerGrade := grade }

theorem witness_switchover :
    (∀ e ∈ [(PairState.active, 14), (.tracking, 14), (.active, 5)],
      let s := leased [0x5000] (inRole 4 (partnered e.1 e.2 {}))
      let v := served (found 5 s) 0
      writeHeard (found 5 s) (cmd1 [1, 0, 0, 0, 0, 0, 0, 0]) 0xF006 1 [] = true ∧ cmdRunning v 6 = false ∧ v.pair.state = e.1 ∧
        v.pair.handing = none ∧ partnerQualifies v = decide (e.2 = 14) ∧ 8 ≤ healthGrade v) ∧
    (let v := advance 8 { partnered .active 14 {} with sram := { live.sram with empty := true } }
     up v = true ∧ v.pair.state = .active ∧ partnerQualifies v = true ∧ v.pair.handing = none ∧ healthGrade v < 8) ∧
    (let v := advance 1000000000
        { partnered .active 15 { marginSince := some 0, fclFault := true } with config := [(objKey 0x5000 8, [1])] }
     up v = true ∧ partnerQualifies v = true ∧ v.pair.handing = none ∧ 8 ≤ healthGrade v ∧ v.pair.marginSince = some 0 ∧
       cfgBool v 0x5000 8 = true ∧ healthGrade v + cfgNat v 0x5000 9 ≤ v.pair.partnerGrade ∧ 0 + 1000000000 ≤ v.now) ∧
    (let v := advance 8 (paired .tracking {})
     synced v = true ∧ v.pair.state = .tracking ∧ v.pair.seqIn = none ∧ 8 ≤ healthGrade v) ∧
    (let s := leased [0x5000] (inRole 4 { partnered .tracking 14 {} with sram := { live.sram with empty := true } })
     let v := served (found 5 s) 0
     writeHeard (found 5 s) (cmd1 [1, 0, 0, 0, 0, 0, 0, 0]) 0xF006 1 [] = true ∧ cmdRunning v 6 = false ∧ v.pair.state = .tracking ∧
       healthGrade v < 8 ∧ synced v = true) := by decide +kernel

/-- A running module with one record queued, and its banks in use or not. -/
def queued (a b : Bool) : State :=
  { live with recd := { live.recd with
    queue := [⟨1, 2, 0x0201, 3, -1, [1, 2, 3, 4, 5, 6]⟩], bank0 := { ok := a }, bank1 := { ok := b } } }

theorem witness_recorder :
    (∀ a ∈ [false, true], ∀ b ∈ [false, true],
      let v := advance 8 (queued a b)
      up v = true ∧ domainOn v 3 = true ∧ v.recd.queue = [⟨1, 2, 0x0201, 3, -1, [1, 2, 3, 4, 5, 6]⟩] ∧ v.recd.bank0.ok = a ∧
        v.recd.bank1.ok = b ∧ startUndecided v ⟨1, 2, 0x0201, 3, -1, [1, 2, 3, 4, 5, 6]⟩ = false) ∧
    (∀ n ∈ [0, 1],
      let v := advance 8 { live with recd := { live.recd with resync := some n } }
      up v = true ∧ v.recd.resync = some n) := by decide +kernel

theorem witness_sram :
    (∀ n ∈ [0, 16],
      let v := advance 86399999999999 { live with sram := { live.sram with corrected := [(5000, 0)], used := n } }
      up v = true ∧ domainOn v 3 = true ∧ Tbl.find v.sram.corrected 5000 = some 0 ∧ v.now - 0 < 86400000000000 ∧
        v.sram.used = n ∧ Tbl.find v.sram.corrected 9 = none ∧ v.pair.state ≠ .active) ∧
    (let v := advance 8 (partnered .active 14 {})
     up v = true ∧ domainOn v 3 = true ∧ v.sram.used < 16 ∧ v.pair.state = .active ∧ partnerQualifies v = true ∧
       v.pair.handing = none) ∧
    (let v := advance 60000000000 (paired .tracking {})
     up v = true ∧ v.pair.state = .tracking ∧ v.sram.scrubbed + 60000000000 ≤ v.now) := by decide +kernel

theorem witness_frames :
    (∃ u, exec (.pulseEnd 5 3) live = .next u) ∧ (∃ u, exec (.aoUpdate 5 3) live = .next u) ∧
    (∃ u, exec (.holdDelay 5 3) live = .next u) ∧ (∃ u, exec (.autobaudDwell 5 3) live = .next u) ∧
    (∃ u, exec (.canRxTimeout 5 3 9) live = .next u) ∧ (∃ u, exec (.coastExpiry 5 3) live = .next u) ∧
    (∃ u, exec (.slotFire 5 3) live = .next u) ∧ (∃ u, exec (.scPulseEnd 5 1) live = .next u) ∧
    (∃ u, exec (.cadTimeout 5 3) live = .next u) ∧ (∃ u, exec (.siAccepted 5 3 1 true) live = .next u) ∧
    (∃ u, exec (.blankEnd 5 3) live = .next u) ∧ (∃ u, exec (.offTest 5 3 true) live = .next u) :=
  ⟨⟨_, rfl⟩, ⟨_, rfl⟩, ⟨_, rfl⟩, ⟨_, rfl⟩, ⟨_, rfl⟩, ⟨_, rfl⟩, ⟨_, rfl⟩, ⟨_, rfl⟩, ⟨_, rfl⟩, ⟨_, rfl⟩, ⟨_, rfl⟩, ⟨_, rfl⟩⟩

theorem witness_abandoned :
    let s := { wordedAt (sysWord 3 9) with config := [(objKey 0x2500 2, [1])] }
    let v := noteStart (.task 0) (advance 8 s)
    ctxCycle v (.task 0) = some (wordCycle false) ∧ atWord (advance 8 s) (.task 0) (sysWord 3 9) = true ∧
      faultStops v 0 = false ∧ heldCycles s 0 = [] := by decide +kernel

theorem witness_closeOutput :
    let s := { leased [0x38C0] (inRole 2 (synchro { state := .closing })) with retired := [⟨1, 3, 0, false⟩] }
    let v := served (found 5 s) 0
    writeHeard (found 5 s) (cmd1 []) 0x38C0 0x0B [1] = true ∧ (getSc v (1 - 0)).state ≠ .armed ∧
      dioRetired v (cfgNat v 0x38C0 3) = true ∧ cfgNat s 0x38C0 3 = 3 ∧ (getSc s 0).state = .closing := by
  decide +kernel

/-! ### Ill-formed commands: one for each check of `Instr.wf`, and the same commands within their bounds -/

theorem test_illFormed1 : ∀ i ∈ ([
    .openReq 0 .svc (2 ^ 14) 0 0 [], .openReq 0 .svc 0 (2 ^ 8) 0 [], .openReq 0 .svc 0 0 (2 ^ 8) [],
    .openReq 0 .svc 0 0 0 (List.replicate 1037 0), .auth 0 .svc (2 ^ 14) 0 [], .auth 0 .svc 0 (2 ^ 8) [],
    .auth 0 .svc 0 0 (List.replicate 1037 0), .read 0 {} (2 ^ 16) 0 0 0 0, .read 0 {} 0 (2 ^ 8) 0 0 0,
    .read 0 {} 0 0 (2 ^ 8) 0 0, .read 0 {} 0 0 0 (2 ^ 32) 0, .read 0 {} 0 0 0 0 (2 ^ 16),
    .writeObject 0 {} (2 ^ 16) 0 0 0 [], .writeObject 0 {} 0 (2 ^ 8) 0 0 [], .writeObject 0 {} 0 0 (2 ^ 8) 0 [],
    .writeObject 0 {} 0 0 0 (2 ^ 32) [], .writeObject 0 {} 0 0 0 0 (List.replicate 1025 0), .leaseExpiry 0 (2 ^ 16),
    .powerFail 0 (2 ^ 16) true, .fuseTrip 0 .t1 (2 ^ 16), .supplyWarning 0 .t1 (2 ^ 16),
    .supplyWarningClear 0 .t1 (2 ^ 16), .supplyOff 0 .t1 (2 ^ 16), .supplyRecovery 0 .t1 (2 ^ 16),
    .duplicateEntryExpiry 0 (2 ^ 48) 0, .duplicateEntryExpiry 0 0 (2 ^ 16), .supervisionFrame 0 (2 ^ 48),
    .pdOutputFrameForwarded 0 (2 ^ 48) 0, .pdOutputFrameForwarded 0 0 (2 ^ 48), .rmFrame 0 .t1 (2 ^ 14) 0 0 0 0 0,
    .rmFrame 0 .t1 0 (2 ^ 24) 0 0 0 0, .rmFrame 0 .t1 0 0 (2 ^ 8) 0 0 0, .rmFrame 0 .t1 0 0 0 (2 ^ 8) 0 0,
    .rmFrame 0 .t1 0 0 0 0 (2 ^ 8) 0, .rmFrame 0 .t1 0 0 0 0 0 (2 ^ 32), .tbFrame 0 .t1 (2 ^ 24) 0 0 0 0,
    .tbFrame 0 .t1 0 0 (2 ^ 14) 0 0, .tbFrame 0 .t1 0 0 0 (2 ^ 8) 0, .tbFrame 0 .t1 0 0 0 0 (2 ^ 8),
    .ldFrame 0 .t1 (2 ^ 8) 0 0 0, .reg 0 .passA (2 ^ 8) 0 0 0 1, .reg 0 .passA 0 32 0 0 1, .reg 0 .passA 0 0 32 0 1,
    .reg 0 .passA 0 0 0 32 1, .reg 0 .passA 0 0 0 0 0] : List Instr), i.wf = false := by decide +kernel

theorem test_illFormed2 : ∀ i ∈ ([
    .reg 0 .passA 0 0 0 0 14, .imm 0 .passA (2 ^ 8) 0 0, .imm 0 .passA 0 32 0, .imm 0 .passA 0 0 (2 ^ 15),
    .frameLoad 0 .passA (2 ^ 5) 0 0, .frameLoad 0 .passA 0 (2 ^ 2) 0, .frameLoad 0 .passA 0 0 (2 ^ 17),
    .frameStore 0 .passA (2 ^ 5) 0 0, .frameStore 0 .passA 0 (2 ^ 2) 0, .frameStore 0 .passA 0 0 (2 ^ 17),
    .frameLoadAddress 0 .passA (2 ^ 5) 0 0, .frameLoadAddress 0 .passA 0 (2 ^ 2) 0,
    .frameLoadAddress 0 .passA 0 0 (2 ^ 17), .pointReadValue 0 .passA (2 ^ 5) 0, .pointReadValue 0 .passA 0 (2 ^ 18),
    .pointReadQuality 0 .passA (2 ^ 5) 0, .pointReadQuality 0 .passA 0 (2 ^ 18),
    .pointReadTimestamp 0 .passA (2 ^ 5) 0, .pointReadTimestamp 0 .passA 0 (2 ^ 18),
    .pointWriteValue 0 .passA (2 ^ 5) 0, .pointWriteValue 0 .passA 0 (2 ^ 18), .branch 0 .passA (2 ^ 4) 0 0,
    .branch 0 .passA 0 (2 ^ 5) 0, .branch 0 .passA 0 0 (2 ^ 19), .callUserBlock 0 .passA (2 ^ 26),
    .callRomBlock 0 .passA (2 ^ 26), .callFunction 0 .passA (2 ^ 26), .ext 0 .passA (2 ^ 28),
    .sysReturn 0 .passA (2 ^ 20), .sysEndOfCycle 0 .passA (2 ^ 20), .sysTrap 0 .passA (2 ^ 20),
    .ton 0 .passA (2 ^ 22) true 0, .tof 0 .passA (2 ^ 22) true 0, .tp 0 .passA (2 ^ 22) true 0,
    .rTrig 0 .passA (2 ^ 22) true, .fTrig 0 .passA (2 ^ 22) true, .ctu 0 .passA (2 ^ 22) true true 0,
    .ctd 0 .passA (2 ^ 22) true true 0, .ctud 0 .passA (2 ^ 22) true true true true 0,
    .sr 0 .passA (2 ^ 22) true true, .rs 0 .passA (2 ^ 22) true true, .canRecv 0 0 8 0, .canRecv 0 0 0 128,
    .canSend 0 0 8 0 0 [], .canSend 0 0 0 128 0 []] : List Instr), i.wf = false := by decide +kernel

theorem test_illFormed3 : ∀ i ∈ ([
    .canSend 0 0 0 0 (2 ^ 29) [], .canSend 0 0 0 0 0 (List.replicate 65 0), .canStateRecover 0 0 8,
    .canStateReenable 0 0 8, .emergencyStopBlock 0 .passA 44, .guardInterlockBlock 0 .passA 44,
    .twoHandControlBlock 0 .passA 44, .lightCurtainBlock 0 .passA 44, .soStatusBlock 0 .passA 8,
    .upstreamFrame 0 0 true true (2 ^ 16) 0 0 0, .upstreamFrame 0 0 true true 0 (2 ^ 16) 0 0,
    .upstreamFrame 0 0 true true 0 0 0 (2 ^ 16), .diEdgeAccepted 0 0 (2 ^ 16) 0,
    .bankOverload 0 0 (2 ^ 16), .openLoad 0 0 (2 ^ 16), .externalDrive 0 0 (2 ^ 16), .bankSupplyOff 0 0 (2 ^ 16),
    .bankRestore 0 0 (2 ^ 16), .bicReset 0 0 (2 ^ 16), .token 0 (2 ^ 64), .precFrame 0 (2 ^ 16),
    .input 0 (2 ^ 32) [], .tick 0 (2 ^ 32) ⟨[], []⟩ 0, .tick 0 0 ⟨[], []⟩ (2 ^ 64),
    .task 0 (2 ^ 32) ⟨0, 0, [], [], [], [], [], 0, []⟩, .ack 0 (2 ^ 32) 0, .ack 0 0 (2 ^ 8), .ackTimeout 0 (2 ^ 32),
    .remoteSetMissing 0 (2 ^ 32), .copy 0 (2 ^ 32) (.forces []) true, .handover 0 (2 ^ 32) 0 0,
    .handover 0 0 (2 ^ 32) 0, .handover 0 0 0 (2 ^ 8), .change 0 (2 ^ 32) (.forme {}), .fclFrame 0 40 0,
    .fclFrame 0 0 (2 ^ 16)] : List Instr), i.wf = false := by decide +kernel

theorem test_wellFormed1 : ∀ i ∈ ([
    .openReq 0 .svc 0 0 0 [], .auth 0 .svc 0 0 [], .close 0 {}, .read 0 {} 0 0 0 0 0, .writeObject 0 {} 0 0 0 0 [],
    .txnBegin 0 {}, .txnAbort 0 {}, .keepalive 0 {}, .modeSetStop 0 {}, .modeSetRun 0 {}, .modeSetHold 0 {},
    .modeSetStep 0 {}, .onlineChangePrepareAndSwap 0 {}, .onlineChangePrepareOnly 0 {}, .onlineChangeCancel 0 {},
    .readmit 0 {}, .timeRestepFollower 0 {}, .timeRestepMaster 0 {}, .recorderSnapshot 0 {}, .switchoverRequest 0 {},
    .configCommit 0 {}, .configCommitPrepare 0 {}, .configCommitConfirm 0 {}, .leaseAcquire 0 {}, .leaseRenew 0 {},
    .leaseRelease 0 {}, .leaseExpiry 0 0, .forcePoint 0 {}, .forceRelease 0 {}, .forceReleaseAll 0 {},
    .domainReset 0 {}, .patchInstall 0 {} true, .patchRemove 0 {}, .bulkLength 0 {}, .bulkData 0 {}, .slotKey 0 0 {},
    .signerKey 0 0 {}, .scArmTrue 0 0 {}, .scArmFalse 0 0 {}, .loopMode 0 0 {}, .axCommandHome 0 0 {},
    .axCommandStopRamp 0 0 {}, .axCommandStopHard 0 0 {}, .canRecoverBusOff 0 0 {}, .canRecoverCollision 0 0 {}] : List Instr), i.wf = true := by decide +kernel

theorem test_wellFormed2 : ∀ i ∈ ([
    .powerFail 0 0 true, .fuseTrip 0 .t1 0, .supplyWarning 0 .t1 0, .supplyWarningClear 0 .t1 0, .supplyOff 0 .t1 0,
    .supplyRecovery 0 .t1 0, .duplicateEntryExpiry 0 0 0, .supervisionFrame 0 0, .pdOutputFrameForwarded 0 0 0,
    .rmFrame 0 .t1 0 0 0 0 0 0, .tbFrame 0 .t1 0 0 0 0 0, .ldFrame 0 .t1 0 0 0 0, .reg 0 .passA 0 0 0 0 1,
    .imm 0 .passA 0 0 0, .frameLoad 0 .passA 0 0 0, .frameStore 0 .passA 0 0 0, .frameLoadAddress 0 .passA 0 0 0,
    .pointReadValue 0 .passA 0 0, .pointReadQuality 0 .passA 0 0, .pointReadTimestamp 0 .passA 0 0,
    .pointWriteValue 0 .passA 0 0, .branch 0 .passA 0 0 0, .callUserBlock 0 .passA 0, .callRomBlock 0 .passA 0,
    .callFunction 0 .passA 0, .ext 0 .passA 0, .sysReturn 0 .passA 0, .sysEndOfCycle 0 .passA 0, .sysTrap 0 .passA 0,
    .ton 0 .passA 0 true 0, .tof 0 .passA 0 true 0, .tp 0 .passA 0 true 0, .rTrig 0 .passA 0 true,
    .fTrig 0 .passA 0 true, .ctu 0 .passA 0 true true 0, .ctd 0 .passA 0 true true 0,
    .ctud 0 .passA 0 true true true true 0, .sr 0 .passA 0 true true, .rs 0 .passA 0 true true, .canRecv 0 0 0 0,
    .canSend 0 0 0 0 0 [], .canStateRecover 0 0 0, .canStateReenable 0 0 0, .emergencyStopBlock 0 .passA 0,
    .guardInterlockBlock 0 .passA 0] : List Instr), i.wf = true := by decide +kernel

theorem test_wellFormed3 : ∀ i ∈ ([
    .twoHandControlBlock 0 .passA 0, .lightCurtainBlock 0 .passA 0, .soStatusBlock 0 .passA 0,
    .upstreamFrame 0 0 true true 0 0 0 0, .diEdgeAccepted 0 0 0 0, .bankOverload 0 0 0, .openLoad 0 0 0,
    .externalDrive 0 0 0, .bankSupplyOff 0 0 0, .bankRestore 0 0 0, .bicReset 0 0 0, .token 0 0, .precFrame 0 0,
    .input 0 0 [], .tick 0 0 ⟨[], []⟩ 0, .task 0 0 ⟨0, 0, [], [], [], [], [], 0, []⟩, .ack 0 0 0, .ackTimeout 0 0,
    .remoteSetMissing 0 0, .copy 0 0 (.forces []) true, .handover 0 0 0 0, .change 0 0 (.forme {}), .fclFrame 0 0 0] : List Instr), i.wf = true := by decide +kernel

theorem test_illFormedHeaders : ∀ h ∈ ([{ peer := 2 ^ 14 }, { session := 256 }, { seq := 2 ^ 32 }, { service := some 256 },
      { service := some 0x01 }, { flags := 256 }, { rsv3 := 256 }, { rsv10 := 2 ^ 16 }] : List Hdr),
    h.wf = false ∧ ∀ i ∈ ([
    .close 0 h, .read 0 h 0 0 0 0 0, .writeObject 0 h 0 0 0 0 [], .txnBegin 0 h, .txnAbort 0 h, .keepalive 0 h] : List Instr), i.wf = false := by decide +kernel

theorem test_illFormedWrites : ∀ c ∈ ([{ hdr := { seq := 2 ^ 32 } }, { ty := 256 }, { off := 2 ^ 32 },
      { rest := List.replicate 1025 0 }] : List Cmd),
    c.wf = false ∧ ∀ i ∈ ([
    .modeSetStop 0 c, .modeSetRun 0 c, .modeSetHold 0 c, .modeSetStep 0 c, .onlineChangePrepareAndSwap 0 c,
    .onlineChangePrepareOnly 0 c, .onlineChangeCancel 0 c, .readmit 0 c, .timeRestepFollower 0 c,
    .timeRestepMaster 0 c, .recorderSnapshot 0 c, .switchoverRequest 0 c, .configCommit 0 c,
    .configCommitPrepare 0 c, .configCommitConfirm 0 c, .leaseAcquire 0 c, .leaseRenew 0 c, .leaseRelease 0 c,
    .forcePoint 0 c, .forceRelease 0 c, .forceReleaseAll 0 c, .domainReset 0 c, .patchInstall 0 c true,
    .patchRemove 0 c, .bulkLength 0 c, .bulkData 0 c, .slotKey 0 0 c, .signerKey 0 0 c, .scArmTrue 0 0 c,
    .scArmFalse 0 0 c, .loopMode 0 0 c, .axCommandHome 0 0 c, .axCommandStopRamp 0 0 c, .axCommandStopHard 0 0 c,
    .canRecoverBusOff 0 0 c, .canRecoverCollision 0 0 c] : List Instr), i.wf = false := by decide +kernel

/-! ### Values worked out from the manual, outside the model -/

/-- The check values of the polynomials the manual names, over the digits 1 to 9 (12 R284; 10 R228, R240). -/
theorem test_crcs :
    let d := (List.range 9).map (fun i => BitVec.ofNat 8 (0x31 + i))
    crc16 d = 0x29B1 ∧ crc32 d = 0xCBF43926 ∧ crc64 0 d = 0x6C40DF5F0B497347 := by decide +kernel

/-- SHA-256 of `abc`, the example of FIPS 180-4 (04 R80). -/
theorem test_sha256 :
    (sha256 [0x61, 0x62, 0x63]) = (leBytes 32 0xba7816bf8f01cfea414140de5dae2223b00361a396177a9cb410ff61f20015ad).reverse := by
  decide +kernel

/-- IEEE 754 binary32 (00 R8): 1.5 + 2.25 = 3.75, 1 / 3 to nearest even, 3 × 0.5 = 1.5, √4 = 2. -/
theorem test_real :
    f32Add 0x3FC00000 0x40100000 = 0x40700000 ∧ f32Div 0x3F800000 0x40400000 = 0x3EAAAAAB ∧
      f32Mul 0x40400000 0x3F000000 = 0x3FC00000 ∧ f32Sqrt 0x40800000 = 0x40000000 := by decide +kernel

/-- A coded word of 10 R238: A × v + tag, and a word of another cycle is not valid. -/
theorem test_coded :
    encodeWord 0 (BitVec.ofInt 32 (-1)) = -58658 ∧ encodeWord 4096 5 = 293296 ∧ decodeWord 3 (encodeWord 3 7) = some 7 ∧
      decodeWord 4 (encodeWord 3 7) = none := by decide +kernel

/-- R6: the least significant byte comes first, and the header's fields the other way round. -/
theorem test_byteOrder : leBytes 4 0x12345678 = [0x78, 0x56, 0x34, 0x12] ∧ beBytes 2 0x1234 = [0x12, 0x34] ∧
    signedAt [0xFE, 0xFF] 0 2 = -2 := by decide +kernel

/-- An abort code of R96: class, subsystem byte and number. -/
theorem test_abortCode : (⟨4, 0x38, 5, 0x38C0, 0x0B, 0⟩ : Abort).code = 0x04380005 ∧
    (⟨4, 0x38, 5, 0x38C0, 0x0B, 0⟩ : Abort).body = [5, 0, 0x38, 4, 0xC0, 0x38, 0x0B, 0, 0, 0, 0, 0] := by decide +kernel

/-- Derating of 02 R45: 1,500 mA up to 55 °C, 900 mA at 70 °C. -/
theorem test_derating : derateAt 550 0 = 1500 ∧ derateAt 551 0 = 1496 ∧ derateAt 700 0 = 900 ∧ derateAt 701 77 = 77 := by
  decide +kernel

/-- The lowest cap among the conditions present: a unit with one trunk port, a retired channel, no trunk port (16 R408). -/
theorem test_grade :
    healthGrade { live with ring := { live.ring with t1Up := true, t2Up := true } } = 15 ∧
      healthGrade { live with ring := { live.ring with t1Up := true } } = 13 ∧
      healthGrade { live with ring := { live.ring with t1Up := true, t2Up := true }, retired := [⟨1, 3, 0, false⟩] } = 14 ∧
      healthGrade live = 7 := by decide +kernel

/-- The arbitration field orders a base frame before an extended one of the same first 11 bits (15 R376). -/
theorem test_arbitration : arbField false false 5 < arbField true false (5 * 2 ^ 18) ∧
    arbField false false 5 < arbField false true 5 ∧ arbField false true 5 < arbField false false 6 := by decide +kernel

/-- A signed signal of 12 bits from bit 0, least significant first (15 R374): the bytes 0xFE, 0x0F are −2. -/
theorem test_signal : signalBits 0 11 = [0, 1, 2, 3, 4, 5, 6, 7, 8, 9, 10, 11] ∧
    signalValue 0 (11 + 128) [0xFE, 0x0F] = BitVec.ofInt 32 (-2) := by decide +kernel

/-- The queue: two commands run in the order they came, each on what the one before left. -/
theorem test_queue :
    step { live with pending := [.presenceKey 5 600, .presenceKey 9 600] } = exec (.presenceKey 5 600)
      { live with pending := [.presenceKey 9 600] } ∧ State.reset.withFetchWord 0 0 = State.reset := ⟨rfl, rfl⟩

end Sys2Proof.Tests
end

section
/-! SUPPORT. What every command does, said once: it answers a next state, it changes beside the clock only the parts
`touches` names, and it keeps what `Kept` names. Frames and invariants of all commands follow from `exec_endsWithin`. -/

namespace Sys2Proof.Machine

/-- Every part of the second list is one of the first. -/
def covers (ps qs : List Part) : Bool := qs.all fun p => ps.contains p

theorem mem_of_covers {ps qs : List Part} (h : covers ps qs = true) : ∀ p ∈ qs, p ∈ ps := fun p hp =>
  List.contains_iff_mem.1 (List.all_eq_true.1 h p hp)

theorem Untouched.append {ps qs : List Part} {s t u : State} (h : Untouched ps s t) (k : Untouched qs t u) :
    Untouched (ps ++ qs) s u :=
  (h.mono fun _ => List.mem_append_left qs).trans (k.mono fun _ => List.mem_append_right ps)

/-- The change from `s` to `t` stays within the parts named and keeps what `Kept` names. -/
structure Within (a : Allow) (ps : List Part) (s t : State) : Prop where
  frame : Untouched ps s t
  kept : Kept a s t

/-- A command's outcome is a next state, within bounds of the state at the command's instant. -/
def EndsWithin (a : Allow) (ps : List Part) (s : State) (o : Out) : Prop := ∃ n u, o = .next u ∧ Within a ps (advance n s) u

/-- What a command may undo (18 R436; 10 R224; 16 R384): READMIT acts by its own row, as a WRITE of its object, or served at
the tick when it waited for a FORCE; STARTUP starts the module. -/
def allowed (i : Instr) : Allow :=
  match i with
  | .readmit .. | .writeObject .. | .engineTick .. => ⟨true, false⟩
  | .startup .. => ⟨false, true⟩
  | _ => ⟨false, false⟩

section
variable {a : Allow} {ps qs : List Part} {s t u : State}

/-! ### Operations -/

theorem Within.refl (s : State) : Within a ps s s := ⟨.refl _ s, .refl a s⟩

theorem Within.trans (h : Within a ps s t) (k : Within a ps t u) : Within a ps s u := ⟨h.frame.trans k.frame, h.kept.trans k.kept⟩

/-- An operation whose frame lies within the parts named. -/
theorem Within.of (f : Untouched qs s t) (k : Kept a s t) (h : covers ps qs = true := by rfl) : Within a ps s t :=
  ⟨f.mono (mem_of_covers h), k⟩

theorem Within.ite {c : Prop} [Decidable c] (h : Within a ps s t) (k : Within a ps s u) :
    Within a ps s (if c then t else u) := by
  split
  · exact h
  · exact k

theorem Within.when {c : Prop} [Decidable c] (f : Untouched qs s t) (k : Kept a s t) (h : covers ps qs = true := by rfl) :
    Within a ps s (if c then t else s) := .ite (.of f k h) (.refl s)

theorem Within.forAll {l : List Nat} {f : Nat → State → State} (h : ∀ n t, Within a ps t (f n t)) : Within a ps s (forAll l f s) :=
  ⟨.forAll (fun n t ht => ht.trans (h n t).frame) (.refl ..), forAll_kept (fun n t ht => ht.trans (h n t).kept) (.refl ..)⟩

theorem Within.onWord {x : Ctx} {f : Cycle → State → State} (h : ∀ c t, Within a ps t (f c t))
    (hp : covers ps [.prog] = true := by rfl) : Within a ps s (onWord x f s) :=
  ⟨onWord_frame x (mem_of_covers hp) (fun c t ht => ht.trans (h c t).frame) (.refl ..),
    onWord_kept _ _ (fun c t ht => ht.trans (h c t).kept) (.refl ..)⟩

theorem Within.onCode {x : Ctx} {w : BitVec 32} {f : Cycle → State → State} (h : ∀ c t, Within a ps t (f c t))
    (hp : covers ps [.prog] = true := by rfl) : Within a ps s (onCode x w f s) :=
  ⟨onCode_frame x w (mem_of_covers hp) (fun c t ht => ht.trans (h c t).frame) (.refl ..),
    onCode_kept _ _ _ (fun c t ht => ht.trans (h c t).kept) (.refl ..)⟩

theorem Within.withReg {x : Ctx} {w : Nat} {c : Cycle} {f : Word64 → State → State} (h : ∀ v t, Within a ps t (f v t))
    (hp : covers ps [.img, .safe, .sio, .recd] = true := by rfl) : Within a ps s (withReg x w c f s) :=
  ⟨withReg_frame x w c (mem_of_covers hp) (fun v t ht => ht.trans (h v t).frame) (.refl ..),
    withReg_kept _ _ _ _ (fun v t ht => ht.trans (h v t).kept) (.refl ..)⟩

/-- The WRITE a row spells (04 R93, Table 4.16), by the operation of its object. -/
theorem Within.row {c : Cmd} {idx sub : Nat} {fixed : List Byte} {act : List Byte → Nat → State → Answer × State}
    (f : ∀ d n s, Untouched qs s (act d n s).2) (k : ∀ d n s, Kept a s (act d n s).2)
    (h : covers ps (requestParts ++ qs) = true := by rfl) : Within a ps s (rowReq c idx sub fixed act s) := by
  have hp := mem_of_covers h
  refine ⟨rowReq_frame _ _ _ _ (fun p m => hp p (List.mem_append_left qs m)) (fun d n t ht => ?_) (.refl ..),
    rowReq_kept _ _ _ _ (fun d n t ht => ht.trans (k d n t)) (.refl ..)⟩
  exact ht.step (f d n t) fun p m => hp p (List.mem_append_right requestParts m)

/-! ### Commands -/

theorem EndsWithin.next {n : Nat} (h : Within a ps (advance n s) t) : EndsWithin a ps s (.next t) := ⟨n, t, rfl, h⟩

/-- A command that is one operation. -/
theorem EndsWithin.of {n : Nat} (f : Untouched qs (advance n s) t) (k : Kept a (advance n s) t)
    (h : covers ps qs = true := by rfl) : EndsWithin a ps s (.next t) := .next (.of f k h)

/-- A command that acts when a condition holds and leaves the state be otherwise. -/
theorem EndsWithin.when {n : Nat} {c : Prop} [Decidable c] (f : Untouched qs (advance n s) t) (k : Kept a (advance n s) t)
    (h : covers ps qs = true := by rfl) : EndsWithin a ps s (.next (if c then t else advance n s)) := .next (.when f k h)

theorem execPresenceKey_ends (n held : Nat) (s : State) : EndsWithin a [.pair, .sess, .recd] s (execPresenceKey n held s) :=
  .next (.ite (.refl _) (.ite (.of (emit_frame ..) (emit_kept _ _ _ (.refl ..))) (.when
    ((Untouched.put (ps := [.sess]) (.refl ..)).append (emit_frame ..)) (emit_kept _ _ _ (.put (.refl ..))))))

theorem execPdOutputFrameForwarded_ends (n dst src : Nat) (s : State) :
    EndsWithin a [.pair, .ring, .recd] s (execPdOutputFrameForwarded n dst src s) := by
  refine .next (.ite (.refl _) ?_)
  split
  · exact .refl _
  · refine .ite (.refl _) (.ite ?_ ?_)
    · exact .of ((modNode_frame ..).append (emit_frame ..)) (emit_kept _ _ _ (modNode_kept _ _ (.refl ..)))
    · exact .of (modNode_frame ..) (modNode_kept _ _ (.refl ..))

theorem execExchangePeriodEnd_ends (n : Nat) (k : Fin 2048) (s : State) :
    EndsWithin a [.pair, .img, .ring, .recd] s (execExchangePeriodEnd n k s) := by
  refine .next (n := n) ?_
  split
  · exact .refl _
  · exact .ite (.refl _) (.of (periodEndState_frame ..) (periodEndState_kept _ _ _ (.refl ..)))

theorem execAddressConflictEnd_ends (n : Nat) (s : State) :
    EndsWithin a [.pair, .ring, .recd] s (execAddressConflictEnd n s) := by
  refine .next (n := n) ?_
  split
  · exact .when ((Untouched.put (ps := [.ring]) (.refl ..)).append (emit_frame ..)) (emit_kept _ _ _ (.put (.refl ..)))
  · exact .refl _

theorem execBeaconTimeout_ends (n : Nat) (s : State) : EndsWithin a [.pair, .clk, .recd] s (execBeaconTimeout n s) := by
  refine .next (n := n) ?_
  split
  · exact .when ((setRate_frame ..).append (enterDisc_frame ..)) (enterDisc_kept _ (setRate_kept _ (.refl ..)))
  · exact .refl _

theorem execLdSend_ends (n : Nat) (s : State) : EndsWithin a [.pair, .outbox, .ring] s (execLdSend n s) :=
  .next (.ite (.trans (.when (sendLd_frame ..) (sendLd_kept _ _ _ _ _ (.refl ..)))
    (.when (sendLd_frame ..) (sendLd_kept _ _ _ _ _ (.refl ..)))) (.refl _))

theorem execTrackerSourceLoss_ends (n : Nat) (k : Fin 8) (s : State) :
    EndsWithin a [.pair, .img, .cad, .recd] s (execTrackerSourceLoss n k s) := by
  refine .next (.ite (.refl _) ?_)
  have lost {s : State} : Within a [.pair, .img, .cad, .recd] s (loseTracker k s) :=
    .of (loseTracker_frame ..) (loseTracker_kept _ (.refl ..))
  split
  · exact .refl _
  · exact lost
  · exact lost
  · exact .ite lost (.refl _)

theorem execBranch_ends (n : Nat) (x : Ctx) (cond w disp : Nat) (s : State) :
    EndsWithin a [.pair, .img, .prog, .safe, .sio, .recd] s (execBranch n x cond w disp s) :=
  .next (.onCode fun _ _ => .withReg fun _ _ => .of (setCycle_frame ..) (setCycle_kept _ _ (.refl ..)))

theorem execSoStatusBlock_ends (n : Nat) (x : Ctx) (k : Nat) (s : State) :
    EndsWithin a [.pair, .sess, .img, .prog, .cad, .can, .safe, .sio, .recd] s (execSoStatusBlock n x k s) :=
  .next (.onWord fun _ _ => .ite (.of (wordFault_frame ..) (wordFault_kept _ _ _ (.refl ..)))
    (.of (setCycle_frame ..) (setCycle_kept _ _ (.refl ..))))

theorem execStepCycleTimeout_ends (n : Nat) (k : Fin 48) (s : State) :
    EndsWithin a [.pair, .prog] s (execStepCycleTimeout n k s) := by
  refine .next (n := n) ?_
  split
  · exact .when (abandonCycle_frame ..) (abandonCycle_kept _ (.refl ..))
  · exact .refl _

theorem execBankOverload_ends (n : Nat) (b : Fin 8) (ma : Nat) (s : State) :
    EndsWithin a [.pair, .dio, .recd] s (execBankOverload n b ma s) :=
  .next (.ite (.trans (.of ((modBank_frame ..).append (bankOff_frame ..)) (bankOff_kept _ (modBank_kept _ _ (.refl ..))))
    (.when (emit_frame ..) (emit_kept _ _ _ (.refl ..)))) (.refl _))

theorem execRestoreGroup_ends (n : Nat) (b : Fin 8) (s : State) :
    EndsWithin a [.pair, .dio, .recd] s (execRestoreGroup n b s) := by
  have group {t : State} {f : Bank → Bank} : Within a [.pair, .dio, .recd] t (modBank b f t) :=
    .of (modBank_frame ..) (modBank_kept _ _ (.refl ..))
  have switches {t : State} {l : List Nat} : Within a [.pair, .dio, .recd] t (forAll l (setSwitch · true) t) :=
    .forAll fun _ _ => .of (setSwitch_frame ..) (setSwitch_kept _ _ (.refl ..))
  exact .next (.ite (.refl _) ((switches.trans group).trans (.ite group (.refl _))))

theorem execOpenLoad_ends (n : Nat) (ch : Fin 96) (ma : Nat) (s : State) :
    EndsWithin a [.pair, .dio, .recd] s (execOpenLoad n ch ma s) :=
  .next (.ite (.trans (.of (modDio_frame ..) (modDio_kept _ _ (.refl ..)))
    (.when (emit_frame ..) (emit_kept _ _ _ (.refl ..)))) (.when (endOpenLoad_frame ..) (endOpenLoad_kept _ (.refl ..))))

theorem execPulseEnd_ends (n : Nat) (ch : Fin 96) (s : State) : EndsWithin a [.pair, .dio, .recd] s (execPulseEnd n ch s) := by
  refine .next (n := n) ?_
  split
  · exact .when ((modDio_frame ..).append (commandLevel_frame ..)) (commandLevel_kept _ _ (modDio_kept _ _ (.refl ..)))
  · exact .refl _

theorem execAoUpdate_ends (n : Nat) (ch : Fin 32) (s : State) :
    EndsWithin a [.pair, .freeN, .outbox, .img, .prog, .eng, .ring, .dio, .aio, .can] s (execAoUpdate n ch s) :=
  .next (.trans (.of (loopsRelease_frame _) (loopsRelease_kept (.refl ..)))
    (.when ((modAio_frame ..).append (aoApply_frame ..)) (aoApply_kept _ (modAio_kept _ _ (.refl ..)))))

theorem execReadbackMismatch_ends (n : Nat) (ch : Fin 32) (s : State) :
    EndsWithin a [.pair, .img, .aio, .recd, .retired] s (execReadbackMismatch n ch s) := by
  refine .next (n := n) ?_
  split
  · exact .when (chipFault_frame ..) (chipFault_kept _ _ (.refl ..))
  · exact .refl _

/-- A channel is noted, and an output channel takes its output anew (13 R313, R321). -/
theorem Within.thenApply {ch : Fin 32} {f : Aio → Aio} :
    Within a [.pair, .aio] s (let v := modAio ch f s; if isAo v ch then aoApply ch v else v) :=
  .trans (.of (modAio_frame ..) (modAio_kept _ _ (.refl ..))) (.when (aoApply_frame ..) (aoApply_kept _ (.refl ..)))

theorem execChannelChipReinitialised_ends (n : Nat) (ch : Fin 32) (s : State) :
    EndsWithin a [.pair, .aio] s (execChannelChipReinitialised n ch s) := .next (.ite .thenApply (.refl _))

theorem execAioLinkSilence_ends (n : Nat) (ch : Fin 32) (s : State) :
    EndsWithin a [.pair, .aio] s (execAioLinkSilence n ch s) := .next (.ite .thenApply (.refl _))

theorem execPartnerMismatch_ends (n : Nat) (ch : Fin 32) (present : Bool) (s : State) :
    EndsWithin a [.pair, .aio] s (execPartnerMismatch n ch present s) :=
  .next (.ite (.when ((modAio_frame ..).append (selfTestFailed_frame ..)) (selfTestFailed_kept _ (modAio_kept _ _ (.refl ..))))
    (.ite (.refl _) (.of (modAio_frame ..) (modAio_kept _ _ (.refl ..)))))

theorem execHoldDelay_ends (n : Nat) (axis : Fin 24) (s : State) :
    EndsWithin a [.pair, .outbox, .ring, .mot, .recd] s (execHoldDelay n axis s) :=
  .next (.ite (.trans (.trans (.of (modAxis_frame ..) (modAxis_kept _ _ (.refl ..)))
    (.when (send_frame ..) (send_kept _ (.refl ..)))) (.when (losePos_frame ..) (losePos_kept _ _ (.refl ..)))) (.refl _))

theorem execStandbyRecordTimeout_ends (n : Nat) (s : State) :
    EndsWithin a [.pair, .sess, .recd] s (execStandbyRecordTimeout n s) := by
  refine .next (n := n) ?_
  split
  · exact .when (enterUnsynced_frame _) (enterUnsynced_kept (.refl ..))
  · exact .refl _

theorem execCopyTimeout_ends (n : Nat) (s : State) : EndsWithin a [.pair, .sess, .recd] s (execCopyTimeout n s) := by
  refine .next (n := n) ?_
  split
  · exact .when ((enterUnsynced_frame _).append (Untouched.put (ps := [.pair]) (.refl ..))) (.put (enterUnsynced_kept (.refl ..)))
  · exact .refl _

theorem execCopyRetry_ends (n : Nat) (s : State) : EndsWithin a [.pair, .recd] s (execCopyRetry n s) := by
  refine .next (n := n) ?_
  split
  · exact .when ((Untouched.put (ps := [.pair]) (.refl ..)).append (enterPair_frame ..)) (enterPair_kept _ (.put (.refl ..)))
  · exact .refl _

theorem execFuseReclose_ends (n : Nat) (port : Port) (s : State) : EndsWithin a [.pair, .pwr] s (execFuseReclose n port s) := by
  cases port <;> exact .when (qs := [.pwr]) (.put (.refl ..)) (.put (.refl ..))

theorem execSramScrub_ends (n : Nat) (s : State) : EndsWithin a [.pair, .sram] s (execSramScrub n s) :=
  .when (qs := [.sram]) (.put (.refl ..)) ⟨⟨rfl, rfl, List.suffix_refl _, List.suffix_refl _, Nat.le_refl _, fun _ _ m => m,
    fun _ => rfl, fun _ => rfl, fun _ => rfl⟩, fun k => { k with }⟩

end

/-- What every command does. -/
theorem exec_endsWithin (i : Instr) (s : State) : EndsWithin (allowed i) (.pair :: touches i) s (exec i s) := by
  cases i with
  | openReq => exact .of (openReqState_frame ..) (openReqState_kept (hk := .refl ..) ..)
  | auth => exact .of (authState_frame ..) (authState_kept (hk := .refl ..) ..)
  | close => exact .of (closeState_frame ..) (closeState_kept (hk := .refl ..) ..)
  | read => exact .of (readState_frame ..) (readState_kept (hk := .refl ..) ..)
  | writeObject => exact .of (writeObjectState_frame ..) (writeObjectState_kept rfl (hk := .refl ..) ..)
  | txnBegin => exact .of (txnBeginState_frame ..) (txnBeginState_kept (hk := .refl ..) ..)
  | txnAbort => exact .of (txnAbortState_frame ..) (txnAbortState_kept (hk := .refl ..) ..)
  | keepalive => exact .of (keepaliveState_frame ..) (keepaliveState_kept (hk := .refl ..) ..)
  | sessionTimeout => exact .when (closeSession_frame ..) (closeSession_kept _ _ (.refl ..))
  | authTimeout => exact .when (closeSession_frame ..) (closeSession_kept _ _ (.refl ..))
  | slotLockExpiry => exact .when (modSlot_frame ..) (modSlot_kept _ _ (.refl ..))
  | modeSetStop => exact .next (.row modeSetOp_frame fun _ _ _ => modeSetOp_kept _ _ (.refl ..))
  | modeSetRun => exact .next (.row modeSetOp_frame fun _ _ _ => modeSetOp_kept _ _ (.refl ..))
  | modeSetHold => exact .next (.row modeSetOp_frame fun _ _ _ => modeSetOp_kept _ _ (.refl ..))
  | modeSetStep => exact .next (.row modeSetOp_frame fun _ _ _ => modeSetOp_kept _ _ (.refl ..))
  | runEntry =>
    exact .when ((configApplyState_frame ..).append (runEntryState_frame ..))
      (runEntryState_kept (configApplyState_kept (.refl ..)))
  | holdLapse => exact .when (enterStop_frame ..) (enterStop_kept _ (.refl ..))
  | stepCycleTimeout => exact execStepCycleTimeout_ends ..
  | onlineChangePrepareAndSwap => exact .next (.row onlineChangeOp_frame fun _ _ _ => onlineChangeOp_kept _ _ (.refl ..))
  | onlineChangePrepareOnly => exact .next (.row onlineChangeOp_frame fun _ _ _ => onlineChangeOp_kept _ _ (.refl ..))
  | onlineChangeCancel => exact .next (.row onlineChangeOp_frame fun _ _ _ => onlineChangeOp_kept _ _ (.refl ..))
  | preparationEnd => exact .of (preparationEndState_frame ..) (preparationEndState_kept (hk := .refl ..) ..)
  | swap => exact .of (swapState_frame ..) (swapState_kept (hk := .refl ..) ..)
  | readmit => exact .next (.row readmitOp_frame fun _ _ _ => readmitOp_kept rfl _ _ (.refl ..))
  | timeRestepFollower => exact .next (.row timeRestepOp_frame fun _ _ _ => timeRestepOp_kept _ _ (.refl ..))
  | timeRestepMaster => exact .next (.row timeRestepOp_frame fun _ _ _ => timeRestepOp_kept _ _ (.refl ..))
  | recorderSnapshot => exact .next (.row snapshotOp_frame fun _ _ _ => snapshotOp_kept _ _ (.refl ..))
  | switchoverRequest => exact .next (.row switchoverOp_frame fun _ _ _ => switchoverOp_kept _ _ (.refl ..))
  | configCommit => exact .next (.row commitOp_frame fun _ _ _ => commitOp_kept _ _ (.refl ..))
  | configCommitPrepare => exact .next (.row commitOp_frame fun _ _ _ => commitOp_kept _ _ (.refl ..))
  | configCommitConfirm => exact .next (.row commitOp_frame fun _ _ _ => commitOp_kept _ _ (.refl ..))
  | preparedTransactionLapse => exact .of (modSession_frame ..) (modSession_kept _ _ (.refl ..))
  | configApply => exact .of (configApplyState_frame ..) (configApplyState_kept (hk := .refl ..) ..)
  | leaseAcquire => exact .next (.row leaseOp_frame fun _ _ _ => leaseOp_kept _ _ (.refl ..))
  | leaseRenew => exact .next (.row leaseOp_frame fun _ _ _ => leaseOp_kept _ _ (.refl ..))
  | leaseRelease => exact .next (.row leaseOp_frame fun _ _ _ => leaseOp_kept _ _ (.refl ..))
  | leaseExpiry => exact .when (endLease_frame ..) (endLease_kept _ (.refl ..))
  | forcePoint => exact .next (.row forceOp_frame fun _ _ _ => forceOp_kept _ _ (.refl ..))
  | forceRelease => exact .next (.row forceOp_frame fun _ _ _ => forceOp_kept _ _ (.refl ..))
  | forceReleaseAll => exact .next (.row forceOp_frame fun _ _ _ => forceOp_kept _ _ (.refl ..))
  | domainReset =>
    exact .next ((Within.row domainResetOp_frame fun _ _ _ => domainResetOp_kept _ _ (.refl ..)).trans
      (.of (wholeRestart_frame _) (wholeRestart_kept (.refl ..))))
  | domainResetComplete => exact .of (domainCompleteState_frame ..) (domainCompleteState_kept (hk := .refl ..) ..)
  | patchInstall =>
    exact .next ((Within.row (patchOp_frame _) fun _ _ _ => patchOp_kept _ _ _ (.refl ..)).trans
      (.of (patchRestart_frame _) (patchRestart_kept (.refl ..))))
  | patchRemove => exact .next (.row (patchOp_frame _) fun _ _ _ => patchOp_kept _ _ _ (.refl ..))
  | bulkLength => exact .next (.row bulkLengthOp_frame fun _ _ _ => bulkLengthOp_kept _ _ (.refl ..))
  | bulkData => exact .next (.row (bulkDataOp_frame _) fun _ _ _ => bulkDataOp_kept _ _ _ (.refl ..))
  | slotKey => exact .next (.row (slotKeyOp_frame _) fun _ _ _ => slotKeyOp_kept _ _ _ (.refl ..))
  | signerKey => exact .next (.row (signerKeyOp_frame _) fun _ _ _ => signerKeyOp_kept _ _ _ (.refl ..))
  | scArmTrue => exact .next (.row (scArmOp_frame _) fun _ _ _ => scArmOp_kept _ _ _ (.refl ..))
  | scArmFalse => exact .next (.row (scArmOp_frame _) fun _ _ _ => scArmOp_kept _ _ _ (.refl ..))
  | loopMode => exact .next (.row (loopModeOp_frame _) fun _ _ _ => loopModeOp_kept _ _ _ (.refl ..))
  | axCommandHome => exact .next (.row (axCommandOp_frame _) fun _ _ _ => axCommandOp_kept _ _ _ (.refl ..))
  | axCommandStopRamp => exact .next (.row (axCommandOp_frame _) fun _ _ _ => axCommandOp_kept _ _ _ (.refl ..))
  | axCommandStopHard => exact .next (.row (axCommandOp_frame _) fun _ _ _ => axCommandOp_kept _ _ _ (.refl ..))
  | canRecoverBusOff => exact .next (.row (canRecoverOp_frame _) fun _ _ _ => canRecoverOp_kept _ _ _ (.refl ..))
  | canRecoverCollision => exact .next (.row (canRecoverOp_frame _) fun _ _ _ => canRecoverOp_kept _ _ _ (.refl ..))
  | presenceKey => exact execPresenceKey_ends ..
  | presenceWindowExpiry => exact .next (.ite (.refl _) (.of (qs := [.sess]) (.put (.refl ..)) (.put (.refl ..))))
  | startup => exact .of (startupState_frame ..) (startupState_kept rfl (hk := .refl ..) ..)
  | powerFail => exact .of (powerFailState_frame ..) (powerFailState_kept (hk := .refl ..) ..)
  | fuseTrip => exact .of (fuseTripState_frame ..) (fuseTripState_kept (hk := .refl ..) ..)
  | fuseReclose => exact execFuseReclose_ends ..
  | supplyWarning => exact .of (supplyWarningState_frame ..) (supplyWarningState_kept (hk := .refl ..) ..)
  | supplyWarningClear => exact .of (supplyWarningClearState_frame ..) (supplyWarningClearState_kept (hk := .refl ..) ..)
  | supplyOff => exact .of (supplyOffState_frame ..) (supplyOffState_kept (hk := .refl ..) ..)
  | supplyRecovery => exact .of (supplyRecoveryState_frame ..) (supplyRecoveryState_kept (hk := .refl ..) ..)
  | thermalShutdown => exact .when (resetNow_frame ..) (resetNow_kept _ (.refl ..))
  | railFault => exact .when (resetNow_frame ..) (resetNow_kept _ (.refl ..))
  | mgtWatchdog => exact .when (resetNow_frame ..) (resetNow_kept _ (.refl ..))
  | counterMirror => exact .when (mirrorCounters_frame ..) (mirrorCounters_kept (.refl ..))
  | directValueFlashWrite => exact .when (writeFlashDue_frame ..) (writeFlashDue_kept (.refl ..))
  | sensorSample => exact .of (sensorSampleState_frame ..) (sensorSampleState_kept (hk := .refl ..) ..)
  | humidityLimitExceeded => exact .of (humidityState_frame ..) (humidityState_kept (hk := .refl ..) ..)
  | phyReadyLost => exact .of (relayClose_frame ..) (relayClose_kept (hk := .refl ..) ..)
  | bypassRelayOpen => exact .when (qs := [.pwr]) (.put (.refl ..)) (.put (.refl ..))
  | frameReceived => exact .of (frameReceivedState_frame ..) (frameReceivedState_kept (hk := .refl ..) ..)
  | duplicateEntryExpiry => exact .of (qs := [.ring]) (.put (.refl ..)) (.put (.refl ..))
  | supervisionSend => exact .when (send_frame ..) (send_kept _ (.refl ..))
  | supervisionFrame => exact .when (qs := [.ring]) (.put (.refl ..)) (.put (.refl ..))
  | pdInputFrame => exact .of (pdInputFrameState_frame ..) (pdInputFrameState_kept (hk := .refl ..) ..)
  | pdOutputFrameForwarded => exact execPdOutputFrameForwarded_ends ..
  | pdOutputSetSend => exact .of (pdOutputSetSendState_frame ..) (pdOutputSetSendState_kept (hk := .refl ..) ..)
  | exchangePeriodEnd => exact execExchangePeriodEnd_ends ..
  | ringCheckSend =>
    exact .when ((Untouched.put (ps := [.ring]) (.refl ..)).append (sendRm_frame ..)) (sendRm_kept _ _ _ (.put (.refl ..)))
  | ringCheckTimeout =>
    exact .when ((Untouched.put (ps := [.ring]) (.refl ..)).append (emit_frame ..)) (emit_kept _ _ _ (.put (.refl ..)))
  | rmFrame => exact .of (rmFrameState_frame ..) (rmFrameState_kept (hk := .refl ..) ..)
  | addressConflictEnd => exact execAddressConflictEnd_ends ..
  | linkChange => exact .of (linkChangeState_frame ..) (linkChangeState_kept (hk := .refl ..) ..)
  | tbSend => exact .when (send_frame ..) (send_kept _ (.refl ..))
  | tbFrame => exact .of (tbFrameState_frame ..) (tbFrameState_kept (hk := .refl ..) ..)
  | servoPeriod => exact .of (servoPeriodState_frame ..) (servoPeriodState_kept (hk := .refl ..) ..)
  | mastership =>
    exact .when (((Untouched.put (ps := [.clk]) (.refl ..)).append (followMaster_frame ..)).append (enterDisc_frame ..))
      (enterDisc_kept _ (followMaster_kept _ _ (.put (.refl ..))))
  | beaconTimeout => exact execBeaconTimeout_ends ..
  | ldSend => exact execLdSend_ends ..
  | ldFrame => exact .of (ldFrameState_frame ..) (ldFrameState_kept (hk := .refl ..) ..)
  | engineTick =>
    exact .of (((applyFirst_frame _).append (engineTickState_frame _)).append (serveWaiting_frame _))
      (serveWaiting_kept rfl (engineTickState_kept (applyFirst_kept (.refl ..))))
  | loopRelease => exact .of (loopReleaseState_frame ..) (loopReleaseState_kept (hk := .refl ..) ..)
  | cadTimeout => exact .of (cadTimeoutState_frame ..) (cadTimeoutState_kept (hk := .refl ..) ..)
  | taskRelease =>
    exact .of ((applyFirst_frame _).append (taskReleaseState_frame ..))
      (taskReleaseState_kept _ (applyFirst_kept (.refl ..)))
  | reg => exact .of (regState_frame ..) (regState_kept (hk := .refl ..) ..)
  | imm => exact .of (immState_frame ..) (immState_kept (hk := .refl ..) ..)
  | frameLoad => exact .of (frameLoadState_frame ..) (frameLoadState_kept (hk := .refl ..) ..)
  | frameStore => exact .of (frameStoreState_frame ..) (frameStoreState_kept (hk := .refl ..) ..)
  | frameLoadAddress => exact .next (.onCode fun _ _ => .of (setCycle_frame ..) (setCycle_kept _ _ (.refl ..)))
  | pointReadValue => exact .of (pointRead_frame ..) (pointRead_kept _ _ _ _ _ (.refl ..))
  | pointReadQuality => exact .of (pointRead_frame ..) (pointRead_kept _ _ _ _ _ (.refl ..))
  | pointReadTimestamp => exact .of (pointRead_frame ..) (pointRead_kept _ _ _ _ _ (.refl ..))
  | pointWriteValue => exact .of (pointWriteState_frame ..) (pointWriteState_kept (hk := .refl ..) ..)
  | branch => exact execBranch_ends ..
  | callUserBlock => exact .of (callUserState_frame ..) (callUserState_kept (hk := .refl ..) ..)
  | callRomBlock => exact .of (callRomState_frame ..) (callRomState_kept (hk := .refl ..) ..)
  | callFunction => exact .next (.onCode fun _ _ => .of (setCycle_frame ..) (setCycle_kept _ _ (.refl ..)))
  | ext => exact .next (.onCode fun _ _ => .of (setCycle_frame ..) (setCycle_kept _ _ (.refl ..)))
  | sysReturn => exact .next (.onCode fun _ _ => .of (setCycle_frame ..) (setCycle_kept _ _ (.refl ..)))
  | sysEndOfCycle => exact .of (endOfCycle_frame ..) (endOfCycle_kept (hk := .refl ..) ..)
  | sysTrap => exact .next (.onCode fun _ _ => .of (wordFault_frame ..) (wordFault_kept _ _ _ (.refl ..)))
  | ton => exact .of (runBlock_frame ..) (runBlock_kept _ _ _ _ _ (.refl ..))
  | tof => exact .of (runBlock_frame ..) (runBlock_kept _ _ _ _ _ (.refl ..))
  | tp => exact .of (runBlock_frame ..) (runBlock_kept _ _ _ _ _ (.refl ..))
  | rTrig => exact .of (runBlock_frame ..) (runBlock_kept _ _ _ _ _ (.refl ..))
  | fTrig => exact .of (runBlock_frame ..) (runBlock_kept _ _ _ _ _ (.refl ..))
  | ctu => exact .of (runBlock_frame ..) (runBlock_kept _ _ _ _ _ (.refl ..))
  | ctd => exact .of (runBlock_frame ..) (runBlock_kept _ _ _ _ _ (.refl ..))
  | ctud => exact .of (runBlock_frame ..) (runBlock_kept _ _ _ _ _ (.refl ..))
  | sr => exact .of (runBlock_frame ..) (runBlock_kept _ _ _ _ _ (.refl ..))
  | rs => exact .of (runBlock_frame ..) (runBlock_kept _ _ _ _ _ (.refl ..))
  | canRecv => exact .of (canRecvState_frame ..) (canRecvState_kept (hk := .refl ..) ..)
  | canSend => exact .of (canSendState_frame ..) (canSendState_kept (hk := .refl ..) ..)
  | canStateRecover => exact .of (canStateOp_frame ..) (canStateOp_kept (hk := .refl ..) ..)
  | canStateReenable => exact .of (canStateOp_frame ..) (canStateOp_kept (hk := .refl ..) ..)
  | emergencyStopBlock => exact .of (sfBlock_frame ..) (sfBlock_kept (hk := .refl ..) ..)
  | guardInterlockBlock => exact .of (sfBlock_frame ..) (sfBlock_kept (hk := .refl ..) ..)
  | twoHandControlBlock => exact .of (sfBlock_frame ..) (sfBlock_kept (hk := .refl ..) ..)
  | lightCurtainBlock => exact .of (sfBlock_frame ..) (sfBlock_kept (hk := .refl ..) ..)
  | soStatusBlock => exact execSoStatusBlock_ends ..
  | downstreamFrame => exact .of (downstreamFrameState_frame ..) (downstreamFrameState_kept (hk := .refl ..) ..)
  | upstreamFrame => exact .of (upstreamFrameState_frame ..) (upstreamFrameState_kept _ _ _ _ _ _ (.refl ..))
  | linkResync => exact .when (modBank_frame ..) (modBank_kept _ _ (.refl ..))
  | linkSilence =>
    exact .when ((modBank_frame ..).append (silenceOutputs_frame ..)) (silenceOutputs_kept _ (modBank_kept _ _ (.refl ..)))
  | diEdgeAccepted => exact .of (diEdgeState_frame ..) (diEdgeState_kept (hk := .refl ..) ..)
  | outputTrip => exact .of (outputTripState_frame ..) (outputTripState_kept (hk := .refl ..) ..)
  | outputRetry =>
    exact .when ((modDio_frame ..).append (settleSwitch_frame ..)) (settleSwitch_kept _ (modDio_kept _ _ (.refl ..)))
  | bankOverload => exact execBankOverload_ends ..
  | bankOverloadRestore =>
    exact .when ((modBank_frame ..).append (startRestore_frame ..)) (startRestore_kept _ (modBank_kept _ _ (.refl ..)))
  | restoreGroup => exact execRestoreGroup_ends ..
  | openLoad => exact execOpenLoad_ends ..
  | externalDrive => exact .of (externalDriveState_frame ..) (externalDriveState_kept (hk := .refl ..) ..)
  | bankSupplyOff => exact .when (bankSupplyLost_frame ..) (bankSupplyLost_kept _ (.refl ..))
  | bankRestore => exact .when (bankSupplyBack_frame ..) (bankSupplyBack_kept _ (.refl ..))
  | bicReset => exact .when (bicResets_frame ..) (bicResets_kept _ (.refl ..))
  | timedEdge => exact .of (timedEdgeState_frame ..) (timedEdgeState_kept (hk := .refl ..) ..)
  | pulseEnd => exact execPulseEnd_ends ..
  | aioConversion => exact .of (aioConversionState_frame ..) (aioConversionState_kept (hk := .refl ..) ..)
  | aoUpdate => exact execAoUpdate_ends ..
  | aioLinkFrame => exact .of (aioLinkFrameState_frame ..) (aioLinkFrameState_kept (hk := .refl ..) ..)
  | aioLinkSilence => exact execAioLinkSilence_ends ..
  | aoCondition => exact .when (modAio_frame ..) (modAio_kept _ _ (.refl ..))
  | readbackMismatch => exact execReadbackMismatch_ends ..
  | partnerMismatch => exact execPartnerMismatch_ends ..
  | motionTick => exact .of (motionTickState_frame ..) (motionTickState_kept (hk := .refl ..) ..)
  | limitInputQualified => exact .of (limitInputState_frame ..) (limitInputState_kept (hk := .refl ..) ..)
  | homeTimeout => exact .when (endHoming_frame ..) (endHoming_kept _ _ _ (.refl ..))
  | holdDelay => exact execHoldDelay_ends ..
  | driveFault => exact .of (driveFaultState_frame ..) (driveFaultState_kept (hk := .refl ..) ..)
  | driveRetry =>
    exact .when ((modAxis_frame ..).append (energise_frame ..)) (energise_kept _ (modAxis_kept _ _ (.refl ..)))
  | driveLinkSilence => exact .when (losePos_frame ..) (losePos_kept _ _ (.refl ..))
  | canFrameReceived => exact .of (canFrameReceivedState_frame ..) (canFrameReceivedState_kept (hk := .refl ..) ..)
  | canFrameSent => exact .of (canFrameSentState_frame ..) (canFrameSentState_kept (hk := .refl ..) ..)
  | canError => exact .of (canErrorState_frame ..) (canErrorState_kept (hk := .refl ..) ..)
  | busOffRecoveryComplete => exact .of (busOffRecoveryState_frame ..) (busOffRecoveryState_kept (hk := .refl ..) ..)
  | canCyclicTrigger =>
    exact .when ((modBuf_frame ..).append (canTrigger_frame ..)) (canTrigger_kept _ _ (modBuf_kept _ _ _ (.refl ..)))
  | canRxTimeout => exact .when (modBuf_frame ..) (modBuf_kept _ _ _ (.refl ..))
  | autobaudDwell => exact .when (modPort_frame ..) (modPort_kept _ _ (.refl ..))
  | encoderEdge => exact .of (encoderEdgeState_frame ..) (encoderEdgeState_kept (hk := .refl ..) ..)
  | mainsZeroCrossing => exact .of (mainsState_frame ..) (mainsState_kept (hk := .refl ..) ..)
  | encoderStill =>
    exact .when ((modTracker_frame ..).append (enterTrk_frame ..)) (enterTrk_kept _ _ (modTracker_kept _ _ (.refl ..)))
  | trackerSourceLoss => exact execTrackerSourceLoss_ends ..
  | coastExpiry => exact .when (coastEnd_frame ..) (coastEnd_kept _ (.refl ..))
  | slotFire => exact .of (slotFireState_frame ..) (slotFireState_kept (hk := .refl ..) ..)
  | scCommand => exact .of (scCommandState_frame ..) (scCommandState_kept (hk := .refl ..) ..)
  | scPulseEnd => exact .when (scEnd_frame ..) (scEnd_kept _ _ (.refl ..))
  | scArmTimeout => exact .when (scEnd_frame ..) (scEnd_kept _ _ (.refl ..))
  | safetyCommit => exact .of (safetyCommitState_frame ..) (safetyCommitState_kept (hk := .refl ..) ..)
  | passBStart => exact .of (passBStartState_frame ..) (passBStartState_kept (hk := .refl ..) ..)
  | passOverrun => exact .of (passOverrunState_frame ..) (passOverrunState_kept (hk := .refl ..) ..)
  | scuCompare => exact .of (scuCompareState_frame ..) (scuCompareState_kept (hk := .refl ..) ..)
  | token => exact .of (tokenState_frame ..) (tokenState_kept (hk := .refl ..) ..)
  | tokenMissing => exact .of (tokenMissingState_frame ..) (tokenMissingState_kept (hk := .refl ..) ..)
  | safetyConfigStart => exact .of (safetyConfigStartState_frame ..) (safetyConfigStartState_kept (hk := .refl ..) ..)
  | siAccepted => exact .of (siAcceptedState_frame ..) (siAcceptedState_kept _ _ _ (.refl ..))
  | testPulseDark => exact .of (testPulseDarkState_frame ..) (testPulseDarkState_kept (hk := .refl ..) ..)
  | testPulseCheck => exact .of (testPulseCheckState_frame ..) (testPulseCheckState_kept (hk := .refl ..) ..)
  | blankEnd => exact .of (blankEndState_frame ..) (blankEndState_kept (hk := .refl ..) ..)
  | tpOverload => exact .of (tpOverloadState_frame ..) (tpOverloadState_kept (hk := .refl ..) ..)
  | tpRetry => exact .of (tpRetryState_frame ..) (tpRetryState_kept (hk := .refl ..) ..)
  | tpTakeover => exact .of (tpTakeoverState_frame ..) (tpTakeoverState_kept (hk := .refl ..) ..)
  | offTest => exact .of (offTestState_frame ..) (offTestState_kept (hk := .refl ..) ..)
  | offTestEnd => exact .of (offTestEndState_frame ..) (offTestEndState_kept (hk := .refl ..) ..)
  | soOvercurrent => exact .when (latchOutput_frame ..) (latchOutput_kept _ _ _ (.refl ..))
  | soExternalDrive => exact .of (soExternalDriveState_frame ..) (soExternalDriveState_kept (hk := .refl ..) ..)
  | feedbackTimeout => exact .when (latchOutput_frame ..) (latchOutput_kept _ _ _ (.refl ..))
  | hbPulseSend => exact .of (hbSendState_frame ..) (hbSendState_kept (hk := .refl ..) ..)
  | hbPulse => exact .of (hbPulseState_frame ..) (hbPulseState_kept (hk := .refl ..) ..)
  | heartbeatLoss => exact .of (heartbeatLossState_frame ..) (heartbeatLossState_kept (hk := .refl ..) ..)
  | precFrame => exact .of (precFrameState_frame ..) (precFrameState_kept (hk := .refl ..) ..)
  | arbitrationWon => exact .of (arbitrationWonState_frame ..) (arbitrationWonState_kept (hk := .refl ..) ..)
  | standbyRecordTimeout => exact execStandbyRecordTimeout_ends ..
  | helloSend =>
    exact .when (((Untouched.put (ps := [.pair]) (.refl ..)).append (noteMargin_frame _)).append (sendSync_frame ..))
      (sendSync_kept _ _ (noteMargin_kept (.put (.refl ..))))
  | hello => exact .of (helloState_frame ..) (helloState_kept (hk := .refl ..) ..)
  | input => exact .of (inputState_frame ..) (inputState_kept (hk := .refl ..) ..)
  | tick => exact .of (tickState_frame ..) (tickState_kept (hk := .refl ..) ..)
  | task => exact .of (taskState_frame ..) (taskState_kept (hk := .refl ..) ..)
  | ack => exact .of (ackState_frame ..) (ackState_kept (hk := .refl ..) ..)
  | ackTimeout => exact .of (ackTimeoutState_frame ..) (ackTimeoutState_kept (hk := .refl ..) ..)
  | remoteSetMissing => exact .when (ackIf_frame ..) (ackIf_kept _ _ (.refl ..))
  | copy => exact .of (copyState_frame ..) (copyState_kept (hk := .refl ..) ..)
  | copyTimeout => exact execCopyTimeout_ends ..
  | copyRetry => exact execCopyRetry_ends ..
  | handover => exact .of (handoverState_frame ..) (handoverState_kept (hk := .refl ..) ..)
  | change => exact .of (changeState_frame ..) (changeState_kept (hk := .refl ..) ..)
  | autoSwitchover => exact .of (autoSwitchoverState_frame ..) (autoSwitchoverState_kept (hk := .refl ..) ..)
  | fclFrameSend => exact .when (send_frame ..) (send_kept _ (.refl ..))
  | fclFrame => exact .of (fclFrameState_frame ..) (fclFrameState_kept (hk := .refl ..) ..)
  | presChanged =>
    exact .next (.ite (.refl _) (.of ((Untouched.put (ps := [.pair]) (.refl ..)).append (emit_frame ..))
      (emit_kept _ _ _ (.put (.refl ..)))))
  | sramCorrectedError => exact .of (sramCorrectedState_frame ..) (sramCorrectedState_kept (hk := .refl ..) ..)
  | sramUncorrectableError => exact .of (sramUncorrectableState_frame ..) (sramUncorrectableState_kept (hk := .refl ..) ..)
  | sramScrub => exact execSramScrub_ends ..
  | recordWrite => exact .of (recordWriteState_frame ..) (recordWriteState_kept (hk := .refl ..) ..)
  | bankResyncComplete => exact .of (resyncCompleteState_frame ..) (resyncCompleteState_kept (hk := .refl ..) ..)
  | busIntegrated =>
    exact .when ((modPort_frame ..).append (canOffer_frame ..)) (canOffer_kept _ (modPort_kept _ _ (.refl ..)))
  | channelChipReinitialised => exact execChannelChipReinitialised_ends ..
  | masterSlewEnd =>
    exact .when ((Untouched.put (ps := [.clk]) (.refl ..)).append (setRate_frame ..)) (setRate_kept _ (.put (.refl ..)))
  | arbitrationFclCheckEnd => exact .of (fclCheckEndState_frame ..) (fclCheckEndState_kept (hk := .refl ..) ..)

end Sys2Proof.Machine
end

section
/-! SUPPORT. The statements about all commands: the stores stay sound, and each command leaves the other parts alone. -/

namespace Sys2Proof.Machine

theorem advance_frame (n : Nat) (s : State) : Untouched [.now, .pair] s (advance n s) := by
  unfold advance
  exact .put (.refl ..)

/-- Time's passing writes no store. -/
theorem advance_sound {n : Nat} {s : State} (h : Sound s) : Sound (advance n s) := { h with }

/-- The bounds do not speak of the queue of commands. -/
theorem sound_withPending {s : State} {l : List Instr} (h : Sound s) : Sound { s with pending := l } := { h with }

theorem exec_keeps_sound {i : Instr} {s t : State} (h : Sound s) (e : exec i s = .next t) : Sound t := by
  obtain ⟨n, u, e', w⟩ := exec_endsWithin i s
  obtain rfl := Host.Outcome.next.inj (e.symm.trans e')
  exact w.kept.sound (advance_sound h)

theorem exec_frame {i : Instr} {s t : State} (e : exec i s = .next t) : Untouched (.now :: .pair :: touches i) s t := by
  obtain ⟨n, u, e', w⟩ := exec_endsWithin i s
  obtain rfl := Host.Outcome.next.inj (e.symm.trans e')
  exact ((advance_frame n s).mono (by simp)).trans (w.frame.mono fun _ => List.mem_cons_of_mem _)

/-- Settles O3: a step runs one command on the same stores, and every command keeps what `Kept` names. -/
theorem everyStepKeepsTheStoresSound : Obligations.EveryStepKeepsTheStoresSound := by
  intro s t h e
  unfold step at e
  split at e
  · exact Host.Outcome.next.inj e ▸ h
  · exact exec_keeps_sound (sound_withPending h) e

/-- Settles O55, from what every command does. -/
theorem commandsLeaveOtherPartsAlone : Obligations.CommandsLeaveOtherPartsAlone := fun _ _ _ => exec_frame

end Sys2Proof.Machine
end

section
/-! SUPPORT. The recorder's banks and the SRAM pages: what a queued record, a bank's copy and a memory error leave
(17 R413 to R421; 01 R19; 16 R407). -/

namespace Sys2Proof.Machine

/-! ### Records queued leave the banks alone (17 R414) -/

/-- The banks, the newest sequence and the copy under way are the same. -/
structure SameBanks (s t : State) : Prop where
  bank0 : t.recd.bank0 = s.recd.bank0
  bank1 : t.recd.bank1 = s.recd.bank1
  newest : t.recd.newest = s.recd.newest
  resync : t.recd.resync = s.recd.resync

theorem SameBanks.refl (s : State) : SameBanks s s := ⟨rfl, rfl, rfl, rfl⟩

theorem SameBanks.enqueue {s t : State} (q : QRec) (h : SameBanks s t) : SameBanks s (enqueue q t) := by
  unfold Machine.enqueue
  split <;> exact ⟨h.bank0, h.bank1, h.newest, h.resync⟩

/-- The recorder's buckets and last-gasp ring are apart from its banks. -/
theorem SameBanks.put {s t : State} (h : SameBanks s t) {b g} :
    SameBanks s { t with recd := { t.recd with buckets := b, gasp := g } } := ⟨h.bank0, h.bank1, h.newest, h.resync⟩

theorem emit_sameBanks (code src : Nat) (data : List Byte) (s : State) : SameBanks s (emit code src data s) := by
  simp only [emit]
  split
  · exact (SameBanks.refl s).put
  · split
    · refine .enqueue _ ?_
      split
      · exact .enqueue _ (SameBanks.refl s).put
      · exact (SameBanks.refl s).put
    · exact (SameBanks.refl s).put

@[simp] theorem emit_banks (code src : Nat) (data : List Byte) (s : State) :
    (emit code src data s).recd.bank0 = s.recd.bank0 ∧ (emit code src data s).recd.bank1 = s.recd.bank1 ∧
      (emit code src data s).recd.newest = s.recd.newest ∧ (emit code src data s).recd.resync = s.recd.resync :=
  have h := emit_sameBanks code src data s
  ⟨h.bank0, h.bank1, h.newest, h.resync⟩

/-! ### A bank takes a record (17 R413, R419) -/

theorem bankTake_good {r : Rec} {first : Bool} {b : RecBank} (h : b.ok = true) :
    Tbl.find (bankTake r first true b).ring (r.seq % ringSlots) = some r := by
  simp [bankTake, h, Tbl.find_insert]

theorem bankTake_bad {r : Rec} {first : Bool} {b : RecBank} (h : b.ok = true) :
    (bankTake r first false b).ok = false ∧ (bankTake r first false b).sticky = true := by
  simp [bankTake, h]

/-- The record a queued event becomes, under the next sequence number (17 R411). -/
def recordOf (q : QRec) (s : State) : Rec :=
  ⟨nextSeq s.recd.newest, q.opTime, q.cycles, q.code, q.source, q.net, q.data, true⟩

@[simp] theorem bankFault_banks (b : Nat) (s : State) :
    (bankFault b s).recd.bank0 = s.recd.bank0 ∧ (bankFault b s).recd.bank1 = s.recd.bank1 := by
  simp [bankFault]

/-- A bank fault that may be recorded leaves the banks all the same. -/
theorem bankFault_when_banks (c : Prop) [Decidable c] (b : Nat) (s : State) :
    (if c then bankFault b s else s).recd.bank0 = s.recd.bank0 ∧
      (if c then bankFault b s else s).recd.bank1 = s.recd.bank1 := by
  split
  · exact bankFault_banks b s
  · exact ⟨rfl, rfl⟩

/-- Each bank is offered the record, with its own read-back (17 R414, R419). -/
theorem writeRec_banks (q : QRec) (ok0 ok1 : Bool) (s : State) :
    ∃ first, (writeRec q ok0 ok1 s).recd.bank0 = bankTake (recordOf q s) first ok0 s.recd.bank0 ∧
      (writeRec q ok0 ok1 s).recd.bank1 = bankTake (recordOf q s) first ok1 s.recd.bank1 := by
  refine ⟨(Tbl.find s.recd.bank0.firsts (q.code / 256)).isNone && (Tbl.find s.recd.bank1.firsts (q.code / 256)).isNone, ?_⟩
  simp only [writeRec, bankFault_when_banks]
  split
  · exact ⟨rfl, rfl⟩
  · exact ⟨rfl, rfl⟩

/-- Both read-backs are good and a bank is in use: the sequence moves on (17 R411). -/
theorem writeRec_sequence {q : QRec} {s : State} (h : s.recd.bank0.ok = true ∨ s.recd.bank1.ok = true) :
    (writeRec q true true s).recd.newest = nextSeq s.recd.newest ∧ (writeRec q true true s).recd.queue = s.recd.queue := by
  simp only [writeRec, Bool.and_true, Bool.not_true, Bool.and_false, Bool.false_eq_true, if_false, Bool.or_eq_true,
    if_pos h, and_self]

/-- No bank is in use: the record goes to the last-gasp ring and takes no sequence (17 R421). -/
theorem writeRec_gasp {q : QRec} {ok0 ok1 : Bool} {s : State} (h0 : s.recd.bank0.ok = false) (h1 : s.recd.bank1.ok = false) :
    (writeRec q ok0 ok1 s).recd.newest = s.recd.newest ∧ (writeRec q ok0 ok1 s).recd.queue = s.recd.queue ∧
      (writeRec q ok0 ok1 s).recd.gasp = gaspPush ⟨aonOf s q, q.code, q.source, q.data⟩ s.recd.gasp := by
  simp [writeRec, h0, h1] <;> rfl

/-- RECORD_WRITE writes the oldest queued record (17 R414). -/
theorem recordWriteState_writes {q : QRec} {rest : List QRec} {ok0 ok1 : Bool} {s : State} (hu : up s = true)
    (hd : domainOn s 3 = true) (hq : s.recd.queue = q :: rest) (hs : startUndecided s q = false) :
    recordWriteState ok0 ok1 s = writeRec q ok0 ok1 { s with recd := { s.recd with queue := rest } } := by
  simp [recordWriteState, hu, hd, hq, hs]

/-! ### A bank's copy ends (17 R420) -/

theorem resyncCompleteState_copies {b : Nat} {s : State} (hu : up s = true) (hb : s.recd.resync = some b) :
    (resyncCompleteState s).recd.resync = none ∧
      (b = 0 → (resyncCompleteState s).recd.bank0 = { s.recd.bank0 with
        ring := s.recd.bank1.ring, firsts := s.recd.bank1.firsts, sticky := false }) ∧
      (b ≠ 0 → (resyncCompleteState s).recd.bank1 = { s.recd.bank1 with
        ring := s.recd.bank0.ring, firsts := s.recd.bank0.firsts, sticky := false }) := by
  simp only [resyncCompleteState, hu, hb, Bool.not_true, Bool.false_eq_true, if_false]
  refine ⟨by simp, fun h => ?_, fun h => ?_⟩
  · simp [h]
  · simp [h]

/-! ### STOP is entered (08 R189) -/

theorem abandonCycle_mode (k : Nat) (s : State) : (abandonCycle k s).prog.mode = s.prog.mode := by
  unfold abandonCycle
  split <;> rfl

theorem abandonAll_mode (s : State) : (abandonAll s).prog.mode = s.prog.mode := by
  unfold abandonAll
  exact forAll_induct (P := fun x => x.prog.mode = s.prog.mode) _ _ (fun k x h => (abandonCycle_mode k x).trans h) s rfl

theorem settleClock_mode (s : State) : (settleClock s).prog.mode = s.prog.mode := rfl

theorem swapIn_mode (new : Forme) (m : Migrated) (g : Nat) (s : State) : (swapIn new m g s).prog.mode = s.prog.mode := rfl

theorem settleSwap_mode (s : State) : (settleSwap s).prog.mode = s.prog.mode := by
  unfold settleSwap
  split <;> rfl

/-- A swap of the forme leaves the mode (08 R195). -/
theorem swapNow_mode (pause : Nat) (s : State) : (swapNow pause s).prog.mode = s.prog.mode := by
  unfold swapNow
  split
  · rfl
  · dsimp only
    have change (t : State) : (changeOver t).prog = t.prog := (changeOver_frame t).same .prog (by decide)
    rw [change]
    simp only [apply_ite State.prog, apply_ite Prog.mode, cmdDone_fields, emit_fields, ite_self, settleSwap_mode,
      swapIn_mode, abandonAll_mode, settleClock_mode]

theorem enterStop_mode (cause : Nat) (s : State) : (enterStop cause s).prog.mode = .stop := by
  unfold enterStop
  split
  · assumption
  · have aborts (t : State) : (scAbortArmed t).prog = t.prog := (scAbortArmed_frame t).same .prog (by decide)
    have withdraws (t : State) : (canWithdraw t).prog = t.prog := (canWithdraw_frame t).same .prog (by decide)
    dsimp only
    split
    · rw [swapNow_mode, aborts, withdraws, (emit_fields ..).2.2.2.2.2.2.2.2.2.1]
    · rw [aborts, withdraws, (emit_fields ..).2.2.2.2.2.2.2.2.2.1]

/-! ### SRAM pages (01 R19; 18 R438) -/

theorem scrubFailed_sram (s : State) : (scrubFailed s).sram = s.sram := (scrubFailed_frame s).same .sram (by decide)

theorem scrubFailed_state (s : State) : (scrubFailed s).pair.state = s.pair.state := by
  unfold scrubFailed
  split <;> rfl

/-- A page is retired to a spare. -/
theorem retirePage_spare {page : Nat} {s : State} (h : s.sram.used < 16) :
    (retirePage page s).sram.remapped = page :: s.sram.remapped ∧ (retirePage page s).sram.used = s.sram.used + 1 := by
  simp [retirePage, h]

/-- No spare is left: the module goes to STOP. -/
theorem retirePage_empty {page : Nat} {s : State} (h : 16 ≤ s.sram.used) :
    (retirePage page s).sram.empty = true ∧ (retirePage page s).prog.mode = .stop := by
  rw [retirePage, if_neg (by omega)]
  exact ⟨congrArg Sram.empty ((enterStop_frame 4 _).same .sram (by decide)), enterStop_mode ..⟩

/-- Neither way of retiring a page touches what is counted. -/
theorem retirePage_counts (page : Nat) (s : State) :
    (retirePage page s).sram.count = s.sram.count ∧ (retirePage page s).sram.uncorrectable = s.sram.uncorrectable := by
  unfold retirePage
  split
  · exact ⟨rfl, rfl⟩
  · rw [(enterStop_frame 4 _).same .sram (by decide)]
    exact ⟨rfl, rfl⟩

theorem restartNow_down (cause : Nat) (s : State) : up (restartNow cause s) = false := by
  simp [restartNow, goDown, up]

/-! ### What the rows leave -/

/-- RECORD_WRITE on the oldest queued record (17 R413, R414, R419, R421). -/
theorem recordWriteState_leaves {q : QRec} {rest : List QRec} {ok0 ok1 : Bool} {s : State} (hu : up s = true)
    (hd : domainOn s 3 = true) (hq : s.recd.queue = q :: rest) (hs : startUndecided s q = false) :
    let u := recordWriteState ok0 ok1 s
    (ok0 = true → ok1 = true → s.recd.bank0.ok = true ∨ s.recd.bank1.ok = true → u.recd.newest = nextSeq s.recd.newest ∧
      u.recd.queue = rest ∧
      (s.recd.bank0.ok = true → Tbl.find u.recd.bank0.ring (nextSeq s.recd.newest % ringSlots) = some (recordOf q s)) ∧
      (s.recd.bank1.ok = true → Tbl.find u.recd.bank1.ring (nextSeq s.recd.newest % ringSlots) = some (recordOf q s))) ∧
    (ok0 = false → s.recd.bank0.ok = true → u.recd.bank0.ok = false ∧ u.recd.bank0.sticky = true) ∧
    (ok1 = false → s.recd.bank1.ok = true → u.recd.bank1.ok = false ∧ u.recd.bank1.sticky = true) ∧
    (s.recd.bank0.ok = false → s.recd.bank1.ok = false → u.recd.newest = s.recd.newest ∧ u.recd.queue = rest ∧
      u.recd.gasp = gaspPush ⟨aonOf s q, q.code, q.source, q.data⟩ s.recd.gasp) := by
  intro u
  have hw : u = writeRec q ok0 ok1 { s with recd := { s.recd with queue := rest } } := recordWriteState_writes hu hd hq hs
  obtain ⟨first, h0, h1⟩ := writeRec_banks q ok0 ok1 { s with recd := { s.recd with queue := rest } }
  rw [← hw] at h0 h1
  refine ⟨?_, ?_, ?_, ?_⟩
  · rintro rfl rfl h
    obtain ⟨hn, hr⟩ := writeRec_sequence (q := q) (s := { s with recd := { s.recd with queue := rest } }) h
    rw [← hw] at hn hr
    exact ⟨hn, hr, fun g => h0 ▸ bankTake_good g, fun g => h1 ▸ bankTake_good g⟩
  · rintro rfl g
    exact h0 ▸ bankTake_bad g
  · rintro rfl g
    exact h1 ▸ bankTake_bad g
  · intro g0 g1
    rw [hw]
    exact writeRec_gasp (s := { s with recd := { s.recd with queue := rest } }) g0 g1

/-- A corrected error is counted and its word's instant noted (01 R19). -/
def noteCorrected (addr : Nat) (s : State) : State :=
  { s with sram := { s.sram with count := s.sram.count + 1, corrected := Tbl.insert s.sram.corrected addr s.now } }

/-- A corrected error is noted, and retires its page when its word had one within the last 24 h. -/
theorem sramCorrectedState_cases {addr : Nat} {s : State} (hu : up s = true) (hd : domainOn s 3 = true) :
    sramCorrectedState addr s =
      if ∃ c, Tbl.find s.sram.corrected addr = some c ∧ s.now - c < 86400000000000
      then retirePage (addr / 4096) (scrubFailed (noteCorrected addr s)) else noteCorrected addr s := by
  unfold sramCorrectedState
  cases h : Tbl.find s.sram.corrected addr <;> simp [hu, hd, noteCorrected, secNs]

/-- SRAM_CORRECTED_ERROR (01 R19). -/
theorem sramCorrectedState_leaves {addr : Nat} {s : State} (hu : up s = true) (hd : domainOn s 3 = true) :
    let u := sramCorrectedState addr s
    u.sram.count = s.sram.count + 1 ∧
    (Tbl.find s.sram.corrected addr = none → u.sram.used = s.sram.used ∧ Tbl.find u.sram.corrected addr = some s.now) ∧
    (∀ c, Tbl.find s.sram.corrected addr = some c → s.now - c < 86400000000000 → s.sram.used < 16 →
      u.sram.remapped = addr / 4096 :: s.sram.remapped ∧ u.sram.used = s.sram.used + 1) ∧
    (∀ c, Tbl.find s.sram.corrected addr = some c → s.now - c < 86400000000000 → 16 ≤ s.sram.used →
      u.sram.empty = true ∧ u.prog.mode = .stop) := by
  intro u
  have hw : (scrubFailed (noteCorrected addr s)).sram = (noteCorrected addr s).sram := scrubFailed_sram _
  have hu' : u = _ := sramCorrectedState_cases hu hd
  refine ⟨?_, fun h => ?_, fun c h k hs => ?_, fun c h k hs => ?_⟩
  · rw [hu']
    split
    · rw [(retirePage_counts ..).1, hw]
      rfl
    · rfl
  · rw [hu', if_neg (by simp [h])]
    exact ⟨rfl, by simp [noteCorrected, Tbl.find_insert]⟩
  · rw [hu', if_pos ⟨c, h, k⟩]
    have := retirePage_spare (page := addr / 4096) (s := scrubFailed (noteCorrected addr s)) (hw ▸ hs)
    rwa [hw] at this
  · rw [hu', if_pos ⟨c, h, k⟩]
    exact retirePage_empty (hw ▸ hs)

/-- The page of an uncorrectable error is retired (01 R19). -/
def pageLost (addr : Nat) (s : State) : State :=
  retirePage (addr / 4096) (scrubFailed { s with sram := { s.sram with uncorrectable := true } })

/-- A retired page leaves the pair as its scrub test does. -/
theorem pageLost_pair (addr : Nat) (s : State) :
    (pageLost addr s).pair = (scrubFailed { s with sram := { s.sram with uncorrectable := true } }).pair :=
  (retirePage_frame ..).same .pair (by decide)

/-- An uncorrectable error retires its page, stops the safety side when it lies there, and hands over (01 R19; 10 R250). -/
theorem sramUncorrectableState_handsOver {addr : Nat} {safety : Bool} {s : State} (hu : up s = true)
    (hd : domainOn s 3 = true) :
    ∃ w, sramUncorrectableState addr safety s = sramHandOver w ∧ w.sram = (pageLost addr s).sram ∧
      w.pair = (pageLost addr s).pair := by
  have hc : (!(up s && domainOn s 3)) = false := by simp [hu, hd]
  unfold sramUncorrectableState
  rw [hc]
  cases safety with
  | false => exact ⟨_, rfl, rfl, rfl⟩
  | true =>
    have hf := safetyFault_frame 0x0C ((draw (pageLost addr s)).1 % 256) (draw (pageLost addr s)).2
    exact ⟨_, rfl, hf.same .sram (by decide), hf.same .pair (by decide)⟩

theorem sramHandOver_sram (s : State) : (sramHandOver s).sram = s.sram := (sramHandOver_frame s).same .sram (by decide)

/-- A qualified standby takes over, unless a handing over runs. -/
theorem sramHandOver_active {s : State} (ha : s.pair.state = .active) (hq : partnerQualifies s = true)
    (hn : s.pair.handing = none) : (sramHandOver s).pair.handing.map Handing.trigger = some 5 := by
  simp [sramHandOver, ha, hq, hn, startHanding]

/-- A unit that is not active in a pair restarts. -/
theorem sramHandOver_down {s : State} (ha : s.pair.state ≠ .active) : up (sramHandOver s) = false := by
  simp only [sramHandOver, ha, false_and, if_false]
  exact restartNow_down ..

/-- SRAM_UNCORRECTABLE_ERROR (01 R19). -/
theorem sramUncorrectableState_leaves {addr : Nat} {safety : Bool} {s : State} (hu : up s = true) (hd : domainOn s 3 = true) :
    let u := sramUncorrectableState addr safety s
    (s.sram.used < 16 → u.sram.remapped = addr / 4096 :: s.sram.remapped) ∧
    (s.pair.state = .active → partnerQualifies s = true → s.pair.handing = none →
      (u.pair.handing.map Handing.trigger) = some 5 ∧ u.sram.uncorrectable = true) ∧
    (s.pair.state ≠ .active → up u = false) := by
  intro u
  obtain ⟨w, hw, hsram, hpair⟩ := sramUncorrectableState_handsOver (addr := addr) (safety := safety) hu hd
  have hu' : u = sramHandOver w := hw
  have hscrub := scrubFailed_sram { s with sram := { s.sram with uncorrectable := true } }
  rw [pageLost_pair] at hpair
  rw [hu', sramHandOver_sram, hsram]
  refine ⟨fun hs => ?_, fun ha hq hn => ⟨?_, ?_⟩, fun ha => ?_⟩
  · rw [pageLost, (retirePage_spare (by rwa [hscrub])).1, hscrub]
  · have hp : w.pair = s.pair := by rw [hpair, scrubFailed, if_neg (by simp [ha])]
    refine sramHandOver_active (hp ▸ ha) ?_ (hp ▸ hn)
    rwa [partnerQualifies, hp]
  · rw [pageLost, (retirePage_counts ..).2, hscrub]
  · refine sramHandOver_down ?_
    rwa [hpair, scrubFailed_state]

/-- Settles O54, row by row. -/
theorem recordsReachBanksAndPagesAreRemapped : Obligations.RecordsReachBanksAndPagesAreRemapped := by
  intro t s v r hu
  refine ⟨fun q rest ok0 ok1 hd hq hs => ⟨_, rfl, recordWriteState_leaves hu hd hq hs⟩, fun b hb => ⟨_, rfl, ?_⟩,
    fun addr hd => ⟨_, rfl, sramCorrectedState_leaves hu hd⟩,
    fun addr safety hd => ⟨_, rfl, sramUncorrectableState_leaves hu hd⟩, fun ht hdue => ?_⟩
  · obtain ⟨hr, h0, h1⟩ := resyncCompleteState_copies hu hb
    exact ⟨hr, fun h => by rw [h0 h]; exact ⟨rfl, rfl, rfl⟩, fun h => by rw [h1 h]; exact ⟨rfl, rfl, rfl⟩⟩
  · have hc : (up v && decide (v.pair.state = .tracking) && decide (v.sram.scrubbed + 60 * secNs ≤ v.now)) = true := by
      simp only [hu, ht, Bool.true_and, decide_true, decide_eq_true_eq]
      exact hdue
    exact congrArg Host.Outcome.next (if_pos hc)

end Sys2Proof.Machine
end

section
/-! SUPPORT. The module going down and starting again: power fails, resets and STARTUP (03 R50 to R65; 01 R14). -/

namespace Sys2Proof.Machine

/-! ### The module goes down (03 R63, R64) -/

/-- The end of a lease leaves every session in its state. -/
theorem endLease_state (area m : Nat) (s : State) :
    (getSession (endLease area s) m).state = (getSession s m).state := by
  unfold endLease
  split
  · rfl
  next l _ =>
    simp only [getSession, modSession, Tbl.get_modify]
    split
    next h =>
      rw [h]
      split
      · split <;> rfl
      · rfl
    · rfl

/-- The end of a session closes that one alone. -/
theorem closeSession_state (n cause m : Nat) (s : State) :
    (getSession (closeSession n cause s) m).state = if m = n then 0 else (getSession s m).state := by
  split
  next h => rw [h, closeSession_get]
  next h =>
    have leases (l : List Nat) : (getSession (forAll l endLease s) m).state = (getSession s m).state :=
      forAll_induct (P := fun x => (getSession x m).state = (getSession s m).state) l endLease
        (fun a x hx => (endLease_state a m x).trans hx) s rfl
    simp only [closeSession, getSession, Tbl.get_put, if_neg h]
    exact leases _

/-- A loop that closes sessions leaves those closed that it names, and those that were. -/
theorem forAll_close_state (cause m : Nat) (l : List Nat) (s : State) (h : m ∈ l ∨ (getSession s m).state = 0) :
    (getSession (forAll l (fun n s => if (getSession s n).state ≠ 0 then closeSession n cause s else s) s) m).state = 0 := by
  induction l generalizing s with
  | nil => exact h.resolve_left (List.not_mem_nil)
  | cons n r ih =>
    refine ih _ ?_
    rcases Decidable.em (m ∈ r) with hm | hm
    · exact .inl hm
    · refine .inr ?_
      dsimp only
      split
      · rw [closeSession_state]
        split
        · rfl
        next hn => exact h.resolve_left fun hl => (List.mem_cons.1 hl).elim hn hm
      next h0 =>
        rcases h with hl | h
        · rw [(List.mem_cons.1 hl).resolve_right hm]
          exact Decidable.not_not.1 h0
        · exact h

/-- No session of the eight stays open. -/
theorem closeAll_state (cause n : Nat) (s : State) (hn : n < 8) : (getSession (closeAll cause s) n).state = 0 :=
  forAll_close_state cause n _ s (.inl (List.mem_range.2 hn))

/-- The module is down in a phase: AON alone is on, the relay is closed and no session is open. -/
structure DownIn (p : Phase) (u : State) : Prop where
  phase : u.pwr.phase = p
  domains : u.pwr.domains = 1
  relay : u.pwr.relayOpen = false
  sessions : ∀ n, n < 8 → (getSession u n).state = 0

theorem relayClose_relay (s : State) : (relayClose s).pwr.relayOpen = false := by
  unfold relayClose
  split
  · rfl
  next h => simpa using h

theorem relayClose_keeps (s : State) :
    (relayClose s).pwr.mirror = s.pwr.mirror ∧ (relayClose s).pwr.margin = s.pwr.margin := by
  unfold relayClose
  split <;> exact ⟨rfl, rfl⟩

/-- Sessions, drives and stages are apart from the supplies: going down leaves of those what closing the relay does. -/
theorem goDown_supplies (s : State) :
    ∃ x : State, x.pwr = s.pwr ∧ (closeAll 6 (relayClose (drivesOff (stagesOff s)))).pwr = (relayClose x).pwr :=
  ⟨drivesOff (stagesOff s),
    ((drivesOff_frame _).same .pwr (by decide)).trans ((stagesOff_frame s).same .pwr (by decide)),
    (closeAll_frame 6 _).same .pwr (by decide)⟩

theorem goDown_downIn (p : Phase) (s : State) : DownIn p (goDown p s) := by
  obtain ⟨x, -, hx⟩ := goDown_supplies s
  refine ⟨by simp only [goDown], by simp only [goDown], ?_, fun n hn => ?_⟩
  · simp only [goDown, hx, relayClose_relay]
  · have hs : (goDown p s).sess = (closeAll 6 (relayClose (drivesOff (stagesOff s)))).sess := by simp only [goDown]
    rw [getSession, hs]
    exact closeAll_state 6 n _ hn

/-- Going down keeps the counters' mirror and the holdup margin. -/
theorem goDown_keeps (p : Phase) (s : State) :
    (goDown p s).pwr.mirror = s.pwr.mirror ∧ (goDown p s).pwr.margin = s.pwr.margin := by
  obtain ⟨x, hs, hx⟩ := goDown_supplies s
  simp only [goDown, hx, relayClose_keeps, hs, and_self]

/-! ### The retain store at a power fail (01 R14; 03 R64, R65) -/

theorem settleSwap_store (s : State) : (settleSwap s).prog.store = s.prog.store := by
  unfold settleSwap
  split <;> rfl

/-- A commit writes the live data, not the retain store. -/
theorem commitCycle_store (c : Cycle) (s : State) : (commitCycle c s).prog.store = s.prog.store := by
  have pops (x : State) : (dropPops c.pops x).prog = x.prog := (dropPops_frame ..).same .prog (by decide)
  have outs (ts : Int) (x : State) : (c.out.foldl (fun s e => produceForme e.1 e.2 ts s) x).prog = x.prog :=
    (Untouched.foldl (ps := [.img]) (fun y e hy => hy.trans (produceForme_frame ..)) c.out x (.refl ..)).same .prog (by decide)
  simp only [commitCycle, pops, outs, settleSwap_store]

theorem storeRec_store (k : Nat) (s : State) : (storeRec k s).prog.store = s.prog.store := by
  unfold storeRec
  split
  · rw [storeDirty, commitCycle_store]
  · rfl

/-- Storing the acknowledged records leaves the retain store to the copy that follows. -/
theorem storeAll_store (s : State) : (storeAll s).prog.store = s.prog.store :=
  forAll_induct (P := fun x => x.prog.store = s.prog.store) _ storeRec (fun k x hx => (storeRec_store k x).trans hx) s rfl

/-- The copy takes what was last committed, or nothing before the first commit (R65). -/
theorem storeRetain_store (s : State) : (storeRetain s).prog.store =
    if (storeAll s).prog.sealed.isSome then Memory.norm (unswapped (storeAll s)).ret else s.prog.store := by
  simp only [storeRetain]
  split
  next h => rw [h, storeAll_store]; rfl
  next h =>
    rw [h, (sealAxes_frame _).same .prog (by decide)]
    rfl

/-! ### POWER_FAIL (03 R64, R65) -/

/-- The operating time is what MGT's phase, its base and the clock make of it. -/
theorem opTime_congr {s t : State} (hp : t.pwr.phase = s.pwr.phase) (hb : t.pwr.opBase = s.pwr.opBase)
    (ha : t.pwr.opAt = s.pwr.opAt) (hn : t.now = s.now) : opTime t = opTime s := by
  rw [opTime, opTime, up, up, hp, hb, ha, hn]

/-- The power-fail record leaves the counters as they run. -/
theorem powerFailRecord_counters (s : State) :
    aonTime (powerFailRecord s) = aonTime s ∧ opTime (powerFailRecord s) = opTime s ∧
      (powerFailRecord s).pwr.cycles = s.pwr.cycles := by
  have undecided := writeUndecided_frame s
  have h1 := undecided.same .pwr (by decide)
  have h2 := undecided.same .now (by decide)
  have h3 (q : QRec) (x : State) : (writeRec q true true x).pwr = x.pwr := (writeRec_frame ..).same .pwr (by decide)
  have h4 (q : QRec) (x : State) : (writeRec q true true x).now = x.now := (writeRec_frame ..).same .now (by decide)
  simp only [Part.same] at h1 h2
  refine ⟨?_, opTime_congr ?_ ?_ ?_ ?_, ?_⟩ <;> simp only [aonTime, powerFailRecord, h1, h2, h3, h4]

theorem storeRetain_counters (s : State) :
    aonTime (storeRetain s) = aonTime s ∧ opTime (storeRetain s) = opTime s ∧
      (storeRetain s).pwr.cycles = s.pwr.cycles := by
  have hp := (storeRetain_frame s).same .pwr (by decide)
  have hn := (storeRetain_frame s).same .now (by decide)
  simp only [Part.same] at hp hn
  refine ⟨?_, opTime_congr ?_ ?_ ?_ hn, ?_⟩ <;> simp only [aonTime, hp, hn]

/-- The sequence of Table 3.8 mirrors the counters, keeps the margin and copies the retained data. -/
theorem powerFailSequence_leaves (margin : Nat) (s : State) :
    (powerFailSequence margin s).pwr.mirror = (aonTime s, opTime s, s.pwr.cycles) ∧
    (powerFailSequence margin s).pwr.margin = sat 16 margin ∧
    (powerFailSequence margin s).prog.store = (storeRetain s).prog.store := by
  have queue (n : Nat) (x : State) : (drainQueue n x).pwr = x.pwr ∧ (drainQueue n x).prog = x.prog :=
    ⟨(drainQueue_frame n x).same .pwr (by decide), (drainQueue_frame n x).same .prog (by decide)⟩
  have record : (powerFailRecord (storeRetain s)).prog = (storeRetain s).prog :=
    (powerFailRecord_frame _).same .prog (by decide)
  obtain ⟨a1, a2, a3⟩ := storeRetain_counters s
  obtain ⟨b1, b2, b3⟩ := powerFailRecord_counters (storeRetain s)
  simp only [powerFailSequence, queue, draw_snd, writeFlashDue, mirrorCounters, a1, a2, a3, b1, b2, b3, record, and_self]

theorem powerFailState_up {margin : Nat} {back : Bool} {s : State} (hu : s.pwr.phase = .up) :
    powerFailState margin back s = goDown (if back then .restart 3 else .off) (powerFailSequence margin s) := by
  simp only [powerFailState, hu]

/-- A reset of a running module leaves its restart due (R63). -/
theorem resetNow_downIn (cause : Nat) (s : State) : DownIn (.restart cause) (resetNow cause s) := goDown_downIn ..

/-! ### STARTUP (03 R50, R57, R58, R62) -/

/-- What a start leaves of the supplies and the program: the phase, the domains, POWER_CYCLES, the straps, the instant and
the mode. -/
def startView (s : State) : Phase × Nat × Nat × Bool × Bool × Nat × Mode :=
  (s.pwr.phase, s.pwr.domains, s.pwr.cycles, s.pwr.posB, s.pwr.presLow, s.pwr.startedAt, s.prog.mode)

theorem Untouched.startView {ps : List Part} {s t : State} (h : Untouched ps s t)
    (hp : Part.pwr ∉ ps := by decide) (hm : Part.prog ∉ ps := by decide) : Machine.startView t = Machine.startView s := by
  have h1 := h.same .pwr hp
  have h2 := h.same .prog hm
  simp only [Part.same] at h1 h2
  simp only [Machine.startView, h1, h2]

@[simp] theorem startView_recd (s : State) (r : Recorder) : startView { s with recd := r } = startView s := rfl

@[simp] theorem startView_emit (c src : Nat) (d : List Byte) (s : State) : startView (emit c src d s) = startView s :=
  (emit_frame ..).startView

/-- A warning bit is none of what a start leaves. -/
theorem setWarned_leaves (b : Bool) (x : Supply) (p : Pwr) :
    let q := setWarned b p x
    q.phase = p.phase ∧ q.domains = p.domains ∧ q.cycles = p.cycles ∧ q.posB = p.posB ∧ q.presLow = p.presLow ∧
      q.startedAt = p.startedAt := by
  cases x <;> exact ⟨rfl, rfl, rfl, rfl, rfl, rfl⟩

@[simp] theorem startView_noteMv (x : Supply) (mv : Nat) (s : State) : startView (noteMv x mv s) = startView s := by
  cases x <;> rfl

@[simp] theorem startView_supplyRecord (n : Nat) (x : Supply) (mv : Nat) (s : State) :
    startView (supplyRecord n x mv s) = startView s := by
  unfold supplyRecord
  split
  · exact startView_emit ..
  · rfl

@[simp] theorem startView_supplyWarningState (x : Supply) (mv : Nat) (s : State) :
    startView (supplyWarningState x mv s) = startView s := by
  rw [← startView_noteMv x mv s]
  unfold supplyWarningState
  dsimp only
  split
  · obtain ⟨h1, h2, h3, h4, h5, h6⟩ := setWarned_leaves true x (noteMv x mv s).pwr
    rw [startView_supplyRecord]
    simp only [startView, h1, h2, h3, h4, h5, h6]
  · rfl

@[simp] theorem startView_startTrunk (env : StartEnv) (s : State) : startView (startTrunk env s) = startView s := by
  simp only [startTrunk, startView_supplyWarningState]
  rfl

@[simp] theorem startView_takeSupercap (mv : Nat) (s : State) : startView (takeSupercap mv s) = startView s := by
  simp only [takeSupercap, apply_ite startView, startView_emit, ite_self]
  rfl

@[simp] theorem startView_startRecords (env : StartEnv) (s : State) : startView (startRecords env s) = startView s := by
  have margin (x : State) : startView { x with pwr := { x.pwr with marginNew := false } } = startView x := rfl
  simp only [startRecords, margin, apply_ite startView, startView_emit, startView_takeSupercap, ite_self]

@[simp] theorem startView_startForme (env : StartEnv) (s : State) : startView (startForme env s) = startView s := by
  unfold startForme
  split
  · rfl
  · split
    · exact (refusedAtStart_frame ..).startView
    · split
      · rfl
      · split
        · exact (refusedAtStart_frame ..).startView
        · rfl

@[simp] theorem startView_startDecide (env : StartEnv) (s : State) : startView (startDecide env s) = startView s := by
  have resources (w : Bool) (x : State) : startView (startResources w x) = startView x :=
    (startResources_frame ..).startView
  have data (w : Bool) (x : State) : startView (startData w x) = startView x := rfl
  have kind (x : State) (k : Nat) (m : Bool) :
      startView { x with pwr := { x.pwr with kind := k, holdupIncomplete := m } } = startView x := rfl
  simp only [startDecide, resources, data, kind, apply_ite startView, startView_emit, ite_self]

@[simp] theorem startView_startMode (s : State) : startView (startMode s) = startView s :=
  (startView_emit 0x3000 0 (leBytes 1 5) s)

/-- What follows MGT's start leaves what it set. -/
theorem startView_startUp (env : StartEnv) (s : State) : startView (startUp env s) =
    startView (startMgt env (startFresh env (startRecorder env (startAon env s)))) := by
  have record (g : List Gasp) (x : State) : startView (startRecord g x) = startView x := (startRecord_frame ..).startView
  have pair (x : State) : startView (startPair env x) = startView x := (startPair_frame ..).startView
  have ring (x : State) : startView (joinRing env x) = startView x := (joinRing_frame ..).startView
  have safe (x : State) : startView (startSafe env x) = startView x := (startSafe_frame ..).startView
  have time (x : State) : startView (startTime x) = startView x := (startTime_frame ..).startView
  have forces (l : List Force) (x : State) : startView (startForces l x) = startView x := (startForces_frame ..).startView
  have refusal (v c : Nat) (x : State) : startView (refusedAtStart v c x) = startView x :=
    (refusedAtStart_frame ..).startView
  have patch (x : State) : startView (startPatch env x) = startView x := (startPatch_frame ..).startView
  simp only [startUp, record, startView_startMode, pair, ring, startView_startDecide, safe, time, forces,
    startView_startForme, apply_ite startView, refusal, ite_self, patch, startView_startTrunk, startView_startRecords,
    startView_recd]

/-- POWER_CYCLES as the start finds it: from the flash mirror where AON was lost (R57). -/
theorem startAon_cycles (env : StartEnv) (s : State) : (startAon env s).pwr.cycles =
    if s.pwr.phase = .off ∧ env.supercapMv < 2000 then s.pwr.mirror.2.2 else s.pwr.cycles := by
  simp only [startAon, Bool.and_eq_true, decide_eq_true_eq]
  split <;> rfl

/-- A start leaves the module up in STOP with every domain on, its start counted (R50, R57, R62). -/
theorem startUp_leaves (env : StartEnv) (s : State) : startView (startUp env s) =
    (.up, 0xFFF,
      ((if s.pwr.phase = .off ∧ env.supercapMv < 2000 then s.pwr.mirror.2.2 else s.pwr.cycles) + 1) % 2 ^ 24,
      env.posB, env.presLow, s.now, .stop) := by
  have now : (startAon env s).now = s.now := (startAon_frame ..).same .now (by decide)
  rw [startView_startUp, ← startAon_cycles, ← now]
  rfl

theorem execStartup_due {t : Nat} {env : StartEnv} {s : State} (h : startDue env (advance t s) = true) :
    exec (.startup t env) s = .next (startUp env (advance t s)) :=
  congrArg Host.Outcome.next (if_pos h : startupState env (advance t s) = _)

theorem execStartup_notDue {t : Nat} {env : StartEnv} {s : State} (h : startDue env (advance t s) = false) :
    exec (.startup t env) s = .next (advance t s) :=
  congrArg Host.Outcome.next (if_neg (Bool.eq_false_iff.1 h) : startupState env (advance t s) = _)

/-- POWER_FAIL of a running module is the sequence of Table 3.8 and the going down (R64). -/
theorem execPowerFail_up {t margin : Nat} {back : Bool} {s : State} (h : s.pwr.phase = .up) :
    exec (.powerFail t margin back) s =
      .next (goDown (if back then .restart 3 else .off) (powerFailSequence margin (advance t s))) :=
  congrArg Host.Outcome.next (powerFailState_up (s := advance t s) h)

/-- A hardware reset takes a running module down with its cause (R63). -/
theorem reset_up {t cause : Nat} {s : State} (h : s.pwr.phase = .up) :
    (if up (advance t s) then resetNow cause (advance t s) else advance t s) = resetNow cause (advance t s) :=
  if_pos (decide_eq_true h)

theorem execThermalShutdown_up {t : Nat} {tenths : Int} {s : State} (h : s.pwr.phase = .up) (ht : 1250 < tenths) :
    exec (.thermalShutdown t tenths) s = .next (resetNow 5 (advance t s)) :=
  congrArg Host.Outcome.next (if_pos (by simp [up, h, ht]) :
    (if up (advance t s) && decide (1250 < tenths) then resetNow 5 (advance t s) else advance t s) = _)

/-- Settles O26: the start by what each of its steps leaves, going down by its relay, sessions and retain copy. -/
theorem powerFailsAndStarts : Obligations.PowerFailsAndStarts := by
  intro t s v down
  have downOf {p : Phase} {u : State} (h : DownIn p u) : down p u := ⟨h.phase, h.domains, h.relay, h.sessions⟩
  refine ⟨fun env hdue => ?_, fun env hdue => execStartup_notDue hdue, fun margin back hu => ?_, fun tenths hu ht => ?_,
    fun rail hu => ?_, fun hu => ?_⟩
  · have hv := startUp_leaves env v
    simp only [startView, Prod.mk.injEq] at hv
    obtain ⟨hphase, hdom, hcyc, hpos, hpres, hat, hmode⟩ := hv
    exact ⟨startUp env v, execStartup_due hdue, hphase, hdom, hmode, hcyc, hpos, hpres, hat⟩
  · obtain ⟨hmirror, hmargin, hstore⟩ := powerFailSequence_leaves margin v
    obtain ⟨kmirror, kmargin⟩ := goDown_keeps (if back then .restart 3 else .off) (powerFailSequence margin v)
    have kprog := (goDown_frame (if back then .restart 3 else .off) (powerFailSequence margin v)).same .prog (by decide)
    refine ⟨goDown (if back then .restart 3 else .off) (powerFailSequence margin v), execPowerFail_up hu,
      downOf (goDown_downIn ..), kmargin.trans hmargin, kmirror.trans hmirror, ?_⟩
    rw [kprog, hstore, storeRetain_store]
    rfl
  · exact ⟨resetNow 5 v, execThermalShutdown_up hu ht, downOf (resetNow_downIn ..)⟩
  · exact ⟨resetNow 9 v, congrArg Host.Outcome.next (reset_up hu), downOf (resetNow_downIn ..)⟩
  · exact ⟨resetNow 4 v, congrArg Host.Outcome.next (reset_up hu), downOf (resetNow_downIn ..)⟩

end Sys2Proof.Machine
end

section
/-! SUPPORT. Modes change when their time comes: the boundary of RUN, the end of HOLD, a step cycle's second and a task's
grid instant (08 R183, R191, R192; 03 R62). -/

namespace Sys2Proof.Machine

/-! ### STOP keeps its cause (08 R189) -/

theorem abandonCycle_stopCause (k : Nat) (s : State) : (abandonCycle k s).prog.stopCause = s.prog.stopCause := by
  unfold abandonCycle
  split <;> rfl

theorem abandonAll_stopCause (s : State) : (abandonAll s).prog.stopCause = s.prog.stopCause := by
  unfold abandonAll
  exact forAll_induct (P := fun x => x.prog.stopCause = s.prog.stopCause) _ _
    (fun k x h => (abandonCycle_stopCause k x).trans h) s rfl

theorem settleSwap_stopCause (s : State) : (settleSwap s).prog.stopCause = s.prog.stopCause := by
  unfold settleSwap
  split <;> rfl

theorem swapIn_stopCause (new : Forme) (m : Migrated) (g : Nat) (s : State) :
    (swapIn new m g s).prog.stopCause = s.prog.stopCause := rfl

theorem settleClock_stopCause (s : State) : (settleClock s).prog.stopCause = s.prog.stopCause := rfl

theorem swapNow_stopCause (pause : Nat) (s : State) : (swapNow pause s).prog.stopCause = s.prog.stopCause := by
  unfold swapNow
  split
  · rfl
  · have change (t : State) : (changeOver t).prog = t.prog := (changeOver_frame t).same .prog (by decide)
    dsimp only
    rw [change]
    simp only [apply_ite State.prog, apply_ite Prog.stopCause, cmdDone_fields, emit_fields, ite_self,
      settleSwap_stopCause, swapIn_stopCause, abandonAll_stopCause, settleClock_stopCause]

/-- Leaving RUN or HOLD for STOP keeps the cause (Table 8.16). -/
theorem enterStop_stopCause {cause : Nat} {s : State} (h : s.prog.mode ≠ .stop) :
    (enterStop cause s).prog.stopCause = cause := by
  have aborts (t : State) : (scAbortArmed t).prog = t.prog := (scAbortArmed_frame t).same .prog (by decide)
  have withdraws (t : State) : (canWithdraw t).prog = t.prog := (canWithdraw_frame t).same .prog (by decide)
  simp only [enterStop, if_neg h, apply_ite State.prog, apply_ite Prog.stopCause, swapNow_stopCause, aborts, withdraws,
    emit_fields, ite_self]

/-! ### Tasks (08 R183, R192) -/

/-- A task's update counts only for the task as it stands. -/
theorem modTask_congr {k : Nat} {f g : Task → Task} {s : State} (h : f (getTask s k) = g (getTask s k)) :
    modTask k f s = modTask k g s := by
  unfold getTask at h
  simp only [modTask, Tbl.modify, h]

/-- A cycle in execution is abandoned (R192). -/
theorem abandonCycle_some {k : Nat} {c : Cycle} {s : State} (h : (getTask s k).cycle = some c) :
    abandonCycle k s =
      modTask k (fun x => { x with cycle := none, abandoned := true, lastExec := sat 32 (s.now - c.releasedAt) }) s := by
  rw [abandonCycle, if_neg (by simp [h])]
  refine modTask_congr ?_
  simp only [h]

/-- The task as a release at a grid instant leaves it. -/
def taskReleased (k : Nat) (s : State) (x : Task) : Task :=
  let g := gridAt s (taskPeriod s k)
  { x with cycle := some (newCycle (modTask k (fun t => { t with lastGrid := some g }) s) k (clockAtLocal s g) false)
           consecutive := 0, releases := sat 32 (x.releases + 1), lastRelease := some (localNow s), lastGrid := some g }

/-- A cyclic task without a cycle is released at a grid instant not yet served (R183). -/
theorem gridRelease_due {k : Nat} {s : State} (hk : (taskDef s k).kind = 1)
    (hg : (getTask s k).lastGrid ≠ some (gridAt s (taskPeriod s k))) (hc : (getTask s k).cycle = none) :
    (∀ j, getTask (gridRelease k s) j = if j = k then taskReleased k s (getTask s k) else getTask s j) ∧
      (gridRelease k s).prog.mode = s.prog.mode ∧ (gridRelease k s).prog.runDue = s.prog.runDue := by
  have hfree (g : Int) : (getTask (modTask k (fun t => { t with lastGrid := some g }) s) k).cycle.isSome = false := by
    simp [hc]
  simp only [gridRelease, hk, hg, ne_eq, not_false_eq_true, and_self, if_true, releaseOrMiss, hfree,
    Bool.false_eq_true, if_false, releaseTask]
  refine ⟨fun j => ?_, rfl, rfl⟩
  simp only [getTask_modTask, if_true]
  split <;> rfl

/-- The release of a task without a cycle leaves the mode and the other tasks. -/
theorem gridRelease_free {k : Nat} {s : State} (hc : (getTask s k).cycle = none) :
    (∀ j, j ≠ k → getTask (gridRelease k s) j = getTask s j) ∧
      (gridRelease k s).prog.mode = s.prog.mode ∧ (gridRelease k s).prog.runDue = s.prog.runDue := by
  by_cases h : (taskDef s k).kind = 1 ∧ (getTask s k).lastGrid ≠ some (gridAt s (taskPeriod s k))
  · obtain ⟨ht, hm⟩ := gridRelease_due h.1 h.2 hc
    exact ⟨fun j hj => (ht j).trans (if_neg hj), hm⟩
  · rw [gridRelease, if_neg h]
    exact ⟨fun _ _ => rfl, rfl, rfl⟩

/-- Tasks without a cycle are released without a miss, so the mode stands. -/
theorem forAll_gridRelease_mode (l : List Nat) (hl : l.Nodup) (s : State) (h : ∀ k ∈ l, (getTask s k).cycle = none) :
    (forAll l gridRelease s).prog.mode = s.prog.mode ∧ (forAll l gridRelease s).prog.runDue = s.prog.runDue := by
  induction l generalizing s with
  | nil => exact ⟨rfl, rfl⟩
  | cons k r ih =>
    obtain ⟨hk, hr⟩ := List.nodup_cons.1 hl
    obtain ⟨htask, hmode, hdue⟩ := gridRelease_free (h k (List.mem_cons_self ..))
    have rest : ∀ j ∈ r, (getTask (gridRelease k s) j).cycle = none := fun j hj =>
      (congrArg Task.cycle (htask j fun e => hk (e ▸ hj))).trans (h j (List.mem_cons_of_mem _ hj))
    obtain ⟨im, id⟩ := ih hr _ rest
    exact ⟨im.trans hmode, id.trans hdue⟩

theorem releaseAllCyclic_mode {s : State} (h : ∀ k, (getTask s k).cycle = none) :
    (releaseAllCyclic s).prog.mode = s.prog.mode ∧ (releaseAllCyclic s).prog.runDue = s.prog.runDue := by
  unfold releaseAllCyclic
  exact forAll_gridRelease_mode _ List.nodup_range s fun k _ => h k

/-- RUN as it begins, before its first releases (Table 8.17). -/
def runBegun (s : State) : State :=
  emit 0x3001 0 (leBytes 1 s.prog.stopCause) { s with prog := { s.prog with
    mode := .run, clockAt := gridAt s secNs, tasks := [], runDue := false, runByCommand := false } }

theorem enterRun_eq (s : State) : enterRun s = releaseAllCyclic (runBegun s) := rfl

theorem runBegun_prog (s : State) :
    (runBegun s).prog.mode = .run ∧ (runBegun s).prog.runDue = false ∧ (runBegun s).prog.tasks = [] := by
  simp only [runBegun, emit_fields, and_self]

/-- RUN is entered, and is awaited no longer (Table 8.8). -/
theorem enterRun_mode (s : State) : (enterRun s).prog.mode = .run ∧ (enterRun s).prog.runDue = false := by
  obtain ⟨hmode, hdue, htasks⟩ := runBegun_prog s
  have idle (k : Nat) : (getTask (runBegun s) k).cycle = none := by
    rw [getTask, htasks]
    rfl
  rw [enterRun_eq, (releaseAllCyclic_mode idle).1, (releaseAllCyclic_mode idle).2]
  exact ⟨hmode, hdue⟩

theorem runEntryState_mode (s : State) : (runEntryState s).prog.mode = .run ∧ (runEntryState s).prog.runDue = false := by
  simp only [runEntryState, apply_ite State.prog, cmdDone_fields, ite_self]
  exact enterRun_mode s

/-! ### The rows -/

@[simp] theorem appUp_advance (t : Nat) (s : State) : appUp (advance t s) = appUp s := rfl

@[simp] theorem pairState_advance (t : Nat) (s : State) : (advance t s).pair.state = s.pair.state := rfl

theorem execRunEntry_due {t : Nat} {s : State} (h : runEntryDue (advance t s) = true) :
    exec (.runEntry t) s = .next (runEntryState (configApplyState (advance t s))) :=
  congrArg Host.Outcome.next (if_pos h :
    (if runEntryDue (advance t s) then runEntryState (configApplyState (advance t s)) else advance t s) = _)

theorem execHoldLapse_due {t : Nat} {s : State} (hm : s.prog.mode = .hold) (h : s.prog.holdUntil ≤ (advance t s).now) :
    exec (.holdLapse t) s = .next (enterStop 3 (advance t s)) :=
  congrArg Host.Outcome.next (if_pos ⟨hm, h⟩ :
    (if (advance t s).prog.mode = .hold ∧ (advance t s).prog.holdUntil ≤ (advance t s).now then enterStop 3 (advance t s)
      else advance t s) = _)

/-- A step cycle is abandoned a second after its release (R192). -/
theorem execStepCycleTimeout_due {t : Nat} {k : Fin 48} {c : Cycle} {s : State} (hc : (getTask s k).cycle = some c)
    (hs : c.step = true) (h : c.releasedAt + secNs ≤ (advance t s).now) :
    exec (.stepCycleTimeout t k) s = .next (abandonCycle k (advance t s)) := by
  have hc' : (getTask (advance t s) k).cycle = some c := hc
  change execStepCycleTimeout t k s = _
  simp only [execStepCycleTimeout, hc', hs, h, and_self, if_true]

/-- No commit is due, so a boundary's configuration does not come before the tasks (04 R89). -/
theorem applyFirst_none {s : State} (hm : s.prog.mode ≠ .stop)
    (h : ∀ p, s.sess.pending = some p → boundarySince s p.since = false) : applyFirst s = s := by
  rw [applyFirst, if_neg hm, configApplyState]
  split
  next p hp => rw [applyDue, h p hp, decide_eq_false hm, Bool.or_self, Bool.and_false, if_neg Bool.false_ne_true]
  · rfl

theorem execTaskRelease_due {t : Nat} {k : Fin 48} {s : State} (hk : k.val < 32) (ha : appUp s = true)
    (hm : s.prog.mode = .run) (hp : ∀ p, s.sess.pending = some p → boundarySince (advance t s) p.since = false)
    (hs : swapHeld (advance t s) = false) : exec (.taskRelease t k) s = .next (gridRelease k (advance t s)) := by
  have hm' : (advance t s).prog.mode ≠ .stop := by simp [hm]
  have due : taskReleaseState k (advance t s) = gridRelease k (advance t s) := by
    simp [taskReleaseState, ha, hm, hk, hs]
  exact congrArg Host.Outcome.next ((congrArg (taskReleaseState k) (applyFirst_none hm' hp)).trans due)

/-- Settles O16, row by row. -/
theorem modesChangeWhenTheirTimeComes : Obligations.ModesChangeWhenTheirTimeComes := by
  intro t s v
  refine ⟨fun ha hpair hdue hm hf hb => ?_, fun hm hh => ?_, fun k c hc hs ht => ?_, fun k hk ha hm hp hs hkind hc hg => ?_⟩
  · have due : runEntryDue v = true := by
      simp only [runEntryDue, v, appUp_advance, pairState_advance, advance_fields, ha, hpair, hdue, hm, hf, hb,
        decide_true, decide_false, Bool.not_false, Bool.and_self]
    obtain ⟨hrun, hnone⟩ := runEntryState_mode (configApplyState v)
    exact ⟨runEntryState (configApplyState v), execRunEntry_due due, hrun, hnone⟩
  · refine ⟨enterStop 3 v, execHoldLapse_due hm hh, enterStop_mode 3 v, enterStop_stopCause ?_⟩
    simp [v, hm]
  · rw [execStepCycleTimeout_due hc hs ht, abandonCycle_some (s := advance t s) hc]
  · obtain ⟨ht, -, -⟩ := gridRelease_due (k := k) (s := v) hkind hg hc
    have htask := (ht k).trans (if_pos rfl)
    exact ⟨gridRelease k v, _, execTaskRelease_due hk ha hm hp hs, congrArg Task.cycle htask, rfl,
      congrArg Task.lastGrid htask, congrArg Task.releases htask⟩

end Sys2Proof.Machine
end

section
/-! SUPPORT. DOMAIN_RESET: one domain switches off alone and comes back after 10 ms, or the whole module restarts (03 R54,
R55). -/

namespace Sys2Proof.Machine

/-! ### The bits of DOMAIN_STATE (Table 3.10) -/

/-- Taking a bit that is set from a number clears that bit alone. -/
theorem testBit_sub_two_pow {t x : Nat} (h : x.testBit t = true) (e : Nat) :
    (x - 2 ^ t).testBit e = (x.testBit e && decide (e ≠ t)) := by
  induction t generalizing x e with
  | zero =>
    rw [Nat.testBit_zero, decide_eq_true_eq] at h
    cases e with
    | zero => simp only [Nat.testBit_zero, Nat.pow_zero, ne_eq, not_true_eq_false, decide_false, Bool.and_false,
        decide_eq_false_iff_not]; omega
    | succ e =>
      have hx : (x - 1) / 2 = x / 2 := by omega
      simp [Nat.testBit_succ, hx]
  | succ t ih =>
    rw [Nat.testBit_succ] at h
    have hp : 2 ^ (t + 1) = 2 * 2 ^ t := by rw [Nat.pow_succ, Nat.mul_comm]
    cases e with
    | zero =>
      have hx : (x - 2 ^ (t + 1)) % 2 = x % 2 := by
        have := Nat.ge_two_pow_of_testBit h
        omega
      simp [Nat.testBit_zero, hx]
    | succ e =>
      have hx : (x - 2 ^ (t + 1)) / 2 = x / 2 - 2 ^ t := by omega
      rw [Nat.testBit_succ, hx, ih h, ← Nat.testBit_succ]
      simp

theorem switchOff_bit (x t e : Nat) :
    bitOf (x - flagBit t (bitOf x t)) e = (bitOf x e && decide (e ≠ t)) := by
  unfold bitOf flagBit
  cases h : x.testBit t with
  | true => exact testBit_sub_two_pow h e
  | false =>
    by_cases he : e = t
    · simp [he, h]
    · simp [he]

theorem switchOn_bit (x t : Nat) : bitOf (x + flagBit t (!bitOf x t)) t = true := by
  unfold bitOf flagBit
  cases h : x.testBit t with
  | true => simpa using h
  | false => rw [Bool.not_false, if_pos rfl, Nat.add_comm, Nat.testBit_two_pow_add_eq, h, Bool.not_false]

/-! ### An answer leaves the supplies and the commands -/

theorem answerOrWait_keeps (ses : Session) (h : Hdr) (service : Nat) (a : Answer) (s : State) :
    (answerOrWait ses h service a s).pwr = s.pwr ∧ ∀ k, getCmd (answerOrWait ses h service a s) k = getCmd s k := by
  refine ⟨(answerOrWait_frame ..).same .pwr (by decide), fun k => ?_⟩
  unfold answerOrWait
  split
  · rfl
  · simp only [answerDone, getCmd, send_fields]
    split <;> rfl

theorem respond_keeps (s : State) (h : Hdr) (service : Nat) (a : Answer) (u : State) :
    (respond s h service a u).pwr = u.pwr ∧ ∀ k, getCmd (respond s h service a u) k = getCmd u k :=
  answerOrWait_keeps ..

/-! ### DOMAIN_RESET (R54) -/

theorem relayClose_domains (s : State) : (relayClose s).pwr.domains = s.pwr.domains := by
  unfold relayClose
  split <;> rfl

/-- A domain's resources are made safe before it switches off: meanwhile the clock and DOMAIN_STATE stand. -/
theorem domainOff_eq (target : Nat) (s : State) : ∃ x : State, x.now = s.now ∧ x.pwr.domains = s.pwr.domains ∧
    domainOff target s = { x with pwr := { x.pwr with
      domains := x.pwr.domains - flagBit target (domainOn x target), domReset := some (target, x.now) } } := by
  have byFrame {ps : List Part} {x : State} (h : Untouched ps s x) (hn : Part.now ∉ ps := by decide)
      (hp : Part.pwr ∉ ps := by decide) : x.now = s.now ∧ x.pwr.domains = s.pwr.domains :=
    ⟨h.same .now hn, congrArg Pwr.domains (h.same .pwr hp)⟩
  have net : (netOffState s).now = s.now ∧ (netOffState s).pwr.domains = s.pwr.domains := by
    have closes (x : State) : (forAll (List.range 8) (fun n s =>
        if (getSession s n).state ≠ 0 ∧ (getSession s n).path = 1 then closeSession n 6 s else s) x).pwr = x.pwr := by
      refine forAll_induct (P := fun y => y.pwr = x.pwr) _ _ (fun n y hy => ?_) x rfl
      split
      · exact ((closeSession_frame ..).same .pwr (by decide)).trans hy
      · exact hy
    refine ⟨(netOffState_frame s).same .now (by decide), ?_⟩
    simp only [netOffState, closes, relayClose_domains]
  unfold domainOff
  split
  · exact ⟨_, net.1, net.2, rfl⟩
  · exact ⟨_, (byFrame (canOffState_frame s)).1, (byFrame (canOffState_frame s)).2, rfl⟩
  · exact ⟨_, (byFrame (diolOffState_frame s)).1, (byFrame (diolOffState_frame s)).2, rfl⟩
  · exact ⟨_, (byFrame (aiolOffState_frame s)).1, (byFrame (aiolOffState_frame s)).2, rfl⟩
  · exact ⟨_, (byFrame (motionReset_frame s)).1, (byFrame (motionReset_frame s)).2, rfl⟩

/-- The domain is off, its reset runs from now, and every other domain is as it was (R54). -/
theorem domainOff_leaves (target : Nat) (s : State) :
    (domainOff target s).pwr.domReset = some (target, s.now) ∧
      ∀ e, domainOn (domainOff target s) e = (domainOn s e && decide (e ≠ target)) := by
  obtain ⟨x, hn, hd, h⟩ := domainOff_eq target s
  rw [h]
  refine ⟨by rw [← hn], fun e => ?_⟩
  simp only [domainOn, ← hd, switchOff_bit]

theorem domainRecord_keeps (target n : Nat) (s : State) :
    (domainRecord target n s).now = s.now ∧ (domainRecord target n s).pwr = s.pwr := by
  simp only [domainRecord, emit_fields, and_self]

/-- What a target of DOMAIN_RESET has to be to be switched off (Table 3.4). -/
def Resettable (d : Nat) (s : State) : Prop :=
  (8 ≤ d ∧ d ≤ 11) ∨ (d = 7 ∧ isPairUnit s = false ∧ s.prog.mode = .stop)

theorem domainResetOp_one {data : List Byte} {n : Nat} {s : State} (hc : (getCmd s 0xA).status ≠ 1)
    (hd : Resettable (fieldAt data 0 1) s) :
    domainResetOp data n s =
      (.ok [], cmdStart 0xA n (domainOff (fieldAt data 0 1) (domainRecord (fieldAt data 0 1) n s))) := by
  have hrun : cmdRunning s 0xA = false := beq_eq_false_iff_ne.2 hc
  simp only [domainResetOp, hrun, Bool.false_eq_true, if_false, cmdAccept]
  generalize fieldAt data 0 1 = d at hd ⊢
  rcases hd with ⟨h8, h11⟩ | ⟨rfl, hpair, hmode⟩
  · rw [if_neg (by omega), if_neg (by omega), if_neg (by omega)]
  · simp [hpair, hmode]

theorem domainResetOp_whole {data : List Byte} {n : Nat} {s : State} (hc : (getCmd s 0xA).status ≠ 1)
    (hd : fieldAt data 0 1 = 0xFF) :
    domainResetOp data n s = (.ok [], cmdStart 0xA n (domainRecord 0xFF n s)) := by
  have hrun : cmdRunning s 0xA = false := beq_eq_false_iff_ne.2 hc
  simp only [domainResetOp, hrun, Bool.false_eq_true, if_false, cmdAccept, hd, if_true]

theorem cmdStart_status (c n : Nat) (s : State) : (getCmd (cmdStart c n s) c).status = 1 := by
  simp [cmdStart]

/-- With one domain's reset running the module does not restart. -/
theorem wholeRestart_one {s : State} (h : s.pwr.domReset.isSome = true) : wholeRestart s = s := by
  rw [wholeRestart, if_neg]
  simp [Option.isNone_iff_eq_none, Option.ne_none_iff_isSome, h]

theorem wholeRestart_whole {s : State} (hu : up s = true) (hc : (getCmd s 0xA).status = 1) (hn : s.pwr.domReset = none) :
    wholeRestart s = restartNow 7 s :=
  if_pos (by simp [hu, cmdRunning, hc, hn])

theorem restartNow_phase (cause : Nat) (s : State) : (restartNow cause s).pwr.phase = .restart cause := by
  simp only [restartNow, goDown]

theorem execDomainReset_heard {t : Nat} {c : Cmd} {s : State} (h : writeHeard (found t s) c 0xF00A 1 [] = true) :
    let p := domainResetOp c.rest c.hdr.session (served (found t s) c.hdr.session)
    exec (.domainReset t c) s = .next (wholeRestart (respond (found t s) c.hdr svcWrite p.1 p.2)) :=
  congrArg (fun x => Host.Outcome.next (wholeRestart x)) (rowReq_heard domainResetOp t h)

/-- A request is heard by a module that runs. -/
theorem up_of_writeHeard {t idx sub : Nat} {c : Cmd} {fixed : List Byte} {s : State}
    (h : writeHeard (found t s) c idx sub fixed = true) : up (served (found t s) c.hdr.session) = true := by
  simp only [writeHeard, heard, answers, Bool.and_eq_true] at h
  obtain ⟨⟨⟨⟨⟨⟨⟨⟨⟨hu, -⟩, -⟩, -⟩, -⟩, -⟩, -⟩, -⟩, -⟩, -⟩ := h
  simpa only [up, served_fields] using hu

/-! ### DOMAIN_RESET_COMPLETE (R55) -/

/-- A domain is up again with the rest of its resources. -/
theorem domainComplete_up {target t0 : Nat} {s : State} (hr : s.pwr.domReset = some (target, t0)) (hu : up s = true)
    (ht : t0 + 10 * msNs ≤ s.now) : ∃ x : State,
      x.pwr = { s.pwr with domains := s.pwr.domains + flagBit target (!domainOn s target), domReset := none } ∧
      domainCompleteState s = cmdDone 0xA (leBytes 4 ((s.now - t0) / usNs)) x := by
  have hc : (!up s || decide (s.now < t0 + 10 * msNs)) = false := by
    simp only [hu, Bool.not_true, Bool.false_or, decide_eq_false_iff_not, Nat.not_lt]
    exact ht
  simp only [domainCompleteState, hr, hc, Bool.false_eq_true, if_false]
  refine ⟨_, ?_, rfl⟩
  split
  · exact (netOnState_frame ..).same .pwr (by decide)
  · exact (canOnState_frame ..).same .pwr (by decide)
  · rfl

theorem domainComplete_early {target t0 : Nat} {s : State} (hr : s.pwr.domReset = some (target, t0))
    (ht : s.now < t0 + 10 * msNs) : domainCompleteState s = s := by
  simp only [domainCompleteState, hr, ht, decide_true, Bool.or_true, if_true]

/-- A command that is done holds its result. -/
theorem cmdDone_get (c : Nat) (r : List Byte) (s : State) : (getCmd (cmdDone c r s) c).status = 2 ∧
    (getCmd (cmdDone c r s) c).result = (r ++ List.replicate 16 0).take 16 := by
  simp [cmdDone]

theorem leBytes_length (n v : Nat) : (leBytes n v).length = n := by
  simp [leBytes]

/-- A domain of Table 3.4 is reset alone. -/
theorem execDomainReset_one {t : Nat} {c : Cmd} {s : State} (h : writeHeard (found t s) c 0xF00A 1 [] = true)
    (hc : (getCmd (served (found t s) c.hdr.session) 0xA).status ≠ 1)
    (hd : Resettable (fieldAt c.rest 0 1) (served (found t s) c.hdr.session)) :
    ∃ w, exec (.domainReset t c) s = .next (respond (found t s) c.hdr svcWrite (.ok []) w) ∧
      w.pwr.domReset = some (fieldAt c.rest 0 1, (served (found t s) c.hdr.session).now) ∧
      (getCmd w 0xA).status = 1 ∧
      ∀ e, domainOn w e = (domainOn (served (found t s) c.hdr.session) e && decide (e ≠ fieldAt c.rest 0 1)) := by
  have hexec := execDomainReset_heard h
  simp only [domainResetOp_one hc hd] at hexec
  generalize served (found t s) c.hdr.session = v at hexec ⊢
  generalize fieldAt c.rest 0 1 = d at hexec ⊢
  obtain ⟨hreset, hon⟩ := domainOff_leaves d (domainRecord d c.hdr.session v)
  obtain ⟨hnow, hpwr⟩ := domainRecord_keeps d c.hdr.session v
  generalize domainOff d (domainRecord d c.hdr.session v) = y at hexec hreset hon
  have hw : (cmdStart 0xA c.hdr.session y).pwr.domReset = some (d, v.now) := hreset.trans (by rw [hnow])
  refine ⟨_, hexec.trans (congrArg Host.Outcome.next (wholeRestart_one ?_)), hw, cmdStart_status .., fun e => ?_⟩
  · rw [(respond_keeps ..).1, hw]
    rfl
  · have hv : domainOn (domainRecord d c.hdr.session v) e = domainOn v e := by rw [domainOn, domainOn, hpwr]
    exact (hon e).trans (by rw [hv])

/-- Target 0xFF restarts the module (Table 3.4). -/
theorem execDomainReset_whole {t : Nat} {c : Cmd} {s : State} (h : writeHeard (found t s) c 0xF00A 1 [] = true)
    (hc : (getCmd (served (found t s) c.hdr.session) 0xA).status ≠ 1) (hd : fieldAt c.rest 0 1 = 0xFF)
    (hn : (served (found t s) c.hdr.session).pwr.domReset = none) :
    ∃ x, exec (.domainReset t c) s = .next (restartNow 7 x) := by
  have hexec := execDomainReset_heard h
  have hu := up_of_writeHeard h
  simp only [domainResetOp_whole hc hd] at hexec
  generalize served (found t s) c.hdr.session = v at hexec hn hu
  have hpwr : (cmdStart 0xA c.hdr.session (domainRecord 0xFF c.hdr.session v)).pwr = v.pwr := (domainRecord_keeps ..).2
  obtain ⟨kpwr, kcmd⟩ := respond_keeps (found t s) c.hdr svcWrite (.ok [])
    (cmdStart 0xA c.hdr.session (domainRecord 0xFF c.hdr.session v))
  refine ⟨_, hexec.trans (congrArg Host.Outcome.next (wholeRestart_whole ?_ ?_ ?_))⟩
  · rw [up, kpwr, hpwr]
    exact hu
  · rw [kcmd, cmdStart_status]
  · rw [kpwr, hpwr, hn]

/-- DOMAIN_RESET_COMPLETE once the domain has been off for 10 ms. -/
theorem domainComplete_leaves {target t0 : Nat} {s : State} (hr : s.pwr.domReset = some (target, t0)) (hu : up s = true)
    (ht : t0 + 10 * msNs ≤ s.now) :
    domainOn (domainCompleteState s) target = true ∧ (domainCompleteState s).pwr.domReset = none ∧
      (getCmd (domainCompleteState s) 0xA).status = 2 ∧
      (getCmd (domainCompleteState s) 0xA).result.take 4 = leBytes 4 ((s.now - t0) / usNs) := by
  obtain ⟨x, hx, hdone⟩ := domainComplete_up hr hu ht
  obtain ⟨hstatus, hresult⟩ := cmdDone_get 0xA (leBytes 4 ((s.now - t0) / usNs)) x
  rw [hdone]
  refine ⟨?_, by simp only [cmdDone_fields, hx], hstatus, ?_⟩
  · simp only [domainOn, cmdDone_fields, hx, switchOn_bit]
  · rw [hresult, List.take_take, List.take_append_of_le_length (by simp [leBytes_length]),
      List.take_of_length_le (by simp [leBytes_length])]

/-- Settles O24, each row by what its operation leaves. -/
theorem domainsAreResetAlone : Obligations.DomainsAreResetAlone := by
  refine ⟨fun t c s => ?_, fun t d t0 s hr hu h7 h11 => ⟨fun ht => ?_, fun ht => ?_⟩⟩
  · intro v d
    subst d v
    refine ⟨fun h hc hd => ?_, fun h hc hd hn => ?_⟩
    · obtain ⟨w, hexec, hreset, hstatus, hon⟩ := execDomainReset_one h hc hd
      refine ⟨w, hexec, ?_, hreset, hstatus, fun e he => ?_⟩
      · simp [hon]
      · simp [hon, he]
    · obtain ⟨x, hexec⟩ := execDomainReset_whole h hc hd hn
      exact ⟨_, hexec, restartNow_phase 7 x⟩
  · exact ⟨_, rfl, domainComplete_leaves (s := advance t s) hr hu ht⟩
  · exact congrArg Host.Outcome.next (domainComplete_early (s := advance t s) hr ht)

end Sys2Proof.Machine
end

section
/-! SUPPORT. Fuses, supply warnings, supplies lost and back, and the bypass relay (03 R49, R51, R67; 12 R289, R303). -/

namespace Sys2Proof.Machine

/-! ### The supply of each bank -/

/-- Which banks have lost their supply. -/
def banksOff (s : State) (b : Nat) : Bool := (getBank s b).supplyOff

@[simp] theorem banksOff_modDio (ch : Nat) (f : Dio → Dio) (s : State) : banksOff (modDio ch f s) = banksOff s := rfl

@[simp] theorem banksOff_stampDio (ch : Nat) (c : Dio → Dio → Bool) (f : Dio → Dio) (s : State) :
    banksOff (stampDio ch c f s) = banksOff s := rfl

@[simp] theorem banksOff_emit (c src : Nat) (d : List Byte) (s : State) : banksOff (emit c src d s) = banksOff s := by
  unfold banksOff getBank
  rw [(emit_frame c src d s).same .dio (by decide)]

theorem banksOff_modBank (b : Nat) (f : Bank → Bank) (s : State) (j : Nat) :
    banksOff (modBank b f s) j = if j = b then (f (getBank s b)).supplyOff else banksOff s j := by
  unfold banksOff
  rw [getBank_modBank, apply_ite Bank.supplyOff]

/-- An update of a bank that leaves its supply leaves every bank's. -/
theorem banksOff_modBank_keeps (b : Nat) {f : Bank → Bank} (s : State) (hf : ∀ x, (f x).supplyOff = x.supplyOff) :
    banksOff (modBank b f s) = banksOff s := by
  funext j
  rw [banksOff_modBank, hf]
  split
  next h => rw [h]; rfl
  · rfl

theorem banksOff_forAll {l : List Nat} {f : Nat → State → State} (hf : ∀ n s, banksOff (f n s) = banksOff s) (s : State) :
    banksOff (forAll l f s) = banksOff s :=
  forAll_induct (P := fun x => banksOff x = banksOff s) l f (fun n x hx => (hf n x).trans hx) s rfl

@[simp] theorem banksOff_setSwitch (ch : Nat) (v : Bool) (s : State) : banksOff (setSwitch ch v s) = banksOff s := by
  have ends (x : State) : banksOff (endDrive ch x) = banksOff x := by
    unfold endDrive
    dsimp only
    split
    · split
      · exact banksOff_emit ..
      · rfl
    · rfl
  unfold setSwitch
  dsimp only
  split
  · exact ends _
  · rfl

@[simp] theorem banksOff_settleSwitch (ch : Nat) (s : State) : banksOff (settleSwitch ch s) = banksOff s := by
  have leaves (g : Nat → List Nat → List Nat) (x : State) :
      banksOff (modBank (ch / 12) (fun b => { b with group := g ch b.group }) x) = banksOff x :=
    banksOff_modBank_keeps _ x fun _ => rfl
  have group (x : State) : banksOff (if (getBank s (ch / 12)).group.contains ch then
      modBank (ch / 12) (fun b => { b with group := b.group.filter (· != ch) }) x else x) = banksOff x := by
    split
    · exact leaves (fun c l => l.filter (· != c)) x
    · rfl
  unfold settleSwitch
  dsimp only
  split
  · split
    · rfl
    · split
      · exact leaves addGroup s
      · exact banksOff_setSwitch ..
  · split
    · exact (banksOff_setSwitch ..).trans (group s)
    · exact group s

/-- The outputs of a bank go off with its supply (12 R303). -/
theorem bankSupplyLost_off (b : Nat) (s : State) (j : Nat) :
    banksOff (bankSupplyLost b s) j = if j = b then true else banksOff s j := by
  have off (x : State) : banksOff (bankOff b x) = banksOff x := by
    unfold bankOff
    rw [banksOff_forAll, banksOff_modBank_keeps]
    · exact fun _ => rfl
    · intro ch y
      split
      · exact banksOff_setSwitch ..
      · rfl
  unfold bankSupplyLost
  rw [banksOff_forAll, off, banksOff_modBank]
  exact fun ch y => banksOff_stampDio ..

theorem bankSupplyBack_off (b : Nat) (s : State) (j : Nat) :
    banksOff (bankSupplyBack b s) j = if j = b then false else banksOff s j := by
  have restore (x : State) : banksOff (startRestore b x) = banksOff x := by
    unfold startRestore settleBank
    rw [banksOff_forAll (fun ch y => banksOff_settleSwitch ch y), banksOff_modBank_keeps]
    exact fun _ => rfl
  have ends (x : State) : banksOff (modBank b (fun y => { y with restoring := false }) x) = banksOff x :=
    banksOff_modBank_keeps _ _ fun _ => rfl
  unfold bankSupplyBack
  split
  · dsimp only
    rw [apply_ite banksOff, ends, ite_self, restore, banksOff_modBank]
  next h =>
    split
    next hj => rw [hj]; exact Bool.eq_false_iff.2 h
    · rfl

/-- A loop over banks that sets the supply of each leaves it set in those it names. -/
theorem forAll_banksOff {v : Bool} {f : Nat → State → State}
    (hf : ∀ b s j, banksOff (f b s) j = if j = b then v else banksOff s j) {l : List Nat} {j : Nat} {s : State}
    (h : j ∈ l ∨ banksOff s j = v) : banksOff (forAll l f s) j = v := by
  induction l generalizing s with
  | nil => exact h.resolve_left (List.not_mem_nil)
  | cons b r ih =>
    refine ih ?_
    dsimp only
    rw [hf]
    rcases h with h | h
    · rcases List.mem_cons.1 h with rfl | h
      · exact .inr (if_pos rfl)
      · exact .inl h
    · exact .inr (by rw [h, ite_self])

theorem mem_fourBanks {first b : Nat} (h1 : first ≤ b) (h2 : b < first + 4) : b ∈ (List.range 4).map (first + ·) :=
  List.mem_map.2 ⟨b - first, List.mem_range.2 (by omega), by omega⟩

theorem banksLost_off {first b : Nat} (s : State) (h1 : first ≤ b) (h2 : b < first + 4) :
    banksOff (banksLost first s) b = true := by
  refine forAll_banksOff (fun b s j => ?_) (.inl (mem_fourBanks h1 h2))
  split
  next h =>
    split
    next hj => rw [hj]; exact h
    · rfl
  · exact bankSupplyLost_off ..

theorem banksBack_off {first b : Nat} (s : State) (h1 : first ≤ b) (h2 : b < first + 4) :
    banksOff (banksBack first s) b = false :=
  forAll_banksOff bankSupplyBack_off (.inl (mem_fourBanks h1 h2))

/-! ### What hangs on FSA, FSB and MS (R51) -/

/-- A later operation leaves the banks' supplies, and of the module's supplies all but whether they feed the AIO. -/
structure FeedOnly (s t : State) : Prop where
  fsa : t.pwr.fsaOff = s.pwr.fsaOff
  fsb : t.pwr.fsbOff = s.pwr.fsbOff
  msLow : t.pwr.msOffLow = s.pwr.msOffLow
  msHigh : t.pwr.msOffHigh = s.pwr.msOffHigh
  banks : banksOff t = banksOff s

theorem FeedOnly.refl (s : State) : FeedOnly s s := ⟨rfl, rfl, rfl, rfl, rfl⟩

theorem FeedOnly.trans {s t u : State} (h : FeedOnly s t) (k : FeedOnly t u) : FeedOnly s u :=
  ⟨k.fsa.trans h.fsa, k.fsb.trans h.fsb, k.msLow.trans h.msLow, k.msHigh.trans h.msHigh, k.banks.trans h.banks⟩

theorem Untouched.feedOnly {ps : List Part} {s t : State} (h : Untouched ps s t) (hp : Part.pwr ∉ ps := by decide)
    (hd : Part.dio ∉ ps := by decide) : FeedOnly s t := by
  have h1 := h.same .pwr hp
  have h2 := h.same .dio hd
  simp only [Part.same] at h1 h2
  exact ⟨by rw [h1], by rw [h1], by rw [h1], by rw [h1], by unfold banksOff getBank; rw [h2]⟩

theorem aioFeed_feedOnly (s : State) : FeedOnly s (aioFeed s) := by
  unfold aioFeed
  split
  · exact .trans (t := { s with pwr := { s.pwr with aioFed := false } }) ⟨rfl, rfl, rfl, rfl, rfl⟩
      (aioSupplyLost_frame _).feedOnly
  · exact .refl s

theorem aioFeedBack_feedOnly (x : Supply) (mv : Nat) (s : State) : FeedOnly s (aioFeedBack x mv s) := by
  unfold aioFeedBack
  split
  · exact .trans (t := { s with pwr := { s.pwr with aioFed := true } }) ⟨rfl, rfl, rfl, rfl, rfl⟩
      (aioSupplyBack_frame _).feedOnly
  · exact .refl s

/-- MS is out of its range by what is measured now (14 R351). -/
theorem msChange_leaves (low high : Bool) (s : State) :
    (msChange low high s).pwr.msOffLow = low ∧ (msChange low high s).pwr.msOffHigh = high := by
  have lost (x : State) : (driveSupplyLost x).pwr = x.pwr := (driveSupplyLost_frame x).same .pwr (by decide)
  have back (x : State) : (driveSupplyBack x).pwr = x.pwr := (driveSupplyBack_frame x).same .pwr (by decide)
  simp only [msChange, apply_ite State.pwr, lost, back, ite_self, and_self]

/-- The record of a supply and its banks leave the module's own supply bits. -/
theorem banksLost_pwr (first n mv : Nat) (x : Supply) (s : State) : (banksLost first (supplyRecord n x mv s)).pwr = s.pwr :=
  ((banksLost_frame ..).same .pwr (by decide)).trans ((supplyRecord_frame ..).same .pwr (by decide))

theorem banksBack_pwr (first n mv : Nat) (x : Supply) (s : State) : (banksBack first (supplyRecord n x mv s)).pwr = s.pwr :=
  ((banksBack_frame ..).same .pwr (by decide)).trans ((supplyRecord_frame ..).same .pwr (by decide))

theorem supplyLatch_fsa {mv : Nat} {s : State} (h : s.pwr.fsaOff = false) (hm : mv < 16000) :
    (supplyLatch .fsa mv s).pwr.fsaOff = true ∧ ∀ b, b < 4 → banksOff (supplyLatch .fsa mv s) b = true := by
  simp only [supplyLatch, h, Bool.false_or, decide_eq_true_eq, Nat.not_le.2 hm, if_false]
  have hl (y : State) := (limitSupplyLost_frame y).feedOnly
  exact ⟨by rw [(hl _).fsa, banksLost_pwr], fun b hb => by rw [(hl _).banks, banksLost_off _ (Nat.zero_le b) (by omega)]⟩

theorem supplyLatch_fsb {mv : Nat} {s : State} (h : s.pwr.fsbOff = false) (hm : mv < 16000) :
    (supplyLatch .fsb mv s).pwr.fsbOff = true ∧ ∀ b, 4 ≤ b → b < 8 → banksOff (supplyLatch .fsb mv s) b = true := by
  simp only [supplyLatch, h, Bool.false_or, decide_eq_true_eq, Nat.not_le.2 hm, if_false]
  have hl (y : State) := (stagesOff_frame y).feedOnly
  exact ⟨by rw [(hl _).fsb, banksLost_pwr], fun b h4 h8 => by rw [(hl _).banks, banksLost_off _ h4 h8]⟩

theorem supplyUnlatch_fsa {mv : Nat} {s : State} (h : s.pwr.fsaOff = true) (hm : 18000 < mv) :
    (supplyUnlatch .fsa mv s).pwr.fsaOff = false ∧ ∀ b, b < 4 → banksOff (supplyUnlatch .fsa mv s) b = false := by
  simp only [supplyUnlatch, h, Bool.not_true, Bool.false_or, decide_eq_true_eq, Nat.not_le.2 hm, if_false]
  exact ⟨by rw [banksBack_pwr], fun b hb => banksBack_off _ (Nat.zero_le b) (by omega)⟩

theorem supplyUnlatch_fsb {mv : Nat} {s : State} (h : s.pwr.fsbOff = true) (hm : 18000 < mv) :
    (supplyUnlatch .fsb mv s).pwr.fsbOff = false ∧ ∀ b, 4 ≤ b → b < 8 → banksOff (supplyUnlatch .fsb mv s) b = false := by
  simp only [supplyUnlatch, h, Bool.not_true, Bool.false_or, decide_eq_true_eq, Nat.not_le.2 hm, if_false]
  exact ⟨by rw [banksBack_pwr], fun b h4 h8 => banksBack_off _ h4 h8⟩

theorem supplyLatch_msLow {mv : Nat} {s : State} (h : s.pwr.msOffLow = false) (hm : mv < 16000) :
    (supplyLatch .msLow mv s).pwr.msOffLow = true := by
  simp only [supplyLatch, h, Bool.false_or, decide_eq_true_eq, Nat.not_le.2 hm, if_false, msChange_leaves]

theorem supplyLatch_msHigh {mv : Nat} {s : State} (h : s.pwr.msOffHigh = false) (hm : 55000 < mv) :
    (supplyLatch .msHigh mv s).pwr.msOffHigh = true := by
  simp only [supplyLatch, h, Bool.false_or, decide_eq_true_eq, Nat.not_le.2 hm, if_false, msChange_leaves]

theorem supplyUnlatch_msLow {mv : Nat} {s : State} (h : s.pwr.msOffLow = true) (hm : 18000 < mv) :
    (supplyUnlatch .msLow mv s).pwr.msOffLow = false := by
  simp only [supplyUnlatch, h, Bool.not_true, Bool.false_or, decide_eq_true_eq, Nat.not_le.2 hm, if_false, msChange_leaves]

theorem supplyUnlatch_msHigh {mv : Nat} {s : State} (h : s.pwr.msOffHigh = true) (hm : mv < 53000) :
    (supplyUnlatch .msHigh mv s).pwr.msOffHigh = false := by
  simp only [supplyUnlatch, h, Bool.not_true, Bool.false_or, decide_eq_true_eq, Nat.not_le.2 hm, if_false, msChange_leaves]

/-- SUPPLY_OFF leaves what the supply's own latch does (R51). -/
theorem supplyOffState_feedOnly (x : Supply) (mv : Nat) (s : State) :
    FeedOnly (supplyLatch x mv (noteMv x mv s)) (supplyOffState x mv s) := aioFeed_feedOnly _

theorem supplyRecoveryState_feedOnly (x : Supply) (mv : Nat) (s : State) :
    FeedOnly (supplyUnlatch x mv (noteMv x mv s)) (supplyRecoveryState x mv s) := aioFeedBack_feedOnly ..

/-! ### Fuses, warnings and the relay (R49, R51, R67) -/

theorem fuseTripState_t1 {mv : Nat} {s : State} (hu : up s = true) (h : s.pwr.t1Fuse = false) :
    fuseTripState .t1 mv s = emit 0x0300 0xC011 (leBytes 2 mv ++ leBytes 2 (sat 16 (s.pwr.tripsT1 + 1)))
      { s with pwr := { s.pwr with t1Fuse := true, tripsT1 := sat 16 (s.pwr.tripsT1 + 1), fuseAtT1 := s.now } } := by
  simp only [fuseTripState, hu, h, Bool.not_true, Bool.or_self, Bool.false_eq_true, if_false, portSource]

theorem fuseTripState_t2 {mv : Nat} {s : State} (hu : up s = true) (h : s.pwr.t2Fuse = false) :
    fuseTripState .t2 mv s = emit 0x0300 0xC012 (leBytes 2 mv ++ leBytes 2 (sat 16 (s.pwr.tripsT2 + 1)))
      { s with pwr := { s.pwr with t2Fuse := true, tripsT2 := sat 16 (s.pwr.tripsT2 + 1), fuseAtT2 := s.now } } := by
  simp only [fuseTripState, hu, h, Bool.not_true, Bool.or_self, Bool.false_eq_true, if_false, portSource]

/-- A measurement leaves the warnings and the phase. -/
theorem noteMv_keeps (x : Supply) (mv : Nat) (s : State) :
    warned (noteMv x mv s).pwr x = warned s.pwr x ∧ up (noteMv x mv s) = up s := by
  cases x <;> exact ⟨rfl, rfl⟩

theorem up_setWarned (b : Bool) (x : Supply) (s : State) : up { s with pwr := setWarned b s.pwr x } = up s := by
  cases x <;> rfl

theorem supplyWarningState_warns {x : Supply} {mv : Nat} {s : State} (hu : up s = true) (h : warns x mv = true)
    (hn : warned s.pwr x = false) : supplyWarningState x mv s = emit (0x0400 + warnBit x) (supplySource x) (leBytes 2 mv)
      { noteMv x mv s with pwr := setWarned true (noteMv x mv s).pwr x } := by
  obtain ⟨hw, hup⟩ := noteMv_keeps x mv s
  simp only [supplyWarningState, h, hw, hn, Bool.not_false, Bool.and_self, if_true, supplyRecord, up_setWarned, hup, hu]

theorem supplyWarningClearState_clears {x : Supply} {mv : Nat} {s : State} (hu : up s = true) (h : unwarns x mv = true)
    (hn : warned s.pwr x = true) : supplyWarningClearState x mv s =
      emit (0x0480 + warnBit x) (supplySource x) (leBytes 2 mv)
        { noteMv x mv s with pwr := setWarned false (noteMv x mv s).pwr x } := by
  obtain ⟨hw, hup⟩ := noteMv_keeps x mv s
  have hcode : 0x0400 + (warnBit x + 0x80) = 0x0480 + warnBit x := by omega
  simp only [supplyWarningClearState, h, hw, hn, Bool.and_self, if_true, supplyRecord, up_setWarned, hup, hu, hcode]

theorem execFuseReclose_t1 {t : Nat} {s : State} (h : s.pwr.t1Fuse = true) (ht : s.pwr.fuseAtT1 + secNs ≤ (advance t s).now) :
    exec (.fuseReclose t .t1) s =
      .next { advance t s with pwr := { (advance t s).pwr with t1Fuse := false } } :=
  congrArg Host.Outcome.next (if_pos (by simp only [advance_fields, h, Bool.true_and, decide_eq_true_eq]; exact ht))

theorem execFuseReclose_t2 {t : Nat} {s : State} (h : s.pwr.t2Fuse = true) (ht : s.pwr.fuseAtT2 + secNs ≤ (advance t s).now) :
    exec (.fuseReclose t .t2) s =
      .next { advance t s with pwr := { (advance t s).pwr with t2Fuse := false } } :=
  congrArg Host.Outcome.next (if_pos (by simp only [advance_fields, h, Bool.true_and, decide_eq_true_eq]; exact ht))

theorem relayClose_open {s : State} (h : s.pwr.relayOpen = true) : relayClose s = { s with pwr := { s.pwr with
    relayOpen := false, transitions := (s.pwr.transitions + 1) % 2 ^ 32, closedAt := some s.now } } := if_pos h

/-- The relay opens in a module whose NET is on, once it has rested (R67). -/
theorem execBypassRelayOpen_due {t : Nat} {s : State} (hu : up s = true) (hd : domainOn s 7 = true)
    (ho : s.pwr.relayOpen = false) (hr : relayRested (advance t s) = true) :
    exec (.bypassRelayOpen t) s = .next { advance t s with pwr := { (advance t s).pwr with
      relayOpen := true, transitions := ((advance t s).pwr.transitions + 1) % 2 ^ 32 } } :=
  congrArg Host.Outcome.next (if_pos (by
    simp only [up_advance, hu, domainOn_advance, hd, advance_fields, ho, hr, Bool.not_false, Bool.and_self]))

/-- Settles O27, supply by supply. -/
theorem suppliesWarnFailAndRecover : Obligations.SuppliesWarnFailAndRecover := by
  intro t s hu v
  subst v
  have off (x : Supply) (mv : Nat) := supplyOffState_feedOnly x mv (advance t s)
  have back (x : Supply) (mv : Nat) := supplyRecoveryState_feedOnly x mv (advance t s)
  refine ⟨fun mv h => congrArg Host.Outcome.next (fuseTripState_t1 hu h),
    fun mv h => congrArg Host.Outcome.next (fuseTripState_t2 hu h), execFuseReclose_t1, execFuseReclose_t2,
    fun x mv => ⟨fun h hn => congrArg Host.Outcome.next (supplyWarningState_warns hu h hn),
      fun h hn => congrArg Host.Outcome.next (supplyWarningClearState_clears hu h hn)⟩,
    fun mv => ⟨rfl, rfl⟩, fun mv hm => ⟨fun h => ⟨_, rfl, ?_⟩, fun h => ⟨_, rfl, ?_⟩, fun h => ⟨_, rfl, ?_⟩⟩,
    fun mv hm h => ⟨_, rfl, ?_⟩, fun mv hm => ⟨fun h => ⟨_, rfl, ?_⟩, fun h => ⟨_, rfl, ?_⟩, fun h => ⟨_, rfl, ?_⟩⟩,
    fun mv hm h => ⟨_, rfl, ?_⟩, fun h => congrArg Host.Outcome.next (relayClose_open h),
    fun hd ho hr => execBypassRelayOpen_due hu hd ho hr⟩
  · obtain ⟨hf, hb⟩ := supplyLatch_fsa (s := noteMv .fsa mv (advance t s)) h hm
    exact ⟨(off .fsa mv).fsa.trans hf, fun b k => (congrFun (off .fsa mv).banks b).trans (hb b k)⟩
  · obtain ⟨hf, hb⟩ := supplyLatch_fsb (s := noteMv .fsb mv (advance t s)) h hm
    exact ⟨(off .fsb mv).fsb.trans hf, fun b k l => (congrFun (off .fsb mv).banks b).trans (hb b k l)⟩
  · exact (off .msLow mv).msLow.trans (supplyLatch_msLow h hm)
  · exact (off .msHigh mv).msHigh.trans (supplyLatch_msHigh h hm)
  · obtain ⟨hf, hb⟩ := supplyUnlatch_fsa (s := noteMv .fsa mv (advance t s)) h hm
    exact ⟨(back .fsa mv).fsa.trans hf, fun b k => (congrFun (back .fsa mv).banks b).trans (hb b k)⟩
  · obtain ⟨hf, hb⟩ := supplyUnlatch_fsb (s := noteMv .fsb mv (advance t s)) h hm
    exact ⟨(back .fsb mv).fsb.trans hf, fun b k l => (congrFun (back .fsb mv).banks b).trans (hb b k l)⟩
  · exact (back .msLow mv).msLow.trans (supplyUnlatch_msLow h hm)
  · exact (back .msHigh mv).msHigh.trans (supplyUnlatch_msHigh h hm)

end Sys2Proof.Machine
end

section
/-! SUPPORT. The management processor's samples, the humidity limit, the counters' mirror and the flash of direct values
(17 R424; 02 R45; 03 R57; 04 R462). -/

namespace Sys2Proof.Machine

/-! ### A sample of the sensors (17 R424) -/

/-- What a sample keeps of the temperatures: the readings, OVERTEMP of die and inlet, and the run current allowed. -/
def tempView (s : State) : Readings × Bool × Bool × Nat :=
  (s.mgmt.readings, s.mgmt.dieHot, s.mgmt.inletHot, s.mot.derate)

@[simp] theorem tempView_emit (c src : Nat) (d : List Byte) (s : State) : tempView (emit c src d s) = tempView s := by
  simp only [tempView, emit_fields]

@[simp] theorem tempView_condRecord (was is : Bool) (c src : Nat) (d : List Byte) (s : State) :
    tempView (condRecord was is c src d s) = tempView s := by
  simp only [condRecord, apply_ite tempView, tempView_emit, ite_self]

/-- The free value of the derating beyond the last row of Table 2.15 (log entry 7). -/
def derateFree (s : State) : Nat := if 700 < s.mgmt.readings.temps.getD 0 0 then (draw s).1 else 0

theorem tempView_takeTemps (s : State) : tempView (takeTemps s) =
    let t := fun i => s.mgmt.readings.temps.getD i 0
    (s.mgmt.readings, decide (1100 < t 1), decide (700 < t 0), derateAt (t 0) (derateFree s)) := by
  simp only [takeTemps, tempView_condRecord, derateFree]
  split <;> rfl

@[simp] theorem tempView_takeRail (r mv : Nat) (s : State) : tempView (takeRail r mv s) = tempView s := by
  have rails (m : Tbl (Nat × Bool)) : tempView { s with mgmt := { s.mgmt with railsOut := m } } = tempView s := rfl
  unfold takeRail
  dsimp only
  split
  · exact rails _
  · split
    · exact (tempView_emit ..).trans (rails _)
    · rfl
  · exact (tempView_emit ..).trans (rails _)
  · exact rails _
  · rfl

@[simp] theorem tempView_takeHumidity (h : Nat) (s : State) : tempView (takeHumidity h s) = tempView s := by
  unfold takeHumidity
  dsimp only
  split
  · rfl
  · split
    · exact tempView_emit ..
    · rfl

@[simp] theorem tempView_takeShock (peaks : List Nat) (s : State) : tempView (takeShock peaks s) = tempView s := by
  unfold takeShock
  dsimp only
  split
  · exact tempView_emit ..
  · rfl

@[simp] theorem tempView_takeSupercap (mv : Nat) (s : State) : tempView (takeSupercap mv s) = tempView s := by
  simp only [takeSupercap, apply_ite tempView, tempView_emit, ite_self]
  rfl

/-- The supercapacitor's state turns low below 2.4 V and back above 2.6 V (03 R57). -/
theorem takeSupercap_leaves (mv : Nat) (s : State) :
    (takeSupercap mv s).pwr.supercap = mv ∧ (mv < 2400 → (takeSupercap mv s).pwr.supercapLow = true) ∧
      (2600 < mv → (takeSupercap mv s).pwr.supercapLow = false) := by
  simp only [takeSupercap, apply_ite State.pwr, emit_fields, ite_self, true_and]
  exact ⟨fun h => if_pos h, fun h => by rw [if_neg (by omega), if_pos h]⟩

/-- What a sample of a running module leaves of the temperatures. -/
theorem tempView_sensorSampleState {raw : Readings} {s : State} (hu : up s = true) :
    ∃ free, tempView (sensorSampleState raw s) =
      let t := fun i => (correctAll raw).temps.getD i 0
      (correctAll raw, decide (1100 < t 1), decide (700 < t 0), derateAt (t 0) free) := by
  have rails (f : Nat → Nat) (x : State) :
      tempView (forAll (List.range 18) (fun i s => takeRail i (f i) s) x) = tempView x :=
    forAll_induct (P := fun y => tempView y = tempView x) _ _ (fun i y h => (tempView_takeRail ..).trans h) x rfl
  refine ⟨derateFree { s with mgmt := { s.mgmt with readings := correctAll raw } }, ?_⟩
  simp only [sensorSampleState, hu, Bool.not_true, Bool.false_eq_true, if_false, tempView_takeSupercap, tempView_takeShock,
    tempView_takeHumidity, rails, tempView_takeTemps]

/-- Up to the last row of Table 2.15 the run current needs no free value. -/
theorem derateAt_table {tenths : Int} (h : tenths ≤ 700) (free : Nat) : derateAt tenths free = derateAt tenths 0 := by
  simp only [derateAt, if_pos h]

theorem sensorSampleState_supercap {raw : Readings} {s : State} (hu : up s = true) :
    ∃ x, sensorSampleState raw s = takeSupercap (correctAll raw).supercap x :=
  ⟨_, if_neg (by simp [hu])⟩

/-! ### Counters and direct values (03 R57; 04 R462) -/

/-- A table written at several keys holds at each of them what was written there. -/
theorem find_insertAll {α β : Type} (g : Nat → α) (l : List (Nat × β)) (m : Tbl α) (k : Nat) :
    Tbl.find (l.foldl (fun f e => Tbl.insert f e.1 (g e.1)) m) k =
      if l.any (fun e => e.1 == k) then some (g k) else Tbl.find m k := by
  induction l generalizing m with
  | nil => rfl
  | cons e r ih =>
    rw [List.foldl_cons, ih, List.any_cons, Tbl.find_insert]
    by_cases hr : r.any (fun e => e.1 == k)
    · simp [hr]
    · by_cases he : e.1 = k
      · simp [hr, he]
      · simp [hr, he, Ne.symm he]

/-- Nothing stays owed to flash, and each key that was owed holds its value (04 R462). -/
theorem writeFlashDue_leaves (s : State) : (writeFlashDue s).sess.flashDue = [] ∧
    ∀ k, s.sess.flashDue.any (fun e => e.1 == k) = true →
      Tbl.find (writeFlashDue s).sess.flashDirect k = some (flashValue s k) :=
  ⟨rfl, fun k hk => (find_insertAll (flashValue s) s.sess.flashDue s.sess.flashDirect k).trans (if_pos hk)⟩

theorem humidityState_due {t0 : Nat} {s : State} (hu : up s = true) (hs : s.mgmt.humidSince = some t0)
    (hd : s.mgmt.humidDone = false) (ht : t0 + 60 * secNs ≤ s.now) :
    humidityState s = emit 0xB301 0xD040 (leBytes 2 s.mgmt.readings.humidity)
      { s with mgmt := { s.mgmt with humidDone := true } } := by
  have hc : (up s && !s.mgmt.humidDone && decide (t0 + 60 * secNs ≤ s.now)) = true := by
    simp only [hu, hd, Bool.not_false, Bool.and_self, Bool.true_and, decide_eq_true_eq]
    exact ht
  simp only [humidityState, hs]
  exact if_pos hc

/-- Settles O28, row by row. -/
theorem managementKeepsReadingsAndCounters : Obligations.ManagementKeepsReadingsAndCounters := by
  intro t s hu v
  subst v
  refine ⟨fun raw => ?_, fun t0 hs hd ht => congrArg Host.Outcome.next (humidityState_due (s := advance t s) hu hs hd ht),
    congrArg Host.Outcome.next (if_pos hu), ⟨writeFlashDue (advance t s), congrArg Host.Outcome.next (if_pos hu),
      writeFlashDue_leaves _⟩⟩
  obtain ⟨free, hview⟩ := tempView_sensorSampleState (raw := raw) (s := advance t s) hu
  obtain ⟨x, hx⟩ := sensorSampleState_supercap (raw := raw) (s := advance t s) hu
  obtain ⟨hmv, hlow, hhigh⟩ := takeSupercap_leaves (correctAll raw).supercap x
  rw [← hx] at hmv hlow hhigh
  simp only [tempView, Prod.mk.injEq] at hview
  obtain ⟨hread, hdie, hinlet, hderate⟩ := hview
  exact ⟨sensorSampleState raw (advance t s), rfl, hread, hmv, hlow, hhigh,
    fun ht => hderate.trans (derateAt_table ht free), hdie, hinlet⟩

end Sys2Proof.Machine
end

section
/-! SUPPORT. Sessions open, authenticate, serve and end: OPEN, AUTH, the session services and the timeouts of the sessions
part (04 R78 to R90; 17 R427). -/

namespace Sys2Proof.Machine

/-- A session's update counts only for the session as it stands. -/
theorem modSession_congr {n : Nat} {f g : Session → Session} {s : State} (h : f (getSession s n) = g (getSession s n)) :
    modSession n f s = modSession n g s := by
  unfold getSession at h
  simp only [modSession, Tbl.modify, h]

/-! ### OPEN (R78 to R80) -/

/-- `SESSION_PATH` of a path (Table 4.7). -/
def pathNumber : Path → Nat
  | .ring => 1
  | .svc => 2

/-- The session an OPEN would make, its module nonce not yet drawn. -/
def openedSession (s : State) (path : Path) (peer slot role state : Nat) (nonce : List Byte) : Session :=
  { state := state, role := role, slot := slot, path := pathNumber path, peer := peer, nonceH := nonce
    openedAt := s.now, lastValid := s.now }

theorem openCheck_observer {s : State} {path : Path} {peer : Nat} {nonce : List Byte} (hn : nonce.length = 16)
    (ho : cfgBool s 0x1000 8 = true) :
    openCheck s path peer 0xFF roleObserver nonce = .ok (openedSession s path peer 0xFF roleObserver 2 nonce) := by
  cases path <;> simp [openCheck, openedSession, pathNumber, hn, ho]

theorem openCheck_slot {s : State} {path : Path} {peer k role : Nat} {nonce : List Byte} (hn : nonce.length = 16)
    (hk : k < 16) (h1 : 1 ≤ role) (h5 : role ≤ 5) (hl : slotLocked s k = false) (hkey : (getSlot s k).key.isSome = true)
    (hr : bitOf (cfgNat s (0x1200 + k) 1) role = true)
    (hp : bitOf (cfgNat s (0x1200 + k) 2) (pathNumber path - 1) = true) :
    openCheck s path peer k role nonce = .ok (openedSession s path peer k role 1 nonce) := by
  have hslot : k ≠ 0xFF := by omega
  have hk' : ¬ 16 ≤ k := by omega
  have hrole : ¬ (role < 1 ∨ 5 < role) := by omega
  have hkey' : (getSlot s k).key.isNone = false := by rw [← Option.not_isSome, hkey]; rfl
  cases path <;>
    simp only [openCheck, openedSession, hn, hslot, hk', hrole, hl, hkey', hr, ne_eq, not_true_eq_false, if_false,
      Bool.false_eq_true, Bool.not_true] <;>
    exact if_neg (by simpa [pathNumber] using hp)

/-- An OPEN that passes its checks takes the lowest free number and draws the module's nonce. -/
theorem openReqState_opens {t : Nat} {path : Path} {peer slot role n : Nat} {nonce : List Byte} {s : State} {ses : Session}
    (ha : answers (advance t s) path = true) (hf : s.sess.force = none) (hfree : freeSession (found t s) = some n)
    (hc : openCheck (found t s) path peer slot role nonce = .ok ses) :
    openReqState path peer slot role nonce (advance t s) =
      send (bareReply path peer n svcOpen (.ok (leBytes 16 (Config.free (found t s).freeN) ++ leBytes 4 serialNumber)))
        (modSession n (fun _ => { ses with nonceM := leBytes 16 (Config.free (found t s).freeN) })
          { found t s with freeN := (found t s).freeN + 1 }) := by
  have hv : closeDue (advance t s) = found t s := rfl
  have hf' : (advance t s).sess.force.isSome = false := by simp [hf]
  simp only [openReqState, ha, hf', hv, hc, hfree, Bool.not_true, Bool.false_eq_true, if_false]
  rfl

/-- Settles O7: the checks of the OPEN pass, for an Observer and for a slot with a key. -/
theorem openCreatesASession : Obligations.OpenCreatesASession := by
  intro t path peer n nonce s ha hf hn hfree v pathNo nonceM ses next
  have hpath : pathNo = pathNumber path := by cases path <;> rfl
  refine ⟨fun ho => ?_, fun k role hk h1 h5 hl hkey hr hp => ?_⟩
  · refine congrArg Host.Outcome.next ((openReqState_opens ha hf hfree (openCheck_observer hn ho)).trans ?_)
    simp only [next, ses, hpath, openedSession, nonceM, v]
  · rw [hpath] at hp
    refine congrArg Host.Outcome.next ((openReqState_opens ha hf hfree (openCheck_slot hn hk h1 h5 hl hkey hr hp)).trans ?_)
    simp only [next, ses, hpath, openedSession, nonceM, v]

/-! ### AUTH (R80, R81) -/

/-- A failed authentication leaves the session closed with its cause. -/
theorem authFailed_session (n : Nat) (ses : Session) (path : Path) (peer : Nat) (s : State) :
    getSession (authFailed n ses path peer s) n = { closeCause := 3 } := by
  have hc : Tbl.get (closeSession n 3 s).sess.sessions {} n = { closeCause := 3 } := closeSession_get n 3 s
  simp only [authFailed, getSession, send_fields]
  split <;> simpa only [emit_fields, modSlot] using hc

/-- An AUTH of a session in OPENING. -/
theorem authState_opening {t : Nat} {path : Path} {peer n : Nat} {proof : List Byte} {s : State}
    (ha : answers (advance t s) path = true) (hf : s.sess.force = none) (hn : n < 8)
    (hs : (getSession (found t s) n).state = 1) :
    authState path peer n proof (advance t s) =
      if proof = hostProof (sessionKey (found t s) (getSession (found t s) n)) (getSession (found t s) n) then
        send (bareReply path peer n svcAuth (.ok (moduleProof (sessionKey (found t s) (getSession (found t s) n))
            (getSession (found t s) n))))
          (modSession n (fun x => { x with
            state := 2, tagged := true
            ks := derivedKey (sessionKey (found t s) (getSession (found t s) n)) (getSession (found t s) n)
            lastValid := (found t s).now }) (found t s))
      else authFailed n (getSession (found t s) n) path peer (found t s) := by
  have hv : closeDue (advance t s) = found t s := rfl
  have hf' : (advance t s).sess.force.isSome = false := by simp [hf]
  simp only [authState, ha, hf', hv, hn, hs, Bool.not_true, Bool.false_eq_true, if_false, decide_true, ne_eq,
    not_true_eq_false, decide_false, Bool.or_self]

/-- Settles O8, by the two ends of an AUTH. -/
theorem authActivatesOrCloses : Obligations.AuthActivatesOrCloses := by
  intro t path peer n proof s ha hf hn hs v ses k
  have hauth := authState_opening (peer := peer) (proof := proof) ha hf hn hs
  refine ⟨fun hp => ?_, fun hp => ⟨authFailed n ses path peer v, ?_, authFailed_session ..⟩⟩
  · exact congrArg Host.Outcome.next (hauth.trans (if_pos hp))
  · exact congrArg Host.Outcome.next (hauth.trans (if_neg hp))

/-! ### KEEPALIVE, CLOSE, TXN_BEGIN and TXN_ABORT (R78, R88, R89) -/

/-- A request being taken leaves the session's role, transaction and kind. -/
theorem taken_session (s : State) (n : Nat) : getSession (taken s n) n = { getSession s n with lastValid := s.now } := by
  simp [taken]

theorem enrolRefused_taken {s : State} {n : Nat} (h : (getSession s n).enrol = false) : enrolRefused (taken s n) n = none := by
  simp [enrolRefused, taken_session, h]

theorem txnRefused_taken {s : State} {n : Nat} (h : (getSession s n).enrol = false)
    (hr : (getSession s n).role ≠ roleObserver) : txnRefused (taken s n) n = none := by
  simp [txnRefused, taken_session, h, hr]

/-- Settles O9, each service by the request it is. -/
theorem sessionServicesComplete : Obligations.SessionServicesComplete := by
  intro t h s he v w
  have hw := enrolRefused_taken he
  refine ⟨fun k => ?_, fun k => ?_, fun k hr hx => ?_, fun k hr hx => ?_⟩
  · refine congrArg Host.Outcome.next ((request_heard _ t k).trans ?_)
    rw [hw]
  · refine congrArg Host.Outcome.next ((request_heard _ t k).trans ?_)
    rw [hw]
  · have hno : (getSession w h.session).txn.isSome = false := by simp [w, taken_session, v, hx]
    refine congrArg Host.Outcome.next ((request_heard _ t k).trans ?_)
    rw [txnRefused_taken he hr]
    simp only [w, v] at hno
    simp only [hno, Bool.false_eq_true, if_false]
    rfl
  · have hsome : (getSession w h.session).txn.isNone = false := by
      rw [← Option.not_isSome]; simp [w, taken_session, v, hx]
    refine congrArg Host.Outcome.next ((request_heard _ t k).trans ?_)
    rw [txnRefused_taken he hr]
    simp only [w, v] at hsome
    simp only [hsome, Bool.false_eq_true, if_false]
    rfl

/-! ### Timeouts (R78, R80, R86, R90; 17 R427) -/

/-- A session that is closed changes nothing beside the sessions part. -/
theorem closeSession_leaves (n c : Nat) (s : State) :
    getSession (closeSession n c s) n = { closeCause := c } ∧ Untouched [.sess] s (closeSession n c s) :=
  ⟨closeSession_get n c s, untouched_sess (closeSession_sess n c s)⟩

/-- The end of a lease that is listed takes the area's leases from the table. -/
theorem endLease_leases {l : Lease} {s : State} (hl : l ∈ s.sess.leases) :
    (endLease l.area s).sess.leases = s.sess.leases.filter (fun x => x.area != l.area) := by
  unfold endLease
  split
  next h => exact absurd (List.find?_eq_none.1 h l hl) (by simp)
  next => rfl

/-- Settles O10, row by row. -/
theorem timeoutsCloseAndUnlock : Obligations.TimeoutsCloseAndUnlock := by
  intro t s v
  refine ⟨fun n hs ht => ?_, fun n hs ht => ?_, fun k e hk he => ?_, fun l hl ht hkept => ?_,
    fun n x digest lapse hx hp ht => ?_, fun e hs he => ?_⟩
  · have due : (getSession v n).state = 2 ∧ sessionDue v n = true := by
      refine ⟨hs, ?_⟩
      simp only [sessionDue, Bool.or_eq_true, Bool.and_eq_true, beq_iff_eq, decide_eq_true_eq]
      exact .inr ⟨hs, ht⟩
    exact ⟨closeSession n 2 v, congrArg Host.Outcome.next (if_pos due), closeSession_leaves ..⟩
  · have due : (getSession v n).state = 1 ∧ sessionDue v n = true := by
      refine ⟨hs, ?_⟩
      simp only [sessionDue, Bool.or_eq_true, Bool.and_eq_true, beq_iff_eq, decide_eq_true_eq]
      exact .inl ⟨hs, ht⟩
    exact ⟨closeSession n 2 v, congrArg Host.Outcome.next (if_pos due), closeSession_leaves ..⟩
  · have hv : (getSlot v k).lockedUntil = some e := hk
    refine congrArg Host.Outcome.next (if_pos (c := ((getSlot v k).lockedUntil.isSome && !slotLocked v k) = true) ?_)
    simp [slotLocked, hv, he]
  · have due : v.sess.leases.any (fun x => x.area == l.area && !leaseHolds v x) = true := by
      refine List.any_eq_true.2 ⟨l, hl, ?_⟩
      have hv : v.sess.kept.contains (l.area, l.holder) = false := hkept
      simp only [leaseHolds, hv, Bool.or_false, beq_self_eq_true, Bool.true_and, Bool.not_eq_true',
        decide_eq_false_iff_not, Nat.not_lt]
      exact ht
    exact ⟨endLease l.area v, congrArg Host.Outcome.next (if_pos due), endLease_leases (s := v) hl,
      untouched_sess (endLease_sess ..)⟩
  · refine congrArg Host.Outcome.next (modSession_congr (s := v) ?_)
    have hv : (getSession v n).txn = some x := hx
    simp only [hv, hp]
    exact if_pos ht
  · refine congrArg Host.Outcome.next (if_neg (c := presenceOpen v = true) ?_)
    have hv : v.sess.presence = some e := hs
    simpa [presenceOpen, hv] using he

end Sys2Proof.Machine
end

section
/-! SUPPORT. Leases, the bulk buffer, and READ and WRITE of objects (04 R72 to R74, R84, R85, R88, R94, R462). -/

namespace Sys2Proof.Machine

/-! ### Entries written twice -/

theorem Tbl.insert_insert {α : Type} (m : Tbl α) (k : Nat) (v w : α) :
    Tbl.insert (Tbl.insert m k v) k w = Tbl.insert m k w := by
  induction m with
  | nil => simp [Tbl.insert]
  | cons e r ih =>
    obtain ⟨j, x⟩ := e
    simp only [Tbl.insert]
    split
    · simp [Tbl.insert]
    next h =>
      split
      · simp [Tbl.insert]
      next h' => simp only [Tbl.insert, if_neg h, if_neg h', ih]

theorem Tbl.put_put {α : Type} [DecidableEq α] (m : Tbl α) {d v w : α} (k : Nat) (hv : v ≠ d) (hw : w ≠ d) :
    Tbl.put (Tbl.put m d k v) d k w = Tbl.put m d k w := by
  simp only [Tbl.put, if_neg hv, if_neg hw, Tbl.insert_insert]

/-- A command answered at once is done with its result (Table 4.11). -/
theorem cmdNow_eq (c n : Nat) (result : List Byte) (s : State) : cmdNow c n result s = (.ok result, modCmd c (fun _ =>
    { status := 2, result := (result ++ List.replicate 16 0).take 16, invoker := n }) s) := by
  have h1 : ({ status := 1, result := [], invoker := n } : CmdObj) ≠ {} := by simp
  have h2 : ({ status := 2, result := (result ++ List.replicate 16 0).take 16, invoker := n } : CmdObj) ≠ {} := by simp
  simp only [cmdNow, cmdDone, cmdStart, modCmd, Tbl.modify, Tbl.get_put, if_true, Tbl.put_put _ c h1 h2]

/-! ### What an answer leaves -/

/-- An answer leaves the sessions part but for the session it goes to. -/
theorem respond_sess (s : State) (h : Hdr) (service : Nat) (a : Answer) (u : State) :
    (respond s h service a u).sess.leases = u.sess.leases ∧ (respond s h service a u).sess.bulk = u.sess.bulk ∧
      (respond s h service a u).sess.bulkLen = u.sess.bulkLen := by
  simp only [respond, answerOrWait]
  split
  · exact ⟨rfl, rfl, rfl⟩
  · simp only [answerDone, send_fields]
    split <;> exact ⟨rfl, rfl, rfl⟩

theorem respond_frame (s : State) (h : Hdr) (service : Nat) (a : Answer) (u : State) :
    Untouched [.sess, .outbox, .ring] u (respond s h service a u) :=
  (answerOrWait_frame ..).mono (by decide)

/-- A row's WRITE that is heard is answered as its operation answers. -/
theorem rowReq_answers {t idx sub : Nat} {c : Cmd} {fixed : List Byte} {act : List Byte → Nat → State → Answer × State}
    {a : Answer} {s w : State} (k : writeHeard (found t s) c idx sub fixed = true)
    (h : act (fixed ++ c.rest) c.hdr.session (served (found t s) c.hdr.session) = (a, w)) :
    rowReq c idx sub fixed act (advance t s) = respond (found t s) c.hdr svcWrite a w := by
  rw [rowReq_heard act t k, h]

/-- The WRITE of an object whose bytes all come with the command. -/
theorem rowReq_answers_whole {t idx sub : Nat} {c : Cmd} {act : List Byte → Nat → State → Answer × State}
    {a : Answer} {s w : State} (k : writeHeard (found t s) c idx sub [] = true)
    (h : act c.rest c.hdr.session (served (found t s) c.hdr.session) = (a, w)) :
    rowReq c idx sub [] act (advance t s) = respond (found t s) c.hdr svcWrite a w :=
  rowReq_answers k h

/-! ### LEASE (R85) -/

/-- The operation of a command is its first byte. -/
theorem fieldAt_first (op : Byte) (r : List Byte) : fieldAt (op :: r) 0 1 = op.toNat := by
  simp [fieldAt, leVal]

theorem leaseOp_acquires {data : List Byte} {n : Nat} {s : State} (ho : fieldAt data 0 1 = 1)
    (ha : areaMap.any (fun r => r.1 == fieldAt data 2 2) = true) (h1 : 1000 ≤ fieldAt data 4 4)
    (h2 : fieldAt data 4 4 ≤ 60000) (hfree : leaseOf s (fieldAt data 2 2) = none) (hroom : s.sess.leases.length < 16) :
    leaseOp data n s = cmdNow 8 n (leBytes 4 (fieldAt data 4 4)) { s with sess := { s.sess with
      leases := s.sess.leases ++ [⟨fieldAt data 2 2, n, s.now + fieldAt data 4 4 * msNs⟩] } } := by
  have hlong : ¬ 60000 < fieldAt data 4 4 := by omega
  have hshort : ¬ fieldAt data 4 4 < 1000 := by omega
  have hfull : ¬ 16 ≤ s.sess.leases.length := by omega
  simp [leaseOp, ho, ha, hlong, hshort, hfree, hfull]

theorem leaseOp_renews {data : List Byte} {n : Nat} {l : Lease} {s : State} (ho : fieldAt data 0 1 = 2)
    (ha : areaMap.any (fun r => r.1 == fieldAt data 2 2) = true) (h1 : 1000 ≤ fieldAt data 4 4)
    (h2 : fieldAt data 4 4 ≤ 60000) (hl : leaseOf s (fieldAt data 2 2) = some l) (hn : l.holder = n) :
    leaseOp data n s = cmdNow 8 n (leBytes 4 (fieldAt data 4 4)) { s with sess := { s.sess with
      leases := s.sess.leases.map (fun x => if x.area == fieldAt data 2 2 then
        { x with until_ := s.now + fieldAt data 4 4 * msNs } else x) } } := by
  have hlong : ¬ 60000 < fieldAt data 4 4 := by omega
  have hshort : ¬ fieldAt data 4 4 < 1000 := by omega
  simp [leaseOp, ho, ha, hlong, hshort, hl, hn]

theorem leaseOp_releases {data : List Byte} {n : Nat} {l : Lease} {s : State} (ho : fieldAt data 0 1 = 3)
    (ha : areaMap.any (fun r => r.1 == fieldAt data 2 2) = true) (hl : leaseOf s (fieldAt data 2 2) = some l)
    (hn : l.holder = n) : leaseOp data n s = cmdNow 8 n (leBytes 4 0) (endLease (fieldAt data 2 2) s) := by
  simp [leaseOp, ho, ha, hl, hn]

/-- A lease that holds is listed for its area. -/
theorem leaseOf_some {s : State} {a : Nat} {l : Lease} (h : leaseOf s a = some l) : l ∈ s.sess.leases ∧ l.area = a := by
  have hp := List.find?_some h
  simp only [Bool.and_eq_true, beq_iff_eq] at hp
  exact ⟨List.mem_of_find?_eq_some h, hp.1⟩

/-- An area whose leases are gone from the table has no lease. -/
theorem leaseOf_none {s : State} {a : Nat} {ls : List Lease} (h : s.sess.leases = ls.filter (fun x => x.area != a)) :
    leaseOf s a = none := by
  refine List.find?_eq_none.2 fun l hl => ?_
  rw [h, List.mem_filter, bne_iff_ne] at hl
  simp [hl.2]

/-- A lease released is gone, and the answer leaves it so. -/
theorem leaseRelease_leaves {s v : State} {h : Hdr} {l : Lease} (r : List Byte) (x : CmdObj) (hl : l ∈ v.sess.leases) :
    let u := respond s h svcWrite (.ok r) (modCmd 8 (fun _ => x) (endLease l.area v))
    leaseOf u l.area = none ∧ u.sess.leases = v.sess.leases.filter (fun y => y.area != l.area) ∧ getCmd u 8 = x ∧
      Untouched [.sess, .outbox, .ring] v u := by
  intro u
  have hleases : u.sess.leases = v.sess.leases.filter (fun y => y.area != l.area) :=
    (respond_sess ..).1.trans (endLease_leases hl)
  refine ⟨leaseOf_none hleases, hleases, ?_, ?_⟩
  · simp only [u, (respond_keeps ..).2, getCmd_modCmd, if_true]
  · exact (((untouched_sess (endLease_sess l.area v)).trans (modCmd_frame ..)).mono (by decide)).trans (respond_frame ..)

/-- Settles O11, by the three operations. -/
theorem leaseCommandsMoveTheLease : Obligations.LeaseCommandsMoveTheLease := by
  intro t c s n v a d done
  refine ⟨fun hw ha h1 h2 hfree hroom => ?_, fun l hw ha h1 h2 hl hn => ?_, fun l hw ha hl hn _ => ?_⟩
  · exact congrArg Host.Outcome.next (rowReq_answers hw
      ((leaseOp_acquires (fieldAt_first 1 _) ha h1 h2 hfree hroom).trans (cmdNow_eq ..)))
  · exact congrArg Host.Outcome.next (rowReq_answers hw
      ((leaseOp_renews (fieldAt_first 2 _) ha h1 h2 hl hn).trans (cmdNow_eq ..)))
  · obtain ⟨hmem, harea⟩ := leaseOf_some hl
    have hop := (leaseOp_releases (fieldAt_first 3 _) ha hl hn).trans (cmdNow_eq ..)
    rw [show fieldAt (3 :: c.rest) 2 2 = l.area from harea.symm] at hop
    rw [← harea]
    exact ⟨_, congrArg Host.Outcome.next (rowReq_answers hw hop), leaseRelease_leaves _ _ hmem⟩

/-! ### The bulk buffer (R94) -/

/-- A direct write that its own checks admit waits for the commit of its owner's next cycle (R74). -/
theorem deferred_ok {idx sub n : Nat} {op : List Byte → Nat → State → Answer × State} {data b : List Byte} {s : State}
    (h : (op data n s).1 = .ok b) : deferred idx sub op data n s = (.ok [], { s with sess := { s.sess with
      direct := s.sess.direct ++ [{ key := objKey idx sub, data := data, session := n }] } }) := by
  simp only [deferred, h]

theorem bulkLengthOp_waits (data : List Byte) (n : Nat) (s : State) :
    bulkLengthOp data n s = (.ok [], { s with sess := { s.sess with
      direct := s.sess.direct ++ [{ key := objKey 0xF000 2, data := data, session := n }] } }) :=
  deferred_ok (op := bulkLengthNow) (b := []) rfl

/-- The buffer's size in effect. -/
theorem directEffect_bulkLength (data : List Byte) (n : Nat) (s : State) :
    directEffect (objKey 0xF000 2) data n s = { s with sess := { s.sess with
      bulkLen := leVal data, bulk := [], passDue := objKey 0xF000 2 :: s.sess.passDue.filter (fun k => k != objKey 0xF000 2) } } := by
  simp only [directEffect, if_true, bulkLengthNow, passOn]

/-- A write by offset changes the bytes it covers and no other (R94). -/
theorem bulkData_leaves {s v : State} {h : Hdr} {a : Answer} (off : Nat) (bs : List Byte) (n : Nat) :
    let u := respond s h svcWrite a (bulkDataOp off bs n v).2
    u.sess.bulkLen = v.sess.bulkLen ∧ u.sess.leases = v.sess.leases ∧
      (∀ k, Memory.read u.sess.bulk k = if off ≤ k ∧ k < off + bs.length then bs.getD (k - off) 0
        else Memory.read v.sess.bulk k) ∧ Untouched [.sess, .outbox, .ring] v u := by
  intro u
  obtain ⟨hleases, hbulk, hlen⟩ := respond_sess s h svcWrite a (bulkDataOp off bs n v).2
  refine ⟨hlen, hleases, fun k => ?_, ?_⟩
  · exact (congrArg (Memory.read · k) hbulk).trans (Memory.read_writeN bs v.sess.bulk off k)
  · exact ((untouched_sess (v := v) rfl).mono (by decide)).trans (respond_frame ..)

/-- Settles O12, by the direct write that waits, its effect, and the bytes of a write by offset. -/
theorem bulkBufferIsWrittenByOffset : Obligations.BulkBufferIsWrittenByOffset := by
  intro t c s v
  refine ⟨?_, fun data n w => directEffect_bulkLength data n w, ?_⟩
  · intro hw w
    exact congrArg Host.Outcome.next (rowReq_answers_whole hw (bulkLengthOp_waits c.rest c.hdr.session v))
  · intro hw
    have hop : bulkDataOp c.off c.rest c.hdr.session v = (.ok [], (bulkDataOp c.off c.rest c.hdr.session v).2) := rfl
    exact ⟨_, congrArg Host.Outcome.next (rowReq_answers_whole hw hop), bulkData_leaves ..⟩

/-! ### READ (R72) -/

theorem execRead_heard {t : Nat} {h : Hdr} {idx sub ty off max : Nat} {r : ObjRow} {s : State}
    (hh : heard (found t s) h svcRead (objFields idx sub ty off max) = true)
    (hc : checkRead (taken (found t s) h.session) idx sub ty off max = .ok r) :
    let w := taken (found t s) h.session
    let data := readData w idx sub off max r
    exec (.read t h idx sub ty off max) s =
      .next (respond (found t s) h svcRead (.ok (objFields idx sub ty off data.length ++ data)) (scRead idx sub w)) := by
  intro w data
  refine congrArg Host.Outcome.next ((request_heard _ t hh).trans ?_)
  rw [readOp, hc]

/-! ### WRITE_OBJECT (R74, R88) -/

/-- A command object that restarts the module takes writes of its arguments alone (Table 4.11). -/
theorem objRow_restarting {idx sub : Nat} {r : ObjRow} (hi : idx = 0xF00A ∨ idx = 0xF00B) (hs : sub ≠ 1)
    (h : objRow idx sub = some r) : r.acc = .const ∨ r.acc = .ro := by
  have hf : ∃ f, familyOf idx = some f ∧ f.rows = commandRows 8 0xFFFFFFFFFFFFFF00 := by
    rcases hi with rfl | rfl <;> exact ⟨_, rfl, rfl⟩
  obtain ⟨f, hf, hrows⟩ := hf
  simp only [objRow, hf, hrows] at h
  split at h
  · exact .inl (congrArg ObjRow.acc (Option.some.inj h)).symm
  · rw [Option.ite_none_right_eq_some] at h
    obtain ⟨-, h⟩ := h
    have hmem := List.mem_of_find?_eq_some h
    have hp := List.find?_some h
    simp only [commandRows, List.mem_cons, List.not_mem_nil, or_false] at hmem
    rcases hmem with rfl | rfl | rfl | rfl
    · simp at hp
      omega
    all_goals exact .inr rfl

/-- An object that passes the checks of a WRITE is neither CONST nor RO (Table 4.16, step 6). -/
theorem checkWrite_row {s : State} {n idx sub ty off : Nat} {data : List Byte} {r : ObjRow}
    (h : checkWrite s n idx sub ty off data = .ok r) :
    ∃ r', objRow idx sub = some r' ∧ ¬ (r'.acc = .const ∨ r'.acc = .ro) := by
  unfold checkWrite findRow at h
  split at h
  next a ha => exact absurd h (by simp)
  next r' hr =>
    refine ⟨r', ?_, fun hacc => ?_⟩
    · revert hr
      split
      · split
        next hrow => exact fun e => hrow.trans (congrArg some (Except.ok.inj e))
        · simp
      · simp
    · simp only [hacc, if_true] at h
      split at h <;> exact absurd h (by simp)

/-- Only a WRITE of their arguments has the restarts of DOMAIN_RESET and PATCH_INSTALL after it. -/
theorem restartsAfter_staged {s w : State} {n idx sub ty off : Nat} {data : List Byte} {r : ObjRow}
    (hc : checkWrite s n idx sub ty off data = .ok r) (hd : alwaysDirect idx sub = false) : restartsAfter idx w = w := by
  obtain ⟨r', hrow, hacc⟩ := checkWrite_row hc
  have hidx : ¬ (idx = 0xF00A ∨ idx = 0xF00B) := fun hi => by
    by_cases hs : sub = 1
    · subst hs
      rcases hi with rfl | rfl <;> exact absurd hd (by decide)
    · exact hacc (objRow_restarting hi hs hrow)
  rw [restartsAfter, if_neg (fun e => hidx (.inl e)), if_neg (fun e => hidx (.inr e))]

/-- A WRITE_OBJECT is the WRITE of its row. -/
theorem execWriteObject_eq (t : Nat) (h : Hdr) (idx sub ty off : Nat) (data : List Byte) (s : State) :
    exec (.writeObject t h idx sub ty off data) s =
      .next (restartsAfter idx (writeReq h idx sub ty off data (objectOp idx sub off data) (found t s))) := rfl

/-- A heard WRITE inside the session's transaction joins the staged writes, and a preparation is undone. -/
theorem writeReq_staged {t : Nat} {h : Hdr} {idx sub ty off : Nat} {data : List Byte} {r : ObjRow} {x : Txn}
    {act : Nat → State → Answer × State} {s : State}
    (hh : heard (found t s) h svcWrite (objFields idx sub ty off data.length ++ data) = true)
    (hc : checkWrite (served (found t s) h.session) h.session idx sub ty off data = .ok r)
    (hd : alwaysDirect idx sub = false) (he : (getSession (served (found t s) h.session) h.session).enrol = false)
    (hx : (getSession (served (found t s) h.session) h.session).txn = some x)
    (hfull : stagingFull (served (found t s) h.session) h.session data.length = false) :
    writeReq h idx sub ty off data act (found t s) = respond (found t s) h svcWrite (.ok [])
      (modSession h.session (fun y =>
        { y with txn := some { x with writes := x.writes ++ [⟨objKey idx sub, off, data⟩], prepared := none } })
        (served (found t s) h.session)) := by
  have hv : pruneLeases (taken (found t s) h.session) = served (found t s) h.session := rfl
  have henrol : enrolWrite (getSession (served (found t s) h.session) h.session) idx sub = false := by
    simp [enrolWrite, he]
  simp only [writeReq, serve_heard _ hh, hv, hc, hd, henrol, hx, Option.isSome_some, Bool.not_false, Bool.and_self, if_true,
    stage, hfull, Bool.false_eq_true, if_false]
  refine congrArg (respond _ h svcWrite _) (modSession_congr ?_)
  simp only [hx]

/-- The bytes of a loop's set point and manual value wait for the next cycle (R74). -/
theorem objectOp_loop {n sub off m : Nat} {data : List Byte} {s : State} (hn : n < 1024) (hs : sub = 0x1B ∨ sub = 0x1C) :
    objectOp (0x4000 + n) sub off data m s = (.ok [], { s with sess := { s.sess with
      direct := s.sess.direct ++ [{ key := objKey (0x4000 + n) sub, data := data, session := m }] } }) := by
  have hloop : 0x4000 ≤ 0x4000 + n ∧ 0x4000 + n ≤ 0x43FF := by omega
  have hsub : sub ≠ 0x1A := by omega
  have hcmd (k : Nat) (hk : 0x4400 ≤ k) : ¬ 0x4000 + n = k := by omega
  have hlow (a b : Nat) (hb : b < 0x4000) : ¬ (a ≤ 0x4000 + n ∧ 0x4000 + n ≤ b) := by omega
  rw [objectOp]
  iterate 11 rw [if_neg (hcmd _ (by decide))]
  rw [directOp, if_neg (hcmd _ (by decide)), if_neg (fun e => hlow _ _ (by decide) ⟨e.1, e.2.1⟩),
    if_neg (fun e => hcmd _ (by decide) e.1), if_neg (by omega), if_neg (fun e => hsub e.2.2),
    if_neg (hlow _ _ (by decide)), if_neg (hlow _ _ (by decide)), if_pos hloop]
  exact deferred_ok (op := fun _ _ s => (.ok [], s)) (b := []) rfl

/-- A LOOP_MODE other than MANUAL waits for the next cycle (R74). -/
theorem loopModeOp_waits {n m : Nat} {data : List Byte} {s : State} (h : leVal data ≠ 2) :
    loopModeOp n data m s = (.ok [], { s with sess := { s.sess with
      direct := s.sess.direct ++ [{ key := objKey (0x4000 + n) 0x1A, data := data, session := m }] } }) := by
  refine deferred_ok (op := loopModeNow n) (b := []) ?_
  have h2 : (leVal data == 2) = false := beq_eq_false_iff_ne.2 h
  simp only [loopModeNow, h2, Bool.false_and, Bool.false_eq_true, if_false]

/-- A loop's set point or manual value in effect is owed to flash and the partner (R462). -/
theorem directEffect_loop {n sub m : Nat} {data : List Byte} {s : State} (hn : n < 1024) (hs : sub = 0x1B ∨ sub = 0x1C) :
    directEffect (objKey (0x4000 + n) sub) data m s = keepDirect (0x4000 + n) sub data s := by
  have hidx : objKey (0x4000 + n) sub / 256 = 0x4000 + n := by simp only [objKey]; omega
  have hsub : objKey (0x4000 + n) sub % 256 = sub := by simp only [objKey]; omega
  have hkey : objKey (0x4000 + n) sub ≠ objKey 0xF000 2 := by simp only [objKey]; omega
  simp only [directEffect, hkey, hidx, hsub, if_false]
  iterate 5 rw [if_neg (by omega)]

/-- Settles O14: a READ, the direct writes of a loop, their effect, and a staged write. -/
theorem readsAnswerAndWritesActOrStage : Obligations.ReadsAnswerAndWritesActOrStage := by
  refine ⟨?_, ?_, ?_, ?_, ?_⟩
  · intro t h idx sub ty off max r s v w hh hc
    exact execRead_heard hh hc
  · intro t h n sub ty off data s hs c v hw w
    have hop := objectOp_loop (off := off) (m := h.session) (data := data) (s := v) n.isLt hs
    have hrow := rowReq_answers_whole (c := c) hw hop
    have hafter (u : State) : restartsAfter (0x4000 + n) u = u := by
      rw [restartsAfter, if_neg (by omega), if_neg (by omega)]
    have hexec : exec (.writeObject t h (0x4000 + n) sub ty off data) s = .next (restartsAfter (0x4000 + n)
        (rowReq c (0x4000 + n) sub [] (objectOp (0x4000 + n) sub off) (advance t s))) := rfl
    rw [hexec, hafter, hrow]
  · intro t n c s v hw hm w
    have hop := loopModeOp_waits (n := n) (m := c.hdr.session) (s := v) hm
    exact congrArg Host.Outcome.next (rowReq_answers_whole hw hop)
  · intro n sub m data s hs key
    exact directEffect_loop n.isLt hs
  · intro t h idx sub ty off data r x s v hh hc hd he hx hfull
    rw [execWriteObject_eq, restartsAfter_staged hc hd, writeReq_staged hh hc hd he hx hfull]

end Sys2Proof.Machine
end

section
/-! SUPPORT. The state after reset, and MODE_SET with its four operations (04 R70, R87; 08 R189 to R192). -/

namespace Sys2Proof.Machine

/-! ### After reset (R70) -/

theorem trackers_reset (n : Fin 8) : trkMode State.reset n = 0 ∧ trkQuanta State.reset n = 16384 ∧
    cfgNat State.reset (0x3800 + n) 8 = 20 ∧ (getTracker State.reset n).state = .off := by
  revert n; decide

theorem synchroChecks_reset (i : Fin 2) : cfgNat State.reset (0x38C0 + i) 4 = 80 ∧
    cfgNat State.reset (0x38C0 + i) 3 = 0xFF ∧ (getSc State.reset i).state = .idle := by
  revert i; decide

/-- Settles O60: the fields as they stand in `State.reset`, and the defaults of Tables 6.11 to 6.14. -/
theorem resetLeavesWhatTheTablesGive : Obligations.ResetLeavesWhatTheTablesGive :=
  ⟨rfl, rfl, rfl, rfl, rfl, rfl, rfl, rfl, rfl, fun _ => rfl, rfl, rfl, by decide, trackers_reset, synchroChecks_reset,
    fun _ => ⟨rfl, rfl⟩⟩

/-! ### STOP leaves the wait for RUN as it was (08 R189) -/

theorem abandonAll_runDue (s : State) : (abandonAll s).prog.runDue = s.prog.runDue := by
  unfold abandonAll
  refine forAll_induct (P := fun x => x.prog.runDue = s.prog.runDue) _ _ (fun k x h => ?_) s rfl
  unfold abandonCycle
  split <;> exact h

theorem settleSwap_runDue (s : State) : (settleSwap s).prog.runDue = s.prog.runDue := by
  unfold settleSwap
  split <;> rfl

theorem swapNow_runDue (pause : Nat) (s : State) : (swapNow pause s).prog.runDue = s.prog.runDue := by
  unfold swapNow
  split
  · rfl
  · have change (t : State) : (changeOver t).prog = t.prog := (changeOver_frame t).same .prog (by decide)
    dsimp only
    rw [change]
    simp only [apply_ite State.prog, apply_ite Prog.runDue, cmdDone_fields, emit_fields, ite_self, settleSwap_runDue,
      swapIn, abandonAll_runDue, settleClock]

theorem enterStop_runDue (cause : Nat) (s : State) : (enterStop cause s).prog.runDue = s.prog.runDue := by
  have aborts (t : State) : (scAbortArmed t).prog = t.prog := (scAbortArmed_frame t).same .prog (by decide)
  have withdraws (t : State) : (canWithdraw t).prog = t.prog := (canWithdraw_frame t).same .prog (by decide)
  simp only [enterStop, apply_ite State.prog, apply_ite Prog.runDue, swapNow_runDue, aborts, withdraws, emit_fields,
    abandonAll_runDue, settleClock, ite_self]

/-! ### MODE_SET (Table 8.9) -/

/-- MODE_SET to STOP takes the module to STOP and is done. -/
theorem setStop_leaves (n : Nat) (s : State) :
    (setStop n s).1 = .ok [] ∧ (setStop n s).2.prog.mode = .stop ∧ (setStop n s).2.prog.runDue = false ∧
      (getCmd (setStop n s).2 1).status = 2 ∧ (s.prog.mode ≠ .stop → (setStop n s).2.prog.stopCause = 1) := by
  have hprog (x : State) : (if cmdRunning x 1 then cmdFail 1 (notInMode x 0x24) x else x).prog = x.prog := by
    split <;> rfl
  simp only [setStop, cmdDone_fields]
  refine ⟨trivial, enterStop_mode .., ?_, (cmdDone_get ..).1, fun hm => enterStop_stopCause ?_⟩
  · rw [enterStop_runDue]
    rfl
  · simpa only [cmdStart_fields, hprog] using hm

/-- MODE_SET to HOLD keeps HOLD until its time has passed (R191). -/
theorem setHold_leaves {dur n : Nat} {s : State} (hm : s.prog.mode = .run) :
    (setHold dur n s).1 = .ok [] ∧ (setHold dur n s).2.prog.mode = .hold ∧ (getCmd (setHold dur n s).2 1).status = 2 ∧
      (setHold dur n s).2.prog.holdUntil = s.now + (if dur = 0 then 60000 else dur) * msNs := by
  have aborts (t : State) : (scAbortArmed t).prog = t.prog := (scAbortArmed_frame t).same .prog (by decide)
  have hprog (x : State) : (enterHold (s.now + (if dur = 0 then 60000 else dur) * msNs) x).prog.mode = .hold ∧
      (enterHold (s.now + (if dur = 0 then 60000 else dur) * msNs) x).prog.holdUntil =
        s.now + (if dur = 0 then 60000 else dur) * msNs := by
    simp only [enterHold, aborts, emit_fields, and_self]
  simp only [setHold, hm, cmdDone_fields]
  exact ⟨trivial, (hprog _).1, (cmdDone_get ..).1, (hprog _).2⟩

/-- MODE_SET STEP releases a step cycle of the task, in HOLD (R192). -/
theorem setStep_leaves {k n : Nat} {s : State} (hm : s.prog.mode = .hold) (hu : taskUsed s k = true)
    (hc : (getTask s k).cycle = none) :
    (setStep k n s).1 = .ok [] ∧ ∃ cy, (getTask (setStep k n s).2 k).cycle = some cy ∧ cy.step = true ∧
      cy.pc = (taskDef s k).entry ∧ (setStep k n s).2.prog.mode = .hold ∧ (getCmd (setStep k n s).2 1).status = 2 := by
  have hidle : (getTask s k).cycle.isSome = false := by rw [hc]; rfl
  simp only [setStep, hm, hu, hidle, ne_eq, not_true_eq_false, if_false, Bool.not_true, Bool.false_eq_true]
  generalize hx : (if (taskDef (cmdStart 1 n s) k).kind = 1 then _ else cmdStart 1 n s) = x
  have hmode : x.prog.mode = .hold := by rw [← hx]; split <;> exact hm
  have hforme : x.prog.forme = s.prog.forme := by rw [← hx]; split <;> rfl
  refine ⟨trivial, newCycle x k x.prog.clock true, ?_, rfl, ?_, hmode, (cmdDone_get ..).1⟩
  · simp only [cmdDone, releaseTask, getTask, modCmd_fields]
    exact congrArg Task.cycle ((getTask_modTask ..).trans (if_pos rfl))
  · simp only [newCycle, taskDef, hforme]

/-- What MODE_SET does with arguments of Table 8.9, in a unit where it may run. -/
theorem modeSetOp_stop {data : List Byte} {n : Nat} {s : State} (hop : fieldAt data 0 1 = 0) (ha : modeArgs data = none)
    (hs : isStandby s = false) : modeSetOp data n s = setStop n s := by
  simp [modeSetOp, hop, ha, hs]

theorem modeSetOp_runs {op : Byte} {r : List Byte} {n : Nat} {s : State} (h0 : op ≠ 0) (ha : modeArgs (op :: r) = none)
    (hs : isStandby s = false) (hc : (getCmd s 1).status ≠ 1) (hp : s.pair.state ≠ .conflict) :
    modeSetOp (op :: r) n s =
      if op.toNat = 1 then setRun n s
      else if op.toNat = 2 then setHold (fieldAt (op :: r) 4 4) n s
      else setStep (fieldAt (op :: r) 1 1) n s := by
  have hop : op.toNat ≠ 0 := fun e => h0 (BitVec.eq_of_toNat_eq e)
  have hrun : cmdRunning s 1 = false := beq_eq_false_iff_ne.2 hc
  simp [modeSetOp, fieldAt_first, ha, hs, hrun, hp, hop]

/-- MODE_SET to RUN in STOP waits for the boundary (R189). -/
theorem setRun_waits {n : Nat} {s : State} (hm : s.prog.mode = .stop) (hf : s.prog.forme.isSome = true) :
    setRun n s = (.ok [], cmdStart 1 n { s with prog := { s.prog with
      runDue := true, runByCommand := true, runSince := localNow s } }) := by
  have hsome : s.prog.forme.isNone = false := by rw [← Option.not_isSome, hf]; rfl
  simp only [setRun, hm, hsome, Bool.false_eq_true, if_false]

/-- Settles O15, by the four operations of MODE_SET. -/
theorem modeSetCommandsChangeTheMode : Obligations.ModeSetCommandsChangeTheMode := by
  intro t c s v data answered hstandby
  have row {op : Byte} {i : Instr} {w : State} (hi : exec i s = .next (rowReq c 0xF001 1 [op] modeSetOp (advance t s)))
      (hw : writeHeard (found t s) c 0xF001 1 [op] = true)
      (hop : modeSetOp (op :: c.rest) c.hdr.session v = (.ok [], w)) : answered i w :=
    hi.trans (congrArg Host.Outcome.next (rowReq_answers hw hop))
  clear_value v
  refine ⟨fun hw ha => ?_, fun hw ha hc hp hm hf => ?_, fun hw ha hc hp hm => ?_, fun hw ha hc hp hm hu hcy => ?_⟩
  · obtain ⟨hok, hleaves⟩ := setStop_leaves c.hdr.session v
    exact ⟨_, row rfl hw ((modeSetOp_stop (fieldAt_first 0 _) ha hstandby).trans (Prod.ext hok rfl)), hleaves⟩
  · have hop := modeSetOp_runs (n := c.hdr.session) (by decide) ha hstandby hc hp
    exact row rfl hw (hop.trans (setRun_waits hm hf))
  · have hop := modeSetOp_runs (n := c.hdr.session) (by decide) ha hstandby hc hp
    obtain ⟨hok, hleaves⟩ := setHold_leaves (dur := fieldAt (data 2) 4 4) (n := c.hdr.session) hm
    exact ⟨_, row rfl hw (hop.trans (Prod.ext hok rfl)), hleaves⟩
  · have hop := modeSetOp_runs (n := c.hdr.session) (by decide) ha hstandby hc hp
    obtain ⟨hok, cy, hleaves⟩ := setStep_leaves (n := c.hdr.session) hm hu hcy
    exact ⟨_, cy, row rfl hw (hop.trans (Prod.ext hok rfl)), hleaves⟩

end Sys2Proof.Machine
end

section
/-! SUPPORT. What a standby lands of an INPUT record under a mapping record of TYPE BOOL (07 Table 7.1; 16 R396). -/

namespace Sys2Proof.Machine

/-- A standby in TRACKING whose one mapping record maps AIO channel 0 to point 0 with TYPE BOOL. -/
def boolOverAio : State :=
  { State.reset with
    config := [(objKey 0x2900 1, [2, 1, 0, 0, 0, 0, 0, 0, 1, 0, 0, 0, 0, 0, 0, 0])]
    pwr := { State.reset.pwr with phase := .up, domains := 0xFFF, presLow := true }
    pair := { State.reset.pair with state := .tracking } }

/-- A landed value of 2 leaves a BOOL point at 0: bit 0 alone counts. -/
theorem input_boolOverAio :
    (underlying (inputState 0 [.aio 0 2 0 0] (advance 0 boolOverAio)) 0).value = 0 := by decide

/-- Refutes O52: nothing in the statement keeps a mapping record of TYPE BOOL off an AIO channel. Over such a record the value
that an INPUT record carries lands as its bit 0, so a value of 2 does not stand in the image as it was sent. -/
theorem not_theStandbyTakesRecordsAndCopies : ¬ Obligations.TheStandbyTakesRecordsAndCopies := by
  intro h
  obtain ⟨-, -, -, -, hinput, -⟩ := h 0 boolOverAio (by decide)
  obtain ⟨u, hexec, -, hland⟩ := hinput 0 [.aio 0 2 0 0] ⟨rfl, .inl rfl⟩
  obtain ⟨-, hvalue⟩ := hland 0 2 0 0 rfl rfl
  have hu : inputState 0 [.aio 0 2 0 0] (advance 0 boolOverAio) = u := Host.Outcome.next.inj hexec
  have h2 := hvalue 0 (by decide)
  rw [← hu, input_boolOverAio] at h2
  exact absurd h2 (by decide)

end Sys2Proof.Machine
end

section
/-! SUPPORT. CONFIG_COMMIT in its three phases, and CONFIG_APPLY (04 R86, R88 to R91). -/

namespace Sys2Proof.Machine

/-! ### CONFIG_COMMIT (R88 to R90) -/

/-- What comes before a transaction's own checks leaves a session with an open transaction. -/
theorem txn_of_commitRefused {data : List Byte} {n : Nat} {s : State} (h : commitRefused data n s = none) :
    (getSession s n).txn = some (txnOf s n) := by
  cases hx : (getSession s n).txn with
  | some x => simp [txnOf, hx]
  | none =>
    simp only [commitRefused, hx, Option.isNone_none, if_true] at h
    split at h
    · exact absurd h (by simp)
    split at h
    · exact absurd h (by simp)
    split at h <;> exact absurd h (by simp)

/-- The words of a configuration to come go to the banks alone. -/
theorem announceBanks_dio (c : Tbl (List Byte)) (s : State) : Untouched [.dio] s (announceBanks c s) :=
  Untouched.forAll (fun b _ ht => ht.step (modBank_frame b _ _) (by decide)) (.refl _ s)

/-- A transaction accepted leaves its session and waits to be applied (R89). -/
theorem commitAccepted_leaves (n : Nat) (s : State) :
    (commitAccepted n s).1 = .ok [] ∧ (commitAccepted n s).2.config = s.config ∧
      (commitAccepted n s).2.sess.pending = some ⟨n, (txnOf s n).writes, localNow s⟩ ∧
      (getSession (commitAccepted n s).2 n).txn = none ∧
      getCmd (commitAccepted n s).2 7 = { status := 1, result := [], invoker := n } ∧
      (commitAccepted n s).2.sess.change = some 0xF007 := by
  have hconfig (c : Tbl (List Byte)) (x : State) : (announceBanks c x).config = x.config :=
    (announceBanks_dio c x).same .config (by decide)
  have hsess (c : Tbl (List Byte)) (x : State) : (announceBanks c x).sess = x.sess :=
    (announceBanks_dio c x).same .sess (by decide)
  refine ⟨rfl, ?_, ?_, ?_, ?_, ?_⟩
  · simp only [commitAccepted, cmdAccept, cmdStart_fields, hconfig, keepLeases, modSession_fields]
  · simp only [commitAccepted, cmdAccept, cmdStart, modCmd, hsess, keepLeases, modSession]
  · simp only [commitAccepted, cmdAccept, cmdStart, modCmd, getSession, hsess, keepLeases, modSession, Tbl.get_modify,
      if_true]
  · simp only [commitAccepted, cmdAccept, cmdStart, getCmd_modCmd, if_true]
  · simp only [commitAccepted, cmdAccept, cmdStart, modCmd, hsess, keepLeases, modSession]

/-- A transaction that fails is discarded whole (R89). -/
theorem commitFails_leaves (a : Abort) (n : Nat) (s : State) :
    (commitFails a n s).2.config = s.config ∧ (commitFails a n s).2.sess.pending = s.sess.pending ∧
      (getSession (commitFails a n s).2 n).txn = none ∧ (getCmd (commitFails a n s).2 7).status = 3 := by
  refine ⟨rfl, rfl, ?_, ?_⟩
  · simp only [commitFails, getSession_modSession, if_true]
  · simp only [commitFails, getCmd, modSession]
    simp only [cmdFail, modCmd, Tbl.get_modify, if_true]

/-- A safety side taken and passed on leaves the sessions and the time (R90). -/
theorem confirmSafety_keeps (ws : List Staged) (s : State) :
    (confirmSafety ws s).sess.sessions = s.sess.sessions ∧ localNow (confirmSafety ws s) = localNow s := by
  constructor
  · unfold confirmSafety
    split
    · rw [(passChange_frame _ _).same .sess (by decide), takeSafety]
      split <;> rfl
    · rfl
  · have hnow := (confirmSafety_frame ws s).same .now (by decide)
    have hclk := (confirmSafety_frame ws s).same .clk (by decide)
    simp only [Part.same] at hnow hclk
    simp only [localNow, rawCount, hnow, hclk]

/-- An invocation that is not refused beforehand goes by its phase (Table 4.10). -/
theorem commitOp_phase {data : List Byte} {n : Nat} {s : State} (h : commitRefused data n s = none) :
    (fieldAt data 0 1 = 1 → commitOp data n s = commitNow n s) ∧
      (fieldAt data 0 1 = 2 → commitOp data n s = commitPrepare n s) ∧
      (fieldAt data 0 1 = 3 → commitOp data n s = commitConfirm (fieldAt data 4 4) n s) := by
  refine ⟨fun hp => ?_, fun hp => ?_, fun hp => ?_⟩ <;> simp only [commitOp, h, hp]

theorem commitNow_accepts {n : Nat} {s : State} (h : checkTxn s n (txnOf s n).writes = none) :
    commitNow n s = commitAccepted n s := by
  simp only [commitNow, h]

theorem commitNow_fails {n : Nat} {a : Abort} {s : State} (h : checkTxn s n (txnOf s n).writes = some a) :
    commitNow n s = commitFails a n s := by
  simp only [commitNow, h]

/-- A prepared transaction keeps its seal for 60 s, and nothing is applied (R90). -/
theorem commitPrepare_leaves {n : Nat} {x : Txn} {s : State} (hx : (getSession s n).txn = some x)
    (h : checkTxn s n x.writes = none) (hs : checkSafety (resultOf s x.writes) = none) :
    (commitPrepare n s).1 = .ok (leBytes 4 (sealAfter s x.writes)) ∧ (commitPrepare n s).2.config = s.config ∧
      (commitPrepare n s).2.sess.pending = s.sess.pending ∧ (commitPrepare n s).2.safe = s.safe ∧
      (getSession (commitPrepare n s).2 n).txn =
        some { x with prepared := some (sealAfter s x.writes, s.now + 60 * secNs) } := by
  have htx : txnOf s n = x := by simp [txnOf, hx]
  simp only [commitPrepare, htx, h, hs, Option.or_none]
  refine ⟨rfl, rfl, rfl, rfl, ?_⟩
  simp only [cmdNow, cmdDone, cmdStart, modCmd, getSession, modSession, Tbl.get_modify, if_true]
  have hx' : (Tbl.get s.sess.sessions {} n).txn = some x := hx
  rw [hx', Option.map_some]

/-- A prepared transaction confirmed in time with its seal, no safety output on, is accepted (R90). -/
theorem commitConfirm_accepts {sealNo n lapse : Nat} {s : State} (hp : (txnOf s n).prepared = some (sealNo, lapse))
    (hl : s.now ≤ lapse) (ho : outputsOn s = 0) (h : checkTxn s n (txnOf s n).writes = none)
    (hs : checkSafety (resultOf s (txnOf s n).writes) = none) :
    commitConfirm sealNo n s = commitAccepted n (confirmSafety (txnOf s n).writes s) := by
  have hlapse : ¬ lapse < s.now := Nat.not_lt.2 hl
  simp only [commitConfirm, hp, hlapse, ho, h, hs, Option.or_none, ne_eq, not_true_eq_false, if_false]

/-- Settles O20, phase by phase. -/
theorem configCommitChecksThenWaits : Obligations.ConfigCommitChecksThenWaits := by
  intro t c s n v ws answered
  have row {op : Byte} {i : Instr} {a : Answer} {w : State}
      (hi : exec i s = .next (rowReq c 0xF007 1 [op] commitOp (advance t s)))
      (hw : writeHeard (found t s) c 0xF007 1 [op] = true) (hop : commitOp (op :: c.rest) n v = (a, w)) : answered i a w :=
    hi.trans (congrArg Host.Outcome.next (rowReq_answers hw hop))
  clear_value v
  refine ⟨fun hw href => ⟨fun hc => ?_, fun a hc => ?_⟩, fun hw href hc hs => ?_, fun hw href hc hs ho lapse hp hl => ?_⟩
  · obtain ⟨hok, hleaves⟩ := commitAccepted_leaves n v
    have hop := ((commitOp_phase href).1 (fieldAt_first 1 _)).trans (commitNow_accepts hc)
    exact ⟨_, row rfl hw (hop.trans (Prod.ext hok rfl)), hleaves⟩
  · have hop := ((commitOp_phase href).1 (fieldAt_first 1 _)).trans (commitNow_fails hc)
    exact ⟨_, row rfl hw (hop.trans (Prod.ext rfl rfl)), commitFails_leaves a n v⟩
  · obtain ⟨hok, hleaves⟩ := commitPrepare_leaves (txn_of_commitRefused href) hc hs
    have hop := (commitOp_phase href).2.1 (fieldAt_first 2 _)
    exact ⟨_, row rfl hw (hop.trans (Prod.ext hok rfl)), hleaves⟩
  · have hop := ((commitOp_phase href).2.2 (fieldAt_first 3 _)).trans (commitConfirm_accepts hp hl ho hc hs)
    obtain ⟨hok, -, hpending, htxn, hcmd, -⟩ := commitAccepted_leaves n (confirmSafety ws v)
    obtain ⟨hsessions, htime⟩ := confirmSafety_keeps ws v
    have htx : txnOf (confirmSafety ws v) n = txnOf v n := by simp only [txnOf, getSession, hsessions]
    rw [htx, htime] at hpending
    exact ⟨_, row rfl hw (hop.trans (Prod.ext hok rfl)), hpending, htxn, congrArg CmdObj.status hcmd⟩

/-! ### CONFIG_APPLY (R89, R91) -/

/-- The commit to come and the number of those applied. -/
def commitView (s : State) : Option PendingCommit × Nat := (s.sess.pending, s.sess.generation)

theorem commitView_of_frame {ps : List Part} {s t : State} (h : Untouched ps s t) (hp : Part.sess ∉ ps := by decide) :
    commitView t = commitView s :=
  congrArg (fun x : Sess => (x.pending, x.generation)) (h.same .sess hp)

theorem keepDirect_view (idx sub : Nat) (data : List Byte) (s : State) :
    commitView (keepDirect idx sub data s) = commitView s := rfl

theorem dropDirect_view (objs : Tbl (List Byte)) (s : State) : commitView (dropDirect objs s) = commitView s := rfl

theorem loopModeNow_view (n : Nat) (data : List Byte) (m : Nat) (s : State) :
    commitView (loopModeNow n data m s).2 = commitView s := by
  simp only [loopModeNow, apply_ite Prod.snd, apply_ite commitView, keepDirect_view, ite_self]

/-- A direct value that takes effect leaves the commits (R74). -/
theorem directEffect_view (key : Nat) (data : List Byte) (n : Nat) (s : State) :
    commitView (directEffect key data n s) = commitView s := by
  unfold directEffect
  dsimp only
  split
  · rfl
  split
  · exact (commitView_of_frame (emit_frame ..)).trans (keepDirect_view ..)
  split
  · exact commitView_of_frame (scArmNow_frame ..)
  split
  · exact commitView_of_frame (canRecoverNow_frame ..)
  split
  · rfl
  split
  · exact loopModeNow_view ..
  · exact keepDirect_view ..

theorem deferred_view (idx sub : Nat) (op : List Byte → Nat → State → Answer × State) (data : List Byte) (n : Nat)
    (s : State) : commitView (deferred idx sub op data n s).2 = commitView s := by
  unfold deferred
  split <;> rfl

theorem directNow_view (idx sub : Nat) (data : List Byte) (n : Nat) (s : State) :
    commitView (directNow idx sub data n s) = commitView s := by
  unfold directNow
  split
  · unfold axCommandOp
    split
    · exact deferred_view ..
    · exact commitView_of_frame (axCommandNow_frame ..)
  · exact directEffect_view ..

theorem applyDirect_view (n : Nat) (objs : Tbl (List Byte)) (s : State) : commitView (applyDirect n objs s) = commitView s := by
  unfold applyDirect
  induction objs generalizing s with
  | nil => rfl
  | cons e r ih =>
    refine (ih _).trans ?_
    dsimp only
    split
    · exact directNow_view ..
    · rfl

/-- Without a direct object nothing is left to act of its own (R89). -/
theorem applyDirect_none {n : Nat} {objs : Tbl (List Byte)} {s : State} (h : ∀ e ∈ objs, directKey e.1 = false) :
    applyDirect n objs s = s := by
  unfold applyDirect
  induction objs with
  | nil => rfl
  | cons e r ih =>
    rw [List.foldl_cons, h e (List.mem_cons_self ..), if_neg Bool.false_ne_true]
    exact ih fun x hx => h x (List.mem_cons_of_mem _ hx)

/-- A configuration adopted stands as it is, and the subsystems that take it leave the sessions part (R89). -/
theorem adoptConfig_keeps (c : Tbl (List Byte)) (s : State) :
    (adoptConfig c s).config = c ∧ (adoptConfig c s).sess = { s.sess with refused := none } := by
  have adopts : Untouched [.clk, .img, .prog, .eng, .cad, .ring, .dio, .aio, .mot, .can, .safe, .sio, .recd]
      { s with config := c, sess := { s.sess with refused := none } } (adoptConfig c s) := by
    refine .step ?_ (applyStatus_frame _) (by decide)
    refine .step ?_ (applyUnowned_frame _) (by decide)
    refine .step ?_ (applyBanks_frame _) (by decide)
    refine .step ?_ (applyAxes_frame ..) (by decide)
    refine .step ?_ (applyAio_frame ..) (by decide)
    refine .step ?_ (applyLoops_frame ..) (by decide)
    refine .forAll (fun p x hx => hx.step (applyCan_frame ..) (by decide)) ?_
    refine .step ?_ (applySlots_frame ..) (by decide)
    refine .step ?_ (applyTrackers_frame ..) (by decide)
    refine .step ?_ (applyTimeRank_frame _) (by decide)
    refine .step ?_ (applyNodeTable_frame ..) (by decide)
    refine .step ?_ (applyMapping_frame ..) (by decide)
    exact .refl ..
  exact ⟨adopts.same .config (by decide), adopts.same .sess (by decide)⟩

theorem endLease_view (area : Nat) (s : State) :
    commitView (endLease area s) = commitView s ∧ (endLease area s).sess.change = s.sess.change := by
  unfold endLease
  split <;> exact ⟨rfl, rfl⟩

/-- The leases a change kept are let go, and it is pending no longer (R86, R91). -/
theorem releaseKept_view (s : State) : commitView (releaseKept s) = commitView s ∧ (releaseKept s).sess.change = none := by
  unfold releaseKept pruneLeases
  refine forAll_induct (P := fun x => commitView x = commitView s ∧ x.sess.change = none) _ _ (fun a x hx => ?_) _ ⟨rfl, rfl⟩
  exact ⟨(endLease_view a x).1.trans hx.1, (endLease_view a x).2.trans hx.2⟩

/-- An applied commit is counted. -/
theorem countCommit_view (s : State) : commitView (countCommit s) = (s.sess.pending, (s.sess.generation + 1) % 2 ^ 32) := by
  simp only [commitView, countCommit, emit_fields]

/-- The configuration objects of a commit: those that took no effect at its confirmation (R90). -/
def commitObjs (p : PendingCommit) : Tbl (List Byte) := (stagedObjs p.writes).filter (fun e => decide (keyAcc e.1 ≠ .rws))

/-- A commit being applied, up to its count: the configuration is adopted, and staged direct objects act. -/
def commitActs (p : PendingCommit) (s : State) : State :=
  dropDirect (commitObjs p) (applyDirect p.session (commitObjs p) (armStaged (commitObjs p)
    (adoptConfig (putObjs s.config (commitObjs p)) { s with sess := { s.sess with pending := none } })))

theorem applyPending_eq (p : PendingCommit) (s : State) : applyPending p s =
    cmdDone 7 [] (releaseKept (passChange (.config (commitObjs p) (countCommit (commitActs p s)).sess.generation)
      (countCommit (commitActs p s)))) := rfl

theorem commitActs_view (p : PendingCommit) (s : State) : commitView (commitActs p s) = (none, s.sess.generation) := by
  rw [commitActs, dropDirect_view, applyDirect_view, commitView_of_frame (armStaged_frame ..)]
  simp only [commitView, (adoptConfig_keeps ..).2]

theorem commitActs_config {p : PendingCommit} {s : State} (h : ∀ e ∈ commitObjs p, directKey e.1 = false) :
    (commitActs p s).config = putObjs s.config (commitObjs p) := by
  unfold commitActs
  rw [applyDirect_none h, (dropDirect_frame ..).same .config (by decide), (armStaged_frame ..).same .config (by decide)]
  exact (adoptConfig_keeps ..).1

/-- An applied commit is pending no longer, is counted, and its command is done (R89). -/
theorem applyPending_leaves (p : PendingCommit) (s : State) :
    (applyPending p s).sess.pending = none ∧ (applyPending p s).sess.change = none ∧
      (applyPending p s).sess.generation = (s.sess.generation + 1) % 2 ^ 32 ∧ (getCmd (applyPending p s) 7).status = 2 ∧
      ((∀ e ∈ commitObjs p, directKey e.1 = false) → (applyPending p s).config = putObjs s.config (commitObjs p)) := by
  rw [applyPending_eq]
  generalize hc : Change.config (commitObjs p) _ = c
  obtain ⟨hview, hchange⟩ := releaseKept_view (passChange c (countCommit (commitActs p s)))
  have hacts := commitActs_view p s
  rw [commitView_of_frame (passChange_frame ..), countCommit_view] at hview
  simp only [commitView, Prod.mk.injEq] at hview hacts
  refine ⟨hview.1.trans hacts.1, hchange, hview.2.trans (by rw [hacts.2]), (cmdDone_get ..).1, fun h => ?_⟩
  simp only [cmdDone_fields]
  rw [← commitActs_config h, (releaseKept_frame _).same .config (by decide),
    (passChange_frame ..).same .config (by decide), (countCommit_frame _).same .config (by decide)]

theorem configApplyState_due {p : PendingCommit} {s : State} (hp : s.sess.pending = some p) (h : applyDue s p.since = true) :
    configApplyState s = applyPending p s := by
  simp only [configApplyState, hp, h, if_true]

/-- Settles O21, by the time for a commit. -/
theorem pendingCommitIsAppliedWhole : Obligations.PendingCommitIsAppliedWhole := by
  intro t s v
  refine ⟨fun p hp hu hdue => ?_, fun p hp hm hb => ?_, fun hp => ?_⟩
  · intro objs
    have due : applyDue v p.since = true := by
      have hup : up v = true := hu
      rw [applyDue, hup, Bool.true_and, Bool.or_eq_true, decide_eq_true_eq]
      exact hdue
    exact ⟨applyPending p v, congrArg Host.Outcome.next (configApplyState_due (s := v) hp due), applyPending_leaves p v⟩
  · have due : applyDue v p.since = false := by
      rw [applyDue, hb, decide_eq_false (show v.prog.mode ≠ .stop from hm), Bool.or_false, Bool.and_false]
    refine congrArg Host.Outcome.next ?_
    have hv : v.sess.pending = some p := hp
    simp only [configApplyState, v] at hv due ⊢
    simp only [hv, due, Bool.false_eq_true, if_false]
  · refine congrArg Host.Outcome.next ?_
    have hv : (advance t s).sess.pending = none := hp
    simp only [configApplyState, hv]
    rfl

end Sys2Proof.Machine
end

section
/-! SUPPORT. A frame at the switch: removed, counted as bad, consumed or found to be a duplicate (05 R99 to R107). -/

namespace Sys2Proof.Machine

section
variable {port : Port} {f : Frame} {s : State} (hu : up s = true) (hd : domainOn s 7 = true) (hr : s.pwr.relayOpen = true)
include hu hd hr

/-- A frame of the module's own leaves the ring, its error counted (R99, R100). -/
theorem frameReceivedState_own (ho : ownFrame s f = true) :
    frameReceivedState port f s = setVerdict .removed (if f.fcsOk then s else countFcs port s) := by
  simp [frameReceivedState, hu, hd, hr, ho]

/-- Another frame with a bad FCS is counted and passed on as bad (R100). -/
theorem frameReceivedState_badFcs (ho : ownFrame s f = false) (hf : f.fcsOk = false) (hld : f.dst ≠ macLd) :
    frameReceivedState port f s =
      setVerdict .badFcs (send (.forwarded (otherPort port) f.src f.hsrSeq true) (countFcs port s)) := by
  simp [frameReceivedState, hu, hd, hr, ho, hf, hld]

/-- A good Hornpipe frame to the module is passed on; the duplicate table says whether it is its first copy, which is consumed
(R99, R107). -/
theorem frameReceivedState_toModule (ho : ownFrame s f = false) (hf : f.fcsOk = true) (hh : f.hornpipe = true)
    (hv : f.version = 1) (hk : 1 ≤ f.kind ∧ f.kind ≤ 5) (hm : toModule s f.dst = true) (hld : f.dst ≠ macLd) :
    let w := send (.forwarded (otherPort port) f.src f.hsrSeq false) s
    frameReceivedState port f s = match dupOf s f.src f.hsrSeq with
      | some e => setVerdict (if sameEdge s port e then .consumed else .duplicate)
          { w with ring := { w.ring with duplicates := w.ring.duplicates + 1 } }
      | none => setVerdict .consumed (noteDup f.src f.hsrSeq port w) := by
  intro w
  have hkind : ¬ (f.version ≠ 1 ∨ f.kind < 1 ∨ 5 < f.kind) := by omega
  have hdup : dupOf w f.src f.hsrSeq = dupOf s f.src f.hsrSeq := rfl
  have hw : toModule w f.dst = true := hm
  simp only [frameReceivedState, hu, hd, hr, ho, hf, hh, hld, hkind, Bool.and_self, Bool.not_true, Bool.false_eq_true, if_false]
  rw [hw, hdup]
  cases dupOf s f.src f.hsrSeq <;> rfl

end

/-- The source address of the module's own is what makes a frame its own (Table 5.1). -/
theorem ownFrame_of_src {f : Frame} {s : State} (ha : nodeAddress s ≠ 0) (hs : f.src = macOf (nodeAddress s)) :
    ownFrame s f = true := by
  simp [ownFrame, ha, hs]

/-- The error is counted at the port that brought the frame (R100). -/
theorem countFcs_counts (port : Port) (s : State) :
    (countFcs port s).ring.fcsT1 = s.ring.fcsT1 + (if port = .t1 then 1 else 0) ∧
      (countFcs port s).ring.fcsT2 = s.ring.fcsT2 + (if port = .t2 then 1 else 0) := by
  cases port <;> exact ⟨rfl, rfl⟩

/-- Settles O29: a frame by what makes the switch decide, then the tables. -/
theorem theSwitchForwardsRemovesAndConsumes : Obligations.TheSwitchForwardsRemovesAndConsumes := by
  intro t s v
  refine ⟨fun hu hd hr port f => ?_, fun src seq => rfl, fun ho => congrArg Host.Outcome.next (if_pos ho),
    fun src hu hd => congrArg Host.Outcome.next (if_pos (Bool.and_eq_true_iff.2 ⟨hu, hd⟩))⟩
  intro fwd
  refine ⟨fun hf ho hld => ?_, fun ha hs => ?_, fun hf ho hh hv h1 h5 hm hld => ?_⟩
  · obtain ⟨h1, h2⟩ := countFcs_counts port v
    refine ⟨_, congrArg Host.Outcome.next (frameReceivedState_badFcs (s := v) hu hd hr ho hf hld), rfl, ?_, h1, h2⟩
    exact congrArg (_ :: ·) ((countFcs_frame port v).same .outbox (by decide))
  · exact congrArg Host.Outcome.next (frameReceivedState_own (s := v) hu hd hr (ownFrame_of_src (s := v) ha hs))
  · have taken := frameReceivedState_toModule (s := v) (port := port) hu hd hr ho hf hh hv ⟨h1, h5⟩ hm hld
    refine ⟨fun hn => congrArg Host.Outcome.next ?_, fun e he => congrArg Host.Outcome.next ?_⟩
    · rw [taken, hn]
      rfl
    · rw [taken, he]
      rfl

end Sys2Proof.Machine
end

section
/-! SUPPORT. Ring checks, address conflicts and the links of the ports (05 R105, R122; 06 R134). -/

namespace Sys2Proof.Machine

/-! ### The ring check (R122; 06 R134) -/

/-- A check that returns in time closes the ring, is forgotten and gives the newest loop time. -/
theorem checkReturned_leaves {seq : Nat} {sent : Int} {s : State}
    (hc : s.ring.checks.find? (fun c => c.1 == seq && decide (localNow s ≤ c.2 + 300 * msNs)) = some (seq, sent)) :
    let u := checkReturned seq s
    u.ring.open_ = false ∧ u.ring.lastReturn = s.now ∧ u.ring.checks = s.ring.checks.filter (fun c => c.1 != seq) ∧
      u.clk.loops = ((localNow s - sent).toNat :: s.clk.loops).take 8 ∧ u.clk.loop = loopMean u.clk.loops := by
  simp only [checkReturned, hc]
  split
  · simp
  · exact ⟨rfl, rfl, rfl, rfl, rfl⟩

/-! ### RM frames of another module, and an address conflict (R105, R122) -/

theorem keepBreak_conflict (node op portNo link serial : Nat) (s : State) :
    (keepBreak node op portNo link serial s).ring.conflict = s.ring.conflict := by
  unfold keepBreak
  split <;> rfl

/-- A link change is kept as the last break. -/
theorem keepBreak_linkChange (node portNo link serial : Nat) (s : State) :
    keepBreak node 2 portNo link serial s =
      { s with ring := { s.ring with lastBreak := (node, portNo, link, serial, netTime s) } } := rfl

section
variable {node seq op portNo link serial : Nat} {s : State} (hu : up s = true) (hd : domainOn s 7 = true)
include hu hd

/-- A check under the module's own address and serial number returns. -/
theorem rmFrameState_ownCheck (ha : node = nodeAddress s) (hz : node ≠ 0) :
    rmFrameState node seq 1 portNo link serialNumber s = checkReturned seq s := by
  subst ha
  simp [rmFrameState, hu, hd, hz]

/-- A frame from another address is kept where it tells of a link change. -/
theorem rmFrameState_other (ha : node ≠ nodeAddress s) :
    rmFrameState node seq op portNo link serial s = keepBreak node op portNo link serial s := by
  simp [rmFrameState, hu, hd, ha]

/-- Under its own address and another serial number, the ring part notes the conflict and keeps a link change; the rest of
what a new conflict does falls on the image and the recorder. -/
theorem rmFrameState_conflict (ha : node = nodeAddress s) (hz : node ≠ 0) (hs : serial ≠ serialNumber) :
    (rmFrameState node seq op portNo link serial s).ring =
      (keepBreak node op portNo link serial { s with ring := { s.ring with conflict := some s.now } }).ring := by
  subst ha
  simp only [rmFrameState, hu, hd, hz, hs, Bool.and_self, Bool.not_true, Bool.false_eq_true, if_false, ne_eq,
    not_false_eq_true, and_self, if_true]
  split
  · rw [(emit_frame ..).same .ring (by decide), (decideQual_frame ..).same .ring (by decide)]
  · rfl

end

/-! ### A port's link (R122) -/

/-- The report and the record of a change leave both ports' states. -/
theorem linkReport_links (b : Bool) (op port link code src : Nat) (data : List Byte) (s : State) :
    let u := emit code src data (if b then sendRm op port link s else s)
    u.ring.t1Up = s.ring.t1Up ∧ u.ring.t2Up = s.ring.t2Up := by
  intro u
  have hu : u.ring = (if b then sendRm op port link s else s).ring := (emit_frame ..).same .ring (by decide)
  rw [hu]
  split <;> exact ⟨rfl, rfl⟩

/-- A change of link sets its port; the report and the record leave both ports' states. -/
theorem linkChangeState_links (port : Port) (link : Bool) {s : State} (hu : up s = true) (hd : domainOn s 7 = true) :
    (linkChangeState port link s).ring.t1Up = (setLink port link s).ring.t1Up ∧
      (linkChangeState port link s).ring.t2Up = (setLink port link s).ring.t2Up := by
  cases port
  all_goals
    simp only [linkChangeState, hu, hd, Bool.and_self, Bool.not_true, Bool.false_or, beq_iff_eq]
    split
    · rename_i h
      simp [setLink, h]
    · split
      · exact ⟨rfl, rfl⟩
      · exact linkReport_links ..

/-- A conflict whose last frame is 3 s old ends, and that is recorded (R105). -/
theorem execAddressConflictEnd_due {t a : Nat} {s : State} (ha : s.ring.conflict = some a)
    (hdue : a + 3 * secNs ≤ (advance t s).now) :
    execAddressConflictEnd t s = .next (emit 0x8181 0 []
      { advance t s with ring := { (advance t s).ring with conflict := none } }) := by
  simp only [execAddressConflictEnd, advance_fields, ha, if_pos hdue]

/-- Settles O30, row by row. -/
theorem ringChecksLinksAndConflicts : Obligations.RingChecksLinksAndConflicts := by
  intro t s v seq
  refine ⟨fun ho => ⟨_, congrArg Host.Outcome.next (if_pos ho), rfl, rfl, rfl⟩, fun ho hopen hdue => ?_,
    fun hu hd port node q portNo link => ⟨fun ha hz sent hc => ?_, fun ha hz op serial hs => ?_, fun ha serial => ?_⟩,
    fun a ha hdue => execAddressConflictEnd_due ha hdue, fun hu hd link => ⟨?_, ?_⟩⟩
  · have due : (originates v && !v.ring.open_ && decide (v.ring.lastReturn + 300 * msNs ≤ v.now)) = true := by
      simp only [Bool.and_eq_true, Bool.not_eq_true', decide_eq_true_eq]
      exact ⟨⟨ho, hopen⟩, hdue⟩
    exact congrArg Host.Outcome.next (if_pos due)
  · exact ⟨_, congrArg Host.Outcome.next (rmFrameState_ownCheck (s := v) hu hd ha hz), checkReturned_leaves (s := v) hc⟩
  · have ring := rmFrameState_conflict (s := v) (seq := q) (op := op) (portNo := portNo) (link := link) hu hd ha hz hs
    refine ⟨_, rfl, ?_, fun h2 => ?_⟩
    · exact (congrArg Ring.conflict ring).trans (keepBreak_conflict ..)
    · subst h2
      exact congrArg Ring.lastBreak ring
  · exact congrArg Host.Outcome.next ((rmFrameState_other (s := v) hu hd ha).trans (keepBreak_linkChange ..))
  · obtain ⟨h1, h2⟩ := linkChangeState_links (s := v) .t1 link hu hd
    exact ⟨_, rfl, h1, h2⟩
  · obtain ⟨h1, h2⟩ := linkChangeState_links (s := v) .t2 link hu hd
    exact ⟨_, rfl, h2, h1⟩

end Sys2Proof.Machine
end

section
/-! SUPPORT. What a set of a remote node leaves in the image under a mapping record of TYPE BOOL (05 R110; 07 Table 7.1). -/

namespace Sys2Proof.Machine

/-- Node 9 joins in class F, its one point mapped to point 16 with TYPE BOOL. -/
def joinsOverBool : State :=
  { State.reset with
    config := [(objKey 0x1800 1, [5, 0]), (objKey 0x1900 1, [9, 0, 1, 0, 1, 0, 0, 0, 0, 0, 0, 0, 0, 0, 0, 0]),
      (objKey 0x2900 1, [5, 1, 0, 0, 16, 0, 0, 0, 1, 0, 9, 0, 1, 0, 0, 0])]
    pwr := { State.reset.pwr with phase := .up, domains := 0xFFF }
    pair := { State.reset.pair with state := .single }
    ring := { State.reset.ring with nodes := [(0, { state := .joining })] } }

/-- A whole input set of node 9 in one frame, its entry carrying the value 2. -/
def setOfTwo : PdInput :=
  { node := 9, seq := 1, cls := 1, index := 0, frames := 1, sourceTime := 0, rejoin := 0, acked := 0, entries := [(2, 0)],
    onePort := false }

/-- A landed value of 2 leaves a BOOL point at 0: bit 0 alone counts (07 Table 7.1). -/
theorem pdInput_joinsOverBool :
    (underlying (pdInputFrameState setOfTwo (advance 0 joinsOverBool)) 16).value = 0 := by decide

/-- Refutes O31: nothing in the statement keeps an input mapping record of TYPE BOOL off a remote node's point. Over such a
record a set's entry lands as its bit 0, so a value of 2 does not stand in the image as it came. -/
theorem not_nodesExchangeProcessData : ¬ Obligations.NodesExchangeProcessData := by
  intro h
  obtain ⟨hinput, -⟩ := h 0 joinsOverBool (by decide) (by decide) (by decide) (by decide)
  obtain ⟨u, hexec, hland, -⟩ := hinput setOfTwo 0 (nodeRec joinsOverBool 0) (by decide) (by decide) (by decide) rfl rfl
    (by decide)
  have hu : pdInputFrameState setOfTwo (advance 0 joinsOverBool) = u := Host.Outcome.next.inj hexec
  have hvalue := congrArg Pt.value (hland 0 16 (2, 0) (by decide) rfl)
  rw [← hu, pdInput_joinsOverBool] at hvalue
  exact absurd hvalue (by decide)

end Sys2Proof.Machine
end

section
/-! SUPPORT. FORCE: the request that waits, what it does at its engine tick, and that the rest of the tick leaves the forces
be (07 R166 to R168; 04 R77, R81; 09 R201 to R204). -/

namespace Sys2Proof.Machine

/-! ### The request (07 R166) -/

/-- A FORCE taken waits with its request: the answer joins it instead of leaving. -/
theorem respond_forceTake (s : State) (h : Hdr) (a : Answer) (op p : Nat) (y : BitVec 32) (v : State) :
    respond s h svcWrite a (forceTake op p y v).2 = { v with sess := { v.sess with
      force := some { op := op, point := p, value := y, hdr := h,
                      ready := if needsAck v then none else some (localNow v) } } } := rfl

theorem forceOp_takes_point {data : List Byte} {n : Nat} {s : State} (ho : fieldAt data 0 1 = 1)
    (hp : fieldAt data 4 4 < 2 ^ 18) (hu : unforceable s (fieldAt data 4 4) = false)
    (hb : pointType s (fieldAt data 4 4) = 1 → fieldAt data 8 4 ≤ 1)
    (hroom : (forceOf s (fieldAt data 4 4)).isSome = true ∨ s.img.forces.length < 256) :
    forceOp data n s = forceTake 1 (fieldAt data 4 4) (BitVec.ofNat 32 (fieldAt data 8 4)) s := by
  have hvalue : ¬ (pointType s (fieldAt data 4 4) = 1 ∧ 1 < fieldAt data 8 4) := fun ⟨ht, hx⟩ => Nat.not_le.2 hx (hb ht)
  have hfull : ¬ ((forceOf s (fieldAt data 4 4)).isNone && decide (256 ≤ s.img.forces.length)) = true := by
    rw [Bool.and_eq_true, Option.isNone_iff_eq_none, decide_eq_true_iff]
    rintro ⟨hnone, hlong⟩
    rcases hroom with hsome | hshort
    · rw [hnone, Option.isSome_none] at hsome
      exact Bool.false_ne_true hsome
    · omega
  simp only [forceOp, ho, if_neg (Nat.not_le.2 hp), hu, Bool.false_eq_true, if_false, if_neg hvalue, if_neg hfull]

theorem forceOp_takes_release {data : List Byte} {n : Nat} {s : State} (ho : fieldAt data 0 1 = 2)
    (hp : fieldAt data 4 4 < 2 ^ 18) : forceOp data n s = forceTake 2 (fieldAt data 4 4) 0 s := by
  simp only [forceOp, ho, if_neg (Nat.not_le.2 hp)]

theorem forceOp_takes_releaseAll {data : List Byte} {n : Nat} {s : State} (ho : fieldAt data 0 1 = 3) :
    forceOp data n s = forceTake 3 0 0 s := by
  simp only [forceOp, ho]

/-! ### The list of forces (07 R167, R168) -/

/-- A force takes the place of one on its own point. -/
theorem replaced_point {p : Nat} {f : Force} (hf : f.point = p) (x : Force) :
    (if x.point == p then f else x).point = x.point := by
  split
  next h => exact hf.trans (beq_iff_eq.1 h).symm
  · rfl

/-- A force that takes the place of the one on its point is found there. -/
theorem find_replaced_same {p : Nat} {f : Force} (l : List Force) (hf : f.point = p)
    (h : (l.find? (fun x => x.point == p)).isSome = true) :
    (l.map (fun x => if x.point == p then f else x)).find? (fun x => x.point == p) = some f := by
  have hsame : (fun x : Force => x.point == p) ∘ (fun x => if x.point == p then f else x) = fun x => x.point == p := by
    funext x
    rw [Function.comp_apply, replaced_point hf]
  obtain ⟨x, hx⟩ := Option.isSome_iff_exists.1 h
  have hpoint := List.find?_some hx
  rw [List.find?_map, hsame, hx, Option.map_some, if_pos hpoint]

/-- A force that takes the place of the one on its point leaves the others to be found. -/
theorem find_replaced_other {p q : Nat} {f : Force} (l : List Force) (hf : f.point = p) (hq : q ≠ p) :
    (l.map (fun x => if x.point == p then f else x)).find? (fun x => x.point == q) = l.find? (fun x => x.point == q) := by
  have hsame : (fun x : Force => x.point == q) ∘ (fun x => if x.point == p then f else x) = fun x => x.point == q := by
    funext x
    rw [Function.comp_apply, replaced_point hf]
  rw [List.find?_map, hsame]
  cases hx : l.find? (fun x => x.point == q) with
  | none => rfl
  | some x =>
    have hpoint : (x.point == q) = true := List.find?_some (p := fun x : Force => x.point == q) hx
    rw [Option.map_some, if_neg fun h => hq ((beq_iff_eq.1 hpoint).symm.trans (beq_iff_eq.1 h))]

theorem putForce_forces (p : Nat) (v : BitVec 32) (g : Int) (s : State) :
    (putForce p v g s).img.forces = if (forceOf s p).isSome then
      s.img.forces.map (fun (x : Force) => if x.point == p then ⟨p, typedValue s p v, g⟩ else x)
      else s.img.forces ++ [⟨p, typedValue s p v, g⟩] := by
  rw [putForce, (emit_frame ..).same .img (by decide), (afterRelease_frame ..).same .img (by decide)]

theorem forceOf_putForce_same (p : Nat) (v : BitVec 32) (g : Int) (s : State) :
    forceOf (putForce p v g s) p = some ⟨p, typedValue s p v, g⟩ := by
  rw [forceOf, putForce_forces]
  split
  next h => exact find_replaced_same _ rfl h
  next h =>
    have hnone : s.img.forces.find? (fun x => x.point == p) = none := Option.not_isSome_iff_eq_none.1 h
    rw [List.find?_append, hnone, Option.none_or]
    exact List.find?_cons_of_pos (beq_self_eq_true p)

theorem forceOf_putForce_other {p q : Nat} (v : BitVec 32) (g : Int) (s : State) (hq : q ≠ p) :
    forceOf (putForce p v g s) q = forceOf s q := by
  rw [forceOf, putForce_forces]
  split
  · exact find_replaced_other _ rfl hq
  · have hmiss : [(⟨p, typedValue s p v, g⟩ : Force)].find? (fun x => x.point == q) = none :=
      List.find?_cons_of_neg fun h => hq (beq_iff_eq.1 h).symm
    rw [List.find?_append, hmiss, Option.or_none, forceOf]

/-- A force released is gone from the list, and the others stand. -/
theorem liftForce_forces (p : Nat) (s : State) :
    (liftForce p s).img.forces = s.img.forces.filter (fun f => f.point != p) := by
  rw [liftForce, (afterRelease_frame ..).same .img (by decide), dropForce]
  split
  · rw [(emit_frame ..).same .img (by decide)]
  next h =>
    refine (List.filter_eq_self.2 fun f hf => ?_).symm
    have hnone : s.img.forces.find? (fun x => x.point == p) = none := Option.not_isSome_iff_eq_none.1 h
    exact bne_iff_ne.2 fun e => List.find?_eq_none.1 hnone f hf (beq_iff_eq.2 e)

theorem forceOf_liftForce_same (p : Nat) (s : State) : forceOf (liftForce p s) p = none := by
  rw [forceOf, liftForce_forces, List.find?_eq_none]
  intro f hf e
  exact bne_iff_ne.1 (List.mem_filter.1 hf).2 (beq_iff_eq.1 e)

theorem forceOf_liftForce_other {p q : Nat} (s : State) (hq : q ≠ p) : forceOf (liftForce p s) q = forceOf s q := by
  have hsame : (fun f : Force => decide ((f.point != p) = true ∧ (f.point == q) = true)) = fun f => f.point == q := by
    funext f
    have hother : (f.point == q) = true → (f.point != p) = true := fun e => bne_iff_ne.2 (beq_iff_eq.1 e ▸ hq)
    rw [Bool.eq_iff_iff, decide_eq_true_iff, and_iff_right_of_imp hother]
  rw [forceOf, liftForce_forces, List.find?_filter, hsame, forceOf]

theorem liftForces_forces (ps : List Nat) (s : State) :
    (ps.foldl (fun s p => liftForce p s) s).img.forces = s.img.forces.filter (fun f => !ps.contains f.point) := by
  induction ps generalizing s with
  | nil => exact (List.filter_eq_self.2 fun _ _ => rfl).symm
  | cons p ps ih =>
    rw [List.foldl_cons, ih, liftForce_forces, List.filter_filter]
    refine List.filter_congr fun f _ => ?_
    rw [List.contains_cons, Bool.not_or, bne, Bool.and_comm]

/-- Releasing every force of the list leaves it empty. -/
theorem liftAllForces_forces (s : State) :
    ((s.img.forces.map Force.point).foldl (fun s p => liftForce p s) s).img.forces = [] := by
  rw [liftForces_forces, List.filter_eq_nil_iff]
  intro f hf
  have hlisted : (s.img.forces.map Force.point).contains f.point = true :=
    List.contains_iff_mem.2 (List.mem_map_of_mem hf)
  rw [hlisted, Bool.not_true]
  exact Bool.false_ne_true

/-- What a FORCE does to the forces, by its operation. -/
theorem forceAct_forces (r : ForceReq) (g : Int) (s : State) :
    (r.op = 1 → forceOf (forceAct r g s) r.point = some ⟨r.point, typedValue s r.point r.value, g⟩ ∧
      ∀ q, q ≠ r.point → forceOf (forceAct r g s) q = forceOf s q) ∧
    (r.op = 2 → forceOf (forceAct r g s) r.point = none ∧ ∀ q, q ≠ r.point → forceOf (forceAct r g s) q = forceOf s q) ∧
    (r.op = 3 → (forceAct r g s).img.forces = []) := by
  refine ⟨fun ho => ?_, fun ho => ?_, fun ho => ?_⟩
  · have hact : forceAct r g s = putForce r.point r.value g s := by simp only [forceAct, ho]
    rw [hact]
    exact ⟨forceOf_putForce_same .., fun q hq => forceOf_putForce_other _ _ _ hq⟩
  · have hact : forceAct r g s = liftForce r.point s := by simp only [forceAct, ho]
    rw [hact]
    exact ⟨forceOf_liftForce_same .., fun q hq => forceOf_liftForce_other _ hq⟩
  · have hact : forceAct r g s = (s.img.forces.map Force.point).foldl (fun s p => liftForce p s) s := by
      simp only [forceAct, ho]
    rw [hact]
    exact liftAllForces_forces s

/-! ### The tick of a FORCE (07 R166; 04 R81) -/

/-- The point the result of a FORCE speaks of: none for a release of all. -/
def resultPoint (r : ForceReq) : Option Nat := if r.op = 3 then none else some r.point

theorem forceResult_length (s : State) (p : Option Nat) : (forceResult s p).length = 3 := by
  simp only [forceResult, List.length_append, leBytes_length]

/-- The result speaks of the forces, the produced values and the mapping. -/
theorem forceResult_congr {s t : State} (hi : t.img = s.img) (hc : t.config = s.config) (p : Option Nat) :
    forceResult t p = forceResult s p := by
  cases s; cases t; cases hi; cases hc; rfl

theorem unforceable_congr {s t : State} (hc : t.config = s.config) (p : Nat) : unforceable t p = unforceable s p := by
  simp only [unforceable, isMapped, mapRecs, hc]

theorem typedValue_congr {s t : State} (hc : t.config = s.config) (p : Nat) (y : BitVec 32) :
    typedValue t p y = typedValue s p y := by
  cases s; cases t; cases hc; rfl

/-- The request that waited has left its place. -/
def forceTaken (s : State) : State := { s with sess := { s.sess with force := none } }

/-- The answer of a FORCE at its tick leaves to a session still ACTIVE. -/
def forceAnswered (r : ForceReq) (x : Answer × State) : State :=
  if (getSession x.2 r.hdr.session).state = 2 then answerDone (getSession x.2 r.hdr.session) r.hdr svcWrite x.1 x.2 else x.2

theorem forceTick_eq {g : Int} {r : ForceReq} {s : State} (hf : s.sess.force = some r) (hr : forceReady s r g = true) :
    forceTick g s = forceAnswered r (forceAnswer r g (forceTaken s)) := by
  rw [forceTick, hf]
  dsimp only
  rw [hr, Bool.not_true, if_neg Bool.false_ne_true]
  rfl

/-- A FORCE whose point was unmapped meanwhile is refused and does nothing. -/
theorem forceAnswer_refused {r : ForceReq} {g : Int} {s : State} (h : r.op = 1 ∧ unforceable s r.point = true) :
    forceAnswer r g s = (.error (forceBad 0x28 1 r.point), s) := by
  rw [forceAnswer, if_pos h]

theorem forceAnswer_acts {r : ForceReq} {g : Int} {s : State} (h : ¬ (r.op = 1 ∧ unforceable s r.point = true)) :
    forceAnswer r g s = cmdNow 9 r.hdr.session (forceResult (forceAct r g s) (resultPoint r)) (forceAct r g s) := by
  rw [forceAnswer, if_neg h, resultPoint]

/-- An answer leaves the image, the configuration, the command objects and what waits. -/
theorem answerDone_leaves (ses : Session) (h : Hdr) (service : Nat) (a : Answer) (s : State) :
    (answerDone ses h service a s).img = s.img ∧ (answerDone ses h service a s).config = s.config ∧
      (answerDone ses h service a s).sess.cmds = s.sess.cmds ∧ (answerDone ses h service a s).sess.force = s.sess.force ∧
      (answerDone ses h service a s).sess.waiting = s.sess.waiting := by
  simp only [answerDone, send_fields]
  split <;> exact ⟨rfl, rfl, rfl, rfl, rfl⟩

theorem answerDone_sends (ses : Session) (h : Hdr) (service : Nat) (a : Answer) (s : State) :
    ∃ b, (answerDone ses h service a s).outbox.head? = some (framed b (answerMsg ses h service a)) := by
  simp only [answerDone, send_outbox, List.head?_cons]
  exact ⟨_, rfl⟩

/-- Answering a FORCE leaves all but the answer and its session. -/
theorem forceAnswered_leaves (r : ForceReq) (x : Answer × State) :
    (forceAnswered r x).img = x.2.img ∧ (forceAnswered r x).config = x.2.config ∧
      (forceAnswered r x).sess.cmds = x.2.sess.cmds ∧ (forceAnswered r x).sess.force = x.2.sess.force ∧
      (forceAnswered r x).sess.waiting = x.2.sess.waiting := by
  unfold forceAnswered
  split
  · exact answerDone_leaves ..
  · exact ⟨rfl, rfl, rfl, rfl, rfl⟩

theorem forceAct_sess (r : ForceReq) (g : Int) (s : State) : (forceAct r g s).sess = s.sess :=
  (forceAct_frame r g s).same .sess (by decide)

/-- The answer of a FORCE leaves the sessions and what waits. -/
theorem forceAnswer_sess (r : ForceReq) (g : Int) (s : State) :
    (forceAnswer r g s).2.sess.force = s.sess.force ∧ (forceAnswer r g s).2.sess.waiting = s.sess.waiting ∧
      (forceAnswer r g s).2.sess.sessions = s.sess.sessions := by
  by_cases h : r.op = 1 ∧ unforceable s r.point = true
  · rw [forceAnswer_refused h]
    exact ⟨rfl, rfl, rfl⟩
  · rw [forceAnswer_acts h, cmdNow_eq]
    simp only [modCmd, forceAct_sess, and_self]

section
variable {g : Int} {r : ForceReq} {s : State} (hf : s.sess.force = some r) (hr : forceReady s r g = true)
include hf hr

/-- No FORCE waits after its tick, and the messages that waited for it still do. -/
theorem forceTick_waits : (forceTick g s).sess.force = none ∧ (forceTick g s).sess.waiting = s.sess.waiting := by
  rw [forceTick_eq hf hr]
  obtain ⟨-, -, -, hforce, hwaiting⟩ := forceAnswered_leaves r (forceAnswer r g (forceTaken s))
  obtain ⟨hforce', hwaiting', -⟩ := forceAnswer_sess r g (forceTaken s)
  exact ⟨hforce.trans hforce', hwaiting.trans hwaiting'⟩

theorem forceTick_refused (h : r.op = 1 ∧ unforceable s r.point = true) : (forceTick g s).img.forces = s.img.forces := by
  rw [forceTick_eq hf hr, (forceAnswered_leaves ..).1, forceAnswer_refused (s := forceTaken s) h]
  rfl

/-- The image and the configuration after the tick of a FORCE are those it has made. -/
theorem forceTick_image (h : ¬ (r.op = 1 ∧ unforceable s r.point = true)) :
    (forceTick g s).img = (forceAct r g (forceTaken s)).img ∧ (forceTick g s).config = (forceAct r g (forceTaken s)).config := by
  rw [forceTick_eq hf hr]
  obtain ⟨himg, hconfig, -⟩ := forceAnswered_leaves r (forceAnswer r g (forceTaken s))
  rw [himg, hconfig, forceAnswer_acts (s := forceTaken s) h, cmdNow_eq]
  exact ⟨rfl, rfl⟩

theorem forceTick_result (h : ¬ (r.op = 1 ∧ unforceable s r.point = true)) :
    forceResult (forceTick g s) (resultPoint r) = forceResult (forceAct r g (forceTaken s)) (resultPoint r) :=
  forceResult_congr (forceTick_image hf hr h).1 (forceTick_image hf hr h).2 _

/-- FORCE is done with the result of Table 7.8. -/
theorem forceTick_cmd (h : ¬ (r.op = 1 ∧ unforceable s r.point = true)) :
    (getCmd (forceTick g s) 9).status = 2 ∧
      (getCmd (forceTick g s) 9).result.take 3 = forceResult (forceTick g s) (resultPoint r) := by
  have hcmd : getCmd (forceTick g s) 9 = getCmd (forceAnswer r g (forceTaken s)).2 9 := by
    rw [forceTick_eq hf hr, getCmd, (forceAnswered_leaves ..).2.2.1, getCmd]
  rw [hcmd, forceTick_result hf hr h, forceAnswer_acts (s := forceTaken s) h, cmdNow_eq, getCmd_modCmd, if_pos rfl]
  refine ⟨rfl, ?_⟩
  rw [List.take_take, List.take_append_of_le_length (by rw [forceResult_length]; decide),
    List.take_of_length_le (by rw [forceResult_length]; decide)]

/-- The result answers the request of a session still ACTIVE. -/
theorem forceTick_answers (h : ¬ (r.op = 1 ∧ unforceable s r.point = true)) (ha : (getSession s r.hdr.session).state = 2) :
    ∃ b, (forceTick g s).outbox.head? = some (framed b (answerMsg (getSession s r.hdr.session) r.hdr svcWrite
      (.ok (forceResult (forceTick g s) (resultPoint r))))) := by
  have hses : getSession (forceAnswer r g (forceTaken s)).2 r.hdr.session = getSession s r.hdr.session := by
    rw [getSession, (forceAnswer_sess ..).2.2]
    rfl
  have hok : (forceAnswer r g (forceTaken s)).1 = .ok (forceResult (forceAct r g (forceTaken s)) (resultPoint r)) := by
    rw [forceAnswer_acts (s := forceTaken s) h, cmdNow_eq]
  rw [forceTick_result hf hr h, forceTick_eq hf hr, forceAnswered, hses, if_pos ha, hok]
  exact answerDone_sends ..

end

/-! ### What is due first at a tick (16 R401) -/

theorem firstReleases_pair (s : State) : (firstReleases s).pair.state = s.pair.state := by
  rw [firstReleases]
  split
  · rfl
  · have hreleases (l : List Cycle) (w : State) :
        Untouched [.freeN, .outbox, .prog, .ring, .dio, .aio, .can] w (l.foldl (fun s c => releaseCycle c s) w) :=
      .foldl (fun _ c h => h.step (releaseCycle_frame c _) fun _ => id) l w (.refl ..)
    rw [(hreleases ..).same .pair (by decide)]

theorem forceReady_firstReleases (s : State) (r : ForceReq) (g : Int) : forceReady (firstReleases s) r g = forceReady s r g := by
  simp only [forceReady, needsAck, firstReleases_pair]

/-! ### The rest of a tick leaves the forces be (09 R201 to R204) -/

/-- The FORCE that waits, the messages that wait for it, and the forces in effect (07 R166, R167; 04 R77). -/
def forceView (s : State) : Option ForceReq × List Msg × List Force := (s.sess.force, s.sess.waiting, s.img.forces)

theorem forceView_of_frame {ps : List Part} {s t : State} (h : Untouched ps s t) (hs : Part.sess ∉ ps := by decide)
    (hi : Part.img ∉ ps := by decide) : forceView t = forceView s := by
  have hsess : t.sess = s.sess := h.same .sess hs
  have himg : t.img = s.img := h.same .img hi
  rw [forceView, hsess, himg, forceView]

theorem forceView_foldl {α : Type} {f : State → α → State} (hf : ∀ s x, forceView (f s x) = forceView s) (l : List α)
    (s : State) : forceView (l.foldl f s) = forceView s := by
  induction l generalizing s with
  | nil => rfl
  | cons x l ih => exact (ih (f s x)).trans (hf s x)

theorem forceView_forAll {f : Nat → State → State} (hf : ∀ n s, forceView (f n s) = forceView s) (l : List Nat) (s : State) :
    forceView (forAll l f s) = forceView s :=
  forceView_foldl (fun s n => hf n s) l s

theorem produceAll_forceView (ps : List Nat) (v : BitVec 32) (q : Nat) (ts : Int) (s : State) :
    forceView (produceAll ps v q ts s) = forceView s := by
  refine forceView_foldl (fun s p => ?_) ps s
  rw [produce, produceAs]
  split <;> rfl

theorem landUpdate_forceView (n : Nat) (t : Int) (r : LoopRel) (s : State) : forceView (landUpdate n t r s) = forceView s := by
  simp only [landUpdate, produceAll_forceView]

theorem releaseOne_forceView (n : Nat) (t : Int) (r : LoopRel) (s : State) : forceView (releaseOne n t r s) = forceView s := by
  unfold releaseOne
  dsimp only
  split
  · exact (produceAll_forceView ..).trans (forceView_of_frame (modLoop_frame ..))
  · have hshown (f : Loop → Loop) (u : State) (x : Prog) : forceView { modLoop n f u with prog := x } = forceView u := rfl
    refine (forceView_of_frame (releaseValues_frame ..)).trans ?_
    refine ((forceView_of_frame (releaseGroup_frame ..)).trans (hshown ..)).trans ?_
    split
    · rfl
    · exact landUpdate_forceView ..

theorem releaseDue_forceView (n : Nat) (due : LoopRel → Bool) (t : Int) (s : State) :
    forceView (releaseDue n due t s) = forceView s := by
  unfold releaseDue
  dsimp only
  split
  · rfl
  split
  · exact (forceView_foldl (fun u r => releaseOne_forceView n t r u) _ _).trans (forceView_of_frame (modLoop_frame ..))
  · exact forceView_of_frame (modLoop_frame ..)

theorem sampleTick_forceView (rd : Nat → Sample) (g : Int) (s : State) : forceView (sampleTick rd g s) = forceView s :=
  (forceView_of_frame (sampleSet_frame ..)).trans (forceView_forAll (fun n s => releaseDue_forceView n _ g s) _ s)

theorem produceTracker_forceView (n : Nat) (s : State) : forceView (produceTracker n s) = forceView s := by
  unfold produceTracker
  split
  · rfl
  · simp only [produceAll_forceView]

theorem enterTrk_forceView (n : Nat) (x : TrkState) (s : State) : forceView (enterTrk n x s) = forceView s := by
  unfold enterTrk
  dsimp only
  split
  · rfl
  · refine (produceTracker_forceView ..).trans ?_
    have hentered (t : State) : forceView (emit (0xC000 + x.num) (0x8000 + n) [] (modTracker n (fun y => { y with state := x }) t)) =
        forceView t := (forceView_of_frame (emit_frame ..)).trans (forceView_of_frame (modTracker_frame ..))
    split
    · exact (forceView_of_frame (scTrackerLeft_frame ..)).trans (hentered s)
    · exact hentered s

theorem pointTracker_forceView (n : Nat) (s : State) : forceView (pointTracker n s) = forceView s := by
  refine forceView_foldl (fun s p => ?_) _ s
  unfold pointUpdate
  dsimp only
  split
  · rfl
  · exact (enterTrk_forceView ..).trans (forceView_of_frame (modTracker_frame ..))

theorem waveTracker_forceView (n : Nat) (s : State) : forceView (waveTracker n s) = forceView s := by
  refine forceView_foldl (fun s p => ?_) _ s
  unfold waveUpdate
  dsimp only
  split
  · rfl
  · exact (enterTrk_forceView ..).trans (forceView_of_frame (modTracker_frame ..))

theorem tickTrackers_forceView (s : State) : forceView (tickTrackers s) = forceView s := by
  unfold tickTrackers
  split
  · rfl
  · refine forceView_forAll (fun n s => ?_) _ s
    split
    · rfl
    · exact (produceTracker_forceView ..).trans (pointTracker_forceView ..)
    · exact (produceTracker_forceView ..).trans (waveTracker_forceView ..)
    · exact produceTracker_forceView ..

theorem keepDirect_forceView (idx sub : Nat) (data : List Byte) (s : State) :
    forceView (keepDirect idx sub data s) = forceView s := rfl

/-- A direct value that takes effect leaves FORCE alone (04 R74). -/
theorem directEffect_forceView (key : Nat) (data : List Byte) (n : Nat) (s : State) :
    forceView (directEffect key data n s) = forceView s := by
  unfold directEffect
  dsimp only
  split
  · rfl
  split
  · exact (forceView_of_frame (emit_frame ..)).trans (keepDirect_forceView ..)
  split
  · exact forceView_of_frame (scArmNow_frame ..)
  split
  · exact forceView_of_frame (canRecoverNow_frame ..)
  split
  · exact forceView_of_frame (modAxis_frame ..)
  split
  · simp only [loopModeNow, apply_ite Prod.snd, apply_ite forceView, keepDirect_forceView, ite_self]
  · exact keepDirect_forceView ..

theorem commitDirect_forceView (q : Option Nat) (s : State) : forceView (commitDirect q s) = forceView s :=
  forceView_foldl (fun s (d : DirectWrite) => directEffect_forceView d.key d.data d.session s) _
    { s with sess := { s.sess with direct := s.sess.direct.filter (fun d => d.record != q) } }

/-- A record that leaves while no FORCE waits carries none. -/
theorem sendCommit_forceView {k : Nat} {c : List Nat} {s : State} (h : s.sess.force = none) :
    forceView (sendCommit k c s) = forceView s := by
  simp only [sendCommit, noteCarried, forceView, sendSync_fields, h, Option.map_none]

theorem commitTick_forceView {points : List Nat} {rd : Nat → Sample} {s : State} (h : s.sess.force = none) :
    forceView (commitTick points rd s) = forceView s := by
  unfold commitTick
  dsimp only
  split
  · exact (forceView_forAll (fun n s => forceView_of_frame (modLoop_frame ..)) _ _).trans (sendCommit_forceView h)
  · refine (commitDirect_forceView ..).trans ?_
    exact (forceView_of_frame (sealLoops_frame _)).trans (sendCommit_forceView h)
  · refine (commitDirect_forceView ..).trans ?_
    exact (forceView_of_frame (sealLoops_frame _)).trans rfl

/-- What ends a tick: trackers move on and slots are scanned. -/
theorem endTick_forceView (s : State) : forceView (closeTick (scanSlots (tickTrackers s))) = forceView s :=
  (forceView_of_frame (scanSlots_frame _)).trans (tickTrackers_forceView s)

/-- A tick after which no FORCE waits leaves the forces that FORCE left. -/
theorem engineTickState_forceView {s : State} (hu : up s = true) (hl : s.eng.lastTick ≠ gridAt s tickNs)
    (hf : (forceTick (gridAt s tickNs) (firstReleases s)).sess.force = none) :
    forceView (engineTickState s) = forceView (forceTick (gridAt s tickNs) (firstReleases s)) := by
  unfold engineTickState
  dsimp only
  rw [if_neg (by rw [hu, Bool.not_true, Bool.false_or, beq_iff_eq]; exact hl)]
  generalize forceTick (gridAt s tickNs) (firstReleases s) = w at hf ⊢
  split
  · exact commitDirect_forceView ..
  split
  · exact (endTick_forceView _).trans (commitDirect_forceView ..)
  split
  · exact (endTick_forceView _).trans (forceView_of_frame (tryHandover_frame _))
  · refine (endTick_forceView _).trans ?_
    generalize ht : sampleTick _ _ _ = t
    have hview : forceView t = forceView w := by
      rw [← ht, sampleTick_forceView, forceView_of_frame (sendInput_frame _)]
      rfl
    exact (commitTick_forceView ((congrArg Prod.fst hview).trans hf)).trans hview

/-- With no FORCE and no message waiting there is nothing to serve. -/
theorem serveWaiting_forceView {s : State} (hf : s.sess.force = none) (hw : s.sess.waiting = []) :
    forceView (serveWaiting s) = forceView s := by
  simp only [serveWaiting, hf, hw, Option.isSome_none, Bool.false_eq_true, if_false, List.foldl_nil, forceView]

/-- An engine tick at which a waiting FORCE acts, nothing else being due before it, leaves the forces as the FORCE did. -/
theorem execEngineTick_forces {t : Nat} {r : ForceReq} {s : State} (hu : up (advance t s) = true)
    (hl : (advance t s).eng.lastTick ≠ gridAt (advance t s) tickNs)
    (hp : (advance t s).prog.mode = .stop ∨
      ∀ p, (advance t s).sess.pending = some p → boundarySince (advance t s) p.since = false)
    (hf : (advance t s).sess.force = some r) (hr : forceReady (advance t s) r (gridAt (advance t s) tickNs) = true)
    (hw : (advance t s).sess.waiting = []) :
    ∃ u, exec (.engineTick t) s = .next u ∧ u.sess.force = none ∧
      u.img.forces = (forceTick (gridAt (advance t s) tickNs) (firstReleases (advance t s))).img.forces := by
  generalize hv : advance t s = v at hu hl hp hf hr hw ⊢
  have hfirst : applyFirst v = v := by
    by_cases hm : v.prog.mode = .stop
    · rw [applyFirst, if_pos hm]
    · exact applyFirst_none hm (hp.resolve_left hm)
  have hsess : (firstReleases v).sess = v.sess := (firstReleases_frame v).same .sess (by decide)
  obtain ⟨hforce, hwaiting⟩ := forceTick_waits (s := firstReleases v) (hsess ▸ hf)
    ((forceReady_firstReleases ..).trans hr)
  have htick := engineTickState_forceView hu hl hforce
  have hserve := serveWaiting_forceView ((congrArg Prod.fst htick).trans hforce)
    ((congrArg (·.2.1) htick).trans (hwaiting.trans (hsess ▸ hw)))
  refine ⟨serveWaiting (engineTickState v), ?_, ?_, ?_⟩
  · refine congrArg Host.Outcome.next ?_
    rw [hv, hfirst]
  · exact (congrArg Prod.fst (hserve.trans htick)).trans hforce
  · exact congrArg (·.2.2) (hserve.trans htick)

/-! ### FORCE as a whole (07 R166 to R168) -/

/-- A WRITE of FORCE that its checks admit is answered as the request it leaves waiting. -/
theorem rowReq_forceTake {t op p : Nat} {b : Byte} {y : BitVec 32} {c : Cmd} {s : State}
    (hw : writeHeard (found t s) c 0xF009 1 [b] = true)
    (hop : forceOp (b :: c.rest) c.hdr.session (served (found t s) c.hdr.session) =
      forceTake op p y (served (found t s) c.hdr.session)) :
    rowReq c 0xF009 1 [b] forceOp (advance t s) =
      respond (found t s) c.hdr svcWrite (.ok []) (forceTake op p y (served (found t s) c.hdr.session)).2 :=
  rowReq_answers hw (hop.trans (by rw [forceTake]))

theorem exec_forcePoint (t : Nat) (c : Cmd) (s : State) :
    exec (.forcePoint t c) s = .next (rowReq c 0xF009 1 [1] forceOp (advance t s)) := rfl

theorem exec_forceRelease (t : Nat) (c : Cmd) (s : State) :
    exec (.forceRelease t c) s = .next (rowReq c 0xF009 1 [2] forceOp (advance t s)) := rfl

theorem exec_forceReleaseAll (t : Nat) (c : Cmd) (s : State) :
    exec (.forceReleaseAll t c) s = .next (rowReq c 0xF009 1 [3] forceOp (advance t s)) := rfl

/-- The forces after the tick at which a FORCE acts are those it has made. -/
theorem forceTick_forces {g : Int} {r : ForceReq} {s : State} (hf : s.sess.force = some r) (hr : forceReady s r g = true)
    (h : ¬ (r.op = 1 ∧ unforceable s r.point = true)) :
    let u := forceTick g s
    (r.op = 1 → forceOf u r.point = some ⟨r.point, typedValue s r.point r.value, g⟩ ∧
      ∀ q, q ≠ r.point → forceOf u q = forceOf s q) ∧
    (r.op = 2 → forceOf u r.point = none ∧ ∀ q, q ≠ r.point → forceOf u q = forceOf s q) ∧
    (r.op = 3 → u.img.forces = []) := by
  intro u
  have himg : u.img = (forceAct r g (forceTaken s)).img := (forceTick_image hf hr h).1
  have hof (q : Nat) : forceOf u q = forceOf (forceAct r g (forceTaken s)) q := by rw [forceOf, himg, forceOf]
  simp only [hof, himg]
  exact forceAct_forces r g (forceTaken s)

/-- Settles O22: the request that is taken, the engine tick it acts at, and what it does there. -/
theorem forcesAreSetAndReleased : Obligations.ForcesAreSetAndReleased := by
  refine ⟨?_, ?_, ?_⟩
  · intro t c s v p x waits
    refine ⟨fun hw hp hu hb hroom => ?_, fun hw hp => ⟨0, ?_⟩, fun hw => ⟨0, 0, ?_⟩⟩
    · have hop := forceOp_takes_point (n := c.hdr.session) (s := v) (fieldAt_first 1 c.rest) hp hu hb hroom
      rw [exec_forcePoint, rowReq_forceTake hw hop, respond_forceTake]
    · have hop := forceOp_takes_release (n := c.hdr.session) (s := v) (fieldAt_first 2 c.rest) hp
      rw [exec_forceRelease, rowReq_forceTake hw hop, respond_forceTake]
    · have hop := forceOp_takes_releaseAll (n := c.hdr.session) (s := v) (fieldAt_first 3 c.rest)
      rw [exec_forceReleaseAll, rowReq_forceTake hw hop, respond_forceTake]
  · intro t r s v g hu hl hp hf hr hw
    obtain ⟨u, hexec, hforce, hforces⟩ := execEngineTick_forces (t := t) (s := s) hu hl hp hf hr hw
    have hsess : (firstReleases v).sess = v.sess := (firstReleases_frame v).same .sess (by decide)
    have hconfig : (firstReleases v).config = v.config := (firstReleases_frame v).same .config (by decide)
    have hacts := forceTick_forces (s := firstReleases v) (hsess ▸ hf) ((forceReady_firstReleases v r g).trans hr)
    refine ⟨u, hexec, hforce, fun ho => ?_, fun ho hmapped => ?_⟩
    · rw [hforces]
      exact (hacts fun h => by omega).2.2 ho
    · have hset := ((hacts fun h => Bool.false_ne_true
        (((unforceable_congr hconfig _).trans hmapped).symm.trans h.2)).1 ho).1
      rw [typedValue_congr hconfig] at hset
      rw [forceOf, hforces]
      exact hset
  · intro g r s hf hr u
    refine ⟨(forceTick_waits hf hr).1, ?_⟩
    intro refused
    refine ⟨forceTick_refused hf hr, fun ho hmapped => ?_, fun ho => ?_, fun ho => ?_,
      forceTick_cmd hf hr, forceTick_answers hf hr⟩
    · exact (forceTick_forces hf hr fun h => Bool.false_ne_true (hmapped.symm.trans h.2)).1 ho
    · exact (forceTick_forces hf hr fun h => by omega).2.1 ho
    · exact (forceTick_forces hf hr fun h => by omega).2.2 ho

end Sys2Proof.Machine
end

section
/-! SUPPORT. How a word of code runs: it finds its cycle, changes it, and the cycle stays the one in execution (08 R175,
R182). -/

namespace Sys2Proof

/-- A search that no entry at `k` meets does not see a write of `k`. -/
theorem Tbl.any_put {α : Type} [DecidableEq α] (m : Tbl α) (d : α) (k : Nat) (v : α) (p : Nat × α → Bool)
    (h : ∀ w, p (k, w) = false) : (Tbl.put m d k v).any p = m.any p := by
  unfold Tbl.put
  split
  · induction m with
    | nil => rfl
    | cons e r ih =>
      obtain ⟨j, w⟩ := e
      by_cases hj : j = k
      · subst hj
        simpa [Tbl.erase, h] using ih
      · simpa [Tbl.erase, hj] using congrArg (p (j, w) || ·) ih
  · induction m with
    | nil => simp [Tbl.insert, h]
    | cons e r ih =>
      obtain ⟨j, w⟩ := e
      simp only [Tbl.insert]
      split
      · simp [h]
      · split
        · rename_i hj
          subst hj
          simp [h]
        · simp [ih]

end Sys2Proof

namespace Sys2Proof.Machine

/-! ### The cycle in execution -/

/-- A task's own entry never takes its core from it. -/
theorem preempted_modTask (k : Nat) (f : Task → Task) (s : State) : preempted (modTask k f s) k = preempted s k := by
  refine Tbl.any_put _ _ _ _ _ fun w => ?_
  split
  · simp
  · rfl

theorem ctxCycle_task {k : Fin 48} {c : Cycle} {s : State} (h : ctxCycle s (.task k) = some c) :
    (appUp s && !preempted s k) = true ∧ (getTask s k).cycle = some c := by
  simp only [ctxCycle] at h
  split at h
  next hrun => exact ⟨hrun, h⟩
  · exact absurd h (by simp)

/-- A change of a task that executes shows in its context. -/
theorem ctxCycle_modTask {k : Fin 48} {c : Cycle} {s : State} (f : Task → Task) (h : ctxCycle s (.task k) = some c) :
    ctxCycle (modTask k f s) (.task k) = (f (getTask s k)).cycle := by
  have hrun : (appUp (modTask k f s) && !preempted (modTask k f s) k) = true := by
    rw [preempted_modTask]
    exact (ctxCycle_task h).1
  rw [ctxCycle, if_pos hrun, getTask_modTask, if_pos rfl]

/-- The cycle that a word leaves is the one in execution after it. -/
theorem ctxCycle_setCycle {x : Ctx} {c : Cycle} {s : State} (d : Cycle) (h : ctxCycle s x = some c) :
    ctxCycle (setCycle x d s) x = some d := by
  cases x with
  | task k => exact ctxCycle_modTask _ h
  | passA =>
    simp only [ctxCycle] at h
    split at h
    next hrun => exact if_pos hrun
    · exact absurd h (by simp)
  | passB =>
    simp only [ctxCycle] at h
    split at h
    next hrun => exact if_pos hrun
    · exact absurd h (by simp)

/-- ARITH is a flag beside the cycle. -/
theorem ctxCycle_noteArith {x : Ctx} {c : Cycle} {s : State} (b : Bool) (h : ctxCycle s x = some c) :
    ctxCycle (noteArith x b s) x = some c := by
  cases x with
  | task k =>
    cases b with
    | false => exact h
    | true => exact (ctxCycle_modTask _ h).trans (ctxCycle_task h).2
  | passA => exact h
  | passB => exact h

/-- A word changes the cycle of its context and not the points. -/
theorem setCycle_img (x : Ctx) (c : Cycle) (s : State) : (setCycle x c s).img = s.img :=
  (setCycle_frame x c s).same .img (by decide)

/-- A cycle's changes are no committed data (R187). -/
theorem setCycle_committed (x : Ctx) (c : Cycle) (s : State) :
    (setCycle x c s).prog.inst = s.prog.inst ∧ (setCycle x c s).prog.glob = s.prog.glob ∧
      (setCycle x c s).prog.ret = s.prog.ret := by
  cases x <;> exact ⟨rfl, rfl, rfl⟩

/-! ### A word executes -/

/-- A word at the program counter of a context that executes runs there. -/
theorem onCode_runs {x : Ctx} {w : BitVec 32} {f : Cycle → State → State} {c : Cycle} {s : State}
    (hc : ctxCycle (noteStart x s) x = some c) (hw : atWord s x w = true) : onCode x w f s = f c (noteStart x s) := by
  simp only [onCode, hw, if_true, onWord, hc]

theorem withReg_some {x : Ctx} {w : Nat} {c : Cycle} {v : Word64} {f : Word64 → State → State} {s : State}
    (h : readReg s x c w = some v) : withReg x w c f s = f v s := by
  simp only [withReg, h]

end Sys2Proof.Machine
end

section
/-! SUPPORT. An abandoned cycle leaves no trace (08 R186, R187). -/

namespace Sys2Proof.Machine

/-- A cycle is taken from the committed data, whatever the tasks are doing. -/
theorem newCycle_modTask (j k : Nat) (f : Task → Task) (clock : Int) (step : Bool) (s : State) :
    newCycle (modTask j f s) k clock step = newCycle s k clock step := rfl

/-- The program but for the states of its tasks. -/
def tasklessProg (s : State) : Prog := { s.prog with tasks := [] }

theorem tasklessProg_modTask (k : Nat) (f : Task → Task) (s : State) : tasklessProg (modTask k f s) = tasklessProg s := rfl

/-- With the same program but for its tasks, what is committed and released is the same. -/
theorem committed_of_tasklessProg {u s : State} (h : tasklessProg u = tasklessProg s) :
    u.prog.released = s.prog.released ∧ u.prog.inst = s.prog.inst ∧ u.prog.glob = s.prog.glob ∧
      u.prog.ret = s.prog.ret ∧ u.prog.blocks = s.prog.blocks :=
  ⟨(congrArg Prog.released h :), (congrArg Prog.inst h :), (congrArg Prog.glob h :), (congrArg Prog.ret h :),
    (congrArg Prog.blocks h :)⟩

theorem newCycle_abandonCycle (j k : Nat) (clock : Int) (step : Bool) (s : State) :
    newCycle (abandonCycle j s) k clock step = newCycle s k clock step := by
  unfold abandonCycle
  split
  · rfl
  · exact newCycle_modTask ..

theorem tasklessProg_abandonCycle (k : Nat) (s : State) : tasklessProg (abandonCycle k s) = tasklessProg s := by
  unfold abandonCycle
  split <;> rfl

theorem abandonCycle_ends (k : Nat) (s : State) : (getTask (abandonCycle k s) k).cycle = none := by
  cases h : (getTask s k).cycle with
  | none => simp [abandonCycle, h]
  | some c => simp [abandonCycle_some h]

/-- A task fault as it is noted, before TASK_OVERRUN_POLICY acts (R186). -/
def faultNoted (k kind off : Nat) (s : State) : State :=
  emit (0x3100 + kind) (0x7000 + k) (leBytes 4 off)
    (modTask k (fun t => { t with faulted := true, faults := sat 32 (t.faults + 1) }) (abandonCycle k s))

theorem taskFault_eq (k kind off : Nat) (s : State) : taskFault k kind off s =
    if faultStops s k then enterStop 2 (faultNoted k kind off s) else faultNoted k kind off s := by
  have hconfig : (faultNoted k kind off s).config = s.config := by
    simp only [faultNoted, emit_fields, modTask_fields]
    exact (abandonCycle_frame k s).same .config (by decide)
  have hpolicy : faultStops (faultNoted k kind off s) k = faultStops s k := by
    simp only [faultStops, cfgNat, cfgBytes, hconfig]
  rw [← hpolicy]
  rfl

/-- A task fault counts, and the cycle it met is abandoned. -/
theorem faultNoted_task {k kind off : Nat} {c : Cycle} {s : State} (h : (getTask s k).cycle = some c) :
    (getTask (faultNoted k kind off s) k).cycle = none ∧ (getTask (faultNoted k kind off s) k).faulted = true ∧
      (getTask (faultNoted k kind off s) k).abandoned = true ∧
      (getTask (faultNoted k kind off s) k).faults = sat 32 ((getTask s k).faults + 1) := by
  have hprog : getTask (faultNoted k kind off s) k = getTask
      (modTask k (fun t => { t with faulted := true, faults := sat 32 (t.faults + 1) }) (abandonCycle k s)) k := by
    simp only [faultNoted, getTask, emit_fields]
  simp [hprog, abandonCycle_some h]

/-- A task fault commits and releases nothing. -/
theorem faultNoted_leaves (k kind off : Nat) (s : State) :
    (faultNoted k kind off s).img = s.img ∧ tasklessProg (faultNoted k kind off s) = tasklessProg s := by
  simp only [faultNoted, tasklessProg, emit_fields, modTask_fields]
  exact ⟨(abandonCycle_frame k s).same .img (by decide), tasklessProg_abandonCycle k s⟩

/-- SYS trap in a task is a task fault (R186). -/
theorem execSysTrap_task {t arg : Nat} {k : Fin 48} {c : Cycle} {s : State}
    (hc : ctxCycle (noteStart (.task k) (advance t s)) (.task k) = some c)
    (hw : atWord (advance t s) (.task k) (sysWord 3 arg) = true) : exec (.sysTrap t (.task k) arg) s =
      .next (taskFault k faultTrap c.pc (noteStart (.task k) (advance t s))) :=
  congrArg Host.Outcome.next (onCode_runs hc hw)

/-- Settles O58, by what an abandoned cycle and the fault that abandons it leave. -/
theorem abandonedCyclesLeaveNoTrace : Obligations.AbandonedCyclesLeaveNoTrace := by
  refine ⟨fun k s => ?_, ?_⟩
  · intro u
    have frame : Untouched [.prog] s u := abandonCycle_frame k s
    obtain ⟨hreleased, hinst, hglob, hret, hblocks⟩ := committed_of_tasklessProg (tasklessProg_abandonCycle k s)
    refine ⟨abandonCycle_ends k s, frame.same .img (by decide), frame.same .can (by decide), hreleased, hinst, hglob, hret,
      hblocks, fun clock step => ?_⟩
    intro fresh
    have hfresh : fresh = newCycle s k clock step := newCycle_abandonCycle k k clock step s
    refine ⟨hfresh, fun hheld => ?_, rfl, rfl, rfl, rfl, rfl⟩
    simp only [hfresh, newCycle, hheld, List.foldl_nil, and_self]
  · intro t arg k c s v hc hw hgoes
    obtain ⟨himg, hkept⟩ := faultNoted_leaves k faultTrap c.pc v
    obtain ⟨hended, -, -, -⟩ := faultNoted_task (kind := faultTrap) (off := c.pc) (ctxCycle_task hc).2
    refine ⟨faultNoted k faultTrap c.pc v, ?_, hended, himg, committed_of_tasklessProg hkept⟩
    rw [execSysTrap_task hc hw, taskFault_eq, hgoes]
    rfl

end Sys2Proof.Machine
end

section
/-! SUPPORT. What is written in bytes is read back from them, in byte stores, in a cycle's writes, and in coded words (00 R6;
08 R178; 10 R238). -/

namespace Sys2Proof

theorem leBytes_succ (n v : Nat) : leBytes (n + 1) v = BitVec.ofNat 8 v :: leBytes n (v / 256) := by
  simp only [leBytes, List.range_succ_eq_map, List.map_cons, List.map_map, Nat.pow_zero, Nat.div_one, List.cons.injEq,
    true_and]
  refine List.map_congr_left fun i _ => ?_
  simp only [Function.comp_apply, Nat.pow_succ', ← Nat.div_div_eq_div_mul]

/-- Bytes give back the value they were taken from, as far as they reach (R6). -/
theorem leVal_leBytes (n v : Nat) : leVal (leBytes n v) = v % 256 ^ n := by
  induction n generalizing v with
  | zero => simp [leBytes, leVal, Nat.mod_one]
  | succ n ih =>
    rw [leBytes_succ, leVal, ih, BitVec.toNat_ofNat]
    exact (Nat.pow_succ' ▸ Nat.mod_mul).symm

/-- A word's four bytes hold it. -/
theorem ofNat_leVal_leBytes (v : BitVec 32) : BitVec.ofNat 32 (leVal (leBytes 4 v.toNat)) = v := by
  have hfits : v.toNat % 256 ^ 4 = v.toNat := Nat.mod_eq_of_lt v.isLt
  rw [leVal_leBytes, hfits, BitVec.ofNat_toNat, BitVec.setWidth_eq]

/-- A word of a byte store, after its bytes were written. -/
theorem Memory.readN_writeN (m : Memory) (a : Nat) (bs : List Byte) : Memory.readN (Memory.writeN m a bs) a bs.length = bs := by
  refine List.ext_getElem (by simp [Memory.readN]) fun i hi hi' => ?_
  simp [Memory.readN, Memory.read_writeN, hi']

theorem Tbl.length_insert_le {α : Type} (m : Tbl α) (k : Nat) (v : α) : (Tbl.insert m k v).length ≤ m.length + 1 := by
  induction m with
  | nil => simp [Tbl.insert]
  | cons e r ih =>
    obtain ⟨j, w⟩ := e
    simp only [Tbl.insert]
    split
    · simp
    · split
      · simp
      · simpa using ih

end Sys2Proof

namespace Sys2Proof.Machine

/-! ### A cycle's own writes (R178, R187) -/

theorem find_putBytes (bs : List Byte) (w : Tbl Byte) (a j : Nat) :
    Tbl.find (putBytes w a bs) j = if a ≤ j ∧ j < a + bs.length then bs[j - a]? else Tbl.find w j := by
  induction bs generalizing w a with
  | nil => rw [putBytes, if_neg (by simp)]
  | cons b r ih =>
    rw [putBytes, ih, Tbl.find_insert, List.length_cons]
    rcases Nat.lt_trichotomy j a with h | rfl | h
    · rw [if_neg (by omega), if_neg (by omega), if_neg (by omega)]
    · rw [if_neg (by omega), if_pos rfl, if_pos (by omega), Nat.sub_self, List.getElem?_cons_zero]
    · obtain ⟨i, rfl⟩ : ∃ i, j = a + 1 + i := ⟨j - (a + 1), by omega⟩
      have hi : a + 1 + i - (a + 1) = i := by omega
      have hi' : a + 1 + i - a = i + 1 := by omega
      simp only [hi, hi', List.getElem?_cons_succ]
      by_cases hr : i < r.length
      · rw [if_pos (by omega), if_pos (by omega)]
      · rw [if_neg (by omega), if_neg (by omega), if_neg (by omega)]

theorem length_putBytes_le (bs : List Byte) (w : Tbl Byte) (a : Nat) : (putBytes w a bs).length ≤ w.length + bs.length := by
  induction bs generalizing w a with
  | nil => exact Nat.le_refl _
  | cons b r ih =>
    have hrest := ih (Tbl.insert w a b) (a + 1)
    have hone := Tbl.length_insert_le w a b
    simp only [putBytes, List.length_cons]
    omega

/-- A byte of a word that a cycle wrote. -/
theorem find_putBytes_leBytes {i n : Nat} (h : i < n) (w : Tbl Byte) (a v : Nat) :
    Tbl.find (putBytes w a (leBytes n v)) (a + i) = some (BitVec.ofNat 8 (v / 256 ^ i)) := by
  have hlen : (leBytes n v).length = n := leBytes_length n v
  rw [find_putBytes, if_pos (by omega), Nat.add_sub_cancel_left]
  simp [leBytes, h]

/-! ### Coded words (10 R238) -/

theorem codedValue_range (v : Word64) : -(2 ^ 31 : Nat) ≤ codedValue v ∧ codedValue v < (2 ^ 32 : Nat) := by
  unfold codedValue
  split
  · assumption
  · have hlo := BitVec.le_toInt (v.truncate 32 : BitVec 32)
    have hhi := BitVec.toInt_lt (x := (v.truncate 32 : BitVec 32))
    constructor <;> omega

/-- A coded word of the cycle holds the value it was given. -/
theorem decodeInt_encodeInt (k : Nat) {q : Int} (hlo : -(2 ^ 31 : Nat) ≤ q) (hhi : q < (2 ^ 32 : Nat)) :
    decodeInt k (encodeInt k q) = some q := by
  have hd : encodeInt k q - tagOf k = codeA * q := by
    unfold encodeInt
    omega
  have hq : codeA * q / codeA = q := Int.mul_ediv_cancel_left q (by decide)
  simp only [decodeInt, hd, hq, Int.mul_emod_right, hlo, hhi, and_self, if_true]

end Sys2Proof.Machine
end

section
/-! SUPPORT. REG, IMM and FRAME words: what each leaves of its cycle, and what a load gives after a store (08 R175, R178,
R186; 10 R238 to R240). -/

namespace Sys2Proof.Machine

variable {x : Ctx} {c : Cycle} {s : State}

/-! ### REG and IMM -/

theorem regState_runs {op dst a b ty : Nat} {va vb : Word64} (hc : ctxCycle (noteStart x s) x = some c)
    (hw : atWord s x (regWord op dst a b ty) = true) (ha : readReg (noteStart x s) x c a = some va)
    (hb : readReg (noteStart x s) x c b = some vb) (hta : typeValid x ty va = true) (htb : typeValid x ty vb = true)
    (hin : Config.regBounds op ty (ofType x ty va) (ofType x ty vb) = false) :
    let r := regResult op ty (ofType x ty va) (ofType x ty vb)
    regState x op dst a b ty s = noteArith x r.2
      (setCycle x (stepped (putReg (noteStart x s) x dst (ofType x ty r.1) c)) (noteStart x s)) := by
  simp only [regState, onCode_runs hc hw, withReg_some ha, withReg_some hb, hta, htb, hin, Bool.not_true, Bool.or_self,
    Bool.false_eq_true, if_false]

/-- An integer division by zero gives 0 and ARITH (R186). -/
theorem regResult_divZero {op ty : Nat} {va vb : Word64} (hop : Config.regDivides op = true) (hty : intBytes ty ≠ 0)
    (hz : vb.toNat % 2 ^ (8 * intBytes ty) = 0) : regResult op ty va vb = (0, true) := by
  simp only [regResult, hop, hty, hz, ne_eq, not_false_eq_true, and_self, if_true]

theorem noteArith_sets (k : Fin 48) (s : State) : (getTask (noteArith (.task k) true s) k).arith = true := by
  simp only [noteArith, if_true, getTask_modTask]

theorem noteArith_img (x : Ctx) (b : Bool) (s : State) : (noteArith x b s).img = s.img :=
  (noteArith_frame x b s).same .img (by decide)

/-- After a word that writes a register its cycle is in execution, and the points are as they were. -/
theorem noteArith_setCycle_leaves (d : Cycle) (b : Bool) (hc : ctxCycle s x = some c) :
    ctxCycle (noteArith x b (setCycle x d s)) x = some d ∧ (noteArith x b (setCycle x d s)).img = s.img :=
  ⟨ctxCycle_noteArith b (ctxCycle_setCycle d hc), (noteArith_img ..).trans (setCycle_img ..)⟩

theorem immState_runs {op dst imm : Nat} {vd : Word64} (hc : ctxCycle (noteStart x s) x = some c)
    (hw : atWord s x (immWord op dst imm) = true) (hd : readReg (noteStart x s) x c dst = some vd) :
    let r := immResult op (untyped x vd) (signedExt c 15 imm)
    immState x op dst imm s = noteArith x r.2
      (setCycle x (stepped (putReg (noteStart x s) x dst (untyped x r.1) c)) (noteStart x s)) := by
  simp only [immState, onCode_runs hc hw, withReg_some hd]

/-! ### FRAME -/

theorem frameLoadState_runs {w base off : Nat} {val : Word64} (hc : ctxCycle (noteStart x s) x = some c)
    (hw : atWord s x (frameWord32 0 w base off) = true)
    (hin : frameFault (noteStart x s) x (base % 4) (frameAddr c (base % 4) off) = false)
    (hv : loadWord (noteStart x s) x c (base % 4) (frameAddr c (base % 4) off) = some val) :
    frameLoadState x w base off s = setCycle x (stepped (putReg (noteStart x s) x w val c)) (noteStart x s) := by
  simp only [frameLoadState, onCode_runs hc hw, hin, hv, Bool.false_eq_true, if_false]

/-- A task's cycle with a word written at an address of a data area. -/
def frameWritten (base a : Nat) (v : BitVec 32) (c : Cycle) : Cycle :=
  match base with
  | 0 => { c with wInst := putBytes c.wInst a (leBytes 4 v.toNat) }
  | 1 => { c with wGlob := putBytes c.wGlob a (leBytes 4 v.toNat) }
  | 2 => { c with wRet := putBytes c.wRet a (leBytes 4 v.toNat) }
  | _ => c

theorem dirtyBytes_frameWritten_le (base a : Nat) (v : BitVec 32) (c : Cycle) :
    dirtyBytes (frameWritten base a v c) ≤ dirtyBytes c + 4 := by
  have hput (w : Tbl Byte) : (putBytes w a (leBytes 4 v.toNat)).length ≤ w.length + 4 :=
    leBytes_length 4 v.toNat ▸ length_putBytes_le (leBytes 4 v.toNat) w a
  unfold frameWritten
  split
  · have := hput c.wInst
    simp only [dirtyBytes]
    omega
  · have := hput c.wGlob
    simp only [dirtyBytes]
    omega
  · have := hput c.wRet
    simp only [dirtyBytes]
    omega
  · omega

theorem dirtyChecked_goesOn (h : dirtyBytes c ≤ 131072) : dirtyChecked x c s = setCycle x (stepped c) s :=
  if_neg (Nat.not_lt.2 h)

theorem frameStoreState_task {k : Fin 48} {w base off : Nat} {vr : Word64}
    (hc : ctxCycle (noteStart (.task k) s) (.task k) = some c)
    (hw : atWord s (.task k) (frameWord32 1 w base off) = true)
    (hr : readReg (noteStart (.task k) s) (.task k) c w = some vr)
    (hin : frameFault (noteStart (.task k) s) (.task k) (base % 4) (frameAddr c (base % 4) off) = false)
    (hfits : dirtyBytes c + 4 ≤ 131072) :
    frameStoreState (.task k) w base off s = setCycle (.task k)
      (stepped (frameWritten (base % 4) (frameAddr c (base % 4) off) (vr.truncate 32) c)) (noteStart (.task k) s) := by
  rw [← dirtyChecked_goesOn (Nat.le_trans (dirtyBytes_frameWritten_le ..) hfits)]
  simp only [frameStoreState, onCode_runs hc hw, withReg_some hr, hin, Bool.false_eq_true, if_false]
  rfl

theorem frameStoreState_pass {w base off : Nat} {vr : Word64} (hx : x = .passA ∨ x = .passB)
    (hc : ctxCycle (noteStart x s) x = some c) (hw : atWord s x (frameWord32 1 w base off) = true)
    (hr : readReg (noteStart x s) x c w = some vr) (hb : base % 4 ≠ 3)
    (hin : frameFault (noteStart x s) x (base % 4) (frameAddr c (base % 4) off) = false) :
    frameStoreState x w base off s = passStore x (plainAddr (base % 4) (frameAddr c (base % 4) off)) vr
      (setCycle x (stepped c) (noteStart x s)) := by
  rcases hx with rfl | rfl <;>
    simp only [frameStoreState, onCode_runs hc hw, withReg_some hr, hin, hb, Bool.false_eq_true, if_false]

/-- A byte of the word a task's cycle wrote. -/
theorem taskByte_frameWritten {base i : Nat} (hb : base < 3) (hi : i < 4) (k a : Nat) (v : BitVec 32) (c : Cycle) (s : State) :
    taskByte s k (stepped (frameWritten base a v c)) base (a + i) = BitVec.ofNat 8 (v.toNat / 256 ^ i) := by
  match base with
  | 0 => simp only [taskByte, stepped, frameWritten, find_putBytes_leBytes hi, Option.getD_some]
  | 1 => simp only [taskByte, overlaid, stepped, frameWritten, find_putBytes_leBytes hi, Option.getD_some]
  | 2 => simp only [taskByte, overlaid, stepped, frameWritten, find_putBytes_leBytes hi, Option.getD_some]

/-- A task loads the word it stored. -/
theorem loadWord_frameWritten {base : Nat} (hb : base < 3) (k : Fin 48) (a : Nat) (v : BitVec 32) (c : Cycle) (s : State) :
    loadWord s (.task k) (stepped (frameWritten base a v c)) base a = some (widen (.task k) v) := by
  have hbytes : (List.range 4).map (fun i => taskByte s k (stepped (frameWritten base a v c)) base (a + i)) =
      leBytes 4 v.toNat :=
    List.map_congr_left fun i hi => taskByte_frameWritten hb (List.mem_range.1 hi) k a v c s
  simp only [loadWord, hbytes, ofNat_leVal_leBytes]

/-- A pass's write leaves its cycle, and the committed data of the tasks. -/
theorem passStore_leaves (x : Ctx) (a : Nat) (v : Word64) (s : State) :
    ctxCycle (passStore x a v s) x = ctxCycle s x ∧ (passStore x a v s).prog = s.prog := by
  cases x <;> exact ⟨rfl, rfl⟩

/-- Pass A loads the 32 bits it stored. -/
theorem loadWord_passStore_A {base : Nat} (hb : base ≠ 3) (a : Nat) (v : Word64) (d : Cycle) (s : State) :
    loadWord (passStore .passA (plainAddr base a) v s) .passA d base a = some (widen .passA (v.truncate 32)) := by
  have hword (m : Memory) (n : Nat) (w : BitVec 32) : wordAt (Memory.writeN m n (leBytes 4 w.toNat)) n = w := by
    have := Memory.readN_writeN m n (leBytes 4 w.toNat)
    rw [leBytes_length] at this
    rw [wordAt, this, ofNat_leVal_leBytes]
  simp only [loadWord, if_neg hb, passStore, hword]

/-- Pass B loads the value it stored, in this cycle's code. -/
theorem loadWord_passStore_B {base : Nat} (hb : base ≠ 3) (a : Nat) (v : Word64) (d : Cycle) (s : State) :
    loadWord (passStore .passB (plainAddr base a) v s) .passB d base a = some (BitVec.ofInt 64 (codedValue v)) := by
  obtain ⟨hlo, hhi⟩ := codedValue_range v
  simp only [loadWord, if_neg hb, passStore, Tbl.find_insert, if_true, decodeInt_encodeInt _ hlo hhi, Option.map_some]

end Sys2Proof.Machine
end

section
/-! SUPPORT. The statement about REG, IMM and FRAME words. -/

namespace Sys2Proof.Machine

/-- A task stores a word, and loads it from there. -/
theorem execFrameStore_task {t w base off : Nat} {k : Fin 48} {c : Cycle} {vr : Word64} {s : State}
    (hc : ctxCycle (noteStart (.task k) (advance t s)) (.task k) = some c)
    (hw : atWord (advance t s) (.task k) (frameWord32 1 w base off) = true)
    (hr : readReg (noteStart (.task k) (advance t s)) (.task k) c w = some vr) (hb : base % 4 ≠ 3)
    (hin : frameFault (noteStart (.task k) (advance t s)) (.task k) (base % 4) (frameAddr c (base % 4) off) = false)
    (hfits : dirtyBytes c + 4 ≤ 131072) :
    ∃ u c', exec (.frameStore t (.task k) w base off) s = .next u ∧ ctxCycle u (.task k) = some c' ∧ c'.pc = c.pc + 1 ∧
      loadWord u (.task k) c' (base % 4) (frameAddr c (base % 4) off) = some (widen (.task k) (vr.truncate 32)) ∧
      u.prog.inst = (noteStart (.task k) (advance t s)).prog.inst ∧
      u.prog.glob = (noteStart (.task k) (advance t s)).prog.glob ∧
      u.prog.ret = (noteStart (.task k) (advance t s)).prog.ret := by
  have hpc (b a : Nat) (v : BitVec 32) : (frameWritten b a v c).pc = c.pc := by
    unfold frameWritten
    split <;> rfl
  exact ⟨_, _, congrArg Host.Outcome.next (frameStoreState_task hc hw hr hin hfits), ctxCycle_setCycle _ hc,
    congrArg (· + 1) (hpc ..), loadWord_frameWritten (by omega) .., setCycle_committed ..⟩

/-- A pass stores a word: its cycle goes on, and no task's data change. -/
theorem execFrameStore_pass {t w base off : Nat} {x : Ctx} {c : Cycle} {vr : Word64} {s : State}
    (hx : x = .passA ∨ x = .passB) (hc : ctxCycle (noteStart x (advance t s)) x = some c)
    (hw : atWord (advance t s) x (frameWord32 1 w base off) = true)
    (hr : readReg (noteStart x (advance t s)) x c w = some vr) (hb : base % 4 ≠ 3)
    (hin : frameFault (noteStart x (advance t s)) x (base % 4) (frameAddr c (base % 4) off) = false) :
    let v := noteStart x (advance t s)
    let u := passStore x (plainAddr (base % 4) (frameAddr c (base % 4) off)) vr (setCycle x (stepped c) v)
    exec (.frameStore t x w base off) s = .next u ∧ ctxCycle u x = some (stepped c) ∧
      u.prog.inst = v.prog.inst ∧ u.prog.glob = v.prog.glob ∧ u.prog.ret = v.prog.ret := by
  intro v u
  obtain ⟨hcycle, hprog⟩ : ctxCycle u x = _ ∧ u.prog = _ := passStore_leaves ..
  rw [hcycle, hprog]
  exact ⟨congrArg Host.Outcome.next (frameStoreState_pass hx hc hw hr hb hin), ctxCycle_setCycle _ hc, setCycle_committed ..⟩

/-- Settles O42, word by word: each changes its cycle by its own equation, and a word stored is loaded back in the three
contexts by what each of them stores. -/
theorem wordsComputeLoadAndStore : Obligations.WordsComputeLoadAndStore := by
  intro t x c s v here divZero hc
  refine ⟨?_, ?_, ?_, ?_, ?_⟩
  · intro op dst a b ty va vb hw ha hb hta htb p q hin
    obtain ⟨hcycle, himg⟩ := noteArith_setCycle_leaves
      (stepped (putReg v x dst (ofType x ty (regResult op ty p q).1) c)) (regResult op ty p q).2 hc
    refine ⟨_, congrArg Host.Outcome.next (regState_runs hc hw ha hb hta htb hin), himg, hcycle, ?_⟩
    rintro ⟨hop, hty, hz⟩
    have hr : regResult op ty p q = (0, true) := regResult_divZero hop hty hz
    refine ⟨congrArg Prod.fst hr, ?_⟩
    rintro k rfl
    exact hr ▸ noteArith_sets k _
  · intro op dst imm vd hw hd
    obtain ⟨hcycle, himg⟩ := noteArith_setCycle_leaves
      (stepped (putReg v x dst (untyped x (immResult op (untyped x vd) (signedExt c 15 imm)).1) c))
      (immResult op (untyped x vd) (signedExt c 15 imm)).2 hc
    exact ⟨_, congrArg Host.Outcome.next (immState_runs hc hw hd), hcycle, himg⟩
  · intro w base off hw
    exact ⟨_, congrArg Host.Outcome.next (onCode_runs hc hw), ctxCycle_setCycle _ hc⟩
  · intro w base off val hw hin hv
    exact ⟨_, congrArg Host.Outcome.next (frameLoadState_runs hc hw hin hv), ctxCycle_setCycle _ hc, setCycle_img ..⟩
  · intro w base off vr hw hr hb hin hfits
    cases x with
    | task k => exact execFrameStore_task hc hw hr hb hin (hfits k rfl)
    | passA =>
      obtain ⟨hexec, hcycle, hkept⟩ := execFrameStore_pass (.inl rfl) hc hw hr hb hin
      exact ⟨_, _, hexec, hcycle, rfl, loadWord_passStore_A hb .., hkept⟩
    | passB =>
      obtain ⟨hexec, hcycle, hkept⟩ := execFrameStore_pass (.inr rfl) hc hw hr hb hin
      exact ⟨_, _, hexec, hcycle, rfl, loadWord_passStore_B hb .., hkept⟩

end Sys2Proof.Machine
end

section
/-! SUPPORT. POINT, BRANCH, CALL, EXT and SYS return words: what each leaves of its cycle (08 R175, R176; 10 R229, R237). -/

namespace Sys2Proof.Machine

variable {x : Ctx} {c : Cycle} {s : State}

/-- A word whose whole effect is on its cycle. -/
theorem setCycle_leaves {i : Instr} {s v : State} {d : Cycle} (hc : ctxCycle v x = some c)
    (hrun : exec i s = .next (setCycle x d v)) : ∃ u, exec i s = .next u ∧ ctxCycle u x = some d ∧ u.img = v.img :=
  ⟨_, hrun, ctxCycle_setCycle d hc, setCycle_img ..⟩

/-! ### POINT reads -/

/-- A task reads its snapshot (R176). -/
theorem pointRead_task {k : Fin 48} {op w p : Nat} {f : Pt → Word64}
    (hc : ctxCycle (noteStart (.task k) s) (.task k) = some c) (hw : atWord s (.task k) (pointWord op w p) = true) :
    pointRead (.task k) op w p f s = setCycle (.task k)
      (stepped (putReg (noteStart (.task k) s) (.task k) w (f (snapPoint c (p % 2 ^ 18))) c)) (noteStart (.task k) s) :=
  onCode_runs hc hw

/-- A pass reads the safety address space: a request word without its complement is a fault, and what has no stated result
takes a free value. -/
theorem pointRead_pass {op w p : Nat} {f : Pt → Word64} (hx : x = .passA ∨ x = .passB)
    (hc : ctxCycle (noteStart x s) x = some c) (hw : atWord s x (pointWord op w p) = true)
    (hp : safetyField (p % 2 ^ 18) = true) :
    pointRead x op w p f s =
      if requestBad (noteStart x s) (p % 2 ^ 18) then safetyFault 5 (coreOf (noteStart x s) x) (noteStart x s)
      else match (if op = 0 then safetyRead (noteStart x s) x (p % 2 ^ 18) else none) with
      | some val => setCycle x (stepped (putReg (noteStart x s) x w (val.zeroExtend 64) c)) (noteStart x s)
      | none => freeRead x w c (noteStart x s) := by
  rcases hx with rfl | rfl <;>
    simp only [pointRead, onCode_runs hc hw, hp, Bool.not_true, Bool.false_eq_true, if_false] <;> rfl

/-- A free value goes to the register, and the cycle goes on. -/
theorem freeRead_leaves {w : Nat} {v : State} (hc : ctxCycle v x = some c) :
    ctxCycle (freeRead x w c v) x = some (stepped (putReg v x w (widen x (BitVec.ofNat 32 (draw v).1)) c)) ∧
      (freeRead x w c v).img = v.img := by
  have hdraw : ctxCycle (draw v).2 x = some c := by
    cases x <;> exact hc
  exact ⟨ctxCycle_setCycle _ hdraw, setCycle_img x _ (draw v).2⟩

/-! ### POINT writes -/

theorem pointWriteState_task {k : Fin 48} {w p : Nat} {vr : Word64}
    (hc : ctxCycle (noteStart (.task k) s) (.task k) = some c) (hw : atWord s (.task k) (pointWord 3 w p) = true)
    (hr : readReg (noteStart (.task k) s) (.task k) c w = some vr)
    (hfits : dirtyBytes { c with out := c.out ++ [(p % 2 ^ 18, vr.truncate 32)] } ≤ 131072) :
    pointWriteState (.task k) w p s = setCycle (.task k)
      (stepped { c with out := c.out ++ [(p % 2 ^ 18, vr.truncate 32)] }) (noteStart (.task k) s) := by
  simp only [pointWriteState, onCode_runs hc hw, withReg_some hr]
  exact dirtyChecked_goesOn hfits

/-- The pass that runs in a context. -/
def passOf (x : Ctx) (s : State) : Pass :=
  match x with
  | .passB => s.safe.passB
  | _ => s.safe.passA

/-- What a pass writes is no part of its cycle. -/
theorem passWrite_cycle (p : Nat) (v : BitVec 32) (r : Pass) :
    (passWrite p v r).cyc = r.cyc ∧ (passWrite p v r).running = r.running := by
  unfold passWrite
  dsimp only
  split <;> exact ⟨rfl, rfl⟩

/-- A pass's write of an address of Table 10.2. -/
theorem execPointWriteValue_pass {t w p : Nat} {vr : Word64} (hx : x = .passA ∨ x = .passB)
    (hc : ctxCycle (noteStart x (advance t s)) x = some c) (hw : atWord (advance t s) x (pointWord 3 w p) = true)
    (hr : readReg (noteStart x (advance t s)) x c w = some vr) (hp : safetyWritable (p % 2 ^ 18) = true) :
    ∃ u, exec (.pointWriteValue t x w p) s = .next u ∧ ctxCycle u x = some (stepped c) ∧
      passOf x u = passWrite (p % 2 ^ 18) (vr.truncate 32) { passOf x (noteStart x (advance t s)) with cyc := stepped c } := by
  have hcycle := ctxCycle_setCycle (stepped c) hc
  have hrun : pointWriteState x w p (advance t s) = _ := onCode_runs hc hw
  rcases hx with rfl | rfl
  all_goals
    refine ⟨_, congrArg Host.Outcome.next hrun, ?_⟩
    simp only [withReg_some hr, hp, Bool.not_true, Bool.false_eq_true, if_false]
    refine ⟨?_, rfl⟩
    simpa only [ctxCycle, passWrite_cycle] using hcycle

/-- A status value is written, and read there (R240). -/
theorem passWrite_status {p : Nat} (h : p < 0x300) (v : BitVec 32) (r : Pass) :
    Tbl.get (passWrite p v r).status 0 (p - 0x200) = v ∧ (passWrite p v r).outs = r.outs := by
  simp only [passWrite, h, if_true, Tbl.get_put]
  exact ⟨trivial, rfl⟩

/-- An output bit is written, and the status values stay. -/
theorem passWrite_output {p : Nat} (h : ¬ p < 0x300) (v : BitVec 32) (r : Pass) :
    bitOf (passWrite p v r).outs (p - 0x300) = v.getLsbD 0 ∧ (passWrite p v r).status = r.status := by
  simp only [passWrite, h, if_false]
  refine ⟨?_, rfl⟩
  have hoff := switchOff_bit r.outs (p - 0x300) (p - 0x300)
  have hon := switchOn_bit (r.outs - flagBit (p - 0x300) (bitOf r.outs (p - 0x300))) (p - 0x300)
  simp only [ne_eq, not_true_eq_false, decide_false, Bool.and_false] at hoff
  rw [hoff] at hon
  cases v.getLsbD 0 with
  | true => exact hon
  | false => exact hoff

end Sys2Proof.Machine
end

section
/-! SUPPORT. A task's cycle ends: its writes are committed and released, or held for the partner (01 R14; 16 R395). -/

namespace Sys2Proof.Machine

/-! ### Commit and release write the program they say (R14, R176) -/

theorem localNow_congr {s u : State} (hclk : u.clk = s.clk) (hnow : u.now = s.now) : localNow u = localNow s := by
  simp only [localNow, rawCount, hclk, hnow]

theorem settleSwap_leaves (s : State) : (settleSwap s).prog.inst = s.prog.inst ∧ (settleSwap s).prog.glob = s.prog.glob ∧
    (settleSwap s).prog.ret = s.prog.ret ∧ (settleSwap s).prog.tasks = s.prog.tasks := by
  unfold settleSwap
  split <;> exact ⟨rfl, rfl, rfl, rfl⟩

/-- A commit writes what the cycle wrote, and no task's state. -/
theorem commitCycle_writes (c : Cycle) (s : State) :
    (commitCycle c s).prog.inst = writeAll s.prog.inst c.wInst ∧ (commitCycle c s).prog.glob = writeAll s.prog.glob c.wGlob ∧
      (commitCycle c s).prog.ret = writeAll s.prog.ret c.wRet ∧ (commitCycle c s).prog.tasks = s.prog.tasks := by
  have pops (x : State) : (dropPops c.pops x).prog = x.prog := (dropPops_frame ..).same .prog (by decide)
  have outs (ts : Int) (x : State) : (c.out.foldl (fun s e => produceForme e.1 e.2 ts s) x).prog = x.prog :=
    (Untouched.foldl (ps := [.img]) (fun y e hy => hy.trans (produceForme_frame ..)) c.out x (.refl ..)).same .prog (by decide)
  simp only [commitCycle, pops, outs, settleSwap_leaves, and_self]

/-- A release changes the released values and no other part of the program. -/
theorem releaseValues_prog (vs : List (Nat × BitVec 32)) (s : State) :
    ∃ r, (releaseValues vs s).prog = { s.prog with released := r } := by
  have points : ∀ (l : List (Nat × BitVec 32)) (x : State),
      ∃ r, (l.foldl (fun s e => releasePoint e.1 e.2 s) x).prog = { x.prog with released := r } := by
    intro l
    induction l with
    | nil => exact fun x => ⟨_, rfl⟩
    | cons e l ih =>
      intro x
      obtain ⟨r, hr⟩ := ih (releasePoint e.1 e.2 x)
      exact ⟨r, hr⟩
  have after (y x : State) : (aoReapply vs (endAwaiting vs (afterRelease y x))).prog = x.prog := by
    rw [(aoReapply_frame ..).same .prog (by decide), (endAwaiting_frame ..).same .prog (by decide)]
    exact (afterRelease_frame ..).same .prog (by decide)
  obtain ⟨r, hr⟩ := points vs s
  exact ⟨r, (after ..).trans hr⟩

theorem releaseCycle_prog (c : Cycle) (s : State) :
    ∃ r, (releaseCycle c s).prog = { s.prog with released := r, lastRelease := localNow s } := by
  obtain ⟨r, hr⟩ := releaseValues_prog c.out { s with prog := { s.prog with lastRelease := localNow s } }
  have requests (x : State) : (canRequested c.sends x).prog = x.prog := (canRequested_frame ..).same .prog (by decide)
  have ports (x : State) : (c.states.foldl (fun s e =>
      if e.2 = 1 then startRecovery e.1 s else if e.2 = 2 then reenable e.1 s else s) x).prog = x.prog := by
    refine (Untouched.foldl (ps := [.can]) (fun y e hy => ?_) c.states x (.refl ..)).same .prog (by decide)
    split
    · exact hy.trans (startRecovery_frame ..)
    · split
      · exact hy.trans (reenable_frame ..)
      · exact hy
  exact ⟨r, ((ports _).trans (requests _)).trans hr⟩

/-- Releases are held by the pair's state and the time. -/
theorem relsHeld_congr {s u : State} (hpair : u.pair = s.pair) (hclk : u.clk = s.clk) (hnow : u.now = s.now) :
    relsHeld u = relsHeld s := by
  simp only [relsHeld, handingHeld, hpair, localNow_congr hclk hnow]

/-- A cycle committed in a unit that holds no release is released with it. -/
theorem commitAndRelease_leaves {c : Cycle} {s : State} (hfirst : s.pair.firstAt = none) (hheld : relsHeld s = false) :
    let u := releaseCommitted c (commitCycle c s)
    u.prog.tasks = s.prog.tasks ∧ u.prog.inst = writeAll s.prog.inst c.wInst ∧
      u.prog.glob = writeAll s.prog.glob c.wGlob ∧ u.prog.ret = writeAll s.prog.ret c.wRet ∧
      u.prog.lastRelease = localNow s := by
  have frame := commitCycle_frame c s
  have hpair : (commitCycle c s).pair = s.pair := frame.same .pair (by decide)
  have hclk : (commitCycle c s).clk = s.clk := frame.same .clk (by decide)
  have hnow : (commitCycle c s).now = s.now := frame.same .now (by decide)
  have now : releaseCommitted c (commitCycle c s) = releaseCycle c (commitCycle c s) :=
    if_neg (by simp [beforeFirst, hpair, hfirst, relsHeld_congr hpair hclk hnow, hheld])
  obtain ⟨r, hr⟩ := releaseCycle_prog c (commitCycle c s)
  obtain ⟨hinst, hglob, hret, htasks⟩ := commitCycle_writes c s
  simp only [now, hr]
  exact ⟨htasks, hinst, hglob, hret, localNow_congr hclk hnow⟩

/-! ### The end of a cycle (R14) -/

/-- A task after the end of its cycle, its times noted (Table 8.17). -/
def cycleEnded (k : Nat) (c : Cycle) (s : State) : State :=
  modTask k (fun t => { t with
    cycle := none, abandoned := false, lastExec := sat 32 (s.now - c.releasedAt)
    maxExec := max t.maxExec (sat 32 (s.now - c.releasedAt)) }) s

theorem cycleEnded_idle (k : Nat) (c : Cycle) (s : State) : (getTask (cycleEnded k c s) k).cycle = none := by
  simp [cycleEnded]

theorem endCycle_some {k : Nat} {c : Cycle} {s : State} (h : (getTask s k).cycle = some c) :
    endCycle k s = finishCycle k c (cycleEnded k c s) := by
  simp only [endCycle, h, cycleEnded]

/-- A single unit commits at once. -/
theorem finishCycle_single {k : Nat} {c : Cycle} {s : State} (hp : s.pair.state = .single)
    (hr : Tbl.find s.pair.recs k = none) : finishCycle k c s = releaseCommitted c (commitCycle c s) := by
  simp [finishCycle, isStandby, needsAck, hp, hr]

/-- An active unit sends the cycle to its partner and holds it (16 R395). -/
theorem finishCycle_active {k : Nat} {c : Cycle} {s : State} (hp : s.pair.state = .active)
    (hh : handingHeld s = false) (hr : Tbl.find s.pair.recs k = none) :
    finishCycle k c s =
      let u := sendCommit 4 (taskContent k c) s
      { u with pair := { u.pair with held := u.pair.held ++ [⟨u.pair.seqOut, u.now, some (k, c)⟩] } } := by
  simp [finishCycle, isStandby, needsAck, hp, hr, hh]

theorem endCycle_single {k : Nat} {c : Cycle} {s : State} (hc : (getTask s k).cycle = some c) (hp : s.pair.state = .single)
    (hr : Tbl.find s.pair.recs k = none) (hfirst : s.pair.firstAt = none) (hheld : relsHeld s = false) :
    let u := endCycle k s
    (getTask u k).cycle = none ∧ u.prog.inst = writeAll s.prog.inst c.wInst ∧
      u.prog.glob = writeAll s.prog.glob c.wGlob ∧ u.prog.ret = writeAll s.prog.ret c.wRet ∧
      u.prog.lastRelease = localNow s := by
  intro u
  have hu : u = releaseCommitted c (commitCycle c (cycleEnded k c s)) :=
    (endCycle_some hc).trans (finishCycle_single (s := cycleEnded k c s) hp hr)
  obtain ⟨htasks, hinst, hglob, hret, hlast⟩ := commitAndRelease_leaves (c := c) (s := cycleEnded k c s) hfirst hheld
  rw [hu]
  exact ⟨(congrArg (fun m => (Tbl.get m {} k : Task).cycle) htasks).trans (cycleEnded_idle k c s), hinst, hglob, hret, hlast⟩

theorem endCycle_active {k : Nat} {c : Cycle} {s : State} (hc : (getTask s k).cycle = some c) (hp : s.pair.state = .active)
    (hh : handingHeld s = false) (hr : Tbl.find s.pair.recs k = none) :
    let u := endCycle k s
    (getTask u k).cycle = none ∧ u.pair.held = s.pair.held ++ [⟨u.pair.seqOut, s.now, some (k, c)⟩] ∧
      u.prog.inst = s.prog.inst ∧ u.img = s.img := by
  intro u
  have hu : u = _ := (endCycle_some hc).trans (finishCycle_active (s := cycleEnded k c s) hp hh hr)
  rw [hu]
  exact ⟨cycleEnded_idle k c s, rfl, rfl, rfl⟩

end Sys2Proof.Machine
end

section
/-! SUPPORT. SYS trap: a task's cycle is abandoned and the fault counts, and the safety complex stops (08 R186, R187; 10
R250). -/

namespace Sys2Proof.Machine

/-! ### A task without a cycle goes through STOP as it is (R187, R189) -/

theorem abandonAll_idle {k : Nat} {s : State} (h : (getTask s k).cycle = none) : getTask (abandonAll s) k = getTask s k := by
  unfold abandonAll
  refine forAll_induct (P := fun x => getTask x k = getTask s k) _ _ (fun j x hx => ?_) s rfl
  unfold abandonCycle
  split
  · exact hx
  next hrun =>
    have hj : k ≠ j := by
      rintro rfl
      exact hrun (by rw [hx, h]; rfl)
    rw [getTask_modTask, if_neg hj, hx]

/-- The new forme as a swap brings it in (R193, R195). -/
def swappedIn (new : Forme) (s : State) : State :=
  swapIn new (migrate (s.prog.forme.getD {}) new (settleClock s).prog) ((s.prog.generation + 1) % 2 ^ 32)
    (abandonAll (settleClock s))

/-- A swap changes the program as the new forme comes in; in STOP it is committed with that (R193). -/
theorem swapNow_prog {new : Forme} {pause : Nat} {s : State} (h : s.prog.oc.forme = some new) :
    (swapNow pause s).prog =
      if s.prog.mode = .stop then (settleSwap (swappedIn new s)).prog else (swappedIn new s).prog := by
  have change (t : State) : (changeOver t).prog = t.prog := (changeOver_frame t).same .prog (by decide)
  have ends (b : Prop) [Decidable b] (r : List Byte) (t : State) : (if b then cmdDone 2 r t else t).prog = t.prog := by
    split <;> rfl
  have hmode : (swappedIn new s).prog.mode = s.prog.mode := by
    rw [swappedIn, swapIn_mode, abandonAll_mode, settleClock_mode]
  rw [← hmode, ← apply_ite State.prog]
  simp only [swapNow, h]
  rw [change, ends]
  simp only [emit_fields]
  rfl

theorem swappedIn_tasks (new : Forme) (s : State) :
    (swappedIn new s).prog.tasks = (abandonAll (settleClock s)).prog.tasks := by
  rw [swappedIn, swapIn]

theorem swapNow_idle {k pause : Nat} {s : State} (h : (getTask s k).cycle = none) :
    getTask (swapNow pause s) k = getTask s k := by
  cases hf : s.prog.oc.forme with
  | none => simp only [swapNow, hf]
  | some new =>
    have hidle : getTask (abandonAll (settleClock s)) k = getTask s k := abandonAll_idle (s := settleClock s) h
    rw [← hidle]
    simp only [getTask, swapNow_prog hf, apply_ite Prog.tasks, settleSwap_leaves, ite_self, swappedIn_tasks]

theorem enterStop_idle {k cause : Nat} {s : State} (h : (getTask s k).cycle = none) :
    getTask (enterStop cause s) k = getTask s k := by
  have aborts (t : State) : (scAbortArmed t).prog = t.prog := (scAbortArmed_frame t).same .prog (by decide)
  have withdraws (t : State) : (canWithdraw t).prog = t.prog := (canWithdraw_frame t).same .prog (by decide)
  unfold enterStop
  split
  · rfl
  · dsimp only
    generalize hx : scAbortArmed _ = x
    have hidle : getTask x k = getTask s k := by
      simp only [← hx, getTask, aborts, withdraws, emit_fields]
      exact abandonAll_idle (s := settleClock s) h
    split
    · exact (swapNow_idle (hidle ▸ h)).trans hidle
    · exact hidle

/-- A task fault abandons the cycle and counts, whatever TASK_OVERRUN_POLICY is (R186). -/
theorem taskFault_task {k kind off : Nat} {c : Cycle} {s : State} (h : (getTask s k).cycle = some c) :
    let u := taskFault k kind off s
    (getTask u k).cycle = none ∧ (getTask u k).faulted = true ∧ (getTask u k).abandoned = true ∧
      (getTask u k).faults = sat 32 ((getTask s k).faults + 1) := by
  intro u
  have noted := faultNoted_task (kind := kind) (off := off) h
  have hu : getTask u k = getTask (faultNoted k kind off s) k := by
    simp only [u, taskFault_eq]
    split
    · exact enterStop_idle noted.1
    · rfl
  rw [hu]
  exact noted

/-! ### A fault of the safety complex (10 R250) -/

theorem enterSafety_safe (st : SafetyState) (s : State) : (enterSafety st s).safe = { s.safe with state := st } := by
  unfold enterSafety
  split
  next h => rw [← h]
  · simp only [emit_fields]

/-- SAFE_STOP keeps the cause and the count of its fault. -/
theorem safeStop_leaves (s : State) : (safeStop s).safe.state = .safeStop ∧ (safeStop s).safe.cause = s.safe.cause ∧
    (safeStop s).safe.faults = s.safe.faults := by
  have starts (x : State) : (sfStart x).safe = x.safe := (sfStart_frame x).same .safe (by decide)
  simp only [safeStop, enterSafety_safe, startFunctions, codeFunctions, starts, reinitSafety, dropPasses, and_self]

/-- A running complex without a counted fault stops safely at one that does not halt it. -/
theorem safetyFault_stops {cause core : Nat} {s : State} (hcause : halting cause = false) (hs : s.safe.state = .running)
    (hn : s.safe.counted = []) :
    let u := safetyFault cause core s
    u.safe.state = .safeStop ∧ u.safe.cause = cause ∧ u.safe.faults = (s.safe.faults + 1) % 2 ^ 32 := by
  have hnoted : (noteSafetyFault cause core s).safe = { s.safe with
      cause := cause, faults := (s.safe.faults + 1) % 2 ^ 32
      windowFault := s.safe.windowFault || decide (cause ≠ 0x0D) } := by
    simp only [noteSafetyFault, emit_fields]
  have hone : ¬ 3 ≤ (addFault s.now []).length := by simp [addFault]
  have hnow : (noteSafetyFault cause core s).now = s.now := (noteSafetyFault_frame ..).same .now (by decide)
  simp [safetyFault, hs, hcause, hnoted, hn, hnow, hone, safeStop_leaves]

end Sys2Proof.Machine
end

section
/-! SUPPORT. The rows of POINT words and of control flow in a context that has a cycle (08 R175, R176; 10 R229). -/

namespace Sys2Proof.Machine

variable {x : Ctx} {c : Cycle} {s : State} {t : Nat}

theorem execPointReadValue_pass {w p : Nat} (hx : x = .passA ∨ x = .passB)
    (hc : ctxCycle (noteStart x (advance t s)) x = some c) (hp : safetyField (p % 2 ^ 18) = true)
    (hw : atWord (advance t s) x (pointWord 0 w p) = true) :
    (requestBad (noteStart x (advance t s)) (p % 2 ^ 18) = true → exec (.pointReadValue t x w p) s =
      .next (safetyFault 5 (coreOf (noteStart x (advance t s)) x) (noteStart x (advance t s)))) ∧
    (∀ val, requestBad (noteStart x (advance t s)) (p % 2 ^ 18) = false →
      safetyRead (noteStart x (advance t s)) x (p % 2 ^ 18) = some val → exec (.pointReadValue t x w p) s =
        .next (setCycle x (stepped (putReg (noteStart x (advance t s)) x w (val.zeroExtend 64) c))
          (noteStart x (advance t s)))) := by
  have hrun : exec (.pointReadValue t x w p) s = _ := congrArg Host.Outcome.next (pointRead_pass hx hc hw hp)
  refine ⟨fun hbad => ?_, fun val hgood hval => ?_⟩
  · rw [hrun, hbad, if_pos rfl]
  · rw [hrun, hgood, if_neg Bool.false_ne_true, if_pos rfl, hval]

/-- What a pass reads of quality or timestamp is free. -/
theorem pointRead_free {op w p : Nat} {f : Pt → Word64} (hop : op ≠ 0) (hx : x = .passA ∨ x = .passB)
    (hc : ctxCycle (noteStart x s) x = some c) (hp : safetyField (p % 2 ^ 18) = true)
    (hgood : requestBad (noteStart x s) (p % 2 ^ 18) = false) (hw : atWord s x (pointWord op w p) = true) :
    pointRead x op w p f s = freeRead x w c (noteStart x s) := by
  rw [pointRead_pass hx hc hw hp, hgood, if_neg Bool.false_ne_true, if_neg hop]

theorem safetyWritable_iff (p : Nat) : safetyWritable p = true ↔ (0x210 ≤ p ∧ p < 0x300) ∨ (0x300 ≤ p ∧ p < 0x308) := by
  simp only [safetyWritable, Bool.or_eq_true, Bool.and_eq_true, decide_eq_true_eq]

/-- A pass writes a status value (R240; Table 10.2). -/
theorem execPointWriteValue_status {w p : Nat} {vr : Word64} (hx : x = .passA ∨ x = .passB)
    (hc : ctxCycle (noteStart x (advance t s)) x = some c) (hw : atWord (advance t s) x (pointWord 3 w p) = true)
    (hr : readReg (noteStart x (advance t s)) x c w = some vr) (hlo : 0x210 ≤ p % 2 ^ 18) (hhi : p % 2 ^ 18 < 0x300) :
    ∃ u, exec (.pointWriteValue t x w p) s = .next u ∧ ctxCycle u x = some (stepped c) ∧
      Tbl.get (passOf x u).status 0 (p % 2 ^ 18 - 0x200) = vr.truncate 32 ∧
      (passOf x u).outs = (passOf x (noteStart x (advance t s))).outs := by
  obtain ⟨u, hexec, hcycle, hpass⟩ :=
    execPointWriteValue_pass hx hc hw hr ((safetyWritable_iff _).2 (.inl ⟨hlo, hhi⟩))
  exact ⟨u, hexec, hcycle, hpass ▸ passWrite_status hhi ..⟩

/-- A pass writes an output bit. -/
theorem execPointWriteValue_output {w p : Nat} {vr : Word64} (hx : x = .passA ∨ x = .passB)
    (hc : ctxCycle (noteStart x (advance t s)) x = some c) (hw : atWord (advance t s) x (pointWord 3 w p) = true)
    (hr : readReg (noteStart x (advance t s)) x c w = some vr) (hlo : 0x300 ≤ p % 2 ^ 18) (hhi : p % 2 ^ 18 < 0x308) :
    ∃ u, exec (.pointWriteValue t x w p) s = .next u ∧ ctxCycle u x = some (stepped c) ∧
      bitOf (passOf x u).outs (p % 2 ^ 18 - 0x300) = vr.getLsbD 0 ∧
      (passOf x u).status = (passOf x (noteStart x (advance t s))).status := by
  obtain ⟨u, hexec, hcycle, hpass⟩ :=
    execPointWriteValue_pass hx hc hw hr ((safetyWritable_iff _).2 (.inr ⟨hlo, hhi⟩))
  have hbit : (vr.truncate 32).getLsbD 0 = vr.getLsbD 0 := by simp
  exact ⟨u, hexec, hcycle, hpass ▸ hbit ▸ passWrite_output (Nat.not_lt.2 hlo) ..⟩

theorem execBranch_runs {cond w disp : Nat} {vr : Word64} (hc : ctxCycle (noteStart x (advance t s)) x = some c)
    (hw : atWord (advance t s) x (branchWord cond w disp) = true)
    (hr : readReg (noteStart x (advance t s)) x c w = some vr) :
    exec (.branch t x cond w disp) s = .next (setCycle x
      (if Config.branchTaken cond (untyped x vr) then
        { c with pc := ((c.pc : Int) + signedExt c 19 disp).toNat, ext := none } else stepped c)
      (noteStart x (advance t s))) :=
  congrArg Host.Outcome.next ((onCode_runs hc hw).trans (withReg_some hr))

theorem execCallUserBlock_runs {d : Nat} (hc : ctxCycle (noteStart x (advance t s)) x = some c)
    (hw : atWord (advance t s) x (callWord 0 d) = true) (hd : c.stack.length < 32) :
    let v := noteStart x (advance t s)
    exec (.callUserBlock t x d) s = .next (setCycle x { c with
      pc := (callDesc v x d).target, inst := instOffset v x (callDesc v x d).instance_
      stack := (c.pc + 1, c.inst) :: c.stack, ext := none } v) :=
  congrArg Host.Outcome.next ((onCode_runs hc hw).trans (if_neg (Nat.not_le.2 hd)))

theorem execSysReturn_runs {arg pc i : Nat} {r : List (Nat × Nat)} (hc : ctxCycle (noteStart x (advance t s)) x = some c)
    (hw : atWord (advance t s) x (sysWord 1 arg) = true) (hstack : c.stack = (pc, i) :: r) :
    exec (.sysReturn t x arg) s = .next (setCycle x { c with pc := pc, inst := i, stack := r, ext := none }
      (noteStart x (advance t s))) := by
  have hrun : exec (.sysReturn t x arg) s = _ := congrArg Host.Outcome.next (onCode_runs hc hw)
  rw [hrun, hstack]

end Sys2Proof.Machine
end

section
/-! SUPPORT. The statement about POINT words and the words of control flow. -/

namespace Sys2Proof.Machine

/-- Settles O43, word by word. -/
theorem wordsReachPointsAndControlFlow : Obligations.WordsReachPointsAndControlFlow := by
  intro t x c s v pass moves hc
  refine ⟨?_, ?_, ?_, ?_, ?_, ?_, ?_, ?_, ?_, ?_, ?_⟩
  · rintro w p pt k rfl
    exact ⟨fun hw => setCycle_leaves hc (congrArg Host.Outcome.next (pointRead_task hc hw)),
      fun hw => setCycle_leaves hc (congrArg Host.Outcome.next (pointRead_task hc hw)),
      fun hw => setCycle_leaves hc (congrArg Host.Outcome.next (pointRead_task hc hw))⟩
  · intro w p hx hp
    refine ⟨fun hbad hw => (execPointReadValue_pass hx hc hp hw).1 hbad, fun hgood => ⟨fun val hval hw => ?_, ?_, ?_⟩⟩
    · exact setCycle_leaves hc ((execPointReadValue_pass hx hc hp hw).2 val hgood hval)
    · exact ⟨_, fun hw => ⟨_, congrArg Host.Outcome.next (pointRead_free (by decide) hx hc hp hgood hw), freeRead_leaves hc⟩⟩
    · exact ⟨_, fun hw => ⟨_, congrArg Host.Outcome.next (pointRead_free (by decide) hx hc hp hgood hw), freeRead_leaves hc⟩⟩
  · intro w p vr hw hr
    refine ⟨?_, fun hx hlo hhi => execPointWriteValue_status hx hc hw hr hlo hhi,
      fun hx hlo hhi => execPointWriteValue_output hx hc hw hr hlo hhi⟩
    rintro k rfl hfits hw
    exact setCycle_leaves hc (congrArg Host.Outcome.next (pointWriteState_task hc hw hr hfits))
  · intro cond w disp vr hw hr
    refine ⟨_, _, execBranch_runs hc hw hr, ctxCycle_setCycle _ hc, ?_⟩
    cases Config.branchTaken cond (untyped x vr) with
    | true => exact ⟨rfl, rfl, fun _ => rfl, fun h => absurd h (by decide)⟩
    | false => exact ⟨rfl, rfl, fun h => absurd h (by decide), fun _ => rfl⟩
  · exact fun d hd hw => setCycle_leaves hc (execCallUserBlock_runs hc hw hd)
  · exact fun d hw => setCycle_leaves hc (congrArg Host.Outcome.next (onCode_runs hc hw))
  · exact fun d hw => setCycle_leaves hc (congrArg Host.Outcome.next (onCode_runs hc hw))
  · exact fun bits hw => setCycle_leaves hc (congrArg Host.Outcome.next (onCode_runs hc hw))
  · exact fun arg pc i r hstack hw => setCycle_leaves hc (execSysReturn_runs hc hw hstack)
  · intro arg hw
    refine ⟨_, congrArg Host.Outcome.next (onCode_runs hc hw), ?_, ?_, ?_, ?_⟩
    · rintro rfl
      exact ⟨rfl, rfl, rfl⟩
    · rintro rfl
      exact ⟨rfl, rfl⟩
    · rintro k rfl hp hr hfirst hheld
      exact endCycle_single (ctxCycle_task hc).2 hp hr hfirst hheld
    · rintro k rfl hp hh hr
      exact endCycle_active (ctxCycle_task hc).2 hp hh hr
  · intro arg hw
    refine ⟨_, congrArg Host.Outcome.next (onCode_runs hc hw), ?_, fun hx hs hn => ?_⟩
    · rintro k rfl
      exact taskFault_task (ctxCycle_task hc).2
    · rcases hx with rfl | rfl
      · exact safetyFault_stops (by decide) hs hn
      · exact safetyFault_stops (by decide) hs hn

end Sys2Proof.Machine
end

section
/-! SUPPORT. ONLINE_CHANGE: a preparation begins, is cancelled or ends, and the swap brings the new forme in (08 R193 to
R197). -/

namespace Sys2Proof.Machine

/-! ### The invocation (R193, R196) -/

/-- The change as it begins, passed to a partner by an active unit. -/
def ocPrepared (op n : Nat) (s : State) : State :=
  let u := { keepLeases 0xF002 n [0x2400, 0xF000] s with prog := { s.prog with
    oc := { state := .preparing, op := op, forme := some (formeOf (bulkBytes s)) } } }
  if u.pair.state = .active then
    let w := passChange (.forme (bulkBytes u)) u
    { w with prog := { w.prog with oc := { w.prog.oc with record := some w.pair.seqOut } } }
  else u

theorem ocPrepared_leaves (op n : Nat) (s : State) :
    (ocPrepared op n s).prog.oc.state = .preparing ∧ (ocPrepared op n s).prog.oc.op = op ∧
      (ocPrepared op n s).prog.oc.forme = some (formeOf (bulkBytes s)) ∧ (ocPrepared op n s).sess.change = some 0xF002 := by
  have passes (d : Change) (y : State) : (passChange d y).prog = y.prog ∧ (passChange d y).sess = y.sess :=
    ⟨(passChange_frame d y).same .prog (by decide), (passChange_frame d y).same .sess (by decide)⟩
  simp only [ocPrepared]
  split
  · simp only [passes, keepLeases, and_self]
  · simp only [keepLeases, and_self]

/-- A change begins where nothing stands against it, with the signed image of the bulk buffer. -/
theorem ocStart_prepares {op n : Nat} {s : State} (hstandby : isStandby s = false) (hidle : (getCmd s 2).status ≠ 1)
    (hpending : s.sess.pending = none) (hchange : s.sess.change = none) (hsigned : bulkSigned s = true) :
    ocStart op n s = (.ok [], cmdStart 2 n (ocPrepared op n s)) := by
  have hrun : cmdRunning s 2 = false := beq_eq_false_iff_ne.2 hidle
  have free : ocRefused s = none := by
    simp [ocRefused, hstandby, hrun, pendingChange, hpending, hchange]
  simp only [ocStart, free, hsigned, Bool.not_true, Bool.false_eq_true, if_false, cmdAccept, ocPrepared, keepLeases]

/-- A change that has begun is running. -/
theorem ocStart_leaves {op n : Nat} {s : State} (hstandby : isStandby s = false) (hidle : (getCmd s 2).status ≠ 1)
    (hpending : s.sess.pending = none) (hchange : s.sess.change = none) (hsigned : bulkSigned s = true) :
    ∃ w, ocStart op n s = (.ok [], w) ∧ w.prog.oc.state = .preparing ∧ w.prog.oc.op = op ∧
      w.prog.oc.forme = some (formeOf (bulkBytes s)) ∧ (getCmd w 2).status = 1 ∧ w.sess.change = some 0xF002 := by
  obtain ⟨hstate, hop, hforme, hpend⟩ := ocPrepared_leaves op n s
  exact ⟨_, ocStart_prepares hstandby hidle hpending hchange hsigned, hstate, hop, hforme, cmdStart_status .., hpend⟩

theorem releaseKept_cmds (s : State) : (releaseKept s).sess.cmds = s.sess.cmds := by
  unfold releaseKept pruneLeases
  refine forAll_induct (P := fun x => x.sess.cmds = s.sess.cmds) _ _ (fun a x hx => ?_) _ rfl
  unfold endLease
  split <;> exact hx

/-- An abandoned change leaves its command failed and no forme prepared (R196). -/
theorem abandonChange_leaves (a : Abort) (s : State) : (abandonChange a s).prog.oc.state = .abandoned ∧
    (abandonChange a s).prog.oc.forme = none ∧ (getCmd (abandonChange a s) 2).status = 3 := by
  have change (t : State) : (changeOver t).prog = t.prog := (changeOver_frame t).same .prog (by decide)
  have cmds (t : State) : getCmd (changeOver t) 2 = getCmd t 2 := by
    rw [getCmd, changeOver, releaseKept_cmds, getCmd]
  simp only [abandonChange, change, cmds, cmdFail_fields, emit_fields]
  simp [cmdFail]

theorem ocCancel_waiting {n : Nat} {s : State} (hstandby : isStandby s = false) (hw : s.prog.oc.state = .waiting) :
    ∃ w, ocCancel n s = (.ok [], w) ∧ w.prog.oc.state = .abandoned ∧ w.prog.oc.forme = none ∧ (getCmd w 2).status = 3 := by
  obtain ⟨hstate, hforme, hstatus⟩ := abandonChange_leaves (ocBad 1 s.prog.mode.num) s
  have hcancel : ocCancel n s = (.ok [], modCmd 2 (fun x => { x with invoker := n })
      (abandonChange (ocBad 1 s.prog.mode.num) s)) := by
    simp only [ocCancel, hstandby, hw, Bool.false_eq_true, if_false]
  refine ⟨_, hcancel, hstate, hforme, ?_⟩
  rw [getCmd_modCmd, if_pos rfl]
  exact hstatus

/-! ### The end of a preparation (R193) -/

theorem preparationEndState_waits {f : Forme} {s : State} (hstate : s.prog.oc.state = .preparing)
    (hforme : s.prog.oc.forme = some f) (hverified : verifyForme s f = none) (halone : isPairUnit s = false)
    (hop : s.prog.oc.op = 1) (habort : s.prog.oc.partnerAbort = none) (hmode : s.prog.mode = .run) :
    preparationEndState false s = { s with prog := { s.prog with
      candidate := some f, oc := { s.prog.oc with state := .waiting, since := localNow s } } } := by
  have hends : preparationEndState false s = { s with prog := { s.prog with
      candidate := some f
      oc := { s.prog.oc with
        state := .waiting, since := localNow { s with prog := { s.prog with candidate := some f } } } } } := by
    simp [preparationEndState, hstate, hforme, hverified, habort, halone, hop, hmode]
  exact hends

/-! ### The swap (R193, R195) -/

theorem tasklessProg_abandonAll (s : State) : tasklessProg (abandonAll s) = tasklessProg s :=
  forAll_induct (P := fun x => tasklessProg x = tasklessProg s) _ _
    (fun k x hx => (tasklessProg_abandonCycle k x).trans hx) s rfl

/-- With the same program but for its tasks, mode, flash and what stands committed are the same. -/
theorem flash_of_tasklessProg {u s : State} (h : tasklessProg u = tasklessProg s) :
    u.prog.mode = s.prog.mode ∧ u.prog.flashForme = s.prog.flashForme ∧ u.prog.candidate = s.prog.candidate ∧
      unswapped u = unswapped s := by
  have committed (x : State) : unswapped x = unswapped { s with prog := tasklessProg x } := rfl
  exact ⟨(congrArg Prog.mode h :), (congrArg Prog.flashForme h :), (congrArg Prog.candidate h :),
    by rw [committed u, committed s, h]⟩

theorem swapIn_leaves (new : Forme) (m : Migrated) (g : Nat) (s : State) :
    let p := (swapIn new m g s).prog
    p.forme = some new ∧ p.generation = g ∧ p.oc.state = .swapped ∧ p.flashForme = s.prog.flashForme ∧
      p.candidate = s.prog.candidate ∧ p.uncommitted = some (unswapped s) := ⟨rfl, rfl, rfl, rfl, rfl, rfl⟩

/-- The program that a swap brings in, with what was committed before still in flash. -/
theorem swappedIn_leaves (new : Forme) (s : State) :
    let p := (swappedIn new s).prog
    p.forme = some new ∧ p.generation = (s.prog.generation + 1) % 2 ^ 32 ∧ p.oc.state = .swapped ∧ p.mode = s.prog.mode ∧
      p.flashForme = s.prog.flashForme ∧ p.candidate = s.prog.candidate ∧ p.uncommitted = some (unswapped s) := by
  obtain ⟨hmode, hflash, hcandidate, hcommitted⟩ := flash_of_tasklessProg (tasklessProg_abandonAll (settleClock s))
  unfold swappedIn
  generalize abandonAll (settleClock s) = x at *
  obtain ⟨hforme, hgen, hstate, hf, hc, hold⟩ := swapIn_leaves new
    (migrate (s.prog.forme.getD {}) new (settleClock s).prog) ((s.prog.generation + 1) % 2 ^ 32) x
  exact ⟨hforme, hgen, hstate, (swapIn_mode ..).trans hmode, hf.trans hflash, hc.trans hcandidate,
    hold.trans (congrArg some hcommitted)⟩

/-- A swap that waits for its commit is committed: the new forme is the active one in flash (R193). -/
theorem settleSwap_commits {s : State} (h : s.prog.uncommitted.isSome = true) : (settleSwap s).prog = { s.prog with
    uncommitted := none, candidate := s.prog.flashForme, flashForme := s.prog.forme } :=
  congrArg State.prog (if_pos h)

/-- The program `p` that a swap of `s` to the forme `f` runs; outside STOP flash keeps the old one until a cycle commits the
swap (R193). -/
def SwapRuns (f : Forme) (s : State) (p : Prog) : Prop :=
  p.forme = some f ∧ p.generation = (s.prog.generation + 1) % 2 ^ 32 ∧ p.oc.state = .swapped ∧ p.mode = s.prog.mode ∧
    (s.prog.mode ≠ .stop → p.flashForme = s.prog.flashForme ∧ p.candidate = s.prog.candidate ∧
      p.uncommitted = some (unswapped s)) ∧
    (s.prog.mode = .stop → p.flashForme = some f ∧ p.candidate = s.prog.flashForme ∧ p.uncommitted = none)

theorem swapRuns_taskless (f : Forme) (s u : State) : SwapRuns f s (tasklessProg u) ↔ SwapRuns f s u.prog := Iff.rfl

theorem swapNow_runs {f : Forme} {pause : Nat} {s : State} (h : s.prog.oc.forme = some f) :
    SwapRuns f s (swapNow pause s).prog := by
  obtain ⟨hforme, hgen, hstate, hmode, hflash, hcandidate, hold⟩ := swappedIn_leaves f s
  have hcommits := settleSwap_commits (s := swappedIn f s) (by rw [hold]; rfl)
  rw [swapNow_prog h, hcommits]
  generalize (swappedIn f s).prog = q at *
  by_cases hstop : s.prog.mode = .stop
  · rw [if_pos hstop]
    exact ⟨hforme, hgen, hstate, hmode, fun hm => absurd hstop hm, fun _ => ⟨hforme, hflash, rfl⟩⟩
  · rw [if_neg hstop]
    exact ⟨hforme, hgen, hstate, hmode, fun _ => ⟨hflash, hcandidate, hold⟩, fun hm => absurd hm hstop⟩

/-! ### The releases of the boundary on the new forme (R193) -/

/-- The release of a task without a cycle changes no program but that task. -/
theorem gridRelease_taskless {k : Nat} {s : State} (h : (getTask s k).cycle = none) :
    tasklessProg (gridRelease k s) = tasklessProg s := by
  have hfree (g : Int) : (getTask (modTask k (fun t => { t with lastGrid := some g }) s) k).cycle.isSome = false := by
    simp [h]
  simp only [gridRelease]
  split
  · rw [releaseOrMiss, hfree, if_neg Bool.false_ne_true, releaseTask, tasklessProg_modTask, tasklessProg_modTask]
  · rfl

theorem forAll_gridRelease_taskless (l : List Nat) (hl : l.Nodup) (s : State) (h : ∀ k ∈ l, (getTask s k).cycle = none) :
    tasklessProg (forAll l gridRelease s) = tasklessProg s := by
  induction l generalizing s with
  | nil => rfl
  | cons k r ih =>
    obtain ⟨hk, hr⟩ := List.nodup_cons.1 hl
    have hidle : (getTask s k).cycle = none := h k (List.mem_cons_self ..)
    have rest : ∀ j ∈ r, (getTask (gridRelease k s) j).cycle = none := fun j hj =>
      (congrArg Task.cycle ((gridRelease_free hidle).1 j fun e => hk (e ▸ hj))).trans (h j (List.mem_cons_of_mem _ hj))
    exact (ih hr _ rest).trans (gridRelease_taskless hidle)

/-- Every cyclic task may be released again at its present grid instant. -/
def gridForgotten (s : State) : State :=
  forAll (List.range 32) (fun k s => modTask k (fun t => { t with lastGrid := none }) s) s

theorem releaseSwapped_eq (s : State) : releaseSwapped s = lateReleases (gridForgotten s) := by
  rw [releaseSwapped, gridForgotten]

theorem gridForgotten_leaves (s : State) : tasklessProg (gridForgotten s) = tasklessProg s ∧
    ∀ k, (getTask (gridForgotten s) k).cycle = (getTask s k).cycle := by
  unfold gridForgotten
  refine forAll_induct (P := fun y => tasklessProg y = tasklessProg s ∧ ∀ k, (getTask y k).cycle = (getTask s k).cycle) _ _
    (fun j y hy => ⟨(tasklessProg_modTask ..).trans hy.1, fun k => ?_⟩) s ⟨rfl, fun _ => rfl⟩
  rw [getTask_modTask]
  split
  next hj => exact hj ▸ hy.2 j
  · exact hy.2 k

theorem lateReleases_taskless {s : State} (h : ∀ k < 32, (getTask s k).cycle = none) :
    tasklessProg (lateReleases s) = tasklessProg s := by
  unfold lateReleases
  split
  · rw [releaseAllCyclic]
    exact forAll_gridRelease_taskless _ List.nodup_range s fun k hk => h k (List.mem_range.1 hk)
  · rfl

/-- With no cycle in execution the releases of a swap's boundary change no program but the tasks. -/
theorem releaseSwapped_taskless {s : State} (h : ∀ k < 32, (getTask s k).cycle = none) :
    tasklessProg (releaseSwapped s) = tasklessProg s := by
  obtain ⟨hkept, hcycles⟩ := gridForgotten_leaves s
  rw [releaseSwapped_eq, ← hkept]
  exact lateReleases_taskless fun k hk => (hcycles k).trans (h k hk)

theorem idle_of_quiet {k : Nat} {s : State} (h : quiet s = true) (hk : k < 48) : (getTask s k).cycle = none := by
  simp only [quiet, Bool.and_eq_true, List.all_eq_true, List.mem_range, Option.isNone_iff_eq_none] at h
  exact h.1 k hk

/-- A waiting swap takes place at a quiet boundary, and the tasks are released on the new forme. -/
theorem swapState_quiet {pause : Nat} {f : Forme} {s : State} (hstate : s.prog.oc.state = .waiting)
    (hforme : s.prog.oc.forme = some f) (hb : boundarySince s s.prog.oc.since = true) (hq : quiet s = true)
    (hs : isStandby s = false) : SwapRuns f s (swapState pause s).prog := by
  have hswap : swapState pause s = releaseSwapped (swapNow pause s) := by
    simp [swapState, hstate, hb, hq, hs]
  have hidle : ∀ k < 32, (getTask (swapNow pause s) k).cycle = none := fun k hk => by
    have hquiet : (getTask s k).cycle = none := idle_of_quiet hq (by omega)
    rw [swapNow_idle hquiet, hquiet]
  rw [hswap, ← swapRuns_taskless, releaseSwapped_taskless hidle, swapRuns_taskless]
  exact swapNow_runs hforme

end Sys2Proof.Machine
end

section
/-! SUPPORT. The statement about the course of an online change. -/

namespace Sys2Proof.Machine

/-- Settles O17, by the invocations, the end of a preparation and the swap. -/
theorem onlineChangeRunsItsCourse : Obligations.OnlineChangeRunsItsCourse := by
  refine ⟨?_, ?_, ?_⟩
  · intro t c s v answered hstandby
    have row {op : Byte} {i : Instr} {w : State} (hi : exec i s = .next (rowReq c 0xF002 1 [op] onlineChangeOp (advance t s)))
        (hw : writeHeard (found t s) c 0xF002 1 [op] = true)
        (hop : onlineChangeOp (op :: c.rest) c.hdr.session v = (.ok [], w)) : answered i w :=
      hi.trans (congrArg Host.Outcome.next (rowReq_answers hw hop))
    refine ⟨?_, fun hw hwaiting => ?_⟩
    · rintro op i (⟨rfl, rfl⟩ | ⟨rfl, rfl⟩) hw hidle hpending hchange hsigned
      · obtain ⟨w, hstart, hleaves⟩ := ocStart_leaves (op := 1) (n := c.hdr.session) hstandby hidle hpending hchange hsigned
        exact ⟨w, row rfl hw (by rw [onlineChangeOp, fieldAt_first]; exact hstart), hleaves⟩
      · obtain ⟨w, hstart, hleaves⟩ := ocStart_leaves (op := 2) (n := c.hdr.session) hstandby hidle hpending hchange hsigned
        exact ⟨w, row rfl hw (by rw [onlineChangeOp, fieldAt_first]; exact hstart), hleaves⟩
    · obtain ⟨w, hcancel, hleaves⟩ := ocCancel_waiting (n := c.hdr.session) hstandby hwaiting
      exact ⟨w, row rfl hw (by rw [onlineChangeOp, fieldAt_first]; exact hcancel), hleaves⟩
  · intro t f s v hstate hforme hverified halone hop habort hmode
    exact congrArg Host.Outcome.next
      (preparationEndState_waits (s := advance t s) hstate hforme hverified halone hop habort hmode)
  · intro t pause f s v hstate hforme hb hq hs
    exact ⟨_, rfl, swapState_quiet (s := advance t s) hstate hforme hb hq hs⟩

end Sys2Proof.Machine
end

section
/-! SUPPORT. No message that waited for a FORCE counts an update of a loop: what a tick has counted still stands once they
have been taken (04 R77; 09 Table 9.11). -/

namespace Sys2Proof.Machine

/-- How often each loop has been updated. -/
def loopUpdates (s : State) (n : Nat) : Nat := (getLoop s n).updates

theorem loopUpdates_of_frame {ps : List Part} {s t : State} (h : Untouched ps s t) (he : Part.eng ∉ ps := by decide) :
    loopUpdates t = loopUpdates s := by
  have heng : t.eng = s.eng := h.same .eng he
  funext n
  rw [loopUpdates, getLoop, heng, loopUpdates, getLoop]

theorem loopUpdates_modLoop {n : Nat} {f : Loop → Loop} {s : State} (hf : ∀ l, (f l).updates = l.updates) :
    loopUpdates (modLoop n f s) = loopUpdates s := by
  funext k
  rw [loopUpdates, getLoop_modLoop, loopUpdates]
  split
  next h => rw [hf, h]
  · rfl

theorem loopUpdates_forAll {f : Nat → State → State} (hf : ∀ n s, loopUpdates (f n s) = loopUpdates s) (l : List Nat)
    (s : State) : loopUpdates (forAll l f s) = loopUpdates s :=
  forAll_induct (P := fun x => loopUpdates x = loopUpdates s) l f (fun n x h => (hf n x).trans h) s rfl

/-! ### Requests -/

/-- A request that is served changes only what requests may change, but for what its operation does. -/
theorem serve_runs (h : Hdr) (service : Nat) (body : List Byte) (f : Nat → State → Answer × State) (s : State) :
    Untouched requestParts s (serve h service body f s) ∨
      ∃ x, Untouched requestParts s x ∧ Untouched requestParts (f h.session x).2 (serve h service body f s) := by
  have hsend (m : Sent) (x : State) : Untouched requestParts x (send m x) := (send_frame m x).mono (by decide)
  have hses (n : Nat) (g : Session → Session) : Untouched requestParts s (modSession n g s) :=
    (modSession_frame ..).mono (by decide)
  unfold serve
  dsimp only
  split
  · exact .inl (.refl ..)
  split
  · exact .inl ((await_frame ..).mono (by decide))
  split
  · exact .inl (hsend ..)
  split
  · exact .inl (hsend ..)
  split
  · split
    · exact .inl (((hses ..).step (closeSession_frame ..) (by decide)).step (emit_frame ..) (by decide))
    · exact .inl (hses ..)
  split
  · split
    · exact .inl ((hses ..).trans (hsend ..))
    · exact .inl (hses ..)
  split
  · exact .inl ((hses ..).trans (hsend ..))
  · exact .inr ⟨_, hses .., (answerOrWait_frame ..).mono (by decide)⟩

theorem serve_loopUpdates {f : Nat → State → Answer × State} (hf : ∀ n x, loopUpdates (f n x).2 = loopUpdates x) (h : Hdr)
    (service : Nat) (body : List Byte) (s : State) : loopUpdates (serve h service body f s) = loopUpdates s := by
  obtain hleft | ⟨x, htaken, hanswered⟩ := serve_runs h service body f s
  · exact loopUpdates_of_frame hleft
  · exact (loopUpdates_of_frame hanswered).trans ((hf ..).trans (loopUpdates_of_frame htaken))

theorem writeReq_loopUpdates {act : Nat → State → Answer × State} (hact : ∀ n x, loopUpdates (act n x).2 = loopUpdates x)
    (h : Hdr) (idx sub ty off : Nat) (data : List Byte) (s : State) :
    loopUpdates (writeReq h idx sub ty off data act s) = loopUpdates s := by
  refine serve_loopUpdates (fun n x => ?_) ..
  have hpruned : loopUpdates (pruneLeases x) = loopUpdates x := loopUpdates_of_frame (pruneLeases_frame x)
  dsimp only
  split
  · exact hpruned
  split
  · exact (loopUpdates_of_frame (stage_frame ..)).trans hpruned
  · exact (hact ..).trans hpruned

/-! ### TIME_RESTEP (06 R136, R138) -/

/-- The instants of the loops move with a step of local time; their counts do not. -/
theorem shiftInstants_loopUpdates (d : Int) (s : State) : loopUpdates (shiftInstants d s) = loopUpdates s := by
  unfold shiftInstants
  lift_lets -underBinder
  intro mv trackers slots checks banks tasks nodes _ _ _ _ _ rest
  have hnodes : loopUpdates nodes = loopUpdates s := calc
    loopUpdates nodes = loopUpdates tasks := loopUpdates_forAll (fun _ _ => loopUpdates_of_frame (modNode_frame ..)) ..
    _ = loopUpdates banks := loopUpdates_forAll (fun _ _ => loopUpdates_of_frame (modTask_frame ..)) ..
    _ = loopUpdates checks := loopUpdates_forAll (fun _ _ => loopUpdates_of_frame (modBank_frame ..)) ..
    _ = loopUpdates slots := loopUpdates_forAll (fun _ _ => loopUpdates_of_frame (modSc_frame ..)) ..
    _ = loopUpdates trackers := loopUpdates_forAll (fun _ _ => loopUpdates_of_frame (modSched_frame ..)) ..
    _ = loopUpdates s := loopUpdates_forAll (fun _ _ => loopUpdates_of_frame (modTracker_frame ..)) ..
  clear_value nodes
  have hrest : loopUpdates rest = loopUpdates s := hnodes
  clear_value rest
  rw [← hrest]
  refine loopUpdates_forAll (fun n x => ?_) ..
  exact loopUpdates_modLoop fun _ => rfl

theorem stepBy_loopUpdates (variant : Nat) (d : Int) (s : State) : loopUpdates (stepBy variant d s) = loopUpdates s := by
  unfold stepBy
  lift_lets -underBinder
  intro part shifted
  have hshifted : loopUpdates shifted = loopUpdates s :=
    (shiftInstants_loopUpdates ..).trans (loopUpdates_of_frame (stepTime_frame ..))
  clear_value shifted
  exact (loopUpdates_of_frame (emit_frame ..)).trans hshifted

theorem timeRestepOp_loopUpdates (data : List Byte) (n : Nat) (s : State) :
    loopUpdates (timeRestepOp data n s).2 = loopUpdates s := by
  have hdone (x : State) : loopUpdates (cmdNow 4 n [] x).2 = loopUpdates x := loopUpdates_of_frame (cmdNow_frame ..)
  have hrate (r : Int) (x : State) : loopUpdates (setRate r x) = loopUpdates x := loopUpdates_of_frame (setRate_frame ..)
  have hstep (d : Int) : loopUpdates (stepBy 2 d s) = loopUpdates s := stepBy_loopUpdates ..
  unfold timeRestepOp
  dsimp only
  split
  · split
    · rfl
    split
    · rfl
    have hstepped : loopUpdates (enterByTheta (stepBy 2 s.clk.theta s)) = loopUpdates s :=
      (loopUpdates_of_frame (enterByTheta_frame _)).trans (hstep _)
    refine (hdone _).trans ?_
    split
    · exact (hrate ..).trans hstepped
    · exact hstepped
  · split
    · rfl
    generalize hx : stepBy 2 (signedAt data 8 8 - localNow s) s = x
    have hstepped : loopUpdates x = loopUpdates s := by rw [← hx, hstep]
    refine (hdone _).trans ?_
    split
    · exact (hrate ..).trans hstepped
    · exact (hrate ..).trans hstepped
  · rfl

/-! ### The restart of a module (03 R63) -/

theorem storeRetain_loopUpdates (s : State) : loopUpdates (storeRetain s) = loopUpdates s := by
  have hall : loopUpdates (storeAll s) = loopUpdates s := loopUpdates_of_frame (storeAll_frame s)
  unfold storeRetain
  dsimp only
  split
  · exact hall
  · exact (loopUpdates_of_frame (sealAxes_frame _)).trans hall

theorem restartNow_loopUpdates (cause : Nat) (s : State) : loopUpdates (restartNow cause s) = loopUpdates s := by
  refine (loopUpdates_of_frame (goDown_frame ..)).trans ?_
  refine (loopUpdates_of_frame (writeFlashDue_frame _)).trans ?_
  refine (loopUpdates_of_frame (mirrorCounters_frame _)).trans ?_
  refine (loopUpdates_of_frame (drainQueue_frame ..)).trans ?_
  exact (loopUpdates_of_frame (powerFailRecord_frame _)).trans (storeRetain_loopUpdates s)

/-! ### WRITE and the messages that waited (04 R74, R77) -/

theorem objectOp_loopUpdates (idx sub off : Nat) (data : List Byte) (n : Nat) (s : State) :
    loopUpdates (objectOp idx sub off data n s).2 = loopUpdates s := by
  unfold objectOp
  split
  · exact loopUpdates_of_frame (modeSetOp_frame ..)
  split
  · exact loopUpdates_of_frame (onlineChangeOp_frame ..)
  split
  · exact loopUpdates_of_frame (readmitOp_frame ..)
  split
  · exact timeRestepOp_loopUpdates ..
  split
  · exact loopUpdates_of_frame (snapshotOp_frame ..)
  split
  · exact loopUpdates_of_frame (switchoverOp_frame ..)
  split
  · exact loopUpdates_of_frame (commitOp_frame ..)
  split
  · exact loopUpdates_of_frame (leaseOp_frame ..)
  split
  · exact loopUpdates_of_frame (forceOp_frame ..)
  split
  · exact loopUpdates_of_frame (domainResetOp_frame ..)
  split
  · exact loopUpdates_of_frame (patchOp_frame ..)
  · exact loopUpdates_of_frame (directOp_frame ..)

theorem restartsAfter_loopUpdates (idx : Nat) (s : State) : loopUpdates (restartsAfter idx s) = loopUpdates s := by
  simp only [restartsAfter, wholeRestart, patchRestart, apply_ite loopUpdates, restartNow_loopUpdates, ite_self]

theorem writeObjectState_loopUpdates (h : Hdr) (idx sub ty off : Nat) (data : List Byte) (s : State) :
    loopUpdates (writeObjectState h idx sub ty off data s) = loopUpdates s :=
  (restartsAfter_loopUpdates ..).trans
    ((writeReq_loopUpdates (objectOp_loopUpdates idx sub off data) ..).trans (loopUpdates_of_frame (closeDue_frame s)))

theorem serveObject_loopUpdates (h : Hdr) (write : Bool) (b : List Byte) (s : State) :
    loopUpdates (serveObject h write b s) = loopUpdates s := by
  unfold serveObject
  split
  · exact writeObjectState_loopUpdates ..
  · exact loopUpdates_of_frame (readState_frame ..)

theorem serveMsg_loopUpdates (m : Msg) (s : State) : loopUpdates (serveMsg m s) = loopUpdates s := by
  cases m with
  | openReq => exact loopUpdates_of_frame (openReqState_frame ..)
  | auth => exact loopUpdates_of_frame (authState_frame ..)
  | request h service b =>
    unfold serveMsg
    dsimp only
    split
    · exact serveObject_loopUpdates ..
    split
    · exact serveObject_loopUpdates ..
    split
    · exact loopUpdates_of_frame (closeState_frame ..)
    split
    · exact loopUpdates_of_frame (txnBeginState_frame ..)
    split
    · exact loopUpdates_of_frame (txnAbortState_frame ..)
    · exact loopUpdates_of_frame (keepaliveState_frame ..)

/-- No message that waited counts an update of a loop. -/
theorem serveWaiting_loopUpdates (s : State) : loopUpdates (serveWaiting s) = loopUpdates s := by
  unfold serveWaiting
  split
  · rfl
  · generalize hw : ({ s with sess := { s.sess with waiting := [] } } : State) = w
    have heng : loopUpdates w = loopUpdates s := by rw [← hw]; rfl
    rw [← heng]
    generalize s.sess.waiting = l
    clear hw heng
    induction l generalizing w with
    | nil => rfl
    | cons m l ih => exact (ih _).trans (serveMsg_loopUpdates m w)

end Sys2Proof.Machine
end

section
/-! SUPPORT. The statement about the loops of the control engine. -/

set_option Elab.async false

namespace Sys2Proof.Machine

/-- What the statement says of a tick's counts, freed from the messages that are taken after the tick. -/
theorem engineTick_counts (h : Obligations.LoopsSampleAndReleaseInTime) {t n : Nat} {s : State}
    (hup : engineUp (advance t s) = true) (hstop : (advance t s).prog.mode = .stop)
    (htick : (advance t s).eng.lastTick ≠ gridAt (advance t s) tickNs) (hactive : isStandby (advance t s) = false)
    (hown : (needsAck (advance t s) && handingHeld (advance t s)) = false) (hn : n ∈ loopsUsed (advance t s))
    (halone : groupOfLoop (advance t s) n = none)
    (hdue : clockDue (advance t s) (gridAt (advance t s) tickNs) n = true) :
    loopUpdates (engineTickState (applyFirst (advance t s))) n = (loopUpdates (advance t s) n + 1) % 2 ^ 32 := by
  obtain ⟨u, hexec, -, hloops⟩ := (h.1 t s hup (.inl hstop)).2 htick hactive hown
  obtain ⟨-, hcounted, -⟩ := hloops n hn halone hdue
  have hserved : serveWaiting (engineTickState (applyFirst (advance t s))) = serveWaiting u := Host.Outcome.next.inj hexec
  calc loopUpdates (engineTickState (applyFirst (advance t s))) n
      = loopUpdates (serveWaiting u) n := by rw [← hserved, serveWaiting_loopUpdates]
    _ = loopUpdates u n := by rw [serveWaiting_loopUpdates]
    _ = (loopUpdates (advance t s) n + 1) % 2 ^ 32 := hcounted

/-- A running module in STOP whose configuration lists `LOOP_PERIOD` of loop 0 twice: one configured loop that `loopsUsed` names
two times. -/
def loopListedTwice : State :=
  { State.reset with
    config := [(objKey 0x4000 1, [8, 0]), (objKey 0x4000 1, [8, 0])]
    pwr := { State.reset.pwr with phase := .up, domains := 0xFFF }
    pair := { State.reset.pair with state := .single } }

/-- At 1 ms the loop is due, and it has no update yet. -/
theorem loopListedTwice_due :
    let v := advance 1000000 loopListedTwice
    engineUp v = true ∧ v.prog.mode = .stop ∧ v.eng.lastTick ≠ gridAt v tickNs ∧ isStandby v = false ∧
      (needsAck v && handingHeld v) = false ∧ 0 ∈ loopsUsed v ∧ groupOfLoop v 0 = none ∧
      clockDue v (gridAt v tickNs) 0 = true ∧ loopUpdates v 0 = 0 := by
  decide +kernel

/-- The tick at 1 ms samples the loop once for each time it is listed. -/
theorem tick_loopListedTwice : loopUpdates (engineTickState (applyFirst (advance 1000000 loopListedTwice))) 0 = 2 := by
  decide +kernel

/-- Refutes O41: nothing in the statement keeps the configuration in its canonical form, in which no key is listed twice. Where
`LOOP_PERIOD` of a loop is, one tick samples the loop twice and counts two updates, not one. -/
theorem not_loopsSampleAndReleaseInTime : ¬ Obligations.LoopsSampleAndReleaseInTime := by
  intro h
  obtain ⟨hup, hstop, htick, hactive, hown, hn, halone, hdue, hnone⟩ := loopListedTwice_due
  have hone := engineTick_counts h hup hstop htick hactive hown hn halone hdue
  rw [tick_loopListedTwice, hnone] at hone
  exact absurd hone (by decide)

end Sys2Proof.Machine
end

section
/-! SUPPORT. The boot option and the straps are latched at a start and at no other command (02 R36; 10 R224; 16 R384). -/

namespace Sys2Proof.Machine

/-- Only STARTUP may start the module. -/
theorem allowed_start {i : Instr} (h : ∀ n env, i ≠ .startup n env) : (allowed i).start = false := by
  unfold allowed
  split
  case h_4 n env => exact absurd rfl (h n env)
  all_goals rfl

/-- Settles O6: every command keeps what `Lasting` names, and time's passing latches nothing. -/
theorem strapsAndBootOptionAreLatchedAtStart : Obligations.StrapsAndBootOptionAreLatchedAtStart := by
  intro i s t e h
  obtain ⟨n, u, e', w⟩ := exec_endsWithin i s
  obtain rfl := Host.Outcome.next.inj (e.symm.trans e')
  have lasts := w.kept.lasting
  exact ⟨lasts.boot (allowed_start h), lasts.posB (allowed_start h), lasts.pres (allowed_start h)⟩

end Sys2Proof.Machine
end

section
/-! SUPPORT. A fault of the safety complex: what SAFE_STOP and SAFE_HALT leave, and how a fault reaches one of them (10
R250). -/

namespace Sys2Proof

/-- A change of every listed value, by what holds between the old value and the new one; a key that is not listed reads the
default in both tables. -/
theorem Tbl.get_map {α : Type} {R : α → α → Prop} {f : Nat × α → α} {d : α} (hf : ∀ e, R e.2 (f e)) (hd : R d d)
    (m : Tbl α) (k : Nat) : R (Tbl.get m d k) (Tbl.get (m.map fun e => (e.1, f e)) d k) := by
  unfold Tbl.get
  induction m with
  | nil => exact hd
  | cons e r ih =>
    simp only [List.map_cons, Tbl.find]
    split
    · exact hf e
    · exact ih

end Sys2Proof

namespace Sys2Proof.Machine

/-! ### SAFE_STOP and SAFE_HALT -/

/-- The status points lie in the image. -/
theorem publishStatus_image (s : State) : Untouched [.img] s (publishStatus s) := by
  unfold publishStatus
  refine .foldl (fun t m ht => ?_) _ _ (.refl ..)
  split
  · refine .foldl (fun t j ht => ?_) _ _ ht
    dsimp only
    split
    · exact ht.step (produce_frame ..) (by decide)
    · exact ht.step (produce_frame ..) (by decide)
  · exact ht

@[simp] theorem publishStatus_safe (s : State) : (publishStatus s).safe = s.safe :=
  (publishStatus_image s).same .safe (by decide)

@[simp] theorem publishStatus_sio (s : State) : (publishStatus s).sio = s.sio :=
  (publishStatus_image s).same .sio (by decide)

@[simp] theorem enterSafety_sio (st : SafetyState) (s : State) : (enterSafety st s).sio = s.sio :=
  (enterSafety_frame st s).same .sio (by decide)

@[simp] theorem sfStart_safe (s : State) : (sfStart s).safe = s.safe := (sfStart_frame s).same .safe (by decide)

/-- The new start of the functions leaves the stages. -/
theorem sfStart_stages (s : State) : (sfStart s).sio.stages = s.sio.stages := by
  unfold sfStart
  refine forAll_induct (P := fun x => x.sio.stages = s.sio.stages) _ _ ?_ _ rfl
  exact fun _ _ h => h

/-- What the new start of the data and the functions leaves of the complex. -/
theorem startFunctions_leaves (s : State) :
    (startFunctions s).safe = { s.safe with coded := (startFunctions s).safe.coded } ∧
      (startFunctions s).sio.stages = s.sio.stages := by
  refine ⟨?_, sfStart_stages s⟩
  simp only [startFunctions, codeFunctions, sfStart_safe]

/-- SAFE_STOP keeps the counted faults, the cycle, the window's draw, the vector and the stages. -/
theorem safeStop_standing (s : State) :
    (safeStop s).safe.counted = s.safe.counted ∧ (safeStop s).safe.k = s.safe.k ∧ (safeStop s).safe.lfsr = s.safe.lfsr ∧
      (safeStop s).safe.vector = s.safe.vector ∧ (safeStop s).sio.stages = s.sio.stages := by
  obtain ⟨hsafe, hstages⟩ := startFunctions_leaves (reinitSafety (dropPasses s))
  simp only [safeStop, enterSafety_safe, enterSafety_sio]
  rw [hsafe, hstages]
  exact ⟨rfl, rfl, rfl, rfl, rfl⟩

/-- Every output goes off but for a switch that is stuck. -/
theorem getStage_stagesOff (s : State) (k : Nat) :
    (getStage (stagesOff s) k).hOn = ((getStage s k).hOn && (getStage s k).hStuck) ∧
      (getStage (stagesOff s) k).lOn = ((getStage s k).lOn && (getStage s k).lStuck) := by
  exact Tbl.get_map (R := fun x y : SoStage => y.hOn = (x.hOn && x.hStuck) ∧ y.lOn = (x.lOn && x.lStuck))
    (fun _ => ⟨rfl, rfl⟩) ⟨rfl, rfl⟩ s.sio.stages k

/-- SAFE_HALT keeps the cause and clears the vector. -/
theorem safeHalt_leaves (s : State) :
    (safeHalt s).safe.state = .safeHalt ∧ (safeHalt s).safe.cause = s.safe.cause ∧ (safeHalt s).safe.vector = 0 := by
  simp only [safeHalt, publishStatus_safe, stagesOff, dropPasses, enterSafety_safe, and_self]

theorem getStage_safeHalt (s : State) (k : Nat) :
    (getStage (safeHalt s) k).hOn = ((getStage s k).hOn && (getStage s k).hStuck) := by
  have before : getStage (dropPasses (enterSafety .safeHalt s)) k = getStage s k :=
    congrArg (fun x : Sio => Tbl.get x.stages {} k) (enterSafety_sio ..)
  have after (x : State) : getStage (publishStatus x) k = getStage x k :=
    congrArg (fun x : Sio => Tbl.get x.stages {} k) (publishStatus_sio x)
  rw [safeHalt, after, (getStage_stagesOff ..).1, before]

/-! ### Faults -/

@[simp] theorem noteSafetyFault_safe (cause core : Nat) (s : State) : (noteSafetyFault cause core s).safe = { s.safe with
    cause := cause, faults := (s.safe.faults + 1) % 2 ^ 32
    windowFault := s.safe.windowFault || decide (cause ≠ 0x0D) } := by
  simp only [noteSafetyFault, emit_fields]

@[simp] theorem noteSafetyFault_sio (cause core : Nat) (s : State) : (noteSafetyFault cause core s).sio = s.sio := by
  simp only [noteSafetyFault, emit_fields]

@[simp] theorem noteSafetyFault_now (cause core : Nat) (s : State) : (noteSafetyFault cause core s).now = s.now := by
  simp only [noteSafetyFault, emit_fields]

/-- What noting and counting a fault, SAFE_HALT and SAFE_STOP keep, a fault keeps. -/
theorem safetyFault_induct {P : State → Prop} (note : ∀ cause core s, P s → P (noteSafetyFault cause core s))
    (count : ∀ l s, P s → P { s with safe := { s.safe with counted := l } }) (halt : ∀ s, P s → P (safeHalt s))
    (stop : ∀ s, P s → P (safeStop s)) (cause core : Nat) {s : State} (h : P s) : P (safetyFault cause core s) := by
  unfold safetyFault
  dsimp only
  split
  · exact h
  · split
    · exact halt _ (note _ _ _ h)
    · split
      · exact halt _ (note _ _ _ (count _ _ (note _ _ _ h)))
      · exact stop _ (count _ _ (note _ _ _ h))

/-- The first fault of 10 s in a running complex, unless it is one that halts, is counted and enters SAFE_STOP; the cycle and
the draw of its window stand. -/
theorem safetyFault_first {cause core : Nat} {s : State} (hcause : halting cause = false) (hs : s.safe.state = .running)
    (hn : s.safe.counted = []) :
    let u := safetyFault cause core s
    u.safe.state = .safeStop ∧ u.safe.cause = cause ∧ u.safe.counted = [s.now] ∧ u.safe.k = s.safe.k ∧
      u.safe.lfsr = s.safe.lfsr := by
  have stops : safetyFault cause core s = safeStop { noteSafetyFault cause core s with
      safe := { (noteSafetyFault cause core s).safe with counted := [s.now] } } := by
    simp [safetyFault, hs, hcause, hn, addFault]
  rw [stops]
  generalize hx : { noteSafetyFault cause core s with
    safe := { (noteSafetyFault cause core s).safe with counted := [s.now] } } = x
  have hsafe : x.safe = { (noteSafetyFault cause core s).safe with counted := [s.now] } := hx ▸ rfl
  obtain ⟨hstate, hkeeps, -⟩ := safeStop_leaves x
  obtain ⟨hcounted, hk, hlfsr, -, -⟩ := safeStop_standing x
  simp only [hstate, hkeeps, hcounted, hk, hlfsr, hsafe, noteSafetyFault_safe, and_self]

/-- A cause that halts takes a running complex to SAFE_HALT. -/
theorem safetyFault_halts {cause core : Nat} {s : State} (hcause : halting cause = true) (hs : s.safe.state = .running) :
    let u := safetyFault cause core s
    u.safe.state = .safeHalt ∧ u.safe.cause = cause ∧ u.safe.vector = 0 := by
  have halts : safetyFault cause core s = safeHalt (noteSafetyFault cause core s) := by
    simp [safetyFault, hs, hcause]
  rw [halts]
  obtain ⟨hstate, hkeeps, hvector⟩ := safeHalt_leaves (noteSafetyFault cause core s)
  exact ⟨hstate, hkeeps.trans (by rw [noteSafetyFault_safe]), hvector⟩

/-- A vector that is off stays off through a fault. -/
theorem safetyFault_vector (cause core : Nat) {s : State} (h : s.safe.vector = 0) :
    (safetyFault cause core s).safe.vector = 0 := by
  refine safetyFault_induct (P := fun x => x.safe.vector = 0) (fun _ _ x hx => ?_) (fun _ _ hx => hx)
    (fun x _ => (safeHalt_leaves x).2.2) (fun x hx => ?_) cause core h
  · rw [noteSafetyFault_safe]
    exact hx
  · obtain ⟨-, -, -, hvector, -⟩ := safeStop_standing x
    exact hvector.trans hx

/-- A high-side switch that is off stays off through a fault. -/
theorem safetyFault_hOn (cause core k : Nat) {s : State} (h : (getStage s k).hOn = false) :
    (getStage (safetyFault cause core s) k).hOn = false := by
  refine safetyFault_induct (P := fun x => (getStage x k).hOn = false) (fun _ _ x hx => ?_) (fun _ _ hx => hx)
    (fun x hx => ?_) (fun x hx => ?_) cause core h
  · rw [getStage, noteSafetyFault_sio]
    exact hx
  · rw [getStage_safeHalt, hx, Bool.false_and]
  · obtain ⟨-, -, -, -, hstages⟩ := safeStop_standing x
    rw [getStage, hstages]
    exact hx

end Sys2Proof.Machine
end

section
/-! SUPPORT. The output stages: the vector applied, tokens good, repeated and missing, off-tests and the faults that latch
an output (10 R245, R246; 11 R274 to R278, R282). -/

namespace Sys2Proof.Machine

/-! ### Loops over the outputs -/

theorem getStage_congr {s t : State} (h : t.sio.stages = s.sio.stages) (k : Nat) : getStage t k = getStage s k := by
  rw [getStage, h]
  rfl

section
variable {f : Nat → State → State} {k : Nat}

theorem forAll_stage_other (other : ∀ n x, n ≠ k → getStage (f n x) k = getStage x k) {l : List Nat} (hl : k ∉ l)
    (s : State) : getStage (forAll l f s) k = getStage s k := by
  induction l generalizing s with
  | nil => rfl
  | cons a r ih =>
    obtain ⟨ha, hr⟩ := List.ne_and_not_mem_of_not_mem_cons hl
    exact (ih hr _).trans (other a s ha.symm)

/-- A loop by an operation that changes its own stage alone leaves a stage as its own turn does. -/
theorem forAll_stage {P : SoStage → Prop} {Q : State → Prop}
    (other : ∀ n x, n ≠ k → getStage (f n x) k = getStage x k) (keep : ∀ n x, n ≠ k → Q x → Q (f n x))
    (own : ∀ x, Q x → P (getStage (f k x) k)) {l : List Nat} (hl : l.Nodup) (hk : k ∈ l) {s : State} (hs : Q s) :
    P (getStage (forAll l f s) k) := by
  induction l generalizing s with
  | nil => exact absurd hk List.not_mem_nil
  | cons a r ih =>
    obtain ⟨ha, hr⟩ := List.nodup_cons.1 hl
    by_cases h : a = k
    · subst h
      rw [show forAll (a :: r) f s = forAll r f (f a s) from rfl, forAll_stage_other other ha]
      exact own s hs
    · exact ih hr (List.mem_of_ne_of_mem (Ne.symm h) hk) (keep a s h hs)

end

/-! ### The vector applied (R245; 11 R274) -/

theorem soField_congr {s t : State} (h : t.config = s.config) (k o w : Nat) : soField t k o w = soField s k o w := by
  unfold soField cfgBytes
  rw [h]

/-- The vector has the bits of both switches of an output. -/
def wanted (s : State) (k : Nat) : Bool := bitOf s.safe.vector (2 * k) && bitOf s.safe.vector (2 * k + 1)

theorem soApply_other (n : Nat) {k : Nat} (s : State) (h : n ≠ k) : getStage (soApply n s) k = getStage s k := by
  simp only [soApply, getStage_modStage, if_neg (Ne.symm h)]

section
variable {k : Nat} {s : State}

/-- An output that nothing holds off goes on with both bits. -/
theorem soApply_on (hw : wanted s k = true) (hl : (getStage s k).latched = false) (hf : s.pwr.fsbOff = false)
    (hu : soField s k 0 1 ≠ 0) (ht : (getStage s k).testing = 0) :
    (getStage (soApply k s) k).hOn = true ∧ (getStage (soApply k s) k).lOn = true := by
  unfold wanted at hw
  simp [soApply, hw, hl, hf, hu, ht]

/-- An output without both bits goes off but for a switch that is stuck. -/
theorem soApply_off (hw : wanted s k = false) :
    (getStage (soApply k s) k).hOn = ((getStage s k).hOn && (getStage s k).hStuck) ∧
      (getStage (soApply k s) k).lOn = ((getStage s k).lOn && (getStage s k).lStuck) := by
  unfold wanted at hw
  simp [soApply, hw]

/-- Each stage applies the vector as it does alone. -/
theorem applyVector_stage {P : SoStage → Prop} (hk : k < 8)
    (own : ∀ x, Untouched [.sio] s x → getStage x k = getStage s k → P (getStage (soApply k x) k)) :
    P (getStage (applyVector s) k) :=
  forAll_stage (Q := fun x => Untouched [.sio] s x ∧ getStage x k = getStage s k) (fun n x => soApply_other n x)
    (fun n x hn hx => ⟨hx.1.trans (soApply_frame n x), (soApply_other n x hn).trans hx.2⟩)
    (fun x hx => own x hx.1 hx.2) List.nodup_range (List.mem_range.2 hk) ⟨.refl .., rfl⟩

theorem wanted_congr {t : State} (h : Untouched [.sio] s t) : wanted t k = wanted s k := by
  rw [wanted, show t.safe = s.safe from h.same .safe (by decide)]
  rfl

theorem applyVector_on (hk : k < 8) (hw : wanted s k = true) (hl : (getStage s k).latched = false)
    (hf : s.pwr.fsbOff = false) (hu : soField s k 0 1 ≠ 0) (ht : (getStage s k).testing = 0) :
    (getStage (applyVector s) k).hOn = true ∧ (getStage (applyVector s) k).lOn = true := by
  refine applyVector_stage (P := fun y => y.hOn = true ∧ y.lOn = true) hk fun x hx hstage => ?_
  have hpwr : x.pwr = s.pwr := hx.same .pwr (by decide)
  have hconfig : x.config = s.config := hx.same .config (by decide)
  exact soApply_on ((wanted_congr hx).trans hw) (by rw [hstage, hl]) (by rw [hpwr, hf]) (by rwa [soField_congr hconfig])
    (by rw [hstage, ht])

theorem applyVector_off (hk : k < 8) (hw : wanted s k = false) :
    (getStage (applyVector s) k).hOn = ((getStage s k).hOn && (getStage s k).hStuck) ∧
      (getStage (applyVector s) k).lOn = ((getStage s k).lOn && (getStage s k).lStuck) := by
  refine applyVector_stage (P := fun y => y.hOn = ((getStage s k).hOn && (getStage s k).hStuck) ∧
    y.lOn = ((getStage s k).lOn && (getStage s k).lStuck)) hk fun x hx hstage => ?_
  rw [← hstage]
  exact soApply_off ((wanted_congr hx).trans hw)

end

@[simp] theorem applyVector_safe (s : State) : (applyVector s).safe = s.safe := (applyVector_frame s).same .safe (by decide)

/-! ### Tokens (R245) -/

/-- The two token values. -/
def isToken (tok : Nat) : Prop := tok = 0x5A ∨ tok = 0xA5

section
variable {tok k : Nat} {s : State}

theorem tokenState_good (hs : safetyRuns s = true) (ht : isToken tok) (hne : tok ≠ s.safe.lastToken) :
    tokenState tok s = goodToken tok s := by
  rcases ht with rfl | rfl <;> simp [tokenState, hs, hne]

theorem tokenState_repeated (hs : safetyRuns s = true) (ht : isToken tok) (he : tok = s.safe.lastToken) :
    tokenState tok s = tokenFault s := by
  rcases ht with rfl | rfl <;> simp [tokenState, hs, ← he]

/-- The count that a good token leaves. -/
def tokenCounted (tok : Nat) (s : State) : State :=
  { s with safe := { s.safe with lastToken := tok, missed := 0, goodTokens := min 16 (s.safe.goodTokens + 1) } }

theorem goodToken_on (h : s.safe.stageOff = false) : goodToken tok s = applyVector (tokenCounted tok s) := by
  simp only [goodToken, h, Bool.false_eq_true, if_false, tokenCounted]

theorem goodToken_counts (h : s.safe.stageOff = true) (hn : s.safe.goodTokens < 15) :
    goodToken tok s = tokenCounted tok s := by
  simp only [goodToken, h, if_true, if_neg (show ¬ 16 ≤ s.safe.goodTokens + 1 by omega), tokenCounted]

theorem goodToken_returns (h : s.safe.stageOff = true) (hn : s.safe.goodTokens = 15) :
    (goodToken tok s).safe.stageOff = false := by
  simp only [goodToken, h, if_true, hn, Nat.reduceAdd, Nat.le_refl, applyVector_safe]

/-- A token fault switches every output off. -/
theorem tokenFault_leaves (s : State) :
    (tokenFault s).safe.stageOff = true ∧ (tokenFault s).safe.goodTokens = 0 ∧ (tokenFault s).safe.vector = 0 :=
  ⟨rfl, rfl, safetyFault_vector 6 _ rfl⟩

theorem tokenFault_hOn (hk : (getStage s k).hStuck = false) : (getStage (tokenFault s) k).hOn = false := by
  refine safetyFault_hOn 6 _ k ?_
  rw [(getStage_stagesOff ..).1]
  exact (congrArg ((getStage s k).hOn && ·) hk).trans (Bool.and_false _)

/-- What a missing token leaves before the second in a row is judged. -/
def missCounted (s : State) : State :=
  emit 0x1600 0 (leBytes 4 s.safe.k) { s with safe := { s.safe with
    misses := (s.safe.misses + 1) % 2 ^ 32, missed := s.safe.missed + 1, goodTokens := 0
    lastToken := nextToken s.safe.lastToken, missHistory := true :: s.safe.missHistory.drop 1 } }

theorem missCounted_safe (s : State) : (missCounted s).safe = { s.safe with
    misses := (s.safe.misses + 1) % 2 ^ 32, missed := s.safe.missed + 1, goodTokens := 0
    lastToken := nextToken s.safe.lastToken, missHistory := true :: s.safe.missHistory.drop 1 } := by
  simp only [missCounted, emit_fields]

@[simp] theorem missCounted_sio (s : State) : (missCounted s).sio = s.sio := by
  simp only [missCounted, emit_fields]

theorem tokenMissingState_runs (hs : safetyRuns s = true) :
    tokenMissingState s = if 2 ≤ (missCounted s).safe.missed then tokenFault (missCounted s) else missCounted s := by
  simp only [tokenMissingState, hs, Bool.not_true, Bool.false_eq_true, if_false]
  rfl

end

/-! ### Off-tests and latching faults (11 R275 to R278, R282) -/

/-- A fault latches its output with every switch off that still works. -/
theorem getStage_latchOutput (k variant : Nat) (f : SoStage → SoStage) (s : State) :
    getStage (latchOutput k variant f s) k =
      let y := f (getStage s k)
      { y with
        latched := true, offSeen := false, hOn := y.hOn && y.hStuck, lOn := y.lOn && y.lStuck
        testDiscarded := y.testDiscarded || y.testing != 0, testing := 0 } := by
  have recorded (code src : Nat) (x : State) : (emit code src [] x).sio.stages = x.sio.stages := by simp only [emit_fields]
  simp only [latchOutput, getStage_congr (recorded ..), getStage_modStage, if_pos]

/-- An off-test opens the switch it names. -/
theorem offTestState_opens {k : Nat} {high : Bool} {s : State} (hs : stagesUp s = true) (hon : (getStage s k).hOn = true)
    (lon : (getStage s k).lOn = true) (hc : (getStage s k).committed = true) (ht : (getStage s k).testing = 0)
    (hm : s.safe.missed = 0) :
    (getStage (offTestState k high s) k).hOn = !high ∧ (getStage (offTestState k high s) k).lOn = high := by
  cases high <;> simp [offTestState, hs, hon, lon, hc, ht, hm]

theorem endPulse_high {d : Bool} {x : SoStage} (h : x.testing = 1) : (endPulse d x).hOn = true := by simp [endPulse, h]

theorem endPulse_low {d : Bool} {x : SoStage} (h : x.testing = 2) : (endPulse d x).lOn = true := by simp [endPulse, h]

section
variable {k : Nat} {chain : Bool} {s : State}

theorem offTestEndState_discards (ht : (getStage s k).testing ≠ 0) (hp : s.pwr.presLow = true) :
    getStage (offTestEndState k reached false s) k = endPulse true (getStage s k) := by
  simp [offTestEndState, ht, hp]

theorem offTestEndState_closes (ht : (getStage s k).testing ≠ 0) (hp : s.pwr.presLow = false ∨ chain = true) :
    getStage (offTestEndState k true chain s) k = endPulse false (getStage s k) := by
  rcases hp with hp | rfl <;> simp [offTestEndState, *]

theorem offTestEndState_latches (ht : (getStage s k).testing ≠ 0) (hp : s.pwr.presLow = false ∨ chain = true) :
    offTestEndState k false chain s = if (getStage s k).testing = 1 then
        latchOutput k 1 (fun x => { x with hStuck := true, hOn := true, testing := 0, testDiscarded := false }) s
      else latchOutput k 2 (fun x => { x with lStuck := true, lOn := true, testing := 0, testDiscarded := false }) s := by
  rcases hp with hp | rfl <;> simp [offTestEndState, *]

/-- External drive of an output that is off latches it, but at unit A of a pair. -/
theorem soExternalDriveState_latches (hs : stagesUp s = true) (hp : s.pwr.presLow = false ∨ s.pwr.posB = true)
    (hoff : (getStage s k).hOn = false ∨ (getStage s k).lOn = false) (ht : (getStage s k).testing = 0)
    (he : (getStage s k).external = false) :
    soExternalDriveState k true s = latchOutput k 4 (fun x => { x with external := true, causeGone := false }) s := by
  rcases hp with hp | hp <;> rcases hoff with hoff | hoff <;> simp [soExternalDriveState, hs, hp, hoff, ht, he]

theorem soExternalDriveState_ends (hs : stagesUp s = true) (hp : s.pwr.presLow = false ∨ s.pwr.posB = true) :
    soExternalDriveState k false s = modStage k (fun x => { x with causeGone := true }) s := by
  rcases hp with hp | hp <;> simp [soExternalDriveState, hs, hp]

end

/-- Overcurrent latches an output with a switch on. -/
theorem execSoOvercurrent_latches {t : Nat} {k : Fin 8} {s : State} (hs : stagesUp (advance t s) = true)
    (hon : (getStage (advance t s) k).hOn = true ∨ (getStage (advance t s) k).lOn = true)
    (ho : (getStage (advance t s) k).overcurrent = false) :
    execSoOvercurrent t k s = .next (latchOutput k 3 (fun x => { x with overcurrent := true }) (advance t s)) := by
  rcases hon with hon | hon <;> simp [execSoOvercurrent, hs, hon, ho]

/-- Feedback that has not followed latches its output. -/
theorem execFeedbackTimeout_latches {t : Nat} {k : Fin 8} {s : State} (hs : stagesUp (advance t s) = true)
    (hu : soField (advance t s) k 0 1 ≠ 0) (hw : feedbackWrong (advance t s) k = true)
    (hf : (getStage (advance t s) k).feedback = false) :
    execFeedbackTimeout t k s = .next (latchOutput k 5 (fun x => { x with feedback := true }) (advance t s)) := by
  simp [execFeedbackTimeout, hs, hu, hw, hf]

/-- Settles O48: tokens by the stages' watchdog, each event of an output by what it does to its stage. -/
theorem safetyOutputsFollowTokensAndLatch : Obligations.SafetyOutputsFollowTokensAndLatch := by
  refine ⟨?_, ?_⟩
  · intro t tok s v hruns
    refine ⟨fun htok => ⟨fun hne hstages => ⟨tokenState tok v, rfl, ?_⟩, fun hne hstages hn => ⟨tokenState tok v, rfl, ?_⟩,
      fun hne hstages hn => ⟨tokenState tok v, rfl, ?_⟩, fun he => ⟨tokenState tok v, rfl, ?_⟩⟩,
      fun hm => ⟨tokenMissingState v, rfl, ?_⟩, fun hm => ⟨tokenMissingState v, rfl, ?_⟩⟩
    · rw [tokenState_good hruns htok hne, goodToken_on hstages, applyVector_safe]
      exact ⟨rfl, rfl, fun k hk => ⟨applyVector_on (s := tokenCounted tok v) hk, applyVector_off (s := tokenCounted tok v) hk⟩⟩
    · rw [tokenState_good hruns htok hne, goodToken_counts hstages hn]
      exact ⟨Nat.min_eq_right (by omega), hstages, rfl⟩
    · rw [tokenState_good hruns htok hne]
      exact goodToken_returns hstages hn
    · rw [tokenState_repeated hruns htok he]
      obtain ⟨hoff, hgood, hvector⟩ := tokenFault_leaves v
      exact ⟨hoff, hgood, hvector, fun k _ => tokenFault_hOn⟩
    · have hone : (missCounted v).safe.missed = 1 := by rw [missCounted_safe, hm]
      rw [tokenMissingState_runs hruns, hone, if_neg (by decide)]
      exact ⟨hone, missCounted_sio v, by rw [missCounted_safe], by rw [missCounted_safe], by rw [missCounted_safe]⟩
    · have htwo : 2 ≤ (missCounted v).safe.missed := by
        rw [missCounted_safe]
        exact Nat.succ_le_succ hm
      rw [tokenMissingState_runs hruns, if_pos htwo]
      obtain ⟨hoff, -, hvector⟩ := tokenFault_leaves (missCounted v)
      exact ⟨hoff, hvector⟩
  · intro t k s v x hs
    refine ⟨fun high hon lon hc ht hm => ⟨offTestState k high v, rfl, offTestState_opens hs hon lon hc ht hm⟩,
      fun reached chain ht => ⟨fun hp hc => ⟨offTestEndState k reached chain v, rfl, ?_⟩,
        fun hp hr => ⟨offTestEndState k reached chain v, rfl, ?_⟩, fun hp hr => ⟨offTestEndState k reached chain v, rfl, ?_⟩⟩,
      fun hon ho => ⟨_, execSoOvercurrent_latches hs hon ho, ?_⟩,
      fun hp hoff ht he => ⟨soExternalDriveState k true v, rfl, ?_⟩, fun hp => ⟨soExternalDriveState k false v, rfl, ?_⟩,
      fun hu hw hf => ⟨_, execFeedbackTimeout_latches hs hu hw hf, ?_⟩⟩
    · rw [hc, offTestEndState_discards ht hp]
      exact ⟨rfl, rfl, rfl⟩
    · rw [hr, offTestEndState_closes ht hp]
      exact ⟨rfl, rfl, endPulse_high, endPulse_low⟩
    · rw [hr, offTestEndState_latches ht hp]
      split
      next h =>
        rw [getStage_latchOutput]
        exact ⟨rfl, fun _ => ⟨rfl, rfl⟩, fun hn => absurd h hn⟩
      next h =>
        rw [getStage_latchOutput]
        exact ⟨rfl, fun hn => absurd hn h, fun _ => ⟨rfl, rfl⟩⟩
    · rw [getStage_latchOutput]
      exact ⟨rfl, rfl, rfl⟩
    · rw [soExternalDriveState_latches hs hp hoff ht he, getStage_latchOutput]
      exact ⟨rfl, rfl⟩
    · rw [soExternalDriveState_ends hs hp, getStage_modStage, if_pos rfl]
      exact ⟨rfl, rfl⟩
    · rw [getStage_latchOutput]
      exact ⟨rfl, rfl⟩

end Sys2Proof.Machine
end

section
/-! SUPPORT. A safety cycle starts: what its start and the evaluation of pass A leave of the cycle just committed, and the
start of pass A (10 R231, R235, R237). -/

namespace Sys2Proof.Machine

/-- What the start of a cycle leaves once the banks are latched: the complex's state, cycle, committed vector, counted faults
and configuration, the output stages and the latched values of the terminals. -/
structure CycleView where
  now : Nat
  state : SafetyState
  k : Nat
  cycles : Nat
  vector : Nat
  counted : List Nat
  forme : Option Forme
  newConfig : Option Nat
  sealHash : Nat
  stages : Tbl SoStage
  latches : Nat → Bool × Bool

/-- The view of a state. -/
def cycleView (s : State) : CycleView :=
  let x := s.safe
  ⟨s.now, x.state, x.k, x.cycles, x.vector, x.counted, x.forme, x.newConfig, x.sealHash, s.sio.stages,
    fun j => ((getTerm s j).latch1, (getTerm s j).latch2)⟩

/-- An operation that keeps the clock and the two safety parts keeps the view. -/
theorem cycleView_of_frame {s t : State} {ps : List Part} (h : Untouched ps s t)
    (hps : (Part.now ∉ ps ∧ .safe ∉ ps) ∧ .sio ∉ ps := by decide) : cycleView t = cycleView s := by
  obtain ⟨⟨pnow, psafe⟩, psio⟩ := hps
  have hnow : t.now = s.now := h.same .now pnow
  have hsafe : t.safe = s.safe := h.same .safe psafe
  have hsio : t.sio = s.sio := h.same .sio psio
  simp only [cycleView, getTerm, hnow, hsafe, hsio]

@[simp] theorem cycleView_emit (code src : Nat) (data : List Byte) (s : State) :
    cycleView (emit code src data s) = cycleView s := cycleView_of_frame (emit_frame ..)

@[simp] theorem cycleView_noteSafetyFault (cause core : Nat) (s : State) :
    cycleView (noteSafetyFault cause core s) = cycleView s := by
  simp only [cycleView, getTerm, noteSafetyFault_now, noteSafetyFault_safe, noteSafetyFault_sio]

@[simp] theorem cycleView_modSf (n : Nat) (f : SfInst → SfInst) (s : State) : cycleView (modSf n f s) = cycleView s := rfl

theorem cycleView_modTerm {f : Terminal → Terminal} (hf : ∀ x, (f x).latch1 = x.latch1 ∧ (f x).latch2 = x.latch2) (n : Nat)
    (s : State) : cycleView (modTerm n f s) = cycleView s := by
  have latches : (cycleView (modTerm n f s)).latches = (cycleView s).latches := by
    funext j
    obtain ⟨h1, h2⟩ := hf (getTerm s n)
    simp only [cycleView, getTerm_modTerm]
    split
    · next hj => rw [h1, h2, hj]
    · rfl
  exact congrArg (fun l => { cycleView s with latches := l }) latches

theorem cycleView_forAll {f : Nat → State → State} (hf : ∀ n x, cycleView (f n x) = cycleView x) (l : List Nat) (s : State) :
    cycleView (forAll l f s) = cycleView s :=
  forAll_induct (P := fun x => cycleView x = cycleView s) l f (fun n x hx => (hf n x).trans hx) s rfl

/-! ### The evaluation of pass A -/

theorem cycleView_captureCounts (s : State) : cycleView (captureCounts s) = cycleView s := by
  refine cycleView_forAll (fun j x => ?_) _ s
  simp only [apply_ite cycleView, cycleView_emit, cycleView_noteSafetyFault, ite_self]
  split
  · rw [cycleView_modTerm]
    exact fun _ => ⟨rfl, rfl⟩
  · rw [cycleView_modTerm]
    exact fun _ => ⟨rfl, rfl⟩

theorem cycleView_evalSafe (f : Nat) (s : State) : cycleView (evalSafe f s) = cycleView s := by
  simp only [evalSafe, apply_ite cycleView, cycleView_emit, cycleView_modSf, ite_self]

theorem cycleView_evalHands (f : Nat) (s : State) : cycleView (evalHands f s) = cycleView s := by
  simp only [evalHands, apply_ite cycleView, cycleView_emit, cycleView_modSf, ite_self]

theorem cycleView_evaluate (s : State) : cycleView (evaluate s) = cycleView s := by
  unfold evaluate
  split
  · rfl
  · refine cycleView_forAll (fun f x => ?_) _ s
    rw [apply_ite cycleView, cycleView_evalHands, cycleView_evalSafe, ite_self]

/-- An evaluation forms the agreed vector beside what it counts and notes. -/
theorem cycleView_evaluation (s : State) : cycleView (evaluation s) = cycleView s := by
  have counts (x : State) : cycleView (dualCounts x) = cycleView x := by
    refine cycleView_forAll ?_ _ x
    exact fun _ _ => rfl
  unfold evaluation
  rw [cycleView_evaluate, counts]
  exact cycleView_captureCounts s

/-! ### The start of a cycle -/

/-- Both banks latch what their capture paths accepted. -/
theorem latchInputs_terms (s : State) (j : Nat) :
    (getTerm (latchInputs s) j).latch1 = (getTerm s j).bank1 ∧ (getTerm (latchInputs s) j).latch2 = (getTerm s j).bank2 :=
  Tbl.get_map (R := fun x y : Terminal => y.latch1 = x.bank1 ∧ y.latch2 = x.bank2) (fun _ => ⟨rfl, rfl⟩) ⟨rfl, rfl⟩
    s.sio.terms j

theorem cycleView_startPassA (s : State) : cycleView (startPassA s) = cycleView s := by
  unfold startPassA
  split
  · split <;> rfl
  · rfl

/-- Pass A starts 25 µs later where a forme runs and no new configuration waits. -/
theorem startPassA_starts {s : State} (hf : s.safe.forme.isSome = true) (hn : s.safe.newConfig = none) :
    (startPassA s).safe.passA.running = true ∧ (startPassA s).safe.passA.startedAt = s.now + 25000 := by
  obtain ⟨f, hf⟩ := Option.isSome_iff_exists.1 hf
  simp only [startPassA, hf, hn, Option.isSome_none, Bool.false_eq_true, if_false]
  exact ⟨rfl, rfl⟩

theorem cycleView_windowStart (s : State) : cycleView (windowStart s) = cycleView s := by
  unfold windowStart
  split <;> rfl

/-- The cycle is noted and its mailbox posted. -/
def cyclePosted (s : State) : State := postMailbox { s with safe := { s.safe with
  compared := false, equal := false, cycleAt := s.now
  missHistory := (false :: s.safe.missHistory).take 16
  soAtStart := (List.range 8).foldl (fun t k => Tbl.put t 0 k (soStatus (getStage s k))) [] } }

theorem cycleStart_punctual (s : State) :
    cycleStart false s = startPassA (evaluation (cyclePosted (windowStart (latchInputs s)))) := by
  simp only [cycleStart, Bool.false_eq_true, false_and, if_false]
  rfl

/-- A cycle starts with what is committed as it was, and with pass A on its way. -/
theorem cycleStart_leaves (s : State) :
    cycleView (cycleStart false s) = cycleView (latchInputs s) ∧
      (s.safe.forme.isSome = true → s.safe.newConfig = none → (cycleStart false s).safe.passA.running = true ∧
        (cycleStart false s).safe.passA.startedAt = s.now + 25000) := by
  have evaluated : cycleView (evaluation (cyclePosted (windowStart (latchInputs s)))) = cycleView (latchInputs s) :=
    (cycleView_evaluation _).trans (cycleView_windowStart _)
  rw [cycleStart_punctual, cycleView_startPassA, evaluated]
  refine ⟨rfl, fun hf hn => ?_⟩
  obtain ⟨hruns, hat⟩ := startPassA_starts ((congrArg (fun v => v.forme.isSome) evaluated).trans hf)
    ((congrArg CycleView.newConfig evaluated).trans hn)
  exact ⟨hruns, hat.trans (congrArg (fun v => v.now + 25000) evaluated)⟩

/-- The fields of the complex that a cycle's start leaves. -/
theorem cycleStart_keeps (s : State) :
    let u := cycleStart false s
    u.now = s.now ∧ u.safe.state = s.safe.state ∧ u.safe.k = s.safe.k ∧ u.safe.counted = s.safe.counted ∧
      u.safe.forme = s.safe.forme ∧ u.safe.newConfig = s.safe.newConfig ∧ u.safe.sealHash = s.safe.sealHash := by
  obtain ⟨hview, -⟩ := cycleStart_leaves s
  exact ⟨congrArg CycleView.now hview, congrArg CycleView.state hview, congrArg CycleView.k hview,
    congrArg CycleView.counted hview, congrArg CycleView.forme hview, congrArg CycleView.newConfig hview,
    congrArg CycleView.sealHash hview⟩

/-- What was committed stands, and the terminals are latched. -/
theorem cycleStart_committed (s : State) :
    let u := cycleStart false s
    u.safe.vector = s.safe.vector ∧ u.safe.cycles = s.safe.cycles ∧ u.sio.stages = s.sio.stages ∧
      ∀ j, (getTerm u j).latch1 = (getTerm s j).bank1 ∧ (getTerm u j).latch2 = (getTerm s j).bank2 := by
  obtain ⟨hview, -⟩ := cycleStart_leaves s
  refine ⟨congrArg CycleView.vector hview, congrArg CycleView.cycles hview, congrArg CycleView.stages hview, fun j => ?_⟩
  have hlatches := congrArg (fun x => x.latches j) hview
  obtain ⟨h1, h2⟩ := latchInputs_terms s j
  exact ⟨(congrArg Prod.fst hlatches).trans h1, (congrArg Prod.snd hlatches).trans h2⟩

/-- A mailbox that is late is a fault of the cycle just started. -/
theorem cycleStart_late {s : State} (h : (cycleStart false s).safe.forme.isSome = true) :
    cycleStart true s = safetyFault 5 ((draw (cycleStart false s)).1 % 256) (draw (cycleStart false s)).2 := by
  simp only [cycleStart, Bool.false_eq_true, false_and, if_false] at h ⊢
  simp only [h, and_self, if_true]

theorem cycleStart_late_stops {s : State} (hf : s.safe.forme.isSome = true) (hs : s.safe.state = .running)
    (hn : s.safe.counted = []) :
    let u := cycleStart true s
    u.safe.state = .safeStop ∧ u.safe.cause = 5 ∧ u.safe.counted = [s.now] := by
  obtain ⟨hnow, hstate, -, hcounted, hforme, -, -⟩ := cycleStart_keeps s
  rw [cycleStart_late (by rw [hforme, hf]), ← hnow]
  obtain ⟨hstops, hcause, hone, -⟩ := safetyFault_first (cause := 5) (core := (draw (cycleStart false s)).1 % 256)
    (s := (draw (cycleStart false s)).2) rfl (hstate.trans hs) (hcounted.trans hn)
  exact ⟨hstops, hcause, hone⟩

end Sys2Proof.Machine
end

section
/-! SUPPORT. SAFETY_COMMIT: what the commit sends and leaves, and the cycle that follows it (10 R231, R245, R247, R250). -/

namespace Sys2Proof.Machine

/-! ### The stages hear the commit (11 R277) -/

theorem soFaultEnds_sio (k : Nat) (x : SoStage) (s : State) : (soFaultEnds k x s).sio = s.sio :=
  (soFaultEnds_frame k x s).same .sio (by decide)

theorem soCommit_other (n : Nat) {k : Nat} (on : Bool) (s : State) (h : n ≠ k) :
    getStage (soCommit n on s) k = getStage s k := by
  unfold soCommit
  dsimp only
  split
  · rw [getStage_congr (congrArg Sio.stages (soFaultEnds_sio ..)), getStage_modStage, if_neg (Ne.symm h)]
  · rw [getStage_modStage, if_neg (Ne.symm h)]

theorem soCommit_committed (k : Nat) (on : Bool) (s : State) : (getStage (soCommit k on s) k).committed = on := by
  unfold soCommit
  dsimp only
  split
  · rw [getStage_congr (congrArg Sio.stages (soFaultEnds_sio ..)), getStage_modStage, if_pos rfl]
  · rw [getStage_modStage, if_pos rfl]

theorem soCommit_terms (k : Nat) (on : Bool) (s : State) : (soCommit k on s).sio.terms = s.sio.terms := by
  unfold soCommit
  dsimp only
  split
  · rw [soFaultEnds_sio]
    rfl
  · rfl

theorem stagesCommit_committed (v : Nat) (s : State) {k : Nat} (hk : k < 8) :
    (getStage (stagesCommit v s) k).committed = bitOf v (2 * k) := by
  unfold stagesCommit
  refine forAll_stage (P := fun x => x.committed = bitOf v (2 * k)) (Q := fun _ => True) ?_ (fun _ _ _ _ => trivial) ?_
    List.nodup_range (List.mem_range.2 hk) trivial
  · exact fun n x hn => soCommit_other n _ x hn
  · exact fun x _ => soCommit_committed k _ x

theorem stagesCommit_terms (v : Nat) (s : State) : (stagesCommit v s).sio.terms = s.sio.terms := by
  unfold stagesCommit
  refine forAll_induct (P := fun x => x.sio.terms = s.sio.terms) _ _ ?_ s rfl
  exact fun _ x hx => (soCommit_terms _ _ x).trans hx

@[simp] theorem stagesCommit_safe (v : Nat) (s : State) : (stagesCommit v s).safe = s.safe :=
  (stagesCommit_frame v s).same .safe (by decide)

/-! ### The commit (R231, R247, R250) -/

theorem stateAtCommit_safe (s : State) :
    (stateAtCommit s).safe = { s.safe with state := (stateAtCommit s).safe.state } := by
  unfold stateAtCommit
  split
  · split
    · rw [enterSafety_safe]
    · rfl
  · split
    · rw [enterSafety_safe]
    · rfl
  · rfl

theorem stateAtCommit_sio (s : State) : (stateAtCommit s).sio = s.sio := (stateAtCommit_frame s).same .sio (by decide)

/-- STARTING ends at the first commit without a new configuration. -/
theorem stateAtCommit_starting {s : State} (hs : s.safe.state = .starting) (hn : s.safe.newConfig = none) :
    (stateAtCommit s).safe.state = .running := by
  simp only [stateAtCommit, hs, hn, Option.isNone_none, if_true, enterSafety_safe]

theorem stateAtCommit_running {s : State} (hs : s.safe.state = .running) : (stateAtCommit s).safe.state = .running := by
  simp only [stateAtCommit, hs]

/-- The cycle is committed and the next one counted. -/
def committedCycle (s : State) : State :=
  let c := showSafety (commitVector s)
  { c with safe := { c.safe with k := c.safe.k + 1 } }

theorem safetyCommitState_commits {late : Bool} {s : State} (hs : safetyRuns s = true)
    (hread : (liveVector s && (delayWord s 0).isNone) = false) :
    safetyCommitState late s = cycleStart late (committedCycle s) := by
  simp only [safetyCommitState, hs, hread, Bool.not_true, Bool.false_eq_true, if_false, committedCycle]

/-- A vector register that fails its check halts the complex. -/
theorem registerFault_halts {s : State} (hs : s.safe.state = .running) :
    (registerFault s).safe.state = .safeHalt ∧ (registerFault s).safe.cause = 9 ∧ (registerFault s).safe.vector = 0 :=
  safetyFault_halts (s := (draw s).2) rfl hs

theorem safetyCommitState_unread {late : Bool} {s : State} (hs : safetyRuns s = true)
    (hread : (liveVector s && (delayWord s 0).isNone) = true) : safetyCommitState late s = registerFault s := by
  simp only [safetyCommitState, hs, hread, Bool.not_true, Bool.false_eq_true, if_false, if_true]

/-- The committed cycle as the statuses of Table 10.4 show it; the state that the commit leaves follows Table 10.5. -/
theorem committedCycle_safe (s : State) : (committedCycle s).safe = { (noteCommit (vectorDue s) s).safe with
    k := s.safe.k + 1
    state := (stateAtCommit (noteCommit (vectorDue s) (stagesCommit (vectorDue s) s))).safe.state } := by
  simp only [committedCycle, showSafety, commitVector, send, publishStatus_safe]
  rw [stateAtCommit_safe]
  simp only [noteCommit, stagesCommit_safe]

/-- The configuration and the counted faults stand; the state follows Table 10.5. -/
theorem committedCycle_keeps (s : State) : (committedCycle s).safe.forme = s.safe.forme ∧
    (committedCycle s).safe.newConfig = s.safe.newConfig ∧ (committedCycle s).safe.counted = s.safe.counted ∧
    (committedCycle s).safe.state = (stateAtCommit (noteCommit (vectorDue s) (stagesCommit (vectorDue s) s))).safe.state := by
  simp only [committedCycle_safe]
  exact ⟨rfl, rfl, rfl, trivial⟩

/-- The cycle counts on, and the vector and its cycle are noted. -/
theorem committedCycle_notes (s : State) : (committedCycle s).safe.k = s.safe.k + 1 ∧
    (committedCycle s).safe.vector = vectorDue s ∧ (committedCycle s).safe.cycles = s.safe.k := by
  simp only [committedCycle_safe]
  exact ⟨trivial, rfl, rfl⟩

theorem committedCycle_running {s : State}
    (h : s.safe.state = .running ∨ s.safe.state = .starting ∧ s.safe.newConfig = none) :
    (committedCycle s).safe.state = .running := by
  obtain ⟨hstate, hconfig⟩ : (noteCommit (vectorDue s) (stagesCommit (vectorDue s) s)).safe.state = s.safe.state ∧
      (noteCommit (vectorDue s) (stagesCommit (vectorDue s) s)).safe.newConfig = s.safe.newConfig := by
    simp only [noteCommit, stagesCommit_safe, and_self]
  obtain ⟨-, -, -, hleft⟩ := committedCycle_keeps s
  rw [hleft]
  rcases h with h | ⟨h, hn⟩
  · exact stateAtCommit_running (by rw [hstate, h])
  · exact stateAtCommit_starting (by rw [hstate, h]) (by rw [hconfig, hn])

theorem committedCycle_frame (s : State) : Untouched [.outbox, .img, .ring, .safe, .sio, .recd] s (committedCycle s) := by
  unfold committedCycle
  exact .put ((commitVector_frame s).step (showSafety_frame _) (by decide))

theorem committedCycle_now (s : State) : (committedCycle s).now = s.now := (committedCycle_frame s).same .now (by decide)

theorem committedCycle_sio (s : State) : (committedCycle s).sio.stages = (stagesCommit (vectorDue s) s).sio.stages ∧
    (committedCycle s).sio.terms = s.sio.terms := by
  have sio : (commitVector s).sio = (stagesCommit (vectorDue s) s).sio := by
    simp only [commitVector, send_fields, publishStatus_sio, stateAtCommit_sio, noteCommit]
  have shown (c : State) : (showSafety c).sio.stages = c.sio.stages ∧ (showSafety c).sio.terms = c.sio.terms := ⟨rfl, rfl⟩
  simp only [committedCycle, shown, sio, stagesCommit_terms, and_self]

/-- The token leaves with the vector that is due. -/
theorem committedCycle_token (s : State) : .token (tokenOf s.safe.k) (vectorDue s) ∈ (committedCycle s).outbox := by
  have shown (c : State) : (showSafety c).outbox = c.outbox := rfl
  simp only [committedCycle, shown, commitVector, send_outbox, framed, List.mem_cons_self]

theorem getTerm_congr {s t : State} (h : t.sio.terms = s.sio.terms) (j : Nat) : getTerm t j = getTerm s j := by
  rw [getTerm, h]
  rfl

/-- The next cycle leaves what the commit made of the last one: its token is sent, its vector and each output's bit stand,
and the next cycle runs on the latched banks. -/
theorem safetyCommitState_leaves {s : State} (hs : safetyRuns s = true)
    (hread : (liveVector s && (delayWord s 0).isNone) = false) :
    let u := safetyCommitState false s
    .token (tokenOf s.safe.k) (vectorDue s) ∈ u.outbox ∧
      u.safe.k = s.safe.k + 1 ∧ u.safe.vector = vectorDue s ∧ u.safe.cycles = s.safe.k ∧
      (∀ k, k < 8 → (getStage u k).committed = bitOf (vectorDue s) (2 * k)) ∧
      (∀ j, j < 32 → (getTerm u j).latch1 = (getTerm s j).bank1 ∧ (getTerm u j).latch2 = (getTerm s j).bank2) ∧
      (s.safe.state = .starting → s.safe.newConfig = none → u.safe.state = .running) ∧
      (s.safe.forme.isSome = true → s.safe.newConfig = none → u.safe.passA.running = true ∧
        u.safe.passA.startedAt = s.now + 25000) := by
  rw [safetyCommitState_commits hs hread]
  obtain ⟨hforme, hconfig, -, -⟩ := committedCycle_keeps s
  obtain ⟨hk, hvector, hcycles⟩ := committedCycle_notes s
  obtain ⟨hstages, hterms⟩ := committedCycle_sio s
  obtain ⟨-, hstate', hk', -, -, -, -⟩ := cycleStart_keeps (committedCycle s)
  obtain ⟨hvector', hcycles', hstages', hlatched⟩ := cycleStart_committed (committedCycle s)
  obtain ⟨-, hpass⟩ := cycleStart_leaves (committedCycle s)
  have hout : (cycleStart false (committedCycle s)).outbox = (committedCycle s).outbox :=
    (cycleStart_frame ..).same .outbox (by decide)
  refine ⟨?_, hk'.trans hk, hvector'.trans hvector, hcycles'.trans hcycles, fun k hk => ?_, fun j _ => ?_, fun h hn => ?_,
    fun hf hn => ?_⟩
  · rw [hout]
    exact committedCycle_token s
  · rw [getStage_congr (hstages'.trans hstages), stagesCommit_committed _ s hk]
  · rw [← getTerm_congr hterms]
    exact hlatched j
  · rw [hstate']
    exact committedCycle_running (.inr ⟨h, hn⟩)
  · rw [← committedCycle_now s]
    exact hpass (by rw [hforme, hf]) (by rw [hconfig, hn])

/-- A late mailbox is the fault of the next cycle. -/
theorem safetyCommitState_late {s : State} (hs : safetyRuns s = true)
    (hread : (liveVector s && (delayWord s 0).isNone) = false) (hf : s.safe.forme.isSome = true)
    (hrun : s.safe.state = .running) (hn : s.safe.counted = []) :
    let u := safetyCommitState true s
    u.safe.state = .safeStop ∧ u.safe.cause = 5 ∧ u.safe.counted = [s.now] := by
  obtain ⟨hforme, -, hcounted, -⟩ := committedCycle_keeps s
  rw [safetyCommitState_commits hs hread, ← committedCycle_now s]
  exact cycleStart_late_stops (by rw [hforme, hf]) (committedCycle_running (.inl hrun)) (by rw [hcounted, hn])

end Sys2Proof.Machine
end

section
/-! SUPPORT. Pass B's start on swept coded data, and passes that overrun (10 R232, R238, R239, R250). -/

namespace Sys2Proof

theorem Tbl.mem_of_find {α : Type} {m : Tbl α} {k : Nat} {v : α} (h : Tbl.find m k = some v) : (k, v) ∈ m := by
  induction m with
  | nil => simp at h
  | cons e r ih =>
    obtain ⟨j, w⟩ := e
    simp only [Tbl.find] at h
    split at h
    next hj => exact hj ▸ Option.some.inj h ▸ List.mem_cons_self
    · exact List.mem_cons_of_mem _ (ih h)

section
variable {α β : Type} {f : α → Option β} {l : List α}

theorem mapM_eq_map {g : α → β} (h : ∀ x ∈ l, f x = some (g x)) : l.mapM f = some (l.map g) := by
  induction l with
  | nil => rfl
  | cons x r ih =>
    rw [List.mapM_cons, h x List.mem_cons_self, ih fun y hy => h y (List.mem_cons_of_mem _ hy)]
    rfl

theorem mapM_exists (h : ∀ x ∈ l, ∃ y, f x = some y) : ∃ r, l.mapM f = some r := by
  induction l with
  | nil => exact ⟨[], rfl⟩
  | cons x r ih =>
    obtain ⟨y, hy⟩ := h x List.mem_cons_self
    obtain ⟨ys, hys⟩ := ih fun z hz => h z (List.mem_cons_of_mem _ hz)
    exact ⟨y :: ys, by rw [List.mapM_cons, hy, hys]; rfl⟩

theorem mapM_eq_none {x : α} (hx : x ∈ l) (h : f x = none) : l.mapM f = none := by
  induction l with
  | nil => exact absurd hx List.not_mem_nil
  | cons y r ih =>
    rw [List.mapM_cons]
    rcases List.mem_cons.1 hx with rfl | hx
    · rw [h]
      rfl
    · rw [ih hx]
      cases f y <;> rfl

end

end Sys2Proof

namespace Sys2Proof.Machine

/-! ### The tag sweep (R239) -/

theorem decodeInt_range {k : Nat} {x q : Int} (h : decodeInt k x = some q) : -(2 ^ 31 : Nat) ≤ q ∧ q < (2 ^ 32 : Nat) := by
  simp only [decodeInt] at h
  split at h
  next hd =>
    obtain ⟨-, hlo, hhi⟩ := hd
    obtain rfl := Option.some.inj h
    exact ⟨hlo, hhi⟩
  · exact absurd h (by simp)

/-- The coded words re-tagged from the last cycle to this one. -/
def swept (k : Nat) (c : Tbl Int) : Tbl Int :=
  c.map fun e => (e.1, encodeInt k ((decodeInt (k - 1) e.2).getD 0))

theorem tagSweep_valid {k : Nat} {c : Tbl Int} (h : ∀ e ∈ c, decodeInt (k - 1) e.2 ≠ none) :
    tagSweep k c = some (swept k c) := by
  refine mapM_eq_map fun e he => ?_
  obtain ⟨q, hq⟩ := Option.ne_none_iff_exists'.1 (h e he)
  simp only [hq, Option.map_some, Option.getD_some]

theorem tagSweep_invalid {k : Nat} {c : Tbl Int} (h : ∃ e ∈ c, decodeInt (k - 1) e.2 = none) : tagSweep k c = none := by
  obtain ⟨e, he, hnone⟩ := h
  exact mapM_eq_none he (by rw [hnone]; rfl)

/-- Every word of swept data is valid in its cycle. -/
theorem swept_valid {k : Nat} {c : Tbl Int} (h : ∀ e ∈ c, decodeInt (k - 1) e.2 ≠ none) :
    ∀ e ∈ swept k c, ∃ q, decodeInt k e.2 = some q := by
  intro e he
  obtain ⟨x, hx, rfl⟩ := List.mem_map.1 he
  obtain ⟨q, hq⟩ := Option.ne_none_iff_exists'.1 (h x hx)
  obtain ⟨hlo, hhi⟩ := decodeInt_range hq
  refine ⟨q, ?_⟩
  simp only [hq, Option.getD_some]
  exact decodeInt_encodeInt k hlo hhi

/-! ### Pass B's evaluation (11 R257) -/

theorem getCodedN_valid {k : Nat} {c : Tbl Int} (h : ∀ e ∈ c, ∃ q, decodeInt k e.2 = some q) (a n : Nat) :
    ∃ l, getCodedN k a n c = some l := by
  refine mapM_exists fun i _ => ?_
  split
  next x hx =>
    obtain ⟨q, hq⟩ := h _ (Tbl.mem_of_find hx)
    exact ⟨BitVec.ofInt 32 q, by rw [decodeWord, hq]; rfl⟩
  · exact ⟨0, rfl⟩

/-- Pass B evaluates wherever every coded word is valid. -/
theorem evaluateCoded_valid {s : State} (h : ∀ e ∈ s.safe.coded, ∃ q, decodeInt s.safe.k e.2 = some q) :
    ∃ z, evaluateCoded s = some z := by
  obtain ⟨insts, hinsts⟩ : ∃ l, (List.range 44).mapM (fun f => (getCodedN s.safe.k (instBase + 8 * f) 6 s.safe.coded).map
      (fun w => (f, sfOfWords w))) = some l := by
    refine mapM_exists fun f _ => ?_
    obtain ⟨l, hl⟩ := getCodedN_valid h (instBase + 8 * f) 6
    exact ⟨(f, sfOfWords l), by rw [hl]; rfl⟩
  obtain ⟨duals, hduals⟩ := getCodedN_valid h dualBase 16
  obtain ⟨counts, hcounts⟩ := getCodedN_valid h countBase 32
  simp only [evaluateCoded, codedView, hinsts, hduals, hcounts, Option.map_some]
  exact ⟨_, rfl⟩

/-! ### PASS_B_START -/

/-- The coded data swept to this cycle's tag. -/
def sweptState (s : State) : State := { s with safe := { s.safe with coded := swept s.safe.k s.safe.coded } }

theorem mailOk_sweptState (s : State) : mailOk (sweptState s) = mailOk s := rfl

/-- A mailbox word without its complement keeps pass B from starting. -/
theorem startPassB_unread {f : Forme} {s : State} (h : mailOk s = false) :
    startPassB f s = safetyFault 5 (coreB s) s := by
  simp only [startPassB, h, Bool.not_false, if_true]

theorem startPassB_starts {f : Forme} {s z : State} (h : mailOk s = true) (hz : evaluateCoded s = some z) :
    startPassB f s = { z with safe := { z.safe with passB := startPass z (safetyEntry f) true z.safe.passB } } := by
  simp only [startPassB, h, hz, Bool.not_true, Bool.false_eq_true, if_false]

section
variable {f : Forme} {s : State} (hf : s.safe.forme = some f) (hs : safetyRuns s = true)
  (ha : s.safe.passA.running = true ∨ s.safe.passA.ended = true) (hb : s.safe.passB.running = false)
  (he : s.safe.passB.ended = false)
include hf

theorem passBStartState_early (hhalf : halfPassed s = false) : passBStartState s = s := by
  simp [passBStartState, hf, hhalf]

include hs hb he

theorem passBStartState_overrun (hhalf : halfPassed s = true) (hrun : s.safe.passA.running = true) :
    passBStartState s = safetyFault 4 (coreA s) s := by
  simp [passBStartState, hf, hs, hhalf, hb, he, hrun]

include ha

theorem passBStartState_invalid (hhalf : halfPassed s = true) (hrun : s.safe.passA.running = false)
    (hc : ∃ e ∈ s.safe.coded, decodeInt (s.safe.k - 1) e.2 = none) : passBStartState s = safetyFault 3 (coreB s) s := by
  have hended : s.safe.passA.ended = true := by simpa [hrun] using ha
  simp [passBStartState, hf, hs, hhalf, hb, he, hrun, hended, tagSweep_invalid hc]

theorem passBStartState_swept (hhalf : halfPassed s = true) (hrun : s.safe.passA.running = false)
    (hc : ∀ e ∈ s.safe.coded, decodeInt (s.safe.k - 1) e.2 ≠ none) :
    passBStartState s = startPassB f (sweptState s) := by
  have hended : s.safe.passA.ended = true := by simpa [hrun] using ha
  simp [passBStartState, sweptState, hf, hs, hhalf, hb, he, hrun, hended, tagSweep_valid hc]

/-- Pass B starts on swept data whose mailbox has its complements. -/
theorem passBStartState_starts (hhalf : halfPassed s = true) (hrun : s.safe.passA.running = false)
    (hc : ∀ e ∈ s.safe.coded, decodeInt (s.safe.k - 1) e.2 ≠ none) (hm : mailOk s = true) :
    ∃ z, evaluateCoded (sweptState s) = some z ∧
      let u := passBStartState s
      u.safe.passB.running = true ∧ u.safe.passB.cyc.pc = safetyEntry f ∧ u.safe.coded = z.safe.coded ∧
        u.safe.agreedB = z.safe.agreedB := by
  obtain ⟨z, hz⟩ := evaluateCoded_valid (s := sweptState s) (swept_valid hc)
  refine ⟨z, hz, ?_⟩
  rw [passBStartState_swept hf hs ha hb he hhalf hrun hc, startPassB_starts ((mailOk_sweptState s).trans hm) hz]
  exact ⟨rfl, rfl, rfl, rfl⟩

end

/-! ### PASS_OVERRUN -/

theorem passOverrunState_faults {s : State} (hs : safetyRuns s = true)
    (h : s.safe.passA.running = true ∨ s.safe.passB.running = true) :
    ∃ core, passOverrunState s = safetyFault 4 core s := by
  cases hb : s.safe.passB.running with
  | true => exact ⟨coreB s, by simp [passOverrunState, hs, hb]⟩
  | false =>
    have ha : s.safe.passA.running = true := by simpa [hb] using h
    exact ⟨coreA s, by simp [passOverrunState, hs, hb, ha]⟩

end Sys2Proof.Machine
end

section
/-! SUPPORT. The comparator's verdict and the self-test of its window (10 R242 to R244), and the start of a new safety
configuration (R253). -/

namespace Sys2Proof.Machine

/-! ### SCU_COMPARE -/

section
variable {upset det : Bool} {s : State} (hs : safetyRuns s = true) (hf : s.safe.forme.isSome = true)
  (hc : s.safe.compared = false)
include hs hf hc

theorem scuCompareState_overrun (h : s.safe.passA.running = true ∨ s.safe.passB.running = true) :
    ∃ core, scuCompareState upset det s = safetyFault 4 core s := by
  have hsome : s.safe.forme.isNone = false := by rw [Option.isNone_eq_false_iff, hf]
  cases ha : s.safe.passA.running with
  | true => exact ⟨coreA s, by simp [scuCompareState, hs, hsome, hc, ha]⟩
  | false =>
    have hb : s.safe.passB.running = true := by simpa [ha] using h
    exact ⟨coreB s, by simp [scuCompareState, hs, hsome, hc, ha, hb]⟩

variable (ha : s.safe.passA.running = false) (hb : s.safe.passB.running = false) (hae : s.safe.passA.ended = true)
  (hbe : s.safe.passB.ended = true)
include ha hb hae hbe

theorem scuCompareState_ended : scuCompareState upset det s =
    if upset || registersBad s then registerFault s else selfTest det (judge s) := by
  have hsome : s.safe.forme.isNone = false := by rw [Option.isNone_eq_false_iff, hf]
  simp only [scuCompareState, hs, hsome, hc, ha, hb, hae, hbe, Bool.not_true, Bool.or_self, Bool.and_self,
    Bool.false_eq_true, if_false]

theorem scuCompareState_registers (h : upset = true ∨ registersBad s = true) :
    scuCompareState upset det s = registerFault s := by
  rw [scuCompareState_ended hs hf hc ha hb hae hbe, if_pos (by simpa using h)]

theorem scuCompareState_judges (h : registersBad s = false) : scuCompareState false det s = selfTest det (judge s) := by
  rw [scuCompareState_ended hs hf hc ha hb hae hbe, h]
  rfl

end

/-- The equality of the results is noted. -/
def verdict (s : State) : State := { s with safe := { s.safe with compared := true, equal := resultsEqual s } }

theorem judge_unequal {s : State} (h : resultsEqual s = false) :
    judge s = safetyFault 1 ((draw (verdict s)).1 % 256) (draw (verdict s)).2 := by
  simp [judge, verdict, h]

theorem judge_window {s : State} (h : resultsEqual s = true) (hw : windowsEqual s = false) :
    judge s = safetyFault 2 ((draw (verdict s)).1 % 256) (draw (verdict s)).2 := by
  simp [judge, verdict, h, hw]

theorem judge_equal {s : State} (h : resultsEqual s = true) (hw : windowsEqual s = true) : judge s = verdict s := by
  simp [judge, verdict, h, hw]

/-- Outside its drawn cycle, or detected, the self-test leaves the complex's state, its fault and the verdict. -/
theorem selfTest_leaves {det : Bool} {s : State} (h : s.safe.k % 16 ≠ s.safe.lfsr % 16 ∨ det = true) :
    let u := selfTest det s
    u.safe.state = s.safe.state ∧ u.safe.cause = s.safe.cause ∧ u.safe.counted = s.safe.counted ∧
      u.safe.compared = s.safe.compared ∧ u.safe.equal = s.safe.equal := by
  unfold selfTest
  split
  · exact ⟨rfl, rfl, rfl, rfl, rfl⟩
  next hdrawn =>
    have hdet : det = true := h.resolve_left fun hk => hdrawn (.inl hk)
    rw [if_pos hdet]
    exact ⟨rfl, rfl, rfl, rfl, rfl⟩

/-- The self-test of a window is passed. -/
theorem selfTest_passes {s : State} (h : s.safe.k % 16 = s.safe.lfsr % 16) (hs : s.safe.state ≠ .safeHalt) :
    (selfTest true s).safe.windowTest = true ∧
      (selfTest true s).safe.injections = (s.safe.injections + 1) % 2 ^ 32 := by
  simp [selfTest, h, hs]

theorem selfTest_missed {s : State} (h : s.safe.k % 16 = s.safe.lfsr % 16) (hs : s.safe.state ≠ .safeHalt) :
    selfTest false s = safetyFault 8 ((draw s).1 % 256) (draw s).2 := by
  simp [selfTest, h, hs]

/-- A fault of the comparison that stops the complex is followed by no other from the self-test. -/
theorem selfTest_stopped {det : Bool} {cause core : Nat} {s : State} (hcause : halting cause = false)
    (hs : s.safe.state = .running) (hn : s.safe.counted = []) (h : s.safe.k % 16 ≠ s.safe.lfsr % 16 ∨ det = true) :
    let u := selfTest det (safetyFault cause core s)
    u.safe.state = .safeStop ∧ u.safe.cause = cause ∧ u.safe.counted = [s.now] := by
  obtain ⟨hstate, hkeeps, hone, hk, hlfsr⟩ := safetyFault_first (core := core) hcause hs hn
  obtain ⟨hstate', hkeeps', hone', -, -⟩ := selfTest_leaves (s := safetyFault cause core s) (by rw [hk, hlfsr]; exact h)
  exact ⟨hstate'.trans hstate, hkeeps'.trans hkeeps, hone'.trans hone⟩

/-! ### SAFETY_CONFIG_START -/

/-- The waiting configuration is taken over at cycle 0. -/
def configTaken (s : State) : State := { s with safe := { s.safe with
  forme := loadedForme s, k := 0, newConfig := none, sealHash := liveSeal s, vector := 0, agreedDone := 0, status := []
  windowFault := false, windowTest := false } }

theorem startSafety_eq (s : State) : startSafety s = cycleStart false (publishStatus (startFunctions (reinitSafety
    (enterSafety (if (loadedForme s).isSome then .starting else .noForme) (dropPasses (configTaken s)))))) := rfl

/-- The start of the data and the functions leaves the configuration and the cycle. -/
theorem dataStarted_leaves (st : SafetyState) (s : State) :
    let u := publishStatus (startFunctions (reinitSafety (enterSafety st (dropPasses s))))
    u.safe.k = s.safe.k ∧ u.safe.newConfig = s.safe.newConfig ∧ u.safe.forme = s.safe.forme ∧
      u.safe.sealHash = s.safe.sealHash ∧ u.safe.state = st := by
  obtain ⟨hsafe, -⟩ := startFunctions_leaves (reinitSafety (enterSafety st (dropPasses s)))
  simp only [publishStatus_safe]
  rw [hsafe]
  simp only [reinitSafety, enterSafety_safe, dropPasses, and_self]

theorem startSafety_leaves (s : State) :
    let u := startSafety s
    u.safe.k = 0 ∧ u.safe.newConfig = none ∧ u.safe.forme = loadedForme s ∧ u.safe.sealHash = liveSeal s ∧
      u.safe.state = if (loadedForme s).isSome then .starting else .noForme := by
  obtain ⟨hk, hconfig, hforme, hseal, hstate⟩ :=
    dataStarted_leaves (if (loadedForme s).isSome then .starting else .noForme) (configTaken s)
  obtain ⟨-, hstate', hk', -, hforme', hconfig', hseal'⟩ := cycleStart_keeps (publishStatus (startFunctions (reinitSafety
    (enterSafety (if (loadedForme s).isSome then .starting else .noForme) (dropPasses (configTaken s))))))
  rw [startSafety_eq]
  exact ⟨hk'.trans hk, hconfig'.trans hconfig, hforme'.trans hforme, hseal'.trans hseal, hstate'.trans hstate⟩

/-- The waiting configuration starts, and the record leaves it as it starts. -/
theorem safetyConfigStartState_starts {s : State} (hs : safetyRuns s = true) (hn : s.safe.newConfig.isSome = true) :
    (safetyConfigStartState s).safe = (startSafety s).safe := by
  have hsome : s.safe.newConfig.isNone = false := by rw [Option.isNone_eq_false_iff, hn]
  simp only [safetyConfigStartState, hs, hsome, Bool.not_true, Bool.or_self, Bool.false_eq_true, if_false, emit_fields]

end Sys2Proof.Machine
end

section
/-! SUPPORT. The statement about the safety cycle. -/

namespace Sys2Proof.Machine

section
variable {i : Instr} {s v u : State} {cause core : Nat}

/-- A command that is a fault of a running complex stops it. -/
theorem stops_of_fault (he : exec i s = .next u) (hu : u = safetyFault cause core v) (hcause : halting cause = false)
    (hv : v.safe.state = .running) (hn : v.safe.counted = []) : ∃ u, exec i s = .next u ∧ u.safe.state = .safeStop ∧
      u.safe.cause = cause ∧ u.safe.counted = [v.now] := by
  obtain ⟨hstate, hkeeps, hone, -⟩ := safetyFault_first (core := core) hcause hv hn
  subst hu
  exact ⟨_, he, hstate, hkeeps, hone⟩

/-- A command that finds a register without its complement halts a running complex. -/
theorem halts_of_register (he : exec i s = .next u) (hu : u = registerFault v) (hv : v.safe.state = .running) :
    ∃ u, exec i s = .next u ∧ u.safe.state = .safeHalt ∧ u.safe.cause = 9 ∧ u.safe.vector = 0 :=
  ⟨u, he, hu ▸ registerFault_halts hv⟩

end

/-- Settles O46, row by row. -/
theorem safetyCyclesCommitCompareAndStop : Obligations.SafetyCyclesCommitCompareAndStop := by
  intro t s v stops halts hs unread
  refine ⟨fun late h hv => ?_, fun h => ⟨safetyCommitState false v, rfl, safetyCommitState_leaves hs h⟩, fun h hf hv hn => ?_,
    fun f hf ha hb he => ?_, fun h hv hn => ?_, fun upset det hf hc h hv hn => ?_,
    fun det hf hc ha hb hae hbe => ⟨fun hv => ?_, fun h hv => ?_⟩,
    fun det hf hc ha hb hae hbe hgood => ?_, fun h => ?_⟩
  · exact halts_of_register rfl (safetyCommitState_unread hs h) hv
  · exact ⟨safetyCommitState true v, rfl, safetyCommitState_late hs h hf hv hn⟩
  · intro last c w
    refine ⟨fun hhalf => ?_, fun hhalf hrun hv hn => ?_, fun hhalf hrun => ⟨fun hc hv hn => ?_, fun hc => ?_⟩⟩
    · exact congrArg Host.Outcome.next (passBStartState_early hf hhalf)
    · exact stops_of_fault rfl (passBStartState_overrun hf hs hb he hhalf hrun) rfl hv hn
    · exact stops_of_fault rfl (passBStartState_invalid hf hs ha hb he hhalf hrun hc) rfl hv hn
    · refine ⟨fun hm hv hn => ?_, fun hm => ?_⟩
      · have hstart := passBStartState_swept hf hs ha hb he hhalf hrun hc
        exact stops_of_fault (v := sweptState v) rfl
          (hstart.trans (startPassB_unread ((mailOk_sweptState v).trans hm))) rfl hv hn
      · obtain ⟨z, hz, hleaves⟩ := passBStartState_starts hf hs ha hb he hhalf hrun hc hm
        exact ⟨z, passBStartState v, hz, rfl, hleaves⟩
  · obtain ⟨core, hcore⟩ := passOverrunState_faults hs h
    exact stops_of_fault rfl hcore rfl hv hn
  · obtain ⟨core, hcore⟩ := scuCompareState_overrun (upset := upset) (det := det) hs hf hc h
    exact stops_of_fault rfl hcore rfl hv hn
  · exact halts_of_register rfl (scuCompareState_registers hs hf hc ha hb hae hbe (.inl rfl)) hv
  · exact halts_of_register rfl (scuCompareState_registers hs hf hc ha hb hae hbe (.inr h)) hv
  · have hjudge := scuCompareState_judges (det := det) hs hf hc ha hb hae hbe hgood
    refine ⟨fun hr hk hv hn => ?_, fun hr hw hk hv hn => ?_, fun hr hw hk hdet hv => ?_, fun hr hw hne hk => ?_⟩
    · refine ⟨scuCompareState false det v, rfl, ?_⟩
      rw [hjudge, judge_unequal hr]
      exact selfTest_stopped (s := (draw (verdict v)).2) rfl hv hn hk
    · refine ⟨scuCompareState false det v, rfl, ?_⟩
      rw [hjudge, judge_window hr hw]
      exact selfTest_stopped (s := (draw (verdict v)).2) rfl hv hn hk
    · refine ⟨scuCompareState false det v, rfl, ?_⟩
      rw [hjudge, judge_equal hr hw, hdet, selfTest_missed (s := verdict v) hk (by rw [verdict, hv]; decide)]
      exact safetyFault_halts (s := (draw (verdict v)).2) rfl hv
    · refine ⟨scuCompareState false det v, rfl, ?_⟩
      rw [hjudge, judge_equal hr hw]
      obtain ⟨hstate, -, -, hcompared, hequal⟩ := selfTest_leaves (s := verdict v) hk
      refine ⟨hcompared, hequal.trans hr, hstate, fun hdrawn => ?_⟩
      rw [hk.resolve_left (fun h => h hdrawn)]
      exact selfTest_passes (s := verdict v) hdrawn hne
  · refine ⟨safetyConfigStartState v, rfl, ?_⟩
    rw [safetyConfigStartState_starts hs h]
    exact startSafety_leaves v

end Sys2Proof.Machine
end

section
/-! SUPPORT. The terminals' tests: what a pass over a source's terminals leaves of each, of the source and of the clock; what
each test-pulse event does (11 R260 to R264, R281). -/

namespace Sys2Proof.Machine

/-! ### Passes over terminals -/

theorem getTp_congr {s t : State} (h : t.sio.tps = s.sio.tps) (n : Nat) : getTp t n = getTp s n := by
  rw [getTp, h]
  rfl

@[simp] theorem getTerm_modTp (n : Nat) (f : TpSource → TpSource) (s : State) (j : Nat) :
    getTerm (modTp n f s) j = getTerm s j := rfl

@[simp] theorem getTerm_emit (code src : Nat) (data : List Byte) (s : State) (j : Nat) :
    getTerm (emit code src data s) j = getTerm s j := getTerm_congr (by simp only [emit_fields]) j

@[simp] theorem getTp_emit (code src : Nat) (data : List Byte) (s : State) (n : Nat) :
    getTp (emit code src data s) n = getTp s n := getTp_congr (by simp only [emit_fields]) n

/-- A pass whose turns leave the sources leaves them. -/
theorem getTp_forAll {f : Nat → State → State} (turn : ∀ i x, (f i x).sio.tps = x.sio.tps) (l : List Nat) (s : State)
    (n : Nat) : getTp (forAll l f s) n = getTp s n :=
  getTp_congr (forAll_induct (P := fun x => x.sio.tps = s.sio.tps) l f (fun i x hx => (turn i x).trans hx) s rfl) n

/-- At the instant `now`, a turn changes its own terminal by `g` and leaves the clock and the other terminals. -/
def TurnsTerminal (now : Nat) (f : Nat → State → State) (g : Nat → Terminal → Terminal) : Prop :=
  ∀ i x, x.now = now → (f i x).now = now ∧ ∀ j, getTerm (f i x) j = if j = i then g i (getTerm x i) else getTerm x j

section
variable {now : Nat} {f : Nat → State → State} {g : Nat → Terminal → Terminal} {j : Nat}

theorem forAll_term_other (turns : TurnsTerminal now f g) {l : List Nat} (hj : j ∉ l) {s : State} (hs : s.now = now) :
    getTerm (forAll l f s) j = getTerm s j := by
  induction l generalizing s with
  | nil => rfl
  | cons a r ih =>
    obtain ⟨ha, hr⟩ := List.ne_and_not_mem_of_not_mem_cons hj
    obtain ⟨hnow, hterm⟩ := turns a s hs
    exact (ih hr hnow).trans ((hterm j).trans (if_neg ha))

/-- A pass changes each of its terminals as that terminal's own turn does. -/
theorem forAll_term (turns : TurnsTerminal now f g) {l : List Nat} (hl : l.Nodup) (hj : j ∈ l) {s : State}
    (hs : s.now = now) : getTerm (forAll l f s) j = g j (getTerm s j) := by
  induction l generalizing s with
  | nil => exact absurd hj List.not_mem_nil
  | cons a r ih =>
    obtain ⟨ha, hr⟩ := List.nodup_cons.1 hl
    obtain ⟨hnow, hterm⟩ := turns a s hs
    by_cases h : j = a
    · subst h
      exact (forAll_term_other turns ha hnow).trans ((hterm j).trans (if_pos rfl))
    · exact (ih hr (List.mem_of_ne_of_mem h hj) hnow).trans (congrArg (g j) ((hterm j).trans (if_neg h)))

end

theorem modTerm_turns (g : Nat → Terminal → Terminal) (now : Nat) : TurnsTerminal now (fun i => modTerm i (g i)) g :=
  fun _ _ hx => ⟨hx, fun _ => getTerm_modTerm ..⟩

theorem assigned_nodup (s : State) (src : Nat) : (assigned s src).Nodup := List.nodup_range.filter _

/-- A pass over a source's terminals, whose turns start at the instant of the pass. -/
theorem forAll_assigned {f : Nat → State → State} {g : Nat → Terminal → Terminal} {s x : State} {src j : Nat}
    (turns : TurnsTerminal x.now f g) (hj : j ∈ assigned s src) :
    getTerm (forAll (assigned s src) f x) j = g j (getTerm x j) := forAll_term turns (assigned_nodup s src) hj rfl

/-! ### Capture paths (R260) -/

section
variable {j : Nat} {second high : Bool} {s : State}

theorem siAcceptedState_blanked (h : blanked s j = true) : siAcceptedState j second high s = s := by
  simp only [siAcceptedState, h, Bool.or_true, if_true, ite_self]

/-- Outside a blank, with SAFE up, the capture path takes the value. -/
theorem siAcceptedState_accepts (hu : up s = true) (hd : domainOn s 5 = true)
    (hs : safetyRuns s = true ∨ s.safe.state = .safeHalt) (hb : blanked s j = false) :
    getTerm (siAcceptedState j second high s) j =
      if second then { getTerm s j with bank2 := high, darkHeld := false }
      else { getTerm s j with bank1 := high, darkHeld := false } := by
  have runs : (!safetyRuns s && s.safe.state != .safeHalt) = false := by
    rcases hs with hs | hs <;> simp [hs]
  simp [siAcceptedState, runs, hu, hd, hb]

end

/-! ### Darks and their blanks (R261 to R263) -/

section
variable {src : Nat} {s : State}

/-- A terminal is blanked from now on for 0.6 ms. -/
theorem blankAll_term {js : List Nat} (hl : js.Nodup) {j : Nat} (hj : j ∈ js) :
    getTerm (blankAll js s) j = { getTerm s j with blankedUntil := some (s.now + 600 * usNs) } := by
  refine forAll_term (now := s.now) (g := fun _ x => { x with blankedUntil := some (s.now + 600 * usNs) }) ?_ hl hj rfl
  intro i x hx
  refine ⟨hx, fun j => ?_⟩
  rw [getTerm_modTerm, hx]

theorem blankAll_tp (js : List Nat) (n : Nat) : getTp (blankAll js s) n = getTp s n := by
  unfold blankAll
  refine getTp_forAll ?_ js s n
  exact fun _ _ => rfl

/-- Unit B observes the source: it holds it for unit A and has terminals there (R281). -/
def observed (s : State) (src : Nat) : Bool := up s && domainOn s 5 && !isSplit s && tpHeld s src && !(assigned s src).isEmpty

theorem testPulseDarkState_idle (hd : (tpDriven s src && darkDue s src) = false) (ho : observed s src = false) :
    testPulseDarkState src s = s := by
  unfold observed at ho
  simp only [testPulseDarkState, hd, ho, Bool.or_self, Bool.false_eq_true, if_false]

/-- A dark that is due or observed makes the source dark and blanks its terminals. -/
theorem testPulseDarkState_darkens (h : (tpDriven s src && darkDue s src) = true ∨ observed s src = true) :
    testPulseDarkState src s =
      blankAll (assigned s src) (modTp src (fun x => { x with dark := true, darkAt := s.now }) s) := by
  unfold testPulseDarkState
  exact if_pos (Bool.or_eq_true_iff.2 h)

/-- A terminal after its test (R262). -/
def tested (readsOn : Bool) (x : Terminal) : Terminal :=
  if readsOn then { x with testFailed := true, passed := 0, tpFault := x.tpFault || x.testFailed }
  else { x with testFailed := false, passed := min 16 (x.passed + 1), tpFault := x.tpFault && x.passed + 1 < 16 }

/-- A test changes its terminal beside what it records. -/
theorem testTerminal_turns (mask now : Nat) :
    TurnsTerminal now (fun j s => testTerminal j (bitOf mask j) s) (fun j => tested (bitOf mask j)) := by
  intro j s hs
  refine ⟨((testTerminal_frame ..).same .now (by decide)).trans hs, fun i => ?_⟩
  dsimp only
  cases bitOf mask j with
  | true => simp only [testTerminal, tested, if_true, apply_ite (getTerm · i), getTerm_emit, getTerm_modTerm, ite_self]
  | false =>
    simp only [testTerminal, tested, Bool.false_eq_true, if_false, apply_ite (getTerm · i), getTerm_emit, getTerm_modTerm,
      ite_self]

/-- Within a dark each terminal of the source is tested. -/
theorem testPulseCheckState_tests {mask j : Nat} (hd : (getTp s src).dark = true)
    (ht : s.now < (getTp s src).darkAt + 600 * usNs) (hj : j ∈ assigned s src) :
    getTerm (testPulseCheckState src mask s) j = tested (bitOf mask j) (getTerm s j) := by
  have within : ((getTp s src).dark && decide (s.now < (getTp s src).darkAt + 600 * usNs)) = true := by
    rw [hd, decide_eq_true ht, Bool.and_self]
  rw [testPulseCheckState, if_pos within]
  exact forAll_assigned (testTerminal_turns mask s.now) hj

/-- After 0.6 ms the source's dark and its terminals' blanks end. -/
theorem blankEndState_ends (hd : (getTp s src).dark = true) (ht : (getTp s src).darkAt + 600 * usNs ≤ s.now) :
    (getTp (blankEndState src s) src).dark = false ∧
      ∀ j ∈ assigned s src, (getTerm (blankEndState src s) j).blankedUntil = none := by
  have ended : ((getTp s src).dark && decide ((getTp s src).darkAt + 600 * usNs ≤ s.now)) = true := by
    rw [hd, decide_eq_true ht, Bool.and_self]
  rw [blankEndState, if_pos ended]
  refine ⟨?_, fun j hj => ?_⟩
  · rw [getTp_forAll, getTp_modTp, if_pos rfl]
    exact fun _ _ => rfl
  · exact congrArg Terminal.blankedUntil
      (forAll_assigned (modTerm_turns (fun _ y => { y with blankedUntil := none }) _) hj)

/-! ### Overload (R264) -/

/-- The record of an overload notes its own instant alone. -/
theorem overloadRecord_tp (src : Nat) (s : State) :
    ∃ r, getTp (overloadRecord src s) src = { getTp s src with overloadRec := r } := by
  unfold overloadRecord
  extract_lets due
  split
  · exact ⟨some s.now, by rw [getTp_emit, getTp_modTp, if_pos rfl]⟩
  · exact ⟨(getTp s src).overloadRec, rfl⟩

/-- A driven source switches off on overload. -/
theorem tpOverloadState_switchesOff (h : tpDriven s src = true) :
    let x := getTp (tpOverloadState src s) src
    x.overload = true ∧ x.triedAt = s.now ∧ x.dark = false := by
  simp only [tpOverloadState, h, Bool.not_true, Bool.false_eq_true, if_false]
  obtain ⟨r, hr⟩ := overloadRecord_tp src
    (modTp src (fun x => { x with overload := true, triedAt := s.now, dark := false }) s)
  simp only [hr, getTp_modTp, if_true, and_self]

section
variable (ho : (getTp s src).overload = true) (ht : (getTp s src).triedAt + secNs ≤ s.now)
include ho ht

theorem tpRetryState_due (overloaded : Bool) : tpRetryState src overloaded s =
    if overloaded then overloadRecord src (modTp src (fun x => { x with triedAt := s.now }) s)
    else emit 0x1383 (0xB300 + src) [] (modTp src (fun x => { x with overload := false }) s) := by
  simp only [tpRetryState, ho, Bool.not_true, Nat.not_lt.2 ht, decide_false, Bool.or_self, Bool.false_eq_true, if_false]

theorem tpRetryState_overloaded : (getTp (tpRetryState src true s) src).overload = true ∧
    (getTp (tpRetryState src true s) src).triedAt = s.now := by
  rw [tpRetryState_due ho ht, if_pos rfl]
  obtain ⟨r, hr⟩ := overloadRecord_tp src (modTp src (fun x => { x with triedAt := s.now }) s)
  simp only [hr, getTp_modTp, if_true, ho, and_self]

theorem tpRetryState_clears : (getTp (tpRetryState src false s) src).overload = false := by
  rw [tpRetryState_due ho ht, if_neg Bool.false_ne_true, getTp_emit, getTp_modTp, if_pos rfl]

end

/-! ### Takeover (R281) -/

theorem tpTakeoverState_waits (h : longDark s src = false) : tpTakeoverState src s = s := by
  simp only [tpTakeoverState, h, Bool.and_false, Bool.false_eq_true, if_false]

/-- Unit B takes over an observed source that stayed dark outside a blank. -/
theorem tpTakeoverState_takes (ho : observed s src = true) (hb : ∀ j ∈ assigned s src, blanked s j = false)
    (hl : longDark s src = true) : tpTakeoverState src s =
      forAll (assigned s src) darkDemand (modTp src (fun x => { x with takenOver := true }) s) := by
  have unblanked : (assigned s src).any (blanked s ·) = false :=
    List.any_eq_false.2 fun j hj => Bool.not_eq_true _ ▸ hb j hj
  unfold observed at ho
  rw [tpTakeoverState, ho, unblanked, hl]
  rfl

/-- The source is unit B's own, and its terminals read 0 and are left dark. -/
theorem tpTakeoverState_leaves (ho : observed s src = true) (hb : ∀ j ∈ assigned s src, blanked s j = false)
    (hl : longDark s src = true) : (getTp (tpTakeoverState src s) src).takenOver = true ∧ ∀ j ∈ assigned s src,
      getTerm (tpTakeoverState src s) j = { getTerm s j with bank1 := false, bank2 := false, darkHeld := true } := by
  rw [tpTakeoverState_takes ho hb hl]
  refine ⟨?_, fun j hj => forAll_assigned (modTerm_turns _ _) hj⟩
  rw [getTp_forAll (f := darkDemand) fun _ _ => rfl, getTp_modTp, if_pos rfl]

end

theorem tpHeld_takenOver {s : State} {src : Nat} (h : (getTp s src).takenOver = true) : tpHeld s src = false := by
  rw [tpHeld, h, Bool.not_true, Bool.and_false]

/-- A channel left dark is at demand. -/
theorem channelValue_darkHeld {s : State} {j : Nat} (h : (getTerm s j).darkHeld = true) :
    channelValue s j = !releasedValue (siMode s (j / 2)) j := by
  simp only [channelValue, h, Bool.or_true, Bool.true_or, if_true]

theorem siField_congr {s t : State} (h : t.config = s.config) (n o w : Nat) : siField t n o w = siField s n o w := by
  unfold siField cfgBytes
  rw [h]

/-- Settles O47: each event by what it leaves of its source and of each terminal assigned to it. -/
theorem safetyTerminalsAreTestedAndBlanked : Obligations.SafetyTerminalsAreTestedAndBlanked := by
  refine ⟨?_, ?_⟩
  · intro t j b high s v hu hd hs
    refine ⟨fun hb => congrArg Host.Outcome.next (siAcceptedState_blanked hb),
      fun hb => ⟨siAcceptedState j (b.val == 1) high v, rfl, ?_⟩⟩
    rw [siAcceptedState_accepts hu hd hs hb]
    exact ⟨fun h => h ▸ ⟨rfl, rfl⟩, fun h => h ▸ ⟨rfl, rfl⟩⟩
  · intro t n s v x watched
    refine ⟨fun hd hw => congrArg Host.Outcome.next (testPulseDarkState_idle hd hw),
      fun h => ⟨testPulseDarkState n v, rfl, ?_⟩, fun mask hd ht => ⟨testPulseCheckState n mask v, rfl, fun j hj => ?_⟩,
      fun hd ht => ⟨blankEndState n v, rfl, blankEndState_ends hd ht⟩,
      fun h => ⟨tpOverloadState n v, rfl, tpOverloadState_switchesOff h⟩,
      fun ho ht => ⟨⟨tpRetryState n true v, rfl, tpRetryState_overloaded ho ht⟩,
        tpRetryState n false v, rfl, tpRetryState_clears ho ht⟩,
      fun hu hd hsplit hheld hne hb => ⟨fun hl => congrArg Host.Outcome.next (tpTakeoverState_waits hl),
        fun hl => ⟨tpTakeoverState n v, rfl, ?_⟩⟩⟩
    · rw [testPulseDarkState_darkens h, blankAll_tp, getTp_modTp, if_pos rfl]
      refine ⟨rfl, rfl, fun j hj => ?_⟩
      rw [blankAll_term (assigned_nodup v n) hj]
      rfl
    · rw [testPulseCheckState_tests hd ht hj]
      refine ⟨fun hm => ?_, fun hm => ?_⟩
      · rw [hm]
        exact ⟨rfl, rfl, rfl⟩
      · rw [hm]
        exact ⟨rfl, rfl⟩
    · have ho : observed v n = true := by simp [observed, hu, hd, hsplit, hheld, hne]
      obtain ⟨htaken, hterms⟩ := tpTakeoverState_leaves ho hb hl
      refine ⟨htaken, tpHeld_takenOver htaken, fun j hj => ?_⟩
      have hconfig : (tpTakeoverState n v).config = v.config := (tpTakeoverState_frame ..).same .config (by decide)
      have hmode : siMode (tpTakeoverState n v) (j / 2) = siMode v (j / 2) := siField_congr hconfig ..
      rw [channelValue_darkHeld (by rw [hterms j hj]), hmode, hterms j hj]
      exact ⟨rfl, rfl, rfl⟩

end Sys2Proof.Machine
end

section
/-! SUPPORT. The channels of the banks: what a switch, a level and a frame's command leave of their own channel, of every other
channel and of the banks (12 R287, R290, R299 to R304). -/

namespace Sys2Proof.Machine

/-! ### Reads of channels and banks -/

theorem getDio_congr {s t : State} (h : t.dio.ch = s.dio.ch) (j : Nat) : getDio t j = getDio s j := by
  rw [getDio, h]
  rfl

theorem getBank_congr {s t : State} (h : t.dio.banks = s.dio.banks) (b : Nat) : getBank t b = getBank s b := by
  rw [getBank, h]
  rfl

@[simp] theorem getBank_modDio (n : Nat) (f : Dio → Dio) (s : State) (b : Nat) : getBank (modDio n f s) b = getBank s b := rfl

@[simp] theorem getDio_modBank (n : Nat) (f : Bank → Bank) (s : State) (j : Nat) : getDio (modBank n f s) j = getDio s j := rfl

@[simp] theorem getDio_emit (code src : Nat) (data : List Byte) (s : State) (j : Nat) :
    getDio (emit code src data s) j = getDio s j := getDio_congr (by simp only [emit_fields]) j

@[simp] theorem getBank_emit (code src : Nat) (data : List Byte) (s : State) (b : Nat) :
    getBank (emit code src data s) b = getBank s b := getBank_congr (by simp only [emit_fields]) b

/-- What a change leaves of a channel, or of a bank, it leaves of each. -/
theorem getDio_modDio_field {α : Type} (p : Dio → α) (n : Nat) (f : Dio → Dio) (s : State) (j : Nat)
    (hf : ∀ x, p (f x) = p x := by exact fun _ => rfl) : p (getDio (modDio n f s) j) = p (getDio s j) := by
  rw [getDio_modDio]
  split
  next h => rw [hf, h]
  · rfl

theorem getBank_modBank_field {α : Type} (p : Bank → α) (n : Nat) (f : Bank → Bank) (s : State) (j : Nat)
    (hf : ∀ x, p (f x) = p x := by exact fun _ => rfl) : p (getBank (modBank n f s) j) = p (getBank s j) := by
  rw [getBank_modBank]
  split
  next h => rw [hf, h]
  · rfl

/-- A record that only a module that is up writes. -/
theorem getDio_emitIf (c : Prop) [Decidable c] (code src : Nat) (data : List Byte) (s : State) (j : Nat) :
    getDio (if c then emit code src data s else s) j = getDio s j := by
  rw [apply_ite (getDio · j), getDio_emit, ite_self]

theorem getBank_emitIf (c : Prop) [Decidable c] (code src : Nat) (data : List Byte) (s : State) (b : Nat) :
    getBank (if c then emit code src data s else s) b = getBank s b := by
  rw [apply_ite (getBank · b), getBank_emit, ite_self]

theorem Untouched.dio {ps : List Part} {s t : State} (h : Untouched ps s t) (hd : Part.dio ∉ ps := by decide) :
    t.dio = s.dio := h.same .dio hd

theorem Untouched.banks {ps : List Part} {s t : State} (h : Untouched ps s t) (hd : Part.dio ∉ ps := by decide) :
    t.dio.banks = s.dio.banks := congrArg DioPart.banks (h.dio hd)

theorem Untouched.getDio {ps : List Part} {s t : State} (h : Untouched ps s t) (j : Nat)
    (hd : Part.dio ∉ ps := by decide) : getDio t j = getDio s j := getDio_congr (congrArg DioPart.ch (h.dio hd)) j

theorem Untouched.getBank {ps : List Part} {s t : State} (h : Untouched ps s t) (b : Nat)
    (hd : Part.dio ∉ ps := by decide) : getBank t b = getBank s b := getBank_congr (h.banks hd) b

/-- A bank's channels are its own twelve. -/
theorem mem_bankChans {b ch : Nat} : ch ∈ bankChans b ↔ ch / 12 = b := by
  simp only [bankChans, List.mem_map, List.mem_range]
  exact ⟨fun ⟨c, hc, h⟩ => by omega, fun h => ⟨ch % 12, by omega, by omega⟩⟩

theorem bankChans_nodup (b : Nat) : (bankChans b).Nodup :=
  List.Pairwise.map _ (fun _ _ h e => h (Nat.add_left_cancel e)) List.nodup_range

/-! ### What an operation on a channel leaves -/

/-- A bank but for its group sequence. -/
def ungrouped (x : Bank) : Bank := { x with group := [] }

/-- The retirement list stands, and of the banks all but their group sequences. -/
structure BanksKeep (s t : State) : Prop where
  retired : t.retired = s.retired
  bank : ∀ b, ungrouped (getBank t b) = ungrouped (getBank s b)

/-- Beside the banks, channel `ch` stands too. -/
structure Beside (ch : Nat) (s t : State) : Prop extends BanksKeep s t where
  here : getDio t ch = getDio s ch

/-- Beside the banks, every channel but `ch` stands. -/
structure OnChannel (ch : Nat) (s t : State) : Prop extends BanksKeep s t where
  other : ∀ j, j ≠ ch → getDio t j = getDio s j

/-- A channel but for its switch, the faults that end with it, and the stamp of its readback. -/
def unswitched (x : Dio) : Dio :=
  { x with on := false, pinLow := false, external := false, openLoad := false, stamp := 0, stampSlew := false, stampLost := false }

/-- At most the switch of channel `ch` acts. -/
structure Switches (ch : Nat) (s t : State) : Prop extends OnChannel ch s t where
  own : unswitched (getDio t ch) = unswitched (getDio s ch)

section
variable {ch : Nat} {s t u : State}

theorem BanksKeep.refl (s : State) : BanksKeep s s := ⟨rfl, fun _ => rfl⟩

theorem BanksKeep.trans (h : BanksKeep s t) (k : BanksKeep t u) : BanksKeep s u :=
  ⟨k.retired.trans h.retired, fun b => (k.bank b).trans (h.bank b)⟩

/-- What is read of a bank beside its group sequence stands. -/
theorem BanksKeep.field {α : Type} (h : BanksKeep s t) (b : Nat) (p : Bank → α)
    (hp : ∀ x, p (ungrouped x) = p x := by exact fun _ => rfl) : p (getBank t b) = p (getBank s b) :=
  (hp _).symm.trans ((congrArg p (h.bank b)).trans (hp _))

theorem BanksKeep.isRetired (h : BanksKeep s t) (kind n : Nat) : isRetired t kind n = isRetired s kind n := by
  unfold Machine.isRetired
  rw [h.retired]

theorem Beside.refl (ch : Nat) (s : State) : Beside ch s s := ⟨.refl s, rfl⟩

theorem Beside.trans (h : Beside ch s t) (k : Beside ch t u) : Beside ch s u :=
  ⟨h.toBanksKeep.trans k.toBanksKeep, k.here.trans h.here⟩

theorem OnChannel.trans (h : OnChannel ch s t) (k : OnChannel ch t u) : OnChannel ch s u :=
  ⟨h.toBanksKeep.trans k.toBanksKeep, fun j hj => (k.other j hj).trans (h.other j hj)⟩

theorem OnChannel.beside (h : OnChannel ch s t) {j : Nat} (hj : j ≠ ch) : Beside j s t := ⟨h.toBanksKeep, h.other j hj⟩

theorem OnChannel.modDio (ch : Nat) (f : Dio → Dio) (s : State) : OnChannel ch s (modDio ch f s) :=
  ⟨⟨rfl, fun _ => rfl⟩, fun j hj => by rw [getDio_modDio, if_neg hj]⟩

theorem Switches.refl (ch : Nat) (s : State) : Switches ch s s := ⟨⟨.refl s, fun _ _ => rfl⟩, rfl⟩

theorem Switches.trans (h : Switches ch s t) (k : Switches ch t u) : Switches ch s u :=
  ⟨h.toOnChannel.trans k.toOnChannel, k.own.trans h.own⟩

theorem Switches.modDio (ch : Nat) {f : Dio → Dio} (s : State) (hf : ∀ x, unswitched (f x) = unswitched x) :
    Switches ch s (modDio ch f s) := ⟨.modDio ch f s, by rw [getDio_modDio, if_pos rfl, hf]⟩

theorem Switches.emit (ch code src : Nat) (data : List Byte) (s : State) : Switches ch s (emit code src data s) :=
  ⟨⟨⟨by simp only [emit_fields], fun _ => by rw [getBank_emit]⟩, fun _ _ => getDio_emit ..⟩, by rw [getDio_emit]⟩

theorem Switches.modGroup (ch b : Nat) (g : List Nat → List Nat) (s : State) :
    Switches ch s (modBank b (fun x => { x with group := g x.group }) s) :=
  ⟨⟨⟨rfl, fun j => getBank_modBank_field ungrouped b _ s j⟩, fun _ _ => rfl⟩, rfl⟩

/-- What is read of a channel beside its switch stands. -/
theorem Switches.field {α : Type} (h : Switches ch s t) (p : Dio → α)
    (hp : ∀ x, p (unswitched x) = p x := by exact fun _ => rfl) : p (getDio t ch) = p (getDio s ch) :=
  (hp _).symm.trans ((congrArg p h.own).trans (hp _))

end

/-! ### Loops over channels -/

section
variable {α : Type} {key : α → Nat} {f : State → α → State}

theorem foldl_banksKeep (turn : ∀ s a, BanksKeep s (f s a)) (l : List α) (s : State) : BanksKeep s (l.foldl f s) := by
  induction l generalizing s with
  | nil => exact .refl s
  | cons x r ih => exact (turn s x).trans (ih _)

variable (turn : ∀ s a, OnChannel (key a) s (f s a))
include turn

theorem foldl_beside {l : List α} {k : Nat} (hk : k ∉ l.map key) (s : State) : Beside k s (l.foldl f s) := by
  induction l generalizing s with
  | nil => exact .refl k s
  | cons x r ih =>
    obtain ⟨hx, hr⟩ := List.ne_and_not_mem_of_not_mem_cons hk
    exact ((turn s x).beside hx).trans (ih hr _)

/-- In a loop that turns to each channel once, a channel meets its own turn alone. -/
theorem foldl_turn {l : List α} (hl : (l.map key).Nodup) {a : α} (ha : a ∈ l) (s : State) :
    ∃ t, Beside (key a) s t ∧ Beside (key a) (f t a) (l.foldl f s) := by
  induction l generalizing s with
  | nil => exact absurd ha List.not_mem_nil
  | cons x r ih =>
    obtain ⟨hx, hr⟩ := List.nodup_cons.1 hl
    rcases List.mem_cons.1 ha with rfl | ha
    · exact ⟨s, .refl _ s, foldl_beside turn hx _⟩
    · have hne : key a ≠ key x := fun h => hx (h ▸ List.mem_map_of_mem ha)
      obtain ⟨t, before, after⟩ := ih hr ha (f s x)
      exact ⟨t, ((turn s x).beside hne).trans before, after⟩

end

/-- A pass over a bank's channels. -/
theorem forAll_bankChans_turn {f : Nat → State → State} (turn : ∀ ch s, OnChannel ch s (f ch s)) {b ch : Nat}
    (h : ch ∈ bankChans b) (s : State) : ∃ t, Beside ch s t ∧ Beside ch (f ch t) (forAll (bankChans b) f s) :=
  foldl_turn (key := id) (fun s ch => turn ch s) (by rw [List.map_id]; exact bankChans_nodup b) h s

/-- One change made to every channel of a bank. -/
theorem getDio_forAll_modDio {b ch : Nat} (h : ch ∈ bankChans b) (g : Dio → Dio) (s : State) :
    getDio (forAll (bankChans b) (fun n => modDio n g) s) ch = g (getDio s ch) := by
  obtain ⟨t, before, after⟩ := forAll_bankChans_turn (fun n s => OnChannel.modDio n g s) h s
  rw [after.here, getDio_modDio, if_pos rfl, before.here]

theorem getBank_forAll_modDio (l : List Nat) (g : Dio → Dio) (s : State) (b : Nat) :
    getBank (forAll l (fun n => modDio n g) s) b = getBank s b :=
  forAll_induct (P := fun x => getBank x b = getBank s b) l (fun n => modDio n g) (fun _ _ h => h) s rfl

/-! ### The switch (R290, R299, R303, R304) -/

theorem endDrive_switches (ch : Nat) (s : State) : Switches ch s (endDrive ch s) := by
  have h := Switches.modDio ch (f := fun x => { x with external := false }) s fun _ => rfl
  unfold endDrive
  dsimp only
  split
  · split
    · exact h.trans (.emit ..)
    · exact h
  · exact .refl ch s

theorem endDrive_own (ch : Nat) (s : State) : getDio (endDrive ch s) ch = { getDio s ch with external := false } := by
  unfold endDrive
  dsimp only
  split
  · rw [getDio_emitIf, getDio_modDio, if_pos rfl]
  next h => rw [← Bool.eq_false_iff.2 h]

theorem endOpenLoad_switches (ch : Nat) (s : State) : Switches ch s (endOpenLoad ch s) := by
  have h := Switches.modDio ch (f := fun x => { x with openLoad := false }) s fun _ => rfl
  unfold endOpenLoad
  dsimp only
  split
  · split
    · exact h.trans (.emit ..)
    · exact h
  · exact .refl ch s

theorem endOpenLoad_on (ch : Nat) (s : State) : (getDio (endOpenLoad ch s) ch).on = (getDio s ch).on := by
  unfold endOpenLoad
  dsimp only
  split
  · rw [getDio_emitIf, getDio_modDio, if_pos rfl]
  · rfl

/-- A change as it is stamped: the change itself, and perhaps a stamp. -/
theorem stampDio_own (ch : Nat) (changed : Dio → Dio → Bool) (f : Dio → Dio) (s : State) :
    getDio (stampDio ch changed f s) ch = if changed (getDio s ch) (f (getDio s ch)) then
      { f (getDio s ch) with stamp := bicTime s (ch / 12), stampSlew := slewing s, stampLost := false }
    else f (getDio s ch) := by
  unfold stampDio
  rw [getDio_modDio, if_pos rfl]

/-- What is read of a channel beside its stamp is what the change makes of it. -/
theorem stampDio_field {α : Type} (p : Dio → α) (ch : Nat) (changed : Dio → Dio → Bool) (f : Dio → Dio) (s : State)
    (hp : ∀ x a b c, p { x with stamp := a, stampSlew := b, stampLost := c } = p x := by exact fun _ _ _ _ => rfl) :
    p (getDio (stampDio ch changed f s) ch) = p (f (getDio s ch)) := by
  rw [stampDio_own]
  split
  · exact hp ..
  · rfl

theorem stampDio_onChannel (ch : Nat) (changed : Dio → Dio → Bool) (f : Dio → Dio) (s : State) :
    OnChannel ch s (stampDio ch changed f s) := .modDio ..

theorem setSwitch_switches (ch : Nat) (v : Bool) (s : State) : Switches ch s (setSwitch ch v s) := by
  have h : Switches ch s (stampDio ch (fun x y => readback x != readback y) (fun x => { x with on := v, pinLow := false }) s) :=
    ⟨stampDio_onChannel .., stampDio_field unswitched ..⟩
  unfold setSwitch
  dsimp only
  split
  · exact h.trans (endDrive_switches ..)
  · exact h

@[simp] theorem setSwitch_on (ch : Nat) (v : Bool) (s : State) : (getDio (setSwitch ch v s) ch).on = v := by
  unfold setSwitch
  dsimp only
  split
  · rw [endDrive_own]
    exact stampDio_field Dio.on ..
  · exact stampDio_field Dio.on ..

/-- A switch leaves the banks. -/
theorem setSwitch_bank (ch : Nat) (v : Bool) (s : State) (b : Nat) : getBank (setSwitch ch v s) b = getBank s b := by
  unfold setSwitch endDrive
  dsimp only
  split
  · split
    · split
      · exact getBank_emit ..
      · rfl
    · rfl
  · rfl

/-- The level a channel's command and the state of its bank give its switch. -/
def switchLevel (s : State) (ch : Nat) : Bool :=
  let x := getDio s ch
  let b := getBank s (ch / 12)
  driveAllowed s ch && x.command && !x.trip && !b.supplyOff && !b.overload

theorem settleSwitch_switches (ch : Nat) (s : State) : Switches ch s (settleSwitch ch s) := by
  have leaves : Switches ch s (if (getBank s (ch / 12)).group.contains ch then
      modBank (ch / 12) (fun b => { b with group := b.group.filter (· != ch) }) s else s) := by
    split
    · exact .modGroup ch (ch / 12) (List.filter (· != ch)) s
    · exact .refl ch s
  unfold settleSwitch
  dsimp only
  split
  · split
    · exact .refl ch s
    · split
      · exact .modGroup ch (ch / 12) (addGroup ch) s
      · exact setSwitch_switches ..
  · split
    · exact leaves.trans (setSwitch_switches ..)
    · exact leaves

theorem settleSwitch_off {ch : Nat} {s : State} (h : switchLevel s ch = false) : (getDio (settleSwitch ch s) ch).on = false := by
  have leaves : getDio (if (getBank s (ch / 12)).group.contains ch then
      modBank (ch / 12) (fun b => { b with group := b.group.filter (· != ch) }) s else s) ch = getDio s ch := by
    rw [apply_ite (getDio · ch), getDio_modBank, ite_self]
  rw [show settleSwitch ch s = _ from if_neg (Bool.eq_false_iff.1 h)]
  split
  · exact setSwitch_on ..
  next hx => rw [leaves]; exact Bool.eq_false_iff.2 hx

theorem settleSwitch_on {ch : Nat} {s : State} (h : switchLevel s ch = true) (hr : (getBank s (ch / 12)).restoring = false) :
    (getDio (settleSwitch ch s) ch).on = true := by
  rw [show settleSwitch ch s = _ from if_pos h]
  split
  next hx => exact hx
  · rw [hr, if_neg Bool.false_ne_true]
    exact setSwitch_on ..

/-! ### Levels (R287, R299, R301) -/

/-- A channel under a new level: one that is off ends a trip and its retry (R297). -/
def leveled (v : Bool) (x : Dio) : Dio :=
  { x with command := v, retry := x.retry && v, trip := x.trip && v, thermal := x.thermal && v }

theorem commandLevel_switches (ch : Nat) (v : Bool) (s : State) :
    Switches ch (modDio ch (leveled v) s) (commandLevel ch v s) := by
  unfold commandLevel
  dsimp only
  split
  · exact settleSwitch_switches ..
  · exact (settleSwitch_switches ch (modDio ch (leveled v) s)).trans (endOpenLoad_switches ..)

theorem commandLevel_onChannel (ch : Nat) (v : Bool) (s : State) : OnChannel ch s (commandLevel ch v s) :=
  (OnChannel.modDio ..).trans (commandLevel_switches ch v s).toOnChannel

/-- What is read of a channel beside its switch is what the level makes of it. -/
theorem commandLevel_field {α : Type} (p : Dio → α) (ch : Nat) (v : Bool) (s : State)
    (hp : ∀ x, p (unswitched x) = p x := by exact fun _ => rfl) :
    p (getDio (commandLevel ch v s) ch) = p (leveled v (getDio s ch)) := by
  rw [(commandLevel_switches ch v s).field p hp, getDio_modDio, if_pos rfl]

theorem commandLevel_off (ch : Nat) (s : State) : (getDio (commandLevel ch false s) ch).on = false := by
  have level : switchLevel (modDio ch (leveled false) s) ch = false := by
    simp [switchLevel, leveled]
  exact (endOpenLoad_on ..).trans (settleSwitch_off level)

/-- A safe state's level is off: the switch opens, and command and pulse end with it (R287). -/
theorem safeLevel_off (ch : Nat) (s : State) : (getDio (safeLevel ch false s) ch).on = false ∧
    (getDio (safeLevel ch false s) ch).command = false ∧ (getDio (safeLevel ch false s) ch).pulseEnd = none := by
  unfold safeLevel
  refine ⟨commandLevel_off .., commandLevel_field Dio.command .., ?_⟩
  rw [commandLevel_field Dio.pulseEnd, getDio_modDio, if_pos rfl]
  rfl

theorem safeLevel_onChannel (ch : Nat) (v : Bool) (s : State) : OnChannel ch s (safeLevel ch v s) :=
  (OnChannel.modDio ..).trans (commandLevel_onChannel ..)

/-! ### All outputs of a bank off (R298, R303) -/

theorem bankOff_turn (ch : Nat) (s : State) : OnChannel ch s (if (getDio s ch).on then setSwitch ch false s else s) := by
  split
  · exact (setSwitch_switches ..).toOnChannel
  · exact ⟨.refl s, fun _ _ => rfl⟩

theorem bankOff_banksKeep (b : Nat) (s : State) : BanksKeep s (bankOff b s) :=
  (Switches.modGroup 0 b (fun _ => []) s).toBanksKeep.trans
    (foldl_banksKeep (fun s ch => (bankOff_turn ch s).toBanksKeep) (bankChans b) _)

theorem bankOff_off {b ch : Nat} (h : ch ∈ bankChans b) (s : State) : (getDio (bankOff b s) ch).on = false := by
  obtain ⟨t, -, after⟩ := forAll_bankChans_turn bankOff_turn h (modBank b (fun x => { x with group := [] }) s)
  refine (congrArg Dio.on after.here).trans ?_
  split
  · exact setSwitch_on ..
  next hx => exact Bool.eq_false_iff.2 hx

theorem startRestore_banksKeep (b : Nat) (s : State) :
    BanksKeep (modBank b (fun x => { x with restoring := true }) s) (startRestore b s) :=
  foldl_banksKeep (fun s ch => (settleSwitch_switches ch s).toBanksKeep) (bankChans b) _

end Sys2Proof.Machine
end

section
/-! SUPPORT. Inputs and the banks' supplies: an accepted edge, a supply lost and back, and a BIC's reset (12 R289, R293, R295,
R303). -/

namespace Sys2Proof.Machine

/-! ### An accepted edge (R293, R295) -/

/-- An output's channel reads no input. -/
theorem bicMode_ne_of_readInput {m mv ua : Nat} {x : Option Bool × Nat} (h : readInput m mv ua = some x) : m ≠ 3 := by
  rintro rfl
  exact absurd h (by simp [readInput])

/-- An input's channel that takes a value in the normal band, stamped. -/
def inputTaken (ch : Nat) (val : Bool) (s : State) : State :=
  stampDio ch (fun _ _ => true) (fun x => { x with state := val, sup := 0, seen := true, supplyGone := false }) s

theorem inputTaken_own (ch : Nat) (val : Bool) (s : State) : getDio (inputTaken ch val s) ch = { getDio s ch with
    state := val, sup := 0, seen := true, supplyGone := false
    stamp := bicTime s (ch / 12), stampSlew := slewing s, stampLost := false } := by
  rw [inputTaken, stampDio_own, if_pos rfl]

/-- The other value than the last one taken is an edge. -/
theorem diEdgeState_takes {ch mv ua : Nat} {val : Bool} {s : State}
    (hr : readInput (bicMode s ch) mv ua = some (some val, 0)) (ho : (getBank s (ch / 12)).supplyOff = false)
    (hs : (getDio s ch).seen = true) (hv : (getDio s ch).state ≠ val) :
    diEdgeState ch mv ua s = queueEdge ch val (inputTaken ch val s) := by
  simp only [diEdgeState, hr, ho, hs, Option.getD_some, hv.symm, if_neg (bicMode_ne_of_readInput hr), Bool.false_eq_true,
    if_false, false_and, and_false, if_true, true_and, ne_eq, not_false_eq_true]
  rfl

/-- A full queue drops the record, and its stamp is lost (R295). -/
theorem queueEdge_own (ch : Nat) (val : Bool) (s : State) : getDio (queueEdge ch val s) ch = { getDio s ch with
    stampLost := (getDio s ch).stampLost || decide (32 ≤ (getBank s (ch / 12)).edges.length) } := by
  unfold queueEdge
  dsimp only
  split
  next h => rw [decide_eq_false (by omega), Bool.or_false, getDio_modBank]
  next h => rw [decide_eq_true (by omega), Bool.or_true, getDio_modDio, if_pos rfl, getDio_modBank]

/-- The queue takes the record in the order of the stamps while fewer than 32 wait; otherwise the overflow shows (R295). -/
theorem queueEdge_bank (ch : Nat) (val : Bool) (s : State) :
    let k := getBank s (ch / 12)
    getBank (queueEdge ch val s) (ch / 12) = { k with
      edges := if k.edges.length < 32 then insertEdge ⟨ch, val, (getDio s ch).stamp, (getDio s ch).stampSlew⟩ k.edges
        else k.edges
      overflow := k.overflow || decide (32 ≤ k.edges.length) } := by
  unfold queueEdge
  dsimp only
  split
  next h => rw [decide_eq_false (by omega), Bool.or_false, getBank_modBank, if_pos rfl]
  next h => rw [decide_eq_true (by omega), Bool.or_true, getBank_modDio, getBank_modBank, if_pos rfl]

/-! ### A bank's supply (R303) -/

/-- Without its supply a bank has its outputs off and its inputs unread. -/
theorem bankSupplyLost_channels {b ch : Nat} (h : ch ∈ bankChans b) (s : State) :
    (getDio (bankSupplyLost b s) ch).on = false ∧ (getDio (bankSupplyLost b s) ch).seen = false := by
  obtain ⟨t, before, after⟩ := forAll_bankChans_turn (f := fun ch s => stampDio ch (fun _ _ => bicMode s ch != 3)
      (fun x => { x with seen := false, supplyGone := true }) s) (fun ch s => stampDio_onChannel ..) h
    (bankOff b (modBank b (fun x => { x with supplyOff := true, restoring := false }) s))
  rw [show bankSupplyLost b s = forAll (bankChans b) _ _ from rfl, after.here]
  refine ⟨?_, stampDio_field Dio.seen ..⟩
  rw [stampDio_field Dio.on, before.here]
  dsimp only
  exact bankOff_off h _

theorem isPairUnit_congr {s t : State} (h : t.pwr = s.pwr) : isPairUnit t = isPairUnit s := by
  rw [isPairUnit, h]
  rfl

theorem isPairUnit_draw (s : State) : isPairUnit (draw s).2 = isPairUnit s := rfl

theorem getDio_draw (s : State) (j : Nat) : getDio (draw s).2 j = getDio s j := rfl

/-! ### A BIC's reset (R289) -/

/-- A BIC that has reset holds no configuration, queue or placed edge; outside a pair it holds its claim. -/
theorem bicResets_bank (b : Nat) (s : State) :
    let y := getBank (bicResets b s) b
    y.active = [] ∧ y.edges = [] ∧ y.placed = [] ∧ y.claim = !isPairUnit s := by
  have pairUnit : isPairUnit (bankOff b s) = isPairUnit s := isPairUnit_congr ((bankOff_frame b s).same .pwr (by decide))
  unfold bicResets
  dsimp only
  rw [getBank_forAll_modDio, getBank_modBank, if_pos rfl, isPairUnit_draw, pairUnit]
  exact ⟨rfl, rfl, rfl, rfl⟩

/-- A BIC that has reset has its outputs off and disabled. -/
theorem bicResets_channels {b ch : Nat} (h : ch ∈ bankChans b) (s : State) :
    (getDio (bicResets b s) ch).on = false ∧ (getDio (bicResets b s) ch).enabled = false := by
  unfold bicResets
  dsimp only
  rw [getDio_forAll_modDio h]
  dsimp only
  rw [getDio_modBank, getDio_draw]
  exact ⟨bankOff_off h s, rfl⟩

/-- Settles O34: an edge by what the queue makes of it, then a bank's supply and a BIC's reset. -/
theorem inputsAndBankSupplies : Obligations.InputsAndBankSupplies := by
  intro t s v
  refine ⟨fun ch mv ua val => ?_, fun b mv => ⟨fun hm ho => ⟨_, congrArg Host.Outcome.next (if_pos ?_), ?_, fun ch h => ?_⟩,
    fun hm ho => ⟨_, congrArg Host.Outcome.next (if_pos hm), ?_⟩,
    fun hm => ⟨_, congrArg Host.Outcome.next (if_pos hm), ?_⟩⟩⟩
  · intro x k hr ho hs hv stamp
    refine ⟨_, congrArg Host.Outcome.next (diEdgeState_takes (s := v) hr ho hs hv), ?_⟩
    rw [queueEdge_own, queueEdge_bank, inputTaken_own]
    exact ⟨⟨rfl, rfl, rfl, rfl, Bool.false_or _⟩, rfl, rfl⟩
  · simp only [hm, true_and, Bool.not_eq_true']
    exact ho
  · exact (bankSupplyLost_off b v b).trans (if_pos rfl)
  · exact bankSupplyLost_channels h v
  · exact (bankSupplyBack_off b v b).trans (if_pos rfl)
  · obtain ⟨hactive, hedges, hplaced, hclaim⟩ := bicResets_bank b v
    exact ⟨hactive, hedges, hplaced, hclaim, fun ch h => bicResets_channels h v⟩

end Sys2Proof.Machine
end

section
/-! SUPPORT. Outputs that trip, retry, shed an overload and come back in groups; open loads and external drive; timed edges and
pulses (12 R297 to R304; 18 R444). -/

namespace Sys2Proof.Machine

/-! ### What a bank's update leaves -/

theorem modBank_congr {n : Nat} {f g : Bank → Bank} {s : State} (h : f (getBank s n) = g (getBank s n)) :
    modBank n f s = modBank n g s := by
  have put : Tbl.modify s.dio.banks {} n f = Tbl.modify s.dio.banks {} n g := congrArg (Tbl.put s.dio.banks {} n) h
  rw [modBank, put]
  rfl

theorem driveAllowed_modDio {ch : Nat} {f : Dio → Dio} (s : State) (hf : ∀ x, (f x).enabled = x.enabled) :
    driveAllowed (modDio ch f s) ch = driveAllowed s ch := by
  simp only [driveAllowed, getDio_modDio, getBank_modDio, if_true, hf]
  rfl

theorem driveAllowed_modBank {b ch : Nat} {f : Bank → Bank} (s : State) (hc : ∀ x, (f x).claim = x.claim)
    (ha : ∀ x, (f x).active = x.active) : driveAllowed (modBank b f s) ch = driveAllowed s ch := by
  have mode : bicMode (modBank b f s) ch = bicMode s ch :=
    congrArg (copyMode · (ch % 12)) (getBank_modBank_field Bank.active b f s (ch / 12) ha)
  rw [driveAllowed, mode, getBank_modBank_field Bank.claim b f s (ch / 12) hc]
  rfl

/-! ### A channel retires (18 R444) -/

/-- A channel without the level an edge left. -/
def edgeless (x : Dio) : Dio := { x with edgeLevel := none }

/-- A channel but for its switch, its command, and what ends with them. -/
def uncommanded (x : Dio) : Dio := { unswitched x with command := false, retry := false, pulseEnd := none, edgeLevel := none }

theorem dropEdges_own (b : Nat) (own : Nat → Bool) (s : State) (ch : Nat) :
    edgeless (getDio (dropEdges b own s) ch) = edgeless (getDio s ch) := by
  unfold dropEdges
  refine forAll_induct (P := fun z => edgeless (getDio z ch) = edgeless (getDio s ch)) _ _ (fun n z h => ?_) _ rfl
  split
  · rw [getDio_modDio]
    split
    next hn => rw [← hn]; exact h
    · exact h
  · exact h

/-- A retired channel is off, and keeps its faults (12 R297). -/
theorem retireDio_channel (ch : Nat) (s : State) : (getDio (retireDio ch s) ch).on = false ∧
    uncommanded (getDio (retireDio ch s) ch) = uncommanded (getDio s ch) := by
  unfold retireDio
  dsimp only
  rw [(scRetired_frame ..).getDio, (requalDio_frame ..).getDio]
  generalize hz : setSwitch ch false _ = z
  have drops := dropEdges_own (ch / 12) (· == ch) z ch
  have off : (getDio z ch).on = false := hz ▸ setSwitch_on ..
  have keeps : uncommanded (getDio z ch) = uncommanded (getDio s ch) := by
    rw [← hz, (setSwitch_switches ..).field uncommanded, getDio_modDio, if_pos rfl, (listRetired_frame ..).getDio]
    rfl
  exact ⟨(congrArg Dio.on drops :).trans off, (congrArg uncommanded drops :).trans keeps⟩

/-! ### Trips and retries (R297) -/

/-- A channel that has tripped, with its faults counted. -/
def tripped (th counts : Bool) (now : Nat) (x : Dio) : Dio :=
  { x with
    trip := true, thermal := th, retry := true, tripAt := now, lifetime := sat 32 (x.lifetime + 1)
    faults := if counts then addFault now x.faults else x.faults }

/-- The switch opens with the trip. -/
def tripOpens (ch : Nat) (th : Bool) (s : State) : State :=
  setSwitch ch false (modDio ch (tripped th (bankCounts s (ch / 12)) s.now) s)

theorem tripOpens_own (ch : Nat) (th : Bool) (s : State) : (getDio (tripOpens ch th s) ch).on = false ∧
    uncommanded (getDio (tripOpens ch th s) ch) =
      uncommanded (tripped th (bankCounts s (ch / 12)) s.now (getDio s ch)) := by
  unfold tripOpens
  refine ⟨setSwitch_on .., ?_⟩
  rw [(setSwitch_switches ..).field uncommanded, getDio_modDio, if_pos rfl]

/-- A module that is up records the trip with the faults counted (17 Table 17.2). -/
def tripRecorded (ch : Nat) (th : Bool) (s : State) : State :=
  if up s then
    emit (if th then 0x4002 else 0x4001) (0x1000 + ch) (leBytes 1 (faultCount s.now (getDio s ch).faults)) s
  else s

/-- A trip opens the switch and is recorded, and at the third counted one the channel retires. -/
theorem outputTripState_of_on {ch : Nat} {s : State} (th : Bool) (h : (getDio s ch).on = true) :
    outputTripState ch th s =
      let u := tripRecorded ch th (tripOpens ch th s)
      if bankCounts s (ch / 12) ∧ 3 ≤ faultCount (tripOpens ch th s).now (getDio (tripOpens ch th s) ch).faults then
        retireDio ch u
      else u :=
  if_neg (by rw [h]; decide)

/-- An output that trips goes off with its flags and counts, and where it retires it stays so. -/
theorem outputTripState_trips {ch : Nat} {s : State} (th : Bool) (h : (getDio s ch).on = true) :
    let y := getDio (outputTripState ch th s) ch
    y.on = false ∧ y.trip = true ∧ y.thermal = th ∧ y.tripAt = s.now ∧ y.lifetime = sat 32 ((getDio s ch).lifetime + 1) := by
  intro y
  obtain ⟨hoff, hflags⟩ := tripOpens_own ch th s
  have settles : y.on = false ∧ uncommanded y = uncommanded (tripped th (bankCounts s (ch / 12)) s.now (getDio s ch)) := by
    have records : getDio (tripRecorded ch th (tripOpens ch th s)) ch = getDio (tripOpens ch th s) ch := getDio_emitIf ..
    rw [show y = getDio (outputTripState ch th s) ch from rfl, outputTripState_of_on th h]
    dsimp only
    split
    · obtain ⟨hon, hkeeps⟩ := retireDio_channel ch (tripRecorded ch th (tripOpens ch th s))
      rw [hkeeps, records]
      exact ⟨hon, hflags⟩
    · rw [records]
      exact ⟨hoff, hflags⟩
  obtain ⟨hon, hy⟩ := settles
  exact ⟨hon, congrArg Dio.trip hy, congrArg Dio.thermal hy, congrArg Dio.tripAt hy, congrArg Dio.lifetime hy⟩

/-- A channel whose trip is over. -/
def untripped (x : Dio) : Dio := { x with retry := false, trip := false, thermal := false }

/-- A retry switches a channel on again that its command and its bank still want on. -/
theorem retry_on {ch : Nat} {s : State} (hd : driveAllowed s ch = true) (hc : (getDio s ch).command = true)
    (ho : (getBank s (ch / 12)).supplyOff = false) (hl : (getBank s (ch / 12)).overload = false)
    (hr : (getBank s (ch / 12)).restoring = false) :
    let y := getDio (settleSwitch ch (modDio ch untripped s)) ch
    y.on = true ∧ y.retry = false ∧ y.trip = false ∧ y.thermal = false := by
  intro y
  have level : switchLevel (modDio ch untripped s) ch = true := by
    simp [switchLevel, driveAllowed_modDio s (f := untripped) fun _ => rfl, untripped, hd, hc, ho, hl]
  have keeps := settleSwitch_switches ch (modDio ch untripped s)
  refine ⟨settleSwitch_on level hr, (keeps.field Dio.retry).trans ?_, (keeps.field Dio.trip).trans ?_,
    (keeps.field Dio.thermal).trans ?_⟩ <;> rw [getDio_modDio, if_pos rfl, untripped]

/-! ### External drive (R300, R304) -/

/-- The pin of an output that is off shows what drives it from outside. -/
theorem pinState_high {ch mv : Nat} {s : State} (hx : (getDio s ch).on = false) (hm : 11000 ≤ mv) :
    (getDio (pinState ch mv s) ch).pinHigh = true := by
  rw [pinState, if_pos hm, stampDio_field Dio.pinHigh, hx]
  rfl

theorem pinState_low {ch mv : Nat} {s : State} (hx : (getDio s ch).on = false) (hm : mv ≤ 5000) :
    (getDio (pinState ch mv s) ch).pinHigh = false ∧ (getDio (pinState ch mv s) ch).external = (getDio s ch).external := by
  rw [pinState, if_neg (by omega), if_pos hm, stampDio_field Dio.pinHigh, stampDio_field Dio.external, hx]
  exact ⟨rfl, rfl⟩

section
variable {ch mv : Nat} {s : State} (ho : bicMode s ch = 3) (hx : (getDio s ch).on = false)
include ho hx

theorem externalDriveState_driven (he : (getDio s ch).external = false) (hc : (getBank s (ch / 12)).claim = true)
    (hm : 11000 ≤ mv) : (getDio (externalDriveState ch mv s) ch).external = true ∧
      (getDio (externalDriveState ch mv s) ch).pinHigh = true := by
  have claim : (getBank (pinState ch mv s) (ch / 12)).claim = true := by
    rw [pinState, if_pos hm]
    exact hc
  have driven (u : State) (hu : getDio u ch = { getDio (pinState ch mv s) ch with external := true }) :
      (getDio u ch).external = true ∧ (getDio u ch).pinHigh = true := by
    rw [hu]
    exact ⟨rfl, pinState_high hx hm⟩
  apply driven
  simp only [externalDriveState, ho, hx, he, hm, claim, ne_eq, not_true_eq_false, Bool.false_eq_true, or_self, if_false,
    Bool.not_true, Bool.false_and, Bool.or_self, if_true]
  rw [apply_ite (getDio · ch), (selfTestFailed_frame ..).getDio, ite_self, getDio_emitIf, getDio_modDio, if_pos rfl]

theorem externalDriveState_released (hm : mv ≤ 5000) : (getDio (externalDriveState ch mv s) ch).external = false ∧
    (getDio (externalDriveState ch mv s) ch).pinHigh = false := by
  obtain ⟨hpin, hexternal⟩ := pinState_low hx hm
  simp only [externalDriveState, ho, hx, hm, ne_eq, not_true_eq_false, Bool.false_eq_true, or_self, if_false, true_and,
    show ¬ 11000 ≤ mv by omega]
  split
  · rw [endDrive_own]
    exact ⟨rfl, hpin⟩
  next he => exact ⟨hexternal.trans (Bool.eq_false_iff.2 he), hpin⟩

end

/-! ### Timed edges and pulses (R301, R302) -/

/-- The only edge placed, when it is due. -/
theorem timedEdgeState_due {ch : Nat} {e : DioEdge} {s : State} (hp : (getBank s (ch / 12)).placed = [e]) (hc : e.ch = ch)
    (ht : e.fireAt ≤ localNow s) :
    timedEdgeState ch s = applyEdge e (modBank (ch / 12) (fun x => { x with placed := [] }) s) := by
  have due : [e].filter (fun e => e.ch == ch && decide (e.fireAt ≤ localNow s)) = [e] := by simp [hc, ht]
  have left : [e].filter (fun e => !(e.ch == ch && decide (e.fireAt ≤ localNow s))) = [] := by simp [hc, ht]
  unfold timedEdgeState
  dsimp only
  rw [hp, due, modBank_congr (g := fun x => { x with placed := [] }) (by rw [hp, left])]
  rfl

/-- An edge takes effect on a channel in service that may be driven, a slot's while its DO is not forced. -/
def edgeGoes (e : DioEdge) (s : State) : Bool :=
  driveAllowed s e.ch && !dioRetired s e.ch && !(decide (e.slot < 256) && doForced s e.ch)

theorem edgeGoes_modBank {b : Nat} {f : Bank → Bank} (e : DioEdge) (s : State) (hc : ∀ x, (f x).claim = x.claim)
    (ha : ∀ x, (f x).active = x.active) : edgeGoes e (modBank b f s) = edgeGoes e s := by
  rw [edgeGoes, driveAllowed_modBank s hc ha]
  rfl

theorem applyEdge_dropped {e : DioEdge} {s : State} (h : edgeGoes e s = false) : applyEdge e s = s := by
  have drops : (!driveAllowed s e.ch || dioRetired s e.ch || (decide (e.slot < 256) && doForced s e.ch)) = true := by
    rw [← Bool.not_eq_false', ← h, edgeGoes]
    simp only [Bool.not_or, Bool.not_not]
  exact if_pos drops

/-- The instant at which the pulse of an edge ends. -/
def edgePulse (e : DioEdge) (s : State) : Option Nat :=
  if e.action = 1 ∨ e.action = 2 then none else some (s.now + e.width * usNs)

theorem applyEdge_goes {e : DioEdge} {s : State} (h : edgeGoes e s = true) : applyEdge e s =
    commandLevel e.ch (decide (e.action ≠ 2)) (modDio e.ch (fun x => { x with pulseEnd := edgePulse e s }) s) := by
  have goes : (!driveAllowed s e.ch || dioRetired s e.ch || (decide (e.slot < 256) && doForced s e.ch)) = false := by
    rw [← Bool.not_eq_true', ← h, edgeGoes]
    simp only [Bool.not_or, Bool.not_not]
  rw [show applyEdge e s = _ from if_neg (Bool.eq_false_iff.1 goes)]
  split
  next ha => simp [edgePulse, ha]
  next ha => simp [edgePulse, ha]
  next h1 h2 => rw [edgePulse, if_neg (not_or.2 ⟨h1, h2⟩), decide_eq_true (p := e.action ≠ 2) h2]

/-- A pulse ends: the output goes off with its command (R301). -/
theorem pulseEnd_off (ch : Nat) (level : Dio → Option Bool) (s : State) :
    let y := getDio (commandLevel ch false (modDio ch (fun x => { x with pulseEnd := none, edgeLevel := level x }) s)) ch
    y.on = false ∧ y.command = false ∧ y.pulseEnd = none := by
  refine ⟨commandLevel_off .., commandLevel_field Dio.command .., (commandLevel_field Dio.pulseEnd ..).trans ?_⟩
  rw [getDio_modDio, if_pos rfl]
  rfl

/-! ### Overload and restoring (R298, R303) -/

/-- Switching a list of channels on leaves each of them on. -/
theorem forAll_setSwitch_on {l : List Nat} {ch : Nat} (s : State) (h : ch ∈ l ∨ (getDio s ch).on = true) :
    (getDio (forAll l (fun ch s => setSwitch ch true s) s) ch).on = true := by
  induction l generalizing s with
  | nil => exact h.resolve_left List.not_mem_nil
  | cons n r ih =>
    refine ih _ ?_
    by_cases hn : ch = n
    · exact .inr (hn ▸ setSwitch_on ..)
    · rw [(setSwitch_switches n true s).other ch hn]
      exact h.imp_left (List.mem_of_ne_of_mem hn)

theorem forAll_setSwitch_bank (l : List Nat) (v : Bool) (s : State) (b : Nat) :
    getBank (forAll l (fun ch s => setSwitch ch v s) s) b = getBank s b :=
  forAll_induct (P := fun x => getBank x b = getBank s b) l (fun ch s => setSwitch ch v s)
    (fun n x h => (setSwitch_bank n v x b).trans h) s rfl

/-- A bank that sheds an overload is marked, and its outputs are off (R298). -/
theorem bankOff_overloads (b : Nat) (s : State) :
    let u := bankOff b (modBank b (fun x => { x with overload := true, overloadAt := s.now, restoring := false }) s)
    (getBank u b).overload = true ∧ (getBank u b).overloadAt = s.now ∧ ∀ ch ∈ bankChans b, (getDio u ch).on = false := by
  intro u
  have keeps : BanksKeep _ u := bankOff_banksKeep ..
  refine ⟨(keeps.field b Bank.overload).trans ?_, (keeps.field b Bank.overloadAt).trans ?_, fun ch h => bankOff_off h _⟩ <;>
    rw [getBank_modBank, if_pos rfl]

/-- An overload ends, and restoring begins. -/
theorem startRestore_restores (b : Nat) (s : State) :
    let u := startRestore b (modBank b (fun x => { x with overload := false }) s)
    (getBank u b).overload = false ∧ (getBank u b).restoring = true := by
  intro u
  have keeps : BanksKeep _ u := startRestore_banksKeep ..
  refine ⟨(keeps.field b Bank.overload).trans ?_, (keeps.field b Bank.restoring).trans ?_⟩ <;>
    simp only [getBank_modBank, if_true]

/-- The sequence goes on, and restoring ends with it (R303). -/
def groupRestored (b : Nat) (x : Bank) (s : State) : State :=
  let s := modBank b (fun x => { x with group := x.group.drop 4 }) s
  if x.group.length ≤ 4 then modBank b (fun x => { x with restoring := false }) s else s

theorem groupRestored_bank {b : Nat} {s : State} (h : (getBank s b).restoring = true) :
    (getBank (groupRestored b (getBank s b) s) b).group = (getBank s b).group.drop 4 ∧
    (getBank (groupRestored b (getBank s b) s) b).restoring = decide (4 < (getBank s b).group.length) := by
  unfold groupRestored
  dsimp only
  split
  next hl =>
    rw [decide_eq_false (by omega)]
    simp only [getBank_modBank, if_true, and_self]
  next hl =>
    rw [decide_eq_true (by omega)]
    simp only [getBank_modBank, if_true, h, and_self]

theorem groupRestored_dio (b : Nat) (x : Bank) (s : State) (j : Nat) : getDio (groupRestored b x s) j = getDio s j := by
  unfold groupRestored
  dsimp only
  split <;> rfl

/-- The next four of the sequence go on (R303). -/
theorem execRestoreGroup_restores {t : Nat} {b : Fin 8} {s : State} (hr : (getBank s b).restoring = true)
    (ho : (getBank s b).supplyOff = false) : exec (.restoreGroup t b) s = .next (groupRestored b (getBank s b)
      (forAll ((getBank s b).group.take 4) (fun ch s => setSwitch ch true s) (advance t s))) :=
  congrArg Host.Outcome.next (if_neg (by
    rw [show getBank (advance t s) b = getBank s b from rfl, hr, ho]
    decide))

/-- Settles O33: a channel's events by what each leaves of the channel, then a bank's by what it leaves of bank and outputs. -/
theorem outputsTripRestoreAndPulse : Obligations.OutputsTripRestoreAndPulse := by
  intro t s v
  refine ⟨fun ch => ?_, fun b => ?_⟩
  · intro x k
    refine ⟨fun th hx => ⟨_, rfl, outputTripState_trips (s := v) th hx⟩, ?_, ?_, ?_, ?_, ?_, ?_, ?_⟩
    · intro temp hr ha ht hi hd hc ho hl hg
      exact ⟨_, congrArg Host.Outcome.next (if_pos ⟨hr, ha, ht, by rw [Bool.not_eq_true']; exact hi⟩),
        retry_on (s := v) hd hc ho hl hg⟩
    · intro ma hx hm ho hw
      exact congrArg Host.Outcome.next (if_pos ⟨hx, hm, by rw [Bool.not_eq_true']; exact ho, hw⟩)
    · intro ma ho hm
      refine congrArg Host.Outcome.next ((if_neg ?_).trans ((if_pos hm).trans (if_pos ho)))
      rintro ⟨-, -, h, -⟩
      rw [show (getDio v ch).openLoad = true from ho] at h
      exact absurd h (by decide)
    · intro mv ho hx he hc hm
      exact ⟨_, rfl, externalDriveState_driven (s := v) ho hx he hc hm⟩
    · intro mv ho hx hm
      exact ⟨_, rfl, externalDriveState_released (s := v) ho hx hm⟩
    · intro e hp hc ht goes
      have state : exec (.timedEdge t ch) s = .next (applyEdge e (modBank (ch / 12) (fun x => { x with placed := [] }) v)) :=
        congrArg Host.Outcome.next (timedEdgeState_due hp hc ht)
      have hgoes : edgeGoes e (modBank (ch / 12) (fun x => { x with placed := [] }) v) = goes := by
        rw [edgeGoes_modBank (f := fun x => { x with placed := [] }) e v (fun _ => rfl) fun _ => rfl, edgeGoes, hc]
        rfl
      refine ⟨fun h => state.trans (congrArg Host.Outcome.next (applyEdge_dropped (hgoes.trans h))), fun h => ⟨_, state, ?_⟩⟩
      rw [applyEdge_goes (hgoes.trans h), hc]
      refine ⟨?_, commandLevel_field Dio.command .., (commandLevel_field Dio.pulseEnd ..).trans ?_⟩
      · rw [(commandLevel_onChannel ..).field (ch / 12) Bank.placed, getBank_modDio, getBank_modBank, if_pos rfl]
      · rw [getDio_modDio, if_pos rfl]
        rfl
    · intro e he ht
      refine ⟨_, congrArg Host.Outcome.next ?_, pulseEnd_off ch
        (fun x => if syncClose v ch || (getDio v ch).fresh then x.edgeLevel else some false) v⟩
      rw [show (getDio v ch).pulseEnd = some e from he]
      exact if_pos ht
  · intro x
    refine ⟨fun ma hm ho => ⟨_, congrArg Host.Outcome.next (if_pos ⟨hm, by rw [Bool.not_eq_true']; exact ho⟩), ?_⟩,
      fun ho ht => ⟨_, congrArg Host.Outcome.next (if_pos ⟨ho, ht⟩), startRestore_restores b v⟩,
      fun hr ho => ⟨_, execRestoreGroup_restores hr ho, fun ch h => ?_, ?_⟩⟩
    · simp only [getBank_emitIf, getDio_emitIf]
      exact bankOff_overloads b v
    · rw [groupRestored_dio]
      exact forAll_setSwitch_on v (.inl h)
    · have keeps := forAll_setSwitch_bank ((getBank s b).group.take 4) true v b
      have restored := groupRestored_bank (b := b) (s := forAll _ _ v) ((congrArg Bank.restoring keeps).trans hr)
      rw [keeps] at restored
      exact restored

end Sys2Proof.Machine
end

section
/-! SUPPORT. A bank's frames: what a downstream frame sends and what its BIC takes from it, what an upstream frame brings, and
the silence of the link (12 R284 to R288, R290, R294). -/

namespace Sys2Proof.Machine

/-! ### Words of flags -/

theorem flagWord_range_succ (p : Nat → Bool) (n : Nat) : flagWord ((List.range (n + 1)).map fun c => (c, p c)) =
    flagWord ((List.range n).map fun c => (c, p c)) + flagBit n (p n) := by
  simp only [flagWord, List.range_succ, List.map_append, List.foldl_append, List.map_cons, List.map_nil, List.foldl_cons,
    List.foldl_nil]

theorem flagWord_range_lt (p : Nat → Bool) (n : Nat) : flagWord ((List.range n).map fun c => (c, p c)) < 2 ^ n := by
  induction n with
  | zero => exact Nat.one_pos
  | succ n ih =>
    have bit : flagBit n (p n) ≤ 2 ^ n := by
      unfold flagBit
      split <;> simp
    rw [flagWord_range_succ, Nat.pow_succ]
    omega

/-- Each bit of a word is its flag. -/
theorem bitOf_flagWord_range (p : Nat → Bool) {n c : Nat} (h : c < n) :
    bitOf (flagWord ((List.range n).map fun c => (c, p c))) c = p c := by
  unfold bitOf
  induction n with
  | zero => exact absurd h (Nat.not_lt_zero c)
  | succ n ih =>
    have last : (flagWord ((List.range n).map fun c => (c, p c))).testBit n = false :=
      Nat.testBit_lt_two_pow (flagWord_range_lt p n)
    rw [flagWord_range_succ, Nat.add_comm]
    rcases Nat.lt_succ_iff_lt_or_eq.1 h with hc | rfl
    · rw [← ih hc]
      cases hp : p n with
      | true => exact Nat.testBit_two_pow_add_gt hc _
      | false => rw [flagBit, if_neg Bool.false_ne_true, Nat.zero_add]
    · cases hp : p c with
      | true => rw [flagBit, if_pos rfl, Nat.testBit_two_pow_add_eq, last, Bool.not_false]
      | false => rw [flagBit, if_neg Bool.false_ne_true, Nat.zero_add, last]

/-! ### Loops over a bank's channels -/

/-- Each channel of a bank takes its own change. -/
theorem getDio_foldl_range (b : Nat) (g : Nat → Dio → Dio) (s : State) {n : Nat} (hn : n ≤ 12) (ch : Nat) :
    getDio ((List.range n).foldl (fun s c => modDio (12 * b + c) (g c) s) s) ch =
      if ch / 12 = b ∧ ch % 12 < n then g (ch % 12) (getDio s ch) else getDio s ch := by
  induction n with
  | zero => rw [if_neg (by omega)]; rfl
  | succ n ih =>
    simp only [List.range_succ, List.foldl_append, List.foldl_cons, List.foldl_nil, getDio_modDio]
    by_cases h : ch = 12 * b + n
    · rw [if_pos h, ← h, ih (by omega), if_neg (by omega), if_pos (by omega), show ch % 12 = n by omega]
    · rw [if_neg h, ih (by omega)]
      congr 1
      simp only [eq_iff_iff]
      omega

theorem foldl_banks {α : Type} {f : State → α → State} (turn : ∀ s a, (f s a).dio.banks = s.dio.banks) (l : List α)
    (s : State) : (l.foldl f s).dio.banks = s.dio.banks := by
  induction l generalizing s with
  | nil => rfl
  | cons a r ih => exact (ih _).trans (turn s a)

theorem getBank_foldl_modDio {α : Type} (key : α → Nat) (g : α → Dio → Dio) (l : List α) (s : State) (b : Nat) :
    getBank (l.foldl (fun u a => modDio (key a) (g a) u) s) b = getBank s b :=
  getBank_congr (foldl_banks (f := fun u a => modDio (key a) (g a) u) (fun _ _ => rfl) l s) b

/-! ### What is released leaves the banks (09 R203) -/

theorem afterRelease_banks (old s : State) : (afterRelease old s).dio.banks = s.dio.banks := by
  unfold afterRelease
  dsimp only
  rw [(canReleased_frame _).banks, apply_ite (fun x : State => x.dio.banks), (canTakeover_frame _).banks, ite_self]
  refine foldl_banks (fun x e => ?_) _ s
  split
  · split
    · split <;> rfl
    · rfl
  · rfl

theorem endAwaiting_banks (vs : List (Nat × BitVec 32)) (s : State) : (endAwaiting vs s).dio.banks = s.dio.banks := by
  unfold endAwaiting
  dsimp only
  refine (foldl_banks (fun x e => ?_) _ _).trans (foldl_banks (fun x e => ?_) _ s) <;> split <;> rfl

theorem releaseValues_banks (vs : List (Nat × BitVec 32)) (s : State) : (releaseValues vs s).dio.banks = s.dio.banks := by
  unfold releaseValues
  rw [(aoReapply_frame ..).banks, endAwaiting_banks, afterRelease_banks]
  exact foldl_banks (f := fun x e => releasePoint e.1 e.2 x) (fun _ _ => rfl) vs s

theorem releaseOne_banks (n : Nat) (at_ : Int) (r : LoopRel) (s : State) : (releaseOne n at_ r s).dio.banks = s.dio.banks := by
  unfold releaseOne
  dsimp only
  split
  · rw [(produceAll_frame ..).banks]
    rfl
  · rw [releaseValues_banks, (releaseGroup_frame ..).banks]
    change (ite _ _ _ : State).dio.banks = _
    split
    · rfl
    · exact (landUpdate_frame ..).banks

theorem loopReleaseState_banks (n : Nat) (s : State) : (loopReleaseState n s).dio.banks = s.dio.banks := by
  unfold loopReleaseState
  split
  · rfl
  · split
    · exact (landDue_frame ..).banks
    · unfold releaseDue
      dsimp only
      split
      · rfl
      · split
        · exact foldl_banks (fun u r => releaseOne_banks n _ r u) _ _
        · rfl

theorem getBank_loopsRelease (s : State) (b : Nat) : getBank (loopsRelease s) b = getBank s b :=
  getBank_congr (foldl_banks (fun x n => loopReleaseState_banks n x) _ s) b

/-! ### A downstream frame is sent (R284) -/

/-- COMMAND of a bank's channels, as its frame carries it. -/
def commandWord (b : Nat) (s : State) : Nat := flagWord ((List.range 12).map (fun c => (c, ownerCommand s (12 * b + c))))

/-- ENABLE of a bank's channels, as its frame carries it. -/
def enableWord (b : Nat) (s : State) : Nat := flagWord ((List.range 12).map (fun c => (c, enableBit s (12 * b + c))))

/-- The edges that go with a frame sent now, and those left. -/
def edgesNow (b : Nat) (s : State) : List DioEdge × List DioEdge := frameEdges (gridAt s 62500) (getBank s b).waiting

/-- The bank's channels and its link as the frame leaves them. -/
def frameMade (b : Nat) (s : State) : State :=
  modBank b (fun x => { x with frameNo := ((getBank s b).frameNo + 1) % 2 ^ 16, waiting := (edgesNow b s).2 })
    ((List.range 12).foldl (fun u c => modDio (12 * b + c) (fun y => { y with commanded := bitOf (commandWord b s) c }) u) s)

/-- A bank's frame is sent. -/
def downSent (b : Nat) (s : State) : State :=
  let x := getBank s b
  let g := gridAt s 62500
  send (.downstream b ((x.frameNo + 1) % 2 ^ 16) (timeUs g % (2 ^ 32 : Nat)).toNat (frameClaims s).1 (frameClaims s).2
    (commandWord b s) (enableWord b s)
    ((edgesNow b s).1.map (fun e => (e.ch % 12, e.action, edgeOffset g e, if e.action = 3 then e.width else 0)))
    (frameWord x).1 (frameWord x).2) (markLate g (edgesNow b s).1 (frameMade b s))

theorem downstreamFrameState_serves {b : Nat} {ok : Bool} {s : State} (hu : dioUp s = true)
    (hl : isRetired s kindLink b = false) (hr : (getBank s b).resyncing = false) :
    downstreamFrameState b ok s =
      let w := loopsRelease s
      let d := downSent b w
      if ok then
        bicTakes b (gridAt w 62500) (commandWord b w) (enableWord b w) (edgesNow b w).1 (frameWord (getBank w b)) d
      else
        let u := modBank b (fun x => { x with badDown := x.badDown + 1, badFrames := (x.badFrames + 1) % 2 ^ 32 }) d
        if 16 ≤ (getBank w b).badDown + 1 then linkFault b u else u := by
  have served : (!dioUp s || isRetired s kindLink b) = false := by rw [hu, hl]; rfl
  have syncs : (getBank (loopsRelease s) b).resyncing = false := by rw [getBank_loopsRelease, hr]
  rw [show downstreamFrameState b ok s = _ from if_neg (Bool.eq_false_iff.1 served)]
  exact if_neg (Bool.eq_false_iff.1 syncs)

/-! ### What the BIC takes of a good frame (R286, R287, R290) -/

theorem frameMade_frame (b : Nat) (s : State) : Untouched [.dio] s (frameMade b s) :=
  .step (.foldl (fun u c hu => hu.step (modDio_frame ..) (by decide)) _ _ (.refl _ s)) (modBank_frame ..) (by decide)

theorem downSent_frame (b : Nat) (s : State) : Untouched [.dio, .cad, .outbox, .ring] s (downSent b s) :=
  ((frameMade_frame b s).append (markLate_frame ..)).append (send_frame ..)

/-- The frame is the newest thing sent. -/
theorem downSent_outbox (b : Nat) (s : State) : ∃ time edges, (downSent b s).outbox =
    .downstream b (((getBank s b).frameNo + 1) % 2 ^ 16) time (frameClaims s).1 (frameClaims s).2 (commandWord b s)
      (enableWord b s) edges (frameWord (getBank s b)).1 (frameWord (getBank s b)).2 :: s.outbox :=
  ⟨_, _, congrArg (_ :: ·) (((frameMade_frame b s).append (markLate_frame ..)).same .outbox (by decide))⟩

theorem getDio_downSent (b : Nat) (s : State) (ch : Nat) : getDio (downSent b s) ch =
    if ch / 12 = b then { getDio s ch with commanded := ownerCommand s ch } else getDio s ch := by
  have made : getDio (downSent b s) ch = getDio (frameMade b s) ch := (markLate_frame ..).getDio ch
  rw [made, frameMade, getDio_modBank, getDio_foldl_range b _ s (Nat.le_refl 12)]
  by_cases h : ch / 12 = b
  · rw [if_pos h, if_pos (by omega), commandWord, bitOf_flagWord_range _ (Nat.mod_lt ch (by decide)),
      show 12 * b + ch % 12 = ch by omega]
  · rw [if_neg h, if_neg (by omega)]

theorem getBank_downSent (b : Nat) (s : State) : getBank (downSent b s) b =
    { getBank s b with frameNo := ((getBank s b).frameNo + 1) % 2 ^ 16, waiting := (edgesNow b s).2 } := by
  have made : getBank (downSent b s) b = getBank (frameMade b s) b := (markLate_frame ..).getBank b
  rw [made, frameMade, getBank_modBank, if_pos rfl, getBank_foldl_modDio]

/-- Numbering, last good frame, bad ones in a row and silence of a bank's downstream link. -/
def linkState (x : Bank) : Nat × Nat × Nat × Bool := (x.frameNo, x.lastGood, x.badDown, x.silent)

/-- A configuration word leaves the link and what a channel is sent. -/
theorem takeWord_leaves (b : Nat) (w : Nat × Nat) (s : State) :
    (∀ j, linkState (getBank (takeWord b w s) j) = linkState (getBank s j)) ∧
      ∀ ch, (getDio (takeWord b w s) ch).commanded = (getDio s ch).commanded := by
  have activates : (∀ j, linkState (getBank (activateBank b s) j) = linkState (getBank s j)) ∧
      ∀ ch, (getDio (activateBank b s) ch).commanded = (getDio s ch).commanded := by
    unfold activateBank
    refine forAll_induct (P := fun x => (∀ j, linkState (getBank x j) = linkState (getBank s j)) ∧
      ∀ ch, (getDio x ch).commanded = (getDio s ch).commanded) _ _ (fun n x h => ?_) _
      ⟨fun j => getBank_modBank_field linkState b _ s j, fun _ => rfl⟩
    obtain ⟨hbank, hdio⟩ := h
    split
    · exact ⟨hbank, hdio⟩
    · exact ⟨hbank, fun ch => (getDio_modDio_field Dio.commanded n _ x ch).trans (hdio ch)⟩
  obtain ⟨hbank, hdio⟩ := activates
  unfold takeWord
  split
  · split
    · exact ⟨fun j => (getBank_modBank_field linkState b _ _ j).trans (hbank j), hdio⟩
    · exact ⟨fun _ => rfl, fun _ => rfl⟩
  · split
    · exact ⟨fun _ => rfl, fun _ => rfl⟩
    · exact ⟨fun j => getBank_modBank_field linkState b _ s j, fun _ => rfl⟩

/-- COMMAND and ENABLE as the BIC and the module hold them. -/
def commandBits (x : Dio) : Bool × Bool × Bool := (x.sent, x.enabled, x.commanded)

/-- COMMAND and ENABLE of a good frame reach the channel. -/
theorem takeCommand_own (leaving : Bool) (ch : Nat) (cmd en : Bool) (s : State) :
    OnChannel ch s (takeCommand leaving ch cmd en s) ∧
    commandBits (getDio (takeCommand leaving ch cmd en s) ch) = (cmd, en, (getDio s ch).commanded) := by
  unfold takeCommand
  dsimp only
  generalize hx : modDio ch (fun x => { x with sent := cmd, enabled := en, fresh := false }) s = x
  have enters : OnChannel ch s x := hx ▸ .modDio ..
  have noted : commandBits (getDio x ch) = (cmd, en, (getDio s ch).commanded) := by
    rw [← hx, getDio_modDio, if_pos rfl]
    rfl
  generalize hz : (if (cmd && !(getBank x (ch / 12)).claim) = true then endDrive ch x else x) = z
  have drives : Switches ch x z := by
    rw [← hz]
    split
    · exact endDrive_switches ..
    · exact .refl ch x
  have bits := (drives.field commandBits).trans noted
  have reaches := enters.trans drives.toOnChannel
  split
  · refine ⟨(reaches.trans (.modDio ..)).trans (commandLevel_onChannel ..), (commandLevel_field commandBits ..).trans ?_⟩
    rw [getDio_modDio, if_pos rfl]
    exact bits
  · have settles := settleSwitch_switches ch z
    exact ⟨reaches.trans settles.toOnChannel, (settles.field commandBits).trans bits⟩

/-- A good frame is noted at the BIC: the counter is aligned, the claims judged, the edges placed (R285, R287, R290, R301). -/
def frameHeard (b : Nat) (g : Int) (es : List DioEdge) (s : State) : State :=
  modBank b (fun x =>
    { x with lastGood := s.now, badDown := 0, silent := false, echo := x.frameNo
             base := timeUs g * 1000, baseAt := s.now - (localNow s - g).toNat
             unitClaim := (frameClaims s).1, partnerClaim := (frameClaims s).2
             claim := chipClaim s x.claim (frameClaims s).1 (frameClaims s).2 x.heard
             placed := x.placed ++ es.map (fun e => { e with fireAt := g + 4 * (edgeOffset g e : Nat) }) }) s

theorem bicTakes_eq (b : Nat) (g : Int) (cmds ens : Nat) (es : List DioEdge) (w : Nat × Nat) (s : State) :
    bicTakes b g cmds ens es w s = (List.range 12).foldl
      (fun u c => takeCommand (getBank s b).silent (12 * b + c) (bitOf cmds c) (bitOf ens c) u)
      (takeWord b w (frameHeard b g es s)) := rfl

/-- A good frame ends silence and the row of bad ones, and leaves each channel with its COMMAND and ENABLE. -/
theorem bicTakes_takes (b : Nat) (g : Int) (cmds ens : Nat) (es : List DioEdge) (w : Nat × Nat) (s : State) :
    linkState (getBank (bicTakes b g cmds ens es w s) b) = ((getBank s b).frameNo, s.now, 0, false) ∧
      ∀ c, c < 12 → commandBits (getDio (bicTakes b g cmds ens es w s) (12 * b + c)) =
        (bitOf cmds c, bitOf ens c, (getDio s (12 * b + c)).commanded) := by
  have turn (u : State) (c : Nat) := takeCommand_own (getBank s b).silent (12 * b + c) (bitOf cmds c) (bitOf ens c) u
  obtain ⟨hlink, hsent⟩ := takeWord_leaves b w (frameHeard b g es s)
  rw [bicTakes_eq]
  refine ⟨?_, fun c hc => ?_⟩
  · rw [(foldl_banksKeep (fun u c => (turn u c).1.toBanksKeep) _ _).field b linkState, hlink, frameHeard, getBank_modBank,
      if_pos rfl]
    rfl
  · have once : ((List.range 12).map (12 * b + ·)).Nodup := bankChans_nodup b
    obtain ⟨u, before, after⟩ :=
      foldl_turn (fun u c => (turn u c).1) once (List.mem_range.2 hc) (takeWord b w (frameHeard b g es s))
    rw [after.here, (turn u c).2, before.here, hsent]
    rfl

/-- A good frame, end to end. -/
theorem downstreamFrameState_good {b : Nat} {s : State} (hu : dioUp s = true) (hl : isRetired s kindLink b = false)
    (hr : (getBank s b).resyncing = false) :
    let w := loopsRelease s
    let u := downstreamFrameState b true s
    (∃ time edges, u.outbox = .downstream b (((getBank s b).frameNo + 1) % 2 ^ 16) time (frameClaims w).1 (frameClaims w).2
      (commandWord b w) (enableWord b w) edges (frameWord (getBank s b)).1 (frameWord (getBank s b)).2 :: w.outbox) ∧
    linkState (getBank u b) = (((getBank s b).frameNo + 1) % 2 ^ 16, s.now, 0, false) ∧
    ∀ c, c < 12 → commandBits (getDio u (12 * b + c)) =
      (ownerCommand w (12 * b + c), enableBit w (12 * b + c), ownerCommand w (12 * b + c)) := by
  intro w u
  have hbank : getBank w b = getBank s b := getBank_loopsRelease s b
  have hnow : (downSent b w).now = s.now :=
    ((downSent_frame b w).same .now (by decide)).trans ((loopsRelease_frame s).same .now (by decide))
  rw [show u = _ from downstreamFrameState_serves hu hl hr, if_pos rfl]
  obtain ⟨hlink, hbits⟩ := bicTakes_takes b (gridAt w 62500) (commandWord b w) (enableWord b w) (edgesNow b w).1
    (frameWord (getBank w b)) (downSent b w)
  refine ⟨?_, ?_, fun c hc => ?_⟩
  · rw [(bicTakes_frame ..).same .outbox (by decide), ← hbank]
    exact downSent_outbox b w
  · rw [hlink, getBank_downSent, hnow, ← hbank]
  · rw [hbits c hc, getDio_downSent, if_pos (by omega), commandWord, enableWord, bitOf_flagWord_range _ hc,
      bitOf_flagWord_range _ hc]

/-- A bad frame short of the sixteenth in a row is counted; a channel knows only what it was last sent as its COMMAND (R285). -/
theorem downstreamFrameState_bad {b : Nat} {s : State} (hu : dioUp s = true) (hl : isRetired s kindLink b = false)
    (hr : (getBank s b).resyncing = false) (hn : (getBank s b).badDown + 1 < 16) :
    let w := loopsRelease s
    let u := downstreamFrameState b false s
    (getBank u b).badDown = (getBank s b).badDown + 1 ∧ (getBank u b).lastGood = (getBank s b).lastGood ∧
    ∀ ch, getDio u ch = { getDio w ch with
      commanded := if ch / 12 = b then ownerCommand w ch else (getDio w ch).commanded } := by
  intro w u
  have hbank : getBank w b = getBank s b := getBank_loopsRelease s b
  rw [show u = _ from downstreamFrameState_serves hu hl hr, if_neg Bool.false_ne_true]
  dsimp only
  rw [if_neg (by rw [getBank_loopsRelease]; omega), getBank_modBank, if_pos rfl, getBank_downSent, ← hbank]
  refine ⟨rfl, rfl, fun ch => ?_⟩
  rw [getDio_modBank, getDio_downSent]
  split <;> rfl

end Sys2Proof.Machine
end

section
/-! SUPPORT. An upstream frame lands, is refused or is lost; the silence of a link; the statement about a bank's frames (12 R285 to
R288, R294; 16 R396, R406). -/

namespace Sys2Proof.Machine

/-! ### Landings leave the banks and the currents (R294) -/

/-- The banks and every channel's current stand. -/
structure LandsOnly (s t : State) : Prop where
  banks : t.dio.banks = s.dio.banks
  current : ∀ j, (getDio t j).current = (getDio s j).current

section
variable {s t u : State}

theorem LandsOnly.refl (s : State) : LandsOnly s s := ⟨rfl, fun _ => rfl⟩

theorem LandsOnly.trans (h : LandsOnly s t) (k : LandsOnly t u) : LandsOnly s u :=
  ⟨k.banks.trans h.banks, fun j => (k.current j).trans (h.current j)⟩

theorem LandsOnly.modDio (n : Nat) (f : Dio → Dio) (s : State)
    (hf : ∀ x, (f x).current = x.current := by exact fun _ => rfl) : LandsOnly s (modDio n f s) :=
  ⟨rfl, fun j => getDio_modDio_field Dio.current n f s j hf⟩

theorem Untouched.landsOnly {ps : List Part} (h : Untouched ps s t) (hd : Part.dio ∉ ps := by decide) : LandsOnly s t :=
  ⟨h.banks hd, fun j => congrArg Dio.current (h.getDio j hd)⟩

theorem foldl_landsOnly {α : Type} {f : State → α → State} (turn : ∀ s a, LandsOnly s (f s a)) (l : List α) (s : State) :
    LandsOnly s (l.foldl f s) := by
  induction l generalizing s with
  | nil => exact .refl s
  | cons a r ih => exact (turn s a).trans (ih _)

end

theorem landChannel_landsOnly (ch : Nat) (r : ChanRep) (s : State) : LandsOnly s (landChannel ch r s) :=
  (LandsOnly.modDio ch (fun x => { x with landed := r.v, landedSup := r.sup, landedQual := r.qual }) s).trans
    (produceAllAs_frame ..).landsOnly

theorem landEdge_landsOnly (r : ChanRep) (e : EdgeRec) (s : State) : LandsOnly s (landEdge r e s) := by
  have lands := (landChannel_landsOnly e.ch { r with v := e.rising, stamp := e.stamp, slew := e.slew } s).trans
    (.modDio e.ch (fun x => { x with lastEdge := e.stamp }) _)
  unfold landEdge
  dsimp only
  split
  · exact lands.trans (edgeTasks_frame ..).landsOnly
  · exact lands

theorem landRest_landsOnly (ch : Nat) (r : ChanRep) (s : State) : LandsOnly s (landRest ch r s) := by
  unfold landRest
  dsimp only
  split
  · exact landChannel_landsOnly ..
  · exact .refl s

theorem landOwnBank_landsOnly (b : Nat) (chans : List ChanRep) (es : List EdgeRec) (s : State) :
    LandsOnly s (landOwnBank b chans es s) := by
  unfold landOwnBank landBank
  split
  · exact ((noteLanding_frame ..).landsOnly.trans (foldl_landsOnly (fun u e => landEdge_landsOnly _ e u) es _)).trans
      (foldl_landsOnly (fun u c => landRest_landsOnly _ _ u) (List.range 12) _)
  · exact .refl s

/-! ### What a frame says of a channel lands (R294) -/

theorem landChannel_onChannel (ch : Nat) (r : ChanRep) (s : State) : OnChannel ch s (landChannel ch r s) := by
  have lands := landChannel_landsOnly ch r s
  refine ⟨⟨(landChannel_frame ch r s).same .retired (by decide), fun b => by rw [getBank_congr lands.banks]⟩, fun j hj => ?_⟩
  exact ((produceAllAs_frame ..).getDio j).trans ((getDio_modDio ..).trans (if_neg hj))

theorem landRest_onChannel (ch : Nat) (r : ChanRep) (s : State) : OnChannel ch s (landRest ch r s) := by
  unfold landRest
  dsimp only
  split
  · exact landChannel_onChannel ..
  · exact ⟨.refl s, fun _ _ => rfl⟩

/-- A channel in use shows the state that the frame reports. -/
theorem landRest_landed {ch : Nat} {r : ChanRep} {s : State} (h : expMode s ch ≠ 0) :
    (getDio (landRest ch r s) ch).landed = r.v := by
  have landed : (getDio (landChannel ch r s) ch).landed = r.v := by
    unfold landChannel
    rw [(produceAllAs_frame ..).getDio, getDio_modDio, if_pos rfl]
  unfold landRest
  dsimp only
  split
  · exact landed
  next hn =>
    exact Decidable.byContradiction fun hv => hn ⟨h, .inl hv⟩

theorem landsOwn_congr {s t : State} (h : t.pair = s.pair) : landsOwn t = landsOwn s := by
  rw [landsOwn, isStandby, h]
  rfl

/-- A frame without edge records brings each channel in use its state. -/
theorem landOwnBank_landed {b c : Nat} {reps : Nat → ChanRep} {s : State} (hl : landsOwn s = true) (hc : c < 12)
    (hm : expMode s (12 * b + c) ≠ 0) :
    (getDio (landOwnBank b ((bankChans b).map reps) [] s) (12 * b + c)).landed = (reps (12 * b + c)).v := by
  have report : ((bankChans b).map reps).getD c {} = reps (12 * b + c) := by
    simp [bankChans, hc]
  have once : ((List.range 12).map (12 * b + ·)).Nodup := bankChans_nodup b
  have noted := (noteLanding_frame (.bank (Fin.ofNat 8 b) ((bankChans b).map reps) []) s).getBank ((12 * b + c) / 12)
  unfold landOwnBank landBank
  rw [if_pos hl]
  obtain ⟨u, before, after⟩ := foldl_turn (key := (12 * b + ·))
    (f := fun u c => landRest (12 * b + c) (((bankChans b).map reps).getD c {}) u)
    (fun u c => landRest_onChannel (12 * b + c) _ u) once (List.mem_range.2 hc)
    (noteLanding (.bank (Fin.ofNat 8 b) ((bankChans b).map reps) []) s)
  have mode : expMode u (12 * b + c) = expMode s (12 * b + c) :=
    congrArg (wordMode · ((12 * b + c) % 12)) ((before.field _ Bank.expected).trans (congrArg Bank.expected noted))
  refine (congrArg Dio.landed after.here).trans ((landRest_landed (by rw [mode]; exact hm)).trans ?_)
  rw [report]

/-! ### A unit yields (16 R406) -/

theorem revertBank_default : revertBank {} = {} := by simp [revertBank]

/-- The banks go back to the configuration expected, each for itself (12 R286). -/
theorem loseRole_dio (s : State) :
    (loseRole s).dio = { s.dio with banks := s.dio.banks.map fun e => (e.1, revertBank e.2) } := by
  have sessions (x : State) : (forAll (List.range 8)
      (fun n u => if (getSession u n).state = 0 then u else closeSession n 4 u) x).dio = x.dio := by
    refine forAll_induct (P := fun u => u.dio = x.dio) _ _ (fun n u h => ?_) x rfl
    split
    · exact h
    · exact (closeSession_frame ..).dio.trans h
  unfold loseRole
  dsimp only
  simp only [apply_ite State.dio, ite_self, (releaseKept_frame _).dio, sessions, (dropUnacked_frame _).dio,
    (failRunning_frame _).dio]

/-- The role's end leaves the channels, and of a bank what it measures and reports. -/
theorem yieldTo_leaves (claim : Nat) (s : State) : (∀ j, getDio (yieldTo claim s) j = getDio s j) ∧
    ∀ b, getBank (yieldTo claim s) b = getBank s b ∨ getBank (yieldTo claim s) b = revertBank (getBank s b) := by
  have yields : (yieldTo claim s).dio = s.dio ∨ (yieldTo claim s).dio = (loseRole s).dio := by
    unfold yieldTo
    generalize loseRole s = x
    dsimp only
    split
    · rw [(enterPair_frame ..).dio, (emit_frame ..).dio]
      dsimp only
      rw [(canStandby_frame _).dio, (scAbortArmed_frame _).dio]
      exact .inr rfl
    · exact .inl rfl
  rw [loseRole_dio] at yields
  rcases yields with h | h
  · exact ⟨getDio_congr (by rw [h]), fun b => .inl (getBank_congr (by rw [h]) b)⟩
  · refine ⟨getDio_congr (by rw [h]), fun b => .inr ?_⟩
    rw [getBank, h]
    exact Tbl.get_map (R := fun x y => y = revertBank x) (f := fun e => revertBank e.2) (fun _ => rfl) revertBank_default.symm
      s.dio.banks b

/-! ### A frame of the expected configuration (R285, R286) -/

/-- What a frame measured and flagged, as the bank shows it. -/
def measured (f : UpFrame) (x : Bank) : Bank :=
  { x with
    mismatch := false, flags := f.bicFlags, fclSeen := f.fclSeen, supplyMv := f.supply, currentMa := f.current, temp := f.temp }

/-- The frame's measurements and flags, before its states land. -/
def frameShown (b : Nat) (f : UpFrame) (s : State) : State :=
  let u := (List.range 12).foldl (fun u c => modDio (12 * b + c) (fun y => { y with landedFlags := f.chFlags.getD c 0 }) u)
    (modDio (12 * b + f.curCh) (fun y => { y with current := f.curMa }) (modBank b (measured f) s))
  if bitOf f.bicFlags 3 then emit 0x4103 (0x5000 + b) [] u else u

theorem takeMatched_eq (b : Nat) (f : UpFrame) (chans : List ChanRep) (s : State) : takeMatched b f chans s =
    let u := judgeFcl (landOwnBank b chans f.edges (frameShown b f s))
    if isPairUnit u ∧ ownClaim u < f.fclSeen then yieldTo f.fclSeen u else u := rfl

theorem frameShown_frame (b : Nat) (f : UpFrame) (s : State) : Untouched [.dio, .recd] s (frameShown b f s) := by
  have shown : Untouched [.dio, .recd] s ((List.range 12).foldl
      (fun u c => modDio (12 * b + c) (fun y => { y with landedFlags := f.chFlags.getD c 0 }) u)
      (modDio (12 * b + f.curCh) (fun y => { y with current := f.curMa }) (modBank b (measured f) s))) :=
    .foldl (fun u c hu => hu.step (modDio_frame ..) (by decide)) _ _
      (.step (.step (.refl _ s) (modBank_frame ..) (by decide)) (modDio_frame ..) (by decide))
  unfold frameShown
  dsimp only
  split
  · exact shown.step (emit_frame ..) (by decide)
  · exact shown

theorem getBank_frameShown (b : Nat) (f : UpFrame) (s : State) : getBank (frameShown b f s) b = measured f (getBank s b) := by
  unfold frameShown
  dsimp only
  rw [getBank_emitIf, getBank_foldl_modDio, getBank_modDio, getBank_modBank, if_pos rfl]

theorem frameShown_current (b : Nat) (f : UpFrame) (s : State) :
    (getDio (frameShown b f s) (12 * b + f.curCh)).current = f.curMa := by
  unfold frameShown
  dsimp only
  rw [getDio_emitIf, (foldl_landsOnly (fun u c => .modDio (12 * b + c) _ u) (List.range 12) _).current, getDio_modDio, if_pos rfl]

theorem getDio_takeMatched (b : Nat) (f : UpFrame) (chans : List ChanRep) (s : State) (j : Nat) :
    getDio (takeMatched b f chans s) j = getDio (landOwnBank b chans f.edges (frameShown b f s)) j := by
  rw [takeMatched_eq]
  dsimp only
  split
  · rw [(yieldTo_leaves ..).1, (judgeFcl_frame _).getDio]
  · exact (judgeFcl_frame _).getDio j

/-- The bank shows what the frame measured, and goes back to the configuration expected where the unit yields. -/
theorem getBank_takeMatched (b : Nat) (f : UpFrame) (chans : List ChanRep) (s : State) :
    getBank (takeMatched b f chans s) b = measured f (getBank s b) ∨
      getBank (takeMatched b f chans s) b = revertBank (measured f (getBank s b)) := by
  have shown : getBank (judgeFcl (landOwnBank b chans f.edges (frameShown b f s))) b = measured f (getBank s b) := by
    rw [(judgeFcl_frame _).getBank, getBank_congr (landOwnBank_landsOnly ..).banks, getBank_frameShown]
  rw [takeMatched_eq, ← shown]
  dsimp only
  split
  · exact (yieldTo_leaves ..).2 b
  · exact .inl rfl

/-! ### A frame of another configuration, and a bad one (R285, R286, R289) -/

theorem getBank_loseStamps (es : List EdgeRec) (s : State) (b : Nat) : getBank (loseStamps es s) b = getBank s b :=
  getBank_foldl_modDio EdgeRec.ch (fun _ x => { x with stampLost := true }) es s b

/-- The mismatch is marked; nothing of the frame is. -/
theorem getBank_takeMismatch (b : Nat) (f : UpFrame) (s : State) :
    getBank (takeMismatch b f s) b = { getBank s b with mismatch := true } := by
  unfold takeMismatch
  dsimp only
  split
  next h => rw [getBank_loseStamps, ← h]
  · rw [getBank_congr (landOwnBank_landsOnly ..).banks, getBank_emitIf, getBank_modBank, if_pos rfl, getBank_loseStamps]

section
variable {b mv ma curMa : Nat} {temp : Int} {s : State} (hu : dioUp s = true) (hl : isRetired s kindLink b = false)
  (hr : (getBank s b).resyncing = false)
include hu hl hr

theorem upstreamFrameState_good : upstreamFrameState b true mv ma temp curMa s =
    modBank b (fun x => { x with linked := true, badUp := 0 })
      (if bankMatched (getBank s b) then
        takeMatched b (upFrame s b mv ma temp curMa) ((bankChans b).map (chanRep s)) (frameSent b s)
      else takeMismatch b (upFrame s b mv ma temp curMa) (frameSent b s)) := by
  have served : (!dioUp s || isRetired s kindLink b || (getBank s b).resyncing) = false := by rw [hu, hl, hr]; rfl
  exact if_neg (Bool.eq_false_iff.1 served)

/-- A bad frame short of the sixteenth in a row is counted, and its records lose their stamps. -/
theorem upstreamFrameState_bad (hn : (getBank s b).badUp + 1 < 16) : upstreamFrameState b false mv ma temp curMa s =
    modBank b (fun x => { x with badUp := x.badUp + 1, badFrames := (x.badFrames + 1) % 2 ^ 32 })
      (loseStamps ((getBank s b).edges.take 8) (frameSent b s)) := by
  have served : (!dioUp s || isRetired s kindLink b || (getBank s b).resyncing) = false := by rw [hu, hl, hr]; rfl
  rw [show upstreamFrameState b false mv ma temp curMa s = _ from if_neg (Bool.eq_false_iff.1 served)]
  exact (if_pos rfl).trans (if_neg (by omega))

/-- A good frame under another configuration brings none of its measurements. -/
theorem upstreamFrameState_unmatched (hm : bankMatched (getBank s b) = false) :
    let x := getBank s b
    let y := getBank (upstreamFrameState b true mv ma temp curMa s) b
    y.linked = true ∧ y.badUp = 0 ∧ y.edges = x.edges.drop 8 ∧ y.curCh = (x.curCh + 1) % 12 ∧ y.mismatch = true ∧
      y.supplyMv = x.supplyMv ∧ y.currentMa = x.currentMa ∧ y.temp = x.temp ∧ y.flags = x.flags := by
  dsimp only
  rw [upstreamFrameState_good hu hl hr, hm, if_neg Bool.false_ne_true, getBank_modBank, if_pos rfl, getBank_takeMismatch, frameSent,
    getBank_modBank, if_pos rfl]
  exact ⟨rfl, rfl, rfl, rfl, rfl, rfl, rfl, rfl, rfl⟩

/-- A good frame under the expected configuration brings its measurements and flags. -/
theorem upstreamFrameState_matched (hm : bankMatched (getBank s b) = true) :
    let x := getBank s b
    let u := upstreamFrameState b true mv ma temp curMa s
    let y := getBank u b
    (y.linked = true ∧ y.badUp = 0 ∧ y.edges = x.edges.drop 8 ∧ y.curCh = (x.curCh + 1) % 12 ∧ y.mismatch = false ∧
      y.supplyMv = mv ∧ y.currentMa = ma ∧ y.temp = temp ∧ y.flags = bicFlags x mv) ∧
    (getDio u (12 * b + x.curCh)).current = curMa ∧
    (landsOwn s = true → x.edges = [] → ∀ c, c < 12 → expMode s (12 * b + c) ≠ 0 →
      (getDio u (12 * b + c)).landed = reportState s (12 * b + c)) := by
  dsimp only
  rw [upstreamFrameState_good hu hl hr, if_pos hm]
  refine ⟨?_, ?_, fun hown hedges c hc hmode => ?_⟩
  · rw [getBank_modBank, if_pos rfl]
    rcases getBank_takeMatched b (upFrame s b mv ma temp curMa) ((bankChans b).map (chanRep s)) (frameSent b s) with h | h <;>
      rw [h, frameSent, getBank_modBank, if_pos rfl] <;> exact ⟨rfl, rfl, rfl, rfl, rfl, rfl, rfl, rfl, rfl⟩
  · rw [getDio_modBank, getDio_takeMatched, (landOwnBank_landsOnly ..).current]
    exact frameShown_current b (upFrame s b mv ma temp curMa) (frameSent b s)
  · have unqueued : (upFrame s b mv ma temp curMa).edges = [] := by rw [upFrame, hedges]; rfl
    have shown := (frameSent_frame b s).append (frameShown_frame b (upFrame s b mv ma temp curMa) (frameSent b s))
    have mode : expMode (frameShown b (upFrame s b mv ma temp curMa) (frameSent b s)) (12 * b + c) = expMode s (12 * b + c) := by
      rw [expMode, expMode, show (12 * b + c) / 12 = b by omega, getBank_frameShown, frameSent, getBank_modBank, if_pos rfl]
      rfl
    rw [getDio_modBank, getDio_takeMatched, unqueued]
    exact landOwnBank_landed ((landsOwn_congr (shown.same .pair (by decide))).trans hown) hc (mode ▸ hmode)

end

/-! ### Silence (R287, R288) -/

/-- An output at the silence of its link: off for want of service or claim, or by its safe state. -/
def silenceTurn (b ch : Nat) (s : State) : State :=
  let x := getBank s b
  if bicMode s ch ≠ 3 then s
  else if !x.claim || isRetired s kindDio ch then setSwitch ch false s
  else match wordSafe x.active (ch % 12) with
    | 0 => safeLevel ch false s
    | 1 => safeLevel ch true s
    | _ => settleSwitch ch s

theorem silenceOutputs_eq (b : Nat) (s : State) : silenceOutputs b s = forAll (bankChans b) (silenceTurn b) s := rfl

theorem silenceTurn_onChannel (b ch : Nat) (s : State) : OnChannel ch s (silenceTurn b ch s) := by
  unfold silenceTurn
  dsimp only
  split
  · exact ⟨.refl s, fun _ _ => rfl⟩
  · split
    · exact (setSwitch_switches ..).toOnChannel
    · split
      · exact safeLevel_onChannel ..
      · exact safeLevel_onChannel ..
      · exact (settleSwitch_switches ..).toOnChannel

/-- An output whose safe state is off goes off; in service under the claim it loses command and pulse too. -/
theorem silenceTurn_off {b ch : Nat} {s : State} (ho : bicMode s ch = 3) (hs : wordSafe (getBank s b).active (ch % 12) = 0) :
    (getDio (silenceTurn b ch s) ch).on = false ∧ ((getBank s b).claim = true → isRetired s kindDio ch = false →
      (getDio (silenceTurn b ch s) ch).command = false ∧ (getDio (silenceTurn b ch s) ch).pulseEnd = none) := by
  unfold silenceTurn
  dsimp only
  rw [if_neg (fun hn => hn ho), hs]
  split
  next h =>
    refine ⟨setSwitch_on .., fun hc hr => ?_⟩
    rw [hc, hr] at h
    exact absurd h (by decide)
  · obtain ⟨hon, hcommand, hpulse⟩ := safeLevel_off ch s
    exact ⟨hon, fun _ _ => ⟨hcommand, hpulse⟩⟩

/-- The link is marked silent, and each output whose safe state is off is off. -/
theorem linkSilence_leaves (b : Nat) (s : State) :
    let u := silenceOutputs b (modBank b (fun x => { x with silent := true, silentSeen := true }) s)
    (getBank u b).silent = true ∧ (getBank u b).silentSeen = true ∧
      ∀ ch ∈ bankChans b, bicMode s ch = 3 → wordSafe (getBank s b).active (ch % 12) = 0 →
        (getDio u ch).on = false ∧ ((getBank s b).claim = true → isRetired s kindDio ch = false →
          (getDio u ch).command = false ∧ (getDio u ch).pulseEnd = none) := by
  rw [silenceOutputs_eq]
  intro u
  have marked : getBank (modBank b (fun x => { x with silent := true, silentSeen := true }) s) b =
      { getBank s b with silent := true, silentSeen := true } := by rw [getBank_modBank, if_pos rfl]
  have keeps : BanksKeep (modBank b (fun x => { x with silent := true, silentSeen := true }) s) u :=
    foldl_banksKeep (fun s ch => (silenceTurn_onChannel b ch s).toBanksKeep) (bankChans b) _
  refine ⟨(keeps.field b Bank.silent).trans (by rw [marked]), (keeps.field b Bank.silentSeen).trans (by rw [marked]),
    fun ch h ho hsafe => ?_⟩
  obtain ⟨t, before, after⟩ := forAll_bankChans_turn (silenceTurn_onChannel b) h
    (modBank b (fun x => { x with silent := true, silentSeen := true }) s)
  have hactive : (getBank t b).active = (getBank s b).active := (before.field b Bank.active).trans (by rw [marked])
  have hclaim : (getBank t b).claim = (getBank s b).claim := (before.field b Bank.claim).trans (by rw [marked])
  have hmode : bicMode t ch = bicMode s ch := by
    rw [bicMode, bicMode, mem_bankChans.1 h, hactive]
  obtain ⟨hon, hrest⟩ := silenceTurn_off (b := b) (hmode.trans ho) (hactive ▸ hsafe)
  rw [hclaim, before.isRetired] at hrest
  rw [show getDio u ch = _ from after.here]
  exact ⟨hon, hrest⟩

/-- Settles O32: frames down and up by what each leaves when good and when bad, then resynchronisation and silence. -/
theorem bankFramesCarryCommandsAndStates : Obligations.BankFramesCarryCommandsAndStates := by
  intro t b s v x w cmds ens
  refine ⟨fun hu hl hr => ⟨?_, fun hn => ?_, fun mv ma temp curMa => ⟨?_, fun sync crc hok hn => ?_⟩⟩, fun hu => ?_,
    fun hs ht => ?_⟩
  · obtain ⟨houtbox, hlink, hbits⟩ := downstreamFrameState_good (b := b) (s := v) hu hl hr
    simp only [linkState, Prod.mk.injEq] at hlink
    obtain ⟨hno, hgood, hbad, hsilent⟩ := hlink
    refine ⟨_, rfl, houtbox, hno, hgood, hsilent, hbad, fun c hc => ?_⟩
    have bits := hbits c hc
    simp only [commandBits, Prod.mk.injEq] at bits
    obtain ⟨hsent, henabled, hcommanded⟩ := bits
    exact ⟨hsent, hcommanded, henabled⟩
  · exact ⟨_, rfl, downstreamFrameState_bad (s := v) hu hl hr hn⟩
  · refine ⟨upstreamFrameState b true mv ma temp curMa v, rfl, ?_⟩
    cases hm : bankMatched x with
    | true =>
      obtain ⟨⟨hlinked, hup, hedges, hch, hmatch⟩, hcurrent, hlanded⟩ :=
        upstreamFrameState_matched (s := v) (mv := mv) (ma := ma) (temp := temp) (curMa := curMa) hu hl hr hm
      obtain ⟨hmismatch, hmv, hma, htemp, hflags⟩ := hmatch
      exact ⟨hlinked, hup, hedges, hch, fun _ => ⟨hmismatch, hmv, hma, htemp, hflags, hcurrent, hlanded⟩,
        fun h => absurd h (by decide)⟩
    | false =>
      obtain ⟨hlinked, hup, hedges, hch, hkept⟩ :=
        upstreamFrameState_unmatched (s := v) (mv := mv) (ma := ma) (temp := temp) (curMa := curMa) hu hl hr hm
      exact ⟨hlinked, hup, hedges, hch, fun h => absurd h (by decide), fun _ => hkept⟩
  · refine congrArg Host.Outcome.next ?_
    rw [hok]
    exact upstreamFrameState_bad (s := v) hu hl hr hn
  · exact congrArg Host.Outcome.next (if_pos hu)
  · have silent : (!x.silent && decide (x.lastGood + wordWd x.active * msNs < v.now)) = true := by
      rw [hs, Bool.not_false, Bool.true_and]
      exact decide_eq_true ht
    exact ⟨_, congrArg Host.Outcome.next (if_pos silent), linkSilence_leaves b v⟩

end Sys2Proof.Machine
end

section
/-! SUPPORT. A step and the state after reset; what no command undoes, and how a READMIT that waited for a FORCE undoes a
retirement at an engine tick (01 R19; 04 R77; 18 R436 to R439). -/

set_option Elab.async false
set_option cleanup.letToHave false

namespace Sys2Proof.Machine

/-! ### A step, and reset -/

/-- Settles O1: `step` takes the queue apart, and an empty queue leaves the state be. -/
theorem stepRunsTheFrontCommand : Obligations.StepRunsTheFrontCommand := by
  refine ⟨fun _ _ => rfl, fun s h => ?_⟩
  delta step
  rw [h]

/-- Settles O2: after reset every store is empty. -/
theorem resetStateIsSound : Obligations.ResetStateIsSound where
  queue := Nat.zero_le _
  gasp := Nat.zero_le _
  leases := Nat.zero_le _
  hsr := by decide
  spare := Nat.zero_le _
  retiredOnce := List.nodup_nil
  inst := Memory.wf_nil
  glob := Memory.wf_nil
  ret := Memory.wf_nil
  store := Memory.wf_nil
  storeInst := Memory.wf_nil
  bulk := Memory.wf_nil
  refused := Memory.wf_nil
  formeBytes := Memory.wf_nil
  plain := Memory.wf_nil

/-! ### What no command undoes -/

/-- A command moves the clock to its instant, and from there on keeps what `Lasting` names. -/
theorem exec_lasts {i : Instr} {s t : State} (e : exec i s = .next t) : ∃ n, Lasting (allowed i) (advance n s) t := by
  obtain ⟨n, u, e', w⟩ := exec_endsWithin i s
  obtain rfl := Host.Outcome.next.inj (e.symm.trans e')
  exact ⟨n, w.kept.lasting⟩

/-- Settles O4: time's passing sends nothing and remaps nothing, and a command keeps what is lasting from there on. -/
theorem noCommandUndoesWhatLasts : Obligations.NoCommandUndoesWhatLasts := by
  intro i s t e
  obtain ⟨n, lasts⟩ := exec_lasts e
  exact ⟨lasts.pending, lasts.now ▸ Nat.le_max_left s.now n, lasts.outbox, lasts.remapped⟩

/-- Settles O57: a list that is the end of another is part of it. -/
theorem remappedPagesStayRemapped : Obligations.RemappedPagesStayRemapped := by
  intro i s t e
  obtain ⟨n, lasts⟩ := exec_lasts e
  have hpages : s.sram.remapped <:+ t.sram.remapped := lasts.remapped
  exact ⟨hpages, fun p hp => hpages.subset hp, lasts.used⟩

/-! ### A READMIT that waited for a FORCE (04 R77; 18 R439) -/

/-- The body of a WRITE of READMIT for DIO channel 95. -/
noncomputable def readmitBody : List Byte := objFields 0xF003 1 0 0 8 ++ [1, 0, 95, 0, 0, 0, 0, 0]

/-- A running module whose DIO channel 95 is retired. A Maintainer's FORCE that releases all forces awaits its tick, and the
same session's READMIT of that channel waits behind it. -/
noncomputable def readmitWaits : State :=
  { State.reset with
    pwr := { State.reset.pwr with phase := .up, domains := 0xFFF }
    pair := { State.reset.pair with state := .single }
    retired := [⟨1, 95, 0, false⟩]
    sess := { State.reset.sess with
      sessions := [(0, { state := 2, role := 4, path := 2, lastSeq := 2 })]
      leases := [⟨0x3000, 0, 50000000000⟩]
      force := some { hdr := { seq := 3 }, op := 3, point := 0, value := 0 }
      waiting := [.request { seq := 4 } svcWrite readmitBody] } }

/-- The tick at 1 ms answers the FORCE and serves the READMIT, and the retirement list is empty. -/
theorem engineTick_readmits :
    (serveWaiting (engineTickState (applyFirst (advance 1000000 readmitWaits)))).retired = [] := by
  decide +kernel

/-- Refutes O5: ENGINE_TICK is neither READMIT nor WRITE_OBJECT, but it serves a READMIT that waited for a FORCE. -/
theorem not_retiredResourcesStayRetired : ¬ Obligations.RetiredResourcesStayRetired := by
  intro h
  have hkept := h (.engineTick 1000000) readmitWaits _ rfl (fun _ _ => nofun) (fun _ _ _ _ _ _ _ => nofun)
    ⟨1, 95, 0, false⟩ List.mem_cons_self
  rw [engineTick_readmits] at hkept
  exact List.not_mem_nil hkept

end Sys2Proof.Machine
end

section
/-! SUPPORT. Keys set and recorded, resources re-admitted, patch sets installed and removed, and a synchro-check whose close
output is retired (17 R425 to R430; 18 R439, R440, R444). -/

set_option Elab.async false
set_option cleanup.letToHave false

namespace Sys2Proof.Machine

/-! ### What a frame leaves -/

theorem Untouched.cfgBytes {ps : List Part} {s t : State} (h : Untouched ps s t) (idx sub : Nat)
    (hc : Part.config ∉ ps) : cfgBytes t idx sub = cfgBytes s idx sub :=
  congrArg (fun c => (Tbl.find c (objKey idx sub)).getD (defaultBytes idx sub)) (h.same .config hc)

theorem Untouched.cfgNat {ps : List Part} {s t : State} (h : Untouched ps s t) (idx sub : Nat)
    (hc : Part.config ∉ ps) : cfgNat t idx sub = cfgNat s idx sub :=
  congrArg leVal (h.cfgBytes idx sub hc)

theorem emit_sess (code src : Nat) (data : List Byte) (s : State) : (emit code src data s).sess = s.sess :=
  (emit_frame ..).same .sess (by decide)

theorem emit_mgmt (code src : Nat) (data : List Byte) (s : State) : (emit code src data s).mgmt = s.mgmt :=
  (emit_frame ..).same .mgmt (by decide)

/-- A condition that is not met. -/
theorem not_of_eq_false {b : Bool} (h : b = false) : ¬ b = true := fun k => Bool.false_ne_true (h.symm.trans k)

/-- Two conditions that hold. -/
theorem and_eq_true_of {a b : Bool} (ha : a = true) (hb : b = true) : (a && b) = true := Bool.and_eq_true_iff.2 ⟨ha, hb⟩

/-! ### Keys (17 R428) -/

theorem endLease_slots (area : Nat) (s : State) : (endLease area s).sess.slots = s.sess.slots := by
  delta endLease
  cases s.sess.leases.find? (fun l => l.area == area) <;> rfl

theorem closeSession_slots (n cause : Nat) (s : State) : (closeSession n cause s).sess.slots = s.sess.slots :=
  forAll_induct (P := fun x => x.sess.slots = s.sess.slots) _ endLease (fun area x h => (endLease_slots area x).trans h) s rfl

/-- The sessions of a slot but one close. -/
theorem closeOthers_slots (k n : Nat) (s : State) : (forAll (List.range 8) (fun m s =>
    if m ≠ n ∧ (getSession s m).state ≠ 0 ∧ (getSession s m).slot = k then closeSession m 7 s else s) s).sess.slots =
      s.sess.slots :=
  forAll_induct (P := fun x => x.sess.slots = s.sess.slots) _ _ (fun _ _ h =>
    iteInduction (motive := fun y : State => y.sess.slots = s.sess.slots) (fun _ => (closeSession_slots ..).trans h) (fun _ => h)) s rfl

/-- A slot with the key, or with none where its bytes are all zero. -/
noncomputable def keyedSlot (key : List Byte) (x : Slot) : Slot := { x with key := if key.all (· == 0) then none else some key }

/-- The slot's key as a WRITE of `SLOT_KEY` brings it, unwrapped by the session key. -/
noncomputable def slotKeyed (k : Nat) (data : List Byte) (n : Nat) (s : State) : State :=
  modSlot k (keyedSlot (xorBytes data (hmacSha256 (getSession s n).ks (labelPXKW ++ leBytes 1 k)))) s

/-- A slot's key is set or cleared; the sessions that close with it keep the slots. -/
theorem slotKeyOp_slots (k : Nat) (data : List Byte) (n : Nat) (s : State) :
    (slotKeyOp k data n s).2.sess.slots = (slotKeyed k data n s).sess.slots := by
  have hclosed := fun code => (congrArg Sess.slots (emit_sess code (0xA010 + k) (leBytes 1 k) _)).trans
    (closeOthers_slots k n (owe (objKey (0x1200 + k) 5) (slotKeyed k data n s)))
  exact iteInduction (motive := fun y : State => y.sess.slots = _) (fun _ => (closeSession_slots ..).trans (hclosed _))
    (fun _ => hclosed _)

theorem answerDone_slots (ses : Session) (h : Hdr) (service : Nat) (a : Answer) (u : State) :
    (answerDone ses h service a u).sess.slots = u.sess.slots :=
  (congrArg Sess.slots ((send_frame ..).same .sess (by decide))).trans
    (iteInduction (motive := fun y : State => y.sess.slots = u.sess.slots) (fun _ => rfl) (fun _ => rfl))

theorem respond_slots (s : State) (h : Hdr) (service : Nat) (a : Answer) (u : State) :
    (respond s h service a u).sess.slots = u.sess.slots := by
  delta respond answerOrWait
  cases u.sess.force with
  | some => rfl
  | none => exact answerDone_slots ..

/-- The slots after a WRITE of `SLOT_KEY` is answered. -/
theorem getSlot_slotKeyAnswered (w : State) (h : Hdr) (service : Nat) (a : Answer) (k : Nat) (data : List Byte) (n : Nat) (s : State)
    (j : Nat) : getSlot (respond w h service a (slotKeyOp k data n s).2) j = getSlot (slotKeyed k data n s) j :=
  congrArg (fun slots => Tbl.get slots ({} : Slot) j) ((respond_slots ..).trans (slotKeyOp_slots ..))

theorem signerKey_notBulk : ∀ i : Fin 4, objKey 0xB000 (0x20 + i) ≠ objKey 0xF000 2 := by decide

theorem signerKey_isSigner : ∀ i : Fin 4, objKey 0xB000 (0x20 + i) / 256 = 0xB000 := by decide

theorem signerKey_number : ∀ i : Fin 4, objKey 0xB000 (0x20 + i) % 256 - 0x20 = i := by decide

/-- A signer key takes effect with its record (17 R430). -/
theorem directEffect_signerKey (i : Fin 4) (data : List Byte) (n : Nat) (s : State) :
    directEffect (objKey 0xB000 (0x20 + i)) data n s = emit 0xB104 0 (leBytes 1 i) (keepDirect 0xB000 (0x20 + i) data s) :=
  (if_neg (signerKey_notBulk i)).trans ((if_pos (signerKey_isSigner i)).trans
    (congrArg (fun k => (signerKeyNow k data n s).2) (signerKey_number i)))

theorem execPresenceKey_opens {t ms : Nat} {s : State} (hu : up s = true) (h500 : 500 ≤ ms) (h5000 : ms ≤ 5000) :
    execPresenceKey t ms s = .next (emit 0xB101 0 [] { advance t s with sess := { (advance t s).sess with
      presence := some ((advance t s).now + 120 * secNs) } }) :=
  congrArg Host.Outcome.next ((if_neg (not_of_eq_false (congrArg not hu))).trans
    ((if_neg (Nat.not_lt.2 h5000)).trans (if_pos h500)))

theorem execPresenceKey_long {t ms : Nat} {s : State} (hu : up s = true) (h5000 : 5000 < ms) :
    execPresenceKey t ms s = .next (emit 0xB105 0 [] (advance t s)) :=
  congrArg Host.Outcome.next ((if_neg (not_of_eq_false (congrArg not hu))).trans (if_pos h5000))

theorem slotKeyOp_answers (k : Nat) (data : List Byte) (n : Nat) (s : State) :
    slotKeyOp k data n s = (.ok [], (slotKeyOp k data n s).2) := rfl

/-- Settles O13: a slot's key, a signer key waiting and in effect, and a press of the presence key. -/
theorem keysAreSetAndRecorded : Obligations.KeysAreSetAndRecorded := by
  refine ⟨fun t k c s hw => ?_, fun t i c s hw => congrArg Host.Outcome.next (rowReq_answers_whole hw
    (deferred_ok (op := signerKeyNow i) (b := []) rfl)), directEffect_signerKey,
    fun t ms s hu => ⟨execPresenceKey_opens hu, execPresenceKey_long hu⟩⟩
  intro v key
  refine ⟨_, congrArg Host.Outcome.next (rowReq_answers_whole hw (slotKeyOp_answers ..)), ?_, fun j hj => ?_,
    ((slotKeyOp_frame ..).mono (by decide)).trans ((respond_frame ..).mono (by decide))⟩
  · exact congrArg Slot.key ((getSlot_slotKeyAnswered ..).trans ((getSlot_modSlot ..).trans (if_pos rfl)))
  · exact (getSlot_slotKeyAnswered ..).trans ((getSlot_modSlot ..).trans (if_neg hj))

/-! ### READMIT (18 R439, R440) and RECORDER_SNAPSHOT (17 R418) -/

/-- A DIO channel comes back without counted faults, and awaits its owner's next release. -/
theorem readmitted_dio {α : Type} (p : Dio → α) {a : α} (hp : ∀ x q, p { x with landedQual := q } = p x)
    (ha : ∀ x : Dio, p { x with faults := [], awaiting := true, seen := false, trip := false, thermal := false, retry := false } = a)
    {kind : Nat} (hkind : kind = 1) (n m : Nat) (body : List Byte) (s : State) :
    p (getDio (cmdNow 3 m body (readmitted kind n s)).2 n) = a := by
  rw [(cmdNow_frame ..).getDio, hkind]
  exact (congrArg p ((decideQual_frame ..).getDio n)).trans ((getDio_modDio_field p _ _ _ _ (hf := fun x => hp x _)).trans
    ((congrArg p ((getDio_modDio ..).trans (if_pos rfl))).trans (ha _)))

/-- A resource is off the list, with its record. -/
noncomputable def unlisted (kind num n : Nat) (s : State) : State :=
  emit 0xD102 (sourceOf kind num) (leBytes 1 n)
    { s with retired := s.retired.filter (fun r => !(r.kind == kind && r.number == num)) }

/-- What READMIT answers of a resource that was retired. -/
noncomputable def readmitAnswer (kind num : Nat) (r : Retired) (s : State) : List Byte :=
  leBytes 1 kind ++ [0] ++ leBytes 2 num ++ leBytes 4 (lifetimeFaults s kind num) ++ leBytes 4 (sat 32 (opTime s / 64 - r.at_))
    ++ leBytes 4 0

/-- A READMIT that is accepted takes its resource off the list. -/
theorem readmitOp_accepts {data : List Byte} {n ss mx : Nat} {r : Retired} {s : State}
    (hk : readmitKind (fieldAt data 0 1) = some (ss, mx)) (hm : fieldAt data 2 2 ≤ mx)
    (hr : s.retired.find? (fun r => r.kind == fieldAt data 0 1 && r.number == fieldAt data 2 2) = some r)
    (hc : r.cal = false) : readmitOp data n s = cmdNow 3 n (readmitAnswer (fieldAt data 0 1) (fieldAt data 2 2) r s)
      (readmitted (fieldAt data 0 1) (fieldAt data 2 2) (unlisted (fieldAt data 0 1) (fieldAt data 2 2) n s)) := by
  delta readmitOp
  dsimp only
  rw [hk, hr]
  exact (if_neg (Nat.not_lt.2 hm)).trans (if_neg (not_of_eq_false hc))

/-- The list after a READMIT. -/
theorem readmitNow_retired (kind num n : Nat) (body : List Byte) (s : State) :
    (cmdNow 3 n body (readmitted kind num (unlisted kind num n s))).2.retired =
      s.retired.filter (fun r => !(r.kind == kind && r.number == num)) :=
  ((cmdNow_frame ..).same .retired (by decide)).trans (((readmitted_frame ..).same .retired (by decide)).trans
    ((emit_frame ..).same .retired (by decide)))

theorem snapshotOp_answers {data : List Byte} {n : Nat} {s : State} (ho : fieldAt data 0 1 = 1) (hn : s.recd.newest ≠ 0) :
    snapshotOp data n s = (.ok (snapshotBytes s.recd 0), cmdDone 5 (snapshotBytes s.recd 0) (cmdStart 5 n s)) := by
  unfold snapshotOp
  rw [if_neg (not_not_intro ho), if_neg hn]
  rfl

/-- Settles O23, by the two operations. -/
theorem resourcesAreReadmittedAndSnapshotsTaken : Obligations.ResourcesAreReadmittedAndSnapshotsTaken := by
  intro t c s n v kind num
  exact ⟨fun _ _ _ hw hk hm hr hc =>
    ⟨_, _, congrArg Host.Outcome.next (rowReq_answers_whole hw (readmitOp_accepts (n := n) hk hm hr hc)), readmitNow_retired ..,
      (cmdDone_get ..).1, fun h => ⟨readmitted_dio Dio.faults (fun _ _ => rfl) (fun _ => rfl) h ..,
        readmitted_dio Dio.awaiting (fun _ _ => rfl) (fun _ => rfl) h ..⟩⟩,
    fun hw ho hn => congrArg Host.Outcome.next (rowReq_answers_whole hw (snapshotOp_answers (data := c.rest) (n := n) (s := v) ho hn))⟩

/-! ### PATCH_INSTALL and PATCH_REMOVE (17 R425, R426) -/

/-- The set of the bundle is held for the next start. -/
noncomputable def bundleHeld (s : State) : State :=
  { s with mgmt := { s.mgmt with patchState := 2, heldId := fieldAt (bulkBytes s) 8 4, heldCount := fieldAt (bulkBytes s) 12 2 } }

/-- A bundle that passes is held and recorded, with the command running. -/
noncomputable def bundleTaken (n : Nat) (s : State) : State :=
  emit 0xB201 0 (leBytes 4 (fieldAt (bulkBytes s) 8 4)) (cmdStart 0xB n (keepLeases 0xF00B n [0xB000, 0xF000] (bundleHeld s)))

theorem patchOp_installs {flashFull : Bool} {rest : List Byte} {n : Nat} {s : State} (hr : patchRefused s = none)
    (hc : patchCheck s.mgmt.patchKey (bulkBytes s) flashFull = none) :
    patchOp flashFull ([1] ++ rest) n s = (.ok [], bundleTaken n s) := by
  change installPatch flashFull n s = _
  delta installPatch
  rw [hr]
  dsimp only
  rw [hc]
  rfl

theorem bundleTaken_frame (n : Nat) (s : State) : Untouched [.sess, .recd] (bundleHeld s) (bundleTaken n s) :=
  .step (.step ((keepLeases_frame ..).mono (by decide)) (cmdStart_frame ..) (by decide)) (emit_frame ..) (by decide)

theorem patchRestart_due {s : State} (hu : up s = true) (hp : s.mgmt.patchState = 2) (hc : (getCmd s 0xB).status = 1) :
    patchRestart s = restartNow 8 s :=
  if_pos (by rw [hu, hp, cmdRunning, hc]; rfl)

/-- The module that has taken a bundle and answered. -/
noncomputable def bundleAnswered (w : State) (h : Hdr) (s : State) : State :=
  respond w h svcWrite (.ok []) (bundleTaken h.session s)

theorem bundleAnswered_frame (w : State) (h : Hdr) (s : State) :
    Untouched [.sess, .outbox, .ring, .recd] (bundleHeld s) (bundleAnswered w h s) :=
  ((bundleTaken_frame ..).mono (by decide)).trans ((respond_frame ..).mono (by decide))

/-- A module that runs restarts with the bundle it has taken. -/
theorem patchRestart_bundleAnswered {w s : State} {h : Hdr} (hu : up s = true) :
    patchRestart (bundleAnswered w h s) = restartNow 8 (bundleAnswered w h s) :=
  patchRestart_due ((congrArg (fun p : Pwr => decide (p.phase = .up)) ((bundleAnswered_frame w h s).same .pwr (by decide))).trans hu)
    (congrArg Mgmt.patchState ((bundleAnswered_frame w h s).same .mgmt (by decide)))
    ((congrArg CmdObj.status ((respond_keeps ..).2 0xB)).trans
      ((congrArg (fun x : Sess => (Tbl.get x.cmds {} 0xB).status) (emit_sess ..)).trans (cmdStart_status ..)))

theorem execPatchInstall_restarts {t : Nat} {c : Cmd} {flashFull : Bool} {s v : State} (hv : served (found t s) c.hdr.session = v)
    (hw : writeHeard (found t s) c 0xF00B 1 [1] = true) (hr : patchRefused v = none)
    (hc : patchCheck v.mgmt.patchKey (bulkBytes v) flashFull = none) :
    exec (.patchInstall t c flashFull) s = .next (restartNow 8 (bundleAnswered (found t s) c.hdr v)) := by
  subst hv
  have hexec : exec (.patchInstall t c flashFull) s = .next (patchRestart _) :=
    congrArg (fun x => Host.Outcome.next (patchRestart x)) (rowReq_answers hw (patchOp_installs hr hc))
  exact hexec.trans (congrArg Host.Outcome.next (patchRestart_bundleAnswered (up_of_writeHeard hw)))

theorem mgmt_restarted (w s : State) (h : Hdr) : (restartNow 8 (bundleAnswered w h s)).mgmt = { s.mgmt with
    patchState := 2, heldId := fieldAt (bulkBytes s) 8 4, heldCount := fieldAt (bulkBytes s) 12 2 } :=
  ((restartNow_frame ..).same .mgmt (by decide)).trans ((bundleAnswered_frame w h s).same .mgmt (by decide))

/-- What is held and recorded of a set is forgotten. -/
noncomputable def bundleForgotten (s : State) : State :=
  let x := if s.mgmt.heldCount = 0 then s else emit 0xB203 0 (leBytes 4 s.mgmt.heldId) s
  { x with mgmt := { x.mgmt with heldId := 0, heldCount := 0 } }

theorem bundleForgotten_mgmt (s : State) : (bundleForgotten s).mgmt = { s.mgmt with heldId := 0, heldCount := 0 } :=
  congrArg (fun m : Mgmt => { m with heldId := 0, heldCount := 0 })
    (iteInduction (motive := fun y : State => y.mgmt = s.mgmt) (fun _ => rfl) (fun _ => emit_mgmt ..))

theorem patchOp_removes {rest : List Byte} {n : Nat} {s : State} (hr : patchRefused s = none) :
    patchOp false ([2] ++ rest) n s = (.ok [], cmdDone 0xB [] (cmdStart 0xB n (bundleForgotten s))) := by
  change removePatch n s = _
  delta removePatch
  rw [hr]
  rfl

theorem execPatchRemove_answers {t : Nat} {c : Cmd} {s v : State} (hv : served (found t s) c.hdr.session = v)
    (hw : writeHeard (found t s) c 0xF00B 1 [2] = true) (hr : patchRefused v = none) :
    exec (.patchRemove t c) s = .next (respond (found t s) c.hdr svcWrite (.ok [])
      (cmdDone 0xB [] (cmdStart 0xB c.hdr.session (bundleForgotten v)))) := by
  subst hv
  exact congrArg Host.Outcome.next (rowReq_answers (act := patchOp false) hw (patchOp_removes hr))

/-- Settles O25: the bundle is held and the module restarts; an installed set is gone. -/
theorem patchSetsAreInstalledAndRemoved : Obligations.PatchSetsAreInstalledAndRemoved := by
  intro t c s v
  have hv : served (found t s) c.hdr.session = v := rfl
  clear_value v
  refine ⟨fun flashFull hw hr hc => ?_, fun hw hr => ?_⟩
  · have hmgmt := mgmt_restarted (found t s) v c.hdr
    exact ⟨_, execPatchInstall_restarts hv hw hr hc, restartNow_phase .., (congrArg Mgmt.patchState hmgmt :),
      (congrArg Mgmt.heldId hmgmt :), (congrArg Mgmt.heldCount hmgmt :)⟩
  · have hmgmt := ((cmdNow_frame 0xB c.hdr.session [] (bundleForgotten v)).same .mgmt (by decide)).trans (bundleForgotten_mgmt v)
    exact ⟨_, execPatchRemove_answers hv hw hr, (congrArg Mgmt.heldId hmgmt :), (congrArg Mgmt.heldCount hmgmt :),
      (congrArg Mgmt.patchId hmgmt :), (congrArg Mgmt.patchState hmgmt :), (cmdDone_get ..).1⟩

/-! ### A retired close output (18 R444) -/

/-- A WRITE of true to `SC_ARM` whose close output is retired is refused. -/
theorem scArmOp_refuses {i n : Nat} {s : State} (hother : (getSc s (1 - i)).state ≠ .armed)
    (hretired : dioRetired s (cfgNat s (0x38C0 + i) 3) = true) :
    scArmOp i [1] n s = (.error ⟨4, 0x38, 5, 0x38C0 + i, 0x0B, 0⟩, s) := by
  have hnow : scArmNow i [1] n s = (.error ⟨4, 0x38, 5, 0x38C0 + i, 0x0B, 0⟩, s) :=
    (if_neg hother).trans (if_pos hretired)
  delta scArmOp deferred
  rw [hnow]

/-- What a channel's commands leave: nothing commanded, no pulse. -/
@[reducible] noncomputable def commands (x : Dio) : Bool × Option Nat := (x.command, x.pulseEnd)

theorem retireDio_idle (ch : Nat) (s : State) :
    (getDio (retireDio ch s) ch).command = false ∧ (getDio (retireDio ch s) ch).pulseEnd = none :=
  Prod.mk.inj ((congrArg commands (((scRetired_frame ..).getDio ch).trans ((requalDio_frame ..).getDio ch))).trans
    ((congrArg commands (dropEdges_own ..)).trans ((congrArg commands ((setSwitch_switches ..).field unswitched)).trans
      (congrArg commands ((getDio_modDio ..).trans (if_pos rfl))))))

/-- An instance that ended in ABORTED. -/
@[reducible] noncomputable def scEnding (x : Sc) : ScState × Bool := (x.state, x.arm)

/-- One instance's turn when a channel retires. -/
noncomputable def scRetiredTurn (ch i : Nat) (s : State) : State :=
  if cfgNat s (0x38C0 + i) 3 = ch ∧ ((getSc s i).state = .armed ∨ (getSc s i).state = .closing) then scEnd i .aborted s else s

theorem getSc_scEnd (i j : Nat) (s : State) :
    getSc (scEnd i .aborted s) j = if j = i then { getSc s i with state := .aborted, arm := false } else getSc s j :=
  (congrArg (fun c : Cad => Tbl.get c.sc {} j) ((emit_frame ..).same .cad (by decide))).trans (getSc_modSc ..)

theorem scRetiredTurn_frame (ch i : Nat) (s : State) : Untouched [.cad, .recd] s (scRetiredTurn ch i s) :=
  iteInduction (motive := Untouched [.cad, .recd] s) (fun _ => scEnd_frame ..) (fun _ => .refl ..)

theorem scRetiredTurn_own {ch i : Nat} {s : State} (hc : cfgNat s (0x38C0 + i) 3 = ch)
    (hs : (getSc s i).state = .armed ∨ (getSc s i).state = .closing) :
    scEnding (getSc (scRetiredTurn ch i s) i) = (.aborted, false) :=
  (congrArg (fun x => scEnding (getSc x i)) (if_pos ⟨hc, hs⟩)).trans
    (congrArg scEnding ((getSc_scEnd i i s).trans (if_pos rfl)))

theorem scRetiredTurn_other {ch i j : Nat} (s : State) (h : j ≠ i) : getSc (scRetiredTurn ch i s) j = getSc s j :=
  iteInduction (motive := fun x => getSc x j = getSc s j) (fun _ => (getSc_scEnd i j s).trans (if_neg h)) (fun _ => rfl)

theorem scRetired_eq (ch : Nat) (s : State) : scRetired ch s = scRetiredTurn ch 1 (scRetiredTurn ch 0 s) := rfl

theorem scRetired_aborts {ch i : Nat} {s : State} (hi : i = 0 ∨ i = 1) (hc : cfgNat s (0x38C0 + i) 3 = ch)
    (hs : (getSc s i).state = .armed ∨ (getSc s i).state = .closing) : scEnding (getSc (scRetired ch s) i) = (.aborted, false) := by
  rw [scRetired_eq]
  obtain rfl | rfl := hi
  · rw [scRetiredTurn_other _ Nat.zero_ne_one]
    exact scRetiredTurn_own hc hs
  · exact scRetiredTurn_own (((scRetiredTurn_frame ..).cfgNat _ _ (by decide)).trans hc) (by rwa [scRetiredTurn_other _ Nat.one_ne_zero])

/-- Up to the ending of the instances, a retirement leaves them and the configuration. -/
theorem retireDio_ends (ch : Nat) (s : State) : ∃ x, Untouched [.img, .dio, .recd, .retired] s x ∧ retireDio ch s = scRetired ch x :=
  ⟨_, .step (.step (.step (.step ((listRetired_frame ..).mono (by decide)) (modDio_frame ..) (by decide))
    (setSwitch_frame ..) (by decide)) (dropEdges_frame ..) (by decide)) (requalDio_frame ..) (by decide), rfl⟩

theorem retireDio_aborts {ch i : Nat} {s : State} (hi : i = 0 ∨ i = 1) (hc : cfgNat s (0x38C0 + i) 3 = ch)
    (hs : (getSc s i).state = .armed ∨ (getSc s i).state = .closing) :
    (getSc (retireDio ch s) i).state = .aborted ∧ (getSc (retireDio ch s) i).arm = false := by
  obtain ⟨x, hx, hends⟩ := retireDio_ends ch s
  have hcad : getSc x i = getSc s i := congrArg (fun c : Cad => Tbl.get c.sc {} i) (hx.same .cad (by decide))
  rw [hends]
  exact Prod.mk.inj (scRetired_aborts hi ((hx.cfgNat _ _ (by decide)).trans hc) (by rwa [hcad]))

/-- Settles O59, by the refusal of the write and by the operation that retires a channel. -/
theorem synchroCheckEndsWithItsCloseOutput : Obligations.SynchroCheckEndsWithItsCloseOutput := by
  refine ⟨fun t i c s => ?_, fun ch s => ?_⟩
  · intro v hrest hw hother hretired
    have hop := scArmOp_refuses (n := c.hdr.session) hother hretired
    exact congrArg Host.Outcome.next (rowReq_answers hw (by rw [hrest]; exact hop))
  · exact ⟨(retireDio_channel ch s).1, (retireDio_idle ch s).1, (retireDio_idle ch s).2, fun i =>
      retireDio_aborts ((by decide : ∀ i : Fin 2, i.val = 0 ∨ i.val = 1) i)⟩

end Sys2Proof.Machine
end

section
/-! SUPPORT. Axes and their drives: stops, lost positions, homing's end, faults and retries (14 R339, R340, R349, R353, R356). -/

set_option Elab.async false
set_option cleanup.letToHave false

namespace Sys2Proof.Machine

theorem Untouched.getAxis {ps : List Part} {s t : State} (h : Untouched ps s t) (hm : Part.mot ∉ ps) (j : Nat) : getAxis t j = getAxis s j :=
  congrArg (fun m : Mot => Tbl.get m.axes {} j) (h.same .mot hm)

/-- A loop whose turn at `n` brings `Q`, which every turn keeps, ends in `Q`. -/
theorem forAll_reaches {Q : State → Prop} {l : List Nat} {n : Nat} {f : Nat → State → State} (hn : n ∈ l)
    (reach : ∀ s, Q (f n s)) (keep : ∀ k s, Q s → Q (f k s)) : ∀ s, Q (forAll l f s) := by
  induction l with
  | nil => exact absurd hn List.not_mem_nil
  | cons a r ih =>
    intro s
    rcases List.mem_cons.1 hn with rfl | hr
    · exact forAll_induct r f keep _ (reach s)
    · exact ih hr _

/-! ### One axis at a time -/

theorem getAxis_modAxis_own (n : Nat) (f : Axis → Axis) (s : State) : getAxis (modAxis n f s) n = f (getAxis s n) :=
  (getAxis_modAxis ..).trans (if_pos rfl)

theorem getAxis_modAxis_field {α : Type} (p : Axis → α) (n : Nat) (f : Axis → Axis) (s : State) (j : Nat)
    (hf : ∀ x, p (f x) = p x) : p (getAxis (modAxis n f s) j) = p (getAxis s j) := by
  refine (congrArg p (getAxis_modAxis ..)).trans (iteInduction (motive := fun x => p x = p (getAxis s j)) (fun h => ?_) (fun _ => rfl))
  exact h ▸ hf _

theorem getAxis_losePos (n code : Nat) (s : State) (j : Nat) :
    getAxis (losePos n code s) j = if j = n then { getAxis s n with valid := false, lost := code } else getAxis s j :=
  iteInduction (motive := fun y => getAxis y j = _) (fun _ => ((emit_frame ..).getAxis (by decide) j).trans (getAxis_modAxis ..))
    (fun _ => getAxis_modAxis ..)

theorem losePos_field {α : Type} (p : Axis → α) (n code : Nat) (s : State) (j : Nat)
    (hp : ∀ x : Axis, p { x with valid := false, lost := code } = p x) :
    p (getAxis (losePos n code s) j) = p (getAxis s j) :=
  (congrArg p (getAxis_losePos n code s j)).trans ((congrArg p (getAxis_modAxis ..)).symm.trans (getAxis_modAxis_field p n _ s j hp))

theorem hardStop_field {α : Type} (p : Axis → α) (n : Nat) (s : State) (j : Nat)
    (hl : ∀ (x : Axis) code, p { x with valid := false, lost := code } = p x)
    (hs : ∀ (x : Axis) at_, p { x with overshoot := false, short := false, stillSince := at_ } = p x) :
    p (getAxis (hardStop n s) j) = p (getAxis (dropPlan n s) j) :=
  iteInduction (motive := fun y => p (getAxis y j) = p (getAxis (dropPlan n s) j))
    (fun _ => (losePos_field p n 2 _ j (fun x => hl x 2)).trans (getAxis_modAxis_field p n _ _ j (fun x => hs x _)))
    (fun _ => getAxis_modAxis_field p n _ _ j (fun x => hs x _))

theorem hardStop_v (n : Nat) (s : State) (j : Nat) : (getAxis (hardStop n s) j).v = if j = n then 0 else (getAxis s j).v :=
  (hardStop_field Axis.v n s j (fun _ _ => rfl) (fun _ _ => rfl)).trans ((congrArg Axis.v (((tellCut_frame ..).getAxis (by decide) j).trans (getAxis_modAxis ..))).trans
    (apply_ite Axis.v ..))

theorem hardStop_lifetime (n : Nat) (s : State) (j : Nat) : (getAxis (hardStop n s) j).lifetime = (getAxis s j).lifetime :=
  (hardStop_field Axis.lifetime n s j (fun _ _ => rfl) (fun _ _ => rfl)).trans ((congrArg Axis.lifetime ((tellCut_frame ..).getAxis (by decide) j)).trans
    (getAxis_modAxis_field Axis.lifetime _ _ _ _ (fun _ => rfl)))

/-! ### A stop that takes the group along (R360) -/

/-- One member's turn when its group stops. -/
noncomputable def stopMember (moves : Bool) (k : Nat) (s : State) : State :=
  hardStop k (if moves then modAxis k (fun a => { a with groupStop := true }) s else s)

theorem groupStop_field {α : Type} (p : Axis → α) (moves : Bool) (k : Nat) (s : State) (j : Nat)
    (hp : ∀ x : Axis, p { x with groupStop := true } = p x) :
    p (getAxis (if moves then modAxis k (fun a => { a with groupStop := true }) s else s) j) = p (getAxis s j) :=
  iteInduction (motive := fun y => p (getAxis y j) = p (getAxis s j)) (fun _ => getAxis_modAxis_field p k _ s j hp) (fun _ => rfl)

theorem stopMember_v (moves : Bool) (k : Nat) (s : State) (j : Nat) :
    (getAxis (stopMember moves k s) j).v = if j = k then 0 else (getAxis s j).v :=
  (hardStop_v ..).trans (congrArg (fun v => if j = k then 0 else v) (groupStop_field Axis.v _ _ _ _ (fun _ => rfl)))

theorem stopMember_lifetime (moves : Bool) (k : Nat) (s : State) (j : Nat) :
    (getAxis (stopMember moves k s) j).lifetime = (getAxis s j).lifetime :=
  (hardStop_lifetime ..).trans (groupStop_field Axis.lifetime _ _ _ _ (fun _ => rfl))

theorem groupOfAxis_mem {s : State} {n g : Nat} {m : List Nat} (h : groupOfAxis s n = some (g, m)) : n ∈ m :=
  List.contains_iff_mem.1 (List.find?_some (p := fun g : Nat × List Nat => g.2.contains n) h)

/-- What stops with an axis: its group, or it alone. -/
theorem hardStopAll_members (n : Nat) (s : State) : ∃ l moves, n ∈ l ∧
    ∀ j, getAxis (hardStopAll n s) j = getAxis (forAll l (stopMember moves) s) j := by
  delta hardStopAll
  cases hg : groupOfAxis s n with
  | none => exact ⟨[n], false, List.mem_singleton_self n, fun _ => rfl⟩
  | some =>
    exact ⟨_, _, groupOfAxis_mem hg, fun j => iteInduction (motive := fun y => getAxis y j = _) (fun _ => rfl) (fun _ => rfl)⟩

/-- Alone or with its group, a stopped axis stands, its faults counted as they were. -/
theorem hardStopAll_own (n : Nat) (s : State) :
    (getAxis (hardStopAll n s) n).v = 0 ∧ (getAxis (hardStopAll n s) n).lifetime = (getAxis s n).lifetime := by
  obtain ⟨l, moves, hn, hall⟩ := hardStopAll_members n s
  rw [hall]
  exact ⟨forAll_reaches (Q := fun y => (getAxis y n).v = 0) hn (fun y => (stopMember_v ..).trans (if_pos rfl))
      (fun k y h => (stopMember_v ..).trans ((congrArg _ h).trans (ite_self 0))) s,
    forAll_induct (P := fun y => (getAxis y n).lifetime = (getAxis s n).lifetime) l _
      (fun k y h => (stopMember_lifetime ..).trans h) s rfl⟩

/-! ### Homing's end -/

theorem endHoming_own {n result : Nat} {held : Bool} {s : State} (h : (getAxis s n).homing ≠ 0) :
    getAxis (endHoming n result held s) n = { getAxis s n with
      homing := 0, homeResult := result, homeFailed := decide (result ≠ 1), valid := decide (result = 1)
      heldStop := (getAxis s n).heldStop || held } :=
  (congrArg (fun y => Machine.getAxis y n) (if_neg h)).trans (((emit_frame ..).getAxis (by decide) n).trans
    (getAxis_modAxis_own ..))

theorem endHoming_lifetime (n result : Nat) (held : Bool) (s : State) (j : Nat) :
    (getAxis (endHoming n result held s) j).lifetime = (getAxis s j).lifetime :=
  iteInduction (motive := fun y => (getAxis y j).lifetime = (getAxis s j).lifetime) (fun _ => rfl)
    (fun _ => (congrArg Axis.lifetime ((emit_frame ..).getAxis (by decide) j)).trans
      (getAxis_modAxis_field Axis.lifetime _ _ _ _ (fun _ => rfl)))

/-! ### Drive faults -/

/-- What a drive fault leaves of an axis. -/
noncomputable def DriveFaulted (now lifetime : Nat) (x : Axis) : Prop :=
  x.enabled = false ∧ x.driveFault = true ∧ x.faultAt = now ∧ x.v = 0 ∧ x.valid = false ∧ x.lost = 3 ∧ x.lifetime = lifetime

/-- An axis that retired. -/
noncomputable def axisOff (x : Axis) : Axis :=
  { x with enabled := false, heldStop := true, quiet := false, quietOut := false, holding := false, valid := false, lost := 3 }

theorem retireAxis_own (n : Nat) (s : State) : getAxis (retireAxis n s) n = axisOff (getAxis s n) :=
  ((produceAxis_frame ..).getAxis (by decide) n).trans ((getAxis_losePos ..).trans ((if_pos rfl).trans
    (congrArg (fun x : Axis => { x with valid := false, lost := 3 }) ((getAxis_modAxis ..).trans ((if_pos rfl).trans
      (congrArg _ ((listRetired_frame ..).getAxis (by decide) n)))))))

theorem DriveFaulted.axisOff {now k : Nat} {x : Axis} (h : DriveFaulted now k x) : DriveFaulted now k (axisOff x) := by
  obtain ⟨-, hfault, hat, hv, -, -, hlifetime⟩ := h
  exact ⟨rfl, hfault, hat, hv, rfl, rfl, hlifetime⟩

/-- The axis stops and loses its position before a fault of its drive is noted. -/
noncomputable def faultStop (n : Nat) (s : State) : State := losePos n 3 (hardStopAll n (endHoming n 4 true s))

theorem faultStop_own (n : Nat) (s : State) : (getAxis (faultStop n s) n).v = 0 ∧
    (getAxis (faultStop n s) n).valid = false ∧ (getAxis (faultStop n s) n).lost = 3 ∧
    (getAxis (faultStop n s) n).lifetime = (getAxis s n).lifetime := by
  have hown : getAxis (faultStop n s) n = { getAxis (hardStopAll n (endHoming n 4 true s)) n with valid := false, lost := 3 } :=
    (getAxis_losePos ..).trans (if_pos rfl)
  exact hown ▸ ⟨(hardStopAll_own ..).1, rfl, rfl, (hardStopAll_own ..).2.trans (endHoming_lifetime ..)⟩

theorem faultStop_now (n : Nat) (s : State) : (faultStop n s).now = s.now :=
  (((endHoming_frame ..).mono (by decide)).trans (((hardStopAll_frame ..).mono (by decide)).trans
    ((losePos_frame ..).mono (by decide))) : Untouched [.outbox, .ring, .mot, .recd] s (faultStop n s)).same .now (by decide)

/-- An axis with the fault of its drive noted. -/
noncomputable def driveFaultNoted (counts : Bool) (k : DriveFaultKind) (now : Nat) (x : Axis) : Axis :=
  { x with
    enabled := false, heldStop := true, quiet := false, quietOut := false, driveFault := true, faultAt := now
    openCoil := decide (k = .openCoil), lifetime := sat 32 (x.lifetime + 1)
    faults := if counts then addFault now x.faults else x.faults }

/-- The fault is noted and recorded. -/
noncomputable def driveFaultRecorded (n : Nat) (counts : Bool) (k : DriveFaultKind) (s : State) : State :=
  emit (0x6000 + faultRow k) (0x3000 + n) [] (modAxis n (driveFaultNoted counts k s.now) s)

theorem driveFaultNoted_faulted {counts : Bool} {k : DriveFaultKind} {now lifetime : Nat} {x : Axis} (hv : x.v = 0)
    (hvalid : x.valid = false) (hlost : x.lost = 3) (hlifetime : x.lifetime = lifetime) :
    DriveFaulted now (sat 32 (lifetime + 1)) (driveFaultNoted counts k now x) :=
  ⟨rfl, rfl, rfl, hv, hvalid, hlost, congrArg (fun k => sat 32 (k + 1)) hlifetime⟩

theorem driveFaultRecorded_faulted (n : Nat) (counts : Bool) (k : DriveFaultKind) (s : State) :
    DriveFaulted s.now (sat 32 ((getAxis s n).lifetime + 1)) (getAxis (driveFaultRecorded n counts k (faultStop n s)) n) := by
  obtain ⟨hv, hvalid, hlost, hlifetime⟩ := faultStop_own n s
  have hown : getAxis (driveFaultRecorded n counts k (faultStop n s)) n =
      driveFaultNoted counts k (faultStop n s).now (getAxis (faultStop n s) n) :=
    ((emit_frame ..).getAxis (by decide) n).trans (getAxis_modAxis_own ..)
  exact hown ▸ faultStop_now n s ▸ driveFaultNoted_faulted hv hvalid hlost hlifetime

/-- The fault counts toward the axis's retirement. -/
noncomputable def driveFaultCounts (n : Nat) (k : DriveFaultKind) (s : State) : Bool :=
  decide (k ≠ .openCoil) && !(axIntegrated n && (getAxis s n).supplyOff)

/-- An axis with counted faults enough retires. -/
noncomputable def retireDue (n : Nat) (counts : Bool) (s : State) : State :=
  if counts ∧ 3 ≤ faultCount s.now (getAxis s n).faults then retireAxis n s else s

theorem retireDue_faulted {n now k : Nat} {counts : Bool} {s : State} (h : DriveFaulted now k (getAxis s n)) :
    DriveFaulted now k (getAxis (retireDue n counts s) n) :=
  iteInduction (motive := fun y => DriveFaulted now k (getAxis y n)) (fun _ => (retireAxis_own n s).symm ▸ h.axisOff) (fun _ => h)

theorem driveFaultState_live {n : Nat} {k : DriveFaultKind} {s : State} (hu : motionUp s = true) (ha : axUsed s n = true)
    (hl : axLive s n = true) (hk : axIntegrated n = true ↔ k ≠ .pulseFault) :
    driveFaultState n k s = retireDue n (driveFaultCounts n k s)
      (driveFaultRecorded n (driveFaultCounts n k s) k (faultStop n s)) := by
  have hfits : (if axIntegrated n then decide (k ≠ .pulseFault) else decide (k = .pulseFault)) = true :=
    iteInduction (motive := (· = true)) (fun hi => decide_eq_true (hk.1 hi))
      (fun hi => decide_eq_true (Classical.not_not.1 fun h => hi (hk.2 h)))
  exact if_neg (not_of_eq_false (congrArg not (and_eq_true_of (and_eq_true_of (and_eq_true_of hu ha) hfits) hl)))

/-! ### Holding current -/

/-- The axis takes its hold current, which its stage puts out. -/
noncomputable def holdApplied (n : Nat) (s : State) : State :=
  let s := modAxis n (fun x => { x with holding := true }) s
  if axLive s n then send (.drive n (axStage s n)) s else s

theorem holdApplied_own (n : Nat) (s : State) : getAxis (holdApplied n s) n = { getAxis s n with holding := true } :=
  iteInduction (motive := fun y => Machine.getAxis y n = { getAxis s n with holding := true })
    (fun _ => ((send_frame ..).getAxis (by decide) n).trans (getAxis_modAxis_own ..))
    (fun _ => getAxis_modAxis_own ..)

theorem holdApplied_unheld (n : Nat) (s : State) : (axNat (holdApplied n s) n 0x18 = 0 ∧ !axFlag (holdApplied n s) n 3) =
    (axNat s n 0x18 = 0 ∧ !axFlag s n 3) :=
  iteInduction (motive := fun y => (axNat y n 0x18 = 0 ∧ !axFlag y n 3) = (axNat s n 0x18 = 0 ∧ !axFlag s n 3))
    (fun _ => congrArg₂ (fun a b => a = 0 ∧ !bitOf b 3) ((send_frame ..).cfgNat _ _ (by decide)) ((send_frame ..).cfgNat _ _ (by decide)))
    (fun _ => rfl)

/-- The axis holds, or with nothing to hold it loses its position. -/
noncomputable def holdDelayed (n : Nat) (s : State) : State :=
  if axNat (holdApplied n s) n 0x18 = 0 ∧ !axFlag (holdApplied n s) n 3 then losePos n 5 (holdApplied n s) else holdApplied n s

theorem holdDelayed_holding (n : Nat) (s : State) : (getAxis (holdDelayed n s) n).holding = true :=
  iteInduction (motive := fun y => (getAxis y n).holding = true)
    (fun _ => (losePos_field Axis.holding _ _ _ _ (fun _ => rfl)).trans (congrArg Axis.holding (holdApplied_own n s)))
    (fun _ => congrArg Axis.holding (holdApplied_own n s))

theorem holdDelayed_lost {n : Nat} {s : State} (h0 : axNat s n 0x18 = 0) (h3 : axFlag s n 3 = false) :
    (getAxis (holdDelayed n s) n).valid = false ∧ (getAxis (holdDelayed n s) n).lost = 5 := by
  have hown : getAxis (holdDelayed n s) n = { getAxis (holdApplied n s) n with valid := false, lost := 5 } :=
    (congrArg (fun y => Machine.getAxis y n) (if_pos ((holdApplied_unheld n s).mpr ⟨h0, congrArg not h3⟩))).trans
    ((getAxis_losePos ..).trans (if_pos rfl))
  exact ⟨congrArg Axis.valid hown, congrArg Axis.lost hown⟩

theorem holdDelayed_kept {n : Nat} {s : State} (h : axNat s n 0x18 ≠ 0 ∨ axFlag s n 3 = true) :
    (getAxis (holdDelayed n s) n).valid = (getAxis s n).valid :=
  (congrArg (fun y => (Machine.getAxis y n).valid) (if_neg fun hc => h.elim (fun h0 => h0 ((holdApplied_unheld n s).mp hc).1)
    (fun h3 => Bool.false_ne_true ((congrArg not h3).symm.trans ((holdApplied_unheld n s).mp hc).2)))).trans
      (congrArg Axis.valid (holdApplied_own n s) :)

/-- A standing axis takes its hold current. -/
theorem execHoldDelay_holds {t : Nat} {n : Fin 24} {s : State} (hi : axIntegrated n = true) (ha : axUsed s n = true)
    (he : (getAxis s n).enabled = true) (hs : axStill (getAxis s n) = true) (hh : (getAxis s n).holding = false)
    (ht : (getAxis s n).stillSince + axNat s n 0x19 * msNs ≤ (advance t s).now) :
    exec (.holdDelay t n) s = .next (holdDelayed n (advance t s)) :=
  congrArg Host.Outcome.next (if_pos (and_eq_true_of (and_eq_true_of (and_eq_true_of (and_eq_true_of (and_eq_true_of hi ha) he) hs)
    (congrArg not hh)) (decide_eq_true ht)))

/-- An axis whose drive's fault is cleared. -/
noncomputable def faultCleared (x : Axis) : Axis := { x with driveFault := false, openCoil := false }

theorem energise_field (p : Axis → Bool) (n : Nat) (s : State)
    (hp : ∀ (x : Axis) v, p { x with enabled := true, valid := v, holding := false } = p x) :
    p (getAxis (energise n s) n) = p (getAxis s n) :=
  getAxis_modAxis_field p n _ s n (fun x => hp x _)

theorem retried_own (n : Nat) (s : State) : (getAxis (energise n (modAxis n faultCleared s)) n).enabled = true ∧
    (getAxis (energise n (modAxis n faultCleared s)) n).driveFault = false ∧
    (getAxis (energise n (modAxis n faultCleared s)) n).openCoil = false := by
  have hcleared : getAxis (modAxis n faultCleared s) n = faultCleared (getAxis s n) := getAxis_modAxis_own ..
  exact ⟨congrArg Axis.enabled (getAxis_modAxis_own ..),
    (energise_field Axis.driveFault _ _ (fun _ _ => rfl)).trans (congrArg Axis.driveFault hcleared),
    (energise_field Axis.openCoil _ _ (fun _ _ => rfl)).trans (congrArg Axis.openCoil hcleared)⟩

theorem endHoming_homeless {n result : Nat} {s : State} (h : (getAxis s n).homing ≠ 0) (hr : result ≠ 1) :
    (getAxis (endHoming n result true s) n).homing = 0 ∧ (getAxis (endHoming n result true s) n).homeResult = result ∧
      (getAxis (endHoming n result true s) n).homeFailed = true ∧ (getAxis (endHoming n result true s) n).valid = false := by
  rw [endHoming_own h]
  exact ⟨rfl, rfl, decide_eq_true hr, decide_eq_false hr⟩

/-- Settles O38, by the five rows. -/
theorem drivesHoldFaultAndRetry : Obligations.DrivesHoldFaultAndRetry := by
  intro t n s v x
  refine ⟨fun hu hh ht => ?_, fun hi ha he hs hh ht => ?_, fun k hu ha hl hk => ?_, fun temp hu hf ht hc hen hr hs => ?_,
    fun ha hs => ?_⟩
  · exact ⟨_, congrArg Host.Outcome.next (if_pos (and_eq_true_of (and_eq_true_of hu (bne_iff_ne.2 hh)) (decide_eq_true ht))),
      endHoming_homeless (s := v) hh (by decide)⟩
  · exact ⟨_, execHoldDelay_holds hi ha he hs hh ht, holdDelayed_holding .., holdDelayed_lost (s := v), holdDelayed_kept (s := v)⟩
  · exact ⟨_, congrArg Host.Outcome.next (driveFaultState_live (s := v) hu ha hl hk), retireDue_faulted (driveFaultRecorded_faulted ..)⟩
  · exact ⟨_, congrArg Host.Outcome.next (if_pos ⟨hu, hf, ht, hc, hen, congrArg not hr, congrArg not hs⟩), retried_own n v⟩
  · have hown := (getAxis_losePos n 7 v n).trans (if_pos rfl)
    exact ⟨_, congrArg Host.Outcome.next (if_pos (and_eq_true_of ha (decide_eq_true hs))), congrArg Axis.valid hown,
      congrArg Axis.lost hown⟩

end Sys2Proof.Machine
end

section
/-! SUPPORT. Analogue channels: chip faults, the conditions of the loop, the partner's mismatch, and what lands under a mapping
record of TYPE BOOL (13 R309, R319, R321, R326; 07 Table 7.1). -/

set_option Elab.async false
set_option cleanup.letToHave false

namespace Sys2Proof.Machine

theorem Untouched.getAio {ps : List Part} {s t : State} (h : Untouched ps s t) (ha : Part.aio ∉ ps) (j : Nat) :
    getAio t j = getAio s j :=
  congrArg (fun a => Tbl.get a ({} : Aio) j) (h.same .aio ha)

theorem getAio_modAio_own (n : Nat) (f : Aio → Aio) (s : State) : getAio (modAio n f s) n = f (getAio s n) :=
  (getAio_modAio ..).trans (if_pos rfl)

theorem getAio_modAio_field {α : Type} (p : Aio → α) (n : Nat) (f : Aio → Aio) (s : State) (j : Nat)
    (hf : ∀ x, p (f x) = p x) : p (getAio (modAio n f s) j) = p (getAio s j) := by
  refine (congrArg p (getAio_modAio ..)).trans (iteInduction (motive := fun x => p x = p (getAio s j)) (fun h => ?_) (fun _ => rfl))
  exact h ▸ hf _

/-! ### Chip faults (13 R321) -/

/-- What a chip fault changes of a channel: what is applied, the mismatch timer, the lifetime count. -/
noncomputable def faultState (a : Aio) : Real32 × Option Nat × Nat := (a.applied, a.mismatchAt, a.lifetime)

theorem settleSource_faultState (ch : Nat) (s : State) : faultState (getAio (settleSource ch s) ch) = faultState (getAio s ch) :=
  getAio_modAio_field faultState ch _ s ch (fun _ => rfl)

/-- Retirement leaves a faulted channel at MIN. -/
theorem retireAio_faulted {k ch : Nat} (cal : Bool) {s : State} (h : faultState (getAio s ch) = (0, none, k)) :
    faultState (getAio (retireAio ch cal s) ch) = (0, none, k) := by
  have hlisted : faultState (getAio (listRetired kindAio ch cal s) ch) = (0, none, k) :=
    (congrArg faultState ((listRetired_frame ..).getAio (by decide) ch)).trans h
  refine (congrArg faultState ((requalAio_frame ..).getAio (by decide) ch)).trans ((settleSource_faultState ..).trans
    (iteInduction (motive := fun y => faultState (getAio y ch) = (0, none, k)) (fun _ => ?_) (fun _ => hlisted)))
  rw [getAio_modAio_own]
  exact congrArg (fun p : Real32 × Option Nat × Nat => ((0 : Real32), (none : Option Nat), p.2.2)) hlisted

theorem chipFault_faulted (ch variant : Nat) (s : State) : faultState (getAio (chipFault ch variant s) ch) =
    (0, none, sat 32 ((getAio s ch).lifetime + 1)) := by
  unfold chipFault
  dsimp only
  generalize hx : modAio ch _ (emit _ _ _ s) = x
  have hfaulted : faultState (getAio x ch) = (0, none, sat 32 ((getAio s ch).lifetime + 1)) :=
    hx ▸ (congrArg faultState (getAio_modAio_own ..)).trans
      (congrArg (fun a : Aio => ((0 : Real32), (none : Option Nat), sat 32 (a.lifetime + 1))) ((emit_frame ..).getAio (by decide) ch))
  exact iteInduction (motive := fun y => faultState (getAio y ch) = (0, none, sat 32 ((getAio s ch).lifetime + 1)))
    (fun _ => retireAio_faulted _ hfaulted) (fun _ => hfaulted)

theorem execReadbackMismatch_due {t t0 : Nat} {ch : Fin 32} {s : State} (hm : (getAio s ch).mismatchAt = some t0)
    (hr : regulating s ch = true) (ht : t0 + 50 * msNs ≤ (advance t s).now) :
    exec (.readbackMismatch t ch) s = .next (chipFault ch 1 (advance t s)) := by
  have hm' : (getAio (advance t s) ch).mismatchAt = some t0 := hm
  change execReadbackMismatch t ch s = _
  delta execReadbackMismatch
  dsimp only
  rw [hm']
  exact congrArg Host.Outcome.next (if_pos (Bool.and_eq_true_iff.2 ⟨hr, decide_eq_true ht⟩))

theorem aoApply_reinit (ch : Nat) (s : State) : (getAio (aoApply ch s) ch).reinit = (getAio s ch).reinit :=
  getAio_modAio_field Aio.reinit ch _ s ch (fun _ => rfl)

theorem execChannelChipReinitialised_resumes {t : Nat} {ch : Fin 32} {s : State} (h : (getAio s ch).reinit = true) :
    ∃ u, exec (.channelChipReinitialised t ch) s = .next u ∧ (getAio u ch).reinit = false := by
  have hresumed : (getAio (modAio ch (fun a => { a with reinit := false }) (advance t s)) ch).reinit = false :=
    congrArg Aio.reinit (getAio_modAio_own ..)
  exact ⟨_, congrArg Host.Outcome.next (if_pos h), iteInduction (motive := fun y => (getAio y ch).reinit = false)
    (fun _ => (aoApply_reinit ..).trans hresumed) (fun _ => hresumed)⟩

/-! ### Conditions and the partner's mismatch (13 R319, R326) -/

theorem selfTestFailed_count (row : Nat) (s : State) :
    Tbl.get (selfTestFailed row s).pair.selftest 0 row = (Tbl.get s.pair.selftest 0 row + 1) % 2 ^ 32 :=
  (Tbl.get_modify s.pair.selftest 0 row row fun c => (c + 1) % 2 ^ 32).trans (if_pos rfl)

/-- A channel whose partner's mismatch is found. -/
noncomputable def partnerFound (a : Aio) : Aio := { a with partnerMismatch := true }

theorem execPartnerMismatch_found {t t0 : Nat} {ch : Fin 32} {s : State} (ha : isAo s ch = true) (hp : aioPass s ch = true)
    (hf : (getAio s ch).partnerMismatch = false) (hs : (getAio s ch).partnerAt = some t0)
    (ht : t0 + 50 * msNs ≤ (advance t s).now) :
    exec (.partnerMismatch t ch true) s = .next
      (selfTestFailed 5 (modAio ch partnerFound (advance t s))) := by
  have hs' : (getAio (advance t s) ch).partnerAt = some t0 := hs
  have hfound : (getAio (advance t s) ch).partnerAt.any (fun t0 => decide (t0 + 50 * msNs ≤ (advance t s).now)) = true := by
    rw [hs', Option.any_some, decide_eq_true ht]
  exact congrArg Host.Outcome.next (if_pos (and_eq_true_of (and_eq_true_of (and_eq_true_of ha hp) (congrArg not hf)) hfound))

/-- Settles O36, by the five rows. -/
theorem analogueFaultsAndConditions : Obligations.AnalogueFaultsAndConditions := by
  intro t ch s v a
  refine ⟨fun t0 hm hr ht => ?_, execChannelChipReinitialised_resumes, fun cond present ha hp => ⟨fun hf hd => ?_, fun h => ?_⟩,
    fun t0 ha hp hf hs ht => ?_, fun h => ?_⟩
  · exact ⟨_, execReadbackMismatch_due hm hr ht, congrArg Prod.fst (chipFault_faulted ch 1 v),
      (congrArg (·.2.1) (chipFault_faulted ch 1 v) :), (congrArg (·.2.2) (chipFault_faulted ch 1 v) :)⟩
  · exact congrArg Host.Outcome.next (if_pos (and_eq_true_of (and_eq_true_of (and_eq_true_of ha (bne_iff_ne.2 hf)) hd) (congrArg not hp)))
  · refine congrArg Host.Outcome.next (if_neg fun k => ?_)
    have hdue := Bool.and_eq_true_iff.1 (Bool.and_eq_true_iff.1 k).1
    exact h.elim (bne_iff_ne.1 (Bool.and_eq_true_iff.1 hdue.1).2) (fun e => not_of_eq_false e hdue.2)
  · exact ⟨_, execPartnerMismatch_found ha hp hf hs ht, (congrArg Aio.partnerMismatch ((selfTestFailed_frame ..).getAio (by decide) ch)).trans
      (congrArg Aio.partnerMismatch (getAio_modAio_own ch partnerFound v)), selfTestFailed_count 5 _⟩
  · exact congrArg Host.Outcome.next ((if_neg Bool.false_ne_true).trans (if_neg fun k => h.elim
      (fun e => not_of_eq_false (congrArg Option.isSome e) (Bool.and_eq_true_iff.1 k).1)
      (fun e => not_of_eq_false e (Bool.and_eq_true_iff.1 k).2)))

/-! ### An input channel under a record of TYPE BOOL -/

/-- AIO channel 0 is an input with a trim offset that is no number; its one mapping record maps it to point 0 with TYPE BOOL. -/
noncomputable def boolOverLoop : Tbl (List Byte) :=
  [(objKey 0x2900 1, [2, 1, 0, 0, 0, 0, 0, 0, 1, 0, 0, 0, 0, 0, 0, 0]), (objKey 0x3200 1, [1]), (objKey 0x3200 3, [0, 0]),
    (objKey 0xC400 1, [0, 0, 0xC0, 0x7F, 0, 0, 0, 0])]

/-- A module that runs with it, whatever its channels hold. -/
noncomputable def loopOverBool (a : Tbl Aio) : State :=
  { State.reset with aio := a, config := boolOverLoop, pwr := { State.reset.pwr with phase := .up, domains := 0xFFF } }

theorem fpAdd_nan (a : Nat) : fpAdd fmt32 a 0x7FC00000 = 0x7FC00000 := by
  delta fpAdd
  cases fpDecode fmt32 a <;> rfl

/-- Whatever the factory constants, a channel whose trim offset is no number reports none. -/
theorem aioReported_loopOverBool (i : Real32) : aioReported (loopOverBool []) 0 i = 0x7FC00000 :=
  (if_neg (by decide)).trans (congrArg (BitVec.ofNat 32) (fpAdd_nan _))

/-- A production on the point leaves no bit of it but bit 0. -/
theorem produceAs_bool (a : Tbl Aio) (v : BitVec 32) (q : Nat) (ts : Int) :
    (underlying (produceAs 0 v q ts (loopOverBool a)) 0).value = v &&& 1 :=
  (congrArg (fun y => (underlying y 0).value) (if_pos (c := isMapped (loopOverBool a) 0 = true) rfl)).trans
    ((congrArg Pt.value ((if_pos (c := isMapped (loopOverBool a) 0 = true) rfl).trans ((Tbl.get_put ..).trans (if_pos rfl)))).trans
      (if_pos (c := pointType (loopOverBool a) 0 = 1) (e := v) rfl))

/-- So does a conversion of the channel. -/
theorem landOwnAio_bool {x : State} (h : loopOverBool x.aio = x) (stamp : Int) :
    ∃ v, (underlying (landOwnAio 0 stamp x) 0).value = v &&& 1 :=
  have hland (a : Tbl Aio) : ∃ v, (underlying (landOwnAio 0 stamp (loopOverBool a)) 0).value = v &&& 1 :=
    ⟨_, (congrArg (fun y => (underlying y 0).value) (if_pos (by decide : (aioUp (loopOverBool []) && landsOwn (loopOverBool [])) = true))).trans
      (produceAs_bool _ _ _ _ :)⟩
  h ▸ hland x.aio

theorem aioConversionState_bool (code : Int) (env : ConvEnv) :
    ∃ v, (underlying (aioConversionState 0 code env (advance 0 (loopOverBool []))) 0).value = v &&& 1 :=
  iteInduction (c := aioMode (advance 0 (loopOverBool [])) 0 = 0 ∨
      (getAio (advance 0 (loopOverBool [])) 0).convAt = some (gridAt (advance 0 (loopOverBool [])) msNs)) (t := advance 0 (loopOverBool []))
    (motive := fun y => ∃ v, (underlying y 0).value = v &&& 1) (fun h => absurd h (by decide)) (fun _ => landOwnAio_bool rfl _)

/-- No conversion of the channel of `loopOverBool` lands what the channel reports. -/
theorem loopOverBool_reports {code : Int} {env : ConvEnv} {u : State} {i : Real32}
    (hu : aioConversionState 0 code env (advance 0 (loopOverBool [])) = u)
    (hland : (underlying u 0).value = aioReported (loopOverBool []) 0 i) : False :=
  (aioConversionState_bool code env).elim fun _ hv => Bool.noConfusion ((congrArg (BitVec.getLsbD · 22)
    ((aioReported_loopOverBool i).symm.trans (hland.symm.trans (hu ▸ hv)))).trans ((BitVec.getLsbD_and ..).trans (Bool.and_false _)) : true = false)

/-- Refutes O35: nothing in the statement keeps a mapping record of TYPE BOOL off an AIO channel. Over such a record the point
of a channel keeps bit 0 of the reported value alone, and the quiet NaN that the channel of `loopOverBool` reports, whatever
its factory constants, has other bits. -/
theorem not_analogueChannelsConvertAndDrive : ¬ Obligations.AnalogueChannelsConvertAndDrive := fun h =>
  ((h 0 0 (loopOverBool []) (by decide)).1 0 ⟨0, .regulating⟩ (by decide) (by decide) (by decide) (by decide) (by decide)).elim
    fun _ hu => loopOverBool_reports (Host.Outcome.next.inj hu.1) (congrArg Pt.value (hu.2.2.2 0 (by decide)))

end Sys2Proof.Machine
end

section
/-! SUPPORT. An orderly switchover that begins between the last command and a tick of the motion unit (14 R336; 16 R402). -/

set_option Elab.async false
set_option cleanup.letToHave false

namespace Sys2Proof.Machine

/-- Axis 0 of a single unit in RUN, released to a target of 1000, with an orderly switchover from 0.1 ms on. -/
noncomputable def handsOverSoon : State :=
  { State.reset with
    config := [(objKey 0x2900 1, [3, 4, 1, 0, 0, 0, 0, 0, 1, 0, 0, 0, 0, 0, 0, 0]), (objKey 0x3400 1, [1])]
    pwr := { State.reset.pwr with phase := .up, domains := 0xFFF }
    prog := { State.reset.prog with mode := .run, released := [(0, 1000)] }
    img := { State.reset.img with points := [(0, { value := 1000, qual := 0 })] }
    mot := { State.reset.mot with axes := [(0, { target := 1000, lastTarget := some 1000, enabled := true })] }
    pair := { State.reset.pair with handing := some { trigger := 3, session := 8, at_ := 100000 } } }

/-- At 0.125 ms the releases are held, and the axis stands. -/
theorem motionTick_handsOverSoon : (getAxis (motionTickState (advance 125000 handsOverSoon)) 0).v = 0 := by decide +kernel

/-- Refutes O37: the statement asks that releases are not held in the state before the command, not at its instant. In
`handsOverSoon` they are held from 0.1 ms on, so that the tick at 0.125 ms plans no interval. -/
theorem not_axesTakeCommandsAndPlanTheirMoves : ¬ Obligations.AxesTakeCommandsAndPlanTheirMoves := fun h =>
  (h.2.2.1 125000 0 0 ⟨3, 4, 1, 0, 0, 1, 0, 0, 0⟩ 1000 handsOverSoon (by decide) (by decide) rfl rfl rfl rfl rfl rfl
    rfl rfl rfl rfl rfl rfl (by decide) rfl (by decide) rfl rfl rfl rfl rfl rfl rfl rfl rfl (by decide) (by decide)).elim
    fun _ hu => absurd (motionTick_handsOverSoon.symm.trans ((congrArg (fun y => (getAxis y 0).v) (Host.Outcome.next.inj hu.1)).trans
      hu.2.2.1)) (by decide +kernel)

end Sys2Proof.Machine
end

section
/-! SUPPORT. CAN ports and their buffers: the counters' levels, the frame on the bus, and what errors and a recovery leave
(15 R364, R367, R376, R379 to R381). -/

set_option Elab.async false
set_option cleanup.letToHave false

namespace Sys2Proof.Machine

/-! ### Reading ports and buffers -/

theorem getPort_modPort_own (p : Nat) (f : CanPort → CanPort) (s : State) : getPort (modPort p f s) p = f (getPort s p) :=
  (getPort_modPort ..).trans (if_pos rfl)

theorem getBuf_modBuf_own (p b : Nat) (f : CanBuf → CanBuf) (s : State) : getBuf (modBuf p b f s) p b = f (getBuf s p b) :=
  (Tbl.get_modify ..).trans (if_pos rfl)

theorem modBuf_cases {P : CanBuf → Prop} {p b j : Nat} {f : CanBuf → CanBuf} {s : State} (h : P (getBuf s p j))
    (hf : j = b → P (f (getBuf s p b))) : P (getBuf (modBuf p b f s) p j) := by
  refine (congrArg P (Tbl.get_modify ..)).mpr (iteInduction (motive := P) (fun e => hf (Nat.add_left_cancel e)) (fun _ => h))

theorem modBuf_induct {P : CanBuf → Prop} {p b j : Nat} {f : CanBuf → CanBuf} {s : State} (h : P (getBuf s p j))
    (hf : P (getBuf s p b) → P (f (getBuf s p b))) : P (getBuf (modBuf p b f s) p j) :=
  modBuf_cases h fun e => hf (e ▸ h)

theorem Untouched.getPort {ps : List Part} {s t : State} (h : Untouched ps s t) (hc : Part.can ∉ ps) (p : Nat) :
    getPort t p = getPort s p :=
  congrArg (fun c : CanPart => Tbl.get c.ports {} p) (h.same .can hc)

theorem Untouched.getBuf {ps : List Part} {s t : State} (h : Untouched ps s t) (hc : Part.can ∉ ps) (p b : Nat) :
    getBuf t p b = getBuf s p b :=
  congrArg (fun c : CanPart => Tbl.get c.bufs {} (p * 128 + b)) (h.same .can hc)

/-- Where two ports agree but for what `g` takes away, they agree in every field that `g` leaves. -/
theorem field_of {α : Type} (g : CanPort → CanPort) (f : CanPort → α) {x y : CanPort} (hf : ∀ x, f (g x) = f x) (h : g x = g y) :
    f x = f y :=
  (hf x).symm.trans ((congrArg f h).trans (hf y))

/-- A condition under which a port's event acts. -/
theorem not_refused {a b c : Bool} (ha : a = true) (hb : b = true) (hc : c = false) : ¬(!a || !b || c) = true := by
  rw [ha, hb, hc]
  exact Bool.false_ne_true

/-! ### Levels and the bus (15 R366, R376, R379) -/

/-- A port but for the levels of its counters and its secondary sample point. -/
noncomputable def portCore (x : CanPort) : CanPort := { x with warning := false, passive := false, ssp := none }

/-- The core of one port, and the buffers. -/
noncomputable def canCore (p : Nat) (c : CanPart) : CanPort × Tbl CanBuf := (portCore (Tbl.get c.ports {} p), c.bufs)

theorem modPort_core {p : Nat} {f : CanPort → CanPort} {s : State} (hf : ∀ x, portCore (f x) = portCore x) :
    canCore p (modPort p f s).can = canCore p s.can :=
  congrArg (·, s.can.bufs) ((congrArg portCore (getPort_modPort_own p f s)).trans (hf _))

theorem emits_core {p : Nat} {s t : State} (h : canCore p t.can = canCore p s.can) (b c : Bool) (x y z : Nat) (d : List Byte) :
    canCore p (if b then emit x z d t else if c then emit y z d t else t).can = canCore p s.can :=
  iteInduction (motive := fun y : State => canCore p y.can = canCore p s.can)
    (fun _ => (congrArg (canCore p) ((emit_frame ..).same .can (by decide))).trans h)
    (fun _ => iteInduction (motive := fun y : State => canCore p y.can = canCore p s.can)
      (fun _ => (congrArg (canCore p) ((emit_frame ..).same .can (by decide))).trans h) (fun _ => h))

theorem canLevels_core (p : Nat) (s : State) : canCore p (canLevels p s).can = canCore p s.can :=
  have hmod (w q : Bool) : canCore p (modPort p (fun x => { x with warning := w, passive := q }) s).can = canCore p s.can :=
    modPort_core fun _ => rfl
  emits_core (emits_core (hmod _ _) ..) ..

theorem canLevels_buf (p b : Nat) (s : State) : getBuf (canLevels p s) p b = getBuf s p b :=
  congrArg (fun c : CanPort × Tbl CanBuf => Tbl.get c.2 {} (p * 128 + b)) (canLevels_core p s)

theorem placeSsp_core (p b : Nat) (s : State) : canCore p (placeSsp p b s).can = canCore p s.can :=
  iteInduction (motive := fun y : State => canCore p y.can = canCore p s.can)
    (fun _ => iteInduction (motive := fun y : State => canCore p y.can = canCore p s.can) (fun _ => modPort_core fun _ => rfl)
      (fun _ => modPort_core fun _ => rfl))
    (fun _ => rfl)

theorem placeSsp_buf (p b j : Nat) (s : State) : getBuf (placeSsp p b s) p j = getBuf s p j :=
  congrArg (fun c : CanPort × Tbl CanBuf => Tbl.get c.2 {} (p * 128 + j)) (placeSsp_core p b s)

/-- The winner of an arbitration is one of those that took part. -/
theorem arbitration_among (key : Nat → Nat) {Q : Nat → Prop} {l : List Nat} (hl : ∀ a ∈ l, Q a) : ∀ b,
    l.foldl (fun w b => match w with
      | none => some b
      | some a => if key b < key a then some b else some a) none = some b → Q b := by
  refine List.foldlRecOn (motive := fun w : Option Nat => ∀ b, w = some b → Q b) l _ (fun _ h => (Option.some_ne_none _ h.symm).elim)
    (fun w hw a ha => ?_)
  cases w with
  | none => exact fun c hc => Option.some.inj hc ▸ hl a ha
  | some c =>
    exact iteInduction (motive := fun w => ∀ b, w = some b → Q b) (fun _ d hd => Option.some.inj hd ▸ hl a ha) (fun _ => hw)

theorem canWinner_queued {s : State} {p b : Nat} (h : canWinner s p = some b) : (getBuf s p b).state = 2 :=
  arbitration_among (Q := fun b => (getBuf s p b).state = 2) _ (fun _ ha =>
    eq_of_beq (Bool.and_eq_true_iff.1 (Bool.and_eq_true_iff.1 (List.mem_filter.1 ha).2).1).1) b h

/-- A buffer with its frame on the bus. -/
noncomputable def onBusBuf (d : List Byte) (y : CanBuf) : CanBuf := { y with state := 1, onBus := some d }

/-- The frame of a buffer goes on the bus. -/
noncomputable def offered (p b : Nat) (s : State) : State :=
  send (.can p b (canSendId s p b) (canSendData s p b)) (modBuf p b (onBusBuf (canSendData s p b)) (placeSsp p b s))

/-- The port offers nothing, or a queued buffer's frame is on the bus. -/
theorem canOffer_induct {P : State → Prop} {p : Nat} {s : State} (h : P s)
    (hb : ∀ b, (getBuf s p b).state = 2 → P (offered p b s)) : P (canOffer p s) := by
  refine iteInduction (motive := P) (fun _ => h) (fun _ => ?_)
  cases hw : canWinner s p with
  | none => exact h
  | some b => exact hb b (canWinner_queued hw)

theorem canOffer_port (p : Nat) (s : State) : portCore (getPort (canOffer p s) p) = portCore (getPort s p) :=
  canOffer_induct (P := fun y => portCore (getPort y p) = portCore (getPort s p)) rfl fun b _ =>
    (congrArg portCore ((send_frame ..).getPort (by decide) p)).trans (congrArg Prod.fst (placeSsp_core p b s))

/-- What holds of a buffer is still so where it holds with the queued frame on the bus. -/
theorem canOffer_buf {P : CanBuf → Prop} {p j : Nat} {s : State} (h : P (getBuf s p j))
    (hb : ∀ y, P y → y.state = 2 → ∀ d, P (onBusBuf d y)) : P (getBuf (canOffer p s) p j) := by
  refine canOffer_induct (P := fun y => P (getBuf y p j)) h fun b h2 => ?_
  exact ((send_frame ..).getBuf (by decide) p j).symm ▸ modBuf_induct ((placeSsp_buf p b j s).symm ▸ h)
    fun hy => hb _ hy ((congrArg CanBuf.state (placeSsp_buf p b b s)).trans h2) _

/-- The port's frame on the bus, if any, is over: its buffer keeps its frames and its flags. -/
theorem canLost_induct {P : State → Prop} {p : Nat} {s : State} (h : P s)
    (hb : ∀ b f, (getBuf s p b).onBus.isSome = true → (∀ y, (f y).collision = y.collision ∧ (f y).rx = y.rx) → P (modBuf p b f s)) :
    P (canLost p s) := by
  delta canLost
  cases hbus : canOnBus s p with
  | none => exact h
  | some b =>
    have hsome : (getBuf s p b).onBus.isSome = true := List.find?_some (p := fun b => (getBuf s p b).onBus.isSome) hbus
    exact iteInduction (motive := P) (fun _ => h) fun _ => iteInduction (motive := P) (fun _ => hb _ _ hsome fun _ => ⟨rfl, rfl⟩)
      fun _ => hb _ _ hsome fun _ => ⟨rfl, rfl⟩

/-! ### A buffer whose frame collided (15 R381) -/

/-- A buffer shows the collision, and is disabled and off the bus where it is configured so. -/
noncomputable def Collided (dis : Bool) (y : CanBuf) : Prop := y.collision = true ∧ (dis = true → y.state = 4 ∧ y.onBus = none)

/-- A change of a buffer that has a frame queued or on the bus does not reach a disabled one. -/
theorem Collided.modBuf {dis : Bool} {p b j : Nat} {f : CanBuf → CanBuf} {s : State} (h : Collided dis (getBuf s p b))
    (hf : ∀ y, (f y).collision = y.collision) (hm : (getBuf s p j).state = 2 ∨ (getBuf s p j).onBus.isSome = true) :
    Collided dis (getBuf (modBuf p j f s) p b) := by
  refine modBuf_induct h fun h => ⟨(hf _).trans h.1, fun hd => ?_⟩
  exact hm.elim (fun h2 => absurd ((h.2 hd).1.symm.trans h2) (by decide))
    (fun hs => absurd ((congrArg Option.isSome (h.2 hd).2).symm.trans hs) Bool.false_ne_true)

theorem Collided.canLost {dis : Bool} {p b : Nat} {s : State} (h : Collided dis (getBuf s p b)) :
    Collided dis (getBuf (canLost p s) p b) :=
  canLost_induct (P := fun y => Collided dis (getBuf y p b)) h fun _ _ hsome hf => h.modBuf (fun y => (hf y).1) (.inr hsome)

theorem Collided.canOffer {dis : Bool} {p b : Nat} {s : State} (h : Collided dis (getBuf s p b)) :
    Collided dis (getBuf (canOffer p s) p b) :=
  canOffer_buf h fun _ h h2 _ => ⟨h.1, fun hd => absurd ((h.2 hd).1.symm.trans h2) (by decide)⟩

/-! ### Bus-off (15 R380) -/

/-- A port that has entered bus-off. -/
noncomputable def busOffPort (fl : Nat) (x : CanPort) : CanPort :=
  { x with busOff := true, passive := false, busOffs := (x.busOffs + 1) % 2 ^ 32, recovering := bitOf fl 1 }

/-- What a bus-off does to a buffer with a frame queued or on the bus. -/
noncomputable def busOffBuf (fl b p : Nat) (s : State) : State :=
  if (getBuf s p b).state = 2 ∨ (getBuf s p b).onBus.isSome then
    if bitOf fl 2 then modBuf p b (fun y => { y with state := 1, onBus := none, flushed := true }) s
    else modBuf p b (fun y => { y with state := 3, onBus := none }) s
  else s

theorem busOffBuf_induct {P : State → Prop} {fl p b : Nat} {s : State} (h : P s)
    (hb : ∀ f, (getBuf s p b).state = 2 ∨ (getBuf s p b).onBus.isSome = true → (∀ y, (f y).collision = y.collision) →
      P (modBuf p b f s)) : P (busOffBuf fl b p s) :=
  iteInduction (motive := P) (fun hm => iteInduction (motive := P) (fun _ => hb _ hm fun _ => rfl) (fun _ => hb _ hm fun _ => rfl))
    (fun _ => h)

theorem busOffEnter_port (p : Nat) (s : State) : getPort (busOffEnter p s) p = busOffPort (canFlags s p) (getPort s p) :=
  ((emit_frame ..).getPort (by decide) p).trans (forAll_induct
    (P := fun y => getPort y p = busOffPort (canFlags s p) (getPort s p)) _ (busOffBuf (canFlags s p) · p)
    (fun _ _ h => busOffBuf_induct (P := fun y => getPort y p = _) h fun _ _ _ => h) (modPort p (busOffPort (canFlags s p)) s) (getPort_modPort_own ..))

theorem Collided.busOffEnter {dis : Bool} {p b : Nat} {s : State} (h : Collided dis (getBuf s p b)) :
    Collided dis (getBuf (busOffEnter p s) p b) := by
  delta Machine.busOffEnter
  rw [(emit_frame ..).getBuf (by decide)]
  exact forAll_induct (P := fun y => Collided dis (getBuf y p b)) _ (busOffBuf (canFlags s p) · p)
    (fun _ _ hy => busOffBuf_induct (P := fun y => Collided dis (getBuf y p b)) hy fun _ hm hf => hy.modBuf hf hm) _ h

/-! ### Errors (15 R379, R381) -/

/-- A port with its collisions counted. -/
noncomputable def withCollisions (c : Nat) (x : CanPort) : CanPort := { x with collisions := c }

/-- A buffer whose frame collided. -/
noncomputable def collidedBuf (dis : Bool) (y : CanBuf) : CanBuf :=
  { y with bitErrors := [], collision := true, state := if dis then 4 else y.state, onBus := if dis then none else y.onBus }

/-- The third bit error of a buffer's frame is a collision. -/
noncomputable def bitCollided (p b : Nat) (s : State) : State :=
  let l := s.now :: (getBuf s p b).bitErrors.filter (fun t => s.now - t < secNs)
  let s := modBuf p b (fun y => { y with bitErrors := l }) s
  let id := canSendId s p b
  let s := modBuf p b (collidedBuf (bitOf (bufRec s p b).flags 5)) s
  emit 0x7100 (canSource p b) (leBytes 4 id) (modPort p (fun y => withCollisions ((y.collisions + 1) % 2 ^ 32) y) s)

theorem bitCollided_port (p b : Nat) (s : State) : getPort (bitCollided p b s) p =
    withCollisions (((getPort s p).collisions + 1) % 2 ^ 32) (getPort s p) :=
  ((emit_frame ..).getPort (by decide) p).trans (getPort_modPort_own ..)

theorem bitCollided_buf (p b : Nat) (s : State) : Collided (bitOf (bufRec s p b).flags 5) (getBuf (bitCollided p b s) p b) := by
  have hbuf : getBuf (bitCollided p b s) p b = collidedBuf (bitOf (bufRec s p b).flags 5) (getBuf (modBuf p b _ s) p b) :=
    ((emit_frame ..).getBuf (by decide) p b).trans (getBuf_modBuf_own ..)
  rw [hbuf]
  exact ⟨rfl, fun hd => ⟨if_pos hd, if_pos hd⟩⟩

/-- A bit error of the buffer on the bus, if there is one, is counted. -/
noncomputable def bitErrorAt (p : Nat) (kind : CanErr) (tx : Bool) (spot : CanSpot) (s : State) : Option Nat → State
  | some b =>
    if tx && decide (spot = .dataCrc) && (decide (kind = .bit1) || decide (kind = .bit0)) then bitErrorCounted p b s else s
  | none => s

noncomputable def bitErrorSeen (p : Nat) (kind : CanErr) (tx : Bool) (spot : CanSpot) (s : State) : State :=
  bitErrorAt p kind tx spot s (canOnBus s p)

/-- Of the port nothing changes but the collisions. -/
noncomputable def OnlyCollides (p : Nat) (s t : State) : Prop :=
  getPort t p = withCollisions (getPort t p).collisions (getPort s p)

theorem bitErrorSeen_port (p : Nat) (kind : CanErr) (tx : Bool) (spot : CanSpot) (s : State) :
    OnlyCollides p s (bitErrorSeen p kind tx spot s) := by
  unfold bitErrorSeen
  cases canOnBus s p with
  | none => exact rfl
  | some b =>
    have hcollided : OnlyCollides p s (bitCollided p b s) :=
      (bitCollided_port p b s).trans (congrArg (fun x : CanPort => withCollisions x.collisions _) (bitCollided_port p b s)).symm
    exact iteInduction (fun _ => iteInduction (motive := OnlyCollides p s) (fun _ => rfl) (fun _ => hcollided)) (fun _ => rfl)

theorem bitErrorSeen_third {p b : Nat} {kind : CanErr} {tx : Bool} {spot : CanSpot} {s : State} (htx : tx = true)
    (hspot : spot = .dataCrc) (hkind : kind = .bit0 ∨ kind = .bit1) (hb : canOnBus s p = some b)
    (h : 2 ≤ ((getBuf s p b).bitErrors.filter (fun i => s.now - i < 1000000000)).length) :
    bitErrorSeen p kind tx spot s = bitCollided p b s :=
  (congrArg (bitErrorAt p kind tx spot s) hb).trans ((if_pos (and_eq_true_of (and_eq_true_of htx (decide_eq_true hspot))
    (Bool.or_eq_true_iff.2 (hkind.symm.imp decide_eq_true decide_eq_true)))).trans (if_neg (Nat.not_lt.2 (Nat.succ_le_succ h))))

/-- A port after an error, with its counters. -/
noncomputable def errorPort (kind : CanErr) (tec rec_ col : Nat) (x : CanPort) : CanPort :=
  { x with errors := (x.errors + 1) % 2 ^ 32, lastError := kind.num, tec := tec, rec_ := rec_, collisions := col }

/-- The error is counted, with its kind. -/
noncomputable def errorNoted (p : Nat) (kind : CanErr) (s : State) : State :=
  modPort p (fun x => errorPort kind x.tec x.rec_ x.collisions x) s

/-- An error raises the counter of its side. -/
noncomputable def errorRaised (kind : CanErr) (tx : Bool) (spot : CanSpot) (x : CanPort) : CanPort :=
  if tx then (if kind = .ack ∧ x.passive then x else { x with tec := x.tec + 8 })
  else { x with rec_ := min 255 (x.rec_ + (if spot = .flag then 8 else 1)) }

theorem errorRaised_errorPort (kind : CanErr) (tx : Bool) (spot : CanSpot) (c : Nat) (x : CanPort) :
    errorRaised kind tx spot (errorPort kind x.tec x.rec_ c x) = errorPort kind
      (if tx then if kind = .ack ∧ x.passive then x.tec else x.tec + 8 else x.tec)
      (if tx then x.rec_ else min 255 (x.rec_ + (if spot = .flag then 8 else 1))) c x := by
  cases tx with
  | false => rfl
  | true => exact (apply_ite (errorPort kind · x.rec_ c x) (kind = .ack ∧ x.passive) x.tec (x.tec + 8)).symm

/-- The counters have risen, and the frame on the bus is over. -/
noncomputable def errorCounted (p : Nat) (kind : CanErr) (tx : Bool) (spot : CanSpot) (s : State) : State :=
  canLevels p (modPort p (errorRaised kind tx spot) (canLost p (bitErrorSeen p kind tx spot (errorNoted p kind s))))

/-- The port after an error. -/
noncomputable def portErred (p : Nat) (kind : CanErr) (tx : Bool) (spot : CanSpot) (s : State) : CanPort :=
  let x := getPort s p
  errorPort kind (if tx then if kind = .ack ∧ x.passive then x.tec else x.tec + 8 else x.tec)
    (if tx then x.rec_ else min 255 (x.rec_ + (if spot = .flag then 8 else 1)))
    (getPort (bitErrorSeen p kind tx spot (errorNoted p kind s)) p).collisions x

theorem errorCounted_port (p : Nat) (kind : CanErr) (tx : Bool) (spot : CanSpot) (s : State) :
    portCore (getPort (errorCounted p kind tx spot s) p) = portCore (portErred p kind tx spot s) := by
  refine (congrArg Prod.fst (canLevels_core ..)).trans (congrArg portCore ((getPort_modPort_own ..).trans
    (.trans (congrArg _ ?_) (errorRaised_errorPort ..))))
  refine canLost_induct (P := fun y => getPort y p = _) ((bitErrorSeen_port ..).trans ?_)
    fun _ _ _ _ => (bitErrorSeen_port ..).trans ?_
  · exact congrArg (withCollisions _) (getPort_modPort_own ..)
  · exact congrArg (withCollisions _) (getPort_modPort_own ..)

/-- The port enters bus-off, or offers its next frame. -/
noncomputable def errorEnded (p : Nat) (s : State) : State :=
  if 255 < (getPort s p).tec then busOffEnter p s else canOffer p s

theorem canErrorState_sending {p : Nat} {kind : CanErr} {tx : Bool} {spot : CanSpot} {s : State} (hs : canSends s p = true)
    (hm : canMode s p = 1) (hy : (getPort s p).synchronised = true) (hb : (getPort s p).busOff = false) :
    canErrorState p kind tx spot s = errorEnded p (errorCounted p kind tx spot s) := by
  have hsends : canSends (errorNoted p kind s) p = true :=
    (congrArg (fun x : CanPort => canOn s p && canMode s p == 1 && !x.restricted) (getPort_modPort_own ..)).trans hs
  exact (if_neg (not_refused (Bool.and_eq_true_iff.1 (Bool.and_eq_true_iff.1 hs).1).1 hy hb)).trans
    ((if_neg fun h => absurd (hm.symm.trans h) (by decide)).trans ((if_neg fun h => absurd (hm.symm.trans h) (by decide)).trans
      (if_neg (not_of_eq_false (congrArg not hsends)))))

/-- A port but for its levels and what bus-off changes. -/
noncomputable def portCounts (x : CanPort) : CanPort := { portCore x with busOff := false, busOffs := 0, recovering := false }

theorem portCounts_of_core {x y : CanPort} (h : portCore x = portCore y) : portCounts x = portCounts y :=
  (congrArg portCounts h :)

theorem errorEnded_counts {p : Nat} {s : State} {x : CanPort} (h : portCore (getPort s p) = portCore x) :
    portCounts (getPort (errorEnded p s) p) = portCounts x :=
  iteInduction (motive := fun y => portCounts (getPort y p) = portCounts x)
    (fun _ => (congrArg portCounts (busOffEnter_port p s)).trans (portCounts_of_core h :))
    (fun _ => portCounts_of_core ((canOffer_port p s).trans h))

theorem errorEnded_portErred (p : Nat) (kind : CanErr) (tx : Bool) (spot : CanSpot) (s : State) :
    portCounts (getPort (errorEnded p (errorCounted p kind tx spot s)) p) = portCounts (portErred p kind tx spot s) :=
  errorEnded_counts (errorCounted_port ..)

theorem portErred_sent {p : Nat} {kind : CanErr} {tx : Bool} {spot : CanSpot} {s : State} (htx : tx = true)
    (hk : kind ≠ .ack ∨ (getPort s p).passive = false) : (portErred p kind tx spot s).tec = (getPort s p).tec + 8 :=
  (if_pos htx).trans (if_neg fun h => hk.elim (fun k => k h.1) (fun k => not_of_eq_false k h.2))

theorem errorEnded_off {p : Nat} {s : State} {x : CanPort} (h : portCore (getPort s p) = portCore x) (hx : 255 < x.tec) :
    (getPort (errorEnded p s) p).busOff = true ∧ (getPort (errorEnded p s) p).busOffs = (x.busOffs + 1) % 2 ^ 32 := by
  have hoff : getPort (errorEnded p s) p = busOffPort (canFlags s p) (getPort s p) :=
    (congrArg (fun y => Machine.getPort y p) (if_pos (field_of portCore CanPort.tec (fun _ => rfl) h ▸ hx))).trans (busOffEnter_port ..)
  exact hoff ▸ ⟨rfl, congrArg (fun n => (n + 1) % 2 ^ 32) (field_of portCore CanPort.busOffs (fun _ => rfl) h)⟩

theorem errorEnded_on {p : Nat} {s : State} {x : CanPort} (h : portCore (getPort s p) = portCore x) (hx : x.tec ≤ 255) :
    (getPort (errorEnded p s) p).busOff = x.busOff :=
  (congrArg (fun y => (Machine.getPort y p).busOff) (if_neg (Nat.not_lt.2 (field_of portCore CanPort.tec (fun _ => rfl) h ▸ hx)))).trans
    (field_of portCore CanPort.busOff (fun _ => rfl) ((canOffer_port p s).trans h))

/-- The buffer of a third bit error keeps its collision to the error's end. -/
theorem errorEnded_collided {p b : Nat} {kind : CanErr} {tx : Bool} {spot : CanSpot} {s : State}
    (h : bitErrorSeen p kind tx spot (errorNoted p kind s) = bitCollided p b (errorNoted p kind s)) :
    Collided (bitOf (bufRec s p b).flags 5) (getBuf (errorEnded p (errorCounted p kind tx spot s)) p b) := by
  have hcounted : Collided (bitOf (bufRec s p b).flags 5) (getBuf (errorCounted p kind tx spot s) p b) := by
    delta errorCounted
    rw [h, canLevels_buf]
    exact (bitCollided_buf p b (errorNoted p kind s)).canLost
  exact iteInduction (motive := fun y => Collided _ (getBuf y p b)) (fun _ => hcounted.busOffEnter) (fun _ => hcounted.canOffer)

theorem portErred_collisions {p b : Nat} {kind : CanErr} {tx : Bool} {spot : CanSpot} {s : State}
    (h : bitErrorSeen p kind tx spot (errorNoted p kind s) = bitCollided p b (errorNoted p kind s)) :
    (portErred p kind tx spot s).collisions = ((getPort s p).collisions + 1) % 2 ^ 32 :=
  (congrArg (fun y => (Machine.getPort y p).collisions) h).trans ((congrArg CanPort.collisions (bitCollided_port ..)).trans
    (congrArg (fun x : CanPort => (x.collisions + 1) % 2 ^ 32) (getPort_modPort_own p _ s) :))

theorem execCanError_sending {t : Nat} {p : Fin 8} {kind : CanErr} {tx : Bool} {spot : CanSpot} {s : State}
    (hs : canSends (advance t s) p = true) (hm : canMode (advance t s) p = 1) (hy : (getPort s p).synchronised = true)
    (hb : (getPort s p).busOff = false) :
    exec (.canError t p kind tx spot) s = .next (errorEnded p (errorCounted p kind tx spot (advance t s))) :=
  congrArg Host.Outcome.next (canErrorState_sending hs hm hy hb)

/-! ### Recovery and integration (15 R364, R367, R380, R381) -/

/-- A buffer in one state changes. -/
noncomputable def changeAt (p a : Nat) (f : CanBuf → CanBuf) (b : Nat) (s : State) : State :=
  if (getBuf s p b).state = a then modBuf p b f s else s

theorem changeAt_keeps {P : CanBuf → Prop} {p a j : Nat} {f : CanBuf → CanBuf} (hf : ∀ y, P (f y)) (b : Nat) (s : State)
    (h : P (getBuf s p j)) : P (getBuf (changeAt p a f b s) p j) :=
  iteInduction (motive := fun y => P (getBuf y p j)) (fun _ => modBuf_induct h fun _ => hf _) (fun _ => h)

/-- No buffer of the list is left in the state. -/
theorem changeAt_clears {p a b : Nat} {f : CanBuf → CanBuf} {l : List Nat} (hf : ∀ y, (f y).state ≠ a) (hb : b ∈ l) (s : State) :
    (getBuf (forAll l (changeAt p a f) s) p b).state ≠ a :=
  forAll_reaches (Q := fun y => (getBuf y p b).state ≠ a) hb
    (fun s => iteInduction (motive := fun y => (getBuf y p b).state ≠ a) (fun _ => (getBuf_modBuf_own p b f s).symm ▸ hf _) id)
    (changeAt_keeps (P := fun y => y.state ≠ a) hf) s

theorem changeAt_ports (p a : Nat) (f : CanBuf → CanBuf) (l : List Nat) (s : State) :
    (forAll l (changeAt p a f) s).can.ports = s.can.ports :=
  forAll_induct (P := fun y => y.can.ports = s.can.ports) l (changeAt p a f)
    (fun _ _ h => iteInduction (motive := fun y : State => y.can.ports = s.can.ports) (fun _ => h) (fun _ => h)) s rfl

/-- A port whose recovery is complete. -/
noncomputable def recoveredPort (x : CanPort) : CanPort := { x with busOff := false, recovering := false, tec := 0, rec_ := 0 }

/-- The port is back, its levels and record with it. -/
noncomputable def portRecovered (p : Nat) (s : State) : State :=
  canLevels p (emit 0x7004 (canSource p 0xFF) [0, 0] (modPort p recoveredPort s))

/-- What was held is queued. -/
noncomputable def heldQueued (p : Nat) (s : State) : State :=
  forAll (canBufs s p) (changeAt p 3 (fun y => { y with state := 2 })) s

theorem portRecovered_core (p : Nat) (s : State) : portCore (getPort (canOffer p (heldQueued p (portRecovered p s))) p) =
    portCore (recoveredPort (getPort s p)) :=
  (canOffer_port ..).trans ((congrArg (fun t => portCore (Tbl.get t ({} : CanPort) p)) (changeAt_ports ..)).trans
    ((congrArg Prod.fst (canLevels_core ..)).trans (congrArg portCore (((emit_frame ..).getPort (by decide) p).trans
      (getPort_modPort_own ..)))))

theorem canBufs_portRecovered (p : Nat) (s : State) : canBufs (portRecovered p s) p = canBufs s p :=
  congrArg (fun c => canBufs { State.reset with config := c } p)
    (((canLevels_frame ..).same .config (by decide)).trans ((emit_frame ..).same .config (by decide)))

/-- No buffer stays held. -/
theorem portRecovered_unheld {p b : Nat} {s : State} (hb : b ∈ canBufs s p) :
    (getBuf (canOffer p (heldQueued p (portRecovered p s))) p b).state ≠ 3 :=
  canOffer_buf (P := fun y => y.state ≠ 3) (changeAt_clears (fun _ => (by decide : (2 : Nat) ≠ 3))
    ((canBufs_portRecovered p s).symm ▸ hb) _) fun _ _ _ _ => (by decide : (1 : Nat) ≠ 3)

theorem reenable_enables {p b : Nat} {s : State} (hb : b ∈ canBufs s p) (h : (getBuf s p b).state = 4) :
    (getBuf (reenable p s) p b).state = 1 :=
  (forAll_induct (P := fun y => (getBuf y p b).state = 4 ∨ (getBuf y p b).state = 1) (canBufs s p) _
    (changeAt_keeps (P := fun y => y.state = 4 ∨ y.state = 1) (fun _ => .inr rfl)) s (.inl h)).resolve_left
      (changeAt_clears (fun _ => (by decide : (1 : Nat) ≠ 4)) hb s)

theorem canRecover_notBulk : ∀ p : Fin 8, objKey (0x3600 + p) 7 ≠ objKey 0xF000 2 := by decide

theorem canRecover_notSigner : ∀ p : Fin 8, objKey (0x3600 + p) 7 / 256 ≠ 0xB000 := by decide

theorem canRecover_notArm : ∀ p : Fin 8, ¬(objKey (0x3600 + p) 7 / 256 = 0x38C0 ∨ objKey (0x3600 + p) 7 / 256 = 0x38C1) := by decide

theorem canRecover_isCan : ∀ p : Fin 8, 0x3600 ≤ objKey (0x3600 + p) 7 / 256 ∧ objKey (0x3600 + p) 7 / 256 ≤ 0x3607 := by decide

theorem canRecover_port : ∀ p : Fin 8, objKey (0x3600 + p) 7 / 256 - 0x3600 = p := by decide

theorem directEffect_canRecover (p : Fin 8) (data : List Byte) (n : Nat) (s : State) :
    directEffect (objKey (0x3600 + p) 7) data n s = (canRecoverNow p data n s).2 :=
  (if_neg (canRecover_notBulk p)).trans ((if_neg (canRecover_notSigner p)).trans ((if_neg (canRecover_notArm p)).trans
    ((if_pos (canRecover_isCan p)).trans (congrArg (fun p => (canRecoverNow p data n s).2) (canRecover_port p)))))

/-- A WRITE of `CAN_RECOVER` waits among the direct writes. -/
theorem canRecover_waits {t : Nat} {p : Fin 8} {c : Cmd} {k : Byte} {i : Instr} {s v : State}
    (hi : exec i s = .next (rowReq c (0x3600 + p) 7 [k] (canRecoverOp p) (advance t s))) (hv : served (found t s) c.hdr.session = v)
    (hr : c.rest = []) (hw : writeHeard (found t s) c (0x3600 + p) 7 [k] = true) :
    exec i s = .next (respond (found t s) c.hdr svcWrite (.ok []) { v with sess := { v.sess with
      direct := v.sess.direct ++ [{ key := objKey (0x3600 + p) 7, data := [k], session := c.hdr.session }] } }) := by
  refine hi.trans (congrArg Host.Outcome.next (rowReq_answers hw ?_))
  rw [hv, hr, List.append_nil]
  exact deferred_ok (op := canRecoverNow p) (b := []) rfl

theorem execBusOffRecoveryComplete_back {t : Nat} {p : Fin 8} {s : State} (hon : canOn (advance t s) p = true)
    (hb : (getPort s p).busOff = true) (hr : (getPort s p).recovering = true) :
    exec (.busOffRecoveryComplete t p) s = .next (canOffer p (heldQueued p (portRecovered p (advance t s)))) :=
  congrArg Host.Outcome.next (if_neg (not_refused hon hb (congrArg not hr)))

/-- An autobaud port at the next rate. -/
noncomputable def nextRate (now : Nat) (x : CanPort) : CanPort :=
  { x with rate := (x.rate + 1) % 9, rateAt := now, good := 0, bad := 0 }

theorem execAutobaudDwell_steps {t : Nat} {p : Fin 8} {s : State} (hon : canOn (advance t s) p = true)
    (hm : canMode (advance t s) p = 4) (hl : (getPort s p).locked = false)
    (hd : (getPort s p).rateAt + cfgNat s (0x3600 + p) 6 * 1000000 ≤ (advance t s).now) :
    exec (.autobaudDwell t p) s = .next (modPort p (nextRate (advance t s).now) (advance t s)) :=
  congrArg Host.Outcome.next (if_pos (and_eq_true_of (and_eq_true_of (and_eq_true_of hon (beq_iff_eq.2 hm))
    (congrArg not hl)) (decide_eq_true hd)))

/-- A port that has integrated. -/
noncomputable def inSync (x : CanPort) : CanPort := { x with synchronised := true }

theorem canOffer_inSync (p : Nat) (s : State) : portCore (getPort (canOffer p (modPort p inSync s)) p) =
    portCore (inSync (getPort s p)) :=
  (canOffer_port ..).trans (congrArg portCore (getPort_modPort_own ..))

theorem execBusIntegrated_offers {t : Nat} {p : Fin 8} {s : State} (hon : canOn (advance t s) p = true) :
    exec (.busIntegrated t p) s = .next (canOffer p (modPort p inSync (advance t s))) :=
  congrArg Host.Outcome.next (if_pos hon)

theorem startRecovery_recovering {p : Nat} {s : State} (h : (getPort s p).busOff = true) :
    (getPort (startRecovery p s) p).recovering = true :=
  (congrArg CanPort.recovering (getPort_modPort_own ..)).trans (congrArg CanPort.recovering (if_pos h))

/-- Settles O50: an error at a sending port, recovery, autobaud and integration; a request of recovery waiting, and in effect. -/
theorem canErrorsConfineAndPortsRecover : Obligations.CanErrorsConfineAndPortsRecover := by
  refine ⟨fun t p s => ?_, ?_, ?_⟩
  · intro v x
    refine ⟨fun kind tx spot hs hm hy hb => ⟨_, execCanError_sending hs hm hy hb,
      field_of portCounts CanPort.errors (fun _ => rfl) (errorEnded_portErred ..),
      field_of portCounts CanPort.lastError (fun _ => rfl) (errorEnded_portErred ..),
      fun htx hk => ⟨(field_of portCounts CanPort.tec (fun _ => rfl) (errorEnded_portErred ..)).trans (portErred_sent htx hk),
        (field_of portCounts CanPort.rec_ (fun _ => rfl) (errorEnded_portErred ..)).trans (if_pos htx),
        fun h => errorEnded_off (x := portErred p kind tx spot v) (errorCounted_port ..) ((portErred_sent htx hk).symm ▸ h),
        fun h => (errorEnded_on (errorCounted_port ..) ((portErred_sent htx hk).symm ▸ h)).trans hb⟩,
      fun htx hk hp => (field_of portCounts CanPort.tec (fun _ => rfl) (errorEnded_portErred ..)).trans
        ((if_pos htx).trans (if_pos ⟨hk, hp⟩)),
      fun htx => ⟨(field_of portCounts CanPort.rec_ (fun _ => rfl) (errorEnded_portErred ..)).trans (if_neg (not_of_eq_false htx)),
        (field_of portCounts CanPort.tec (fun _ => rfl) (errorEnded_portErred ..)).trans (if_neg (not_of_eq_false htx))⟩,
      fun b htx hspot hkind hbus h2 => ?_⟩,
      fun hon hb hr => ⟨_, execBusOffRecoveryComplete_back hon hb hr,
        field_of portCore CanPort.busOff (fun _ => rfl) (portRecovered_core ..),
        field_of portCore CanPort.recovering (fun _ => rfl) (portRecovered_core ..),
        field_of portCore CanPort.tec (fun _ => rfl) (portRecovered_core ..),
        field_of portCore CanPort.rec_ (fun _ => rfl) (portRecovered_core ..), fun b => portRecovered_unheld⟩,
      fun hon hm hl hd => ⟨_, execAutobaudDwell_steps hon hm hl hd, congrArg CanPort.rate (getPort_modPort_own ..)⟩,
      fun hon => ⟨_, execBusIntegrated_offers hon, field_of portCore CanPort.synchronised (fun _ => rfl) (canOffer_inSync ..),
        (field_of portCore CanPort.tec (fun _ => rfl) (canOffer_inSync ..) :)⟩⟩
    have hthird := bitErrorSeen_third (s := errorNoted p kind v) htx hspot hkind hbus h2
    exact ⟨(errorEnded_collided hthird).1, (field_of portCounts CanPort.collisions (fun _ => rfl) (errorEnded_portErred ..)).trans
      (portErred_collisions hthird), fun hd => ((errorEnded_collided hthird).2 hd).1⟩
  · intro t p c s v waits hr
    exact ⟨canRecover_waits rfl rfl hr, canRecover_waits rfl rfl hr⟩
  · intro p n s acts
    exact ⟨fun hb => ⟨(congrArg (fun y => (Machine.getPort y p).recovering) (directEffect_canRecover ..)).trans
        (startRecovery_recovering hb), congrArg (·.can.bufs) (directEffect_canRecover ..)⟩,
      (congrArg (·.can.ports) (directEffect_canRecover ..)).trans (changeAt_ports ..), fun b hb h =>
        (congrArg (fun y => (Machine.getBuf y p b).state) (directEffect_canRecover ..)).trans (reenable_enables hb h)⟩

end Sys2Proof.Machine
end
